-- ==== Sys2Proof/Word.lean ====
section
/-! DEFINITION. Sys2Proof/Word.lean: the machine's words and the small structures that commands and state share: a core position, a KFL control message, a THP packet, a parsed program image. -/

namespace Sys2Proof

/-- A register of the device: 64 bits (R9). -/
abbrev Word := BitVec 64

/-- One byte. -/
abbrev Byte := BitVec 8

/-- A run of bytes, lowest address first (R5). -/
abbrev Bytes := List Byte

/-- A logical core position (R12): hall, row, column. -/
structure CoreId where
  hall : Fin 8
  row : Fin 12
  col : Fin 12
  deriving DecidableEq, Repr

/-- A context number (R16). -/
abbrev CtxId := Fin 8

/-- A fabric link number (R13). -/
abbrev LinkId := Fin 24

/-- A group control message, KFL control kind 5 (R308), without its GTYPE. -/
structure GMsg where
  group : BitVec 10
  epoch : BitVec 16
  arg : BitVec 24
  dir : Bool
  value : BitVec 64
  deriving DecidableEq, Repr

/-- A KFL control message (R276, R277, R308). `other` is a reserved kind. -/
inductive CtlMsg where
  | semAdd (dst src : BitVec 24) (group : BitVec 10) (vsem : BitVec 14) (addend : BitVec 32)
  | semWatch (dst src : BitVec 24) (group : BitVec 10) (vsem : BitVec 14) (rlink : BitVec 5) (rtag : BitVec 6) (cond : BitVec 2) (value : BitVec 32)
  | watchFire (dst src : BitVec 24) (rlink : BitVec 5) (rtag : BitVec 6) (orphan : Bool)
  | mgmt (mtype : BitVec 4) (body : BitVec 116)
  | group (gtype : BitVec 4) (m : GMsg)
  | other (kind : BitVec 3) (bits : BitVec 120)
  deriving DecidableEq, Repr

/-- Who sends a register access (R9): the Housekeeper, the host through THP, or a RoCEv2 doorbell. -/
inductive Requester where
  | housekeeper
  | host
  | rdma
  deriving DecidableEq, Repr

/-- What a program image gives one core (R16, R363, R376). -/
structure ImgCore where
  pos : CoreId
  entry : BitVec 16
  recovery : BitVec 16
  stage : Nat
  deriving DecidableEq, Repr

/-- The stage table of an image (R257, R259): Even or Relief mode, the read-ahead bound in KiB, and per entry the virtual page where the stage's slices
begin and the slice size of a core in 4 KiB units. -/
structure StageTable where
  even : Bool
  leadKib : BitVec 13
  entries : List (BitVec 27 × BitVec 20)
  deriving DecidableEq, Repr

/-- A Treuz program image as the Housekeeper's loader reads it (R2, R376). The spec gives only its signature block
byte by byte (R426); the rest reaches the model parsed (assumption 6). `badAt` is the offset of the first byte that is
not TPI, `stages` the stages of the pipeline, `regs` every other register and table value the Housekeeper writes, `store` every run of bytes it writes to core stores and to
the reserved regions of HBM. -/
structure Image where
  badAt : Option (BitVec 32)
  ctx : CtxId
  cores : List ImgCore
  halls : BitVec 8
  stages : Nat
  table : StageTable
  microBatches : Nat
  millers : List (BitVec 10 × BitVec 24)
  regs : List (BitVec 48 × Word)
  store : List (BitVec 48 × Bytes)
  deriving DecidableEq, Repr

/-- What a grid build finds on the part (R184, R189, R388): per failing hall the cause with the failing position of cause 3, and
the base power measured at G1 to G4. -/
structure BuildEnv where
  fail : List (Fin 8 × BitVec 4 × BitVec 11)
  baseW : List (BitVec 12)
  deriving DecidableEq, Repr

/-- Why a sample is dropped (R329): reason, byte offset in the clip of the first damaged byte, display index of the first bad or missing frame. -/
structure DropInfo where
  reason : BitVec 3
  offset : Word
  frame : Word
  /-- Pictures and luma pixels decoded before the drop (R351). -/
  pictures : Nat
  pixels : Nat
  deriving DecidableEq, Repr

/-- What a decode engine and the shared pipeline deliver for one sample (R332 to R335): the matrices and the figures of the header and the counters. -/
structure SampleData where
  video : Bytes
  audio : Bytes
  aRows : Nat
  aCols : Nat
  time : Word
  pictures : Nat
  pixels : Nat
  deriving DecidableEq, Repr

/-- The video standards of R322 and R323. -/
inductive Codec where
  | mpeg2
  | h264
  | hevc
  deriving DecidableEq, Repr, Inhabited

/-- The audio standards of R324. -/
inductive ACodec where
  | layer2
  | aacLc
  deriving DecidableEq, Repr, Inhabited

/-- The profiles that R323 names; every other profile, and Baseline with arbitrary slice order or flexible macroblock ordering, is `other`. -/
inductive VProfile where
  | simple
  | main
  | p422
  | constrainedBaseline
  | high
  | high422Intra
  | main10
  | mainStill
  | other
  deriving DecidableEq, Repr, Inhabited

/-- What the syntax of one coded video sequence states (R323, R332): ten times the level for H.264 and HEVC, 1 to 4 for MPEG-2's Low to High; chroma 1 for
4:2:0, 2 for 4:2:2; the coded size and what the stream's own cropping takes off each side; the colour description; the chroma siting in quarters of a luma
pixel; the duration of a frame in 90 kHz ticks. -/
structure SeqSyn where
  profile : VProfile
  level : Nat
  highTier : Bool
  chroma : Nat
  depth : Nat
  codedW : Nat
  codedH : Nat
  cropLeft : Nat
  cropRight : Nat
  cropTop : Nat
  cropBottom : Nat
  matrix : Option Nat
  fullRange : Bool
  siteX : Int
  siteY : Int
  frameTicks : Nat
  deriving DecidableEq, Repr, Inhabited

/-- The coding type of a picture. -/
inductive PicType where
  | i
  | p
  | b
  deriving DecidableEq, Repr, Inhabited

/-- The structure of a coded picture: a frame, or a field. -/
inductive PicField where
  | frame
  | top
  | bottom
  deriving DecidableEq, Repr, Inhabited

/-- How the pic_struct of an HEVC field names its partner (R326). -/
inductive PairHint where
  | none
  | prev
  | next
  deriving DecidableEq, Repr, Inhabited

/-- What the syntax of one coded picture states (R325 to R328), in decode order: where its bytes lie in the elementary stream; its parameters among `seqs`; its
coded video sequence and its place in it; random access and reference marks; the pictures it references, by decode order; the first byte whose syntax is in error; whether every slice
is there. -/
structure PicSyn where
  pos : Nat
  len : Nat
  params : Nat
  seq : Nat
  order : Int
  ptype : PicType
  field : PicField
  hint : PairHint
  startsGop : Bool
  closedGop : Bool
  idr : Bool
  recovery : Option Nat
  irap : Bool
  rasl : Bool
  reference : Bool
  refs : List Nat
  errAt : Option Nat
  slicesAll : Bool
  deriving DecidableEq, Repr, Inhabited

/-- What the syntax of a video stream states. -/
structure VideoSyn where
  seqs : List SeqSyn
  pics : List PicSyn
  deriving DecidableEq, Repr, Inhabited

/-- One audio frame (R328, R334): its bytes, its samples, the first byte whose syntax is in error, whether its Layer II CRC fails. -/
structure AudFrame where
  pos : Nat
  len : Nat
  samples : Nat
  errAt : Option Nat
  crcBad : Bool
  deriving DecidableEq, Repr, Inhabited

/-- What the syntax of an audio stream states (R324): whether it is the standard it should be, its rate and its channels. -/
structure AudioSyn where
  ok : Bool
  rate : Nat
  channels : Nat
  frames : List AudFrame
  deriving DecidableEq, Repr, Inhabited

/-- A sample entry of an ISO file (R322): its four-character code; what its object type names, for mp4v and mp4a; an external data reference; the decoder
configuration it carries. -/
structure IsoEntry where
  fourcc : Bytes
  mpeg2Video : Bool
  aac : Bool
  layer2 : Bool
  external : Bool
  config : Bytes
  deriving DecidableEq, Repr, Inhabited

/-- A sample of an ISO track in decode order (R325, R328). -/
structure IsoSample where
  offset : Nat
  size : Nat
  decodeTime : Int
  compOffset : Int
  deriving DecidableEq, Repr, Inhabited

/-- A track of an ISO file. -/
structure IsoTrack where
  id : Nat
  video : Bool
  audio : Bool
  timescale : Nat
  entries : List IsoEntry
  samples : List IsoSample
  deriving DecidableEq, Repr, Inhabited

/-- An access unit's run in an elementary stream: a PES packet, or an ISO sample (R325, R328): its place and length in the stream, its time (33 bits for a PES
packet), and the offset in the clip of its first damaged byte. -/
structure UnitS where
  pos : Nat
  len : Nat
  time : Option Int
  dmg : Option Nat
  deriving DecidableEq, Repr

/-- An elementary stream taken out of a clip: its bytes, its units, where runs of it lie in the clip (place, length, offset), and the offset of the first
poisoned byte of a run. -/
structure EsS where
  bytes : Bytes
  units : List UnitS
  chunks : List (Nat × Nat × Nat)
  poison : List (Nat × Nat × Nat)
  deriving DecidableEq, Repr

/-- The index of a clip (R320): whether its container, its video and its audio are supported, and both streams with what their syntax states. -/
structure ClipIx where
  unsupported : Bool
  /-- The first poisoned byte of the tables or boxes that every sample needs (R330). -/
  lost : Option Nat
  iso : Bool
  codec : Codec
  vConfig : Bytes
  video : EsS
  vSyn : VideoSyn
  hasAudio : Bool
  acodec : ACodec
  aConfig : Bytes
  audio : EsS
  aSyn : AudioSyn
  deriving DecidableEq, Repr

/-- One 40 ns energy sample (R386): microjoules per block, temperatures in 1/8 degree C, the input. -/
structure EnergySample where
  mod : Nat
  hallUj : List Nat
  stackUj : List Nat
  links : Nat
  front : Nat
  headrace : Nat
  temps : List (BitVec 16)
  vinMv : BitVec 16
  iinMa : BitVec 17
  deriving DecidableEq, Repr

/-- A PLL of R394 that reports or fails a lock (R390, R397). -/
inductive PllDom where
  | hall (h : Fin 8)
  | front
  | ether
  | stack (pair : Fin 6)
  | link (n : LinkId)
  deriving DecidableEq, Repr

/-- What the board and the part give a start (R409, R411): the straps seen and the outcome of each step. -/
structure StartEnv where
  bootSrc : BitVec 2
  clkMode : BitVec 2
  /-- PLLs that fail to lock twice (R397). -/
  pllFail : List PllDom
  trainFail : List (Fin 12)
  selfTestOk : Bool
  deriving DecidableEq, Repr

/-- A received RoCEv2 packet (R377); `intact`: its ICRC and its IPv6 and UDP checksums are good. -/
structure RdmaPkt where
  opcode : BitVec 8
  psn : BitVec 24
  va : BitVec 64
  rkey : BitVec 32
  dlen : BitVec 32
  payload : Bytes
  ackReq : Bool
  ce : Bool
  intact : Bool
  deriving DecidableEq, Repr

/-- The host end of a THP session: IPv6 address and UDP port (R370). -/
structure HostAddr where
  ip : BitVec 128
  port : BitVec 16
  deriving DecidableEq, Repr

/-- Who sends a THP request: the session that it names and the address and port that it comes from (R370, R381). -/
structure ThpFrom where
  sid : BitVec 32
  src : HostAddr
  deriving DecidableEq, Repr

/-- Where an IPv6 packet goes: the host, and the MAC address of its frame, none for the one that Neighbor Discovery gives (R368). -/
structure Dest where
  host : HostAddr
  mac : Option (BitVec 48)
  deriving DecidableEq, Repr

/-- Why the port drops a received frame (R368, R369, R377). -/
inductive EthDrop where
  | badFcs
  | ipv4
  | extHeader
  | otherPort
  /-- A UDP payload for the THP port whose header is bad (R369). -/
  | thpMalformed (udp : Bytes)
  /-- A packet that fails the IPv6 or UDP checksum or the ICRC (R377). -/
  | badChecksum
  /-- A frame of more than 9,216 bytes (R368). -/
  | tooLong
  deriving DecidableEq, Repr

/-- A bell-wire message returned by a core that holds no context state (R235). -/
inductive RetMsg where
  | wake (orphan : Bool)
  | fire (sc : BitVec 6) (orphan : Bool)
  | post (sc : BitVec 6) (count : BitVec 32)
  deriving DecidableEq, Repr

/-- A bell-wire message in flight (R175, R176): header flit, payload flits, the router it stands at (global column and row), and the
router input whose queue holds it: 0 N, 1 E, 2 S, 3 W, 4 the core, 5 the hall control node. `out` marks one that has reached its node
and waits there to be taken. -/
structure BellMsg where
  hdr : BitVec 32
  pay : List (BitVec 32)
  x : Nat
  y : Nat
  inp : Nat
  out : Bool
  deriving DecidableEq, Repr

/-- Who sends a FAULT message (R179): a core, or a hall control node. -/
inductive FaultSrc where
  | core (c : CoreId)
  | hall (h : Fin 8)
  deriving DecidableEq, Repr

/-- Kinds of request to a stack cache (R202): a read, a partial write, a write of a whole line, an accumulate, a prefetch. -/
inductive StackReq where
  | read
  | partialWrite
  | fullLine
  | accumulate
  | prefetch
  deriving DecidableEq, Repr

/-- The outcome of a memory read at a stack (R199): clean, corrected, or uncorrectable. -/
inductive EccRes where
  | clean
  | corrected
  | bad
  deriving DecidableEq, Repr

/-- How a request comes to its stack (R199, R201): by which edge core and lane of the router, and what a hit finds in the cache's array. -/
structure Arrival where
  port : Fin 4
  lane : Fin 4
  ecc : EccRes
  deriving DecidableEq, Repr

/-- A context on a core (R235). -/
structure CtxAt where
  core : CoreId
  ctx : CtxId
  deriving DecidableEq, Repr

end Sys2Proof
end

