-- ==== Sys2Proof/Machine/Bits.lean ====
section
/-! DEFINITION. Sys2Proof/Machine/Bits.lean: byte order (R5), sign extension, checksums: the helpers every meaning uses. -/

namespace Sys2Proof.Machine

/-- Bytes, least significant first, as a number (R5) (log entry 19, DEDUCED). -/
def leNat : Bytes → Nat
  | [] => 0
  | b :: bs => b.toNat + 256 * leNat bs

/-- The low `n` bytes of a number, least significant first (R5). -/
def natBytes : Nat → Nat → Bytes
  | 0, _ => []
  | n + 1, v => BitVec.ofNat 8 v :: natBytes n (v / 256)

/-- `n` bytes of a run from offset `o`, zero where the run has ended. -/
def slice (b : Bytes) (o n : Nat) : Bytes := (List.range n).map fun i => b.getD (o + i) 0

/-- The little-endian number in bytes `o` to `o + n - 1`. -/
def leAt (b : Bytes) (o n : Nat) : Nat := leNat (slice b o n)

/-- A run of `n` zero bytes. -/
def zeros (n : Nat) : Bytes := List.replicate n 0

/-- The value of an `n`-bit two's complement number. -/
def sextNat (n v : Nat) : Int := if v % 2 ^ n < 2 ^ (n - 1) then v % 2 ^ n else (v % 2 ^ n : Nat) - (2 ^ n : Nat)

/-- An integer as a word, modulo 2^64. -/
def wordOfInt (i : Int) : Word := BitVec.ofInt 64 i

/-- Bit `i` of a number. -/
def bitN (v i : Nat) : Bool := v / 2 ^ i % 2 == 1

/-- A Bool as a number. -/
def bton (b : Bool) : Nat := if b then 1 else 0

/-- Bits [hi:lo] of a number. -/
def bitsN (v hi lo : Nat) : Nat := v / 2 ^ lo % 2 ^ (hi + 1 - lo)

/-- One bit step of the reflected CRC-32C (R433). -/
def crcBit (c : BitVec 32) : BitVec 32 := if c.getLsbD 0 then (c >>> 1) ^^^ 0x82F63B78 else c >>> 1

/-- The CRC-32C register after one more byte. -/
def crcByte (c : BitVec 32) (b : Byte) : BitVec 32 :=
  let x := c ^^^ b.setWidth 32
  crcBit (crcBit (crcBit (crcBit (crcBit (crcBit (crcBit (crcBit x)))))))

/-- CRC-32C: Castagnoli, reflected, initial value and final XOR all ones (R433). -/
def crc32c (bs : Bytes) : BitVec 32 := bs.foldl crcByte 0xFFFFFFFF ^^^ 0xFFFFFFFF

/-- ASCII text as bytes. -/
def ascii (t : String) : Bytes := t.toList.map fun c => BitVec.ofNat 8 c.toNat

/-- The first `n` elements of `l` changed at index `i`. -/
def setAt {α : Type} (l : List α) (i : Nat) (v : α) : List α := l.set i v

/-- Remove the first element that satisfies `p`; none when there is none. -/
def takeFirst {α : Type} (p : α → Bool) : List α → Option (α × List α)
  | [] => none
  | a :: l => if p a then some (a, l) else (takeFirst p l).map fun r => (r.1, a :: r.2)

/-- `l` without its first element that satisfies `p`. -/
def dropFirst {α : Type} (p : α → Bool) (l : List α) : List α :=
  match takeFirst p l with
  | some r => r.2
  | none => l

end Sys2Proof.Machine
end

