-- ==== Sys2Proof/Syntax.lean ====
section
/-! DEFINITION. Sys2Proof/Syntax.lean: the commands of the block, one constructor for each of the 272 rows of spec/opcode_table.json. A row that stands for an instruction names the core whose bundle holds it; a row that stands for an event carries what the world outside the block supplies. -/

namespace Sys2Proof

/-- The commands of the device (spec/opcode_table.json). -/
inductive Instr where
  /-- BUNDLE_FETCH (R52): Fetch reads one 128-byte code line of four bundles through port F once the issue queue has room for four bundles. -/
  | bundleFetch (c : CoreId)
  /-- BUNDLE_ISSUE (R28): The head bundle is checked and issues whole in a cc in which every slot's operands, destinations, reservations, units and waits allow it; otherwise it waits. -/
  | bundleIssue (c : CoreId)
  /-- BR (R135): Conditional branch: S[SA] is compared with zero and the branch goes to index + OFF if COND holds. -/
  | br (c : CoreId) (cond : BitVec 3) (sa : BitVec 5) (off : BitVec 18)
  /-- JMP (R135): Jump to bundle index TARGET. -/
  | jmp (c : CoreId) (target : BitVec 16)
  /-- JMPR (R135): Jump to the bundle index held in S[SA][15:0]. -/
  | jmpr (c : CoreId) (sa : BitVec 5)
  /-- CALL (R135): S31 receives index + 1 and control jumps to TARGET. -/
  | call (c : CoreId) (target : BitVec 16)
  /-- CALLR (R135): S31 receives index + 1 and control jumps to S[SA][15:0]. -/
  | callr (c : CoreId) (sa : BitVec 5)
  /-- LOOP (R136): Opens a hardware loop, or skips the body when the count is zero. -/
  | loop (c : CoreId) (src : Bool) (sa : BitVec 5) (icount : BitVec 8) (len : BitVec 12)
  /-- LBRK (R136): Closes the innermost loop and continues at its END + 1. -/
  | lbrk (c : CoreId)
  /-- STEPEND (R137): The step-end marker issues; the core then issues nothing until it retires, the device step boundary or join timeout is reached, and any gear change completes. -/
  | stepend (c : CoreId)
  /-- EXIT (R137): Behaves as STEPEND and then the core leaves the context; the context ends once every one of its cores has exited. -/
  | exit (c : CoreId)
  /-- BRKPT (R135): Sets CORE_CTL.HALT after its bundle; no record is written. -/
  | brkpt (c : CoreId)
  /-- STEPEND_RETIRE (R98): The step-end marker retires once every mesh-send row of the step has left the mesh, every pass is resident and no chain is open. -/
  | stependRetire (c : CoreId)
  /-- CONTEXT_STEP_BOUNDARY (R16): Every core of the context has retired its step-end marker and every stream completion of the step has signalled. -/
  | contextStepBoundary (k : CtxId)
  /-- DEVICE_STEP_BOUNDARY (R16): Every running context is at a context step boundary at once; the halls report to the controller and ENG_W and the step figures update. -/
  | deviceStepBoundary
  /-- JOIN_TIMEOUT (R16): The join wait of EBC_CTL.JOIN_US expires; the waiting context's cores are released with the gear and decode share unchanged. -/
  | joinTimeout (k : CtxId)
  /-- ADD (R138): SD receives SA + SB, modulo 2^64. -/
  | add (c : CoreId) (sd : BitVec 5) (sa : BitVec 5) (sb : BitVec 5)
  /-- SUB (R138): SD receives SA - SB, modulo 2^64. -/
  | sub (c : CoreId) (sd : BitVec 5) (sa : BitVec 5) (sb : BitVec 5)
  /-- AND (R138): SD receives the bitwise AND of SA and SB. -/
  | and (c : CoreId) (sd : BitVec 5) (sa : BitVec 5) (sb : BitVec 5)
  /-- OR (R138): SD receives the bitwise OR of SA and SB. -/
  | or (c : CoreId) (sd : BitVec 5) (sa : BitVec 5) (sb : BitVec 5)
  /-- XOR (R138): SD receives the bitwise XOR of SA and SB. -/
  | xor (c : CoreId) (sd : BitVec 5) (sa : BitVec 5) (sb : BitVec 5)
  /-- SHL (R138): SD receives SA shifted left by SB[5:0]. -/
  | shl (c : CoreId) (sd : BitVec 5) (sa : BitVec 5) (sb : BitVec 5)
  /-- SHR (R138): SD receives SA logically shifted right by SB[5:0]. -/
  | shr (c : CoreId) (sd : BitVec 5) (sa : BitVec 5) (sb : BitVec 5)
  /-- SRA (R138): SD receives SA arithmetically shifted right by SB[5:0]. -/
  | sra (c : CoreId) (sd : BitVec 5) (sa : BitVec 5) (sb : BitVec 5)
  /-- SLT (R138): SD receives 1 if SA < SB, compared signed, and 0 otherwise. -/
  | slt (c : CoreId) (sd : BitVec 5) (sa : BitVec 5) (sb : BitVec 5)
  /-- SLTU (R138): SD receives 1 if SA < SB, compared unsigned, and 0 otherwise. -/
  | sltu (c : CoreId) (sd : BitVec 5) (sa : BitVec 5) (sb : BitVec 5)
  /-- SEQ (R138): SD receives 1 if SA equals SB, and 0 otherwise. -/
  | seq (c : CoreId) (sd : BitVec 5) (sa : BitVec 5) (sb : BitVec 5)
  /-- MIN (R138): SD receives the signed minimum of SA and SB. -/
  | min (c : CoreId) (sd : BitVec 5) (sa : BitVec 5) (sb : BitVec 5)
  /-- MAX (R138): SD receives the signed maximum of SA and SB. -/
  | max (c : CoreId) (sd : BitVec 5) (sa : BitVec 5) (sb : BitVec 5)
  /-- ADDI (R138): SD receives SA plus the sign-extended immediate. -/
  | addi (c : CoreId) (sd : BitVec 5) (sa : BitVec 5) (imm : BitVec 16)
  /-- ANDI (R138): SD receives SA AND the zero-extended immediate. -/
  | andi (c : CoreId) (sd : BitVec 5) (sa : BitVec 5) (imm : BitVec 16)
  /-- ORI (R138): SD receives SA OR the zero-extended immediate. -/
  | ori (c : CoreId) (sd : BitVec 5) (sa : BitVec 5) (imm : BitVec 16)
  /-- XORI (R138): SD receives SA XOR the zero-extended immediate. -/
  | xori (c : CoreId) (sd : BitVec 5) (sa : BitVec 5) (imm : BitVec 16)
  /-- SHLI (R138): SD receives SA shifted left by IMM[5:0]. -/
  | shli (c : CoreId) (sd : BitVec 5) (sa : BitVec 5) (imm : BitVec 16)
  /-- SHRI (R138): SD receives SA logically shifted right by IMM[5:0]. -/
  | shri (c : CoreId) (sd : BitVec 5) (sa : BitVec 5) (imm : BitVec 16)
  /-- SRAI (R138): SD receives SA arithmetically shifted right by IMM[5:0]. -/
  | srai (c : CoreId) (sd : BitVec 5) (sa : BitVec 5) (imm : BitVec 16)
  /-- SLTI (R138): SD receives 1 if SA is less than the immediate, compared signed, and 0 otherwise. -/
  | slti (c : CoreId) (sd : BitVec 5) (sa : BitVec 5) (imm : BitVec 16)
  /-- MOVI (R138): SD receives the sign-extended 21-bit immediate. -/
  | movi (c : CoreId) (sd : BitVec 5) (imm : BitVec 21)
  /-- INSH (R138): Inserts the 16-bit immediate into halfword K of SD and keeps the other bits. -/
  | insh (c : CoreId) (sd : BitVec 5) (k : BitVec 2) (imm : BitVec 16)
  /-- RDSP (R138): Reads SLOT, CORE_ID, the context, the bundle index or the innermost loop COUNT into SD. -/
  | rdsp (c : CoreId) (sd : BitVec 5) (sel : BitVec 4)
  /-- TCFG (R139): Writes TILE_CFG[TN] from S[SA] once no in-flight instruction uses TN; it raises TILE_SHAPE if a field is out of range. -/
  | tcfg (c : CoreId) (tn : BitVec 6) (sa : BitVec 5)
  /-- MUL (R138): SD receives the low 64 bits of SA × SB. -/
  | mul (c : CoreId) (sd : BitVec 5) (sa : BitVec 5) (sb : BitVec 5)
  /-- MULH (R138): SD receives the high 64 bits of the signed product SA × SB. -/
  | mulh (c : CoreId) (sd : BitVec 5) (sa : BitVec 5) (sb : BitVec 5)
  /-- MULHU (R138): SD receives the high 64 bits of the unsigned product SA × SB. -/
  | mulhu (c : CoreId) (sd : BitVec 5) (sa : BitVec 5) (sb : BitVec 5)
  /-- DIV (R139): Signed division rounding toward zero, with the stated results for division by zero and overflow. -/
  | div (c : CoreId) (sd : BitVec 5) (sa : BitVec 5) (sb : BitVec 5)
  /-- DIVU (R139): Unsigned division. -/
  | divu (c : CoreId) (sd : BitVec 5) (sa : BitVec 5) (sb : BitVec 5)
  /-- REM (R139): Signed remainder. -/
  | rem (c : CoreId) (sd : BitVec 5) (sa : BitVec 5) (sb : BitVec 5)
  /-- REMU (R139): Unsigned remainder. -/
  | remu (c : CoreId) (sd : BitVec 5) (sa : BitVec 5) (sb : BitVec 5)
  /-- FADD (R139): FP32 addition, rounded to nearest even. -/
  | fadd (c : CoreId) (sd : BitVec 5) (sa : BitVec 5) (sb : BitVec 5)
  /-- FMUL (R139): FP32 multiplication, rounded to nearest even. -/
  | fmul (c : CoreId) (sd : BitVec 5) (sa : BitVec 5) (sb : BitVec 5)
  /-- FFMA (R139): FP32 fused multiply-add SD ← SA × SB + SD, rounded once. -/
  | ffma (c : CoreId) (sd : BitVec 5) (sa : BitVec 5) (sb : BitVec 5)
  /-- FCVTI (R138): Converts FP32 to a saturating signed 64-bit integer; NaN becomes 0. -/
  | fcvti (c : CoreId) (sd : BitVec 5) (sa : BitVec 5)
  /-- ICVTF (R138): Converts a signed 64-bit integer to FP32, ties to even. -/
  | icvtf (c : CoreId) (sd : BitVec 5) (sa : BitVec 5)
  /-- TLD (R64): Tile load: N rows are read from the core store at B + i × D into a tile. -/
  | tld (c : CoreId) (t : BitVec 6) (n : BitVec 6) (sb : BitVec 5) (ss : BitVec 5) (off : BitVec 16)
  /-- TST (R64): Tile store: N rows of a tile are written to the core store in ascending order. -/
  | tst (c : CoreId) (t : BitVec 6) (n : BitVec 6) (sb : BitVec 5) (ss : BitVec 5) (off : BitVec 16)
  /-- TCPY (R58): Copies N rows from one tile to another within the tile file. -/
  | tcpy (c : CoreId) (td : BitVec 6) (n : BitVec 6) (ts : BitVec 6)
  /-- MSND (R37): Mesh send: N tile rows are sent on a flow in its injection slots. -/
  | msnd (c : CoreId) (ts : BitVec 6) (n : BitVec 6) (flow : BitVec 6) (ct : BitVec 6)
  /-- MSND_COMPLETE (R37): The last row of a send leaves at s_(N-1); the flow is freed and the local completion target is posted. -/
  | msndComplete (c : CoreId) (flow : BitVec 6)
  /-- MBIND (R38): Opens a receive binding for a flow; with a row count of 0 it closes at once and posts zero. -/
  | mbind (c : CoreId) (flow : BitVec 6) (ct : BitVec 6) (sb : BitVec 5) (ss : BitVec 5) (sn : BitVec 5)
  /-- SLNCH (R140): Launches a stream descriptor into a live descriptor entry, waiting while 64 are live. -/
  | slnch (c : CoreId) (sb : BitVec 5) (off : BitVec 16)
  /-- SLD (R141): Loads a scalar of W bytes from the core store through port M. -/
  | sld (c : CoreId) (sd : BitVec 5) (sb : BitVec 5) (w : BitVec 2) (sx : Bool) (off : BitVec 16)
  /-- SST (R141): Stores a scalar of W bytes to the core store through port M. -/
  | sst (c : CoreId) (sa : BitVec 5) (sb : BitVec 5) (w : BitVec 2) (off : BitVec 16)
  /-- VLD (R141): Loads a 128-byte vector register from the core store. -/
  | vld (c : CoreId) (vd : BitVec 4) (sb : BitVec 5) (off : BitVec 16)
  /-- VST (R141): Stores a 128-byte vector register to the core store. -/
  | vst (c : CoreId) (va : BitVec 4) (sb : BitVec 5) (off : BitVec 16)
  /-- PASS (R78): Array pass: an activation tile is multiplied by a weight tile, with chain handling. -/
  | pass (c : CoreId) (ta : BitVec 6) (tw : BitVec 6) (td : BitVec 6) (n : BitVec 6) (rate : BitVec 2) (keep : Bool) (chain : Bool)
  /-- PASS_CHECK (R90): The checksum comparison of a pass or chain ends at e + 72, and the result is written or the mismatch handled. -/
  | passCheck (c : CoreId) (upsets : List (BitVec 10 × BitVec 32))
  /-- ASTAT (R143): Writes ARR_STATUS[23:0] into SD. -/
  | astat (c : CoreId) (sd : BitVec 5)
  /-- VADD (R161): Lane-wise FP32 addition. -/
  | vadd (c : CoreId) (vd : BitVec 4) (va : BitVec 4) (vb : BitVec 4)
  /-- VSUB (R161): Lane-wise FP32 subtraction. -/
  | vsub (c : CoreId) (vd : BitVec 4) (va : BitVec 4) (vb : BitVec 4)
  /-- VMUL (R161): Lane-wise FP32 multiplication. -/
  | vmul (c : CoreId) (vd : BitVec 4) (va : BitVec 4) (vb : BitVec 4)
  /-- VFMA (R161): Lane-wise fused multiply-add VA × VB + VC. -/
  | vfma (c : CoreId) (vd : BitVec 4) (va : BitVec 4) (vb : BitVec 4) (vc : BitVec 4)
  /-- VCMP (R144): Lane-wise comparison, writing all ones or zero. -/
  | vcmp (c : CoreId) (vd : BitVec 4) (va : BitVec 4) (vb : BitVec 4) (cond : BitVec 3)
  /-- VSEL (R144): Lane-wise select by VC. -/
  | vsel (c : CoreId) (vd : BitVec 4) (va : BitVec 4) (vb : BitVec 4) (vc : BitVec 4)
  /-- VAND (R160): Lane-wise bitwise AND. -/
  | vand (c : CoreId) (vd : BitVec 4) (va : BitVec 4) (vb : BitVec 4)
  /-- VOR (R160): Lane-wise bitwise OR. -/
  | vor (c : CoreId) (vd : BitVec 4) (va : BitVec 4) (vb : BitVec 4)
  /-- VXOR (R160): Lane-wise bitwise XOR. -/
  | vxor (c : CoreId) (vd : BitVec 4) (va : BitVec 4) (vb : BitVec 4)
  /-- VMIN (R161): Lane-wise FP32 minimum. -/
  | vmin (c : CoreId) (vd : BitVec 4) (va : BitVec 4) (vb : BitVec 4)
  /-- VMAX (R161): Lane-wise FP32 maximum. -/
  | vmax (c : CoreId) (vd : BitVec 4) (va : BitVec 4) (vb : BitVec 4)
  /-- VBCAST (R144): Broadcasts S[SX][31:0] to every lane. -/
  | vbcast (c : CoreId) (vd : BitVec 4) (sx : BitVec 5)
  /-- VEXT (R144): Extracts one lane into a scalar register. -/
  | vext (c : CoreId) (sx : BitVec 5) (va : BitVec 4) (lane : BitVec 5)
  /-- VEXP (R162): Correctly rounded e^x, lane-wise. -/
  | vexp (c : CoreId) (vd : BitVec 4) (va : BitVec 4)
  /-- VLOG (R162): Correctly rounded natural logarithm, lane-wise. -/
  | vlog (c : CoreId) (vd : BitVec 4) (va : BitVec 4)
  /-- VRCP (R162): Correctly rounded reciprocal, lane-wise. -/
  | vrcp (c : CoreId) (vd : BitVec 4) (va : BitVec 4)
  /-- VRSQ (R162): Correctly rounded reciprocal square root, lane-wise. -/
  | vrsq (c : CoreId) (vd : BitVec 4) (va : BitVec 4)
  /-- VTANH (R162): Correctly rounded tanh, lane-wise. -/
  | vtanh (c : CoreId) (vd : BitVec 4) (va : BitVec 4)
  /-- VRSUM (R163): Exact sum of the lanes, rounded once, written to every lane. -/
  | vrsum (c : CoreId) (vd : BitVec 4) (va : BitVec 4)
  /-- VRMAX (R163): Largest lane, written to every lane. -/
  | vrmax (c : CoreId) (vd : BitVec 4) (va : BitVec 4)
  /-- TVOP (R164): Vector function applied over N rows of a tile. -/
  | tvop (c : CoreId) (td : BitVec 6) (ta : BitVec 6) (n : BitVec 6) (func : BitVec 6) (vb : BitVec 4) (vc : BitVec 4) (bsrc : BitVec 2) (cond : BitVec 3)
  /-- TRED (R166): Row reduction of a tile into a vector register: RSUM, RMAX, RSUMEXP or RDOTV. -/
  | tred (c : CoreId) (vd : BitVec 4) (ta : BitVec 6) (n : BitVec 6) (kind : BitVec 3) (vb : BitVec 4)
  /-- POST (R146): Adds to or sets a local counter, saturating. -/
  | post (c : CoreId) (sc : BitVec 6) (mode : BitVec 2) (imm : BitVec 16)
  /-- WAIT (R219): Waits at the head until a local counter meets the comparison, optionally consuming the compared value. -/
  | wait (c : CoreId) (sc : BitVec 6) (mode : BitVec 2) (consume : Bool) (imm : BitVec 16)
  /-- GPOST (R146): Sends a SEM_ADD for a global semaphore, local or remote. -/
  | gpost (c : CoreId) (sa : BitVec 5) (mode : BitVec 2) (imm : BitVec 16)
  /-- GWAIT (R224): Sends a SEM_WAIT; no later bundle issues until the WAKE arrives. -/
  | gwait (c : CoreId) (sa : BitVec 5) (mode : BitVec 2) (consume : Bool) (imm : BitVec 16)
  /-- GWATCH (R225): Registers a one-shot watch on a semaphore, waiting for a free watch entry. -/
  | gwatch (c : CoreId) (sa : BitVec 5) (sv : BitVec 5) (sc : BitVec 6) (cond : BitVec 2)
  /-- SYNC_CLOCK_GATE (R220): A head bundle has waited on a counter for 16 cc; the issue logic and idle units clock-gate. -/
  | syncClockGate (c : CoreId)
  /-- SYNC_TIMEOUT (R237): A wait, GWAIT or watch-entry wait lasts TMO_MS; the context stops. -/
  | syncTimeout (c : CoreId)
  /-- CORE_HALT (R67): Housekeeper write of CORE_CTL.HALT = 1 stops issue at the next bundle boundary. -/
  | coreHalt (c : CoreId)
  /-- CORE_RESUME (R69): Write of HALT = 0; pending operations and discarded passes are reissued first and then issue resumes. -/
  | coreResume (c : CoreId)
  /-- CORE_STEP (R76): Write of CORE_CTL.STEP while halted reissues pending operations, issues one bundle and stops again. -/
  | coreStep (c : CoreId)
  /-- CORE_STOP (R67): A core reaches its next bundle boundary after a stop cause; in-flight tile operations are abandoned and passes discarded. -/
  | coreStop (c : CoreId)
  /-- CONTEXT_SAVE (R235): The Housekeeper saves a core's context and sync state in one indivisible step and marks the context absent. -/
  | contextSave (c : CoreId)
  /-- CONTEXT_RESTORE (R235): The Housekeeper restores a core's sync state and marks the context present; returned messages are re-sent. -/
  | contextRestore (at_ : CtxAt)
  /-- DESCRIPTOR_START (R150): The stream engine starts the next descriptor in launch order, reads it and makes the start checks. -/
  | descriptorStart (c : CoreId)
  /-- STAGING_ACQUIRE (R122): A staged descriptor takes its context's staging area when it is free, in arrival order. -/
  | stagingAcquire (c : CoreId) (e : BitVec 6)
  /-- STAGING_PHASE2 (R121): Phase 1 of a staged descriptor has copied its source; phase 2 begins reading from the staging area. -/
  | stagingPhase2 (c : CoreId) (e : BitVec 6)
  /-- STACK_CACHE_REQUEST (R202): A request reaches a stack cache in a reserved slot and is accepted, merged or refused. -/
  | stackCacheRequest (c : CoreId) (e : BitVec 6) (va : BitVec 40) (kind : StackReq) (adv : BitVec 32) (a : Arrival)
  /-- MISS_FILL (R202): A miss fill returns from HBM and is merged, and the requests merged into its slot are served. -/
  | missFill (k : Fin 12) (line : BitVec 40) (ecc : EccRes)
  /-- HBM_SLOW_BANK (R203): The oldest miss waiting on a bank passes SLOW_US; the bank becomes slow. -/
  | hbmSlowBank (k : Fin 12) (bank : BitVec 12)
  /-- PATROL_SCRUB (R199): The scrubber reads and corrects stack lines on its periodic schedule. -/
  | patrolScrub (k : Fin 12) (line : BitVec 40) (ecc : EccRes)
  /-- TABLE_WALK (R209): A translation walk returns its entry, which is installed or faults. -/
  | tableWalk (c : CoreId) (e : BitVec 6) (va : BitVec 48) (access : BitVec 2)
  /-- DESCRIPTOR_COMPLETE (R153): The last byte of a descriptor commits; STATUS is written and the completion target posted. -/
  | descriptorComplete (c : CoreId) (e : BitVec 6)
  /-- STREAM_TIMEOUT (R43): A descriptor makes no progress for STREAM_TMO_US; it is abandoned and the context stops. -/
  | streamTimeout (c : CoreId) (e : BitVec 6)
  /-- CELLAR_FILL_START (R249): A Cellar fill starts after earlier drains complete and pushes a frame. -/
  | cellarFillStart (c : CoreId) (e : BitVec 6)
  /-- CELLAR_DRAIN_START (R250): A Cellar drain starts after earlier fills complete and pops a frame. -/
  | cellarDrainStart (c : CoreId) (e : BitVec 6)
  /-- CELLAR_TAG_CHECK (R250): The tag line read by a drain returns and is compared with the drain. -/
  | cellarTagCheck (c : CoreId) (e : BitVec 6)
  /-- MESH_BEAT (R35): A beat enters a core input and leaves through every output its slot entry names, including EJECT into a binding. -/
  | meshBeat (c : CoreId) (inp : BitVec 3) (lane2 : Bool) (data : Bytes) (ecc : EccRes)
  /-- BELL_HOP (R175): A bell-wire message arrives at a router input and is checked and forwarded. -/
  | bellHop (m : BellMsg) (errs : BitVec 2)
  /-- SEM_ADD (R223): A semaphore add is applied by the semaphore unit and its waiters and watches are re-examined. -/
  | semAdd (src : Option CoreId) (k : CtxId) (vsem : BitVec 14) (addend : BitVec 32)
  /-- SEM_WAIT (R224): A GWAIT request is registered or satisfied at the semaphore unit. -/
  | semWait (c : CoreId) (k : CtxId) (mode : BitVec 2) (consume : Bool) (vsem : BitVec 14) (value : BitVec 32)
  /-- SEM_WATCH (R225): A watch is registered at the semaphore unit, or fires at once. -/
  | semWatch (c : CoreId) (k : CtxId) (cond : BitVec 2) (sc : BitVec 6) (vsem : BitVec 14) (value : BitVec 32)
  /-- SEM_VALUE_WRITE (R223): A Housekeeper write of a semaphore's VALUE, after which waiters and watches are re-examined. -/
  | semValueWrite (r : Requester) (p : BitVec 14) (v : Word)
  /-- WAKE (R233): A WAKE reaches a core and completes its GWAIT, or arrives as an orphan notice. -/
  | wake (c : CoreId) (k : CtxId) (orphan : Bool)
  /-- WATCH_FIRE (R225): A watch fire reaches a core and adds 1 to its SC, with orphan handling. -/
  | watchFire (c : CoreId) (k : CtxId) (sc : BitVec 6) (orphan : Bool)
  /-- CNT_POST (R218): A write-with-count post reaches a core counter. -/
  | cntPost (c : CoreId) (k : CtxId) (sc : BitVec 6) (count : BitVec 32)
  /-- PREEMPT (R44): A pre-emption message stops or resumes a context on a core. -/
  | preempt (c : CoreId) (k : CtxId) (act : BitVec 2)
  /-- STOP_DONE (R179): A core reports to the front die that it has stopped. -/
  | stopDone (c : CoreId) (k : CtxId)
  /-- BELL_FAULT (R179): A fault message from a core or hall control reaches the front die. -/
  | bellFault (src : FaultSrc) (k : CtxId) (code : BitVec 16) (pc : BitVec 16) (param : BitVec 32)
  /-- LINK_SIGNAL_DETECT (R284): A link in DETECT sees a signal on all 8 lanes and enters TRAIN. -/
  | linkSignalDetect (n : LinkId)
  /-- LINK_TRAIN_DONE (R284): Equalisation completes and the link enters ALIGN. -/
  | linkTrainDone (n : LinkId)
  /-- LINK_TRAIN_TIMEOUT (R284): TRAIN exceeds 100 ms and the link returns to DETECT. -/
  | linkTrainTimeout (n : LinkId)
  /-- LINK_ALIGN_DONE (R284): Codeword lock and deskew complete and the link enters IDENT. -/
  | linkAlignDone (n : LinkId)
  /-- LINK_ALIGN_TIMEOUT (R284): ALIGN exceeds 1 ms and the link returns to DETECT. -/
  | linkAlignTimeout (n : LinkId)
  /-- LINK_IDENT_TIMEOUT (R284): IDENT exceeds 1 ms and the link returns to DETECT. -/
  | linkIdentTimeout (n : LinkId)
  /-- LINK_DOWN_EXPIRY (R284): After 1 ms in DOWN the link returns to DETECT. -/
  | linkDownExpiry (n : LinkId)
  /-- LINK_LOSS_OF_SIGNAL (R287): A lane loses signal or lock and the link goes DOWN. -/
  | linkLossOfSignal (n : LinkId) (lock : Bool)
  /-- LINK_NO_CODEWORD (R287): No correctable codeword arrives for 1 µs and the link goes DOWN. -/
  | linkNoCodeword (n : LinkId)
  /-- LINK_CODEWORD_RX (R268): A codeword is received and corrected; an uncorrectable one takes the link DOWN. -/
  | linkCodewordRx (n : LinkId) (corrected : BitVec 4) (bad : Bool)
  /-- LINK_FRAME_TX (R274): Each frame time the sender emits a frame with its control slot, bulk by credit and table, and credits. -/
  | linkFrameTx (n : LinkId)
  /-- LINK_FRAME_RX (R269): A frame is received whole: credits are taken, bulk goes to the ingress buffer and the control message is dispatched. -/
  | linkFrameRx (n : LinkId) (frame : Bytes)
  /-- MGMT_IDENT (R277): An IDENT arrives; the identity, READY and digest are compared and the link may move to SHUTTERED or OPEN. -/
  | mgmtIdent (n : LinkId) (dev : BitVec 24) (plink : BitVec 5) (ready : Bool) (nuore : Bool) (digest : BitVec 32)
  /-- MGMT_PROBE (R277): A PROBE is answered with an ECHO. -/
  | mgmtProbe (n : LinkId) (stamp : BitVec 48)
  /-- MGMT_ECHO (R277): An ECHO returns and sets LINK_LAT. -/
  | mgmtEcho (n : LinkId) (stamp : BitVec 48)
  /-- MGMT_CLOSE (R277): The partner closes its shutter and the link goes DOWN. -/
  | mgmtClose (n : LinkId)
  /-- MGMT_START (R270): The first OPEN frame starts frame indexing at the receiver. -/
  | mgmtStart (n : LinkId)
  /-- LINK_EGRESS_BEAT (R273): A beat from an edge core is appended to its flow's egress buffer, and the credit post is sent when beats go on the wire. -/
  | linkEgressBeat (n : LinkId) (lane : Fin 3) (data : Bytes)
  /-- LINK_INGRESS_RELEASE (R281): In an INV slot a buffered ingress beat is released into the hall, all-or-wait for forwarded flows. -/
  | linkIngressRelease (n : LinkId) (lane : Fin 3)
  /-- MCAST_STALL (R282): A beat is held for MCAST_US; the flow is discarded and the context stopped. -/
  | mcastStall (n : LinkId) (flow : BitVec 6)
  /-- KFL_SEM_ADD (R276): A control SEM_ADD arrives, routed on or delivered to the semaphore unit. -/
  | kflSemAdd (n : LinkId) (dst : BitVec 24) (src : BitVec 24) (group : BitVec 10) (vsem : BitVec 14) (addend : BitVec 32)
  /-- KFL_SEM_WATCH (R276): A remote SEM_WATCH arrives for routing or registration. -/
  | kflSemWatch (n : LinkId) (dst : BitVec 24) (src : BitVec 24) (group : BitVec 10) (vsem : BitVec 14) (rlink : BitVec 5) (rtag : BitVec 6) (cond : BitVec 2) (value : BitVec 32)
  /-- KFL_WATCH_FIRE (R278): A WATCH_FIRE returns to the link router holding the tag, which forwards it and frees the tag. -/
  | kflWatchFire (n : LinkId) (dst : BitVec 24) (src : BitVec 24) (rlink : BitVec 5) (rtag : BitVec 6) (orphan : Bool)
  /-- LINK_ROUTER_WATCH (R278): A remote GWATCH reaches its link router, takes a tag and is sent as SEM_WATCH. -/
  | linkRouterWatch (n : LinkId) (c : CoreId) (k : CtxId) (sc : BitVec 6) (cond : BitVec 2) (dev : BitVec 24) (vsem : BitVec 14) (value : BitVec 32)
  /-- TAG_QUARANTINE_END (R278): A freed tag becomes reusable after 1,000 µs. -/
  | tagQuarantineEnd (n : LinkId) (tag : BitVec 6)
  /-- LINK_OPEN (R285): A write of OPEN = 1 opens a link's shutter. -/
  | linkOpen (n : LinkId)
  /-- LINK_CLOSE (R285): A write of OPEN = 0 sends CLOSE and returns the link to SHUTTERED. -/
  | linkClose (n : LinkId)
  /-- LINK_RETRAIN (R290): A write of RETRAIN = 1 takes the link DOWN, reason 6. -/
  | linkRetrain (n : LinkId)
  /-- LINK_ENABLE (R284): A write of ENABLE = 1 moves a disabled link to DETECT. -/
  | linkEnable (n : LinkId)
  /-- LINK_DISABLE (R287): A write of ENABLE = 0 takes the link DOWN and then DISABLED. -/
  | linkDisable (n : LinkId)
  /-- QUERN_LOCAL_HEADER (R300): A station takes a local contribution header and tile, checks it, computes its checksums and combines or sends it. -/
  | quernLocalHeader (n : LinkId) (hdr : Bytes) (tile : Bytes)
  /-- QUERN_RETAIN_COMMIT (R300): A retained record commits to the retain region and the contribution's credits are freed. -/
  | quernRetainCommit (n : LinkId) (tag : BitVec 16) (tile : BitVec 16)
  /-- QUERN_RECORD_RX (R301): An upstream record arrives and is combined in fixed order, forwarded, or checked at the owner. -/
  | quernRecordRx (n : LinkId) (hdr : Bytes) (data : Bytes)
  /-- ACK (R303): A bucket ACK arrives; retained records are freed and STEP_DONE may be posted. -/
  | ack (n : LinkId) (m : GMsg)
  /-- RETRY (R303): A RETRY arrives; the station drops lower attempts and re-sends its retained records. -/
  | retry (n : LinkId) (m : GMsg)
  /-- NORM (R306): A partial sum of squares arrives and is accumulated and passed on. -/
  | norm (n : LinkId) (m : GMsg)
  /-- VERDICT (R306): The global sum G arrives; K is computed and the step record and verdict are posted. -/
  | verdict (n : LinkId) (m : GMsg)
  /-- QUERN_GATHER_START (R305): UPDATE reaches the bucket's count and the owner sends its working copy as gather records. -/
  | quernGatherStart (n : LinkId)
  /-- QUERN_GATHER_RX (R305): A gather record is written to COPY_VA and forwarded; GATH_CT is posted after the last block. -/
  | quernGatherRx (n : LinkId) (hdr : Bytes) (data : Bytes)
  /-- HR_RING_PROD_WRITE (R350): A write of a receive ring's PROD, clamped, announcing clip records. -/
  | hrRingProdWrite (r : Requester) (k : Fin 16) (v : BitVec 32)
  /-- HR_RING_ENABLE (R350): A write of EN from 0 to 1 zeroes PROD and CONS. -/
  | hrRingEnable (r : Requester) (k : Fin 16) (v : Word)
  /-- CLIP_START (R320): The Headrace starts the oldest clip of the next ring round-robin, within its 8-clip limit. -/
  | clipStart
  /-- CLIP_INDEX_DONE (R320): Parsing of a clip completes and its samples become dispatchable. -/
  | clipIndexDone (k : Fin 16) (i : Fin 8)
  /-- SAMPLE_DISPATCH (R336): A sample is dispatched to an active engine once a FREE slot outside the reserve exists. -/
  | sampleDispatch (i : Fin 8) (e : Fin 8)
  /-- SAMPLE_READY (R336): The last byte of a sample commits and its slot becomes READY. -/
  | sampleReady (i : Fin 8) (e : Fin 8)
  /-- SAMPLE_DROP (R329): Decoding finds a bad, missing, unsupported or oversize case and the sample is dropped. -/
  | sampleDrop (i : Fin 8) (e : Fin 8)
  /-- PFC_REPEAT (R346): Every 10 µs a pause frame is repeated until FREE reaches XON_FREE. -/
  | pfcRepeat
  /-- MILLPOND_RELEASE (R339): A queue with a request pending and a ready slot releases a sample, writes the entry and posts. -/
  | millpondRelease
  /-- EXCHANGE_RECORD_LAND (R344): An exchange record lands in a RESERVE slot, or is forwarded; the sample becomes INBOUND and the round completes. -/
  | exchangeRecordLand (n : LinkId) (hdr : Bytes) (data : Bytes)
  /-- VOTE_READY (R356): A member becomes ready for the step and sends or forwards VOTE. -/
  | voteReady (g : Fin 1024)
  /-- VOTE (R356): A VOTE arrives and is forwarded when ready, or counted by the Miller, which sends COMMIT. -/
  | vote (n : LinkId) (m : GMsg)
  /-- COMMIT (R356): COMMIT is adopted: the step advances, the Millpond commits, the snapshot is taken, an optional still runs and the cores are released. -/
  | commit (n : LinkId) (m : GMsg)
  /-- CKPT_SELF_COPY_DONE (R360): The self copy of a checkpoint finishes and its area header is written. -/
  | ckptSelfCopyDone (g : Fin 1024)
  /-- CKPT_RECORD_LAND (R360): A checkpoint or restore record lands in the buddy area or state bank and is CRC-checked. -/
  | ckptRecordLand (n : LinkId) (hdr : Bytes) (data : Bytes)
  /-- COMMIT_TIMEOUT (R358): VOTE is not complete COMMIT_MS after the Miller is ready; a rollback starts. -/
  | commitTimeout (g : Fin 1024)
  /-- GROUP_FAULT (R357): A member's FAULT report reaches the Miller, which starts a rollback or stops the group. -/
  | groupFault (n : LinkId) (m : GMsg)
  /-- ROLLBACK (R357): ROLLBACK is adopted: the context halts, the epoch is set and the Quern reset. -/
  | rollback (n : LinkId) (m : GMsg)
  /-- PHASE_DONE (R357): A phase report arrives and is forwarded, or the Miller concludes the phase. -/
  | phaseDone (n : LinkId) (m : GMsg)
  /-- GUARD_EXPIRY (R357): GUARD_US after PHASE_DONE(0) the Miller sends PHASE_GO(1), or SEED during a recovery. -/
  | guardExpiry (g : Fin 1024)
  /-- PHASE_GO (R357): PHASE_GO(1) restores the snapshot or recovery state; PHASE_GO(2) restarts the cores. -/
  | phaseGo (n : LinkId) (m : GMsg)
  /-- MEMBER_LOSS_CONFIRM (R363): LOSS_MS of LINK_DOWN reports from both neighbours confirms a lost member or takeover. -/
  | memberLossConfirm (g : Fin 1024) (x : BitVec 24)
  /-- REBUILD (R363): REBUILD is adopted: halt, group table restored and remapped, positions renumbered and plans rewritten. -/
  | rebuild (n : LinkId) (m : GMsg)
  /-- SEED (R363): A new Millpond seed is written on each member. -/
  | seed (n : LinkId) (m : GMsg)
  /-- CKPT_REQ (R366): A write of RS_CMD.CKPT_REQ forces a checkpoint at the next commit. -/
  | ckptReq (r : Requester) (g : Fin 1024)
  /-- THP_DEVICE_RESPONSE (R370): The host answers a device-originated NOTIFY or TRICKLE_DATA request. -/
  | thpDeviceResponse (sid : BitVec 32) (seq : BitVec 32) (status : BitVec 16)
  /-- DEVICE_REQUEST_RESEND (R370): RTO_US expires on an unanswered device request, which is resent; after 16 sends the session closes. -/
  | deviceRequestResend (sid : BitVec 32) (seq : BitVec 32)
  /-- SESSION_IDLE (R370): IDLE_S passes without a packet and the session closes. -/
  | sessionIdle (sid : BitVec 32)
  /-- THP_OPEN (R370): OPEN creates a session. -/
  | thpOpen (h : HostAddr) (a0 : Word) (a1 : Word) (sid : BitVec 32)
  /-- THP_CLOSE (R370): CLOSE ends a session. -/
  | thpClose (sid : ThpFrom) (seq : BitVec 32)
  /-- INFO (R372): Returns the device identity block and phase. -/
  | info (h : HostAddr)
  /-- READ (R373): Reads bytes through a physical, register or virtual window. -/
  | read (sid : ThpFrom) (seq : BitVec 32) (a0 : Word) (a1 : Word)
  /-- WRITE (R373): Writes bytes through a window, committing them before the response. -/
  | write (sid : ThpFrom) (seq : BitVec 32) (a0 : Word) (data : Bytes)
  /-- LOAD (R376): Verifies a program image, checks every load condition, builds grids and installs a context. -/
  | load (sid : ThpFrom) (seq : BitVec 32) (a0 : Word) (a1 : Word) (img : Image) (env : BuildEnv)
  /-- THP_START (R375): START starts a loaded context. -/
  | thpStart (sid : ThpFrom) (seq : BitVec 32) (a0 : Word)
  /-- THP_STOP (R375): STOP pre-empts a running context. -/
  | thpStop (sid : ThpFrom) (seq : BitVec 32) (a0 : Word)
  /-- RESUME (R375): Resumes a stopped context. -/
  | resume (sid : ThpFrom) (seq : BitVec 32) (a0 : Word)
  /-- END (R375): Ends a loaded context. -/
  | endCtx (sid : ThpFrom) (seq : BitVec 32) (a0 : Word)
  /-- GRID_BUILD (R184): Builds the grids of the halls in the mask. -/
  | gridBuild (sid : ThpFrom) (seq : BitVec 32) (a0 : Word) (env : BuildEnv)
  /-- QP_CREATE (R378): Creates a RoCEv2 queue pair. -/
  | qpCreate (sid : ThpFrom) (seq : BitVec 32) (a0 : Word) (a1 : Word) (qpn : BitVec 24)
  /-- QP_DESTROY (R378): Destroys a queue pair. -/
  | qpDestroy (sid : ThpFrom) (seq : BitVec 32) (a0 : Word)
  /-- MR_CREATE (R378): Creates a memory region or the doorbell region. -/
  | mrCreate (sid : ThpFrom) (seq : BitVec 32) (a0 : Word) (a1 : Word) (rkey : BitVec 32)
  /-- MR_DESTROY (R378): Destroys a memory region. -/
  | mrDestroy (sid : ThpFrom) (seq : BitVec 32) (a0 : Word)
  /-- WARM_RESET (R405): Host warm reset: the buffer is flushed, the stacks enter self-refresh, and the front die, halls and links are reset. -/
  | warmReset (sid : ThpFrom) (seq : BitVec 32)
  /-- FW_WRITE (R423): Writes 4 KiB of a firmware image to the inactive bank, or holds the header. -/
  | fwWrite (sid : ThpFrom) (seq : BitVec 32) (a0 : Word) (data : Bytes)
  /-- FW_COMMIT (R423): Verifies and commits the new firmware header. -/
  | fwCommit (sid : ThpFrom) (seq : BitVec 32) (a0 : Word)
  /-- LOG_READ (R440): Returns event records in ascending SEQ. -/
  | logRead (sid : ThpFrom) (seq : BitVec 32) (a0 : Word) (a1 : Word)
  /-- ATTEST (R428): Returns a signed attestation report. -/
  | attest (sid : ThpFrom) (seq : BitVec 32) (nonce : Bytes)
  /-- PORCH_EXIT (R419): Leaves Porch: START_CLEAR is written and the device restarts with the scope of MOD_RESET_N. -/
  | porchExit (sid : ThpFrom) (seq : BitVec 32)
  /-- RDMA_WRITE (R377): A RoCEv2 write packet is checked and committed in PSN order, with doorbell effects and NAKs. -/
  | rdmaWrite (qpn : BitVec 24) (pkt : RdmaPkt)
  /-- ACK_COALESCE (R379): The 2 µs coalescing timer sends the pending ACK. -/
  | ackCoalesce (qpn : BitVec 24)
  /-- NEIGHBOR_SOLICIT (R368): A Neighbor Discovery message for the device's addresses is answered. -/
  | neighborSolicit (src : HostAddr) (target : BitVec 128)
  /-- PFC_RX (R368): A received priority flow control frame is obeyed. -/
  | pfcRx (prio : BitVec 3) (quanta : BitVec 16)
  /-- TR_INVAL (R216): A write of TR_INVAL starts a device-wide invalidation, held while BUSY. -/
  | trInval (r : Requester) (h : Fin 8) (v : Word)
  /-- TR_INVAL_DONE (R211): Every cache has dropped the entry and old requests have committed; BUSY falls. -/
  | trInvalDone
  /-- STRM_ENTRY_WRITE (R475): A window write to a stream entry of a stopped context removes, repositions or redirects a descriptor. -/
  | strmEntryWrite (r : Requester) (c : CoreId) (e : BitVec 6) (second : Bool) (v : Word)
  /-- CNT_CTL_CLEAR (R50): A write of CNT_CTL.CLEAR zeroes a core's counter block. -/
  | cntCtlClear (r : Requester) (c : CoreId) (v : Word)
  /-- ARR_CNT_CLEAR (R102): A write of ARR_CNT_CTL.CLEAR zeroes a core's array counters. -/
  | arrCntClear (r : Requester) (c : CoreId)
  /-- EDGE_CTL_CLEAR (R51): A write of CLEAR to an EDGE_CTL-layout control register zeroes its block's counters. -/
  | edgeCtlClear (r : Requester) (a : BitVec 48)
  /-- REGISTER_WRITE (R6): A write to any register without a row of its own, stored by access type with clamps and refusals. -/
  | registerWrite (r : Requester) (a : BitVec 48) (wide : Bool) (v : Word)
  /-- GEAR_SELECT (R390): The 500 ns evaluation of R21 ends; the halls are released or a gear change starts. -/
  | gearSelect
  /-- PLL_LOCK (R390): A hall PLL reports lock to the controller. -/
  | pllLock (d : PllDom)
  /-- CORE_CLOCK_START (R390): The core clocks start on the first qualifying reference edge and SLOT restarts at 0. -/
  | coreClockStart
  /-- PLL_LOCK_FAIL (R397): A PLL is not locked 100 µs after starting; it is retried, or the gear or start falls back. -/
  | pllLockFail (d : PllDom)
  /-- GATING_BUCKET (R391): At each 100 µs bucket end the gating level is raised, lowered or kept. -/
  | gatingBucket
  /-- GATE_LEVEL_APPLY (R392): A hall applies a new level at the first 1,024-cc period after it arrives. -/
  | gateLevelApply (h : Fin 8)
  /-- THERMAL_HOT (R393): A sensor reaches its hot limit; HOT is set and L held at 15. -/
  | thermalHot (i : Fin 21) (temp : BitVec 16)
  /-- HOT_CLEAR (R393): Every sensor falls below its release limit and HOT clears. -/
  | hotClear
  /-- THROTTLE_ASSERT (R458): THROTTLE_N is seen low: L is held at 15 and gears are limited. -/
  | throttleAssert
  /-- THROTTLE_RELEASE (R458): THROTTLE_N returns high and R391 governs L again. -/
  | throttleRelease
  /-- CLK_REF_LOSS (R395): The reference is missing for 10 µs and the device switches to the internal oscillator. -/
  | clkRefLoss
  /-- REF_RETRY (R402): A write of REF_RETRY returns to the strapped reference if it is present. -/
  | refRetry (r : Requester) (present : Bool)
  /-- G0_DOZE (R396): DOZE_MS at G0; the hall PLLs power off and the stacks self-refresh. -/
  | g0Doze
  /-- ENERGY_SAMPLE (R386): Every 40 ns the joule counters and window integrate energy. -/
  | energySample (e : EnergySample)
  /-- INPUT_RANGE (R384): Input voltage stays outside 46–54 V for 1 ms. -/
  | inputRange (vin : BitVec 16) (iin : BitVec 17) (high : Bool)
  /-- POWER_TRIP (R384): A trip limit is reached; the Hearth latches the cause and resets all but itself. -/
  | powerTrip (cause : BitVec 3)
  /-- TRIP_HOLD_END (R406): At least 1 s after a trip, with every cause cleared, the hold ends and power-up resumes. -/
  | tripHoldEnd
  /-- HEARTH_POWER_LOSS (R461): VIN falls below 36 V and the Hearth loses power. -/
  | hearthPowerLoss
  /-- POWER_ON (R462): VIN rises past 36 V and the Hearth, oscillator and calendar start. -/
  | powerOn
  /-- POWER_GOOD (R411): Power-good rises or a reset is released; the start runs its steps through boot and bring-up to the run phase. -/
  | powerGood (env : StartEnv)
  /-- START_STABLE (R411): 60 s after the run phase the start is stable and fuses may be burned. -/
  | startStable
  /-- SELF_RESTART (R412): 1 s after START_FAIL the device resets itself with the scope of MOD_RESET_N. -/
  | selfRestart
  /-- MOD_RESET_N (R457): The pin is seen low for 1 µs: a whole-device reset except the Hearth, or a power-good hold. -/
  | modResetN
  /-- WATCHDOG (R408): WDT_MS passes without a kick; the record is written and a watchdog reset applied. -/
  | watchdog
  /-- WDT_KICK (R408): A write of KICK restarts the watchdog period. -/
  | wdtKick (r : Requester)
  /-- HALL_RST_REQ (R414): A write of HALL_RST.REQ checks the hall and resets it or refuses. -/
  | hallRstReq (r : Requester) (mask : BitVec 8)
  /-- HALL_RESET (R414): The hall reset completes; BUSY falls and the record is written. -/
  | hallReset (h : Fin 8)
  /-- BOOT_REQ (R421): A neighbour's boot request arrives on link 0 and is served if BOOT_SERVE is set. -/
  | bootReq (n : LinkId)
  /-- BOOT_DATA (R421): A chunk of a neighbour-served image arrives. -/
  | bootData (idx : BitVec 24) (v : Word)
  /-- BOOT_END (R421): The neighbour boot ends; the image is verified and started, or START_FAIL is raised. -/
  | bootEnd (refused : Bool) (len : Word) (env : StartEnv)
  /-- NEIGHBOUR_BOOT_TIMEOUT (R421): No BOOT_END, or no SHUTTERED link 0, within 1 s; START_FAIL cause 4. -/
  | neighbourBootTimeout
  /-- EVR_ACCEPT (R435): At each Hearth cycle's end the records received are ordered, given SEQ and TIME, and buffered or dropped. -/
  | evrAccept
  /-- FLASH_PROGRAM (R437): A buffered record is programmed into flash, with erases and index entries, and its entry frees. -/
  | flashProgram
  /-- CAL_SET (R436): A 64-bit write of CAL_SET_NS sets the calendar. -/
  | calSet (r : Requester) (v : Word)
  /-- EVR_FLUSH (R437): A write of FLUSH starts a flush of the buffer. -/
  | evrFlush (r : Requester)
  /-- DIAG_SNAP_FREEZE (R449): A write of DIAG_SNAP.FREEZE requests that all core counters be frozen or unfrozen. -/
  | diagSnapFreeze (r : Requester) (on : Bool)
  /-- DIAG_SNAP_APPLY (R449): At the first SLOT mod 1,024 = 0 after the command reaches every hall, FREEZE changes everywhere. -/
  | diagSnapApply
  /-- DUMP_REQ (R443): A write of DUMP_CFG.REQ triggers a dump. -/
  | dumpReq (r : Requester)
  /-- DUMP_ARM (R447): A write of ARM = 1 re-arms the dump and marks the held dump read. -/
  | dumpArm (r : Requester)
  /-- DUMP_DONE (R444): The Housekeeper finishes capturing a dump and restores FREEZE and HALT. -/
  | dumpDone (us : BitVec 32)
  /-- PCS_BLOCK_LOCK (R383): The Ethernet PCS gains block lock on all 8 lanes and ETH_STATUS.PCS_UP becomes 1. -/
  | pcsBlockLock
  /-- PCS_BLOCK_LOCK_LOSS (R383): The Ethernet PCS loses block lock on a lane and PCS_UP returns to 0. -/
  | pcsBlockLockLoss
  /-- ETH_FRAME_DROP (R368): A received Ethernet frame with a bad FCS, an IPv4 or extension-header packet, a packet to another UDP port, or a THP packet with a bad header is dropped and counted. -/
  | ethFrameDrop (why : EthDrop)
  /-- RETURNED_MESSAGE (R235): A WAKE, WATCH_FIRE or CNT_POST returned by a core whose context has been saved reaches the front die, which applies it to the saved image or holds it for re-sending. -/
  | returnedMessage (c : CoreId) (k : CtxId) (m : RetMsg)
  /-- DECODE_ENGINE_READY (R390): Decode engines that a new decode share switches on become ready 50 µs after the step boundary and may take samples. -/
  | decodeEngineReady
  /-- SENSOR_AT_G4_C (R389): A hall or front-die sensor reaches G4_C during a step, which makes G4 ineligible at the next selection and clears G4_OK. -/
  | sensorAtG4C (i : Fin 21) (temp : BitVec 16)
  deriving DecidableEq, Repr

end Sys2Proof
end

