-- ==== Sys2Proof/WellFormed.lean ====
section
/-! DEFINITION. Sys2Proof/WellFormed.lean: which commands are well formed: instructions whose fields hold no reserved encoding (R131, R135 to R146), and events whose data have the shape the spec gives them. -/

namespace Sys2Proof

/-- Is the value a completion counter field: SC0 to SC47, or 63 for none (R140)? -/
def ctOk (ct : BitVec 6) : Bool := decide (ct.toNat < 48) || ct == 63

/-- Is the opcode a function that TVOP may hold (R145)? -/
def tvopFunc (f : Nat) : Bool :=
  (decide (0x01 ≤ f) && decide (f ≤ 0x04)) || (decide (0x08 ≤ f) && decide (f ≤ 0x0E)) || (decide (0x18 ≤ f) && decide (f ≤ 0x1C))

/-- Does an IMM field that may name a register keep IMM[15:5] at zero then (R146)? -/
def immOk (isReg : Bool) (imm : BitVec 16) : Bool := !isReg || decide (imm.toNat < 32)

/-- Every field of the command holds an encoding the spec assigns. -/
def Instr.wf : Instr → Bool
  | .br _ cond _ _ => cond != 7
  | .loop _ _ _ _ len => len != 0
  | .shli _ _ _ imm => decide (imm.toNat < 64)
  | .shri _ _ _ imm => decide (imm.toNat < 64)
  | .srai _ _ _ imm => decide (imm.toNat < 64)
  | .rdsp _ _ sel => decide (sel.toNat ≤ 4)
  | .msnd _ _ _ _ ct => ctOk ct
  | .mbind _ _ ct _ _ _ => ctOk ct
  | .vcmp _ _ _ _ cond => decide (cond.toNat ≤ 5)
  | .tvop _ _ _ _ func _ _ bsrc cond =>
    tvopFunc func.toNat && decide (bsrc.toNat ≤ 1) && (if func = 0x08 then decide (cond.toNat ≤ 5) else cond == 0)
  | .tred _ _ _ _ kind _ => decide (kind.toNat ≤ 3)
  | .post _ sc mode imm => decide (sc.toNat < 48) && immOk (decide (2 ≤ mode.toNat)) imm
  | .wait _ sc mode _ imm => decide (sc.toNat < 48) && immOk (mode.getLsbD 0) imm
  | .gpost _ _ mode imm => (mode == 0 || mode == 2) && immOk (mode == 2) imm
  | .gwait _ _ mode _ imm => immOk (mode.getLsbD 0) imm
  | .gwatch _ _ _ sc cond => decide (sc.toNat < 48) && decide (cond.toNat ≤ 1)
  | .meshBeat _ inp lane2 data _ =>
    (inp == 1 || inp == 2 || inp == 3 || inp == 4 || inp == 7) && (!lane2 || inp == 7) && decide (data.length = 128)
  | .linkEgressBeat _ _ data => decide (data.length = 128)
  | _ => true

end Sys2Proof
end

