-- ==== Sys2Proof/Decode.lean ====
section
/-! DEFINITION. Sys2Proof/Decode.lean: the encodings of the bundle's slots (R129 to R146) and the commands that the table's bits spell. No row of the opcode table gives bits. -/

namespace Sys2Proof

open Machine

/-- The command that a word of the opcode table spells: no row gives bits, so none. -/
def decodeTableWord (_nbits _w : Nat) : Option Instr := none

/-- A field [hi:lo] of a slot. -/
def sf (w hi lo : Nat) : Nat := bitsN w hi lo

/-- The bits of an instruction in the CTL slot (R135); none for a command of another kind. -/
def encCtl : Instr → Option Nat
  | .br _ cond sa off => some (0x1 * 2 ^ 26 + cond.toNat * 2 ^ 23 + sa.toNat * 2 ^ 18 + off.toNat)
  | .jmp _ target => some (0x2 * 2 ^ 26 + target.toNat)
  | .jmpr _ sa => some (0x3 * 2 ^ 26 + sa.toNat * 2 ^ 18)
  | .call _ target => some (0x4 * 2 ^ 26 + target.toNat)
  | .callr _ sa => some (0x5 * 2 ^ 26 + sa.toNat * 2 ^ 18)
  | .loop _ src sa icount len => some (0x8 * 2 ^ 26 + bton src * 2 ^ 25 + sa.toNat * 2 ^ 20 + icount.toNat * 2 ^ 12 + len.toNat)
  | .lbrk _ => some (0x9 * 2 ^ 26)
  | .stepend _ => some (0x10 * 2 ^ 26)
  | .exit _ => some (0x11 * 2 ^ 26)
  | .brkpt _ => some (0x12 * 2 ^ 26)
  | _ => none

/-- The instruction that the opcode and the fields of a CTL slot name, reserved bits unread. -/
def rawCtl (c : CoreId) (w : Nat) : Option Instr :=
  match sf w 31 26 with
  | 0x1 => some (.br c (BitVec.ofNat 3 (sf w 25 23)) (BitVec.ofNat 5 (sf w 22 18)) (BitVec.ofNat 18 (sf w 17 0)))
  | 0x2 => some (.jmp c (BitVec.ofNat 16 (sf w 15 0)))
  | 0x3 => some (.jmpr c (BitVec.ofNat 5 (sf w 22 18)))
  | 0x4 => some (.call c (BitVec.ofNat 16 (sf w 15 0)))
  | 0x5 => some (.callr c (BitVec.ofNat 5 (sf w 22 18)))
  | 0x8 => some (.loop c (bitN w 25) (BitVec.ofNat 5 (sf w 24 20)) (BitVec.ofNat 8 (sf w 19 12)) (BitVec.ofNat 12 (sf w 11 0)))
  | 0x9 => some (.lbrk c)
  | 0x10 => some (.stepend c)
  | 0x11 => some (.exit c)
  | 0x12 => some (.brkpt c)
  | _ => none

/-- Decode a CTL slot (R129, R131): reserved opcodes, reserved bits and reserved encodings are refused. -/
def decCtl (c : CoreId) (w : Nat) : Option Instr :=
  match rawCtl c w with
  | some i => if i.wf && encCtl i == some w then some i else none
  | none => none

/-- The bits of an instruction in the SCL slot (R138); none for a command of another kind. -/
def encScl : Instr → Option Nat
  | .add _ sd sa sb => some (0x1 * 2 ^ 26 + sd.toNat * 2 ^ 21 + sa.toNat * 2 ^ 16 + sb.toNat * 2 ^ 11)
  | .sub _ sd sa sb => some (0x2 * 2 ^ 26 + sd.toNat * 2 ^ 21 + sa.toNat * 2 ^ 16 + sb.toNat * 2 ^ 11)
  | .and _ sd sa sb => some (0x3 * 2 ^ 26 + sd.toNat * 2 ^ 21 + sa.toNat * 2 ^ 16 + sb.toNat * 2 ^ 11)
  | .or _ sd sa sb => some (0x4 * 2 ^ 26 + sd.toNat * 2 ^ 21 + sa.toNat * 2 ^ 16 + sb.toNat * 2 ^ 11)
  | .xor _ sd sa sb => some (0x5 * 2 ^ 26 + sd.toNat * 2 ^ 21 + sa.toNat * 2 ^ 16 + sb.toNat * 2 ^ 11)
  | .shl _ sd sa sb => some (0x6 * 2 ^ 26 + sd.toNat * 2 ^ 21 + sa.toNat * 2 ^ 16 + sb.toNat * 2 ^ 11)
  | .shr _ sd sa sb => some (0x7 * 2 ^ 26 + sd.toNat * 2 ^ 21 + sa.toNat * 2 ^ 16 + sb.toNat * 2 ^ 11)
  | .sra _ sd sa sb => some (0x8 * 2 ^ 26 + sd.toNat * 2 ^ 21 + sa.toNat * 2 ^ 16 + sb.toNat * 2 ^ 11)
  | .slt _ sd sa sb => some (0x9 * 2 ^ 26 + sd.toNat * 2 ^ 21 + sa.toNat * 2 ^ 16 + sb.toNat * 2 ^ 11)
  | .sltu _ sd sa sb => some (0xa * 2 ^ 26 + sd.toNat * 2 ^ 21 + sa.toNat * 2 ^ 16 + sb.toNat * 2 ^ 11)
  | .seq _ sd sa sb => some (0xb * 2 ^ 26 + sd.toNat * 2 ^ 21 + sa.toNat * 2 ^ 16 + sb.toNat * 2 ^ 11)
  | .min _ sd sa sb => some (0xc * 2 ^ 26 + sd.toNat * 2 ^ 21 + sa.toNat * 2 ^ 16 + sb.toNat * 2 ^ 11)
  | .max _ sd sa sb => some (0xd * 2 ^ 26 + sd.toNat * 2 ^ 21 + sa.toNat * 2 ^ 16 + sb.toNat * 2 ^ 11)
  | .addi _ sd sa imm => some (0x11 * 2 ^ 26 + sd.toNat * 2 ^ 21 + sa.toNat * 2 ^ 16 + imm.toNat)
  | .andi _ sd sa imm => some (0x13 * 2 ^ 26 + sd.toNat * 2 ^ 21 + sa.toNat * 2 ^ 16 + imm.toNat)
  | .ori _ sd sa imm => some (0x14 * 2 ^ 26 + sd.toNat * 2 ^ 21 + sa.toNat * 2 ^ 16 + imm.toNat)
  | .xori _ sd sa imm => some (0x15 * 2 ^ 26 + sd.toNat * 2 ^ 21 + sa.toNat * 2 ^ 16 + imm.toNat)
  | .shli _ sd sa imm => some (0x16 * 2 ^ 26 + sd.toNat * 2 ^ 21 + sa.toNat * 2 ^ 16 + imm.toNat)
  | .shri _ sd sa imm => some (0x17 * 2 ^ 26 + sd.toNat * 2 ^ 21 + sa.toNat * 2 ^ 16 + imm.toNat)
  | .srai _ sd sa imm => some (0x18 * 2 ^ 26 + sd.toNat * 2 ^ 21 + sa.toNat * 2 ^ 16 + imm.toNat)
  | .slti _ sd sa imm => some (0x19 * 2 ^ 26 + sd.toNat * 2 ^ 21 + sa.toNat * 2 ^ 16 + imm.toNat)
  | .movi _ sd imm => some (0x1c * 2 ^ 26 + sd.toNat * 2 ^ 21 + imm.toNat)
  | .insh _ sd k imm => some (0x1d * 2 ^ 26 + sd.toNat * 2 ^ 21 + k.toNat * 2 ^ 16 + imm.toNat)
  | .rdsp _ sd sel => some (0x1e * 2 ^ 26 + sd.toNat * 2 ^ 21 + sel.toNat)
  | .tcfg _ tn sa => some (0x1f * 2 ^ 26 + tn.toNat * 2 ^ 20 + sa.toNat * 2 ^ 15)
  | .mul _ sd sa sb => some (0x20 * 2 ^ 26 + sd.toNat * 2 ^ 21 + sa.toNat * 2 ^ 16 + sb.toNat * 2 ^ 11)
  | .mulh _ sd sa sb => some (0x21 * 2 ^ 26 + sd.toNat * 2 ^ 21 + sa.toNat * 2 ^ 16 + sb.toNat * 2 ^ 11)
  | .mulhu _ sd sa sb => some (0x22 * 2 ^ 26 + sd.toNat * 2 ^ 21 + sa.toNat * 2 ^ 16 + sb.toNat * 2 ^ 11)
  | .div _ sd sa sb => some (0x24 * 2 ^ 26 + sd.toNat * 2 ^ 21 + sa.toNat * 2 ^ 16 + sb.toNat * 2 ^ 11)
  | .divu _ sd sa sb => some (0x25 * 2 ^ 26 + sd.toNat * 2 ^ 21 + sa.toNat * 2 ^ 16 + sb.toNat * 2 ^ 11)
  | .rem _ sd sa sb => some (0x26 * 2 ^ 26 + sd.toNat * 2 ^ 21 + sa.toNat * 2 ^ 16 + sb.toNat * 2 ^ 11)
  | .remu _ sd sa sb => some (0x27 * 2 ^ 26 + sd.toNat * 2 ^ 21 + sa.toNat * 2 ^ 16 + sb.toNat * 2 ^ 11)
  | .fadd _ sd sa sb => some (0x28 * 2 ^ 26 + sd.toNat * 2 ^ 21 + sa.toNat * 2 ^ 16 + sb.toNat * 2 ^ 11)
  | .fmul _ sd sa sb => some (0x29 * 2 ^ 26 + sd.toNat * 2 ^ 21 + sa.toNat * 2 ^ 16 + sb.toNat * 2 ^ 11)
  | .ffma _ sd sa sb => some (0x2a * 2 ^ 26 + sd.toNat * 2 ^ 21 + sa.toNat * 2 ^ 16 + sb.toNat * 2 ^ 11)
  | .fcvti _ sd sa => some (0x2b * 2 ^ 26 + sd.toNat * 2 ^ 21 + sa.toNat * 2 ^ 16)
  | .icvtf _ sd sa => some (0x2c * 2 ^ 26 + sd.toNat * 2 ^ 21 + sa.toNat * 2 ^ 16)
  | _ => none

/-- The instruction that the opcode and the fields of a SCL slot name, reserved bits unread. -/
def rawScl (c : CoreId) (w : Nat) : Option Instr :=
  match sf w 31 26 with
  | 0x1 => some (.add c (BitVec.ofNat 5 (sf w 25 21)) (BitVec.ofNat 5 (sf w 20 16)) (BitVec.ofNat 5 (sf w 15 11)))
  | 0x2 => some (.sub c (BitVec.ofNat 5 (sf w 25 21)) (BitVec.ofNat 5 (sf w 20 16)) (BitVec.ofNat 5 (sf w 15 11)))
  | 0x3 => some (.and c (BitVec.ofNat 5 (sf w 25 21)) (BitVec.ofNat 5 (sf w 20 16)) (BitVec.ofNat 5 (sf w 15 11)))
  | 0x4 => some (.or c (BitVec.ofNat 5 (sf w 25 21)) (BitVec.ofNat 5 (sf w 20 16)) (BitVec.ofNat 5 (sf w 15 11)))
  | 0x5 => some (.xor c (BitVec.ofNat 5 (sf w 25 21)) (BitVec.ofNat 5 (sf w 20 16)) (BitVec.ofNat 5 (sf w 15 11)))
  | 0x6 => some (.shl c (BitVec.ofNat 5 (sf w 25 21)) (BitVec.ofNat 5 (sf w 20 16)) (BitVec.ofNat 5 (sf w 15 11)))
  | 0x7 => some (.shr c (BitVec.ofNat 5 (sf w 25 21)) (BitVec.ofNat 5 (sf w 20 16)) (BitVec.ofNat 5 (sf w 15 11)))
  | 0x8 => some (.sra c (BitVec.ofNat 5 (sf w 25 21)) (BitVec.ofNat 5 (sf w 20 16)) (BitVec.ofNat 5 (sf w 15 11)))
  | 0x9 => some (.slt c (BitVec.ofNat 5 (sf w 25 21)) (BitVec.ofNat 5 (sf w 20 16)) (BitVec.ofNat 5 (sf w 15 11)))
  | 0xa => some (.sltu c (BitVec.ofNat 5 (sf w 25 21)) (BitVec.ofNat 5 (sf w 20 16)) (BitVec.ofNat 5 (sf w 15 11)))
  | 0xb => some (.seq c (BitVec.ofNat 5 (sf w 25 21)) (BitVec.ofNat 5 (sf w 20 16)) (BitVec.ofNat 5 (sf w 15 11)))
  | 0xc => some (.min c (BitVec.ofNat 5 (sf w 25 21)) (BitVec.ofNat 5 (sf w 20 16)) (BitVec.ofNat 5 (sf w 15 11)))
  | 0xd => some (.max c (BitVec.ofNat 5 (sf w 25 21)) (BitVec.ofNat 5 (sf w 20 16)) (BitVec.ofNat 5 (sf w 15 11)))
  | 0x11 => some (.addi c (BitVec.ofNat 5 (sf w 25 21)) (BitVec.ofNat 5 (sf w 20 16)) (BitVec.ofNat 16 (sf w 15 0)))
  | 0x13 => some (.andi c (BitVec.ofNat 5 (sf w 25 21)) (BitVec.ofNat 5 (sf w 20 16)) (BitVec.ofNat 16 (sf w 15 0)))
  | 0x14 => some (.ori c (BitVec.ofNat 5 (sf w 25 21)) (BitVec.ofNat 5 (sf w 20 16)) (BitVec.ofNat 16 (sf w 15 0)))
  | 0x15 => some (.xori c (BitVec.ofNat 5 (sf w 25 21)) (BitVec.ofNat 5 (sf w 20 16)) (BitVec.ofNat 16 (sf w 15 0)))
  | 0x16 => some (.shli c (BitVec.ofNat 5 (sf w 25 21)) (BitVec.ofNat 5 (sf w 20 16)) (BitVec.ofNat 16 (sf w 15 0)))
  | 0x17 => some (.shri c (BitVec.ofNat 5 (sf w 25 21)) (BitVec.ofNat 5 (sf w 20 16)) (BitVec.ofNat 16 (sf w 15 0)))
  | 0x18 => some (.srai c (BitVec.ofNat 5 (sf w 25 21)) (BitVec.ofNat 5 (sf w 20 16)) (BitVec.ofNat 16 (sf w 15 0)))
  | 0x19 => some (.slti c (BitVec.ofNat 5 (sf w 25 21)) (BitVec.ofNat 5 (sf w 20 16)) (BitVec.ofNat 16 (sf w 15 0)))
  | 0x1c => some (.movi c (BitVec.ofNat 5 (sf w 25 21)) (BitVec.ofNat 21 (sf w 20 0)))
  | 0x1d => some (.insh c (BitVec.ofNat 5 (sf w 25 21)) (BitVec.ofNat 2 (sf w 17 16)) (BitVec.ofNat 16 (sf w 15 0)))
  | 0x1e => some (.rdsp c (BitVec.ofNat 5 (sf w 25 21)) (BitVec.ofNat 4 (sf w 3 0)))
  | 0x1f => some (.tcfg c (BitVec.ofNat 6 (sf w 25 20)) (BitVec.ofNat 5 (sf w 19 15)))
  | 0x20 => some (.mul c (BitVec.ofNat 5 (sf w 25 21)) (BitVec.ofNat 5 (sf w 20 16)) (BitVec.ofNat 5 (sf w 15 11)))
  | 0x21 => some (.mulh c (BitVec.ofNat 5 (sf w 25 21)) (BitVec.ofNat 5 (sf w 20 16)) (BitVec.ofNat 5 (sf w 15 11)))
  | 0x22 => some (.mulhu c (BitVec.ofNat 5 (sf w 25 21)) (BitVec.ofNat 5 (sf w 20 16)) (BitVec.ofNat 5 (sf w 15 11)))
  | 0x24 => some (.div c (BitVec.ofNat 5 (sf w 25 21)) (BitVec.ofNat 5 (sf w 20 16)) (BitVec.ofNat 5 (sf w 15 11)))
  | 0x25 => some (.divu c (BitVec.ofNat 5 (sf w 25 21)) (BitVec.ofNat 5 (sf w 20 16)) (BitVec.ofNat 5 (sf w 15 11)))
  | 0x26 => some (.rem c (BitVec.ofNat 5 (sf w 25 21)) (BitVec.ofNat 5 (sf w 20 16)) (BitVec.ofNat 5 (sf w 15 11)))
  | 0x27 => some (.remu c (BitVec.ofNat 5 (sf w 25 21)) (BitVec.ofNat 5 (sf w 20 16)) (BitVec.ofNat 5 (sf w 15 11)))
  | 0x28 => some (.fadd c (BitVec.ofNat 5 (sf w 25 21)) (BitVec.ofNat 5 (sf w 20 16)) (BitVec.ofNat 5 (sf w 15 11)))
  | 0x29 => some (.fmul c (BitVec.ofNat 5 (sf w 25 21)) (BitVec.ofNat 5 (sf w 20 16)) (BitVec.ofNat 5 (sf w 15 11)))
  | 0x2a => some (.ffma c (BitVec.ofNat 5 (sf w 25 21)) (BitVec.ofNat 5 (sf w 20 16)) (BitVec.ofNat 5 (sf w 15 11)))
  | 0x2b => some (.fcvti c (BitVec.ofNat 5 (sf w 25 21)) (BitVec.ofNat 5 (sf w 20 16)))
  | 0x2c => some (.icvtf c (BitVec.ofNat 5 (sf w 25 21)) (BitVec.ofNat 5 (sf w 20 16)))
  | _ => none

/-- Decode a SCL slot (R129, R131): reserved opcodes, reserved bits and reserved encodings are refused. -/
def decScl (c : CoreId) (w : Nat) : Option Instr :=
  match rawScl c w with
  | some i => if i.wf && encScl i == some w then some i else none
  | none => none

/-- The bits of an instruction in the MOV slot (R140); none for a command of another kind. -/
def encMov : Instr → Option Nat
  | .tld _ t n sb ss off => some (0x1 * 2 ^ 42 + t.toNat * 2 ^ 36 + n.toNat * 2 ^ 30 + sb.toNat * 2 ^ 25 + ss.toNat * 2 ^ 20 + off.toNat * 2 ^ 4)
  | .tst _ t n sb ss off => some (0x2 * 2 ^ 42 + t.toNat * 2 ^ 36 + n.toNat * 2 ^ 30 + sb.toNat * 2 ^ 25 + ss.toNat * 2 ^ 20 + off.toNat * 2 ^ 4)
  | .tcpy _ td n ts => some (0x3 * 2 ^ 42 + td.toNat * 2 ^ 36 + n.toNat * 2 ^ 30 + ts.toNat * 2 ^ 24)
  | .msnd _ ts n flow ct => some (0x4 * 2 ^ 42 + ts.toNat * 2 ^ 36 + n.toNat * 2 ^ 30 + flow.toNat * 2 ^ 24 + ct.toNat * 2 ^ 18)
  | .mbind _ flow ct sb ss sn => some (0x5 * 2 ^ 42 + flow.toNat * 2 ^ 36 + ct.toNat * 2 ^ 30 + sb.toNat * 2 ^ 25 + ss.toNat * 2 ^ 20 + sn.toNat * 2 ^ 15)
  | .slnch _ sb off => some (0x6 * 2 ^ 42 + sb.toNat * 2 ^ 37 + off.toNat * 2 ^ 20)
  | .sld _ sd sb w sx off => some (0x8 * 2 ^ 42 + sd.toNat * 2 ^ 37 + sb.toNat * 2 ^ 32 + w.toNat * 2 ^ 30 + bton sx * 2 ^ 29 + off.toNat * 2 ^ 13)
  | .sst _ sa sb w off => some (0x9 * 2 ^ 42 + sa.toNat * 2 ^ 37 + sb.toNat * 2 ^ 32 + w.toNat * 2 ^ 30 + off.toNat * 2 ^ 13)
  | .vld _ vd sb off => some (0xa * 2 ^ 42 + vd.toNat * 2 ^ 38 + sb.toNat * 2 ^ 33 + off.toNat * 2 ^ 17)
  | .vst _ va sb off => some (0xb * 2 ^ 42 + va.toNat * 2 ^ 38 + sb.toNat * 2 ^ 33 + off.toNat * 2 ^ 17)
  | _ => none

/-- The instruction that the opcode and the fields of a MOV slot name, reserved bits unread. -/
def rawMov (c : CoreId) (w : Nat) : Option Instr :=
  match sf w 47 42 with
  | 0x1 => some (.tld c (BitVec.ofNat 6 (sf w 41 36)) (BitVec.ofNat 6 (sf w 35 30)) (BitVec.ofNat 5 (sf w 29 25)) (BitVec.ofNat 5 (sf w 24 20)) (BitVec.ofNat 16 (sf w 19 4)))
  | 0x2 => some (.tst c (BitVec.ofNat 6 (sf w 41 36)) (BitVec.ofNat 6 (sf w 35 30)) (BitVec.ofNat 5 (sf w 29 25)) (BitVec.ofNat 5 (sf w 24 20)) (BitVec.ofNat 16 (sf w 19 4)))
  | 0x3 => some (.tcpy c (BitVec.ofNat 6 (sf w 41 36)) (BitVec.ofNat 6 (sf w 35 30)) (BitVec.ofNat 6 (sf w 29 24)))
  | 0x4 => some (.msnd c (BitVec.ofNat 6 (sf w 41 36)) (BitVec.ofNat 6 (sf w 35 30)) (BitVec.ofNat 6 (sf w 29 24)) (BitVec.ofNat 6 (sf w 23 18)))
  | 0x5 => some (.mbind c (BitVec.ofNat 6 (sf w 41 36)) (BitVec.ofNat 6 (sf w 35 30)) (BitVec.ofNat 5 (sf w 29 25)) (BitVec.ofNat 5 (sf w 24 20)) (BitVec.ofNat 5 (sf w 19 15)))
  | 0x6 => some (.slnch c (BitVec.ofNat 5 (sf w 41 37)) (BitVec.ofNat 16 (sf w 35 20)))
  | 0x8 => some (.sld c (BitVec.ofNat 5 (sf w 41 37)) (BitVec.ofNat 5 (sf w 36 32)) (BitVec.ofNat 2 (sf w 31 30)) (bitN w 29) (BitVec.ofNat 16 (sf w 28 13)))
  | 0x9 => some (.sst c (BitVec.ofNat 5 (sf w 41 37)) (BitVec.ofNat 5 (sf w 36 32)) (BitVec.ofNat 2 (sf w 31 30)) (BitVec.ofNat 16 (sf w 28 13)))
  | 0xa => some (.vld c (BitVec.ofNat 4 (sf w 41 38)) (BitVec.ofNat 5 (sf w 37 33)) (BitVec.ofNat 16 (sf w 32 17)))
  | 0xb => some (.vst c (BitVec.ofNat 4 (sf w 41 38)) (BitVec.ofNat 5 (sf w 37 33)) (BitVec.ofNat 16 (sf w 32 17)))
  | _ => none

/-- Decode a MOV slot (R129, R131): reserved opcodes, reserved bits and reserved encodings are refused. -/
def decMov (c : CoreId) (w : Nat) : Option Instr :=
  match rawMov c w with
  | some i => if i.wf && encMov i == some w then some i else none
  | none => none

/-- The bits of an instruction in the ARR slot (R143); none for a command of another kind. -/
def encArr : Instr → Option Nat
  | .pass _ ta tw td n rate keep chain => some (0x1 * 2 ^ 42 + ta.toNat * 2 ^ 36 + tw.toNat * 2 ^ 30 + td.toNat * 2 ^ 24 + n.toNat * 2 ^ 18 + rate.toNat * 2 ^ 16 + bton keep * 2 ^ 15 + bton chain * 2 ^ 14)
  | .astat _ sd => some (0x2 * 2 ^ 42 + sd.toNat * 2 ^ 37)
  | _ => none

/-- The instruction that the opcode and the fields of a ARR slot name, reserved bits unread. -/
def rawArr (c : CoreId) (w : Nat) : Option Instr :=
  match sf w 47 42 with
  | 0x1 => some (.pass c (BitVec.ofNat 6 (sf w 41 36)) (BitVec.ofNat 6 (sf w 35 30)) (BitVec.ofNat 6 (sf w 29 24)) (BitVec.ofNat 6 (sf w 23 18)) (BitVec.ofNat 2 (sf w 17 16)) (bitN w 15) (bitN w 14))
  | 0x2 => some (.astat c (BitVec.ofNat 5 (sf w 41 37)))
  | _ => none

/-- Decode a ARR slot (R129, R131): reserved opcodes, reserved bits and reserved encodings are refused. -/
def decArr (c : CoreId) (w : Nat) : Option Instr :=
  match rawArr c w with
  | some i => if i.wf && encArr i == some w then some i else none
  | none => none

/-- The bits of an instruction in the VEC slot (R144); none for a command of another kind. -/
def encVec : Instr → Option Nat
  | .vadd _ vd va vb => some (0x1 * 2 ^ 42 + vd.toNat * 2 ^ 38 + va.toNat * 2 ^ 34 + vb.toNat * 2 ^ 30)
  | .vsub _ vd va vb => some (0x2 * 2 ^ 42 + vd.toNat * 2 ^ 38 + va.toNat * 2 ^ 34 + vb.toNat * 2 ^ 30)
  | .vmul _ vd va vb => some (0x3 * 2 ^ 42 + vd.toNat * 2 ^ 38 + va.toNat * 2 ^ 34 + vb.toNat * 2 ^ 30)
  | .vfma _ vd va vb vc => some (0x4 * 2 ^ 42 + vd.toNat * 2 ^ 38 + va.toNat * 2 ^ 34 + vb.toNat * 2 ^ 30 + vc.toNat * 2 ^ 26)
  | .vcmp _ vd va vb cond => some (0x8 * 2 ^ 42 + vd.toNat * 2 ^ 38 + va.toNat * 2 ^ 34 + vb.toNat * 2 ^ 30 + cond.toNat * 2 ^ 13)
  | .vsel _ vd va vb vc => some (0x9 * 2 ^ 42 + vd.toNat * 2 ^ 38 + va.toNat * 2 ^ 34 + vb.toNat * 2 ^ 30 + vc.toNat * 2 ^ 26)
  | .vand _ vd va vb => some (0xa * 2 ^ 42 + vd.toNat * 2 ^ 38 + va.toNat * 2 ^ 34 + vb.toNat * 2 ^ 30)
  | .vor _ vd va vb => some (0xb * 2 ^ 42 + vd.toNat * 2 ^ 38 + va.toNat * 2 ^ 34 + vb.toNat * 2 ^ 30)
  | .vxor _ vd va vb => some (0xc * 2 ^ 42 + vd.toNat * 2 ^ 38 + va.toNat * 2 ^ 34 + vb.toNat * 2 ^ 30)
  | .vmin _ vd va vb => some (0xd * 2 ^ 42 + vd.toNat * 2 ^ 38 + va.toNat * 2 ^ 34 + vb.toNat * 2 ^ 30)
  | .vmax _ vd va vb => some (0xe * 2 ^ 42 + vd.toNat * 2 ^ 38 + va.toNat * 2 ^ 34 + vb.toNat * 2 ^ 30)
  | .vbcast _ vd sx => some (0xf * 2 ^ 42 + vd.toNat * 2 ^ 38 + sx.toNat * 2 ^ 21)
  | .vext _ sx va lane => some (0x10 * 2 ^ 42 + sx.toNat * 2 ^ 21 + va.toNat * 2 ^ 34 + lane.toNat * 2 ^ 16)
  | .vexp _ vd va => some (0x18 * 2 ^ 42 + vd.toNat * 2 ^ 38 + va.toNat * 2 ^ 34)
  | .vlog _ vd va => some (0x19 * 2 ^ 42 + vd.toNat * 2 ^ 38 + va.toNat * 2 ^ 34)
  | .vrcp _ vd va => some (0x1a * 2 ^ 42 + vd.toNat * 2 ^ 38 + va.toNat * 2 ^ 34)
  | .vrsq _ vd va => some (0x1b * 2 ^ 42 + vd.toNat * 2 ^ 38 + va.toNat * 2 ^ 34)
  | .vtanh _ vd va => some (0x1c * 2 ^ 42 + vd.toNat * 2 ^ 38 + va.toNat * 2 ^ 34)
  | .vrsum _ vd va => some (0x20 * 2 ^ 42 + vd.toNat * 2 ^ 38 + va.toNat * 2 ^ 34)
  | .vrmax _ vd va => some (0x21 * 2 ^ 42 + vd.toNat * 2 ^ 38 + va.toNat * 2 ^ 34)
  | .tvop _ td ta n func vb vc bsrc cond => some (0x28 * 2 ^ 42 + td.toNat * 2 ^ 36 + ta.toNat * 2 ^ 30 + n.toNat * 2 ^ 24 + func.toNat * 2 ^ 18 + vb.toNat * 2 ^ 14 + vc.toNat * 2 ^ 10 + bsrc.toNat * 2 ^ 8 + cond.toNat * 2 ^ 5)
  | .tred _ vd ta n kind vb => some (0x30 * 2 ^ 42 + vd.toNat * 2 ^ 38 + ta.toNat * 2 ^ 32 + n.toNat * 2 ^ 26 + kind.toNat * 2 ^ 23 + vb.toNat * 2 ^ 19)
  | _ => none

/-- The instruction that the opcode and the fields of a VEC slot name, reserved bits unread. -/
def rawVec (c : CoreId) (w : Nat) : Option Instr :=
  match sf w 47 42 with
  | 0x1 => some (.vadd c (BitVec.ofNat 4 (sf w 41 38)) (BitVec.ofNat 4 (sf w 37 34)) (BitVec.ofNat 4 (sf w 33 30)))
  | 0x2 => some (.vsub c (BitVec.ofNat 4 (sf w 41 38)) (BitVec.ofNat 4 (sf w 37 34)) (BitVec.ofNat 4 (sf w 33 30)))
  | 0x3 => some (.vmul c (BitVec.ofNat 4 (sf w 41 38)) (BitVec.ofNat 4 (sf w 37 34)) (BitVec.ofNat 4 (sf w 33 30)))
  | 0x4 => some (.vfma c (BitVec.ofNat 4 (sf w 41 38)) (BitVec.ofNat 4 (sf w 37 34)) (BitVec.ofNat 4 (sf w 33 30)) (BitVec.ofNat 4 (sf w 29 26)))
  | 0x8 => some (.vcmp c (BitVec.ofNat 4 (sf w 41 38)) (BitVec.ofNat 4 (sf w 37 34)) (BitVec.ofNat 4 (sf w 33 30)) (BitVec.ofNat 3 (sf w 15 13)))
  | 0x9 => some (.vsel c (BitVec.ofNat 4 (sf w 41 38)) (BitVec.ofNat 4 (sf w 37 34)) (BitVec.ofNat 4 (sf w 33 30)) (BitVec.ofNat 4 (sf w 29 26)))
  | 0xa => some (.vand c (BitVec.ofNat 4 (sf w 41 38)) (BitVec.ofNat 4 (sf w 37 34)) (BitVec.ofNat 4 (sf w 33 30)))
  | 0xb => some (.vor c (BitVec.ofNat 4 (sf w 41 38)) (BitVec.ofNat 4 (sf w 37 34)) (BitVec.ofNat 4 (sf w 33 30)))
  | 0xc => some (.vxor c (BitVec.ofNat 4 (sf w 41 38)) (BitVec.ofNat 4 (sf w 37 34)) (BitVec.ofNat 4 (sf w 33 30)))
  | 0xd => some (.vmin c (BitVec.ofNat 4 (sf w 41 38)) (BitVec.ofNat 4 (sf w 37 34)) (BitVec.ofNat 4 (sf w 33 30)))
  | 0xe => some (.vmax c (BitVec.ofNat 4 (sf w 41 38)) (BitVec.ofNat 4 (sf w 37 34)) (BitVec.ofNat 4 (sf w 33 30)))
  | 0xf => some (.vbcast c (BitVec.ofNat 4 (sf w 41 38)) (BitVec.ofNat 5 (sf w 25 21)))
  | 0x10 => some (.vext c (BitVec.ofNat 5 (sf w 25 21)) (BitVec.ofNat 4 (sf w 37 34)) (BitVec.ofNat 5 (sf w 20 16)))
  | 0x18 => some (.vexp c (BitVec.ofNat 4 (sf w 41 38)) (BitVec.ofNat 4 (sf w 37 34)))
  | 0x19 => some (.vlog c (BitVec.ofNat 4 (sf w 41 38)) (BitVec.ofNat 4 (sf w 37 34)))
  | 0x1a => some (.vrcp c (BitVec.ofNat 4 (sf w 41 38)) (BitVec.ofNat 4 (sf w 37 34)))
  | 0x1b => some (.vrsq c (BitVec.ofNat 4 (sf w 41 38)) (BitVec.ofNat 4 (sf w 37 34)))
  | 0x1c => some (.vtanh c (BitVec.ofNat 4 (sf w 41 38)) (BitVec.ofNat 4 (sf w 37 34)))
  | 0x20 => some (.vrsum c (BitVec.ofNat 4 (sf w 41 38)) (BitVec.ofNat 4 (sf w 37 34)))
  | 0x21 => some (.vrmax c (BitVec.ofNat 4 (sf w 41 38)) (BitVec.ofNat 4 (sf w 37 34)))
  | 0x28 => some (.tvop c (BitVec.ofNat 6 (sf w 41 36)) (BitVec.ofNat 6 (sf w 35 30)) (BitVec.ofNat 6 (sf w 29 24)) (BitVec.ofNat 6 (sf w 23 18)) (BitVec.ofNat 4 (sf w 17 14)) (BitVec.ofNat 4 (sf w 13 10)) (BitVec.ofNat 2 (sf w 9 8)) (BitVec.ofNat 3 (sf w 7 5)))
  | 0x30 => some (.tred c (BitVec.ofNat 4 (sf w 41 38)) (BitVec.ofNat 6 (sf w 37 32)) (BitVec.ofNat 6 (sf w 31 26)) (BitVec.ofNat 3 (sf w 25 23)) (BitVec.ofNat 4 (sf w 22 19)))
  | _ => none

/-- Decode a VEC slot (R129, R131): reserved opcodes, reserved bits and reserved encodings are refused. -/
def decVec (c : CoreId) (w : Nat) : Option Instr :=
  match rawVec c w with
  | some i => if i.wf && encVec i == some w then some i else none
  | none => none

/-- The bits of an instruction in the SYN slot (R146); none for a command of another kind. -/
def encSyn : Instr → Option Nat
  | .post _ sc mode imm => some (0x1 * 2 ^ 26 + sc.toNat * 2 ^ 20 + mode.toNat * 2 ^ 18 + imm.toNat)
  | .wait _ sc mode consume imm => some (0x2 * 2 ^ 26 + sc.toNat * 2 ^ 20 + mode.toNat * 2 ^ 18 + bton consume * 2 ^ 17 + imm.toNat)
  | .gpost _ sa mode imm => some (0x8 * 2 ^ 26 + sa.toNat * 2 ^ 21 + mode.toNat * 2 ^ 18 + imm.toNat)
  | .gwait _ sa mode consume imm => some (0x9 * 2 ^ 26 + sa.toNat * 2 ^ 21 + mode.toNat * 2 ^ 18 + bton consume * 2 ^ 17 + imm.toNat)
  | .gwatch _ sa sv sc cond => some (0xa * 2 ^ 26 + sa.toNat * 2 ^ 21 + sv.toNat * 2 ^ 16 + sc.toNat * 2 ^ 10 + cond.toNat * 2 ^ 8)
  | _ => none

/-- The instruction that the opcode and the fields of a SYN slot name, reserved bits unread. -/
def rawSyn (c : CoreId) (w : Nat) : Option Instr :=
  match sf w 31 26 with
  | 0x1 => some (.post c (BitVec.ofNat 6 (sf w 25 20)) (BitVec.ofNat 2 (sf w 19 18)) (BitVec.ofNat 16 (sf w 15 0)))
  | 0x2 => some (.wait c (BitVec.ofNat 6 (sf w 25 20)) (BitVec.ofNat 2 (sf w 19 18)) (bitN w 17) (BitVec.ofNat 16 (sf w 15 0)))
  | 0x8 => some (.gpost c (BitVec.ofNat 5 (sf w 25 21)) (BitVec.ofNat 2 (sf w 19 18)) (BitVec.ofNat 16 (sf w 15 0)))
  | 0x9 => some (.gwait c (BitVec.ofNat 5 (sf w 25 21)) (BitVec.ofNat 2 (sf w 19 18)) (bitN w 17) (BitVec.ofNat 16 (sf w 15 0)))
  | 0xa => some (.gwatch c (BitVec.ofNat 5 (sf w 25 21)) (BitVec.ofNat 5 (sf w 20 16)) (BitVec.ofNat 6 (sf w 15 10)) (BitVec.ofNat 2 (sf w 9 8)))
  | _ => none

/-- Decode a SYN slot (R129, R131): reserved opcodes, reserved bits and reserved encodings are refused. -/
def decSyn (c : CoreId) (w : Nat) : Option Instr :=
  match rawSyn c w with
  | some i => if i.wf && encSyn i == some w then some i else none
  | none => none

/-- Bits of the six slots of a bundle with their valid bits, in slot order (R129, R130). -/
def slotBits (b : BitVec 256) : List (Bool × Nat) :=
  [(b.getLsbD 0, sf b.toNat 47 16), (b.getLsbD 1, sf b.toNat 79 48), (b.getLsbD 2, sf b.toNat 127 80),
   (b.getLsbD 3, sf b.toNat 175 128), (b.getLsbD 4, sf b.toNat 223 176), (b.getLsbD 5, sf b.toNat 255 224)]

/-- Decode slot `k` of a bundle. -/
def decSlot (c : CoreId) (k w : Nat) : Option Instr :=
  match k with
  | 0 => decCtl c w
  | 1 => decScl c w
  | 2 => decMov c w
  | 3 => decArr c w
  | 4 => decVec c w
  | _ => decSyn c w

/-- Decode the valid slots, in slot order. -/
def decSlots (c : CoreId) : Nat → List (Bool × Nat) → Option (List Instr)
  | _, [] => some []
  | k, (v, w) :: l =>
    if v then
      match decSlot c k w, decSlots c (k + 1) l with
      | some i, some is => some (i :: is)
      | _, _ => none
    else decSlots c (k + 1) l

/-- Decode a bundle: its header, then its slots (R130, R131); none for an illegal encoding. -/
def decBundle (c : CoreId) (b : BitVec 256) : Option (List Instr) :=
  if sf b.toNat 15 14 = 1 ∧ sf b.toNat 13 6 = 0 then decSlots c 0 (slotBits b) else none

end Sys2Proof
end

