-- ==== Sys2Proof/Config.lean ====
section
/-! DEFINITION. Sys2Proof/Config.lean: what the part fixes and the spec does not give a number for. Every constant is opaque: nothing in Lean can evaluate it. -/

namespace Sys2Proof

/-- What the fuses of one part hold (R184, R424, R425, R427, R431). -/
structure Fuses where
  mac : BitVec 48
  serial : BitVec 64
  romVer : BitVec 16
  svn : Nat
  keyFused : BitVec 4
  keyRevoked : BitVec 4
  keyHash : List (BitVec 512)
  tpiFmtMax : BitVec 8
  faultBits : List (Nat × BitVec 13)
  deriving DecidableEq, Repr, Inhabited

/-- The fuses of the part as made (assumption 1). -/
opaque Config.fuses : Fuses

/-- The flash contents of the part as shipped (assumption 1): bytes that are not 0xFF. -/
opaque Config.flash : List (Nat × BitVec 8)

/-- SHA-512 (R422, assumption 7). -/
opaque Config.sha512 : Bytes → BitVec 512

/-- ECDSA P-521 verification of a signature (r, s) over a digest with an uncompressed public key (R424, assumption 7). -/
opaque Config.ecdsaVerify : Bytes → BitVec 512 → Bytes → Bool

/-- The signature of the device identity key over a digest: 132 bytes (R427, R428, assumption 7). -/
opaque Config.idSign : BitVec 512 → Bytes

/-- ID_PUB, the public identity key of the part: 133 bytes (R427, assumption 7). -/
opaque Config.idPub : Bytes

/-- Places of a core's bell-wire injection queue beyond the first (R182): the spec gives no number (log entry 13, DESIGN CHOICE). -/
opaque Config.bellQueueExtra : Nat

/-- The number that a PLL_LOCK_FAIL record gives for a PLL's domain (R397): the spec names the fact and gives no coding (log entry 135, DESIGN
CHOICE). -/
opaque Config.domainCode : PllDom → Nat

/-- How the detail of LOAD_REFUSED reason 5 codes a router, as hall and number, and a slot (R376): the spec names the two facts and
gives no layout. -/
opaque Config.laneDetail : Nat → Nat → Nat → Nat

/-- The detail of LOAD_REFUSED reason 1 for a version, a key and a signature that fail, as 1 to 3 (R376): the spec refers to a chapter that gives none
(log entry 109, DESIGN CHOICE). -/
opaque Config.rejectDetail : Nat → Nat

/-- The Ethernet priority of what the port sends of itself: THP on a session of class 0, 1 or 2, and 3 for what belongs to no session (R368). A free
value (log entry 221, DESIGN CHOICE). -/
opaque Config.thpPrio : Nat → BitVec 3

/-- The retry-after time in microseconds of a BUSY answer beyond its floor of 10,000 (R381). -/
opaque Config.busyExtra : Nat → Nat

/-- The header of a checkpoint generation area (R360): the spec names its facts and gives no layout. Arguments: STEP, BYTES, GROUP, position, epoch,
VALID (log entry 89, DESIGN CHOICE). -/
opaque Config.areaHeader : Nat → Nat → Nat → Nat → Nat → Bool → Bytes

/-! ### What the standards named in R322 to R324 fix (assumption 12) -/

/-- What a video elementary stream's syntax states, from its decoder configuration and its bytes (ISO/IEC 13818-2, 14496-10, 23008-2). -/
opaque Config.videoSyntax : Codec → Bytes → Bytes → VideoSyn

/-- What an audio elementary stream's syntax states (ISO/IEC 11172-3, 14496-3). -/
opaque Config.audioSyntax : ACodec → Bytes → Bytes → AudioSyn

/-- Sample (x, y) of plane 0 to 2 (Y, Cb, Cr) of a decoded picture, inside the display window: standard, configuration, stream, picture, plane, x, y. -/
opaque Config.decodedPixel : Codec × Bytes × Bytes → Nat → Nat → Nat → Nat → Nat

/-- Audio sample `i` of a window, decoded and resampled (R334), FP32: standard, configuration, stream, window start and end in ticks, rate, channel (0 front left
or mono, 1 front right), i. -/
opaque Config.resampledAudio : ACodec × Bytes × Bytes → Int × Int → Nat → Nat → Nat → BitVec 32

/-- Is the Hann window of R334 periodic, or symmetric (log entry 201, DESIGN CHOICE)? -/
opaque Config.hannPeriodic : Bool

/-- What decoding a sample leaves in its engine's scratch area (R336): clip record, recipe and descriptor (log entry 184, DESIGN CHOICE). -/
opaque Config.scratch : Bytes → Bytes → Bytes → Bytes

/-- The time of a frame for which its stream gives none, from the frame before it (R325 gives no rule): standard, stream, picture, time before. -/
opaque Config.impliedTime : Codec → Bytes → Nat → Int → Int

/-- Does the resampler take the upper of the two phases around a position (R332 gives 64 phases and no rounding)? -/
opaque Config.phaseUp : Rat → Bool

/-- How far a colour value is from the exact one (R332); used within 2^-11: frame's picture, column, row, channel. -/
opaque Config.colourError : Bytes → Nat → Nat → Nat → Nat → Rat

/-- Kr and Kb of a stream's colour description other than BT.601, BT.709 and BT.2020 (R332 names no others). -/
opaque Config.colourMatrix : Nat → Rat × Rat

/-- The 24 check bytes of a lane's codeword for its 200 data bytes (R267): RS(224, 200) over GF(2^8), whose polynomials the spec does not give. -/
opaque Config.rsCheck : Bytes → Bytes

/-- A value the spec leaves undefined, one for each reading of the free-value counter of State. -/
opaque Config.freeValue : Nat → BitVec 64

end Sys2Proof
end

