-- ==== Sys2Proof/Machine/Float.lean ====
section
/-! DEFINITION. Sys2Proof/Machine/Float.lean: binary floating point, exact and then rounded once to nearest, ties to even, subnormals kept (R80): decoding, packing, sums, products, comparisons. -/

namespace Sys2Proof.Machine

/-- A decoded floating-point value; a finite one is (-1)^neg m 2^e exactly. -/
inductive Fp where
  | nan
  | inf (neg : Bool)
  | fin (neg : Bool) (m : Nat) (e : Int)
  deriving DecidableEq, Repr

/-- `m / 2^r` rounded to nearest, ties to even. -/
def rneShift (m r : Nat) : Nat :=
  let q := m / 2 ^ r
  let t := m % 2 ^ r
  if 2 * t < 2 ^ r then q else if 2 ^ r < 2 * t then q + 1 else q + q % 2

/-- The integer `m 2^e` with `e` an integer, rounded to nearest, ties to even. -/
def scaleRne (m : Nat) (e : Int) : Nat := if 0 ≤ e then m * 2 ^ e.toNat else rneShift m (-e).toNat

/-- Decode `1 + eb + mb` bits of an IEEE format. -/
def fpDecode (eb mb v : Nat) : Fp :=
  let neg := bitN v (eb + mb)
  let x := v / 2 ^ mb % 2 ^ eb
  let f := v % 2 ^ mb
  let emin : Int := 2 - 2 ^ (eb - 1) - mb
  if x = 2 ^ eb - 1 then (if f = 0 then .inf neg else .nan)
  else if x = 0 then .fin neg f emin
  else .fin neg (f + 2 ^ mb) (emin + x - 1)

/-- Pack an exact value into an IEEE format, rounded once; overflow gives an infinity (log entry 64, DEDUCED). -/
def fpPack (eb mb : Nat) (x : Fp) : Nat :=
  let sign (b : Bool) : Nat := bton b * 2 ^ (eb + mb)
  match x with
  | .nan => (2 ^ eb - 1) * 2 ^ mb + 2 ^ (mb - 1)
  | .inf b => sign b + (2 ^ eb - 1) * 2 ^ mb
  | .fin b m e =>
    if m = 0 then sign b
    else
      let qmin : Int := 2 - 2 ^ (eb - 1) - mb
      let q := max (Nat.log2 m + e - mb) qmin
      let k := scaleRne m (e - q)
      let bits := (q - qmin).toNat * 2 ^ mb + k
      if (2 ^ eb - 1) * 2 ^ mb ≤ bits then sign b + (2 ^ eb - 1) * 2 ^ mb else sign b + bits

/-- A signed integer times 2^e as a value; zero is positive. -/
def fpOfInt (i : Int) (e : Int) : Fp := .fin (decide (i < 0)) i.natAbs e

/-- Numerator of a finite value over 2^e0, for e0 at or below its exponent. -/
def fpNum (neg : Bool) (m : Nat) (e e0 : Int) : Int := (if neg then -1 else 1) * (m * 2 ^ (e - e0).toNat : Nat)

/-- Exact sum of two values; an exact zero of unlike signs is positive. -/
def fpAdd : Fp → Fp → Fp
  | .nan, _ => .nan
  | _, .nan => .nan
  | .inf a, .inf b => if a = b then .inf a else .nan
  | .inf a, _ => .inf a
  | _, .inf b => .inf b
  | .fin a m e, .fin b n f =>
    let e0 := min e f
    let i := fpNum a m e e0 + fpNum b n f e0
    if i = 0 then .fin (a && b) 0 e0 else fpOfInt i e0

/-- The value with its sign changed. -/
def fpNeg : Fp → Fp
  | .nan => .nan
  | .inf a => .inf (!a)
  | .fin a m e => .fin (!a) m e

/-- The absolute value. -/
def fpAbs : Fp → Fp
  | .nan => .nan
  | .inf _ => .inf false
  | .fin _ m e => .fin false m e

/-- Exact product of two values. -/
def fpMul : Fp → Fp → Fp
  | .nan, _ => .nan
  | _, .nan => .nan
  | .inf a, .inf b => .inf (a != b)
  | .inf a, .fin b n _ => if n = 0 then .nan else .inf (a != b)
  | .fin a m _, .inf b => if m = 0 then .nan else .inf (a != b)
  | .fin a m e, .fin b n f => .fin (a != b) (m * n) (e + f)

/-- Is the value finite? -/
def fpFinite : Fp → Bool
  | .fin .. => true
  | _ => false

/-- Exact comparison of two values, none when one is a NaN. -/
def fpCmp : Fp → Fp → Option Ordering
  | .nan, _ => none
  | _, .nan => none
  | .inf a, .inf b => some (if a = b then .eq else if a then .lt else .gt)
  | .inf a, _ => some (if a then .lt else .gt)
  | _, .inf b => some (if b then .gt else .lt)
  | .fin a m e, .fin b n f =>
    let e0 := min e f
    some (compare (fpNum a m e e0) (fpNum b n f e0))

def fpLt (a b : Fp) : Bool := fpCmp a b == some .lt
def fpEq (a b : Fp) : Bool := fpCmp a b == some .eq
def fpLe (a b : Fp) : Bool := fpLt a b || fpEq a b

/-- A square root with enough bits that one later rounding is right: an inexact root carries a sticky bit. -/
def fpSqrt : Fp → Fp
  | .nan => .nan
  | .inf a => if a then .nan else .inf false
  | .fin a m e =>
    if m = 0 then .fin a 0 e
    else if a then .nan
    else
      let k : Nat := 240 + (e % 2).toNat
      let r := Nat.sqrt (m * 2 ^ k)
      .fin false (2 * r + bton (r * r != m * 2 ^ k)) ((e - k) / 2 - 1)

/-- A quotient with enough bits that one later rounding is right; division by zero gives an infinity, 0/0 a NaN. -/
def fpDiv : Fp → Fp → Fp
  | .nan, _ => .nan
  | _, .nan => .nan
  | .inf _, .inf _ => .nan
  | .inf a, .fin b _ _ => .inf (a != b)
  | .fin a _ e, .inf b => .fin (a != b) 0 e
  | .fin a m e, .fin b n f =>
    if n = 0 then (if m = 0 then .nan else .inf (a != b))
    else
      let q := m * 2 ^ 240 / n
      .fin (a != b) (2 * q + bton (q * n != m * 2 ^ 240)) (e - f - 241)

/-- FP32 and FP64 bits as values and back. -/
def f32 (v : BitVec 32) : Fp := fpDecode 8 23 v.toNat
def f64 (v : BitVec 64) : Fp := fpDecode 11 52 v.toNat
def rn32 (x : Fp) : BitVec 32 := BitVec.ofNat 32 (fpPack 8 23 x)
def rn64 (x : Fp) : BitVec 64 := BitVec.ofNat 64 (fpPack 11 52 x)

/-- Exact sum of a list, starting from positive zero. -/
def fpSum (l : List Fp) : Fp := l.foldl fpAdd (.fin false 0 0)

/-- FP32 addition, multiplication and fused multiply-add, rounded once (R80, R139). -/
def add32 (a b : BitVec 32) : BitVec 32 := rn32 (fpAdd (f32 a) (f32 b))
def mul32 (a b : BitVec 32) : BitVec 32 := rn32 (fpMul (f32 a) (f32 b))
def fma32 (a b c : BitVec 32) : BitVec 32 := rn32 (fpAdd (fpMul (f32 a) (f32 b)) (f32 c))

/-- FP64 addition and multiplication, rounded once. -/
def add64 (a b : BitVec 64) : BitVec 64 := rn64 (fpAdd (f64 a) (f64 b))
def mul64 (a b : BitVec 64) : BitVec 64 := rn64 (fpMul (f64 a) (f64 b))

/-- The FP32 values of a run of bytes. -/
def f32s (b : Bytes) (n : Nat) : List (BitVec 32) := (List.range n).map fun i => BitVec.ofNat 32 (leAt b (4 * i) 4)

/-- Bytes of FP32 values. -/
def f32Bytes (l : List (BitVec 32)) : Bytes := l.flatMap fun v => natBytes 4 v.toNat

end Sys2Proof.Machine
end

