-- ==== Sys2Proof/Machine/Format.lean ====
section
/-! DEFINITION. Sys2Proof/Machine/Format.lean: the twelve element formats, their rows and blocks, and the conversions between them (R61, R103 to R113, R118). -/

namespace Sys2Proof.Machine

/-- A format with what it needs to place and read its elements: FMT code, bit-plane width, unsigned mark. -/
structure EFmt where
  fmt : Nat
  pw : Nat
  usgn : Bool
  deriving DecidableEq, Repr

/-- Row byte count RB of a format with `cols` elements (R61). -/
def fmtRB (f : EFmt) (cols : Nat) : Nat :=
  match f.fmt with
  | 0 => 4 * cols
  | 1 | 2 => 2 * cols
  | 3 | 4 | 5 => cols
  | 6 | 7 => cols + cols / 32
  | 8 | 9 => 3 * cols / 4 + cols / 32
  | 10 => cols / 2 + cols / 32
  | _ => f.pw * cols / 8

/-- Is COLS legal for the format (R61)? -/
def fmtColsOk (fmt cols : Nat) : Bool :=
  match fmt with
  | 0 => decide (cols ≤ 32)
  | 1 | 2 => decide (cols ≤ 64)
  | 3 | 4 | 5 => decide (cols ≤ 128)
  | 6 | 7 => decide (cols % 32 = 0) && decide (cols ≤ 96)
  | 8 | 9 | 10 => decide (cols % 32 = 0) && decide (cols ≤ 128)
  | _ => decide (cols % 8 = 0) && decide (cols ≤ 128)

/-- Is the format an MX format (R103)? -/
def fmtMx (fmt : Nat) : Bool := decide (6 ≤ fmt) && decide (fmt ≤ 10)

/-- Element size in bytes of formats 0 to 7; the bit-plane formats have none. -/
def fmtSize (fmt : Nat) : Nat :=
  match fmt with
  | 0 => 4
  | 1 | 2 => 2
  | _ => 1

/-- Planes of a bit-plane format (R109). -/
def fmtPlanes (f : EFmt) : Nat :=
  match f.fmt with
  | 8 | 9 => 6
  | 10 => 4
  | _ => f.pw

/-- Block size BS in bytes (R110). -/
def fmtBS (f : EFmt) : Nat :=
  match f.fmt with
  | 0 => 4096
  | 1 | 2 => 2048
  | 3 | 4 | 5 => 1024
  | 6 | 7 => 1056
  | 8 | 9 => 800
  | 10 => 544
  | _ => 128 * f.pw

/-! ### Decoding (R103, R104) -/

/-- Decode a format with neither infinities nor NaNs. -/
def fpDecodeFin (eb mb v : Nat) : Fp :=
  let neg := bitN v (eb + mb)
  let x := v / 2 ^ mb % 2 ^ eb
  let f := v % 2 ^ mb
  let emin : Int := 2 - 2 ^ (eb - 1) - mb
  if x = 0 then .fin neg f emin else .fin neg (f + 2 ^ mb) (emin + x - 1)

/-- Decode the bits of one element, its scale apart (R103). -/
def decBits (f : EFmt) (v : Nat) : Fp :=
  match f.fmt with
  | 0 => fpDecode 8 23 v
  | 1 => fpDecode 8 7 v
  | 2 => fpDecode 5 10 v
  | 3 | 6 => if v % 128 = 127 then .nan else fpDecodeFin 4 3 v
  | 4 | 7 => fpDecode 5 2 v
  | 5 => fpOfInt (sextNat 8 v) 0
  | 8 => fpDecodeFin 2 3 v
  | 9 => fpDecodeFin 3 2 v
  | 10 => fpDecodeFin 2 1 v
  | _ => if f.usgn then fpOfInt (v % 2 ^ f.pw : Nat) 0 else fpOfInt (sextNat f.pw v) 0

/-- A value times a power of two, exactly. -/
def fpScale (k : Int) : Fp → Fp
  | .fin b m e => .fin b m (e + k)
  | x => x

/-- An MX element under its group's scale (R104). -/
def decMx (scale : Nat) (x : Fp) : Fp := if scale = 0xFF then .nan else fpScale ((scale : Int) - 127) x

/-- Bits gathered from bit `c mod 8` of the bytes `at p`, plane p as bit p. -/
def planeBits (n : Nat) (byteOf : Nat → Byte) (bit : Nat) : Nat :=
  (List.range n).foldl (fun a p => a + bton ((byteOf p).getLsbD bit) * 2 ^ p) 0

/-- The bits of element `c` of a tile-row image of `cols` elements (R109). -/
def rowBits (f : EFmt) (cols : Nat) (row : Bytes) (c : Nat) : Nat :=
  match f.fmt with
  | 0 => leAt row (4 * c) 4
  | 1 | 2 => leAt row (2 * c) 2
  | 3 | 4 | 5 | 6 | 7 => leAt row c 1
  | _ => planeBits (fmtPlanes f) (fun p => row.getD (p * cols / 8 + c / 8) 0) (c % 8)

/-- The scale byte of element `c` of a tile-row image (R109). -/
def rowScale (f : EFmt) (cols : Nat) (row : Bytes) (c : Nat) : Nat :=
  if f.fmt ≤ 7 then leAt row (cols + c / 32) 1 else leAt row (fmtPlanes f * cols / 8 + c / 32) 1

/-- The bits of element (r, c) of a block (R110). -/
def blockBits (f : EFmt) (blk : Bytes) (r c : Nat) : Nat :=
  match f.fmt with
  | 0 => leAt blk (128 * r + 4 * c) 4
  | 1 | 2 => leAt blk (64 * r + 2 * c) 2
  | 3 | 4 | 5 | 6 | 7 => leAt blk (32 * r + c) 1
  | _ => planeBits (fmtPlanes f) (fun p => blk.getD (128 * p + 4 * r + c / 8) 0) (c % 8)

/-- The scale byte of row `r` of a block (R110). -/
def blockScale (f : EFmt) (blk : Bytes) (r : Nat) : Nat :=
  if f.fmt ≤ 7 then leAt blk (1024 + r) 1 else leAt blk (128 * fmtPlanes f + r) 1

/-- A view of a stored element (R113): its low planes dropped; `v` is the view's format, none for no view. -/
def viewBits (f : EFmt) (v : Option EFmt) (bits : Nat) : Nat :=
  match v with
  | none => bits
  | some g => bits / 2 ^ (fmtPlanes f - fmtPlanes g)

/-- Element `c` of a tile-row image as a value. -/
def decRowE (f : EFmt) (v : Option EFmt) (cols : Nat) (row : Bytes) (c : Nat) : Fp :=
  let x := decBits (v.getD f) (viewBits f v (rowBits f cols row c))
  if fmtMx f.fmt then decMx (rowScale f cols row c) x else x

/-- Element (r, c) of a block as a value. -/
def decBlockE (f : EFmt) (v : Option EFmt) (blk : Bytes) (r c : Nat) : Fp :=
  let x := decBits (v.getD f) (viewBits f v (blockBits f blk r c))
  if fmtMx f.fmt then decMx (blockScale f blk r) x else x

/-- All elements of a tile row. -/
def decRow (f : EFmt) (cols : Nat) (row : Bytes) : List Fp := (List.range cols).map (decRowE f none cols row)

/-! ### Encoding (R105 to R108) -/

/-- Magnitude bits of a finite value in a format with `mb` mantissa bits, the exponent unbounded above. -/
def magBits (eb mb m : Nat) (e : Int) : Nat :=
  if m = 0 then 0
  else
    let qmin : Int := 2 - 2 ^ (eb - 1) - mb
    let q := max (Nat.log2 m + e - mb) qmin
    (q - qmin).toNat * 2 ^ mb + scaleRne m (e - q)

/-- Encode into a floating format given by its widths, its largest finite, infinity and NaN patterns (R106); `infOv` tells
whether the format has infinities. -/
def encFlt (eb mb maxB infB nanB : Nat) (hasInf sat : Bool) (x : Fp) : Nat :=
  let sg (b : Bool) : Nat := bton b * 2 ^ (eb + mb)
  match x with
  | .nan => nanB
  | .inf b => if hasInf then sg b + infB else if sat then sg b + maxB else nanB
  | .fin b m e =>
    let k := magBits eb mb m e
    if k ≤ maxB then sg b + k
    else if sat then sg b + maxB
    else if hasInf then sg b + infB
    else nanB

/-- A value rounded to an integer and saturated to a range (R107). -/
def encInt (lo hi : Int) (x : Fp) : Int :=
  match x with
  | .nan => 0
  | .inf b => if b then lo else hi
  | .fin b m e => max lo (min hi (if b then -(scaleRne m e : Int) else (scaleRne m e : Int)))

/-- Encode a value in a format that is not MX (R106, R107): its bits. -/
def encBits (f : EFmt) (sat : Bool) (x : Fp) : Nat :=
  match f.fmt with
  | 0 => encFlt 8 23 0x7F7FFFFF 0x7F800000 0x7FC00000 true sat x
  | 1 => encFlt 8 7 0x7F7F 0x7F80 0x7FC0 true sat x
  | 2 => encFlt 5 10 0x7BFF 0x7C00 0x7E00 true sat x
  | 3 => encFlt 4 3 0x7E 0x7E 0x7F false sat x
  | 4 => encFlt 5 2 0x7B 0x7C 0x7E true sat x
  | 5 => (BitVec.ofInt 8 (encInt (-128) 127 x)).toNat
  | _ =>
    if f.usgn then (encInt 0 (2 ^ f.pw - 1) x).toNat
    else (BitVec.ofInt f.pw (encInt (-(2 ^ (f.pw - 1))) (2 ^ (f.pw - 1) - 1) x)).toNat

/-- Widths, largest pattern and emax of the elements of an MX format (R103). -/
def mxElem (fmt : Nat) : Nat × Nat × Nat × Int :=
  match fmt with
  | 6 => (4, 3, 0x7E, 8)
  | 7 => (5, 2, 0x7B, 15)
  | 8 => (2, 3, 0x1F, 2)
  | 9 => (3, 2, 0x1F, 4)
  | _ => (2, 1, 0x7, 2)

/-- floor(log2 |x|) of a finite non-zero value. -/
def fpLog2 : Fp → Int
  | .fin _ m e => Nat.log2 m + e
  | _ => 0

/-- Is the value a zero? -/
def fpZero : Fp → Bool
  | .fin _ m _ => m == 0
  | _ => false

/-- Encode an MX group (R108): the scale and the bits of its elements (log entry 32, DEDUCED; log entry 65, DEDUCED). -/
def encMx (fmt : Nat) (v : List Fp) : Nat × List Nat :=
  if v.any fun x => !fpFinite x then (0xFF, v.map fun _ => 0)
  else
    let (eb, mb, maxB, emax) := mxElem fmt
    let nz := v.filter fun x => !fpZero x
    let e0 : Int := match nz with
      | [] => 0
      | x :: xs => xs.foldl (fun a y => max a (fpLog2 y)) (fpLog2 x) - emax
    let e := max (-127) (min 127 e0)
    ((e + 127).toNat, v.map fun x => encFlt eb mb maxB maxB maxB false true (fpScale (-e) x))

/-- Put bit `p` of `v` into bit `bit` of byte `o` of a run. -/
def putBit (b : Bytes) (o bit : Nat) (v : Bool) : Bytes :=
  b.modify o fun x => (x &&& ~~~((1 : Byte) <<< bit)) ||| (if v then (1 : Byte) <<< bit else 0)

/-- Store bytes into a run at an offset. -/
def putBytes (b : Bytes) (o : Nat) (v : Bytes) : Bytes := b.take o ++ v ++ b.drop (o + v.length)

/-- Store the bits of element (r, c) into a block (R110). -/
def putBlockBits (f : EFmt) (blk : Bytes) (r c v : Nat) : Bytes :=
  match f.fmt with
  | 0 => putBytes blk (128 * r + 4 * c) (natBytes 4 v)
  | 1 | 2 => putBytes blk (64 * r + 2 * c) (natBytes 2 v)
  | 3 | 4 | 5 | 6 | 7 => putBytes blk (32 * r + c) (natBytes 1 v)
  | _ => (List.range (fmtPlanes f)).foldl (fun b p => putBit b (128 * p + 4 * r + c / 8) (c % 8) (bitN v p)) blk

/-- Store the bits of element `c` into a tile-row image (R109). -/
def putRowBits (f : EFmt) (cols : Nat) (row : Bytes) (c v : Nat) : Bytes :=
  match f.fmt with
  | 0 => putBytes row (4 * c) (natBytes 4 v)
  | 1 | 2 => putBytes row (2 * c) (natBytes 2 v)
  | 3 | 4 | 5 | 6 | 7 => putBytes row c (natBytes 1 v)
  | _ => (List.range (fmtPlanes f)).foldl (fun b p => putBit b (p * cols / 8 + c / 8) (c % 8) (bitN v p)) row

/-- A whole tile-row image from its values (R109): MX rows are encoded group by group. -/
def encRow (f : EFmt) (sat : Bool) (v : List Fp) : Bytes :=
  let cols := v.length
  let row0 := zeros (fmtRB f cols)
  if fmtMx f.fmt then
    (List.range (cols / 32)).foldl (fun row g =>
      let e := encMx f.fmt ((v.drop (32 * g)).take 32)
      let r1 := (List.range 32).foldl (fun b i => putRowBits f cols b (32 * g + i) (e.2.getD i 0)) row
      putBytes r1 (if f.fmt ≤ 7 then cols + g else fmtPlanes f * cols / 8 + g) (natBytes 1 e.1)) row0
  else (List.range cols).foldl (fun b c => putRowBits f cols b c (encBits f sat (v.getD c (.fin false 0 0)))) row0

/-- A whole block from its 32 rows of 32 values (R110). -/
def encBlock (f : EFmt) (sat : Bool) (v : List (List Fp)) : Bytes :=
  (List.range 32).foldl (fun blk r =>
    let row := v.getD r []
    if fmtMx f.fmt then
      let e := encMx f.fmt ((List.range 32).map fun c => row.getD c (.fin false 0 0))
      let b1 := (List.range 32).foldl (fun b c => putBlockBits f b r c (e.2.getD c 0)) blk
      putBytes b1 (if f.fmt ≤ 7 then 1024 + r else 128 * fmtPlanes f + r) (natBytes 1 e.1)
    else (List.range 32).foldl (fun b c => putBlockBits f b r c (encBits f sat (row.getD c (.fin false 0 0)))) blk) (zeros (fmtBS f))

/-! ### Destination operations (R118) -/

/-- The larger of two values, a NaN if either is; +0 counts above -0. -/
def fpMax (a b : Fp) : Fp :=
  match fpCmp a b with
  | none => .nan
  | some .lt => b
  | some .gt => a
  | some .eq => match a with
    | .fin true _ _ => b
    | _ => a

/-- The smaller of two values, a NaN if either is; -0 counts below +0. -/
def fpMin (a b : Fp) : Fp :=
  match fpCmp a b with
  | none => .nan
  | some .lt => a
  | some .gt => b
  | some .eq => match a with
    | .fin true _ _ => a
    | _ => b

/-- The value that an operation stores before it is encoded: 0 NONE, 1 ADD, 2 MAX, 3 MIN. -/
def dopVal (op : Nat) (old v : Fp) : Fp :=
  match op with
  | 1 => fpAdd old v
  | 2 => fpMax old v
  | 3 => fpMin old v
  | _ => v

/-- Is the operation allowed on the destination format (R118)? -/
def dopOk (op fmt : Nat) : Bool :=
  match op with
  | 0 => true
  | 1 => fmt == 0 || fmt == 1 || fmt == 2 || fmt == 5
  | _ => decide (fmt ≤ 5)

end Sys2Proof.Machine
end

