-- ==== Sys2Proof/Machine/Iso.lean ====
section
/-! DEFINITION. Sys2Proof/Machine/Iso.lean: the boxes of an ISO base media file (R322, R325): tracks, sample entries, sample tables and fragments. Edit lists are
ignored (R322). The places of boxes and fields are those of ISO/IEC 14496-12 and, for esds, 14496-1 (log entry 202, PRESUMED). -/

namespace Sys2Proof.Machine

/-- Byte `i` of a clip as a number. -/
def byteN (b : Bytes) (i : Nat) : Nat := (b.getD i 0).toNat

/-- Big-endian number of `n` bytes at `i`. -/
def beAt (b : Bytes) (i n : Nat) : Nat := (List.range n).foldl (fun a j => a * 256 + byteN b (i + j)) 0

/-- A signed big-endian number of 32 bits. -/
def beInt (b : Bytes) (i : Nat) : Int := sextNat 32 (beAt b i 4)

/-- A box: its type, and where it, its body and its end lie; a box that reaches beyond what holds it ends there. -/
structure IsoBox where
  kind : Bytes
  off : Nat
  body : Nat
  stop : Nat
  deriving DecidableEq, Repr

/-- The boxes from `p` up to `stop`. -/
def isoBoxes (b : Bytes) : Nat → Nat → Nat → List IsoBox
  | 0, _, _ => []
  | fuel + 1, p, stop =>
    if stop < p + 8 then []
    else
      let n := beAt b p 4
      let (head, size) := if n = 1 then (16, beAt b (p + 8) 8) else (8, if n = 0 then stop - p else n)
      if size < head then []
      else ⟨slice b (p + 4) 4, p, p + head, min stop (p + size)⟩ :: isoBoxes b fuel (p + size) stop

/-- The boxes in a box, behind `skip` bytes of its body. -/
def IsoBox.kids (b : Bytes) (x : IsoBox) (skip : Nat) : List IsoBox := isoBoxes b (x.stop - x.body) (x.body + skip) x.stop

/-- The first box of a kind. -/
def boxOf (l : List IsoBox) (kind : String) : Option IsoBox := l.find? fun x => x.kind == ascii kind

/-- Follow a path of boxes, each the first of its kind. -/
def boxPath (b : Bytes) : IsoBox → List String → Option IsoBox
  | x, [] => some x
  | x, k :: ks => match boxOf (x.kids b 0) k with
    | some y => boxPath b y ks
    | none => none

/-- The boxes at the top of a clip. -/
def isoTop (b : Bytes) : List IsoBox := isoBoxes b b.length 0 b.length

/-- The runs of a clip in which its tables stand: moov and moof, and the head of every other box. -/
def isoBoxRuns (b : Bytes) : List (Nat × Nat) :=
  (isoTop b).map fun x => (x.off, if x.kind = ascii "moov" ∨ x.kind = ascii "moof" then x.stop - x.off else x.body - x.off)

/-! ### Sample entries -/

/-- Length of an expandable descriptor size field at `p`, and the size (ISO/IEC 14496-1, 8.3.3). -/
def descSize (b : Bytes) : Nat → Nat → Nat → Nat × Nat
  | 0, p, n => (p, n)
  | fuel + 1, p, n =>
    let v := n * 128 + byteN b p % 128
    if byteN b p < 128 then (p + 1, v) else descSize b fuel (p + 1) v

/-- The objectTypeIndication of an esds box: none where it has no decoder configuration. -/
def esdsType (b : Bytes) (x : IsoBox) : Option Nat :=
  let es := x.body + 4
  if byteN b es ≠ 3 then none
  else
    let p := (descSize b 4 (es + 1) 0).1
    let fl := byteN b (p + 2)
    let q0 := p + 3 + (if bitN fl 7 then 2 else 0)
    let q1 := q0 + (if bitN fl 6 then 1 + byteN b q0 else 0)
    let q := q1 + (if bitN fl 5 then 2 else 0)
    if byteN b q ≠ 4 then none else some (byteN b (descSize b 4 (q + 1) 0).1)

/-- A sample entry of a track of video or audio: its data reference is external unless it names one that is in the file. -/
def isoEntry (b : Bytes) (video : Bool) (refs : List IsoBox) (x : IsoBox) : IsoEntry :=
  let skip := if video then 78 else 28
  let ty := ((boxOf (x.kids b skip) "esds").bind (esdsType b)).getD 0
  let inFile := match refs[beAt b (x.body + 6) 2 - 1]? with
    | some r => bitN (byteN b (r.body + 3)) 0
    | none => false
  ⟨x.kind, decide (0x60 ≤ ty ∧ ty ≤ 0x65), ty == 0x40 || ty == 0x67, ty == 0x69 || ty == 0x6B, !inFile, slice b (x.body + skip) (x.stop - x.body - skip)⟩

/-! ### Sample tables -/

/-- Runs of a value: each pair stands for that many samples. -/
def expandRuns (l : List (Nat × Int)) (n : Nat) : List Int := (l.foldl (fun (a : List Int) r => a ++ List.replicate (min r.1 (n - a.length)) r.2) []).take n

/-- The (count, value) pairs of an stts or ctts box. -/
def runTable (b : Bytes) (x : Option IsoBox) (signed : Bool) : List (Nat × Int) :=
  match x with
  | none => []
  | some x => (List.range (min (beAt b (x.body + 4) 4) ((x.stop - x.body - 8) / 8))).map fun i =>
    let p := x.body + 8 + 8 * i
    (beAt b p 4, if signed then beInt b (p + 4) else (beAt b (p + 4) 4 : Int))

/-- The sample sizes of an stsz or stz2 box. -/
def isoSizes (b : Bytes) (kids : List IsoBox) : List Nat :=
  match boxOf kids "stsz", boxOf kids "stz2" with
  | some x, _ =>
    let n := beAt b (x.body + 8) 4
    if beAt b (x.body + 4) 4 ≠ 0 then List.replicate n (beAt b (x.body + 4) 4)
    else (List.range (min n ((x.stop - x.body - 12) / 4))).map fun i => beAt b (x.body + 12 + 4 * i) 4
  | none, some x =>
    let w := byteN b (x.body + 7)
    (List.range (beAt b (x.body + 8) 4)).map fun i =>
      if w = 4 then (if i % 2 = 0 then byteN b (x.body + 12 + i / 2) / 16 else byteN b (x.body + 12 + i / 2) % 16)
      else beAt b (x.body + 12 + i * (w / 8)) (w / 8)
  | none, none => []

/-- The chunk offsets of an stco or co64 box. -/
def isoChunks (b : Bytes) (kids : List IsoBox) : List Nat :=
  match boxOf kids "stco", boxOf kids "co64" with
  | some x, _ => (List.range (min (beAt b (x.body + 4) 4) ((x.stop - x.body - 8) / 4))).map fun i => beAt b (x.body + 8 + 4 * i) 4
  | none, some x => (List.range (min (beAt b (x.body + 4) 4) ((x.stop - x.body - 8) / 8))).map fun i => beAt b (x.body + 8 + 8 * i) 8
  | none, none => []

/-- Samples in chunk `k`, numbered from 1, by the stsc box. -/
def chunkSamples (b : Bytes) (x : Option IsoBox) (k : Nat) : Nat :=
  match x with
  | none => 0
  | some x => (List.range (min (beAt b (x.body + 4) 4) ((x.stop - x.body - 8) / 12))).foldl (fun n i =>
    let p := x.body + 8 + 12 * i
    if beAt b p 4 ≤ k then beAt b (p + 4) 4 else n) 0

/-- The offsets of the samples of the chunks, one behind the other in each. -/
def sampleOffsets : List (Nat × Nat) → List Nat → List Nat
  | [], _ => []
  | (off, n) :: cs, sizes =>
    ((sizes.take n).foldl (fun (a : Nat × List Nat) z => (a.1 + z, a.2 ++ [a.1])) (off, [])).2 ++ sampleOffsets cs (sizes.drop n)

/-- The samples of a track's own tables. -/
def tableSamples (b : Bytes) (kids : List IsoBox) : List IsoSample :=
  let sizes := isoSizes b kids
  let chunks := (isoChunks b kids).zipIdx.map fun c => (c.1, chunkSamples b (boxOf kids "stsc") (c.2 + 1))
  let offs := sampleOffsets chunks sizes
  let deltas := expandRuns (runTable b (boxOf kids "stts") false) offs.length
  let ctts := boxOf kids "ctts"
  let comps := expandRuns (runTable b ctts ((ctts.map fun x => byteN b x.body) == some 1)) offs.length
  (offs.zipIdx.foldl (fun (a : Int × List IsoSample) o =>
    (a.1 + deltas.getD o.2 0, a.2 ++ [⟨o.1, sizes.getD o.2 0, a.1, comps.getD o.2 0⟩])) (0, [])).2

/-! ### Fragments -/

/-- What a track's fragments go on with: the decode time of the next sample, and its samples so far. -/
structure FragS where
  time : Int
  samples : List IsoSample
  deriving DecidableEq, Repr

/-- Optional fields of a full box in their order: each (flag bit, bytes); the place of the field of bit `want`, if it is there. -/
def optField (flags : Nat) : List (Nat × Nat) → Nat → Nat → Option Nat
  | [], _, _ => none
  | (bit, n) :: fs, p, want => if bit = want then (if bitN flags bit then some p else none) else optField flags fs (if bitN flags bit then p + n else p) want

/-- A track run: its samples behind those before, and where its data ends. -/
def trunSamples (b : Bytes) (x : IsoBox) (base next : Nat) (dur size : Nat) (st : FragS) : FragS × Nat :=
  let fl := beAt b (x.body + 1) 3
  let start := if bitN fl 0 then ((base : Int) + beInt b (x.body + 8)).toNat else next
  let p0 := x.body + 8 + (if bitN fl 0 then 4 else 0) + (if bitN fl 2 then 4 else 0)
  let w := ([8, 9, 10, 11].filter (bitN fl)).length * 4
  let fields : List (Nat × Nat) := [(8, 4), (9, 4), (10, 4), (11, 4)]
  (List.range (min (beAt b (x.body + 4) 4) (x.stop - x.body))).foldl (fun (a : FragS × Nat) i =>
    let field (bit : Nat) : Option Nat := optField fl fields (p0 + w * i) bit
    let d := (field 8).elim dur (beAt b · 4)
    let z := (field 9).elim size (beAt b · 4)
    let c : Int := match field 11 with
      | some p => if byteN b x.body = 0 then (beAt b p 4 : Int) else beInt b p
      | none => 0
    (⟨a.1.time + d, a.1.samples ++ [⟨a.2, z, a.1.time, c⟩]⟩, a.2 + z)) (st, start)

/-- Default duration and size of a track's fragment samples, from trex. -/
def trexOf (b : Bytes) (moov : IsoBox) (id : Nat) : Nat × Nat :=
  match boxOf (moov.kids b 0) "mvex" with
  | none => (0, 0)
  | some m => match (m.kids b 0).find? fun x => x.kind == ascii "trex" && beAt b (x.body + 4) 4 == id with
    | some x => (beAt b (x.body + 12) 4, beAt b (x.body + 16) 4)
    | none => (0, 0)

/-- One track fragment; `next` is the end of the data of the fragment before it in the moof. -/
def trafSamples (b : Bytes) (moov moof traf : IsoBox) (id next : Nat) (st : FragS) : FragS × Nat :=
  let kids := traf.kids b 0
  match boxOf kids "tfhd" with
  | none => (st, next)
  | some h =>
    let fl := beAt b (h.body + 1) 3
    let tid := beAt b (h.body + 4) 4
    let field (bit : Nat) : Option Nat := optField fl [(0, 8), (1, 4), (3, 4), (4, 4), (5, 4)] (h.body + 8) bit
    let def_ := trexOf b moov tid
    let dur := (field 3).elim def_.1 (beAt b · 4)
    let size := (field 4).elim def_.2 (beAt b · 4)
    let base := (field 0).elim (if bitN fl 17 then moof.off else next) (beAt b · 8)
    let time : Int := match boxOf kids "tfdt" with
      | some t => if byteN b t.body = 1 then (beAt b (t.body + 4) 8 : Int) else (beAt b (t.body + 4) 4 : Int)
      | none => st.time
    let r := (kids.filter fun x => x.kind == ascii "trun").foldl (fun (a : FragS × Nat) x => trunSamples b x base a.2 dur size a.1) (⟨time, st.samples⟩, base)
    if tid = id then r else (st, r.2)

/-- The samples of a track: those of its tables, then those of the fragments (R322). -/
def trackSamples (b : Bytes) (top : List IsoBox) (moov : IsoBox) (stbl : List IsoBox) (id : Nat) : List IsoSample :=
  let own := tableSamples b stbl
  let end_ : Int := (runTable b (boxOf stbl "stts") false).foldl (fun a r => a + r.1 * r.2) 0
  ((top.filter fun x => x.kind == ascii "moof").foldl (fun st moof =>
    (((moof.kids b 0).filter fun x => x.kind == ascii "traf").foldl (fun (a : FragS × Nat) traf => trafSamples b moov moof traf id a.2 a.1) (st, moof.off)).1)
    (⟨end_, own⟩ : FragS)).samples

/-! ### Tracks -/

/-- A track of the moov box. -/
def isoTrack (b : Bytes) (top : List IsoBox) (moov trak : IsoBox) : Option IsoTrack :=
  match boxOf (trak.kids b 0) "tkhd", boxPath b trak ["mdia", "mdhd"], boxPath b trak ["mdia", "hdlr"], boxPath b trak ["mdia", "minf", "stbl"] with
  | some tk, some md, some hd, some st =>
    let id := beAt b (tk.body + if byteN b tk.body = 1 then 20 else 12) 4
    let kind := slice b (hd.body + 8) 4
    let video := kind == ascii "vide"
    let stbl := st.kids b 0
    let refs := ((boxPath b trak ["mdia", "minf", "dinf", "dref"]).map fun x => x.kids b 8).getD []
    let entries := ((boxOf stbl "stsd").map fun x => (x.kids b 8).map (isoEntry b video refs)).getD []
    some ⟨id, video, kind == ascii "soun", beAt b (md.body + if byteN b md.body = 1 then 20 else 12) 4, entries, trackSamples b top moov stbl id⟩
  | _, _, _, _ => none

/-- The tracks of a file; none for bytes that hold no moov box. -/
def isoTracks (b : Bytes) : Option (List IsoTrack) :=
  let top := isoTop b
  (boxOf top "moov").map fun moov => (moov.kids b 0).filterMap fun x => if x.kind = ascii "trak" then isoTrack b top moov x else none

end Sys2Proof.Machine
end

