-- ==== Sys2Proof/Machine/Headrace.lean ====
section
/-! DEFINITION. Sys2Proof/Machine/Headrace.lean: what the Headrace makes of a clip's bytes (R322 to R334): containers, streams, frames and their times, targets,
chains, bad pictures, preprocessing and audio. What the standards that R322 to R324 name fix is Config's (assumption 12). -/

namespace Sys2Proof.Machine

/-! ### Transport streams (R322, R328)

The places of the fields named by R322 to R328 in packets, tables and PES headers are those of ISO/IEC 13818-1 (log entry 185, PRESUMED). -/

/-- A transport packet of a clip, or a loss of sync that starts at `off` (R328). -/
structure TsPkt where
  off : Nat
  loss : Bool
  tei : Bool
  start : Bool
  pid : Nat
  scrambled : Bool
  cc : Nat
  disc : Bool
  /-- Offset and length of the payload in the clip. -/
  pay : Nat
  payLen : Nat
  deriving DecidableEq, Repr

/-- The packet at offset `p` (ISO/IEC 13818-1, 2.4.3.2). -/
def tsPktAt (b : Bytes) (p : Nat) : TsPkt :=
  let afc := byteN b (p + 3) / 16 % 4
  let alen := byteN b (p + 4)
  let skip := if 2 ≤ afc then min 184 (1 + alen) else 0
  ⟨p, false, bitN (byteN b (p + 1)) 7, bitN (byteN b (p + 1)) 6, byteN b (p + 1) % 32 * 256 + byteN b (p + 2), decide (byteN b (p + 3) / 64 ≠ 0),
    byteN b (p + 3) % 16, decide (2 ≤ afc ∧ 0 < alen) && bitN (byteN b (p + 5)) 7, p + 4 + skip, if afc % 2 = 1 then 184 - skip else 0⟩

/-- The next offset from `p` on with three consecutive 0x47 bytes 188 apart (R328). -/
def nextSync (b : Bytes) (p : Nat) : Option Nat :=
  ((List.range (b.length - p)).map (p + ·)).find? fun q => byteN b q == 0x47 && byteN b (q + 188) == 0x47 && byteN b (q + 376) == 0x47

/-- The packets of a clip from offset `p`, with the losses of sync between them (R328). -/
def tsPackets (b : Bytes) : Nat → Nat → List TsPkt
  | 0, _ => []
  | fuel + 1, p =>
    if b.length < p + 188 then []
    else if byteN b p = 0x47 then tsPktAt b p :: tsPackets b fuel (p + 188)
    else
      let gap : TsPkt := ⟨p, true, false, false, 0, false, 0, false, 0, 0⟩
      match nextSync b p with
      | some q => gap :: tsPackets b fuel q
      | none => [gap]

/-- Packets of 192 or 204 bytes (R322): their sync bytes stand where 188-byte packets have none. -/
def otherPackets (b : Bytes) : Bool :=
  let at_ (o n : Nat) : Bool := (List.range 3).all fun i => byteN b (o + n * i) == 0x47
  !at_ 0 188 && (at_ 0 192 || at_ 4 192 || at_ 0 204)

/-- The first section on a PID: the payloads from its first starting packet, past the pointer field. -/
def tsSection (b : Bytes) (ps : List TsPkt) (pid : Nat) : Bytes :=
  let run := (ps.filter fun q => !q.loss && q.pid == pid && decide (0 < q.payLen)).dropWhile fun q => !q.start
  let all := run.flatMap fun q => slice b q.pay q.payLen
  let body := all.drop (1 + byteN all 0)
  body.take (3 + beAt body 1 2 % 4096)

/-- Programs of the PAT: number and PID of the PMT. -/
def patPrograms (b : Bytes) (ps : List TsPkt) : List (Nat × Nat) :=
  let t := tsSection b ps 0
  ((List.range ((t.length - 12) / 4)).map fun i => (beAt t (8 + 4 * i) 2, beAt t (10 + 4 * i) 2 % 8192)).filter fun e => e.1 != 0

/-- The streams of a PMT from offset `o`: stream_type and PID. -/
def pmtStreams (t : Bytes) : Nat → Nat → List (Nat × Nat)
  | 0, _ => []
  | fuel + 1, o =>
    if t.length < o + 9 then []
    else (byteN t o, beAt t (o + 1) 2 % 8192) :: pmtStreams t fuel (o + 5 + beAt t (o + 3) 2 % 4096)

/-- The streams of the program whose PMT lies on `pid`. -/
def tsStreams (b : Bytes) (ps : List TsPkt) (pid : Nat) : List (Nat × Nat) :=
  let t := tsSection b ps pid
  pmtStreams t t.length (12 + beAt t 10 2 % 4096)

/-- The stream types that carry video, and audio. -/
def videoType (t : Nat) : Bool := t ∈ [0x01, 0x02, 0x10, 0x1B, 0x1E, 0x1F, 0x20, 0x21, 0x24, 0x33]
def audioType (t : Nat) : Bool := t ∈ [0x03, 0x04, 0x0F, 0x11]

/-- The stream that VSEL or ASEL names (R319): 0x1FFF the first of its kind in the first program of the PAT, else the stream on that PID. -/
def tsSelect (b : Bytes) (ps : List TsPkt) (kind : Nat → Bool) (sel : Nat) : Option (Nat × Nat) :=
  let progs := patPrograms b ps
  if sel = 0x1FFF then
    match progs with
    | [] => none
    | p :: _ => (tsStreams b ps p.2).find? fun e => kind e.1
  else (progs.flatMap fun p => tsStreams b ps p.2).find? fun e => e.2 == sel

/-- A PES packet as its transport packets give it: runs in the clip, the runs of the headers of those packets, and the offset of the first damaged byte. -/
structure PesRaw where
  runs : List (Nat × Nat)
  heads : List (Nat × Nat)
  dmg : Option Nat
  deriving DecidableEq, Repr

/-- The first of two damage marks. -/
def orMark (a b : Option Nat) : Option Nat := if a.isSome then a else b

/-- Mark the newest PES packet as damaged. -/
def markLast (l : List PesRaw) (off : Nat) : List PesRaw :=
  match l with
  | p :: ps => { p with dmg := orMark p.dmg (some off) } :: ps
  | [] => []

/-- One packet of a PID, or a loss of sync, added to the PES packets (newest first), the last continuity_counter and whether its packet has been repeated
(R328): a packet may come a second time, and then adds nothing (log entry 185, PRESUMED). -/
def pesStep (st : List PesRaw × Option (Nat × Bool)) (q : TsPkt) : List PesRaw × Option (Nat × Bool) :=
  if q.loss then (markLast st.1 q.off, st.2)
  else if q.payLen = 0 then (if q.tei then (markLast st.1 q.off, st.2) else st)
  else
    let dup := st.2 == some (q.cc, false) && !q.disc
    let gap := match st.2 with
      | some c => !q.disc && !dup && q.cc != (c.1 + 1) % 16
      | none => false
    let l := if dup then st.1
      else if q.start then ⟨[(q.pay, q.payLen)], [(q.off, q.pay - q.off)], none⟩ :: st.1
      else match st.1 with
        | p :: ps => { p with runs := p.runs ++ [(q.pay, q.payLen)], heads := p.heads ++ [(q.off, q.pay - q.off)] } :: ps
        | [] => []
    (if q.tei || gap then markLast l q.off else l, some (q.cc, dup))

/-- The PES packets of a PID in order. -/
def pesOf (ps : List TsPkt) (pid : Nat) : List PesRaw :=
  ((ps.filter fun q => q.loss || q.pid == pid).foldl pesStep ([], none)).1.reverse

/-- Drop the first `n` bytes of a list of runs. -/
def dropRuns : Nat → List (Nat × Nat) → List (Nat × Nat)
  | _, [] => []
  | n, r :: rs => if r.2 ≤ n then dropRuns (n - r.2) rs else (r.1 + n, r.2 - n) :: rs

/-- Add runs of the clip to an elementary stream as one unit. -/
def esAdd (b : Bytes) (e : EsS) (runs : List (Nat × Nat)) (time : Option Int) (dmg : Option Nat) : EsS :=
  let start := e.bytes.length
  let e1 := runs.foldl (fun (x : EsS) r => { x with bytes := x.bytes ++ slice b r.1 r.2, chunks := x.chunks ++ [(x.bytes.length, r.2, r.1)] }) e
  { e1 with units := e1.units ++ [⟨start, e1.bytes.length - start, time, dmg⟩] }

/-- A PES packet's payload and PTS added to an elementary stream (ISO/IEC 13818-1, 2.4.3.6). -/
def pesAdd (b : Bytes) (e : EsS) (p : PesRaw) : EsS :=
  let h := (p.runs.flatMap fun r => slice b r.1 r.2).take 14
  let pts : Option Int := if bitN (byteN h 7) 7 then
      some ((byteN h 9 / 2 % 8 * 2 ^ 30 + byteN h 10 * 2 ^ 22 + byteN h 11 / 2 * 2 ^ 15 + byteN h 12 * 2 ^ 7 + byteN h 13 / 2 : Nat) : Int)
    else none
  esAdd b e (dropRuns (9 + byteN h 8) p.runs) pts p.dmg

/-- The first poisoned byte of runs of the clip (R199). -/
def runsPoison (poison runs : List (Nat × Nat)) : Option Nat :=
  runs.findSome? fun c => poison.findSome? fun l => if l.1 < c.1 + c.2 ∧ c.1 < l.1 + l.2 then some (max l.1 c.1) else none

/-- The runs of a stream that a poisoned line of the clip touches (R199, R328). -/
def esPoison (poison : List (Nat × Nat)) (e : EsS) : EsS :=
  { e with poison := e.poison ++ e.chunks.flatMap fun c => poison.filterMap fun l =>
      if l.1 < c.2.2 + c.2.1 ∧ c.2.2 < l.1 + l.2 then some (c.1, c.2.1, max l.1 c.2.2) else none }

/-- The PES packets whose packet headers or PES header a poisoned line touches: the whole unit of each needs that line (R330). -/
def headPoison (b : Bytes) (poison : List (Nat × Nat)) (l : List PesRaw) (e : EsS) : List (Nat × Nat × Nat) :=
  (l.zip e.units).filterMap fun x =>
    let h := (x.1.runs.flatMap fun r => slice b r.1 r.2).take 9
    let first := (x.1.runs.foldl (fun (a : Nat × List (Nat × Nat)) r => (a.1 - r.2, a.2 ++ [(r.1, min r.2 a.1)])) (9 + byteN h 8, [])).2
    (runsPoison poison (x.1.heads ++ first)).map fun o => (x.2.pos, max 1 x.2.len, o)

/-- The empty stream. -/
def esNone : EsS := ⟨[], [], [], []⟩

/-- The stream on a PID, with what a poisoned line of the clip takes from it. -/
def tsEs (b : Bytes) (poison : List (Nat × Nat)) (ps : List TsPkt) (pid : Nat) : EsS :=
  let l := pesOf ps pid
  let e := l.foldl (pesAdd b) esNone
  esPoison poison { e with poison := headPoison b poison l e }

/-- The bytes of the clip in which the first section on a PID stands, headers of its packets included. -/
def sectionRuns (ps : List TsPkt) (pid : Nat) : List (Nat × Nat) :=
  let run := (ps.filter fun q => !q.loss && q.pid == pid && decide (0 < q.payLen)).dropWhile fun q => !q.start
  (run.head?.toList ++ run.tail.takeWhile fun q => !q.start).map fun q => (q.off, q.pay + q.payLen - q.off)

/-- The first poisoned byte of the PAT or of a PMT that a stream is found by (R330). -/
def tablePoison (b : Bytes) (poison : List (Nat × Nat)) (ps : List TsPkt) : Option Nat :=
  runsPoison poison (sectionRuns ps 0 ++ (patPrograms b ps).flatMap fun p => sectionRuns ps p.2)

/-- Is a packet of the PID scrambled (R322)? -/
def tsScrambled (ps : List TsPkt) (pid : Nat) : Bool := ps.any fun q => !q.loss && q.pid == pid && q.scrambled

/-! ### ISO base media files (R322, R325, R328) -/

/-- A track's samples as one stream: their times rounded down to ticks, those beyond the clip damaged. -/
def isoEs (b : Bytes) (t : IsoTrack) : EsS :=
  t.samples.foldl (fun e x => esAdd b e [(x.offset, x.size)] (some ((x.decodeTime + x.compOffset) * 90000 / (t.timescale : Int)))
    (if b.length < x.offset + x.size then some (min x.offset b.length) else none)) esNone

/-- The video standard of a sample entry (R322). -/
def entryCodec (e : IsoEntry) : Option Codec :=
  if e.external then none
  else if e.fourcc = ascii "avc1" ∨ e.fourcc = ascii "avc3" then some .h264
  else if e.fourcc = ascii "hvc1" ∨ e.fourcc = ascii "hev1" then some .hevc
  else if e.fourcc = ascii "mp4v" ∧ e.mpeg2Video then some .mpeg2
  else none

/-- The audio standard of a sample entry (R322). -/
def entryACodec (e : IsoEntry) : Option ACodec :=
  if e.external ∨ e.fourcc ≠ ascii "mp4a" then none
  else if e.aac then some .aacLc
  else if e.layer2 then some .layer2
  else none

/-- The track that VSEL or ASEL names (R319): 0 the first of its kind. -/
def isoSelect (ts : List IsoTrack) (kind : IsoTrack → Bool) (sel : Nat) : Option IsoTrack :=
  if sel = 0 then ts.find? kind else ts.find? fun t => t.id == sel

/-! ### Limits of the streams (R323, R324) -/

/-- The decoded frame: the display window after the stream's own cropping (R323). -/
def seqWidth (q : SeqSyn) : Nat := q.codedW - q.cropLeft - q.cropRight
def seqHeight (q : SeqSyn) : Nat := q.codedH - q.cropTop - q.cropBottom

/-- Is a coded video sequence within R323 (log entry 186, DEDUCED)? -/
def seqOk (c : Codec) (q : SeqSyn) : Bool :=
  decide (16 ≤ (seqWidth q) ∧ (seqWidth q) ≤ 4096 ∧ 16 ≤ (seqHeight q) ∧ (seqHeight q) ≤ 2176 ∧ q.depth ≤ 10) &&
  match c with
  | .mpeg2 => decide (q.profile ∈ [VProfile.simple, .main, .p422]) && decide (q.level ≤ 4 ∧ q.depth = 8) && decide (q.chroma ∈ [1, 2])
  | .h264 =>
    decide (q.level ≤ 52) &&
      (if q.profile = .high422Intra then decide (q.chroma = 2) && decide (q.depth ∈ [8, 10])
       else decide (q.profile ∈ [VProfile.constrainedBaseline, .main, .high]) && decide (q.chroma = 1 ∧ q.depth = 8))
  | .hevc =>
    decide (q.profile ∈ [VProfile.main, .main10, .mainStill]) && decide (q.level ≤ 51) && !q.highTier && decide (q.chroma = 1) && decide (q.depth ∈ [8, 10])

/-- Is a video stream within R323? -/
def videoOk (c : Codec) (v : VideoSyn) : Bool := v.seqs.all (seqOk c)

/-- Is an audio stream within R324? -/
def audioOk (c : ACodec) (a : AudioSyn) : Bool :=
  a.ok && decide (a.rate ∈ [32000, 44100, 48000]) && (decide (a.channels = 1 ∨ a.channels = 2) || (c == .aacLc && a.channels == 6))

/-! ### The clip's index (R320, R322) -/

/-- An index that says the clip is unsupported. -/
def ixUnsupported : ClipIx := ⟨true, none, false, .mpeg2, [], esNone, ⟨[], []⟩, false, .layer2, [], esNone, ⟨false, 0, 0, []⟩⟩

/-- The index from the two streams chosen: what their syntax states and whether R323 and R324 admit it; `lost` is the first poisoned byte of what every sample
needs. -/
def ixOf (lost : Option Nat) (iso bad : Bool) (c : Codec) (vc : Bytes) (v : EsS) (a : Option (ACodec × Bytes × EsS)) : ClipIx :=
  let vs := Config.videoSyntax c vc v.bytes
  match a with
  | none => ⟨bad || !videoOk c vs, lost, iso, c, vc, v, vs, false, .layer2, [], esNone, ⟨false, 0, 0, []⟩⟩
  | some (ac, cfg, e) =>
    let as_ := Config.audioSyntax ac cfg e.bytes
    ⟨bad || !videoOk c vs || !audioOk ac as_, lost, iso, c, vc, v, vs, true, ac, cfg, e, as_⟩

/-- Index of a transport stream (R322). -/
def tsIndex (b : Bytes) (poison : List (Nat × Nat)) (vsel asel : Nat) : ClipIx :=
  let ps := tsPackets b b.length 0
  let codec : Nat → Option Codec := fun t => if t = 0x02 then some .mpeg2 else if t = 0x1B then some .h264 else if t = 0x24 then some .hevc else none
  match tsSelect b ps videoType vsel with
  | none => ixUnsupported
  | some v => match codec v.1 with
    | none => ixUnsupported
    | some c =>
      let bad := otherPackets b || tsScrambled ps v.2
      let es := tsEs b poison ps v.2
      let lost := tablePoison b poison ps
      match (if asel = 0xFFFF then none else tsSelect b ps audioType asel) with
      | none => ixOf lost false bad c [] es none
      | some a =>
        if a.1 ∈ [0x03, 0x04, 0x0F] then
          ixOf lost false (bad || tsScrambled ps a.2) c [] es (some (if a.1 = 0x0F then .aacLc else .layer2, [], tsEs b poison ps a.2))
        else ixUnsupported

/-- Index of an ISO file (R322). -/
def isoIndex (b : Bytes) (poison : List (Nat × Nat)) (vsel asel : Nat) : ClipIx :=
  match isoTracks b with
  | none => ixUnsupported
  | some ts =>
    let lost := runsPoison poison (isoBoxRuns b)
    match isoSelect ts (·.video) vsel with
    | none => ixUnsupported
    | some v => match v.entries.mapM entryCodec with
      | some (c :: cs) =>
        let bad := cs.any (· != c)
        let vc := v.entries.flatMap (·.config)
        let es := esPoison poison (isoEs b v)
        match (if asel = 0xFFFF then none else isoSelect ts (·.audio) asel) with
        | none => ixOf lost true bad c vc es none
        | some a => match a.entries.mapM entryACodec with
          | some (k :: ks) => ixOf lost true (bad || ks.any (· != k)) c vc es (some (k, a.entries.flatMap (·.config), esPoison poison (isoEs b a)))
          | _ => ixUnsupported
      | _ => ixUnsupported

/-- The index of a clip from its record and its bytes (R320). -/
def clipIndex (rec_ b : Bytes) (poison : List (Nat × Nat)) : ClipIx :=
  if leAt rec_ 24 1 = 0 then tsIndex b poison (leAt rec_ 26 2) (leAt rec_ 28 2) else isoIndex b poison (leAt rec_ 26 2) (leAt rec_ 28 2)

/-! ### Frames and the clip timeline (R325, R326) -/

/-- A frame: its pictures in decode order, whether it is a field with no partner, its time, its place in display order's keys. -/
structure FrameS where
  pics : List Nat
  lone : Bool
  time : Int
  seq : Nat
  order : Int
  deriving DecidableEq, Repr

/-- Do two pictures adjacent in decode order form one frame (R326)? In HEVC the first names the next, or the second the one before. -/
def pairs (c : Codec) (p q : PicSyn) : Bool :=
  (p.field == .top && q.field == .bottom || p.field == .bottom && q.field == .top) &&
    (c != .hevc || p.hint == .next || q.hint == .prev || (p.hint == .none && q.hint == .none))

/-- The frames in decode order, without times: pictures `n` on. -/
def frameGroups (c : Codec) : Nat → List PicSyn → List (List Nat × Bool × PicSyn)
  | _, [] => []
  | n, [p] => [([n], p.field != .frame, p)]
  | n, p :: q :: ps => if pairs c p q then ([n, n + 1], false, p) :: frameGroups c (n + 2) ps else ([n], p.field != .frame, p) :: frameGroups c (n + 1) (q :: ps)

/-- The time that the unit in which a picture starts gives it: the first picture to start in a unit has it. -/
def ownTime (e : EsS) (ps : List PicSyn) (i : Nat) (p : PicSyn) : Option Int :=
  match e.units.find? fun u => decide (u.pos ≤ p.pos ∧ p.pos < u.pos + u.len) with
  | none => none
  | some u => if (ps.take i).any fun q => decide (u.pos ≤ q.pos ∧ q.pos < u.pos + u.len) then none else u.time

/-- A 33-bit value as the value congruent modulo 2^33 nearest to the time before (R325; at equal distance the lower, log entry 187, DESIGN CHOICE). -/
def unwrap (prev v : Int) : Int := prev + (v - prev + 2 ^ 32) % 2 ^ 33 - 2 ^ 32

/-- The frames in decode order with their times (R325). -/
def timeFrames (ix : ClipIx) : Option Int → List (List Nat × Bool × PicSyn) → List FrameS
  | _, [] => []
  | prev, (is_, lone, p) :: rest =>
    let i := is_.headD 0
    let t := match ownTime ix.video ix.vSyn.pics i p, prev with
      | some v, some u => if ix.iso then v else unwrap u v
      | some v, none => v
      | none, u => Config.impliedTime ix.codec ix.video.bytes i (u.getD 0)
    ⟨is_, lone, t, p.seq, p.order⟩ :: timeFrames ix (some t) rest

/-- The frames of a clip in decode order (R325, R326). -/
def framesOf (ix : ClipIx) : List FrameS := timeFrames ix none (frameGroups ix.codec 0 ix.vSyn.pics)

/-- Put a frame behind those that display before it, or at the same place. -/
def displayInsert (f : FrameS) : List FrameS → List FrameS
  | [] => [f]
  | g :: gs => if f.seq < g.seq ∨ (f.seq = g.seq ∧ f.order < g.order) then f :: g :: gs else g :: displayInsert f gs

/-- The frames in display order (R325): by coded video sequence, then by place in it; times play no part. -/
def displayOrder (fs : List FrameS) : List FrameS := fs.foldl (fun l f => displayInsert f l) []

/-- The display index of the frame that holds picture `i`. -/
def frameOf (disp : List FrameS) (i : Nat) : Nat := disp.findIdx fun f => f.pics.contains i

/-- The display indices of a sample's targets (R325), or the display index of the first one beyond the clip; all ones where no frame is at or after TIME. -/
def targetsOf (disp : List FrameS) (time : Int) (stride n : Nat) : Except Nat (List Nat) :=
  let i0 := disp.findIdx fun f => decide (time ≤ f.time)
  if disp.length ≤ i0 then .error (2 ^ 64 - 1)
  else
    let l := (List.range n).map fun k => i0 + stride * k
    match l.find? fun i => decide (disp.length ≤ i) with
    | some i => .error i
    | none => .ok l

/-! ### The reference chain (R327) -/

/-- Is a picture a random access point (R327)? -/
def isRap (c : Codec) (p : PicSyn) : Bool :=
  match c with
  | .mpeg2 => p.ptype == .i && p.startsGop
  | .h264 => p.idr || (p.ptype == .i && p.recovery == some 0)
  | .hevc => p.irap

/-- The latest RAP below picture `n`. -/
def rapBelow (c : Codec) (ps : List PicSyn) (n : Nat) : Option Nat := ((List.range n).reverse).find? fun i => (ps[i]?.map (isRap c)).getD false

/-- Is picture `i` a leading picture of RAP `r` whose decoding may need pictures before it (R327)? -/
def leads (ix : ClipIx) (disp : List FrameS) (r i : Nat) : Bool :=
  match ix.vSyn.pics[r]?, ix.vSyn.pics[i]? with
  | some q, some p =>
    match ix.codec with
    | .hevc => p.rasl
    | _ => p.ptype == .b && !q.closedGop && !q.idr && decide (frameOf disp i < frameOf disp r)
  | _, _ => false

/-- The chain start of a target (R327). -/
def chainStart (ix : ClipIx) (disp : List FrameS) (f : FrameS) : Option Nat :=
  let i := f.pics.headD 0
  match rapBelow ix.codec ix.vSyn.pics (i + 1) with
  | none => none
  | some r => if leads ix disp r i then rapBelow ix.codec ix.vSyn.pics r else some r

/-- Is a picture a reference picture (R327)? In MPEG-2 all but B pictures are; in H.264 and HEVC its syntax says so (nal_ref_idc, sub-layer non-reference). -/
def isRef (c : Codec) (p : PicSyn) : Bool := if c = .mpeg2 then p.ptype != .b else p.reference

/-- The pictures an engine decodes for a sample, in decode order (R327): every reference picture and every target between a target's chain start and the
target; or the display index of the first target with no chain start. -/
def chainOf (ix : ClipIx) (disp : List FrameS) (targets : List Nat) : Except Nat (List Nat) :=
  let starts := targets.map fun d => (d, (disp[d]?).map fun f => (chainStart ix disp f, f.pics))
  match starts.find? fun e => match e.2 with
    | some (none, _) => true
    | _ => false with
  | some e => .error e.1
  | none =>
    let spans := starts.filterMap fun e => match e.2 with
      | some (some c, ps) => some (c, ps)
      | _ => none
    let wanted (i : Nat) : Bool := ((ix.vSyn.pics[i]?.map (isRef ix.codec)).getD false || spans.any fun e => e.2.contains i) &&
      spans.any fun e => decide (e.1 ≤ i ∧ i ≤ e.2.foldl max 0)
    .ok ((List.range ix.vSyn.pics.length).filter wanted)

/-! ### Bad pictures and audio frames (R328) -/

/-- The offset in the clip of a place of a stream. -/
def clipOffset (e : EsS) (pos : Nat) : Nat :=
  match e.chunks.find? fun c => decide (c.1 ≤ pos ∧ pos < c.1 + c.2.1) with
  | some c => c.2.2 + (pos - c.1)
  | none => 2 ^ 64 - 1

/-- The first damaged byte of a run of a stream by its units. -/
def unitDamage (e : EsS) (pos len : Nat) : Option Nat :=
  e.units.findSome? fun u => if u.pos < pos + len ∧ pos < u.pos + u.len ∨ (len = 0 ∧ u.pos = pos) then u.dmg else none

/-- The first poisoned byte of a run of a stream. -/
def runPoison (e : EsS) (pos len : Nat) : Option Nat := e.poison.findSome? fun c => if c.1 < pos + len ∧ pos < c.1 + c.2.1 then some c.2.2 else none

/-- Whether and where each picture is bad (R328), in decode order: damaged, in error, incomplete, a lone field, or with a bad reference. -/
def badPics (ix : ClipIx) : List (Option Nat) :=
  let lone := (frameGroups ix.codec 0 ix.vSyn.pics).flatMap fun g => if g.2.1 then g.1 else []
  ix.vSyn.pics.zipIdx.foldl (fun acc x =>
    let p := x.1
    let none_ := if !p.slicesAll || lone.contains x.2 || (p.refs.any fun r => (acc.getD r (some 0)).isSome) then some (2 ^ 64 - 1) else none
    acc ++ [orMark (unitDamage ix.video p.pos p.len) (orMark (p.errAt.map (clipOffset ix.video)) none_)]) []

/-- The audio frames with their times in ticks and durations (R334): a unit's time starts its first frame; the others follow on. -/
def audioTimes (ix : ClipIx) (start : Int) : List (AudFrame × Int × Int) :=
  let rate : Int := max 1 ix.aSyn.rate
  (ix.aSyn.frames.foldl (fun (st : List (AudFrame × Int × Int) × Int) f =>
    let first := ix.audio.units.find? fun u => decide (u.pos ≤ f.pos ∧ f.pos < u.pos + u.len) && !(st.1.any fun g => decide (u.pos ≤ g.1.pos ∧ g.1.pos < u.pos + u.len))
    let t := match first.bind (·.time) with
      | some v => if ix.iso then v else unwrap st.2 v
      | none => st.2
    let d := (f.samples : Int) * 90000 / rate
    (st.1 ++ [(f, t, d)], t + d)) ([], start)).1

/-- The drop that an audio window from `t0` to `t1` meets, if any (R328, R329): its first bad or poisoned frame. -/
def audioDrop (ix : ClipIx) (start t0 t1 : Int) : Option (Nat × Nat) :=
  (audioTimes ix start).findSome? fun x =>
    let f := x.1
    if x.2.1 < t1 ∧ t0 < x.2.1 + x.2.2 then
      match runPoison ix.audio f.pos f.len with
      | some o => some (4, o)
      | none => match orMark (unitDamage ix.audio f.pos f.len) (f.errAt.map (clipOffset ix.audio)) with
        | some o => some (0, o)
        | none => if f.crcBad then some (0, clipOffset ix.audio f.pos) else none
    else none

/-! ### Preprocessing (R332, R333) -/

/-- pi in 96-bit fixed point, and one. -/
def fx96 : Int := 2 ^ 96
def piFx : Int := 248902613312231085230521944622

/-- sin of a fixed-point angle by its series: `p` is the current term, over n and n + 1. -/
def sinSum : Nat → Int → Int → Int → Int
  | 0, _, _, _ => 0
  | fuel + 1, x2, p, n => p + sinSum fuel x2 (-(p * x2 / fx96) / (n * (n + 1))) (n + 2)

/-- sin(pi x) / (pi x) for |x| up to 3 (R332). -/
def sinc (x : Rat) : Rat :=
  if x = 0 then 1
  else
    let a := piFx * x.num / x.den
    if a = 0 then 1 else (sinSum 40 (a * a / fx96) a 2 : Rat) / (a : Rat)

/-- The Lanczos kernel with a = 3 (R332). -/
def lanczos (x : Rat) : Rat := if x ≤ -3 ∨ 3 ≤ x then 0 else sinc x * sinc (x / 3)

/-- A source position on the grid of 64 phases (R332). -/
def phased (x : Rat) : Rat := ((x * 64).floor + (if Config.phaseUp x then 1 else 0) : Int) / 64

/-- The taps around a source position with their weights, normalised to sum 1 (R332): the support is widened by the ratio when downscaling. -/
def tapsAt (x ratio : Rat) : List (Int × Rat) :=
  let s := max 1 ratio
  let lo := (x - 3 * s).floor
  let l := (List.range ((6 * s).ceil.toNat + 2)).map fun i => ((lo + i : Int), lanczos (((lo + i : Int) : Rat) / s - x / s))
  let sum := (l.map (·.2)).sum
  l.map fun e => (e.1, e.2 / sum)

/-- A source coordinate, or the nearest edge pixel (R332). -/
def edge (i : Int) (n : Nat) : Nat := (max 0 (min i ((n : Int) - 1))).toNat

/-- What the preprocessing of one clip uses: its index, the sequence of the target and the recipe. -/
structure PrepS where
  ix : ClipIx
  q : SeqSyn
  r : Bytes
  deriving DecidableEq, Repr

/-- The field that FIELD_MODE selects: rows of the frame per row used, and the first (R332). -/
def PrepS.lines (p : PrepS) : Nat × Nat :=
  match leAt p.r 14 1 with
  | 0 => (1, 0)
  | 1 => (2, 0)
  | _ => (2, 1)

/-- Subsampling of the chroma planes. -/
def PrepS.sub (p : PrepS) (plane : Nat) : Nat × Nat := if plane = 0 then (1, 1) else (2, if p.q.chroma = 1 then 2 else 1)

/-- A pixel of a frame's plane (R326): fields interleave, the top field on the even lines. -/
def PrepS.framePixel (p : PrepS) (f : FrameS) (plane x y : Nat) : Nat :=
  let px (i y : Nat) : Nat := Config.decodedPixel (p.ix.codec, p.ix.vConfig, p.ix.video.bytes) i plane x y
  match f.pics with
  | [a, b] =>
    let top := if (p.ix.vSyn.pics[a]?.map fun q => q.field) == some .top then a else b
    px (if y % 2 = 0 then top else if top = a then b else a) (y / 2)
  | a :: _ => px a y
  | [] => 0

/-- Width and height of a plane after field selection (R332). -/
def PrepS.dims (p : PrepS) (plane : Nat) : Nat × Nat :=
  let s := p.sub plane
  let h := ((seqHeight p.q) + s.2 - 1) / s.2
  (((seqWidth p.q) + s.1 - 1) / s.1, (h + p.lines.1 - 1 - p.lines.2) / p.lines.1)

/-- The crop window in luma pixels after field selection: x, y, width, height (R331, R332). -/
def PrepS.crop (p : PrepS) : Rat × Rat × Rat × Rat :=
  let d := p.dims 0
  let w := leAt p.r 4 2
  let h := leAt p.r 6 2
  let n : Rat := p.lines.1
  (leAt p.r 0 2, (leAt p.r 2 2 : Rat) / n, if w = 0 then d.1 else w, if h = 0 then d.2 else (h : Rat) / n)

/-- Does the recipe's resize keep within 1/8 and 8 on this frame, in width and in height (R331)? -/
def PrepS.ratioOkW (p : PrepS) : Bool :=
  let a := if leAt p.r 4 2 = 0 then seqWidth p.q else leAt p.r 4 2
  decide (a ≤ 8 * leAt p.r 8 2 ∧ leAt p.r 8 2 ≤ 8 * a)

def PrepS.ratioOkH (p : PrepS) : Bool :=
  let a := if leAt p.r 6 2 = 0 then seqHeight p.q else leAt p.r 6 2
  decide (a ≤ 8 * leAt p.r 10 2 ∧ leAt p.r 10 2 ≤ 8 * a)

/-- A plane resampled at output pixel (X, Y) (R332), chroma from its own siting. -/
def PrepS.resample (p : PrepS) (f : FrameS) (plane X Y : Nat) : Rat :=
  let (cx, cy, cw, ch) := p.crop
  let ow : Rat := leAt p.r 8 2
  let oh : Rat := leAt p.r 10 2
  let s := p.sub plane
  let site (v : Int) : Rat := if plane = 0 then 0 else (v : Rat) / 4
  let x := phased ((cx + ((X : Rat) + 1 / 2) * cw / ow - 1 / 2 - site p.q.siteX) / s.1)
  let y := phased ((cy + ((Y : Rat) + 1 / 2) * ch / oh - 1 / 2 - site p.q.siteY) / s.2)
  let d := p.dims plane
  let row (j : Int) : Rat := ((tapsAt x (cw / ow / s.1)).map fun t =>
    t.2 * (p.framePixel f plane (edge t.1 d.1) (edge j d.2 * p.lines.1 + p.lines.2) : Rat)).sum
  ((tapsAt y (ch / oh / s.2)).map fun t => t.2 * row t.1).sum

/-- Kr and Kb of BT.601, BT.709 and BT.2020 (log entry 188, PRESUMED). -/
def bt601 : Rat × Rat := (299 / 1000, 114 / 1000)
def bt709 : Rat × Rat := (2126 / 10000, 722 / 10000)
def bt2020 : Rat × Rat := (2627 / 10000, 593 / 10000)

/-- The matrix that COLOUR or the stream names (R331, R332). -/
def PrepS.matrix (p : PrepS) : Rat × Rat :=
  match leAt p.r 15 1 % 4 with
  | 1 => bt601
  | 2 => bt709
  | 3 => bt2020
  | _ => match p.q.matrix with
    | none => if 720 ≤ (seqHeight p.q) then bt709 else bt601
    | some m => if m = 1 then bt709 else if m = 5 ∨ m = 6 then bt601 else if m = 9 then bt2020 else Config.colourMatrix m

/-- Full range (R331, R332)? -/
def PrepS.full (p : PrepS) : Bool := if bitN (leAt p.r 15 1) 2 then bitN (leAt p.r 15 1) 3 else p.q.fullRange

/-- Clip to [0, 1]. -/
def clip01 (x : Rat) : Rat := max 0 (min 1 x)

/-- The exact R'G'B' value of an output pixel (R332, steps 1 to 3). -/
def PrepS.exactRgb (p : PrepS) (f : FrameS) (X Y ch : Nat) : Rat :=
  let b : Rat := 2 ^ (p.q.depth - 8)
  let luma := p.resample f 0 X Y
  let chroma (i : Nat) : Rat :=
    if p.full then (p.resample f i X Y - 128 * b) / (256 * b - 1) else (p.resample f i X Y - 128 * b) / (224 * b)
  let y := if p.full then luma / (256 * b - 1) else (luma - 16 * b) / (219 * b)
  let (kr, kb) := p.matrix
  let r := y + 2 * (1 - kr) * chroma 2
  let bl := y + 2 * (1 - kb) * chroma 1
  clip01 (match ch with
    | 0 => r
    | 1 => (y - kr * r - kb * bl) / (1 - kr - kb)
    | _ => bl)

/-- The device's R'G'B' value: within 2^-11 of the exact one (R332), as FP32. -/
def PrepS.rgb (p : PrepS) (f : FrameS) (X Y ch : Nat) : BitVec 32 :=
  let e := Config.colourError p.r (f.pics.headD 0) X Y ch
  let v := clip01 (p.exactRgb f X Y ch + max (-(1 / 2048)) (min (1 / 2048) e))
  rn32 (fpDiv (.fin false v.num.natAbs 0) (.fin false v.den 0))

/-- The normalised value (R332, step 4), in FP32. -/
def PrepS.normal (p : PrepS) (f : FrameS) (X Y ch : Nat) : Fp :=
  let mean := BitVec.ofNat 32 (leAt p.r (16 + 4 * ch) 4)
  let istd := BitVec.ofNat 32 (leAt p.r (28 + 4 * ch) 4)
  f32 (mul32 (add32 (p.rgb f X Y ch) (mean ^^^ 0x80000000)) istd)

/-- A matrix of `rows` by `cols` values in the blocked layout (R110): elements beyond it are zero. -/
def blockedMatrix (f : EFmt) (sat : Bool) (rows cols : Nat) (v : Nat → Nat → Fp) : Bytes :=
  (List.range ((rows + 31) / 32)).flatMap fun br => (List.range ((cols + 31) / 32)).flatMap fun bc =>
    encBlock f sat ((List.range 32).map fun r => (List.range 32).map fun c =>
      if 32 * br + r < rows ∧ 32 * bc + c < cols then v (32 * br + r) (32 * bc + c) else .fin false 0 0)

/-- Rows and columns of the video matrix from the recipe and the frame count (R333). -/
def videoShape (r : Bytes) (nframes : Nat) : Nat × Nat :=
  let p := max 1 (leAt r 12 1)
  let t := max 1 (leAt r 13 1)
  (nframes / t * (leAt r 10 2 / p) * (leAt r 8 2 / p), 3 * t * p * p)

/-- Element (row, column) of the video matrix (R333): token (g, pr, pc), column (t, ch, py, px); its value multiplied by 2^SCALE_EXP (R105). -/
def videoElem (ps : List (PrepS × FrameS)) (r : Bytes) (row col : Nat) : Fp :=
  let p := max 1 (leAt r 12 1)
  let t := max 1 (leAt r 13 1)
  let ph := leAt r 10 2 / p
  let pw := leAt r 8 2 / p
  let g := row / pw / ph
  match ps[t * g + col / p / p / 3]? with
  | none => .fin false 0 0
  | some x => fpScale (sextNat 8 (leAt r 42 1)) (x.1.normal x.2 (row % pw * p + col % p) (row / pw % ph * p + col / p % p) (col / p / p % 3))

/-- The format a recipe encodes in. -/
def recipeFmt (code : Nat) : EFmt := { fmt := code, pw := 0, usgn := false }

/-- The video matrix of a sample (R332, R333). -/
def videoMatrix (ps : List (PrepS × FrameS)) (r : Bytes) (nframes : Nat) : Bytes :=
  let (rows, cols) := videoShape r nframes
  blockedMatrix (recipeFmt (leAt r 40 1)) (leAt r 41 1 == 1) rows cols (videoElem ps r)

/-! ### Audio (R334) -/

/-- Audio sampling rate, FFT window and hop of a recipe (R331, R334). -/
def audioRate (r : Bytes) : Nat := if leAt r 44 1 = 0 then 16000 else 48000
def audioWindow (r : Bytes) : Nat := audioRate r / 40
def audioHop (r : Bytes) : Nat := audioRate r / 100

/-- Samples of a window in ticks (R334). -/
def audioSamples (r : Bytes) (ticks : Int) : Nat := (ticks * audioRate r / 90000).toNat

/-- Rows and columns of the audio matrix of one channel (R334). -/
def audioShape (r : Bytes) (n : Nat) : Nat × Nat :=
  match leAt r 43 1 with
  | 1 => ((n + 1023) / 1024, 1024)
  | 2 => (if n < audioWindow r then 0 else 1 + (n - audioWindow r) / audioHop r, leAt r 46 1)
  | _ => (0, 0)

/-- Sample `i` of output channel `ch` (R334): two channels averaged for ACH 1, a mono stream duplicated for ACH 2. -/
def audioSample (ix : ClipIx) (r : Bytes) (t0 t1 : Int) (ch i : Nat) : BitVec 32 :=
  let x (c : Nat) : BitVec 32 := Config.resampledAudio (ix.acodec, ix.aConfig, ix.audio.bytes) (t0, t1) (audioRate r) c i
  if ix.aSyn.channels = 1 then x 0
  else if leAt r 45 1 = 1 then rn32 (fpScale (-1) (fpAdd (f32 (x 0)) (f32 (x 1))))
  else x ch

/-- cos of a fixed-point angle from 0 to 2 pi by its series. -/
def cosFx (a : Int) : Int := fx96 + sinSum 60 (a * a / fx96) (-(a * a / fx96 / 2)) 3

/-- cos(2 pi k / n) to 2^-80 (R334). -/
def cosTurn (k n : Nat) : Rat := (cosFx (2 * piFx * (k % n : Nat) / (max 1 n : Nat)) : Rat) / (fx96 : Rat)

/-- The sum of z^(2j+1) / (2j+1) over `fuel` terms from 2j+1 = n on, in fixed point: `p` is the current power. -/
def lnSum : Nat → Int → Int → Int → Int
  | 0, _, _, _ => 0
  | fuel + 1, z2, p, n => p / n + lnSum fuel z2 (p * z2 / fx96) (n + 2)

/-- ln of a fixed-point value from 1 to 2. -/
def lnUnit (m : Int) : Int :=
  let z := (m - fx96) * fx96 / (m + fx96)
  2 * lnSum 60 (z * z / fx96) z 1

/-- ln of a positive rational to about 2^-80 (R334). -/
def lnRat (x : Rat) : Rat :=
  let e : Int := (Nat.log2 x.num.natAbs : Int) - Nat.log2 x.den
  let m : Rat := if 0 ≤ e then x / 2 ^ e.toNat else x * 2 ^ (-e).toNat
  let (e1, m1) := if m < 1 then (e - 1, m * 2) else (e, m)
  (lnUnit (m1 * (fx96 : Rat)).floor + e1 * lnUnit (2 * fx96) : Int) / (fx96 : Rat)

/-- The exact value of an FP32 sample; one that is not finite has none, and counts 0. -/
def ratOf (b : BitVec 32) : Rat :=
  match f32 b with
  | .fin s m e => (if s then (-1 : Rat) else 1) * (if 0 ≤ e then (m : Rat) * 2 ^ e.toNat else (m : Rat) / 2 ^ (-e).toNat)
  | _ => 0

/-- The Hann window at sample `i` of `n` (R334): whether it is periodic or symmetric is the part's (log entry 201, DESIGN CHOICE). -/
def hann (n i : Nat) : Rat := (1 - cosTurn i (if Config.hannPeriodic then n else n - 1)) / 2

/-- Points of the FFT (R334). -/
def fftPoints (rate : Nat) : Nat := if rate = 16000 then 512 else 2048

/-- Power of bin `k` of the FFT of a window's samples, zeros behind them (R334). -/
def binPower (rate : Nat) (x : List Rat) (k : Nat) : Rat :=
  let n := fftPoints rate
  let sum (shift : Nat) : Rat := (x.zipIdx.map fun e => e.1 * cosTurn (k * e.2 + shift) n).sum
  sum 0 * sum 0 + sum (n / 4) * sum (n / 4)

/-- The mel scale up to a factor: ln(1 + f / 700) (R334, HTK; log entry 201, DESIGN CHOICE). -/
def melOf (f : Rat) : Rat := lnRat (1 + f / 700)

/-- Weight of mel filter `m` of `mels` at frequency `f` (R334): a triangle on the mel scale between equally spaced points from 0 to ARATE / 2. -/
def melWeight (rate mels m : Nat) (f : Rat) : Rat :=
  let d := melOf (rate / 2) / (mels + 1)
  max 0 (min (melOf f / d - m) (m + 2 - melOf f / d))

/-- The log-mel value of filter `m` over a window's samples, FP32 (R334): ln(mel power + 2^-20), rounded once (log entry 201, DESIGN CHOICE). -/
def logMel (rate mels : Nat) (samples : List (BitVec 32)) (m : Nat) : BitVec 32 :=
  let n := samples.length
  let x := samples.zipIdx.map fun e => ratOf e.1 * hann n e.2
  let power := ((List.range (fftPoints rate / 2 + 1)).map fun k => melWeight rate mels m ((k * rate : Nat) / (fftPoints rate : Nat)) * binPower rate x k).sum
  let v := lnRat (power + 1 / 2 ^ 20)
  rn32 (fpDiv (.fin (decide (v < 0)) v.num.natAbs 0) (.fin false v.den 0))

/-- The audio matrix of one channel (R334). -/
def audioMatrix (ix : ClipIx) (r : Bytes) (t0 t1 : Int) (ch : Nat) : Bytes :=
  let n := audioSamples r (t1 - t0)
  let (rows, cols) := audioShape r n
  let smp (i : Nat) : BitVec 32 := audioSample ix r t0 t1 ch i
  blockedMatrix (recipeFmt (leAt r 47 1)) false rows cols fun row col =>
    if leAt r 43 1 = 1 then (if 1024 * row + col < n then f32 (smp (1024 * row + col)) else .fin false 0 0)
    else f32 (logMel (audioRate r) (leAt r 46 1) ((List.range (audioWindow r)).map fun i => smp (audioHop r * row + i)) col)

/-! ### A sample's fate (R325 to R335) -/

/-- Bytes of the video matrix in the recipe's format (R110). -/
def videoBytes (r : Bytes) (nframes : Nat) : Nat :=
  let (rows, cols) := videoShape r nframes
  (rows + 31) / 32 * ((cols + 31) / 32) * fmtBS (recipeFmt (leAt r 40 1))

/-- The place of the audio matrices in a slot: the next 4 KiB boundary after the video, or 0 with no audio (R335). -/
def audioOffset (r : Bytes) (vb : Nat) : Nat := if leAt r 43 1 = 0 then 0 else (4096 + vb + 4095) / 4096 * 4096

/-- Luma pixels of picture `i` (R351). -/
def picPixels (ix : ClipIx) (i : Nat) : Nat :=
  match ix.vSyn.pics[i]? with
  | some p =>
    let q := ix.vSyn.seqs.getD p.params default
    seqWidth q * seqHeight q / (if p.field = .frame then 1 else 2)
  | none => 0

/-- The drop of a sample of which the pictures in `done` had been decoded. -/
def dropAt (ix : ClipIx) (reason : Nat) (off frame : Word) (done : List Nat) : DropInfo :=
  ⟨BitVec.ofNat 3 reason, off, frame, done.length, (done.map (picPixels ix)).sum⟩

/-- Offset in the recipe of the first side whose resize goes beyond 1/8 to 8 on a sequence of the clip, a whole frame being taken (R331). -/
def ratioBad (ix : ClipIx) (r : Bytes) : Option Nat :=
  ix.vSyn.seqs.findSome? fun q =>
    let p : PrepS := ⟨ix, q, r⟩
    if !p.ratioOkW then some 8 else if !p.ratioOkH then some 10 else none

/-- A sample as its clip's index, the recipe and its descriptor make it, or the drop it meets (R322 to R335). Reasons are sought in the order 4 for the tables, 2, 5, 3,
1, then 4 or 0 at the first picture in decode order that has one, then the audio's, then 6; the pictures of the chain before the one that is bad, and all of them
where it is the audio or the size, have been decoded (log entry 189, DESIGN CHOICE). -/
def sampleFate (ix : ClipIx) (r desc : Bytes) (slotBytes : Nat) : Except DropInfo SampleData :=
  let all : Word := BitVec.allOnes 64
  let nf := leAt desc 10 1
  let audio := leAt r 43 1 != 0
  let drop (reason : Nat) (off frame : Word) (done : List Nat) : Except DropInfo SampleData := .error (dropAt ix reason off frame done)
  match ix.lost, ratioBad ix r with
  | some o, _ => drop 4 (BitVec.ofNat 64 o) all []
  | none, bad => if ix.unsupported || (audio && !ix.hasAudio) then drop 2 all all [] else match bad with
  | some o => drop 5 (BitVec.ofNat 64 o) all []
  | none =>
    let frames := framesOf ix
    let disp := displayOrder frames
    match targetsOf disp (sextNat 64 (leAt desc 0 8)) (leAt desc 8 2) nf with
    | .error i => drop 3 all (BitVec.ofNat 64 i) []
    | .ok targets =>
      match chainOf ix disp targets with
      | .error i => drop 1 all (BitVec.ofNat 64 i) []
      | .ok chain =>
        let bad := badPics ix
        let fault := chain.findSome? fun i => match ix.vSyn.pics[i]? with
          | none => none
          | some p => match runPoison ix.video p.pos p.len with
            | some o => some (i, 4, o)
            | none => (bad.getD i none).map fun o => (i, 0, o)
        match fault with
        | some (i, reason, o) => drop reason (BitVec.ofNat 64 o) (BitVec.ofNat 64 (frameOf disp i)) (chain.takeWhile (· != i))
        | none =>
          let tf := targets.filterMap fun d => disp[d]?
          let seqOfPic (f : FrameS) : SeqSyn := ix.vSyn.seqs.getD ((ix.vSyn.pics[f.pics.headD 0]?.map fun p => p.params).getD 0) default
          let ps := tf.map fun f => ((⟨ix, seqOfPic f, r⟩ : PrepS), f)
          let t0 := (tf.head?.map fun f => f.time).getD 0
          let t1 := ((tf.getLast?.map fun f => f.time + (seqOfPic f).frameTicks).getD 0)
          match (if audio then audioDrop ix ((frames.head?.map fun f => f.time).getD 0) t0 t1 else none) with
          | some (reason, o) => drop reason (BitVec.ofNat 64 o) all chain
          | none =>
            let shape := audioShape r (audioSamples r (t1 - t0))
            let one := (shape.1 + 31) / 32 * ((shape.2 + 31) / 32) * fmtBS (recipeFmt (leAt r 47 1))
            let vb := videoBytes r nf
            let end_ := if audio then audioOffset r vb + one * leAt r 45 1 else 4096 + vb
            if slotBytes < end_ then drop 6 all all chain
            else .ok ⟨videoMatrix ps r nf, if audio then (List.range (leAt r 45 1)).flatMap (audioMatrix ix r t0 t1) else [], shape.1, shape.2,
              wordOfInt t0, chain.length, (chain.map (picPixels ix)).sum⟩

end Sys2Proof.Machine
end

