-- ==== Sys2Proof/Machine/Regs.lean ====
section
/-! DEFINITION. Sys2Proof/Machine/Regs.lean: bit fields, the description of a register field (R6, R7), and where an address lies in the device's register space (R194). -/

namespace Sys2Proof

/-- Index of a core: 144 h + 12 y + x (R445). -/
def CoreId.idx (c : CoreId) : Nat := 144 * c.hall.val + 12 * c.row.val + c.col.val

/-- The 11-bit position {hall, row, column} of a core (R176). -/
def CoreId.pos (c : CoreId) : Nat := c.hall.val * 256 + c.row.val * 16 + c.col.val

end Sys2Proof

namespace Sys2Proof.Machine

/-- A bit field [hi:lo] of a register. -/
structure Fd where
  hi : Nat
  lo : Nat
  deriving DecidableEq, Repr

/-- How many values the field can hold. -/
def Fd.size (f : Fd) : Nat := 2 ^ (f.hi + 1 - f.lo)

/-- The field's value in a register. -/
def Fd.get (f : Fd) (w : Word) : Nat := w.toNat / 2 ^ f.lo % f.size

/-- The register with the field set to `v` modulo its size, other bits kept. -/
def Fd.put (f : Fd) (w : Word) (v : Nat) : Word :=
  BitVec.ofNat 64 (w.toNat - f.get w * 2 ^ f.lo + v % f.size * 2 ^ f.lo)

/-- Access types (R6). -/
inductive Acc where
  | ro
  | rw
  | wo
  | w1c
  | rc
  | rwc
  deriving DecidableEq, Repr

/-- The legal range of an RWC field and what an illegal value stores (R7 and the field's own row). -/
inductive Clamp where
  | none
  | range (lo hi : Nat)
  | remap (lo hi to_ : Nat)
  | geField (f : Fd) (max : Nat)
  | leField (min : Nat) (f : Fd) (less : Nat)
  | ringProd
  deriving DecidableEq, Repr

/-- One field of a register with its access type, reset value and clamp. -/
structure FldDesc where
  fd : Fd
  acc : Acc
  rst : Nat
  clamp : Clamp
  deriving DecidableEq, Repr

/-- Who may write a register: anyone, the Housekeeper alone with other writes refused, or the Housekeeper alone with other writes without effect (R9, R35, R291). -/
inductive Who where
  | any
  | hk
  | table
  deriving DecidableEq, Repr

/-- A register family: its block offset, its dimensions as (count, stride), and its fields. `ctx` marks context state (R76),
`w64` one that acts on an aligned 64-bit write only (R9). -/
structure RegDesc where
  off : Nat
  dims : List (Nat × Nat)
  who : Who
  ctx : Bool
  w64 : Bool
  flds : List FldDesc
  deriving DecidableEq, Repr

/-- Where a 48-bit device address lies (R194). -/
inductive Place where
  | core (c : CoreId) (off : Nat)
  | hall (h : Fin 8) (off : Nat)
  | die (off : Nat)
  | hbm (pa : Nat)
  | nowhere
  deriving DecidableEq, Repr

/-- First address of the core windows (R4, R194). -/
def coreSpace : Nat := 0xA00000000000

/-- First address of the hall control blocks. -/
def hallSpace : Nat := 0xE00000000000

/-- First address of the front-die blocks. -/
def dieSpace : Nat := 0xF00000000000

/-- End of HBM (R197). -/
def hbmEnd : Nat := 0xF000000000

/-- Base of a core's window (R4). -/
def coreBase (c : CoreId) : Nat := coreSpace + c.hall.val * 2 ^ 30 + c.row.val * 2 ^ 26 + c.col.val * 2 ^ 22

/-- Base of a hall control block. -/
def hallBase (h : Nat) : Nat := hallSpace + h * 0x1000000

/-- The core with an index below 1,152. -/
def coreOfIdx (i : Nat) : CoreId :=
  ⟨⟨i / 144 % 8, Nat.mod_lt _ (by decide)⟩, ⟨i / 12 % 12, Nat.mod_lt _ (by decide)⟩, ⟨i % 12, Nat.mod_lt _ (by decide)⟩⟩

/-- The core named by an 11-bit position {hall, row, column}, none when the row or column is above 11 (R176). -/
def coreOfPos (p : Nat) : Option CoreId :=
  let y := p / 16 % 16
  let x := p % 16
  if hy : y < 12 then
    if hx : x < 12 then some ⟨⟨p / 256 % 8, Nat.mod_lt _ (by decide)⟩, ⟨y, hy⟩, ⟨x, hx⟩⟩ else none
  else none

/-- All cores in ascending index. -/
def allCores : List CoreId := (List.range 1152).map coreOfIdx

/-- The cores of a hall in row-major order. -/
def hallCores (h : Nat) : List CoreId := (List.range 144).map fun i => coreOfIdx (144 * h + i)

/-- Where an address lies (R194). -/
def place (a : Nat) : Place :=
  if a < hbmEnd then .hbm a
  else if coreSpace ≤ a ∧ a < coreSpace + 2 ^ 33 then
    match coreOfPos ((a - coreSpace) / 2 ^ 30 % 8 * 256 + (a - coreSpace) / 2 ^ 26 % 16 * 16 + (a - coreSpace) / 2 ^ 22 % 16) with
    | some c => .core c (a % 2 ^ 22)
    | none => .nowhere
  else if hallSpace ≤ a ∧ a < hallSpace + 8 * 0x1000000 then
    .hall ⟨(a - hallSpace) / 0x1000000 % 8, Nat.mod_lt _ (by decide)⟩ (a % 0x1000000)
  else if dieSpace ≤ a ∧ a < dieSpace + 0xC000000 then .die (a - dieSpace)
  else .nowhere

/-- Does the block offset `o` name a register with these dimensions? -/
def dimsMatch : List (Nat × Nat) → Nat → Bool
  | [], r => r == 0
  | (n, st) :: ds, r => decide (r / st < n) && dimsMatch ds (r % st)

/-- The family that holds the register at a block offset. -/
def findDesc (t : List RegDesc) (o : Nat) : Option RegDesc :=
  t.find? fun d => decide (d.off ≤ o) && dimsMatch d.dims (o - d.off)

/-- The reset value of a family's registers. -/
def RegDesc.reset (d : RegDesc) : Word :=
  d.flds.foldl (fun w x => x.fd.put w x.rst) 0

/-- What an RWC field stores for a written value (R7): `w` is the register with the other written fields already in place,
`cons` the bound of a receive ring's PROD (R350). PROD is legal within `cons .. cons + size` modulo 2^32, and R7's nearest legal value is taken
around that circle, the lower bound where both are equally near (log entry 166, DESIGN CHOICE). -/
def Clamp.apply (c : Clamp) (w : Word) (cons size : Nat) (v : Nat) : Nat :=
  match c with
  | .none => v
  | .range lo hi => min (max v lo) hi
  | .remap lo hi t => if lo ≤ v ∧ v ≤ hi then t else v
  | .geField f m => min (max v (f.get w)) m
  | .leField m f less => min (max v m) (f.get w - less)
  | .ringProd =>
    let d := (v + 2 ^ 32 - cons) % 2 ^ 32
    if d ≤ size then v else if d - size < 2 ^ 32 - d then (cons + size) % 2 ^ 32 else cons

/-- Is the clamp one whose bound is another field of the register? Those are applied last (R349, R366). -/
def Clamp.isDependent : Clamp → Bool
  | .geField _ _ => true
  | .leField _ _ _ => true
  | _ => false

/-- The stored value after a write of the bits under `mask` (R6 to R9): RW and RWC fields take the written bits and keep
the others, RWC then clamps the whole field, W1C clears, RO and WO store nothing. -/
def FldDesc.store (x : FldDesc) (cons size mask new : Nat) (old w : Word) : Word :=
  let o := x.fd.get old
  let m := mask / 2 ^ x.fd.lo % x.fd.size
  let n := new / 2 ^ x.fd.lo % x.fd.size
  let mixed := (o &&& ((x.fd.size - 1) - m)) ||| (n &&& m)
  match x.acc with
  | .rw => x.fd.put w mixed
  | .rwc => x.fd.put w (x.clamp.apply w cons size mixed)
  | .w1c => x.fd.put w (o &&& ((x.fd.size - 1) - (n &&& m)))
  | _ => w

/-- The register's stored value after a write: independent fields first, then the fields clamped to another field (log entry 164, DEDUCED). -/
def RegDesc.write (d : RegDesc) (cons size mask new : Nat) (old : Word) : Word :=
  let w1 := d.flds.foldl (fun w x => if x.clamp.isDependent then w else x.store cons size mask new old w) old
  d.flds.foldl (fun w x => if x.clamp.isDependent then x.store cons size mask new old w else w) w1

/-- What a bus read of the stored value gives: WO fields read zero (R6). -/
def RegDesc.read (d : RegDesc) (v : Word) : Word :=
  d.flds.foldl (fun w x => if x.acc = .wo then x.fd.put w 0 else w) v

/-- Does the family have an RC field (R6)? -/
def RegDesc.hasRc (d : RegDesc) : Bool := d.flds.any fun x => decide (x.acc = .rc)

/-- The stored value after a read of the bits under `mask`: the bits read of an RC field go back to the field's reset value (R6, R9).
No register table of the spec has an RC field. -/
def RegDesc.afterRead (d : RegDesc) (mask : Nat) (v : Word) : Word :=
  d.flds.foldl (fun w x =>
    let m := mask / 2 ^ x.fd.lo % x.fd.size
    if x.acc = .rc then x.fd.put w ((x.fd.get w &&& ((x.fd.size - 1) - m)) ||| (x.rst &&& m)) else w) v

end Sys2Proof.Machine
end

