-- ==== Sys2Proof/Machine/RegMap.lean ====
section
/-! DEFINITION. Sys2Proof/Machine/RegMap.lean: every register family of the spec: its address function (r...), its fields (f...), and its entry in the register table, with the rule that gives it. -/

namespace Sys2Proof.Machine

/-- CORE_ID (R76). -/
def rCoreId (c : CoreId) : Nat := coreBase c + 0x200000
def fCoreIdHall : Fd := ⟨23, 21⟩
def fCoreIdRow : Fd := ⟨20, 17⟩
def fCoreIdCol : Fd := ⟨16, 13⟩
def fCoreIdProw : Fd := ⟨12, 9⟩
/-- CORE_CTL (R76). -/
def rCoreCtl (c : CoreId) : Nat := coreBase c + 0x200008
def fCoreCtlStep : Fd := ⟨1, 1⟩
def fCoreCtlHalt : Fd := ⟨0, 0⟩
/-- CORE_STATUS (R76). -/
def rCoreStatus (c : CoreId) : Nat := coreBase c + 0x200010
def fCoreStatusCtx : Fd := ⟨34, 32⟩
def fCoreStatusFault : Fd := ⟨31, 16⟩
def fCoreStatusPend : Fd := ⟨15, 8⟩
def fCoreStatusFaulted : Fd := ⟨2, 2⟩
def fCoreStatusStopped : Fd := ⟨1, 1⟩
def fCoreStatusRun : Fd := ⟨0, 0⟩
/-- CODE_RANGE (R76). -/
def rCodeRange (c : CoreId) : Nat := coreBase c + 0x200018
def fCodeRangeBaseLine : Fd := ⟨13, 0⟩
def fCodeRangeLimitLine : Fd := ⟨45, 32⟩
/-- PC (R76). -/
def rPc (c : CoreId) : Nat := coreBase c + 0x200020
def fPcBundle : Fd := ⟨15, 0⟩
/-- S (R75). -/
def rS (c : CoreId) (i : Nat) : Nat := coreBase c + 0x201000 + 0x8 * i
def fSS : Fd := ⟨63, 0⟩
/-- V (R158). -/
def rV (c : CoreId) (i : Nat) (j : Nat) : Nat := coreBase c + 0x202000 + 0x80 * i + 0x8 * j
def fVLaneHi : Fd := ⟨63, 32⟩
def fVLaneLo : Fd := ⟨31, 0⟩
/-- TILE_CFG (R60). -/
def rTileCfg (c : CoreId) (i : Nat) : Nat := coreBase c + 0x203000 + 0x8 * i
def fTileCfgUsgn : Fd := ⟨24, 24⟩
def fTileCfgPwidth : Fd := ⟨23, 20⟩
def fTileCfgFmt : Fd := ⟨19, 16⟩
def fTileCfgCols : Fd := ⟨15, 8⟩
def fTileCfgRows : Fd := ⟨5, 0⟩
/-- SC (R239). -/
def rSc (c : CoreId) (i : Nat) : Nat := coreBase c + 0x204000 + 0x8 * i
def fScValue : Fd := ⟨31, 0⟩
/-- SC_SAT (R239). -/
def rScSat (c : CoreId) : Nat := coreBase c + 0x204180
def fScSatMask : Fd := ⟨47, 0⟩
/-- SC_ORPHAN (R239). -/
def rScOrphan (c : CoreId) : Nat := coreBase c + 0x204188
def fScOrphanMask : Fd := ⟨47, 0⟩
/-- SYNC_STATUS (R239). -/
def rSyncStatus (c : CoreId) : Nat := coreBase c + 0x204190
def fSyncStatusWatches : Fd := ⟨15, 12⟩
def fSyncStatusOrphanNotice : Fd := ⟨2, 2⟩
def fSyncStatusOrphanWake : Fd := ⟨1, 1⟩
def fSyncStatusGwaitPend : Fd := ⟨0, 0⟩
/-- SYNC_RT (R239). -/
def rSyncRt (c : CoreId) : Nat := coreBase c + 0x204198
def fSyncRtHall : Fd := ⟨10, 8⟩
def fSyncRtRouter : Fd := ⟨2, 0⟩
/-- LOOP_CTL (R154). -/
def rLoopCtl (c : CoreId) : Nat := coreBase c + 0x205000
def fLoopCtlDepth : Fd := ⟨2, 0⟩
/-- LOOP_ENTRY (R154). -/
def rLoopEntry (c : CoreId) (i : Nat) : Nat := coreBase c + 0x205008 + 0x8 * i
def fLoopEntryEnd : Fd := ⟨31, 16⟩
def fLoopEntryStart : Fd := ⟨15, 0⟩
/-- STRM_STATUS (R155). -/
def rStrmStatus (c : CoreId) : Nat := coreBase c + 0x210000
def fStrmStatusDescLive : Fd := ⟨54, 48⟩
def fStrmStatusReqUsed : Fd := ⟨46, 40⟩
def fStrmStatusLastFault : Fd := ⟨15, 0⟩
/-- STRM_ENTRY (R155). -/
def rStrmEntry (c : CoreId) (i : Nat) : Nat := coreBase c + 0x210100 + 0x10 * i
def fStrmEntryValid : Fd := ⟨63, 63⟩
def fStrmEntryPhase : Fd := ⟨62, 61⟩
def fStrmEntryDesc : Fd := ⟨60, 60⟩
def fStrmEntryDescIdx : Fd := ⟨20, 6⟩
/-- STRM_PROGRESS (R155). -/
def rStrmProgress (c : CoreId) (i : Nat) : Nat := coreBase c + 0x210108 + 0x10 * i
def fStrmProgressProgress : Fd := ⟨63, 0⟩
/-- CEL_BASE (R256). -/
def rCelBase (c : CoreId) : Nat := coreBase c + 0x211000
def fCelBaseBase : Fd := ⟨47, 12⟩
/-- CEL_LIMIT (R256). -/
def rCelLimit (c : CoreId) : Nat := coreBase c + 0x211008
def fCelLimitLimit : Fd := ⟨47, 12⟩
/-- CEL_TOP (R256). -/
def rCelTop (c : CoreId) : Nat := coreBase c + 0x211010
def fCelTopTop : Fd := ⟨47, 7⟩
/-- CEL_STATUS (R256). -/
def rCelStatus (c : CoreId) : Nat := coreBase c + 0x211018
def fCelStatusFrames : Fd := ⟨31, 16⟩
def fCelStatusDir : Fd := ⟨1, 0⟩
/-- CEL_PEAK (R256). -/
def rCelPeak (c : CoreId) : Nat := coreBase c + 0x211020
def fCelPeakPeak : Fd := ⟨47, 7⟩
/-- BIND (R191). -/
def rBind (c : CoreId) (i : Nat) (j : Nat) : Nat := coreBase c + 0x220000 + 0x40 * i + 0x10 * j
def fBindValid : Fd := ⟨63, 63⟩
def fBindCt : Fd := ⟨62, 57⟩
def fBindBase : Fd := ⟨52, 32⟩
def fBindStride : Fd := ⟨31, 0⟩
/-- BIND_CNT (R191). -/
def rBindCnt (c : CoreId) (i : Nat) (j : Nat) : Nat := coreBase c + 0x220008 + 0x40 * i + 0x10 * j
def fBindCntWritten : Fd := ⟨31, 16⟩
/-- MESH_CORR_CNT (R192). -/
def rMeshCorrCnt (c : CoreId) : Nat := coreBase c + 0x221000
/-- BELL_RETRY_CNT (R192). -/
def rBellRetryCnt (c : CoreId) : Nat := coreBase c + 0x221008
/-- BELL_SENT_CNT (R192). -/
def rBellSentCnt (c : CoreId) : Nat := coreBase c + 0x221010
/-- PORT_SLOT (R35). -/
def rPortSlot (c : CoreId) (i : Nat) (j : Nat) : Nat := coreBase c + 0x280000 + 0x2000 * i + 0x8 * j
/-- PORT_SLOT_CFG (R35). -/
def rPortSlotCfg (c : CoreId) : Nat := coreBase c + 0x2F0000
def fPortSlotCfgPeriodLog2 : Fd := ⟨3, 0⟩
/-- CNT_CTL (R50). -/
def rCntCtl (c : CoreId) : Nat := coreBase c + 0x300000
def fCntCtlFreeze : Fd := ⟨1, 1⟩
def fCntCtlClear : Fd := ⟨0, 0⟩
/-- ISSUE_CNT (R50). -/
def rIssueCnt (c : CoreId) : Nat := coreBase c + 0x300008
/-- HALT_CNT (R50). -/
def rHaltCnt (c : CoreId) : Nat := coreBase c + 0x300010
/-- STREAM_TMO_US (R50). -/
def rStreamTmoUs (c : CoreId) : Nat := coreBase c + 0x300018
def fStreamTmoUsTmo : Fd := ⟨16, 0⟩
/-- STALL_CNT (R50). -/
def rStallCnt (c : CoreId) (i : Nat) : Nat := coreBase c + 0x300080 + 0x8 * i
/-- ARR_IDLE_CNT (R50). -/
def rArrIdleCnt (c : CoreId) (i : Nat) : Nat := coreBase c + 0x300100 + 0x8 * i
/-- VEC_IDLE_CNT (R50). -/
def rVecIdleCnt (c : CoreId) (i : Nat) : Nat := coreBase c + 0x300180 + 0x8 * i
/-- STRM_IDLE_CNT (R50). -/
def rStrmIdleCnt (c : CoreId) (i : Nat) : Nat := coreBase c + 0x300200 + 0x8 * i
/-- ARR_NOWORK_CNT (R50). -/
def rArrNoworkCnt (c : CoreId) : Nat := coreBase c + 0x300280
/-- VEC_NOWORK_CNT (R50). -/
def rVecNoworkCnt (c : CoreId) : Nat := coreBase c + 0x300288
/-- STRM_NOWORK_CNT (R50). -/
def rStrmNoworkCnt (c : CoreId) : Nat := coreBase c + 0x300290
/-- EDGE_INFO (R51). -/
def rEdgeInfo (h : Nat) (i : Nat) : Nat := hallBase h + 0x400000 + 0x100 * i
def fEdgeInfoKind : Fd := ⟨15, 12⟩
def fEdgeInfoIndex : Fd := ⟨11, 4⟩
def fEdgeInfoCap : Fd := ⟨3, 0⟩
/-- EDGE_BEATS_IN (R51). -/
def rEdgeBeatsIn (h : Nat) (i : Nat) : Nat := hallBase h + 0x400008 + 0x100 * i
/-- EDGE_BEATS_OUT (R51). -/
def rEdgeBeatsOut (h : Nat) (i : Nat) : Nat := hallBase h + 0x400010 + 0x100 * i
/-- EDGE_SLOTS_IN (R51). -/
def rEdgeSlotsIn (h : Nat) (i : Nat) : Nat := hallBase h + 0x400018 + 0x100 * i
/-- EDGE_SLOTS_OUT (R51). -/
def rEdgeSlotsOut (h : Nat) (i : Nat) : Nat := hallBase h + 0x400020 + 0x100 * i
/-- EDGE_HOLD_CC (R51). -/
def rEdgeHoldCc (h : Nat) (i : Nat) : Nat := hallBase h + 0x400028 + 0x100 * i
/-- EDGE_CTL (R51). -/
def rEdgeCtl (h : Nat) (i : Nat) : Nat := hallBase h + 0x400030 + 0x100 * i
def fEdgeCtlClear : Fd := ⟨0, 0⟩
/-- LANE_TAB (R174). -/
def rLaneTab (h : Nat) (i : Nat) (j : Nat) (k : Nat) : Nat := hallBase h + 0x410000 + 0x8000 * i + 0x2000 * j + 0x8 * k
/-- ARR_CTX_CFG (R100). -/
def rArrCtxCfg (h : Nat) (i : Nat) : Nat := hallBase h + 0x500000 + 0x8 * i
def fArrCtxCfgTolFactor : Fd := ⟨8, 4⟩
def fArrCtxCfgCheck : Fd := ⟨0, 0⟩
/-- ARR_STATUS (R101). -/
def rArrStatus (h : Nat) (i : Nat) : Nat := hallBase h + 0x510000 + 0x40 * i
def fArrStatusChainLen : Fd := ⟨23, 16⟩
def fArrStatusStrikes : Fd := ⟨15, 8⟩
def fArrStatusRetirePend : Fd := ⟨3, 3⟩
def fArrStatusChainOpen : Fd := ⟨2, 2⟩
def fArrStatusReexec : Fd := ⟨1, 1⟩
def fArrStatusBusy : Fd := ⟨0, 0⟩
/-- ARR_PASS_CNT (R102). -/
def rArrPassCnt (h : Nat) (i : Nat) : Nat := hallBase h + 0x510008 + 0x40 * i
/-- ARR_CHECK_FAIL_CNT (R102). -/
def rArrCheckFailCnt (h : Nat) (i : Nat) : Nat := hallBase h + 0x510010 + 0x40 * i
/-- ARR_REEXEC_CNT (R102). -/
def rArrReexecCnt (h : Nat) (i : Nat) : Nat := hallBase h + 0x510018 + 0x40 * i
/-- ARR_DISCARD_CNT (R102). -/
def rArrDiscardCnt (h : Nat) (i : Nat) : Nat := hallBase h + 0x510020 + 0x40 * i
/-- ARR_NONFINITE_CNT (R102). -/
def rArrNonfiniteCnt (h : Nat) (i : Nat) : Nat := hallBase h + 0x510028 + 0x40 * i
/-- ARR_MAC_CNT (R102). -/
def rArrMacCnt (h : Nat) (i : Nat) : Nat := hallBase h + 0x510030 + 0x40 * i
/-- ARR_CNT_CTL (R102). -/
def rArrCntCtl (h : Nat) (i : Nat) : Nat := hallBase h + 0x510038 + 0x40 * i
def fArrCntCtlClear : Fd := ⟨0, 0⟩
/-- SYNC_CTX_CFG (R240). -/
def rSyncCtxCfg (h : Nat) (i : Nat) : Nat := hallBase h + 0x580000 + 0x8 * i
def fSyncCtxCfgOrphanStop : Fd := ⟨17, 17⟩
def fSyncCtxCfgTmoMs : Fd := ⟨15, 0⟩
/-- CEL_CTX_CFG (R257). -/
def rCelCtxCfg (h : Nat) (i : Nat) : Nat := hallBase h + 0x590000 + 0x8 * i
def fCelCtxCfgStages : Fd := ⟨20, 16⟩
def fCelCtxCfgEven : Fd := ⟨13, 13⟩
def fCelCtxCfgLeadKib : Fd := ⟨12, 0⟩
/-- CEL_STAGE (R257). -/
def rCelStage (h : Nat) (i : Nat) (j : Nat) : Nat := hallBase h + 0x590100 + 0x80 * i + 0x8 * j
def fCelStageVpage : Fd := ⟨47, 21⟩
def fCelStageSlice : Fd := ⟨19, 0⟩
/-- GRID_STATUS (R188). -/
def rGridStatus (h : Nat) : Nat := hallBase h + 0x600000
def fGridStatusHoles : Fd := ⟨15, 8⟩
def fGridStatusFail : Fd := ⟨7, 4⟩
def fGridStatusBuilt : Fd := ⟨0, 0⟩
/-- GRID_COL (R188). -/
def rGridCol (h : Nat) (i : Nat) : Nat := hallBase h + 0x600100 + 0x8 * i
def fGridColHoleRow : Fd := ⟨59, 56⟩
def fGridColHoleCnt : Fd := ⟨55, 52⟩
def fGridColBypass : Fd := ⟨51, 48⟩
def fGridColExcluded : Fd := ⟨44, 32⟩
def fGridColRetire : Fd := ⟨28, 16⟩
def fGridColFuseBad : Fd := ⟨12, 0⟩
/-- HALL_CLK (R404). -/
def rHallClk (h : Nat) : Nat := hallBase h + 0x680000
def fHallClkLockFails : Fd := ⟨23, 16⟩
def fHallClkPllLock : Fd := ⟨9, 9⟩
def fHallClkPllOn : Fd := ⟨8, 8⟩
def fHallClkGear : Fd := ⟨2, 0⟩
/-- STK_CFG (R215). -/
def rStkCfg (h : Nat) (i : Nat) : Nat := hallBase h + 0x700000 + 0x10000 * i
def fStkCfgScrubH : Fd := ⟨47, 40⟩
def fStkCfgSlowUs : Fd := ⟨39, 24⟩
def fStkCfgDemandRsv : Fd := ⟨23, 16⟩
def fStkCfgBankSlotMax : Fd := ⟨8, 0⟩
/-- STK_STATUS (R215). -/
def rStkStatus (h : Nat) (i : Nat) : Nat := hallBase h + 0x700008 + 0x10000 * i
def fStkStatusSlotsUsed : Fd := ⟨41, 33⟩
def fStkStatusBankPeak : Fd := ⟨32, 24⟩
def fStkStatusSlowBanks : Fd := ⟨23, 12⟩
def fStkStatusReady : Fd := ⟨0, 0⟩
/-- STK_HIT_CNT (R215). -/
def rStkHitCnt (h : Nat) (i : Nat) : Nat := hallBase h + 0x700010 + 0x10000 * i
/-- STK_MISS_CNT (R215). -/
def rStkMissCnt (h : Nat) (i : Nat) : Nat := hallBase h + 0x700018 + 0x10000 * i
/-- STK_MERGE_CNT (R215). -/
def rStkMergeCnt (h : Nat) (i : Nat) : Nat := hallBase h + 0x700020 + 0x10000 * i
/-- STK_REFUSE_CNT (R215). -/
def rStkRefuseCnt (h : Nat) (i : Nat) : Nat := hallBase h + 0x700028 + 0x10000 * i
/-- STK_WB_CNT (R215). -/
def rStkWbCnt (h : Nat) (i : Nat) : Nat := hallBase h + 0x700030 + 0x10000 * i
/-- STK_PF_ISSUE_CNT (R215). -/
def rStkPfIssueCnt (h : Nat) (i : Nat) : Nat := hallBase h + 0x700038 + 0x10000 * i
/-- STK_PF_DROP_CNT (R215). -/
def rStkPfDropCnt (h : Nat) (i : Nat) : Nat := hallBase h + 0x700040 + 0x10000 * i
/-- STK_PF_USE_CNT (R215). -/
def rStkPfUseCnt (h : Nat) (i : Nat) : Nat := hallBase h + 0x700048 + 0x10000 * i
/-- STK_CORR_CNT (R215). -/
def rStkCorrCnt (h : Nat) (i : Nat) : Nat := hallBase h + 0x700050 + 0x10000 * i
/-- STK_UNCORR_CNT (R215). -/
def rStkUncorrCnt (h : Nat) (i : Nat) : Nat := hallBase h + 0x700058 + 0x10000 * i
/-- STK_ATOMIC_CNT (R215). -/
def rStkAtomicCnt (h : Nat) (i : Nat) : Nat := hallBase h + 0x700060 + 0x10000 * i
/-- STK_CNT_CTL (R215). -/
def rStkCntCtl (h : Nat) (i : Nat) : Nat := hallBase h + 0x700068 + 0x10000 * i
def fStkCntCtlClear : Fd := ⟨0, 0⟩
/-- TR_CTX (R216). -/
def rTrCtx (h : Nat) (i : Nat) : Nat := hallBase h + 0x780000 + 0x8 * i
def fTrCtxPfLines : Fd := ⟨25, 16⟩
def fTrCtxEn : Fd := ⟨0, 0⟩
/-- TR_INVAL (R216). -/
def rTrInval (h : Nat) : Nat := hallBase h + 0x780040
def fTrInvalBusy : Fd := ⟨63, 63⟩
def fTrInvalAll : Fd := ⟨62, 62⟩
def fTrInvalCtx : Fd := ⟨58, 56⟩
def fTrInvalVpn : Fd := ⟨18, 0⟩
/-- TR_FAULT (R216). -/
def rTrFault (h : Nat) (i : Nat) : Nat := hallBase h + 0x780080 + 0x10 * i
def fTrFaultValid : Fd := ⟨63, 63⟩
def fTrFaultAccess : Fd := ⟨53, 52⟩
def fTrFaultKind : Fd := ⟨51, 48⟩
def fTrFaultVa : Fd := ⟨47, 0⟩
/-- TR_FAULT2 (R216). -/
def rTrFault2 (h : Nat) (i : Nat) : Nat := hallBase h + 0x780088 + 0x10 * i
def fTrFault2Hall : Fd := ⟨23, 21⟩
def fTrFault2Row : Fd := ⟨20, 17⟩
def fTrFault2Col : Fd := ⟨16, 13⟩
def fTrFault2Entry : Fd := ⟨12, 7⟩
/-- TR_WALK_CNT (R216). -/
def rTrWalkCnt (h : Nat) : Nat := hallBase h + 0x780100
/-- TR_FAULT_CNT (R216). -/
def rTrFaultCnt (h : Nat) : Nat := hallBase h + 0x780108
/-- TR_CNT_CTL (R216). -/
def rTrCntCtl (h : Nat) : Nat := hallBase h + 0x780110
def fTrCntCtlClear : Fd := ⟨0, 0⟩
/-- HR_CTL (R349). -/
def rHrCtl : Nat := dieSpace + 0x1000000
def fHrCtlPfcPrio : Fd := ⟨11, 9⟩
def fHrCtlPfcEn : Fd := ⟨8, 8⟩
def fHrCtlEnable : Fd := ⟨3, 3⟩
def fHrCtlCtx : Fd := ⟨2, 0⟩
/-- HR_STATUS (R349). -/
def rHrStatus : Nat := dieSpace + 0x1000008
def fHrStatusActive : Fd := ⟨11, 8⟩
def fHrStatusBusy : Fd := ⟨7, 0⟩
/-- HR_RECIPE (R349). -/
def rHrRecipe : Nat := dieSpace + 0x1000010
def fHrRecipeVa : Fd := ⟨47, 6⟩
/-- HR_PFC_CFG (R349). -/
def rHrPfcCfg : Nat := dieSpace + 0x1000018
def fHrPfcCfgXoffFree : Fd := ⟨16, 0⟩
def fHrPfcCfgXonFree : Fd := ⟨33, 17⟩
/-- HR_SCRATCH (R349). -/
def rHrScratch : Nat := dieSpace + 0x1000020
def fHrScratchBase : Fd := ⟨47, 33⟩
/-- HR_SHARE (R349). -/
def rHrShare (i : Nat) : Nat := dieSpace + 0x1000040 + 0x8 * i
def fHrShareMax : Fd := ⟨7, 4⟩
def fHrShareMin : Fd := ⟨3, 0⟩
/-- HR_RING_CFG (R350). -/
def rHrRingCfg (i : Nat) : Nat := dieSpace + 0x1001000 + 0x20 * i
def fHrRingCfgEn : Fd := ⟨63, 63⟩
def fHrRingCfgLog2 : Fd := ⟨52, 48⟩
def fHrRingCfgBase : Fd := ⟨47, 12⟩
/-- HR_RING_PROD (R350). -/
def rHrRingProd (i : Nat) : Nat := dieSpace + 0x1001008 + 0x20 * i
def fHrRingProdProd : Fd := ⟨31, 0⟩
/-- HR_RING_CONS (R350). -/
def rHrRingCons (i : Nat) : Nat := dieSpace + 0x1001010 + 0x20 * i
def fHrRingConsCons : Fd := ⟨31, 0⟩
/-- HR_CLIP_CNT (R351). -/
def rHrClipCnt : Nat := dieSpace + 0x1002000
/-- HR_SAMPLE_CNT (R351). -/
def rHrSampleCnt : Nat := dieSpace + 0x1002008
/-- HR_FRAME_CNT (R351). -/
def rHrFrameCnt : Nat := dieSpace + 0x1002010
/-- HR_DECODE_CNT (R351). -/
def rHrDecodeCnt : Nat := dieSpace + 0x1002018
/-- HR_PIXEL_CNT (R351). -/
def rHrPixelCnt : Nat := dieSpace + 0x1002020
/-- HR_DROP_CNT (R351). -/
def rHrDropCnt (i : Nat) : Nat := dieSpace + 0x1002040 + 0x8 * i
/-- HR_CNT_CTL (R351). -/
def rHrCntCtl : Nat := dieSpace + 0x1002080
def fHrCntCtlClear : Fd := ⟨0, 0⟩
/-- MP_CFG (R352). -/
def rMpCfg : Nat := dieSpace + 0x2000000
def fMpCfgEn : Fd := ⟨63, 63⟩
def fMpCfgCtx : Fd := ⟨62, 60⟩
def fMpCfgGroup : Fd := ⟨59, 50⟩
def fMpCfgXchEn : Fd := ⟨49, 49⟩
def fMpCfgXchTag : Fd := ⟨48, 33⟩
def fMpCfgXchK : Fd := ⟨32, 20⟩
def fMpCfgSlots : Fd := ⟨16, 0⟩
/-- MP_POOL (R352). -/
def rMpPool : Nat := dieSpace + 0x2000008
def fMpPoolSlotSize : Fd := ⟨62, 48⟩
def fMpPoolBase : Fd := ⟨47, 12⟩
/-- MP_SEED (R352). -/
def rMpSeed : Nat := dieSpace + 0x2000010
def fMpSeedSeed : Fd := ⟨63, 0⟩
/-- MP_DRAW (R352). -/
def rMpDraw : Nat := dieSpace + 0x2000018
def fMpDrawDraw : Fd := ⟨63, 0⟩
/-- MP_STATUS0 (R352). -/
def rMpStatus0 : Nat := dieSpace + 0x2000028
def fMpStatus0Ready : Fd := ⟨50, 34⟩
def fMpStatus0Held : Fd := ⟨33, 17⟩
def fMpStatus0Free : Fd := ⟨16, 0⟩
/-- MP_STATUS1 (R352). -/
def rMpStatus1 : Nat := dieSpace + 0x2000030
def fMpStatus1Filling : Fd := ⟨50, 34⟩
def fMpStatus1Reserve : Fd := ⟨33, 17⟩
def fMpStatus1Exch : Fd := ⟨16, 0⟩
/-- MP_Q_CFG (R353). -/
def rMpQCfg (i : Nat) : Nat := dieSpace + 0x2000100 + 0x20 * i
def fMpQCfgEn : Fd := ⟨63, 63⟩
def fMpQCfgLog2depth : Fd := ⟨62, 59⟩
def fMpQCfgRingVa : Fd := ⟨47, 5⟩
/-- MP_Q_CT (R353). -/
def rMpQCt (i : Nat) : Nat := dieSpace + 0x2000108 + 0x20 * i
def fMpQCtReqVsem : Fd := ⟨47, 34⟩
def fMpQCtCtKind : Fd := ⟨33, 32⟩
def fMpQCtCtId : Fd := ⟨31, 18⟩
def fMpQCtPos : Fd := ⟨10, 0⟩
/-- MP_Q_SEQ (R353). -/
def rMpQSeq (i : Nat) : Nat := dieSpace + 0x2000110 + 0x20 * i
def fMpQSeqSeq : Fd := ⟨31, 0⟩
/-- MP_Q_HELD (R353). -/
def rMpQHeld (i : Nat) : Nat := dieSpace + 0x2000118 + 0x20 * i
def fMpQHeldHeld : Fd := ⟨16, 0⟩
/-- MP_IN_CNT (R354). -/
def rMpInCnt : Nat := dieSpace + 0x2000400
/-- MP_REL_CNT (R354). -/
def rMpRelCnt : Nat := dieSpace + 0x2000408
/-- MP_XCH_TX_CNT (R354). -/
def rMpXchTxCnt : Nat := dieSpace + 0x2000410
/-- MP_XCH_RX_CNT (R354). -/
def rMpXchRxCnt : Nat := dieSpace + 0x2000418
/-- MP_XCH_VOID_CNT (R354). -/
def rMpXchVoidCnt : Nat := dieSpace + 0x2000420
/-- MP_EMPTY_NS (R354). -/
def rMpEmptyNs : Nat := dieSpace + 0x2000428
/-- MP_FULL_NS (R354). -/
def rMpFullNs : Nat := dieSpace + 0x2000430
/-- MP_PAUSE_CNT (R354). -/
def rMpPauseCnt : Nat := dieSpace + 0x2000438
/-- MP_CNT_CTL (R354). -/
def rMpCntCtl : Nat := dieSpace + 0x2000440
def fMpCntCtlClear : Fd := ⟨0, 0⟩
/-- EBC_BUDGET (R402). -/
def rEbcBudget : Nat := dieSpace + 0x3000000
def fEbcBudgetBudgetW : Fd := ⟨11, 0⟩
/-- EBC_CTL (R402). -/
def rEbcCtl : Nat := dieSpace + 0x3000008
def fEbcCtlJoinUs : Fd := ⟨47, 32⟩
def fEbcCtlDozeMs : Fd := ⟨31, 16⟩
def fEbcCtlRefRetry : Fd := ⟨8, 8⟩
def fEbcCtlGearForce : Fd := ⟨6, 4⟩
def fEbcCtlG4En : Fd := ⟨1, 1⟩
def fEbcCtlGateEn : Fd := ⟨0, 0⟩
/-- EBC_STATUS (R402). -/
def rEbcStatus : Nat := dieSpace + 0x3000010
def fEbcStatusEffW : Fd := ⟨31, 20⟩
def fEbcStatusRefSrc : Fd := ⟨17, 16⟩
def fEbcStatusRefFailover : Fd := ⟨14, 14⟩
def fEbcStatusHot : Fd := ⟨13, 13⟩
def fEbcStatusG4Ok : Fd := ⟨12, 12⟩
def fEbcStatusGateLevel : Fd := ⟨11, 8⟩
def fEbcStatusShare : Fd := ⟨7, 4⟩
def fEbcStatusGear : Fd := ⟨2, 0⟩
/-- EBC_TEMP_CFG (R402). -/
def rEbcTempCfg : Nat := dieSpace + 0x3000018
def fEbcTempCfgHotC : Fd := ⟨15, 8⟩
def fEbcTempCfgG4C : Fd := ⟨7, 0⟩
/-- EBC_ENG (R402). -/
def rEbcEng : Nat := dieSpace + 0x3000020
def fEbcEngEngInitW : Fd := ⟨15, 8⟩
def fEbcEngEngW : Fd := ⟨7, 0⟩
/-- EBC_IN (R402). -/
def rEbcIn : Nat := dieSpace + 0x3000028
def fEbcInIinMa : Fd := ⟨48, 32⟩
def fEbcInVinMv : Fd := ⟨15, 0⟩
/-- EBC_WIN (R402). -/
def rEbcWin : Nat := dieSpace + 0x3000030
def fEbcWinWinMj : Fd := ⟨31, 0⟩
/-- EBC_STEP_MJ (R402). -/
def rEbcStepMj : Nat := dieSpace + 0x3000038
def fEbcStepMjLastStepMj : Fd := ⟨31, 0⟩
/-- EBC_STEP_US (R402). -/
def rEbcStepUs : Nat := dieSpace + 0x3000040
def fEbcStepUsLastStepUs : Fd := ⟨31, 0⟩
/-- EBC_BASE (R402). -/
def rEbcBase (i : Nat) : Nat := dieSpace + 0x3000080 + 0x8 * i
def fEbcBaseBaseW : Fd := ⟨11, 0⟩
/-- MOD_J (R403). -/
def rModJ : Nat := dieSpace + 0x3000100
/-- HALL_J (R403). -/
def rHallJ (i : Nat) : Nat := dieSpace + 0x3000108 + 0x8 * i
/-- STACK_J (R403). -/
def rStackJ (i : Nat) : Nat := dieSpace + 0x3000148 + 0x8 * i
/-- LINK_J (R403). -/
def rLinkJ : Nat := dieSpace + 0x30001A8
/-- FRONT_J (R403). -/
def rFrontJ : Nat := dieSpace + 0x30001B0
/-- HEADRACE_J (R403). -/
def rHeadraceJ : Nat := dieSpace + 0x30001B8
/-- OTHER_J (R403). -/
def rOtherJ : Nat := dieSpace + 0x30001C0
/-- GATE_NS (R403). -/
def rGateNs : Nat := dieSpace + 0x30001C8
/-- EBC_CNT_CTL (R403). -/
def rEbcCntCtl : Nat := dieSpace + 0x30001D0
def fEbcCntCtlClear : Fd := ⟨0, 0⟩
/-- EBC_TEMP (R402). -/
def rEbcTemp (i : Nat) : Nat := dieSpace + 0x3000200 + 0x8 * i
def fEbcTempTemp : Fd := ⟨15, 0⟩
/-- EBC_EST (R402). -/
def rEbcEst (i : Nat) (j : Nat) : Nat := dieSpace + 0x3000400 + 0x40 * i + 0x8 * j
def fEbcEstTUs : Fd := ⟨63, 32⟩
def fEbcEstEMj : Fd := ⟨31, 0⟩
/-- RST_CAUSE (R430). -/
def rRstCause : Nat := dieSpace + 0x4000000
def fRstCauseTrip : Fd := ⟨23, 16⟩
def fRstCausePending : Fd := ⟨15, 8⟩
def fRstCauseCause : Fd := ⟨7, 0⟩
/-- START_STATUS (R430). -/
def rStartStatus : Nat := dieSpace + 0x4000008
def fStartStatusBootSrc : Fd := ⟨31, 30⟩
def fStartStatusClkMode : Fd := ⟨29, 28⟩
def fStartStatusBank : Fd := ⟨27, 26⟩
def fStartStatusStable : Fd := ⟨25, 25⟩
def fStartStatusConsecFail : Fd := ⟨23, 16⟩
/-- WDT_CFG (R430). -/
def rWdtCfg : Nat := dieSpace + 0x4000010
def fWdtCfgWdtMs : Fd := ⟨15, 0⟩
/-- WDT_KICK (R430). -/
def rWdtKick : Nat := dieSpace + 0x4000018
def fWdtKickKick : Fd := ⟨0, 0⟩
/-- HALL_RST (R430). -/
def rHallRst : Nat := dieSpace + 0x4000020
def fHallRstReason : Fd := ⟨27, 24⟩
def fHallRstBusy : Fd := ⟨23, 16⟩
def fHallRstReq : Fd := ⟨7, 0⟩
/-- PIN_CTL (R430). -/
def rPinCtl : Nat := dieSpace + 0x4000028
def fPinCtlRelease : Fd := ⟨0, 0⟩
/-- MOD_PINS (R460). -/
def rModPins : Nat := dieSpace + 0x4000030
def fModPinsAlertForce : Fd := ⟨7, 7⟩
def fModPinsAlert : Fd := ⟨6, 6⟩
def fModPinsThrottle : Fd := ⟨5, 5⟩
/-- EVR_STATUS (R450). -/
def rEvrStatus : Nat := dieSpace + 0x5000000
def fEvrStatusNextSeq : Fd := ⟨63, 32⟩
def fEvrStatusCalSet : Fd := ⟨31, 31⟩
def fEvrStatusFlushBusy : Fd := ⟨30, 30⟩
def fEvrStatusBufUsed : Fd := ⟨10, 0⟩
/-- EVR_CAL_SET (R450). -/
def rEvrCalSet : Nat := dieSpace + 0x5000008
def fEvrCalSetCalSetNs : Fd := ⟨63, 0⟩
/-- EVR_CAL_NOW (R450). -/
def rEvrCalNow : Nat := dieSpace + 0x5000010
def fEvrCalNowCalNow : Fd := ⟨63, 0⟩
/-- EVR_FLUSH (R450). -/
def rEvrFlush : Nat := dieSpace + 0x5000018
def fEvrFlushFlush : Fd := ⟨0, 0⟩
/-- DUMP_CFG (R451). -/
def rDumpCfg : Nat := dieSpace + 0x5000020
def fDumpCfgScope : Fd := ⟨5, 5⟩
def fDumpCfgOnPll : Fd := ⟨4, 4⟩
def fDumpCfgOnGroup : Fd := ⟨3, 3⟩
def fDumpCfgOnFault : Fd := ⟨2, 2⟩
def fDumpCfgReq : Fd := ⟨1, 1⟩
def fDumpCfgArm : Fd := ⟨0, 0⟩
/-- DUMP_STATUS (R451). -/
def rDumpStatus : Nat := dieSpace + 0x5000028
def fDumpStatusDumpSeq : Fd := ⟨63, 32⟩
def fDumpStatusTrigger : Fd := ⟨31, 16⟩
def fDumpStatusBusy : Fd := ⟨1, 1⟩
def fDumpStatusValid : Fd := ⟨0, 0⟩
/-- DIAG_SNAP (R450). -/
def rDiagSnap : Nat := dieSpace + 0x5000030
def fDiagSnapFreeze : Fd := ⟨0, 0⟩
/-- DIAG_SNAP_SLOT (R450). -/
def rDiagSnapSlot : Nat := dieSpace + 0x5000038
def fDiagSnapSlotSnapSlot : Fd := ⟨47, 0⟩
/-- EVR_ACCEPT_CNT (R452). -/
def rEvrAcceptCnt : Nat := dieSpace + 0x5000100
/-- EVR_DROP_CNT (R452). -/
def rEvrDropCnt : Nat := dieSpace + 0x5000108
/-- EVR_FLASH_CNT (R452). -/
def rEvrFlashCnt : Nat := dieSpace + 0x5000110
/-- EVR_ERASE_CNT (R452). -/
def rEvrEraseCnt : Nat := dieSpace + 0x5000118
/-- DUMP_CNT (R452). -/
def rDumpCnt : Nat := dieSpace + 0x5000120
/-- EVR_CNT_CTL (R452). -/
def rEvrCntCtl : Nat := dieSpace + 0x5000128
def fEvrCntCtlClear : Fd := ⟨0, 0⟩
/-- SEC_STATUS (R431). -/
def rSecStatus : Nat := dieSpace + 0x6000000
def fSecStatusFusedSvn : Fd := ⟨63, 56⟩
def fSecStatusKeyRevoked : Fd := ⟨51, 48⟩
def fSecStatusTpiFmtMax : Fd := ⟨47, 40⟩
def fSecStatusKeyFused : Fd := ⟨39, 36⟩
def fSecStatusRomVer : Fd := ⟨31, 16⟩
/-- SEC_CFG (R431). -/
def rSecCfg : Nat := dieSpace + 0x6000008
def fSecCfgBootServe : Fd := ⟨1, 1⟩
def fSecCfgProgSigReq : Fd := ⟨0, 0⟩
/-- SEC_PROG_KEYHASH (R431). -/
def rSecProgKeyhash (i : Nat) : Nat := dieSpace + 0x6000040 + 0x8 * i
def fSecProgKeyhashHash : Fd := ⟨63, 0⟩
/-- ETH_STATUS (R383). -/
def rEthStatus : Nat := dieSpace + 0x7000000
def fEthStatusPcsUp : Fd := ⟨3, 3⟩
def fEthStatusPhase : Fd := ⟨1, 0⟩
/-- ETH_MAC (R383). -/
def rEthMac : Nat := dieSpace + 0x7000008
def fEthMacMac : Fd := ⟨47, 0⟩
/-- ETH_IP6_HI (R383). -/
def rEthIp6Hi : Nat := dieSpace + 0x7000010
def fEthIp6HiIp6Hi : Fd := ⟨63, 0⟩
/-- ETH_IP6_LO (R383). -/
def rEthIp6Lo : Nat := dieSpace + 0x7000018
def fEthIp6LoIp6Lo : Fd := ⟨63, 0⟩
/-- ETH_GW_MAC (R383). -/
def rEthGwMac : Nat := dieSpace + 0x7000020
def fEthGwMacGwMac : Fd := ⟨47, 0⟩
/-- THP_CFG (R383). -/
def rThpCfg : Nat := dieSpace + 0x7000028
def fThpCfgRtoUs : Fd := ⟨47, 32⟩
def fThpCfgIdleS : Fd := ⟨31, 16⟩
def fThpCfgMaxPayload : Fd := ⟨15, 0⟩
/-- THP_RX_CNT (R383). -/
def rThpRxCnt : Nat := dieSpace + 0x7000100
/-- THP_TX_CNT (R383). -/
def rThpTxCnt : Nat := dieSpace + 0x7000108
/-- THP_DUP_CNT (R383). -/
def rThpDupCnt : Nat := dieSpace + 0x7000110
/-- THP_DROP_CNT (R383). -/
def rThpDropCnt : Nat := dieSpace + 0x7000118
/-- THP_BUSY_CNT (R383). -/
def rThpBusyCnt : Nat := dieSpace + 0x7000120
/-- RDMA_RX_CNT (R383). -/
def rRdmaRxCnt : Nat := dieSpace + 0x7000128
/-- RDMA_NAK_CNT (R383). -/
def rRdmaNakCnt : Nat := dieSpace + 0x7000130
/-- ETH_FCS_ERR_CNT (R383). -/
def rEthFcsErrCnt : Nat := dieSpace + 0x7000138
/-- THP_CNT_CTL (R383). -/
def rThpCntCtl : Nat := dieSpace + 0x7000140
def fThpCntCtlClear : Fd := ⟨0, 0⟩
/-- LINK_CTL (R290). -/
def rLinkCtl (i : Nat) : Nat := dieSpace + 0x8000000 + 0x10000 * i
def fLinkCtlFpLog2 : Fd := ⟨11, 8⟩
def fLinkCtlMode : Fd := ⟨5, 5⟩
def fLinkCtlRetrain : Fd := ⟨4, 4⟩
def fLinkCtlOpen : Fd := ⟨1, 1⟩
def fLinkCtlEnable : Fd := ⟨0, 0⟩
/-- LINK_STATUS (R290). -/
def rLinkStatus (i : Nat) : Nat := dieSpace + 0x8000008 + 0x10000 * i
def fLinkStatusPeerId : Fd := ⟨63, 40⟩
def fLinkStatusPeerLink : Fd := ⟨39, 35⟩
def fLinkStatusLastDown : Fd := ⟨31, 28⟩
def fLinkStatusBulkUnreach : Fd := ⟨19, 19⟩
def fLinkStatusPeerReady : Fd := ⟨18, 18⟩
def fLinkStatusTableOk : Fd := ⟨17, 17⟩
def fLinkStatusState : Fd := ⟨3, 0⟩
/-- LINK_CFG (R290). -/
def rLinkCfg (i : Nat) : Nat := dieSpace + 0x8000010 + 0x10000 * i
def fLinkCfgCorrAlarm : Fd := ⟨47, 32⟩
def fLinkCfgMcastUs : Fd := ⟨16, 0⟩
/-- LINK_PEER_EXP (R290). -/
def rLinkPeerExp (i : Nat) : Nat := dieSpace + 0x8000018 + 0x10000 * i
def fLinkPeerExpAny : Fd := ⟨24, 24⟩
def fLinkPeerExpDev : Fd := ⟨23, 0⟩
/-- LINK_LAT (R290). -/
def rLinkLat (i : Nat) : Nat := dieSpace + 0x8000020 + 0x10000 * i
def fLinkLatLatPs : Fd := ⟨31, 0⟩
/-- LINK_FRAMES_TX_CNT (R292). -/
def rLinkFramesTxCnt (i : Nat) : Nat := dieSpace + 0x8000100 + 0x10000 * i
/-- LINK_BULK_TX_CNT (R292). -/
def rLinkBulkTxCnt (i : Nat) : Nat := dieSpace + 0x8000108 + 0x10000 * i
/-- LINK_BULK_RX_CNT (R292). -/
def rLinkBulkRxCnt (i : Nat) : Nat := dieSpace + 0x8000110 + 0x10000 * i
/-- LINK_CTL_TX_CNT (R292). -/
def rLinkCtlTxCnt (i : Nat) : Nat := dieSpace + 0x8000118 + 0x10000 * i
/-- LINK_CTL_RX_CNT (R292). -/
def rLinkCtlRxCnt (i : Nat) : Nat := dieSpace + 0x8000120 + 0x10000 * i
/-- LINK_FEC_CORR_CNT (R292). -/
def rLinkFecCorrCnt (i : Nat) : Nat := dieSpace + 0x8000128 + 0x10000 * i
/-- LINK_NOCREDIT_CNT (R292). -/
def rLinkNocreditCnt (i : Nat) : Nat := dieSpace + 0x8000130 + 0x10000 * i
/-- LINK_DISCARD_CNT (R292). -/
def rLinkDiscardCnt (i : Nat) : Nat := dieSpace + 0x8000138 + 0x10000 * i
/-- LINK_HOLD_NS (R292). -/
def rLinkHoldNs (i : Nat) : Nat := dieSpace + 0x8000140 + 0x10000 * i
/-- LINK_STALE_CNT (R292). -/
def rLinkStaleCnt (i : Nat) : Nat := dieSpace + 0x8000148 + 0x10000 * i
/-- LINK_CTL_BAD_CNT (R292). -/
def rLinkCtlBadCnt (i : Nat) : Nat := dieSpace + 0x8000150 + 0x10000 * i
/-- LINK_DOWN_CNT (R292). -/
def rLinkDownCnt (i : Nat) : Nat := dieSpace + 0x8000158 + 0x10000 * i
/-- LINK_CNT_CTL (R292). -/
def rLinkCntCtl (i : Nat) : Nat := dieSpace + 0x8000160 + 0x10000 * i
def fLinkCntCtlClear : Fd := ⟨0, 0⟩
/-- LINK_TXSLOT (R291). -/
def rLinkTxslot (i : Nat) (j : Nat) : Nat := dieSpace + 0x8001000 + 0x10000 * i + 0x8 * j
/-- LINK_RXSLOT (R291). -/
def rLinkRxslot (i : Nat) (j : Nat) : Nat := dieSpace + 0x8001800 + 0x10000 * i + 0x8 * j
/-- LINK_LANE_MAP (R291). -/
def rLinkLaneMap (i : Nat) (j : Nat) : Nat := dieSpace + 0x8002000 + 0x10000 * i + 0x8 * j
/-- LINK_FLOW (R291). -/
def rLinkFlow (i : Nat) (j : Nat) : Nat := dieSpace + 0x8008000 + 0x10000 * i + 0x10 * j
def fLinkFlowCtx : Fd := ⟨52, 50⟩
def fLinkFlowPos : Fd := ⟨49, 39⟩
def fLinkFlowSc : Fd := ⟨38, 33⟩
def fLinkFlowEgPost : Fd := ⟨32, 32⟩
def fLinkFlowEgBeats : Fd := ⟨25, 16⟩
/-- LINK_FLOW_FWD (R291). -/
def rLinkFlowFwd (i : Nat) (j : Nat) : Nat := dieSpace + 0x8008008 + 0x10000 * i + 0x10 * j
def fLinkFlowFwdFwd : Fd := ⟨23, 0⟩
/-- KFL_DEV_ID (R293). -/
def rKflDevId : Nat := dieSpace + 0x8180000
def fKflDevIdId : Fd := ⟨23, 0⟩
/-- KFL_CTX_GROUP (R293). -/
def rKflCtxGroup (i : Nat) : Nat := dieSpace + 0x8180008 + 0x8 * i
def fKflCtxGroupGroup : Fd := ⟨9, 0⟩
/-- KFL_ROUTE (R293). -/
def rKflRoute (i : Nat) : Nat := dieSpace + 0x8180100 + 0x10 * i
def fKflRouteV : Fd := ⟨63, 63⟩
def fKflRouteLink : Fd := ⟨52, 48⟩
def fKflRouteDevHi : Fd := ⟨47, 24⟩
def fKflRouteDevLo : Fd := ⟨23, 0⟩
/-- KFL_ROUTE2 (R293). -/
def rKflRoute2 (i : Nat) : Nat := dieSpace + 0x8180108 + 0x10 * i
/-- QUERN_CTX_CFG (R314). -/
def rQuernCtxCfg (i : Nat) : Nat := dieSpace + 0x9000000 + 0x8 * i
def fQuernCtxCfgRetryMax : Fd := ⟨11, 8⟩
def fQuernCtxCfgQtolFactor : Fd := ⟨4, 0⟩
/-- QST (R314). -/
def rQst (i : Nat) : Nat := dieSpace + 0x9000100 + 0x8 * i
def fQstV : Fd := ⟨63, 63⟩
def fQstGroup : Fd := ⟨62, 53⟩
def fQstRing : Fd := ⟨52, 49⟩
def fQstDir : Fd := ⟨48, 48⟩
def fQstLocalFlow : Fd := ⟨47, 42⟩
def fQstUpFlow : Fd := ⟨41, 36⟩
def fQstWireFlow : Fd := ⟨35, 30⟩
/-- QUERN_STATUS (R314). -/
def rQuernStatus : Nat := dieSpace + 0x9000800
def fQuernStatusOpen : Fd := ⟨12, 0⟩
/-- QE_STATUS (R315). -/
def rQeStatus (i : Nat) : Nat := dieSpace + 0x9001000 + 0x100 * i
def fQeStatusBufUsed : Fd := ⟨11, 0⟩
/-- QE_REC_TX_CNT (R315). -/
def rQeRecTxCnt (i : Nat) : Nat := dieSpace + 0x9001008 + 0x100 * i
/-- QE_REC_RX_CNT (R315). -/
def rQeRecRxCnt (i : Nat) : Nat := dieSpace + 0x9001010 + 0x100 * i
/-- QE_LOCAL_CNT (R315). -/
def rQeLocalCnt (i : Nat) : Nat := dieSpace + 0x9001018 + 0x100 * i
/-- QE_CHECK_CNT (R315). -/
def rQeCheckCnt (i : Nat) : Nat := dieSpace + 0x9001020 + 0x100 * i
/-- QE_CHECK_FAIL_CNT (R315). -/
def rQeCheckFailCnt (i : Nat) : Nat := dieSpace + 0x9001028 + 0x100 * i
/-- QE_RETRY_CNT (R315). -/
def rQeRetryCnt (i : Nat) : Nat := dieSpace + 0x9001030 + 0x100 * i
/-- QE_STALE_CNT (R315). -/
def rQeStaleCnt (i : Nat) : Nat := dieSpace + 0x9001038 + 0x100 * i
/-- QE_NONFINITE_CNT (R315). -/
def rQeNonfiniteCnt (i : Nat) : Nat := dieSpace + 0x9001040 + 0x100 * i
/-- QE_GATHER_CNT (R315). -/
def rQeGatherCnt (i : Nat) : Nat := dieSpace + 0x9001048 + 0x100 * i
/-- QE_CNT_CTL (R315). -/
def rQeCntCtl (i : Nat) : Nat := dieSpace + 0x9001050 + 0x100 * i
def fQeCntCtlClear : Fd := ⟨0, 0⟩
/-- SEM (R241). -/
def rSem (i : Nat) : Nat := dieSpace + 0xA000000 + 0x8 * i
def fSemAlloc : Fd := ⟨63, 63⟩
def fSemOrphan : Fd := ⟨62, 62⟩
def fSemSat : Fd := ⟨61, 61⟩
def fSemOwner : Fd := ⟨60, 58⟩
def fSemWaiters : Fd := ⟨47, 32⟩
def fSemValue : Fd := ⟨31, 0⟩
/-- SEM_MAP (R241). -/
def rSemMap (i : Nat) (j : Nat) : Nat := dieSpace + 0xA100000 + 0x20000 * i + 0x8 * j
def fSemMapValid : Fd := ⟨63, 63⟩
def fSemMapPost : Fd := ⟨62, 62⟩
def fSemMapWait : Fd := ⟨61, 61⟩
def fSemMapRemote : Fd := ⟨60, 60⟩
def fSemMapPsem : Fd := ⟨13, 0⟩
/-- WATCH_USED (R242). -/
def rWatchUsed : Nat := dieSpace + 0xA200000
def fWatchUsedRemoteUsed : Fd := ⟨28, 16⟩
def fWatchUsedLocalUsed : Fd := ⟨13, 0⟩
/-- SEM_REQ_CNT (R242). -/
def rSemReqCnt : Nat := dieSpace + 0xA200008
/-- SEM_REMOTE_CNT (R242). -/
def rSemRemoteCnt : Nat := dieSpace + 0xA200010
/-- WATCH_FIRE_CNT (R242). -/
def rWatchFireCnt : Nat := dieSpace + 0xA200018
/-- ORPHAN_REL_CNT (R242). -/
def rOrphanRelCnt : Nat := dieSpace + 0xA200020
/-- ORPHAN_DROP_CNT (R242). -/
def rOrphanDropCnt : Nat := dieSpace + 0xA200028
/-- SEM_CNT_CTL (R242). -/
def rSemCntCtl : Nat := dieSpace + 0xA200030
def fSemCntCtlClear : Fd := ⟨0, 0⟩
/-- GT_CFG (R312). -/
def rGtCfg (i : Nat) : Nat := dieSpace + 0xB000000 + 0x100 * i
def fGtCfgValid : Fd := ⟨63, 63⟩
def fGtCfgCtx : Fd := ⟨62, 60⟩
def fGtCfgRetain : Fd := ⟨59, 59⟩
def fGtCfgMiller : Fd := ⟨58, 58⟩
def fGtCfgRings : Fd := ⟨57, 54⟩
def fGtCfgMembers : Fd := ⟨47, 24⟩
def fGtCfgPos : Fd := ⟨23, 0⟩
/-- GT_STEP (R312). -/
def rGtStep (i : Nat) : Nat := dieSpace + 0xB000008 + 0x100 * i
def fGtStepEpoch : Fd := ⟨63, 48⟩
def fGtStepStep : Fd := ⟨31, 0⟩
/-- GT_CLIP (R312). -/
def rGtClip (i : Nat) : Nat := dieSpace + 0xB000010 + 0x100 * i
def fGtClipC : Fd := ⟨31, 0⟩
/-- GT_PLAN (R312). -/
def rGtPlan (i : Nat) : Nat := dieSpace + 0xB000018 + 0x100 * i
def fGtPlanPlan : Fd := ⟨47, 6⟩
/-- GT_PLANCNT (R312). -/
def rGtPlancnt (i : Nat) : Nat := dieSpace + 0xB000020 + 0x100 * i
def fGtPlancntBuckets : Fd := ⟨16, 0⟩
/-- GT_RETAIN (R312). -/
def rGtRetain (i : Nat) : Nat := dieSpace + 0xB000028 + 0x100 * i
def fGtRetainRetMib : Fd := ⟨59, 48⟩
def fGtRetainBase : Fd := ⟨47, 12⟩
/-- GT_SEM (R312). -/
def rGtSem (i : Nat) : Nat := dieSpace + 0xB000030 + 0x100 * i
def fGtSemStepdone : Fd := ⟨41, 28⟩
def fGtSemVerdict : Fd := ⟨27, 14⟩
def fGtSemUpdate : Fd := ⟨13, 0⟩
/-- GT_STEPREC (R312). -/
def rGtSteprec (i : Nat) : Nat := dieSpace + 0xB000038 + 0x100 * i
def fGtSteprecRec : Fd := ⟨47, 7⟩
/-- GT_RING (R312). -/
def rGtRing (i : Nat) (j : Nat) : Nat := dieSpace + 0xB000040 + 0x100 * i + 0x8 * j
def fGtRingV : Fd := ⟨63, 63⟩
def fGtRingNextLink : Fd := ⟨62, 58⟩
def fGtRingPrevLink : Fd := ⟨57, 53⟩
def fGtRingNextDev : Fd := ⟨47, 24⟩
def fGtRingPrevDev : Fd := ⟨23, 0⟩
/-- RS_CFG (R366). -/
def rRsCfg (i : Nat) : Nat := dieSpace + 0xB080000 + 0x80 * i
def fRsCfgCkptEn : Fd := ⟨63, 63⟩
def fRsCfgRecoverEn : Fd := ⟨62, 62⟩
def fRsCfgCkptLinks : Fd := ⟨47, 24⟩
def fRsCfgRollbackMax : Fd := ⟨23, 16⟩
def fRsCfgLossMs : Fd := ⟨15, 0⟩
/-- RS_TIME (R366). -/
def rRsTime (i : Nat) : Nat := dieSpace + 0xB080008 + 0x80 * i
def fRsTimeCommitMs : Fd := ⟨63, 44⟩
def fRsTimeGuardUs : Fd := ⟨43, 30⟩
def fRsTimePriorH : Fd := ⟨15, 0⟩
/-- RS_CADENCE (R366). -/
def rRsCadence (i : Nat) : Nat := dieSpace + 0xB080010 + 0x80 * i
def fRsCadenceMinSteps : Fd := ⟨31, 0⟩
def fRsCadenceMaxSteps : Fd := ⟨63, 32⟩
/-- RS_CMD (R366). -/
def rRsCmd (i : Nat) : Nat := dieSpace + 0xB080018 + 0x80 * i
def fRsCmdCkptReq : Fd := ⟨0, 0⟩
/-- RS_STATE (R366). -/
def rRsState (i : Nat) : Nat := dieSpace + 0xB080020 + 0x80 * i
def fRsStateSlotKib : Fd := ⟨63, 48⟩
def fRsStateVa : Fd := ⟨47, 12⟩
/-- RS_SLOTS (R366). -/
def rRsSlots (i : Nat) : Nat := dieSpace + 0xB080028 + 0x80 * i
def fRsSlotsBankGib : Fd := ⟨41, 32⟩
def fRsSlotsSlotsMax : Fd := ⟨31, 16⟩
def fRsSlotsSlotsUsed : Fd := ⟨15, 0⟩
/-- RS_CKPT (R366). -/
def rRsCkpt (i : Nat) : Nat := dieSpace + 0xB080030 + 0x80 * i
def fRsCkptGenGib : Fd := ⟨63, 56⟩
def fRsCkptVa : Fd := ⟨47, 12⟩
/-- RS_PLAN (R366). -/
def rRsPlan (i : Nat) (j : Nat) : Nat := dieSpace + 0xB080038 + 0x80 * i + 0x8 * j
def fRsPlanVa : Fd := ⟨47, 6⟩
/-- RS_MAP (R366). -/
def rRsMap (i : Nat) : Nat := dieSpace + 0xB080048 + 0x80 * i
def fRsMapVa : Fd := ⟨47, 8⟩
/-- RS_REC (R366). -/
def rRsRec (i : Nat) : Nat := dieSpace + 0xB080050 + 0x80 * i
def fRsRecVa : Fd := ⟨47, 7⟩
/-- RS_TRICKLE (R366). -/
def rRsTrickle (i : Nat) : Nat := dieSpace + 0xB080058 + 0x80 * i
def fRsTrickleEn : Fd := ⟨63, 63⟩
def fRsTrickleRate : Fd := ⟨15, 0⟩
/-- RS_STATUS (R366). -/
def rRsStatus (i : Nat) : Nat := dieSpace + 0xB080060 + 0x80 * i
def fRsStatusLastCkpt : Fd := ⟨63, 32⟩
def fRsStatusPhase : Fd := ⟨31, 29⟩
def fRsStatusTrickleBusy : Fd := ⟨28, 28⟩
def fRsStatusGen : Fd := ⟨27, 27⟩
def fRsStatusInterval : Fd := ⟨19, 0⟩
/-- RS_STILL_US (R366). -/
def rRsStillUs (i : Nat) : Nat := dieSpace + 0xB080068 + 0x80 * i
def fRsStillUsStill : Fd := ⟨31, 0⟩
/-- RS_CNT (R366). -/
def rRsCnt (i : Nat) : Nat := dieSpace + 0xB080070 + 0x80 * i
def fRsCntLosses : Fd := ⟨63, 32⟩
def fRsCntRollbacks : Fd := ⟨31, 0⟩
/-- RS_RUN_S (R366). -/
def rRsRunS (i : Nat) : Nat := dieSpace + 0xB080078 + 0x80 * i
def fRsRunSRun : Fd := ⟨47, 0⟩

/-- Registers of a core window block, part 0. -/
def coreTable0 : List RegDesc := [
  ⟨0x200000, [], .any, false, false, [⟨fCoreIdHall, .ro, 0, .none⟩, ⟨fCoreIdRow, .ro, 0, .none⟩, ⟨fCoreIdCol, .ro, 0, .none⟩, ⟨fCoreIdProw, .ro, 0, .none⟩]⟩,
  ⟨0x200008, [], .hk, false, false, [⟨fCoreCtlStep, .wo, 0, .none⟩, ⟨fCoreCtlHalt, .rw, 0, .none⟩]⟩,
  ⟨0x200010, [], .any, false, false, [⟨fCoreStatusCtx, .ro, 0, .none⟩, ⟨fCoreStatusFault, .ro, 0, .none⟩, ⟨fCoreStatusPend, .ro, 0, .none⟩, ⟨fCoreStatusFaulted, .ro, 0, .none⟩, ⟨fCoreStatusStopped, .ro, 0, .none⟩, ⟨fCoreStatusRun, .ro, 0, .none⟩]⟩,
  ⟨0x200018, [], .any, false, false, [⟨fCodeRangeBaseLine, .rwc, 0, .range 0 16383⟩, ⟨fCodeRangeLimitLine, .rwc, 0, .geField ⟨13, 0⟩ 16383⟩]⟩,
  ⟨0x200020, [], .any, true, false, [⟨fPcBundle, .rw, 0, .none⟩]⟩,
  ⟨0x201000, [(32, 0x8)], .any, true, false, [⟨fSS, .rw, 0, .none⟩]⟩,
  ⟨0x202000, [(16, 0x80), (16, 0x8)], .any, true, false, [⟨fVLaneHi, .rw, 0, .none⟩, ⟨fVLaneLo, .rw, 0, .none⟩]⟩,
  ⟨0x203000, [(64, 0x8)], .any, true, false, [⟨fTileCfgUsgn, .rw, 0, .none⟩, ⟨fTileCfgPwidth, .rwc, 8, .range 1 8⟩, ⟨fTileCfgFmt, .rwc, 0, .remap 12 15 0⟩, ⟨fTileCfgCols, .rwc, 32, .range 1 128⟩, ⟨fTileCfgRows, .rwc, 32, .range 1 32⟩]⟩,
  ⟨0x204000, [(48, 0x8)], .any, true, false, [⟨fScValue, .rw, 0, .none⟩]⟩,
  ⟨0x204180, [], .any, true, false, [⟨fScSatMask, .w1c, 0, .none⟩]⟩,
  ⟨0x204188, [], .any, true, false, [⟨fScOrphanMask, .w1c, 0, .none⟩]⟩,
  ⟨0x204190, [], .any, true, false, [⟨fSyncStatusWatches, .rwc, 0, .range 0 8⟩, ⟨fSyncStatusOrphanNotice, .w1c, 0, .none⟩, ⟨fSyncStatusOrphanWake, .w1c, 0, .none⟩, ⟨fSyncStatusGwaitPend, .rw, 0, .none⟩]⟩]

/-- Registers of a core window block, part 1. -/
def coreTable1 : List RegDesc := [
  ⟨0x204198, [], .any, true, false, [⟨fSyncRtHall, .rw, 0, .none⟩, ⟨fSyncRtRouter, .rwc, 0, .range 0 4⟩]⟩,
  ⟨0x205000, [], .any, true, false, [⟨fLoopCtlDepth, .rwc, 0, .range 0 4⟩]⟩,
  ⟨0x205008, [(4, 0x8)], .any, true, false, [⟨⟨63, 32⟩, .rw, 0, .none⟩, ⟨fLoopEntryEnd, .rw, 0, .none⟩, ⟨fLoopEntryStart, .rw, 0, .none⟩]⟩,
  ⟨0x210000, [], .any, true, false, [⟨fStrmStatusDescLive, .ro, 0, .none⟩, ⟨fStrmStatusReqUsed, .ro, 0, .none⟩, ⟨fStrmStatusLastFault, .ro, 0, .none⟩]⟩,
  ⟨0x210100, [(64, 0x10)], .any, true, false, [⟨fStrmEntryValid, .rw, 0, .none⟩, ⟨fStrmEntryPhase, .rwc, 0, .remap 3 3 2⟩, ⟨fStrmEntryDesc, .rw, 0, .none⟩, ⟨fStrmEntryDescIdx, .rw, 0, .none⟩]⟩,
  ⟨0x210108, [(64, 0x10)], .any, true, false, [⟨fStrmProgressProgress, .rw, 0, .none⟩]⟩,
  ⟨0x211000, [], .any, true, false, [⟨fCelBaseBase, .rw, 0, .none⟩]⟩,
  ⟨0x211008, [], .any, true, false, [⟨fCelLimitLimit, .rw, 0, .none⟩]⟩,
  ⟨0x211010, [], .any, true, false, [⟨fCelTopTop, .rw, 0, .none⟩]⟩,
  ⟨0x211018, [], .any, true, false, [⟨fCelStatusFrames, .rw, 0, .none⟩, ⟨fCelStatusDir, .rwc, 0, .remap 3 3 2⟩]⟩,
  ⟨0x211020, [], .any, true, false, [⟨fCelPeakPeak, .rw, 0, .none⟩]⟩,
  ⟨0x220000, [(64, 0x40), (4, 0x10)], .any, true, false, [⟨fBindValid, .rw, 0, .none⟩, ⟨fBindCt, .rwc, 63, .remap 48 62 63⟩, ⟨fBindBase, .rw, 0, .none⟩, ⟨fBindStride, .rw, 0, .none⟩]⟩]

/-- Registers of a core window block, part 2. -/
def coreTable2 : List RegDesc := [
  ⟨0x220008, [(64, 0x40), (4, 0x10)], .any, true, false, [⟨fBindCntWritten, .rw, 0, .none⟩, ⟨⟨15, 0⟩, .rw, 0, .none⟩]⟩,
  ⟨0x221000, [], .any, false, false, [⟨⟨63, 0⟩, .ro, 0, .none⟩]⟩,
  ⟨0x221008, [], .any, false, false, [⟨⟨63, 0⟩, .ro, 0, .none⟩]⟩,
  ⟨0x221010, [], .any, false, false, [⟨⟨63, 0⟩, .ro, 0, .none⟩]⟩,
  ⟨0x280000, [(6, 0x2000), (1024, 0x8)], .table, false, false, [⟨⟨15, 13⟩, .ro, 0, .none⟩, ⟨⟨12, 10⟩, .ro, 0, .none⟩, ⟨⟨5, 0⟩, .ro, 0, .none⟩, ⟨⟨31, 29⟩, .ro, 0, .none⟩, ⟨⟨28, 26⟩, .ro, 0, .none⟩, ⟨⟨21, 16⟩, .ro, 0, .none⟩, ⟨⟨47, 45⟩, .ro, 0, .none⟩, ⟨⟨44, 42⟩, .ro, 0, .none⟩, ⟨⟨37, 32⟩, .ro, 0, .none⟩, ⟨⟨63, 61⟩, .ro, 0, .none⟩, ⟨⟨60, 58⟩, .ro, 0, .none⟩, ⟨⟨53, 48⟩, .ro, 0, .none⟩]⟩,
  ⟨0x2F0000, [], .hk, false, false, [⟨fPortSlotCfgPeriodLog2, .rwc, 6, .range 6 12⟩]⟩,
  ⟨0x300000, [], .any, false, false, [⟨fCntCtlFreeze, .rw, 0, .none⟩, ⟨fCntCtlClear, .wo, 0, .none⟩]⟩,
  ⟨0x300008, [], .any, false, false, [⟨⟨63, 0⟩, .ro, 0, .none⟩]⟩,
  ⟨0x300010, [], .any, false, false, [⟨⟨63, 0⟩, .ro, 0, .none⟩]⟩,
  ⟨0x300018, [], .any, false, false, [⟨fStreamTmoUsTmo, .rwc, 1000, .range 10 100000⟩]⟩,
  ⟨0x300080, [(16, 0x8)], .any, false, false, [⟨⟨63, 0⟩, .ro, 0, .none⟩]⟩,
  ⟨0x300100, [(16, 0x8)], .any, false, false, [⟨⟨63, 0⟩, .ro, 0, .none⟩]⟩]

/-- Registers of a core window block, part 3. -/
def coreTable3 : List RegDesc := [
  ⟨0x300180, [(16, 0x8)], .any, false, false, [⟨⟨63, 0⟩, .ro, 0, .none⟩]⟩,
  ⟨0x300200, [(16, 0x8)], .any, false, false, [⟨⟨63, 0⟩, .ro, 0, .none⟩]⟩,
  ⟨0x300280, [], .any, false, false, [⟨⟨63, 0⟩, .ro, 0, .none⟩]⟩,
  ⟨0x300288, [], .any, false, false, [⟨⟨63, 0⟩, .ro, 0, .none⟩]⟩,
  ⟨0x300290, [], .any, false, false, [⟨⟨63, 0⟩, .ro, 0, .none⟩]⟩]

/-- All register families of a core window block. -/
def coreTable : List RegDesc :=
  coreTable0 ++ coreTable1 ++ coreTable2 ++ coreTable3

/-- Registers of a hall control block, part 0. -/
def hallTable0 : List RegDesc := [
  ⟨0x400000, [(5, 0x100)], .any, false, false, [⟨fEdgeInfoKind, .ro, 0, .none⟩, ⟨fEdgeInfoIndex, .ro, 0, .none⟩, ⟨fEdgeInfoCap, .ro, 0, .none⟩]⟩,
  ⟨0x400008, [(5, 0x100)], .any, false, false, [⟨⟨63, 0⟩, .ro, 0, .none⟩]⟩,
  ⟨0x400010, [(5, 0x100)], .any, false, false, [⟨⟨63, 0⟩, .ro, 0, .none⟩]⟩,
  ⟨0x400018, [(5, 0x100)], .any, false, false, [⟨⟨63, 0⟩, .ro, 0, .none⟩]⟩,
  ⟨0x400020, [(5, 0x100)], .any, false, false, [⟨⟨63, 0⟩, .ro, 0, .none⟩]⟩,
  ⟨0x400028, [(5, 0x100)], .any, false, false, [⟨⟨63, 0⟩, .ro, 0, .none⟩]⟩,
  ⟨0x400030, [(5, 0x100)], .any, false, false, [⟨fEdgeCtlClear, .wo, 0, .none⟩]⟩,
  ⟨0x410000, [(5, 0x8000), (4, 0x2000), (1024, 0x8)], .table, false, false, [⟨⟨13, 11⟩, .ro, 0, .none⟩, ⟨⟨10, 5⟩, .ro, 0, .none⟩, ⟨⟨4, 0⟩, .ro, 0, .none⟩, ⟨⟨29, 27⟩, .ro, 0, .none⟩, ⟨⟨26, 21⟩, .ro, 0, .none⟩, ⟨⟨20, 16⟩, .ro, 0, .none⟩, ⟨⟨45, 43⟩, .ro, 0, .none⟩, ⟨⟨42, 37⟩, .ro, 0, .none⟩, ⟨⟨36, 32⟩, .ro, 0, .none⟩, ⟨⟨61, 59⟩, .ro, 0, .none⟩, ⟨⟨58, 53⟩, .ro, 0, .none⟩, ⟨⟨52, 48⟩, .ro, 0, .none⟩]⟩,
  ⟨0x500000, [(8, 0x8)], .hk, false, false, [⟨fArrCtxCfgTolFactor, .rwc, 4, .range 1 16⟩, ⟨fArrCtxCfgCheck, .rw, 1, .none⟩]⟩,
  ⟨0x510000, [(144, 0x40)], .any, false, false, [⟨fArrStatusChainLen, .ro, 0, .none⟩, ⟨fArrStatusStrikes, .ro, 0, .none⟩, ⟨fArrStatusRetirePend, .ro, 0, .none⟩, ⟨fArrStatusChainOpen, .ro, 0, .none⟩, ⟨fArrStatusReexec, .ro, 0, .none⟩, ⟨fArrStatusBusy, .ro, 0, .none⟩]⟩,
  ⟨0x510008, [(144, 0x40)], .any, false, false, [⟨⟨63, 0⟩, .ro, 0, .none⟩]⟩,
  ⟨0x510010, [(144, 0x40)], .any, false, false, [⟨⟨63, 0⟩, .ro, 0, .none⟩]⟩]

/-- Registers of a hall control block, part 1. -/
def hallTable1 : List RegDesc := [
  ⟨0x510018, [(144, 0x40)], .any, false, false, [⟨⟨63, 0⟩, .ro, 0, .none⟩]⟩,
  ⟨0x510020, [(144, 0x40)], .any, false, false, [⟨⟨63, 0⟩, .ro, 0, .none⟩]⟩,
  ⟨0x510028, [(144, 0x40)], .any, false, false, [⟨⟨63, 0⟩, .ro, 0, .none⟩]⟩,
  ⟨0x510030, [(144, 0x40)], .any, false, false, [⟨⟨63, 0⟩, .ro, 0, .none⟩]⟩,
  ⟨0x510038, [(144, 0x40)], .any, false, false, [⟨fArrCntCtlClear, .wo, 0, .none⟩]⟩,
  ⟨0x580000, [(8, 0x8)], .hk, false, false, [⟨fSyncCtxCfgOrphanStop, .rw, 1, .none⟩, ⟨fSyncCtxCfgTmoMs, .rwc, 10000, .range 0 60000⟩]⟩,
  ⟨0x590000, [(8, 0x8)], .hk, false, false, [⟨fCelCtxCfgStages, .rwc, 1, .range 1 16⟩, ⟨fCelCtxCfgEven, .rw, 0, .none⟩, ⟨fCelCtxCfgLeadKib, .rwc, 512, .range 0 4096⟩]⟩,
  ⟨0x590100, [(8, 0x80), (16, 0x8)], .hk, false, false, [⟨fCelStageVpage, .rw, 0, .none⟩, ⟨fCelStageSlice, .rwc, 0, .range 0 524288⟩]⟩,
  ⟨0x600000, [], .any, false, false, [⟨fGridStatusHoles, .ro, 0, .none⟩, ⟨fGridStatusFail, .ro, 0, .none⟩, ⟨fGridStatusBuilt, .ro, 0, .none⟩]⟩,
  ⟨0x600100, [(12, 0x8)], .any, false, false, [⟨fGridColHoleRow, .ro, 15, .none⟩, ⟨fGridColHoleCnt, .ro, 0, .none⟩, ⟨fGridColBypass, .ro, 15, .none⟩, ⟨fGridColExcluded, .ro, 0, .none⟩, ⟨fGridColRetire, .rw, 0, .none⟩, ⟨fGridColFuseBad, .ro, 0, .none⟩]⟩,
  ⟨0x680000, [], .any, false, false, [⟨fHallClkLockFails, .ro, 0, .none⟩, ⟨fHallClkPllLock, .ro, 0, .none⟩, ⟨fHallClkPllOn, .ro, 0, .none⟩, ⟨fHallClkGear, .ro, 0, .none⟩]⟩,
  ⟨0x700000, [(2, 0x10000)], .any, false, false, [⟨fStkCfgScrubH, .rwc, 24, .range 1 168⟩, ⟨fStkCfgSlowUs, .rwc, 100, .range 10 10000⟩, ⟨fStkCfgDemandRsv, .rwc, 32, .range 0 128⟩, ⟨fStkCfgBankSlotMax, .rwc, 64, .range 8 256⟩]⟩]

/-- Registers of a hall control block, part 2. -/
def hallTable2 : List RegDesc := [
  ⟨0x700008, [(2, 0x10000)], .any, false, false, [⟨fStkStatusSlotsUsed, .ro, 0, .none⟩, ⟨fStkStatusBankPeak, .ro, 0, .none⟩, ⟨fStkStatusSlowBanks, .ro, 0, .none⟩, ⟨fStkStatusReady, .ro, 0, .none⟩]⟩,
  ⟨0x700010, [(2, 0x10000)], .any, false, false, [⟨⟨63, 0⟩, .ro, 0, .none⟩]⟩,
  ⟨0x700018, [(2, 0x10000)], .any, false, false, [⟨⟨63, 0⟩, .ro, 0, .none⟩]⟩,
  ⟨0x700020, [(2, 0x10000)], .any, false, false, [⟨⟨63, 0⟩, .ro, 0, .none⟩]⟩,
  ⟨0x700028, [(2, 0x10000)], .any, false, false, [⟨⟨63, 0⟩, .ro, 0, .none⟩]⟩,
  ⟨0x700030, [(2, 0x10000)], .any, false, false, [⟨⟨63, 0⟩, .ro, 0, .none⟩]⟩,
  ⟨0x700038, [(2, 0x10000)], .any, false, false, [⟨⟨63, 0⟩, .ro, 0, .none⟩]⟩,
  ⟨0x700040, [(2, 0x10000)], .any, false, false, [⟨⟨63, 0⟩, .ro, 0, .none⟩]⟩,
  ⟨0x700048, [(2, 0x10000)], .any, false, false, [⟨⟨63, 0⟩, .ro, 0, .none⟩]⟩,
  ⟨0x700050, [(2, 0x10000)], .any, false, false, [⟨⟨63, 0⟩, .ro, 0, .none⟩]⟩,
  ⟨0x700058, [(2, 0x10000)], .any, false, false, [⟨⟨63, 0⟩, .ro, 0, .none⟩]⟩,
  ⟨0x700060, [(2, 0x10000)], .any, false, false, [⟨⟨63, 0⟩, .ro, 0, .none⟩]⟩]

/-- Registers of a hall control block, part 3. -/
def hallTable3 : List RegDesc := [
  ⟨0x700068, [(2, 0x10000)], .any, false, false, [⟨fStkCntCtlClear, .wo, 0, .none⟩]⟩,
  ⟨0x780000, [(8, 0x8)], .any, false, false, [⟨fTrCtxPfLines, .rwc, 128, .range 0 512⟩, ⟨fTrCtxEn, .rw, 0, .none⟩]⟩,
  ⟨0x780040, [], .any, false, true, [⟨fTrInvalBusy, .ro, 0, .none⟩, ⟨fTrInvalAll, .wo, 0, .none⟩, ⟨fTrInvalCtx, .wo, 0, .none⟩, ⟨fTrInvalVpn, .wo, 0, .none⟩]⟩,
  ⟨0x780080, [(8, 0x10)], .any, false, false, [⟨fTrFaultValid, .w1c, 0, .none⟩, ⟨fTrFaultAccess, .ro, 0, .none⟩, ⟨fTrFaultKind, .ro, 0, .none⟩, ⟨fTrFaultVa, .ro, 0, .none⟩]⟩,
  ⟨0x780088, [(8, 0x10)], .any, false, false, [⟨fTrFault2Hall, .ro, 0, .none⟩, ⟨fTrFault2Row, .ro, 0, .none⟩, ⟨fTrFault2Col, .ro, 0, .none⟩, ⟨fTrFault2Entry, .ro, 0, .none⟩]⟩,
  ⟨0x780100, [], .any, false, false, [⟨⟨63, 0⟩, .ro, 0, .none⟩]⟩,
  ⟨0x780108, [], .any, false, false, [⟨⟨63, 0⟩, .ro, 0, .none⟩]⟩,
  ⟨0x780110, [], .any, false, false, [⟨fTrCntCtlClear, .wo, 0, .none⟩]⟩]

/-- All register families of a hall control block. -/
def hallTable : List RegDesc :=
  hallTable0 ++ hallTable1 ++ hallTable2 ++ hallTable3

/-- Registers of a front-die block, part 0. -/
def dieTable0 : List RegDesc := [
  ⟨0x1000000, [], .any, false, false, [⟨fHrCtlPfcPrio, .rw, 3, .none⟩, ⟨fHrCtlPfcEn, .rw, 1, .none⟩, ⟨fHrCtlEnable, .rw, 0, .none⟩, ⟨fHrCtlCtx, .rw, 0, .none⟩]⟩,
  ⟨0x1000008, [], .any, false, false, [⟨fHrStatusActive, .ro, 0, .none⟩, ⟨fHrStatusBusy, .ro, 0, .none⟩]⟩,
  ⟨0x1000010, [], .any, false, false, [⟨fHrRecipeVa, .rw, 0, .none⟩]⟩,
  ⟨0x1000018, [], .any, false, false, [⟨fHrPfcCfgXoffFree, .rwc, 64, .range 0 65536⟩, ⟨fHrPfcCfgXonFree, .rwc, 256, .geField ⟨16, 0⟩ 65536⟩]⟩,
  ⟨0x1000020, [], .any, false, false, [⟨fHrScratchBase, .rw, 0, .none⟩]⟩,
  ⟨0x1000040, [(8, 0x8)], .any, false, false, [⟨fHrShareMax, .rwc, 8, .range 0 8⟩, ⟨fHrShareMin, .rwc, 0, .leField 0 ⟨7, 4⟩ 0⟩]⟩,
  ⟨0x1001000, [(16, 0x20)], .any, false, false, [⟨fHrRingCfgEn, .rw, 0, .none⟩, ⟨fHrRingCfgLog2, .rwc, 4, .range 4 16⟩, ⟨fHrRingCfgBase, .rw, 0, .none⟩]⟩,
  ⟨0x1001008, [(16, 0x20)], .any, false, false, [⟨fHrRingProdProd, .rwc, 0, .ringProd⟩]⟩,
  ⟨0x1001010, [(16, 0x20)], .any, false, false, [⟨fHrRingConsCons, .ro, 0, .none⟩]⟩,
  ⟨0x1002000, [], .any, false, false, [⟨⟨63, 0⟩, .ro, 0, .none⟩]⟩,
  ⟨0x1002008, [], .any, false, false, [⟨⟨63, 0⟩, .ro, 0, .none⟩]⟩,
  ⟨0x1002010, [], .any, false, false, [⟨⟨63, 0⟩, .ro, 0, .none⟩]⟩]

/-- Registers of a front-die block, part 1. -/
def dieTable1 : List RegDesc := [
  ⟨0x1002018, [], .any, false, false, [⟨⟨63, 0⟩, .ro, 0, .none⟩]⟩,
  ⟨0x1002020, [], .any, false, false, [⟨⟨63, 0⟩, .ro, 0, .none⟩]⟩,
  ⟨0x1002040, [(8, 0x8)], .any, false, false, [⟨⟨63, 0⟩, .ro, 0, .none⟩]⟩,
  ⟨0x1002080, [], .any, false, false, [⟨fHrCntCtlClear, .wo, 0, .none⟩]⟩,
  ⟨0x2000000, [], .any, false, false, [⟨fMpCfgEn, .rw, 0, .none⟩, ⟨fMpCfgCtx, .rw, 0, .none⟩, ⟨fMpCfgGroup, .rw, 0, .none⟩, ⟨fMpCfgXchEn, .rw, 0, .none⟩, ⟨fMpCfgXchTag, .rw, 0, .none⟩, ⟨fMpCfgXchK, .rwc, 0, .range 0 4096⟩, ⟨fMpCfgSlots, .rwc, 65536, .range 1 65536⟩]⟩,
  ⟨0x2000008, [], .any, false, false, [⟨fMpPoolSlotSize, .rwc, 512, .range 1 16384⟩, ⟨fMpPoolBase, .rw, 0, .none⟩]⟩,
  ⟨0x2000010, [], .any, false, false, [⟨fMpSeedSeed, .rw, 0, .none⟩]⟩,
  ⟨0x2000018, [], .any, false, false, [⟨fMpDrawDraw, .ro, 0, .none⟩]⟩,
  ⟨0x2000028, [], .any, false, false, [⟨fMpStatus0Ready, .ro, 0, .none⟩, ⟨fMpStatus0Held, .ro, 0, .none⟩, ⟨fMpStatus0Free, .ro, 0, .none⟩]⟩,
  ⟨0x2000030, [], .any, false, false, [⟨fMpStatus1Filling, .ro, 0, .none⟩, ⟨fMpStatus1Reserve, .ro, 0, .none⟩, ⟨fMpStatus1Exch, .ro, 0, .none⟩]⟩,
  ⟨0x2000100, [(16, 0x20)], .any, false, false, [⟨fMpQCfgEn, .rw, 0, .none⟩, ⟨fMpQCfgLog2depth, .rwc, 4, .range 2 12⟩, ⟨fMpQCfgRingVa, .rw, 0, .none⟩]⟩,
  ⟨0x2000108, [(16, 0x20)], .any, false, false, [⟨fMpQCtReqVsem, .rw, 0, .none⟩, ⟨fMpQCtCtKind, .rwc, 0, .remap 3 3 2⟩, ⟨fMpQCtCtId, .rw, 0, .none⟩, ⟨fMpQCtPos, .rw, 0, .none⟩]⟩]

/-- Registers of a front-die block, part 2. -/
def dieTable2 : List RegDesc := [
  ⟨0x2000110, [(16, 0x20)], .any, false, false, [⟨fMpQSeqSeq, .ro, 0, .none⟩]⟩,
  ⟨0x2000118, [(16, 0x20)], .any, false, false, [⟨fMpQHeldHeld, .ro, 0, .none⟩]⟩,
  ⟨0x2000400, [], .any, false, false, [⟨⟨63, 0⟩, .ro, 0, .none⟩]⟩,
  ⟨0x2000408, [], .any, false, false, [⟨⟨63, 0⟩, .ro, 0, .none⟩]⟩,
  ⟨0x2000410, [], .any, false, false, [⟨⟨63, 0⟩, .ro, 0, .none⟩]⟩,
  ⟨0x2000418, [], .any, false, false, [⟨⟨63, 0⟩, .ro, 0, .none⟩]⟩,
  ⟨0x2000420, [], .any, false, false, [⟨⟨63, 0⟩, .ro, 0, .none⟩]⟩,
  ⟨0x2000428, [], .any, false, false, [⟨⟨63, 0⟩, .ro, 0, .none⟩]⟩,
  ⟨0x2000430, [], .any, false, false, [⟨⟨63, 0⟩, .ro, 0, .none⟩]⟩,
  ⟨0x2000438, [], .any, false, false, [⟨⟨63, 0⟩, .ro, 0, .none⟩]⟩,
  ⟨0x2000440, [], .any, false, false, [⟨fMpCntCtlClear, .wo, 0, .none⟩]⟩,
  ⟨0x3000000, [], .any, false, false, [⟨fEbcBudgetBudgetW, .rwc, 3200, .range 600 3200⟩]⟩]

/-- Registers of a front-die block, part 3. -/
def dieTable3 : List RegDesc := [
  ⟨0x3000008, [], .any, false, false, [⟨fEbcCtlJoinUs, .rwc, 1000, .range 0 60000⟩, ⟨fEbcCtlDozeMs, .rwc, 100, .range 10 60000⟩, ⟨fEbcCtlRefRetry, .wo, 0, .none⟩, ⟨fEbcCtlGearForce, .rwc, 0, .remap 5 7 4⟩, ⟨fEbcCtlG4En, .rw, 0, .none⟩, ⟨fEbcCtlGateEn, .rw, 1, .none⟩]⟩,
  ⟨0x3000010, [], .any, false, false, [⟨fEbcStatusEffW, .ro, 3200, .none⟩, ⟨fEbcStatusRefSrc, .ro, 0, .none⟩, ⟨fEbcStatusRefFailover, .ro, 0, .none⟩, ⟨fEbcStatusHot, .ro, 0, .none⟩, ⟨fEbcStatusG4Ok, .ro, 0, .none⟩, ⟨fEbcStatusGateLevel, .ro, 0, .none⟩, ⟨fEbcStatusShare, .ro, 0, .none⟩, ⟨fEbcStatusGear, .ro, 0, .none⟩]⟩,
  ⟨0x3000018, [], .any, false, false, [⟨fEbcTempCfgHotC, .rwc, 100, .range 70 105⟩, ⟨fEbcTempCfgG4C, .rwc, 85, .range 60 95⟩]⟩,
  ⟨0x3000020, [], .any, false, false, [⟨fEbcEngEngInitW, .rwc, 25, .range 1 100⟩, ⟨fEbcEngEngW, .ro, 0, .none⟩]⟩,
  ⟨0x3000028, [], .any, false, false, [⟨fEbcInIinMa, .ro, 0, .none⟩, ⟨fEbcInVinMv, .ro, 0, .none⟩]⟩,
  ⟨0x3000030, [], .any, false, false, [⟨fEbcWinWinMj, .ro, 0, .none⟩]⟩,
  ⟨0x3000038, [], .any, false, false, [⟨fEbcStepMjLastStepMj, .ro, 0, .none⟩]⟩,
  ⟨0x3000040, [], .any, false, false, [⟨fEbcStepUsLastStepUs, .ro, 0, .none⟩]⟩,
  ⟨0x3000080, [(4, 0x8)], .any, false, false, [⟨fEbcBaseBaseW, .ro, 0, .none⟩]⟩,
  ⟨0x3000100, [], .any, false, false, [⟨⟨63, 0⟩, .ro, 0, .none⟩]⟩,
  ⟨0x3000108, [(8, 0x8)], .any, false, false, [⟨⟨63, 0⟩, .ro, 0, .none⟩]⟩,
  ⟨0x3000148, [(12, 0x8)], .any, false, false, [⟨⟨63, 0⟩, .ro, 0, .none⟩]⟩]

/-- Registers of a front-die block, part 4. -/
def dieTable4 : List RegDesc := [
  ⟨0x30001A8, [], .any, false, false, [⟨⟨63, 0⟩, .ro, 0, .none⟩]⟩,
  ⟨0x30001B0, [], .any, false, false, [⟨⟨63, 0⟩, .ro, 0, .none⟩]⟩,
  ⟨0x30001B8, [], .any, false, false, [⟨⟨63, 0⟩, .ro, 0, .none⟩]⟩,
  ⟨0x30001C0, [], .any, false, false, [⟨⟨63, 0⟩, .ro, 0, .none⟩]⟩,
  ⟨0x30001C8, [], .any, false, false, [⟨⟨63, 0⟩, .ro, 0, .none⟩]⟩,
  ⟨0x30001D0, [], .any, false, false, [⟨fEbcCntCtlClear, .wo, 0, .none⟩]⟩,
  ⟨0x3000200, [(21, 0x8)], .any, false, false, [⟨fEbcTempTemp, .ro, 0, .none⟩]⟩,
  ⟨0x3000400, [(8, 0x40), (4, 0x8)], .hk, false, false, [⟨fEbcEstTUs, .rw, 0, .none⟩, ⟨fEbcEstEMj, .rw, 0, .none⟩]⟩,
  ⟨0x4000000, [], .any, false, false, [⟨fRstCauseTrip, .ro, 0, .none⟩, ⟨fRstCausePending, .ro, 0, .none⟩, ⟨fRstCauseCause, .ro, 1, .none⟩]⟩,
  ⟨0x4000008, [], .any, false, false, [⟨fStartStatusBootSrc, .ro, 3, .none⟩, ⟨fStartStatusClkMode, .ro, 3, .none⟩, ⟨fStartStatusBank, .ro, 0, .none⟩, ⟨fStartStatusStable, .ro, 0, .none⟩, ⟨fStartStatusConsecFail, .ro, 0, .none⟩]⟩,
  ⟨0x4000010, [], .hk, false, false, [⟨fWdtCfgWdtMs, .rwc, 1000, .range 10 10000⟩]⟩,
  ⟨0x4000018, [], .hk, false, false, [⟨fWdtKickKick, .wo, 0, .none⟩]⟩]

/-- Registers of a front-die block, part 5. -/
def dieTable5 : List RegDesc := [
  ⟨0x4000020, [], .any, false, false, [⟨fHallRstReason, .ro, 0, .none⟩, ⟨fHallRstBusy, .ro, 0, .none⟩, ⟨fHallRstReq, .wo, 0, .none⟩]⟩,
  ⟨0x4000028, [], .hk, false, false, [⟨fPinCtlRelease, .rw, 0, .none⟩]⟩,
  ⟨0x4000030, [], .any, false, false, [⟨fModPinsAlertForce, .rw, 0, .none⟩, ⟨fModPinsAlert, .ro, 0, .none⟩, ⟨fModPinsThrottle, .ro, 0, .none⟩]⟩,
  ⟨0x5000000, [], .any, false, false, [⟨fEvrStatusNextSeq, .ro, 0, .none⟩, ⟨fEvrStatusCalSet, .ro, 0, .none⟩, ⟨fEvrStatusFlushBusy, .ro, 0, .none⟩, ⟨fEvrStatusBufUsed, .ro, 0, .none⟩]⟩,
  ⟨0x5000008, [], .any, false, true, [⟨fEvrCalSetCalSetNs, .wo, 0, .none⟩]⟩,
  ⟨0x5000010, [], .any, false, false, [⟨fEvrCalNowCalNow, .ro, 0, .none⟩]⟩,
  ⟨0x5000018, [], .any, false, false, [⟨fEvrFlushFlush, .wo, 0, .none⟩]⟩,
  ⟨0x5000020, [], .any, false, false, [⟨fDumpCfgScope, .rw, 0, .none⟩, ⟨fDumpCfgOnPll, .rw, 1, .none⟩, ⟨fDumpCfgOnGroup, .rw, 1, .none⟩, ⟨fDumpCfgOnFault, .rw, 0, .none⟩, ⟨fDumpCfgReq, .wo, 0, .none⟩, ⟨fDumpCfgArm, .rw, 1, .none⟩]⟩,
  ⟨0x5000028, [], .any, false, false, [⟨fDumpStatusDumpSeq, .ro, 0, .none⟩, ⟨fDumpStatusTrigger, .ro, 0, .none⟩, ⟨fDumpStatusBusy, .ro, 0, .none⟩, ⟨fDumpStatusValid, .ro, 0, .none⟩]⟩,
  ⟨0x5000030, [], .any, false, false, [⟨fDiagSnapFreeze, .rw, 0, .none⟩]⟩,
  ⟨0x5000038, [], .any, false, false, [⟨fDiagSnapSlotSnapSlot, .ro, 0, .none⟩]⟩,
  ⟨0x5000100, [], .any, false, false, [⟨⟨63, 0⟩, .ro, 0, .none⟩]⟩]

/-- Registers of a front-die block, part 6. -/
def dieTable6 : List RegDesc := [
  ⟨0x5000108, [], .any, false, false, [⟨⟨63, 0⟩, .ro, 0, .none⟩]⟩,
  ⟨0x5000110, [], .any, false, false, [⟨⟨63, 0⟩, .ro, 0, .none⟩]⟩,
  ⟨0x5000118, [], .any, false, false, [⟨⟨63, 0⟩, .ro, 0, .none⟩]⟩,
  ⟨0x5000120, [], .any, false, false, [⟨⟨63, 0⟩, .ro, 0, .none⟩]⟩,
  ⟨0x5000128, [], .any, false, false, [⟨fEvrCntCtlClear, .wo, 0, .none⟩]⟩,
  ⟨0x6000000, [], .any, false, false, [⟨fSecStatusFusedSvn, .ro, 0, .none⟩, ⟨fSecStatusKeyRevoked, .ro, 0, .none⟩, ⟨fSecStatusTpiFmtMax, .ro, 0, .none⟩, ⟨fSecStatusKeyFused, .ro, 0, .none⟩, ⟨fSecStatusRomVer, .ro, 0, .none⟩]⟩,
  ⟨0x6000008, [], .any, false, false, [⟨fSecCfgBootServe, .rw, 0, .none⟩, ⟨fSecCfgProgSigReq, .rw, 0, .none⟩]⟩,
  ⟨0x6000040, [(8, 0x8)], .any, false, false, [⟨fSecProgKeyhashHash, .rw, 0, .none⟩]⟩,
  ⟨0x7000000, [], .any, false, false, [⟨fEthStatusPcsUp, .ro, 0, .none⟩, ⟨fEthStatusPhase, .ro, 0, .none⟩]⟩,
  ⟨0x7000008, [], .any, false, false, [⟨fEthMacMac, .ro, 0, .none⟩]⟩,
  ⟨0x7000010, [], .any, false, false, [⟨fEthIp6HiIp6Hi, .rw, 0, .none⟩]⟩,
  ⟨0x7000018, [], .any, false, false, [⟨fEthIp6LoIp6Lo, .rw, 0, .none⟩]⟩]

/-- Registers of a front-die block, part 7. -/
def dieTable7 : List RegDesc := [
  ⟨0x7000020, [], .any, false, false, [⟨fEthGwMacGwMac, .rw, 0, .none⟩]⟩,
  ⟨0x7000028, [], .any, false, false, [⟨fThpCfgRtoUs, .rwc, 1000, .range 100 50000⟩, ⟨fThpCfgIdleS, .rwc, 60, .range 1 3600⟩, ⟨fThpCfgMaxPayload, .rwc, 8192, .range 1024 8192⟩]⟩,
  ⟨0x7000100, [], .any, false, false, [⟨⟨63, 0⟩, .ro, 0, .none⟩]⟩,
  ⟨0x7000108, [], .any, false, false, [⟨⟨63, 0⟩, .ro, 0, .none⟩]⟩,
  ⟨0x7000110, [], .any, false, false, [⟨⟨63, 0⟩, .ro, 0, .none⟩]⟩,
  ⟨0x7000118, [], .any, false, false, [⟨⟨63, 0⟩, .ro, 0, .none⟩]⟩,
  ⟨0x7000120, [], .any, false, false, [⟨⟨63, 0⟩, .ro, 0, .none⟩]⟩,
  ⟨0x7000128, [], .any, false, false, [⟨⟨63, 0⟩, .ro, 0, .none⟩]⟩,
  ⟨0x7000130, [], .any, false, false, [⟨⟨63, 0⟩, .ro, 0, .none⟩]⟩,
  ⟨0x7000138, [], .any, false, false, [⟨⟨63, 0⟩, .ro, 0, .none⟩]⟩,
  ⟨0x7000140, [], .any, false, false, [⟨fThpCntCtlClear, .wo, 0, .none⟩]⟩,
  ⟨0x8000000, [(24, 0x10000)], .any, false, false, [⟨fLinkCtlFpLog2, .rwc, 6, .range 4 10⟩, ⟨fLinkCtlMode, .rw, 0, .none⟩, ⟨fLinkCtlRetrain, .wo, 0, .none⟩, ⟨fLinkCtlOpen, .rw, 0, .none⟩, ⟨fLinkCtlEnable, .rw, 1, .none⟩]⟩]

/-- Registers of a front-die block, part 8. -/
def dieTable8 : List RegDesc := [
  ⟨0x8000008, [(24, 0x10000)], .any, false, false, [⟨fLinkStatusPeerId, .ro, 0, .none⟩, ⟨fLinkStatusPeerLink, .ro, 0, .none⟩, ⟨fLinkStatusLastDown, .ro, 0, .none⟩, ⟨fLinkStatusBulkUnreach, .ro, 0, .none⟩, ⟨fLinkStatusPeerReady, .ro, 0, .none⟩, ⟨fLinkStatusTableOk, .ro, 0, .none⟩, ⟨fLinkStatusState, .ro, 1, .none⟩]⟩,
  ⟨0x8000010, [(24, 0x10000)], .any, false, false, [⟨fLinkCfgCorrAlarm, .rwc, 1024, .range 1 65535⟩, ⟨fLinkCfgMcastUs, .rwc, 1000, .range 10 100000⟩]⟩,
  ⟨0x8000018, [(24, 0x10000)], .any, false, false, [⟨fLinkPeerExpAny, .rw, 1, .none⟩, ⟨fLinkPeerExpDev, .rw, 0, .none⟩]⟩,
  ⟨0x8000020, [(24, 0x10000)], .any, false, false, [⟨fLinkLatLatPs, .ro, 0, .none⟩]⟩,
  ⟨0x8000100, [(24, 0x10000)], .any, false, false, [⟨⟨63, 0⟩, .ro, 0, .none⟩]⟩,
  ⟨0x8000108, [(24, 0x10000)], .any, false, false, [⟨⟨63, 0⟩, .ro, 0, .none⟩]⟩,
  ⟨0x8000110, [(24, 0x10000)], .any, false, false, [⟨⟨63, 0⟩, .ro, 0, .none⟩]⟩,
  ⟨0x8000118, [(24, 0x10000)], .any, false, false, [⟨⟨63, 0⟩, .ro, 0, .none⟩]⟩,
  ⟨0x8000120, [(24, 0x10000)], .any, false, false, [⟨⟨63, 0⟩, .ro, 0, .none⟩]⟩,
  ⟨0x8000128, [(24, 0x10000)], .any, false, false, [⟨⟨63, 0⟩, .ro, 0, .none⟩]⟩,
  ⟨0x8000130, [(24, 0x10000)], .any, false, false, [⟨⟨63, 0⟩, .ro, 0, .none⟩]⟩,
  ⟨0x8000138, [(24, 0x10000)], .any, false, false, [⟨⟨63, 0⟩, .ro, 0, .none⟩]⟩]

/-- Registers of a front-die block, part 9. -/
def dieTable9 : List RegDesc := [
  ⟨0x8000140, [(24, 0x10000)], .any, false, false, [⟨⟨63, 0⟩, .ro, 0, .none⟩]⟩,
  ⟨0x8000148, [(24, 0x10000)], .any, false, false, [⟨⟨63, 0⟩, .ro, 0, .none⟩]⟩,
  ⟨0x8000150, [(24, 0x10000)], .any, false, false, [⟨⟨63, 0⟩, .ro, 0, .none⟩]⟩,
  ⟨0x8000158, [(24, 0x10000)], .any, false, false, [⟨⟨63, 0⟩, .ro, 0, .none⟩]⟩,
  ⟨0x8000160, [(24, 0x10000)], .any, false, false, [⟨fLinkCntCtlClear, .wo, 0, .none⟩]⟩,
  ⟨0x8001000, [(24, 0x10000), (256, 0x8)], .table, false, false, [⟨⟨15, 15⟩, .ro, 0, .none⟩, ⟨⟨5, 0⟩, .ro, 0, .none⟩, ⟨⟨31, 31⟩, .ro, 0, .none⟩, ⟨⟨21, 16⟩, .ro, 0, .none⟩, ⟨⟨47, 47⟩, .ro, 0, .none⟩, ⟨⟨37, 32⟩, .ro, 0, .none⟩, ⟨⟨63, 63⟩, .ro, 0, .none⟩, ⟨⟨53, 48⟩, .ro, 0, .none⟩]⟩,
  ⟨0x8001800, [(24, 0x10000), (256, 0x8)], .table, false, false, [⟨⟨15, 15⟩, .ro, 0, .none⟩, ⟨⟨5, 0⟩, .ro, 0, .none⟩, ⟨⟨31, 31⟩, .ro, 0, .none⟩, ⟨⟨21, 16⟩, .ro, 0, .none⟩, ⟨⟨47, 47⟩, .ro, 0, .none⟩, ⟨⟨37, 32⟩, .ro, 0, .none⟩, ⟨⟨63, 63⟩, .ro, 0, .none⟩, ⟨⟨53, 48⟩, .ro, 0, .none⟩]⟩,
  ⟨0x8002000, [(24, 0x10000), (3072, 0x8)], .table, false, false, [⟨⟨15, 15⟩, .ro, 0, .none⟩, ⟨⟨13, 8⟩, .ro, 0, .none⟩, ⟨⟨7, 7⟩, .ro, 0, .none⟩, ⟨⟨5, 0⟩, .ro, 0, .none⟩, ⟨⟨31, 31⟩, .ro, 0, .none⟩, ⟨⟨29, 24⟩, .ro, 0, .none⟩, ⟨⟨23, 23⟩, .ro, 0, .none⟩, ⟨⟨21, 16⟩, .ro, 0, .none⟩, ⟨⟨47, 47⟩, .ro, 0, .none⟩, ⟨⟨45, 40⟩, .ro, 0, .none⟩, ⟨⟨39, 39⟩, .ro, 0, .none⟩, ⟨⟨37, 32⟩, .ro, 0, .none⟩, ⟨⟨63, 63⟩, .ro, 0, .none⟩, ⟨⟨61, 56⟩, .ro, 0, .none⟩, ⟨⟨55, 55⟩, .ro, 0, .none⟩, ⟨⟨53, 48⟩, .ro, 0, .none⟩]⟩,
  ⟨0x8008000, [(24, 0x10000), (64, 0x10)], .table, false, false, [⟨fLinkFlowCtx, .ro, 0, .none⟩, ⟨fLinkFlowPos, .ro, 0, .none⟩, ⟨fLinkFlowSc, .rwc, 63, .remap 48 62 63⟩, ⟨fLinkFlowEgPost, .ro, 0, .none⟩, ⟨fLinkFlowEgBeats, .rwc, 0, .range 0 512⟩]⟩,
  ⟨0x8008008, [(24, 0x10000), (64, 0x10)], .table, false, false, [⟨fLinkFlowFwdFwd, .ro, 0, .none⟩]⟩,
  ⟨0x8180000, [], .any, false, false, [⟨fKflDevIdId, .rw, 0, .none⟩]⟩,
  ⟨0x8180008, [(8, 0x8)], .any, false, false, [⟨fKflCtxGroupGroup, .rw, 0, .none⟩]⟩]

/-- Registers of a front-die block, part 10. -/
def dieTable10 : List RegDesc := [
  ⟨0x8180100, [(64, 0x10)], .any, false, false, [⟨fKflRouteV, .rw, 0, .none⟩, ⟨fKflRouteLink, .rwc, 0, .range 0 23⟩, ⟨fKflRouteDevHi, .rw, 0, .none⟩, ⟨fKflRouteDevLo, .rw, 0, .none⟩]⟩,
  ⟨0x8180108, [(64, 0x10)], .any, false, false, []⟩,
  ⟨0x9000000, [(8, 0x8)], .any, false, false, [⟨fQuernCtxCfgRetryMax, .rwc, 2, .range 0 15⟩, ⟨fQuernCtxCfgQtolFactor, .rwc, 4, .range 1 16⟩]⟩,
  ⟨0x9000100, [(24, 0x8)], .any, false, false, [⟨fQstV, .rw, 0, .none⟩, ⟨fQstGroup, .rw, 0, .none⟩, ⟨fQstRing, .rwc, 0, .range 0 11⟩, ⟨fQstDir, .rw, 0, .none⟩, ⟨fQstLocalFlow, .rw, 0, .none⟩, ⟨fQstUpFlow, .rw, 0, .none⟩, ⟨fQstWireFlow, .rw, 0, .none⟩]⟩,
  ⟨0x9000800, [], .any, false, false, [⟨fQuernStatusOpen, .ro, 0, .none⟩]⟩,
  ⟨0x9001000, [(24, 0x100)], .any, false, false, [⟨fQeStatusBufUsed, .ro, 0, .none⟩]⟩,
  ⟨0x9001008, [(24, 0x100)], .any, false, false, [⟨⟨63, 0⟩, .ro, 0, .none⟩]⟩,
  ⟨0x9001010, [(24, 0x100)], .any, false, false, [⟨⟨63, 0⟩, .ro, 0, .none⟩]⟩,
  ⟨0x9001018, [(24, 0x100)], .any, false, false, [⟨⟨63, 0⟩, .ro, 0, .none⟩]⟩,
  ⟨0x9001020, [(24, 0x100)], .any, false, false, [⟨⟨63, 0⟩, .ro, 0, .none⟩]⟩,
  ⟨0x9001028, [(24, 0x100)], .any, false, false, [⟨⟨63, 0⟩, .ro, 0, .none⟩]⟩,
  ⟨0x9001030, [(24, 0x100)], .any, false, false, [⟨⟨63, 0⟩, .ro, 0, .none⟩]⟩]

/-- Registers of a front-die block, part 11. -/
def dieTable11 : List RegDesc := [
  ⟨0x9001038, [(24, 0x100)], .any, false, false, [⟨⟨63, 0⟩, .ro, 0, .none⟩]⟩,
  ⟨0x9001040, [(24, 0x100)], .any, false, false, [⟨⟨63, 0⟩, .ro, 0, .none⟩]⟩,
  ⟨0x9001048, [(24, 0x100)], .any, false, false, [⟨⟨63, 0⟩, .ro, 0, .none⟩]⟩,
  ⟨0x9001050, [(24, 0x100)], .any, false, false, [⟨fQeCntCtlClear, .wo, 0, .none⟩]⟩,
  ⟨0xA000000, [(16384, 0x8)], .hk, false, false, [⟨fSemAlloc, .rw, 0, .none⟩, ⟨fSemOrphan, .ro, 0, .none⟩, ⟨fSemSat, .w1c, 0, .none⟩, ⟨fSemOwner, .rw, 0, .none⟩, ⟨fSemWaiters, .ro, 0, .none⟩, ⟨fSemValue, .rw, 0, .none⟩]⟩,
  ⟨0xA100000, [(8, 0x20000), (16384, 0x8)], .hk, false, false, [⟨fSemMapValid, .rw, 0, .none⟩, ⟨fSemMapPost, .rw, 0, .none⟩, ⟨fSemMapWait, .rw, 0, .none⟩, ⟨fSemMapRemote, .rw, 0, .none⟩, ⟨fSemMapPsem, .rw, 0, .none⟩]⟩,
  ⟨0xA200000, [], .any, false, false, [⟨fWatchUsedRemoteUsed, .ro, 0, .none⟩, ⟨fWatchUsedLocalUsed, .ro, 0, .none⟩]⟩,
  ⟨0xA200008, [], .any, false, false, [⟨⟨63, 0⟩, .ro, 0, .none⟩]⟩,
  ⟨0xA200010, [], .any, false, false, [⟨⟨63, 0⟩, .ro, 0, .none⟩]⟩,
  ⟨0xA200018, [], .any, false, false, [⟨⟨63, 0⟩, .ro, 0, .none⟩]⟩,
  ⟨0xA200020, [], .any, false, false, [⟨⟨63, 0⟩, .ro, 0, .none⟩]⟩,
  ⟨0xA200028, [], .any, false, false, [⟨⟨63, 0⟩, .ro, 0, .none⟩]⟩]

/-- Registers of a front-die block, part 12. -/
def dieTable12 : List RegDesc := [
  ⟨0xA200030, [], .any, false, false, [⟨fSemCntCtlClear, .wo, 0, .none⟩]⟩,
  ⟨0xB000000, [(1024, 0x100)], .hk, false, false, [⟨fGtCfgValid, .rw, 0, .none⟩, ⟨fGtCfgCtx, .rw, 0, .none⟩, ⟨fGtCfgRetain, .rw, 1, .none⟩, ⟨fGtCfgMiller, .rw, 0, .none⟩, ⟨fGtCfgRings, .rwc, 0, .range 0 12⟩, ⟨fGtCfgMembers, .rwc, 1, .range 1 16777215⟩, ⟨fGtCfgPos, .rwc, 0, .leField 0 ⟨47, 24⟩ 1⟩]⟩,
  ⟨0xB000008, [(1024, 0x100)], .hk, false, false, [⟨fGtStepEpoch, .rw, 0, .none⟩, ⟨fGtStepStep, .rw, 0, .none⟩]⟩,
  ⟨0xB000010, [(1024, 0x100)], .hk, false, false, [⟨fGtClipC, .rw, 0, .none⟩]⟩,
  ⟨0xB000018, [(1024, 0x100)], .hk, false, false, [⟨fGtPlanPlan, .rw, 0, .none⟩]⟩,
  ⟨0xB000020, [(1024, 0x100)], .hk, false, false, [⟨fGtPlancntBuckets, .rwc, 0, .range 0 65536⟩]⟩,
  ⟨0xB000028, [(1024, 0x100)], .hk, false, false, [⟨fGtRetainRetMib, .rwc, 0, .range 0 4095⟩, ⟨fGtRetainBase, .rw, 0, .none⟩]⟩,
  ⟨0xB000030, [(1024, 0x100)], .hk, false, false, [⟨fGtSemStepdone, .rw, 0, .none⟩, ⟨fGtSemVerdict, .rw, 0, .none⟩, ⟨fGtSemUpdate, .rw, 0, .none⟩]⟩,
  ⟨0xB000038, [(1024, 0x100)], .hk, false, false, [⟨fGtSteprecRec, .rw, 0, .none⟩]⟩,
  ⟨0xB000040, [(1024, 0x100), (12, 0x8)], .hk, false, false, [⟨fGtRingV, .rw, 0, .none⟩, ⟨fGtRingNextLink, .rwc, 0, .range 0 23⟩, ⟨fGtRingPrevLink, .rwc, 0, .range 0 23⟩, ⟨fGtRingNextDev, .rw, 0, .none⟩, ⟨fGtRingPrevDev, .rw, 0, .none⟩]⟩,
  ⟨0xB080000, [(1024, 0x80)], .any, false, false, [⟨fRsCfgCkptEn, .rw, 0, .none⟩, ⟨fRsCfgRecoverEn, .rw, 0, .none⟩, ⟨fRsCfgCkptLinks, .rw, 0, .none⟩, ⟨fRsCfgRollbackMax, .rwc, 3, .range 1 15⟩, ⟨fRsCfgLossMs, .rwc, 1000, .range 10 60000⟩]⟩,
  ⟨0xB080008, [(1024, 0x80)], .any, false, false, [⟨fRsTimeCommitMs, .rwc, 10000, .range 10 600000⟩, ⟨fRsTimeGuardUs, .rwc, 100, .range 10 10000⟩, ⟨fRsTimePriorH, .rwc, 24, .range 1 65535⟩]⟩]

/-- Registers of a front-die block, part 13. -/
def dieTable13 : List RegDesc := [
  ⟨0xB080010, [(1024, 0x80)], .any, false, false, [⟨fRsCadenceMinSteps, .rwc, 1, .range 1 1000000⟩, ⟨fRsCadenceMaxSteps, .rwc, 10000, .geField ⟨31, 0⟩ 1000000⟩]⟩,
  ⟨0xB080018, [(1024, 0x80)], .any, false, false, [⟨fRsCmdCkptReq, .wo, 0, .none⟩]⟩,
  ⟨0xB080020, [(1024, 0x80)], .hk, false, false, [⟨fRsStateSlotKib, .rwc, 4, .range 4 65535⟩, ⟨fRsStateVa, .rw, 0, .none⟩]⟩,
  ⟨0xB080028, [(1024, 0x80)], .hk, false, false, [⟨fRsSlotsBankGib, .rwc, 1, .range 1 952⟩, ⟨fRsSlotsSlotsMax, .rwc, 0, .range 0 65535⟩, ⟨fRsSlotsSlotsUsed, .ro, 0, .none⟩]⟩,
  ⟨0xB080030, [(1024, 0x80)], .hk, false, false, [⟨fRsCkptGenGib, .rwc, 1, .range 1 238⟩, ⟨fRsCkptVa, .rw, 0, .none⟩]⟩,
  ⟨0xB080038, [(1024, 0x80), (2, 0x8)], .hk, false, false, [⟨fRsPlanVa, .rw, 0, .none⟩]⟩,
  ⟨0xB080048, [(1024, 0x80)], .hk, false, false, [⟨fRsMapVa, .rw, 0, .none⟩]⟩,
  ⟨0xB080050, [(1024, 0x80)], .hk, false, false, [⟨fRsRecVa, .rw, 0, .none⟩]⟩,
  ⟨0xB080058, [(1024, 0x80)], .any, false, false, [⟨fRsTrickleEn, .rw, 0, .none⟩, ⟨fRsTrickleRate, .rwc, 100, .range 1 2000⟩]⟩,
  ⟨0xB080060, [(1024, 0x80)], .any, false, false, [⟨fRsStatusLastCkpt, .ro, 0, .none⟩, ⟨fRsStatusPhase, .ro, 0, .none⟩, ⟨fRsStatusTrickleBusy, .ro, 0, .none⟩, ⟨fRsStatusGen, .ro, 0, .none⟩, ⟨fRsStatusInterval, .ro, 0, .none⟩]⟩,
  ⟨0xB080068, [(1024, 0x80)], .any, false, false, [⟨fRsStillUsStill, .ro, 0, .none⟩]⟩,
  ⟨0xB080070, [(1024, 0x80)], .any, false, false, [⟨fRsCntLosses, .ro, 0, .none⟩, ⟨fRsCntRollbacks, .ro, 0, .none⟩]⟩]

/-- Registers of a front-die block, part 14. -/
def dieTable14 : List RegDesc := [
  ⟨0xB080078, [(1024, 0x80)], .any, false, false, [⟨fRsRunSRun, .ro, 0, .none⟩]⟩]

/-- All register families of a front-die block. -/
def dieTable : List RegDesc :=
  dieTable0 ++ dieTable1 ++ dieTable2 ++ dieTable3 ++ dieTable4 ++ dieTable5 ++ dieTable6 ++ dieTable7 ++ dieTable8 ++ dieTable9 ++ dieTable10 ++ dieTable11 ++ dieTable12 ++ dieTable13 ++ dieTable14

/-- The register family at a device address, none where there is no register (R195). -/
def regDesc (a : Nat) : Option RegDesc :=
  match place a with
  | .core _ o => findDesc coreTable o
  | .hall _ o => findDesc hallTable o
  | .die o => findDesc dieTable o
  | _ => none

/-- The reset value of the register at an address (R10). -/
def regReset (a : Nat) : Word :=
  match regDesc a with
  | some d => d.reset
  | none => 0

end Sys2Proof.Machine
end

