-- ==== Sys2Proof/Machine/Sparse.lean ====
section
/-! DEFINITION. Sys2Proof/Machine/Sparse.lean: sparse maps from numbers to values as lists in one canonical form: keys strictly rising, and no entry equal to what an unlisted key reads as. -/

namespace Sys2Proof.Machine

/-- What key `k` holds: its entry, or the default of `k`. -/
def sget {α : Type} (d : Nat → α) (m : List (Nat × α)) (k : Nat) : α :=
  match m.find? fun e => e.1 == k with
  | some e => e.2
  | none => d k

/-- Put an entry where the rising order of keys wants it. -/
def sinsert {α : Type} (k : Nat) (v : α) : List (Nat × α) → List (Nat × α)
  | [] => [(k, v)]
  | e :: m => if k < e.1 then (k, v) :: e :: m else e :: sinsert k v m

/-- The map with key `k` holding `v`. -/
def sset {α : Type} [DecidableEq α] (d : Nat → α) (m : List (Nat × α)) (k : Nat) (v : α) : List (Nat × α) :=
  if v = d k then m.filter fun e => e.1 != k else sinsert k v (m.filter fun e => e.1 != k)

/-- The canonical form. -/
def swf {α : Type} [DecidableEq α] (d : Nat → α) (m : List (Nat × α)) : Bool :=
  decide (m.Pairwise fun a b => a.1 < b.1) && m.all fun e => decide (e.2 ≠ d e.1)

end Sys2Proof.Machine
end

