-- ==== Sys2Proof/Machine/State.lean ====
section
/-! DEFINITION. Sys2Proof/Machine/State.lean: the state of the block as plain data, the reasons a step can stop, and the state just after power-on. Registers lie in one sparse file keyed by device address (`regs`); everything else the spec gives the machine has a field of its own. -/

namespace Sys2Proof.Machine

/-! ### Reasons to stop -/

/-- Why a step could stop with a fault. No command of the table stops so: a context fault is an effect on the state. -/
inductive Fault where
  /-- Raised by no meaning of this model; safe. It keeps the outcome type of the interface inhabited. -/
  | none
  deriving DecidableEq, Repr

/-- Why a step could refuse a command. -/
inductive Refusal where
  /-- Raised by an arm of `exec` whose command has no meaning yet; safe. -/
  | notModelled (mnemonic : String)
  deriving DecidableEq, Repr

/-! ### Event recorder, flash, dumps (chapter 19) -/

/-- An event record as its writer hands it over (R433, R434, R470). -/
structure EvRec where
  code : Nat
  unit : Nat
  sub : Nat
  p1 : Word
  p2 : Word
  p3 : Word
  p4 : Word
  p5 : Word
  ctx : Option CtxId
  stop : Bool
  dump : Bool
  deriving DecidableEq, Repr

/-- A record accepted by the recorder, with its SEQ and TIME stamp (R435, R436). -/
structure LogRec where
  ev : EvRec
  seq : Nat
  time : Nat
  unset : Bool
  deriving DecidableEq, Repr

/-- The recorder (R435 to R439). -/
structure RecS where
  /-- Records that reached the recorder in the present Hearth cycle, in order of arrival (R435). -/
  arrivals : List EvRec := []
  /-- The buffer of up to 1,024 accepted records, oldest first (R437). -/
  buffer : List LogRec := []
  /-- SEQ of the next record accepted, EVR_STATUS.NEXT_SEQ (R435, R450). -/
  nextSeq : Nat := 0
  /-- The run of drops not yet reported: how many, and the code of the first (R437). -/
  drops : Option (Nat × Nat) := none
  /-- SEQ below which a flush asked for by software is still running, EVR_STATUS.FLUSH_BUSY (R450). -/
  flushTo : Option Nat := none
  /-- GEN of the log-index half in use (R439). -/
  gen : Nat := 0
  /-- The half in use: false 0x0200_0000, true 0x0200_8000 (R439). -/
  half : Bool := false
  /-- Entries appended to that half (R439). -/
  entries : Nat := 0
  /-- Records programmed since the last index entry (R439). -/
  since : Nat := 0
  deriving DecidableEq, Repr

/-- A ROLLBACK or REBUILD that waits for the end of a dump (R444): the group and what the message says. -/
inductive GroupRoll where
  | rollback (g epoch step cause kind : Nat)
  | rebuild (g epoch x newN : Nat) (own : Bool)
  deriving DecidableEq, Repr

/-- A dump being taken (R444). -/
structure DumpS where
  trigger : Nat
  ctx : Option CtxId
  scope : Bool
  /-- SEQ of the trigger record once the recorder has accepted it; none for a request. -/
  seq : Option Nat
  cores : List CoreId
  /-- Captured cores whose FREEZE was already set, and cores that this dump halted. -/
  frozen : List CoreId
  halted : List CoreId
  time : Nat
  unset : Bool
  /-- ROLLBACKs and REBUILDs that wait for step 6, oldest first. -/
  rolls : List GroupRoll
  deriving DecidableEq, Repr

/-! ### Clocks, resets, power (chapters 17, 18, 20) -/

/-- How far a start has come (R406, R411, R419, R421). -/
inductive Boot where
  | off
  | rails
  | tripHold
  | failed
  | neighbour
  | porch
  | hostImage
  | run
  deriving DecidableEq, Repr

/-- The firmware image that runs (R424, R428). -/
structure FwImg where
  seq : Nat
  svn : Nat
  len : Nat
  advance : Bool
  revoke : BitVec 4
  keySlot : Nat
  digest : BitVec 512
  bank : Nat
  deriving DecidableEq, Repr

/-- The Hearth, the boot path and the security block (R405 to R431). -/
structure HearthS where
  /-- The Hearth has power (R461). -/
  up : Bool := true
  /-- Where the start stands (R411). -/
  boot : Boot := .rails
  /-- The latch of the last trip's cause, and whether its POWER_TRIP record is still to be written (R406, R415). -/
  trip : Nat := 0
  tripNote : Bool := false
  /-- The calendar as written and the moment of the write, none before it is set (R436). -/
  cal : Option (Nat × Nat) := none
  /-- MOD_RESET_N has been seen low and holds power-good low (R457). -/
  resetLow : Bool := false
  /-- Fuses: the part's own, changed only by burns (R425). -/
  fuses : Fuses := Config.fuses
  /-- The firmware image running (R411, R428). -/
  img : Option FwImg := none
  /-- Held FW_WRITE header (R423). -/
  heldHdr : Option Bytes := none
  /-- An update has erased the inactive bank's header (R423). -/
  erased : Bool := false
  /-- Housekeeper image memory, 16 MiB, as pairs of offset and byte (R420, R421). -/
  hkMem : List Host.Cell := []
  /-- Next chunk index of a neighbour boot (R421). -/
  bootIdx : Nat := 0
  /-- Moment at which the watchdog's period began, none while it is not armed (R408). -/
  wdt : Option Nat := none
  /-- SEQ recovered at the beginning of the last start, none after a power-on (R417). -/
  startSeq : Option Nat := none
  /-- CONSEC_FAIL as the last start computed it (R417). -/
  consec : Nat := 0
  /-- The start before the last one ended by the watchdog or a power trip within ten minutes of its START_STABLE (R417 rule 3). -/
  prevLate : Bool := false
  /-- CAUSE bits of the reset that ended the last start (R417). -/
  endBits : Nat := 0
  /-- Verdict on the previous start as START gives it: 0 to 2, and the rule times 256 (R413). -/
  verdict : Nat := 0
  /-- Physical row bypassed in a column at its last grid build, by 12 h + x: the cores to which kept STRIKES belong (R101, R185). -/
  bypass : List (Nat × Nat) := []
  /-- Moment at which this start reached START_STABLE; and, once a reset has ended it, how long before in ms (R413). -/
  stableAt : Option Nat := none
  sinceStable : Option Nat := none
  /-- Hearth cycle in which the last reset came, and whether the watchdog was armed then: sources of one cycle are simultaneous (R407). -/
  resetAt : Option Nat := none
  resetWdt : Bool := false
  /-- The last firmware write to flash, of 4 KiB: the Hearth cycle in which it began, and its address (R407, R423). -/
  flashOp : Option (Nat × Nat) := none
  deriving DecidableEq, Repr

/-- A gear change or first start of the core clocks under way (R390, R396, R397). -/
structure GearChg where
  target : Nat
  prev : Nat
  locked : List (Fin 8)
  fails : List (Fin 8)
  fallback : Bool
  /-- Moment at which the core clocks stopped. -/
  at_ : Nat
  deriving DecidableEq, Repr

/-- The energy budget controller (R384 to R404). -/
structure EbcS where
  /-- The last 100 buckets of 100 us in microjoules, newest first (R386). -/
  window : List Nat := []
  /-- Microjoules of the bucket being filled (R386). -/
  bucket : Nat := 0
  /-- Microjoules and Headrace microjoules since the last step boundary (R386, R387). -/
  stepUj : Nat := 0
  stepHrUj : Nat := 0
  /-- Time of the last step boundary (R386). -/
  stepAt : Nat := 0
  /-- A device step boundary has been reported and the evaluation of R21 runs (R390). -/
  evaluating : Bool := false
  /-- The clock change under way (R390). -/
  change : Option GearChg := none
  /-- Halls whose PLL failed its first try since it started (R397). -/
  tried : List PllDom := []
  /-- The device stays at G0 until the next reset (R397). -/
  noGear : Bool := false
  /-- A hall or front-die sensor reached G4_C during the step (R389). -/
  g4Hot : Bool := false
  /-- G0 doze: hall PLLs off, stacks in self-refresh (R396). -/
  doze : Bool := false
  /-- The core clocks run (R390, R396). -/
  running : Bool := false
  /-- Decode engines ready to take samples (R390). -/
  ready : Nat := 0
  /-- Per hall: level on its way, level that waits there for the next period of 1,024 cc, and level applied (R392). -/
  gatePend : List (Option Nat) := List.replicate 8 none
  gateHere : List (Option Nat) := List.replicate 8 none
  gateLvl : List Nat := List.replicate 8 0
  /-- A step with an active engine has ended, so that ENG_W is measured (R387). -/
  engMeasured : Bool := false
  /-- Gear at which the hall PLLs are locked or locking, 0 while they are off (R396). -/
  pllGear : Nat := 0
  /-- Moment up to which GATE_NS has been brought, and what was less than a nanosecond then (R403). -/
  gateAt : Nat := 0
  gateRem : Nat := 0
  /-- The current excursion outside 46 to 54 V has been recorded (R384). -/
  excursion : Bool := false
  deriving DecidableEq, Repr

/-! ### Host attachment (chapter 16) -/

/-- A THP response (R369, R371). -/
structure ThpResp where
  sid : BitVec 32
  op : Nat
  seq : BitVec 32
  status : Nat
  arg0 : Word
  arg1 : Word
  payload : Bytes
  deriving DecidableEq, Repr

/-- What the device sends on the Ethernet port and the links (R346, R368, R369, R377, R421): an IPv6 packet with where it goes. -/
inductive Out where
  | thp (to_ : Dest) (r : ThpResp)
  | thpDev (to_ : Dest) (sid : BitVec 32) (op : Nat) (seq : Nat) (arg0 arg1 : Word) (payload : Bytes)
  | busy (to_ : Dest) (sid : BitVec 32) (op : Nat) (seq : Nat) (us : Nat)
  | roceAck (to_ : Dest) (qpn : BitVec 24) (psn : BitVec 24)
  | roceNak (to_ : Dest) (qpn : BitVec 24) (psn : BitVec 24) (code : Nat)
  | cnp (to_ : Dest) (qpn : BitVec 24)
  | pfc (prio quanta : Nat)
  | neighborAdv (to_ : Dest) (target : BitVec 128)
  | linkFrame (n : LinkId) (frame : Bytes)
  deriving DecidableEq, Repr

/-- A THP request that waits for a lower SEQ (R370): its opcode, arguments and payload. -/
structure ThpReq where
  op : Nat
  a0 : Word
  a1 : Word
  data : Bytes := []
  img : Option Image := none
  env : BuildEnv := ⟨[], []⟩
  id : BitVec 32 := 0
  deriving DecidableEq, Repr

/-- A device-originated request awaiting its answer (R370). -/
structure DevReq where
  op : Nat
  seq : Nat
  a0 : Word
  a1 : Word
  data : Bytes
  sends : Nat
  deriving DecidableEq, Repr

/-- A THP session (R370). -/
structure Session where
  sid : BitVec 32
  host : HostAddr
  cls : Nat
  group : Nat
  notices : Bool
  expect : Nat
  done : List ThpResp
  waiting : List (Nat × ThpReq)
  devNext : Nat
  devOut : List DevReq
  deriving DecidableEq, Repr

/-- A RoCEv2 queue pair (R377 to R379). -/
structure QpS where
  qpn : BitVec 24
  remote : BitVec 24
  host : HostAddr
  prio : BitVec 3
  ctx : CtxId
  psn : BitVec 24
  error : Bool
  nakSent : Bool
  /-- The write in progress: rkey, next address, bytes left (R377). -/
  cur : Option (BitVec 32 × Nat × Nat)
  pendAck : Nat
  /-- Time of the last CNP (R379). -/
  cnpAt : Option Nat
  deriving DecidableEq, Repr

/-- A memory region (R378). -/
structure MrS where
  rkey : BitVec 32
  doorbell : Bool
  ctx : CtxId
  pages : Nat
  va : Nat
  deriving DecidableEq, Repr

/-- The Ethernet side of the front die (R368 to R380). -/
structure HostS where
  /-- Open sessions, oldest first, at most 16 (R370). -/
  sessions : List Session := []
  /-- Notices waiting to be sent, at most 256: kind and parameter (R375). -/
  notices : List (Nat × Word) := []
  /-- A run of discarded notices has been recorded (R375). -/
  noticeDrop : Bool := false
  /-- Queue pairs, at most 64 (R378). -/
  qps : List QpS := []
  /-- Memory regions, at most 256 (R378). -/
  mrs : List MrS := []
  /-- Priorities paused by a received PFC frame, with their quanta and since when (R368). -/
  paused : List (Nat × Nat × Nat) := []
  /-- Frames of a paused priority that wait to be sent, oldest first (R368). -/
  held : List (Nat × Out) := []
  /-- BUSY answers of the last second with their source addresses, for the limits of R381. -/
  busyAt : List (BitVec 128 × Nat) := []
  deriving DecidableEq, Repr

/-! ### Headrace and Millpond (chapter 14) -/

/-- A clip between its start and its retirement (R319, R320). -/
structure ClipS where
  ring : Nat
  num : BitVec 32
  id : BitVec 32
  tag : Word
  recipe : Nat
  sampVa : Nat
  nsamp : Nat
  /-- The recipe's bytes as read at the clip's start (R331). -/
  rbytes : Bytes
  /-- The clip record as read at the clip's start (R319). -/
  record : Bytes
  /-- The clip's index, once built (R320). -/
  index : Option ClipIx
  next : Nat
  left : Nat
  /-- Codes of which a record has been written for this clip (R329). -/
  codes : List Nat
  retired : Bool
  deriving DecidableEq, Repr

/-- A sample held by a decode engine (R336). -/
structure EngineS where
  clip : Nat
  sample : Nat
  /-- The sample descriptor's bytes (R321). -/
  desc : Bytes
  slot : Nat
  deriving DecidableEq, Repr

/-- The state of a Millpond slot (R337). -/
inductive SlotS where
  | free
  | filling
  | ready
  | held
  | outbound
  | reserve
  | inbound
  deriving DecidableEq, Repr

/-- A release kept for a repeated step (R339, R341). -/
structure HeldS where
  slot : Nat
  tag : Word
  clip : BitVec 32
  deriving DecidableEq, Repr

/-- An exchange round (R342 to R344). -/
structure RoundS where
  step : BitVec 32
  dist : Nat
  /-- Samples of the sender handled so far: index and 128-byte beats landed. -/
  handled : List Nat
  landed : List (Nat × Nat)
  slots : List Nat
  acks : Nat
  complete : Bool
  deriving DecidableEq, Repr

/-- Headrace and Millpond (R316 to R354). -/
structure PondS where
  clips : List (Option ClipS) := List.replicate 8 none
  engines : List (Option EngineS) := List.replicate 8 none
  /-- The ring served last (R320). -/
  lastRing : Nat := 15
  /-- Records started but not retired, or retired out of order, per ring: number of the next record to start. -/
  started : List (BitVec 32) := List.replicate 16 0
  /-- Record numbers retired out of order, per ring (R320). -/
  retired : List (Nat × BitVec 32) := []
  /-- The pool's slots stand: the Millpond has been enabled (R337). -/
  pool : Bool := false
  /-- States of the slots that are not FREE (R337). -/
  slots : List (Nat × SlotS) := []
  /-- Used length of the sample in a slot, in 128-byte beats (R343). -/
  used : List (Nat × Nat) := []
  /-- The ready list (R338). -/
  readyList : List Nat := []
  /-- The queue served last (R339). -/
  lastQueue : Nat := 15
  /-- Slots held per queue in release order (R341). -/
  held : List (Nat × List HeldS) := []
  /-- Held releases still to be repeated, per queue (R341). -/
  replay : List (Nat × List HeldS) := []
  round : Option RoundS := none
  /-- A pause is in force towards the host (R346). -/
  pausing : Bool := false
  /-- Since when a request has been pending with the ready list empty, and dispatch has waited (R354). -/
  emptyAt : Option Nat := none
  fullAt : Option Nat := none
  /-- How long either has lasted before, in time units (R354). -/
  emptyFor : Nat := 0
  fullFor : Nat := 0
  deriving DecidableEq, Repr

/-! ### Links and the Quern (chapters 12, 13) -/

/-- A tag of a link router's watch table (R278). -/
structure TagS where
  tag : Nat
  core : CoreId
  sc : BitVec 6
  ctx : CtxId
  quarantine : Bool
  deriving DecidableEq, Repr

/-- A KIND 0 record in a combine buffer (R301). -/
structure QRec where
  tag : Nat
  tile : Nat
  attempt : Nat
  isLocal : Bool
  hops : Nat
  sum : BitVec 64
  abs : BitVec 64
  data : Bytes
  deriving DecidableEq, Repr

/-- A record that a station sends, or what is left of it to pass into the egress buffer: its group, its bytes, and the tag whose gather ends with
it (R273, R294, R305). -/
structure WireS where
  group : Nat
  bytes : Bytes
  last : Option Nat
  deriving DecidableEq, Repr

/-- A fabric link with its router and Quern engine (R266 to R315). -/
structure LinkS where
  /-- Egress bytes not yet on the wire, per flow (R273). -/
  egress : List (Nat × Bytes) := []
  /-- Egress beats reserved for forwarded ingress beats, per flow (R281). -/
  reserved : List (Nat × Nat) := []
  /-- Ingress buffer entries in order: flow and bytes not yet released (R275). -/
  ingress : List (Nat × Bytes) := []
  /-- Since when a beat of a flow has been held (R281, R282). -/
  heldAt : List (Nat × Nat) := []
  /-- Of each ingress flow that feeds a station: the payload beats still to come of the record whose header has been released, and that header (R305). -/
  recAt : List (Nat × Nat × Bytes) := []
  /-- Since when some beat has been held (R292), and per ingress flow its bytes received modulo 128 (R269). -/
  holdFrom : Nat := 0
  rxPhase : List (Nat × Nat) := []
  /-- Flows whose frames are discarded until the context is resumed or ended (R282, R357). -/
  discard : List Nat := []
  /-- Outgoing control queue; messages beyond the 64th stand for those still on the bell wire (R279, log entry 82). -/
  ctlOut : List CtlMsg := []
  /-- Control messages received and not yet dispatched (R279). -/
  ctlIn : List CtlMsg := []
  /-- Frame credits held, and credits to return (R275). -/
  credits : Nat := 256
  toReturn : Nat := 0
  /-- Frame index of the next frame sent, and of the next received once START has arrived (R270). -/
  txIdx : Nat := 0
  rxIdx : Option Nat := none
  tags : List TagS := []
  /-- Corrected bytes of the last millisecond, by time, and whether they have been recorded as too many (R268). -/
  corrs : List (Nat × Nat) := []
  degraded : Bool := false
  /-- Consecutive failures to reach SHUTTERED (R284). -/
  fails : Nat := 0
  /-- The partner has sent an IDENT since training, and an ECHO has returned (R284). -/
  identSeen : Bool := false
  echoSeen : Bool := false
  peerNuore : Bool := false
  /-- MODE in force, taken at training (R289). -/
  mode : Bool := false
  /-- The digest mismatch has been recorded (R271). -/
  mismatch : Bool := false
  peerDigest : Option (BitVec 32) := none
  /-- READY of the partner's last IDENT, and whether the partner has been recorded as another than the expected one (R286). -/
  peerReady : Bool := false
  wrongPeer : Bool := false
  /-- Next chunk of the firmware image that the link serves to a booting neighbour (R421). -/
  serve : Option Nat := none
  /-- Records of the station that wait for egress space, and gathered tags whose last record has been sent (R273, R305). -/
  wireQ : List WireS := []
  gathSent : List (Nat × Nat) := []
  /-- The station's combine buffer (R294, R301). -/
  combine : List QRec := []
  /-- Epochs for which a ring-peer mismatch was recorded (R312). -/
  badPeer : List Nat := []
  /-- A carried still sends KIND 3 records in place of the TXSLOT flow (R360). -/
  still : Bool := false
  deriving DecidableEq, Repr

/-- A retained contribution: the region holds its record at the given virtual address (R300). -/
structure RetS where
  tag : Nat
  tile : Nat
  va : Nat
  /-- The record on its way to the region: header and payload, until it commits. -/
  data : Bytes
  committed : Bool
  /-- The bucket's ACK has passed: the record leaves the region as soon as it has been written (R300). -/
  acked : Bool := false
  deriving DecidableEq, Repr

/-- A reduction bucket seen in the present step (R295, R303). -/
structure BucketS where
  tag : Nat
  attempt : Nat
  /-- Tiles contributed by a local core (R300), tiles that passed here as owner (R303), tiles gathered here (R305). -/
  local_ : List Nat
  passed : List Nat
  gathered : List Nat
  complete : Bool
  acked : Bool
  gathDone : Bool
  /-- FP64 sum of squares of the bucket (R306). -/
  sq : BitVec 64
  deriving DecidableEq, Repr

/-! ### Groups (chapter 15) -/

/-- A core's part of a snapshot: register addresses and values (R355). -/
structure SnapS where
  regs : List (Nat × Word)
  sems : List (Nat × Word)
  deriving DecidableEq, Repr

/-- A checkpoint still under way (R360). -/
structure StillS where
  gen : Nat
  bytes : Nat
  selfDone : Bool
  /-- Offsets landed in the buddy area. -/
  landed : List Nat
  buddyDone : Bool
  atTime : Nat
  deriving DecidableEq, Repr

/-- The group snapshot (R360): the group table entries, and the Miller's member list by the positions that the image gives. -/
structure GroupSnapS where
  regs : List (Nat × Word)
  members : List Nat
  deriving DecidableEq, Repr

/-- A trickle of a self area (R361, R380): generation, step, offset of the next bytes, end of the area, and whether the header has
been sent. -/
structure TrickleS where
  gen : Nat
  step : Nat
  next : Nat
  total : Nat
  headerSent : Bool
  deriving DecidableEq, Repr

/-- A recovery under way (R363). -/
structure RecoverS where
  lost : Nat
  oldN : Nat
  ckpt : Nat
  epoch : Nat
  /-- SLOTS_USED before the recovery. -/
  used : Nat
  /-- This member held the lost member's buddy area. -/
  holder : Bool
  /-- The lost member's ownership list. -/
  tags : List Nat
  deriving DecidableEq, Repr

/-- A group on this device: the Quern's step and the step commit (R294 to R313, R355 to R366). -/
structure GroupS where
  buckets : List BucketS := []
  /-- The plan entries read since the step began, by tag: the stations' plan caches (R294, R297). -/
  entries : List (Nat × Bytes) := []
  retained : List RetS := []
  /-- This device's partial sum and the sum received from the previous position (R306). -/
  normIn : Option (BitVec 64 × Nat) := none
  normSent : Bool := false
  verdict : Bool := false
  status : Nat := 0
  gval : BitVec 64 := 0
  nonfinite : Nat := 0xFFFFFF
  retries : Nat := 0
  updBase : Nat := 0
  gatherNext : Nat := 0
  stepDone : Bool := false
  /-- STEP_DONE posted, own readiness, VOTE received and its TRICKLE_OK (R356). -/
  ready : Bool := false
  voteIn : Option Bool := none
  voted : Bool := false
  committed : Bool := false
  readyAt : Option Nat := none
  snapshot : Option SnapS := none
  groupSnap : Option GroupSnapS := none
  /-- The member list: in ring order, the positions that the image gave the members (R360) (log entry 204, DEDUCED). -/
  members : List Nat := []
  halted : Bool := false
  /-- PHASE_DONE of phases 0 to 2 received from the predecessor, and own phase reached (R357). -/
  phaseIn : List Nat := []
  phaseOwn : List Nat := []
  phaseSent : List Nat := []
  /-- The Miller waits GUARD_US after PHASE_DONE(0) (R357). -/
  guard : Bool := false
  kind : Nat := 0
  /-- Rollbacks of the present step, and the last causing member with its consecutive count (R358). -/
  rollbacks : Nat := 0
  causer : Option (Nat × Nat) := none
  /-- FAULT reports held: code, reporter, link, named position, time (R357, R363). -/
  faults : List (Nat × Nat × Nat × Nat) := []
  /-- Checkpoint counter k, the newest valid one's step and the committed steps since (R359, R360). -/
  ckpts : Nat := 0
  lastCkpt : Option Nat := none
  sinceCkpt : Nat := 0
  ckptForced : Bool := false
  /-- A recovery's first checkpoint is still to come (R365). -/
  recovered : Bool := false
  ckptReq : Bool := false
  deferred : Bool := false
  still : Option StillS := none
  /-- Of the next checkpoint, before this member has adopted its COMMIT: the offsets landed in the buddy area, and whether it has failed already (R360,
  R362). -/
  early : List Nat := []
  earlyBad : Bool := false
  trickle : Option TrickleS := none
  /-- Areas whose trickle waits for the one before (R361). -/
  trickleQ : List TrickleS := []
  trickleDone : List Nat := []
  recover : Option RecoverS := none
  /-- The ownership list of every position (R355), and the image's micro-batches. -/
  lists : List (List Nat) := []
  micro : Nat := 0
  /-- Position of the Miller, as the image gives it (R356). -/
  miller : Nat := 0
  /-- The times between the last 16 commits, and when the last one was (R359). -/
  commitTimes : List Nat := []
  commitAt : Option Nat := none
  /-- Time the context has run since load, recoveries apart, in time units (R359, R366). -/
  runUnits : Nat := 0
  /-- Since when it runs. -/
  runFrom : Option Nat := none
  unrecoverable : Bool := false
  deriving DecidableEq, Repr

/-! ### Semaphore unit and bell wire (chapters 8, 10) -/

/-- A registered GWAIT (R224). -/
structure WaiterS where
  psem : Nat
  vsem : BitVec 14
  core : CoreId
  ctx : CtxId
  equal : Bool
  consume : Bool
  value : BitVec 32
  deriving DecidableEq, Repr

/-- Where a watch answers: a core of this device, or a remote tag (R225, R278). -/
inductive WatchTo where
  | core (c : CoreId) (sc : BitVec 6)
  | remote (dev : BitVec 24) (rlink : BitVec 5) (rtag : BitVec 6)
  deriving DecidableEq, Repr

/-- A registered watch (R225). -/
structure WatchS where
  psem : Nat
  ctx : CtxId
  equal : Bool
  value : BitVec 32
  to_ : WatchTo
  deriving DecidableEq, Repr

/-- An entry of the semaphore unit: a waiter or a watch. -/
inductive SemEntry where
  | wait (w : WaiterS)
  | watch (w : WatchS)
  deriving DecidableEq, Repr

/-- The semaphore unit (R222 to R236). -/
structure SemS where
  /-- Waiters and watches in their order of registration (R223). -/
  entries : List SemEntry := []
  deriving DecidableEq, Repr

/-! ### Cores (chapters 2 to 8) -/

/-- A fetched bundle (R52, R129). -/
structure BundleS where
  idx : BitVec 16
  bits : BitVec 256
  deriving DecidableEq, Repr

/-- A walk: `len` accesses in consecutive cc from `start`. Of a tile file it uses bank `tile` in its first cc and the next
bank in each further one (R57, R58); `unit` is a collector OC0 to OC3 as 0 to 3, or port M as 4. -/
structure WalkS where
  start : Nat
  len : Nat
  tile : Option Nat
  unit : Option Nat
  deriving DecidableEq, Repr

/-- An issued operation that has not ended (R28 to R31, R55): what it was issued with and what it still holds. -/
structure FlightS where
  instr : Instr
  /-- The cc of its issue, and a number that gives the original order of issue (R69). -/
  issue : Nat
  order : Nat
  pc : Nat
  /-- Base, stride and rows as taken at issue (R55), and the captured vector operands B and C. -/
  base : Int
  stride : Int
  rows : Nat
  vb : Bytes
  vc : Bytes
  /-- Rows read and not yet written; the data of a store. -/
  data : List Bytes
  /-- First cc after its last action. -/
  done : Nat
  walks : List WalkS
  /-- Tiles it reads, with the cc from which each is free of it; tiles it writes, with the cc of residence (R28, R68). -/
  reads : List (Nat × Nat)
  writes : List (Nat × Nat)
  /-- Registers it writes, with the cc of availability (R133): S0 to S31 as 0 to 31, V0 to V15 as 32 to 47. -/
  dests : List (Nat × Nat)
  deriving DecidableEq, Repr

/-- One pass with the operand rows it was issued with (R55, R78, R80). -/
structure PassS where
  ta : BitVec 6
  tw : BitVec 6
  td : BitVec 6
  n : BitVec 6
  rate : BitVec 2
  keep : Bool
  chain : Bool
  rowsA : List Bytes
  rowsW : List Bytes
  cfgA : Word
  cfgW : Word
  issue : Nat
  order : Nat
  pc : Nat
  /-- First data read d (R31). -/
  d : Nat
  /-- It has been counted as completed: its rows are held (R102). -/
  counted : Bool
  deriving DecidableEq, Repr

/-- A single pass or a whole chain whose destination is not yet resident (R31, R83, R90). -/
structure RunS where
  list : List PassS
  /-- The cc of its check end, and w. With checking off there is no check. -/
  checked : Bool
  check : Nat
  w : Nat
  reexec : Bool
  /-- The result rows once the check has passed. -/
  result : Option (List Bytes)
  deriving DecidableEq, Repr

/-- A live descriptor as its engine holds it beside its STRM_ENTRY (R148, R152, R155). -/
structure DescS where
  /-- PC of the SLNCH that launched it. -/
  pc : Nat
  /-- The 64 bytes read at start, none before (R152). -/
  bytes : Option Bytes
  /-- It must be staged (R121), and waits for its staging area. -/
  staged : Bool
  waiting : Bool
  /-- Cellar frame base, and CEL_TOP, FRAMES before the start (R249, R250); the tag has been checked. -/
  frame : Option (Nat × Nat × Nat)
  tagOk : Bool
  /-- Requests accepted by a stack cache and not yet answered. -/
  reqs : Nat
  /-- Pages it has demand-read (R205). -/
  pages : List Nat
  /-- A number of its own, by launch order. -/
  id : Nat
  /-- The index table as checked (R117). -/
  idx : Option (List Nat)
  /-- The context has stopped since: the table is read and checked again, and requests begin at the progress point (R125). -/
  recheck : Bool := false
  /-- A fault: the descriptor sends no further request (R210). -/
  faulted : Bool := false
  /-- Progress point up to which requests have been sent, and runs beyond the progress point that have committed (R124). -/
  sent : Nat := 0
  ahead : List (Nat × Nat) := []
  /-- Lines of the source whose read has been answered, by VA, newest first. -/
  held : List (Nat × Bytes) := []
  /-- Bytes of the source of an overlapping plain copy that the copy itself has overwritten, by device address (R121). -/
  old : List Host.Cell := []
  deriving DecidableEq, Repr

/-- A descriptor that has left its core's list with requests accepted and not yet answered, its context and its direction: they still complete (R202). -/
structure GoneS where
  ctx : CtxId
  down : Bool
  desc : DescS
  deriving DecidableEq, Repr

/-- A request that waits in a core's stream engine for a reserved outbound slot (R42, R202): its descriptor, the address it names, the stack and
line that it reaches, the edge core of the stack's router and the lane by which it will arrive (R201), its kind, the run of progress points that it
moves, and the pages of that run as they were translated for it. `refused` marks one that the stack has refused. -/
structure OutReqS where
  desc : Nat
  va : Nat
  stack : Nat
  line : Nat
  port : Nat
  lane : Nat
  kind : StackReq
  lo : Nat
  hi : Nat
  pages : List (Nat × Nat)
  ecc : EccRes
  refused : Bool
  deriving DecidableEq, Repr

/-- A mesh send in progress (R37): its rows, how many have left, and the cc in which each leaves. -/
structure SendS where
  flow : BitVec 6
  ct : BitVec 6
  n : BitVec 6
  rows : List Bytes
  sent : Nat
  ats : List Nat
  tile : Nat
  deriving DecidableEq, Repr

/-- Why a core is going to stop at its next bundle boundary (R67). -/
inductive StopCause where
  | halt
  | preempt
  | fault (code : Nat)
  | group
  deriving DecidableEq, Repr

/-- The step-end marker (R39, R137). -/
inductive MarkerS where
  | none
  | issued (exit : Bool)
  | retired (exit : Bool)
  deriving DecidableEq, Repr

/-- The GWAIT outstanding (R224, R237): semaphore word, compare value, index of its bundle. -/
structure GwaitS where
  sem : Word
  value : BitVec 32
  pc : Nat
  deriving DecidableEq, Repr

/-- A core position's state outside its registers and memories (chapters 2 to 8, 10). -/
structure CoreS where
  /-- Present: a context's state is on the core (R235). -/
  present : Bool := false
  /-- The issue queue, the index fetched next, and whether port F has served a fetch in this cc (R52, R72). -/
  queue : List BundleS := []
  fetchIdx : Nat := 0
  fetched : Bool := false
  /-- The first lines of the bodies of active loops as they were fetched: START and the bundles from there to the end of the line (R52, R54). -/
  kept : List (Nat × List BundleS) := []
  flights : List FlightS := []
  sends : List SendS := []
  runs : List RunS := []
  /-- The passes of the open chain (R83). -/
  chain : List PassS := []
  /-- Last data read of the newest pass, and the cc before which no ARR instruction issues (R31, R32). -/
  arrLast : Nat := 0
  arrHold : Nat := 0
  /-- Earliest next issue for each class of R30. -/
  unitNext : List (Nat × Nat) := []
  /-- Issue order of the next operation (R69). -/
  order : Nat := 0
  /-- Live descriptors in launch order, beside their STRM_ENTRY registers (R155). -/
  descs : List DescS := []
  gone : List GoneS := []
  /-- Operations abandoned and passes discarded at a stop, in issue order (R67, R95). -/
  restart : List FlightS := []
  /-- The restarts have been counted in a TILE_RESTART record to come (R70). -/
  reissued : Nat := 0
  /-- Completion posts on their way: cc, counter, count (R37, R38, R142). -/
  posts : List (Nat × Nat × Nat) := []
  /-- Bindings whose last row has been written: the cc in which each posts and closes, and its flow (R38). -/
  closing : List (Nat × Nat) := []
  /-- Flows for which a binding has opened in this cc (R30), and a STOP_DONE that waits for rows to be delivered (R44). -/
  opened : List Nat := []
  tellStop : Bool := false
  stopCause : Option StopCause := none
  marker : MarkerS := .none
  /-- Cc left of the empty bundles after a taken transfer (R134). -/
  bubble : Nat := 0
  /-- The head bundle has been tried in this cc: some none for an issue, some (some i) for a stall with cause i (R47). -/
  attempt : Option (Option Nat) := none
  gwait : Option GwaitS := none
  /-- Consecutive cc the head bundle has waited on a counter, and whether the core is gated (R220). -/
  waited : Nat := 0
  gated : Bool := false
  /-- The cc up to which HALT_CNT and the NOWORK counters of an idle core have been brought (R46, R49). -/
  haltAt : Nat := 0
  /-- Translation cache: context, virtual page, entry (R209). -/
  tlb : List (Nat × Nat × Word) := []
  /-- Requests that wait for a slot with SRC = 6, oldest first, and how many have left in this cc (R42). -/
  outq : List OutReqS := []
  outSent : Nat := 0
  /-- Lines prefetched and not yet demand-read, each with the number of its descriptor (R205, R251). -/
  prefetch : List (Nat × Nat) := []
  /-- The stream engine has worked in this cc (R49). -/
  strm : Bool := false
  /-- Single step asked for (R76). -/
  step : Bool := false
  /-- A restore or a pre-emption whose cc count as PREEMPT has not ended (R44). -/
  preempted : Bool := false
  deriving DecidableEq, Repr

/-- A context's state of one core as the Housekeeper has saved it (R76, R95, R235, R475): the core, its context-state registers with
CORE_STATUS, the bytes of its tile file, the core's queues and pending operations, and ARR_CTX_CFG of the context in the core's hall (R100). -/
structure SavedS where
  core : CoreId
  regs : List (Nat × Word)
  tiles : List Host.Cell
  ops : CoreS
  arrCfg : Word
  deriving DecidableEq, Repr

/-! ### Contexts -/

/-- A context on the device (R16, R375, R376). -/
structure CtxS where
  loaded : Bool := false
  started : Bool := false
  /-- Stopped by STOP or by a fault: the code, 0 for STOP (R375). -/
  stopped : Option Nat := none
  /-- Code of the fault that is stopping it, 0 for none. -/
  cause : Nat := 0
  /-- Halted by its group (R357). -/
  groupHalt : Bool := false
  img : Option Image := none
  /-- SHA-512 of the whole image (R428). -/
  digest : BitVec 512 := 0
  /-- Cores that have exited (R137). -/
  exited : List CoreId := []
  /-- At its context step boundary (R16), and past the device step boundary or the join wait and any gear change (R137). -/
  boundary : Bool := false
  joined : Bool := false
  /-- Cores that have reported STOP_DONE since the stop was asked for (R179). -/
  stopDone : List CoreId := []
  /-- The state of cores from which the context is absent (R235). -/
  saved : List SavedS := []
  /-- The context's staging area: its holder and those that wait, each with its descriptor's number and the cc in which it reached the area (R122). -/
  staging : List (CoreId × Nat × Nat) := []
  deriving DecidableEq, Repr

/-! ### Stacks and translation (chapter 9) -/

/-- A request accepted by a stack cache: its core and context, its descriptor's number, the address it names, its kind, the run of progress points that it
moves, and the pages of that run as they were translated for it, by virtual page and base (R202, R209). -/
structure ReqS where
  core : CoreId
  ctx : CtxId
  desc : Nat
  va : Nat
  kind : StackReq
  lo : Nat
  hi : Nat
  pages : List (Nat × Nat)
  deriving DecidableEq, Repr

/-- Read data that a stack's router holds for a core until its next return slot (R42): the request, its line, and the line's bytes, none of a poisoned
one (R199). -/
structure BackS where
  req : ReqS
  line : Nat
  data : Option Bytes
  deriving DecidableEq, Repr

/-- A miss slot of a stack cache: the line, the requests merged into it in order of arrival, and the moment of its allocation (R202, R203). -/
structure MissS where
  line : Nat
  reqs : List ReqS
  since : Nat
  deriving DecidableEq, Repr

/-- A stack with its stack cache (R198 to R204). -/
structure StackS where
  /-- Lines present, most recently used first, with their dirty mark (R201). -/
  lines : List (Nat × Bool) := []
  misses : List MissS := []
  /-- Lines in the write-back buffer, oldest first (R200). -/
  wb : List Nat := []
  /-- Lines that a prefetch brought in and no demand read has hit (R215). -/
  pf : List Nat := []
  slowBanks : List Nat := []
  /-- Data held for return, oldest first (R42). -/
  back : List BackS := []
  /-- The cc, edge core and lane of the last request that came in its own cc (R201). -/
  arrived : Nat × Nat := (0, 0)
  deriving DecidableEq, Repr

/-- A beat on its way (R170): the core index it reaches, or a key of an attachment lane; the input there as its SRC code of R35
(15 EDGE lane 2, 16 + f the EJECT write of flow f); the cc in which it arrives; the core that sent it, 1152 for none. -/
structure BeatS where
  dest : Nat
  inp : Nat
  due : Nat
  src : Nat
  data : Bytes
  deriving DecidableEq, Repr

/-! ### The whole block -/

/-- The state of the block. -/
structure State where
  /-- Commands waiting, first in first out (the model's own queue). -/
  pending : List Instr
  /-- Every register of the spec, by 48-bit device address; an address not listed holds its reset value. -/
  regs : List (Nat × Word)
  /-- HBM by physical address, core stores and tile files by device address; a byte not listed reads 0. -/
  mem : List Host.Cell
  /-- Poisoned 128-byte lines of HBM, by line address (R199). -/
  poison : List Nat
  /-- Flash, 512 MiB; a byte not listed reads 0xFF (R422). -/
  flash : List Host.Cell
  /-- Time since the Hearth gained power, in units of 1/126 ns. -/
  now : Nat
  /-- Core cycles since power-on, and SLOT (R34). -/
  cc : Nat
  slot : Nat
  cores : List (Nat × CoreS)
  ctxs : List (Nat × CtxS)
  hbm : List (Nat × StackS)
  links : List (Nat × LinkS)
  groups : List (Nat × GroupS)
  sem : SemS
  /-- Messages on the bell wire, in the order in which they entered their present queues, and for each output and class the input it served last (R175). -/
  bell : List BellMsg
  bellServed : List (Nat × Nat)
  /-- Beats on their way on mesh links and attachment lanes (R170, R173). -/
  beats : List BeatS
  pond : PondS
  host : HostS
  ebc : EbcS
  hearth : HearthS
  log : RecS
  dump : Option DumpS
  /-- A freeze or unfreeze of all counters on its way (R449). -/
  snapPend : Option Bool
  /-- Device-wide invalidations, the first under way, the others held until BUSY falls: a context, and a page or all (R211, R216). -/
  inval : List (Nat × Option Nat)
  /-- Packets and frames sent on the port and the links, oldest first. -/
  sent : List Out
  /-- Index of the next free value (the model's own counter, see Config.freeValue). -/
  free : Nat
  deriving DecidableEq, Repr

/-- The state just after power-on: the Hearth up, power-good not yet risen (R405, R415, R462) (log entry 2, DESIGN CHOICE). -/
def State.reset : State where
  pending := []
  regs := []
  mem := []
  poison := []
  flash := Config.flash.foldl (fun m e => sset (fun _ => 0xFF) m e.1 e.2) []
  now := 0
  cc := 0
  slot := 0
  cores := []
  ctxs := []
  hbm := []
  links := []
  groups := []
  sem := {}
  bell := []
  bellServed := []
  beats := []
  pond := {}
  host := {}
  ebc := {}
  hearth := {}
  log := {}
  dump := none
  snapPend := none
  inval := []
  sent := []
  free := 0

end Sys2Proof.Machine
end

