-- ==== Sys2Proof/Machine/Ops.lean ====
section
/-! DEFINITION. Sys2Proof/Machine/Ops.lean: the named operations over registers, memory, cores, links and groups; event records; stopping a context; messages on the bell wire. -/

namespace Sys2Proof.Machine

/-- The outcome type of every meaning. -/
abbrev Res := Host.Outcome State Fault Refusal

/-! ### Registers -/

/-- The stored value of the register at an address. -/
def State.reg (s : State) (a : Nat) : Word := sget regReset s.regs a

/-- Store a register's value. -/
def State.setReg (s : State) (a : Nat) (v : Word) : State := { s with regs := sset regReset s.regs a v }

/-- A field of a register. -/
def State.fget (s : State) (a : Nat) (f : Fd) : Nat := f.get (s.reg a)

/-- Store a field of a register. -/
def State.fput (s : State) (a : Nat) (f : Fd) (v : Nat) : State := s.setReg a (f.put (s.reg a) v)

/-- Is a one-bit field set? -/
def State.flag (s : State) (a : Nat) (f : Fd) : Bool := s.fget a f == 1

/-- Add to a 64-bit counter, which wraps (R50 and every counter block). -/
def State.count (s : State) (a n : Nat) : State := s.setReg a (s.reg a + BitVec.ofNat 64 n)

/-- Registers of an address range back to their reset values. -/
def State.resetRegs (s : State) (keep : Nat → Bool) : State := { s with regs := s.regs.filter fun e => keep e.1 }

/-- 16-bit entry `i` of a table packed four to a register, whose registers are given by `a`. -/
def State.entry16 (s : State) (a : Nat → Nat) (i : Nat) : Nat := bitsN (s.reg (a (i / 4))).toNat (16 * (i % 4) + 15) (16 * (i % 4))

/-- Slot period P of the edge core (R35). -/
def State.slotPeriod (s : State) (c : CoreId) : Nat := 2 ^ s.fget (rPortSlotCfg c) fPortSlotCfgPeriodLog2

/-! ### Memory -/

/-- What a byte that nothing has written reads as (assumption 3). -/
def memDefault : Nat → Byte := fun _ => 0

/-- One byte of memory. -/
def State.rdB (s : State) (a : Nat) : Byte := sget memDefault s.mem a

/-- Store one byte. -/
def State.wrB (s : State) (a : Nat) (b : Byte) : State := { s with mem := sset memDefault s.mem a b }

/-- `n` bytes from address `a`. -/
def State.rdBytes (s : State) (a n : Nat) : Bytes := (List.range n).map fun i => s.rdB (a + i)

/-- Store a run of bytes from address `a`. -/
def State.wrBytes (s : State) : Nat → Bytes → State
  | _, [] => s
  | a, b :: bs => (s.wrB a b).wrBytes (a + 1) bs

/-- The canonical form of memory. -/
def Memory.wf (m : List Host.Cell) : Bool := swf memDefault m

/-- The 128-byte line of an address. -/
def lineOf (a : Nat) : Nat := a / 128 * 128

/-- Is any line of the `n` bytes from `pa` poisoned (R199)? (log entry 71, DEDUCED) -/
def State.poisoned (s : State) (pa n : Nat) : Bool :=
  s.poison.any fun l => decide (l < pa + n) && decide (pa < l + 128)

/-- Store bytes in HBM: a line written whole loses its poison, a partial write leaves it (R199). -/
def State.wrHbm (s : State) (pa : Nat) (b : Bytes) : State :=
  let s1 := s.wrBytes pa b
  { s1 with poison := s1.poison.filter fun l => !(decide (pa ≤ l) && decide (l + 128 ≤ pa + b.length)) }

/-- Poison a line (R199). -/
def State.poisonLine (s : State) (l : Nat) : State :=
  if s.poison.contains l then s else { s with poison := l :: s.poison }

/-- One byte of flash; erased flash reads 0xFF (R422, R438). -/
def State.flashB (s : State) (a : Nat) : Byte := sget (fun _ => 0xFF) s.flash a

/-- `n` bytes of flash. -/
def State.flashBytes (s : State) (a n : Nat) : Bytes := (List.range n).map fun i => s.flashB (a + i)

/-- Flash address of bank `b` (R422). -/
def bankBase (b : Nat) : Nat := 0x1000000 * b

/-- Bytes of the Housekeeper image memory. -/
def State.hkBytes (s : State) (o n : Nat) : Bytes := (List.range n).map fun i => sget (fun _ => 0) s.hearth.hkMem (o + i)

/-- Bytes of the running firmware image, header and body (R421, R422). -/
def State.runBytes (s : State) (i : FwImg) (o n : Nat) : Bytes := if i.bank < 2 then s.flashBytes (bankBase i.bank + o) n else s.hkBytes o n

/-- Program bytes of flash. -/
def State.flashWr (s : State) : Nat → Bytes → State
  | _, [] => s
  | a, b :: bs => ({ s with flash := sset (fun _ => 0xFF) s.flash a b } : State).flashWr (a + 1) bs

/-- Erase `n` bytes of flash. -/
def State.flashErase (s : State) (a n : Nat) : State :=
  { s with flash := s.flash.filter fun e => !(decide (a ≤ e.1) && decide (e.1 < a + n)) }

/-- A value the spec leaves undefined, and the counter that names it moved on (assumption 10). -/
def State.fresh (s : State) : Word × State := (Config.freeValue s.free, { s with free := s.free + 1 })

/-! ### Structured state by number -/

def CoreS.fresh : CoreS := {}
def CtxS.fresh : CtxS := {}
def LinkS.fresh : LinkS := {}
def GroupS.fresh : GroupS := {}
def StackS.fresh : StackS := {}

/-- A core's structured state. -/
def State.core (s : State) (c : CoreId) : CoreS := sget (fun _ => CoreS.fresh) s.cores c.idx

def State.setCore (s : State) (c : CoreId) (v : CoreS) : State := { s with cores := sset (fun _ => CoreS.fresh) s.cores c.idx v }

def State.modCore (s : State) (c : CoreId) (f : CoreS → CoreS) : State := s.setCore c (f (s.core c))

/-- A context's structured state. -/
def State.ctx (s : State) (k : Nat) : CtxS := sget (fun _ => CtxS.fresh) s.ctxs k

def State.setCtx (s : State) (k : Nat) (v : CtxS) : State := { s with ctxs := sset (fun _ => CtxS.fresh) s.ctxs k v }

def State.modCtx (s : State) (k : Nat) (f : CtxS → CtxS) : State := s.setCtx k (f (s.ctx k))

/-- A link's structured state. -/
def State.link (s : State) (n : Nat) : LinkS := sget (fun _ => LinkS.fresh) s.links n

def State.setLink (s : State) (n : Nat) (v : LinkS) : State := { s with links := sset (fun _ => LinkS.fresh) s.links n v }

def State.modLink (s : State) (n : Nat) (f : LinkS → LinkS) : State := s.setLink n (f (s.link n))

/-- A group's structured state. -/
def State.group (s : State) (g : Nat) : GroupS := sget (fun _ => GroupS.fresh) s.groups g

def State.setGroup (s : State) (g : Nat) (v : GroupS) : State := { s with groups := sset (fun _ => GroupS.fresh) s.groups g v }

def State.modGroup (s : State) (g : Nat) (f : GroupS → GroupS) : State := s.setGroup g (f (s.group g))

/-- A stack's structured state. -/
def State.stack (s : State) (k : Nat) : StackS := sget (fun _ => StackS.fresh) s.hbm k

def State.setStack (s : State) (k : Nat) (v : StackS) : State := { s with hbm := sset (fun _ => StackS.fresh) s.hbm k v }

def State.modStack (s : State) (k : Nat) (f : StackS → StackS) : State := s.setStack k (f (s.stack k))

/-! ### Time -/

/-- Time units of 1/126 ns in one nanosecond, one microsecond, one millisecond. -/
def unitsNs : Nat := 126
def unitsUs : Nat := 126000
def unitsMs : Nat := 126000000

/-- One Hearth cycle of 40 ns (R394) and one core cycle at gears 1 to 4 (R15), in time units. -/
def hearthUnits : Nat := 5040
def ccUnits (gear : Nat) : Nat :=
  match gear with
  | 1 => 180
  | 2 => 140
  | 3 => 120
  | 4 => 105
  | _ => hearthUnits

/-- The gear in force (R15). -/
def State.gear (s : State) : Nat := s.fget rEbcStatus fEbcStatusGear

/-- Nanoseconds since the Hearth gained power, at its 40 ns resolution (R436). -/
def State.hearthNs (s : State) : Nat := s.now / hearthUnits * 40

/-- TIME: since power-on, or the calendar once set (R436). -/
def State.time (s : State) : Nat :=
  match s.hearth.cal with
  | none => s.hearthNs
  | some (v, t) => (v + (s.now / hearthUnits - t / hearthUnits) * 40) % 2 ^ 64

/-! ### Event records -/

/-- A record of a device unit (R433, R470). -/
def evr (code unit sub : Nat) (p1 p2 p3 p4 p5 : Nat := 0) : EvRec :=
  ⟨code, unit, sub, BitVec.ofNat 64 p1, BitVec.ofNat 64 p2, BitVec.ofNat 64 p3, BitVec.ofNat 64 p4, BitVec.ofNat 64 p5, none, false, false⟩

/-- A record that names a context, and whether its event stopped it (R433). -/
def EvRec.ofCtx (r : EvRec) (k : CtxId) (stop : Bool) : EvRec := { r with ctx := some k, stop := stop }

/-- Hand a record to the recorder (R435). -/
def State.emit (s : State) (r : EvRec) : State := { s with log := { s.log with arrivals := s.log.arrivals ++ [r] } }

/-- The context on a core (R76). -/
def State.coreCtx (s : State) (c : CoreId) : CtxId :=
  ⟨s.fget (rCoreStatus c) fCoreStatusCtx % 8, Nat.mod_lt _ (by decide)⟩

/-- The physical row that serves a core position: y or y + 1 (R185). -/
def State.prow (s : State) (c : CoreId) : Nat :=
  let e0 := s.fget (rGridCol c.hall.val c.col.val) fGridColBypass
  if c.row.val < e0 then c.row.val else c.row.val + 1

/-- Is the logical position a hole of its hall's grid (R185)? -/
def State.isHole (s : State) (c : CoreId) : Bool := bitN (s.fget (rGridCol c.hall.val c.col.val) fGridColExcluded) (s.prow c)

/-- Parameter 1 of the ARRAY_CHECK record: context and core position (R92). -/
def State.p1 (s : State) (c : CoreId) : Nat :=
  (s.coreCtx c).val * 2 ^ 32 + c.hall.val * 2 ^ 21 + c.row.val * 2 ^ 17 + c.col.val * 2 ^ 13 + s.prow c * 2 ^ 9

/-! ### Notices to the host -/

/-- Queue a notice; past 256 it is discarded, with one NOTIFY_OVERFLOW record for the run (R375). -/
def State.notify (s : State) (kind : Nat) (p : Nat) : State :=
  if s.host.notices.length < 256 then
    { s with host := { s.host with notices := s.host.notices ++ [(kind, BitVec.ofNat 64 p)], noticeDrop := false } }
  else if s.host.noticeDrop then s
  else ({ s with host := { s.host with noticeDrop := true } } : State).emit (evr 0xF003 0x16 0)

/-! ### Contexts and their cores -/

/-- The cores an image gives a context. -/
def State.ctxCores (s : State) (k : Nat) : List CoreId :=
  match (s.ctx k).img with
  | some i => i.cores.map ImgCore.pos
  | none => []

/-- Is context `k` present on the core (R235)? -/
def State.presentOn (s : State) (c : CoreId) (k : CtxId) : Bool := (s.core c).present && decide (s.coreCtx c = k)

/-- The cores on which the context's state is present. -/
def State.activeCores (s : State) (k : Nat) : List CoreId := (s.ctxCores k).filter fun c => (s.core c).present && (s.coreCtx c).val == k

/-- The cores of a context that have not left it by EXIT (R137). -/
def State.liveCores (s : State) (k : Nat) : List CoreId := (s.ctxCores k).filter fun c => !(s.ctx k).exited.contains c

/-- Is a context's state on the core and issuing, or stopped there (R76)? -/
def State.run (s : State) (c : CoreId) : Bool := s.flag (rCoreStatus c) fCoreStatusRun

/-- Ask a core to stop at its next bundle boundary (R67). The first cause stands. -/
def State.askStop (s : State) (c : CoreId) (cause : StopCause) : State :=
  s.modCore c fun x => match x.stopCause with
    | none => { x with stopCause := some cause }
    | some _ => x

/-- The cc that a core without a running context has passed since it was last counted: HALT_CNT and the NOWORK counters (R46, R49) (log entry 43,
DEDUCED). -/
def State.settle (s : State) (c : CoreId) : State :=
  let n := s.cc - (s.core c).haltAt
  if n = 0 then s
  else
    let s1 := s.modCore c fun x => { x with haltAt := s.cc }
    if s.flag (rCntCtl c) fCntCtlFreeze then s1
    else (((s1.count (rHaltCnt c) n).count (rArrNoworkCnt c) n).count (rVecNoworkCnt c) n).count (rStrmNoworkCnt c) n

/-- The header of a dump (R446): `state` 1 being written, 2 complete; `count` section entries; `read` once re-armed. -/
def State.dumpHeader (s : State) (d : DumpS) (state count read : Nat) : Bytes :=
  let body := ascii "KTZ-DMP1" ++ natBytes 4 (s.fget rDumpStatus fDumpStatusDumpSeq) ++ natBytes 2 d.trigger
    ++ natBytes 1 (bton d.scope) ++ natBytes 1 (match d.ctx with
      | some k => k.val
      | none => 0xFF)
    ++ natBytes 8 d.time ++ natBytes 4 (d.seq.getD 0xFFFFFFFF) ++ natBytes 4 count ++ natBytes 3 (s.fget rKflDevId fKflDevIdId)
    ++ natBytes 1 (bton d.unset) ++ zeros 16 ++ natBytes 1 read ++ zeros 3 ++ natBytes 1 state ++ zeros 4035
  body ++ natBytes 4 (crc32c body).toNat

/-- PA of the dump area (R213, R445). -/
def dumpArea : Nat := 0xEF00000000

/-- Steps 1 to 3 of a dump (R444): ARM cleared, BUSY set, the header written, counters frozen, cores chosen and halted. -/
def State.dumpStart (s : State) (trigger : Nat) (ctx : Option CtxId) (req : Bool) : State :=
  let s1 := ((s.fput rDumpCfg fDumpCfgArm 0).fput rDumpStatus fDumpStatusBusy 1).fput rDumpStatus fDumpStatusDumpSeq
    (s.fget rDumpStatus fDumpStatusDumpSeq + 1)
  let scope := s.flag rDumpCfg fDumpCfgScope
  let cores := if scope then allCores else match ctx with
    | some k => s.ctxCores k.val
    | none => []
  let halted := if scope then cores.filter fun c => s.run c && !s.flag (rCoreCtl c) fCoreCtlHalt else []
  let d : DumpS := ⟨trigger, ctx, scope, none, cores, cores.filter fun c => s.flag (rCntCtl c) fCntCtlFreeze, halted,
    s.time, s.hearth.cal.isNone, []⟩
  let s2 := cores.foldl (fun s c => (s.settle c).fput (rCntCtl c) fCntCtlFreeze 1) s1
  let s3 := halted.foldl (fun s c => (s.fput (rCoreCtl c) fCoreCtlHalt 1).askStop c .halt) s2
  let s4 := s3.fput rDumpStatus fDumpStatusTrigger (if req then 0 else trigger)
  { s4.wrHbm dumpArea (s4.dumpHeader d 1 0 0) with dump := some d }

/-- Write a record that is a dump trigger with enable bit `en` (R443). -/
def State.emitTrig (s : State) (en : Fd) (r : EvRec) : State :=
  if !s.flag rDumpCfg en then s.emit r
  else if s.flag rDumpCfg fDumpCfgArm && s.dump.isNone then (s.emit { r with dump := true }).dumpStart r.code r.ctx false
  else (s.emit r).emit (evr 0xF007 0x11 0 r.code)

/-- Stop a context on all its cores for a fault (R67): every core is marked FAULTED and stops at its next bundle boundary. -/
def State.stopCtx (s : State) (k : Nat) (code : Nat) : State :=
  (s.activeCores k).foldl (fun s c => (s.fput (rCoreStatus c) fCoreStatusFaulted 1).askStop c (.fault code))
    (s.modCtx k fun x => { x with cause := if x.cause = 0 then code else x.cause })

/-- Has the context already stopped for a fault? -/
def State.ctxFaulted (s : State) (k : Nat) : Bool := (s.activeCores k).any fun c => s.flag (rCoreStatus c) fCoreStatusFaulted

/-- The record of a fault that stops a context: a dump trigger at the context's first (R443). -/
def State.emitFault (s : State) (k : CtxId) (r : EvRec) : State :=
  if s.ctxFaulted k.val then s.emit (r.ofCtx k true) else s.emitTrig fDumpCfgOnFault (r.ofCtx k true)

/-- A fault of a context that none of its cores raised: record and stop. CORE_STATUS.FAULT is the last fault raised on the core (R76), so no
core's changes. -/
def State.faultCtx (s : State) (k : CtxId) (r : EvRec) : State := (s.emitFault k r).stopCtx k.val r.code

/-- Is the hall's grid built? -/
def State.built (s : State) (h : Nat) : Bool := s.flag (rGridStatus h) fGridStatusBuilt

/-! ### Bell wire -/

/-- Global grid position of a core: X grows over halls 0 to 3 and 4 to 7 (R12). -/
def gx (c : CoreId) : Nat := 12 * (c.hall.val % 4) + c.col.val

/-- Global row of a core (R12). -/
def gy (c : CoreId) : Nat := 12 * (c.hall.val / 4) + c.row.val

/-- A header flit (R176). -/
def bellHdr (type ctx len : Nat) (rmt : Bool) (hall row col arg : Nat) : BitVec 32 :=
  BitVec.ofNat 32 (type * 2 ^ 28 + ctx * 2 ^ 25 + len * 2 ^ 23 + bton rmt * 2 ^ 22 + hall * 2 ^ 19 + row * 2 ^ 15 + col * 2 ^ 11 + arg)

/-- Put a message on the bell wire at a router (R175). -/
def State.bellAt (s : State) (x y inp : Nat) (hdr : BitVec 32) (pay : List (BitVec 32)) : State :=
  { s with bell := s.bell ++ [⟨hdr, pay, x, y, inp, false⟩] }

/-- A core injects a message (R192 counts it). -/
def State.bellFrom (s : State) (c : CoreId) (hdr : BitVec 32) (pay : List (BitVec 32)) : State :=
  (s.bellAt (gx c) (gy c) 4 hdr pay).count (rBellSentCnt c) (if s.flag (rCntCtl c) fCntCtlFreeze then 0 else 1)

/-- A fault raised on a core: record, CORE_STATUS.FAULT of that core, the FAULT message to the front die (R179), and the stop of its context on all
its cores (log entry 14, DESIGN CHOICE). -/
def State.faultCore (s : State) (c : CoreId) (r : EvRec) : State :=
  let k := s.coreCtx c
  let pc := s.fget (rPc c) fPcBundle
  (((s.emitFault k r).fput (rCoreStatus c) fCoreStatusFault r.code).bellFrom c (bellHdr 0xA k.val 2 false 0 15 15 c.pos)
    [BitVec.ofNat 32 (r.code * 2 ^ 16 + pc), r.p2.setWidth 32]).stopCtx k.val r.code

/-- A fault that the rules show in CORE_STATUS.FAULT of every core of the context although none of them raised it (R232, R397). -/
def State.showFault (s : State) (k code : Nat) : State :=
  (s.activeCores k).foldl (fun s c => s.fput (rCoreStatus c) fCoreStatusFault code) s

/-- A fault raised by a hall rather than a core (R171, R179, R183): record, the FAULT message of the hall control node, whose source is that node's
own name {h, 15, 0} and whose PC field, of a node that has no PC, is 0, and the stop of the context (log entry 14, DESIGN CHOICE). -/
def State.faultHall (s : State) (h : Nat) (k : CtxId) (r : EvRec) : State :=
  ((s.emitFault k r).bellAt (12 * (h % 4)) (12 * (h / 4) + 6) 5 (bellHdr 0xA k.val 2 false 0 15 15 (h * 256 + 15 * 16))
    [BitVec.ofNat 32 (r.code * 2 ^ 16), r.p2.setWidth 32]).stopCtx k.val r.code

/-- The front die sends a message: it enters from the west at X = 0 in its destination's global row, for the hall control node and a
hall spread row 6 of the hall (R177, R178). -/
def State.bellDie (s : State) (hall row : Nat) (hdr : BitVec 32) (pay : List (BitVec 32)) : State :=
  s.bellAt 0 (12 * (hall / 4) + if row < 12 then row else 6) 3 hdr pay

/-- The front die sends a message of a type to a core. -/
def State.bellToCore (s : State) (type ctx : Nat) (c : CoreId) (arg : Nat) (pay : List (BitVec 32)) : State :=
  s.bellDie c.hall.val c.row.val (bellHdr type ctx pay.length false c.hall.val c.row.val c.col.val arg) pay

/-- Take a message off the bell wire that has the same type, context and payload and the same addressee (R179): the
first that fits, none if none does. -/
def State.bellTake (s : State) (p : BellMsg → Bool) : State :=
  { s with bell := dropFirst p s.bell }

/-- Fields of a header flit (R176). -/
def bellType (m : BellMsg) : Nat := bitsN m.hdr.toNat 31 28

/-! ### Where a link joins its hall -/

/-- Hall of link `n` (R13, R41). -/
def linkHall (n : Nat) : Nat := n / 3

/-- Index of the link's edge router in its hall (R41). -/
def linkRouter (n : Nat) : Nat := if n / 3 % 4 = 0 then 1 + n % 3 else 2 + n % 3

/-- Core index of the link's edge core (R41). -/
def linkEdge (n : Nat) : Nat :=
  let h := n / 3
  let i := n % 3
  let y := if h % 4 = 3 then (if i = 0 then (if h = 3 then 0 else 11) else if i = 1 then 4 else 7) else if h < 4 then 0 else 11
  let x := if h % 4 = 3 then (if i = 0 then 9 else 11) else 9 + i
  144 * h + 12 * y + x

/-- The input of the edge core that carries an inbound lane (R173): codes of SRC of R35, 15 for lane 2. -/
def laneInput (n l : Nat) : Nat :=
  if l = 0 then 7 else if l = 2 then 15
  else if n / 3 % 4 = 3 ∧ n % 3 ≠ 0 then 2 else if n / 3 < 4 then 1 else 3

/-- Key under which a beat on an outbound lane of link `n` stands in `beats`. -/
def laneKey (n l : Nat) : Nat := 1152 + 3 * n + l

end Sys2Proof.Machine
end

