-- ==== Sys2Proof/Machine/LinkCtl.lean ====
section
/-! DEFINITION. Sys2Proof/Machine/LinkCtl.lean: KFL control messages: their 120-bit layout (R276, R277, R308), the control queue of a link and the route table (R278 to R280). -/

namespace Sys2Proof.Machine

/-- This device's identifier (R293). -/
def State.devId (s : State) : Nat := s.fget rKflDevId fKflDevIdId

/-- KIND of a control message (R276). -/
def ctlKind : CtlMsg → Nat
  | .semAdd .. => 1
  | .semWatch .. => 2
  | .watchFire .. => 3
  | .mgmt .. => 4
  | .group .. => 5
  | .other k _ => k.toNat

/-- The 120 bits of a control message (R276, R277, R308). -/
def ctlBits : CtlMsg → Nat
  | .semAdd dst src g v a => dst.toNat * 2 ^ 96 + src.toNat * 2 ^ 72 + g.toNat * 2 ^ 62 + v.toNat * 2 ^ 48 + a.toNat
  | .semWatch dst src g v rl rt c x =>
    dst.toNat * 2 ^ 96 + src.toNat * 2 ^ 72 + g.toNat * 2 ^ 62 + v.toNat * 2 ^ 48 + rl.toNat * 2 ^ 43 + rt.toNat * 2 ^ 37
      + c.toNat * 2 ^ 35 + x.toNat
  | .watchFire dst src rl rt o => dst.toNat * 2 ^ 96 + src.toNat * 2 ^ 72 + rl.toNat * 2 ^ 43 + rt.toNat * 2 ^ 37 + bton o * 2 ^ 34
  | .mgmt t b => t.toNat * 2 ^ 116 + b.toNat
  | .group t m =>
    t.toNat * 2 ^ 116 + m.group.toNat * 2 ^ 106 + m.epoch.toNat * 2 ^ 90 + m.arg.toNat * 2 ^ 66 + bton m.dir * 2 ^ 65 + m.value.toNat
  | .other _ b => b.toNat

/-- The control message of a KIND and 120 bits (R276, R277, R308). -/
def ctlOf (kind v : Nat) : CtlMsg :=
  let f (hi lo : Nat) : Nat := bitsN v hi lo
  match kind with
  | 1 => .semAdd (BitVec.ofNat 24 (f 119 96)) (BitVec.ofNat 24 (f 95 72)) (BitVec.ofNat 10 (f 71 62)) (BitVec.ofNat 14 (f 61 48)) (BitVec.ofNat 32 (f 31 0))
  | 2 => .semWatch (BitVec.ofNat 24 (f 119 96)) (BitVec.ofNat 24 (f 95 72)) (BitVec.ofNat 10 (f 71 62)) (BitVec.ofNat 14 (f 61 48))
      (BitVec.ofNat 5 (f 47 43)) (BitVec.ofNat 6 (f 42 37)) (BitVec.ofNat 2 (f 36 35)) (BitVec.ofNat 32 (f 31 0))
  | 3 => .watchFire (BitVec.ofNat 24 (f 119 96)) (BitVec.ofNat 24 (f 95 72)) (BitVec.ofNat 5 (f 47 43)) (BitVec.ofNat 6 (f 42 37)) (bitN v 34)
  | 4 => .mgmt (BitVec.ofNat 4 (f 119 116)) (BitVec.ofNat 116 (f 115 0))
  | 5 => .group (BitVec.ofNat 4 (f 119 116))
      ⟨BitVec.ofNat 10 (f 115 106), BitVec.ofNat 16 (f 105 90), BitVec.ofNat 24 (f 89 66), bitN v 65, BitVec.ofNat 64 (f 63 0)⟩
  | k => .other (BitVec.ofNat 3 k) (BitVec.ofNat 120 v)

/-- MGMT and GROUP messages go ahead of kinds 1 to 3 (R279). -/
def ctlFirst : CtlMsg → Bool
  | .mgmt .. => true
  | .group .. => true
  | _ => false

/-- Append to the control queue in its class (R279). A message of a front-die unit beyond the 64th stands for one that waits before the router (log entry
82, DESIGN CHOICE). -/
def ctlInsert (q : List CtlMsg) (m : CtlMsg) : List CtlMsg :=
  if ctlFirst m then q.takeWhile ctlFirst ++ m :: q.dropWhile ctlFirst else q ++ [m]

/-- States of a link (R284, R290). -/
def lsDisabled : Nat := 0
def lsDetect : Nat := 1
def lsTrain : Nat := 2
def lsAlign : Nat := 3
def lsIdent : Nat := 4
def lsShuttered : Nat := 5
def lsOpen : Nat := 6
def lsDown : Nat := 7

/-- The state of link `n` (R290). -/
def State.linkState (s : State) (n : Nat) : Nat := s.fget (rLinkStatus n) fLinkStatusState

/-- Does the control queue of the link, of 64 messages, take no further one (R279)? -/
def State.ctlFull (s : State) (n : Nat) : Bool := s.linkState n == lsOpen && decide (64 ≤ (s.link n).ctlOut.length)

/-- The nanoseconds in which some ingress beat was held are counted when none is held any more (R292). -/
def State.holdEnd (s : State) (n : Nat) : State :=
  let l := s.link n
  if l.heldAt = [] then s else s.count (rLinkHoldNs n) ((s.now - l.holdFrom) / unitsNs)

/-- Queue a control message on a link. MGMT travels from IDENT onward, GROUP with GTYPE 5 to 7 while SHUTTERED (R421),
every other message in OPEN only; a GROUP message on a Nuore-compatible link is discarded and counted (R277, R284, R289). -/
def State.ctlSend (s : State) (n : Nat) (m : CtlMsg) : State :=
  let st := s.linkState n
  let enq := s.modLink n fun l => { l with ctlOut := ctlInsert l.ctlOut m }
  match m with
  | .mgmt .. => if lsIdent ≤ st then enq else s
  | .group t _ =>
    if (s.link n).mode then s.count (rLinkCtlBadCnt n) 1
    else if st = lsOpen ∨ (st = lsShuttered ∧ 5 ≤ t.toNat ∧ t.toNat ≤ 7) then enq else s
  | _ => if st = lsOpen then enq else s

/-- Output link for a destination device: the first valid matching route entry (R279). -/
def State.route (s : State) (dst : Nat) : Option Nat :=
  ((List.range 64).find? fun k =>
    let w := s.reg (rKflRoute k)
    fKflRouteV.get w == 1 && decide (fKflRouteDevLo.get w ≤ dst) && decide (dst ≤ fKflRouteDevHi.get w)).map fun k =>
      s.fget (rKflRoute k) fKflRouteLink

/-- Must a message for a device wait because the control queue of its output link is full (R279)? -/
def State.ctlStuck (s : State) (dst : Nat) : Bool := (s.route dst).any s.ctlFull

/-- Send a control message towards its destination device, or record LINK_NOROUTE (R279); `unit` is the block that writes (log entry 75, DEDUCED). -/
def State.ctlRoute (s : State) (unit dst : Nat) (m : CtlMsg) : State :=
  match s.route dst with
  | some n => s.ctlSend n m
  | none => s.emit (evr 0x5006 unit 0 dst (ctlKind m))

/-- A flow is held, or held no longer (R281, R292). -/
def State.setHeld (s : State) (n f : Nat) (held : Bool) : State :=
  let l := s.link n
  let was := l.heldAt.any fun e => e.1 == f
  if held = was then s
  else if held then
    s.setLink n { l with heldAt := l.heldAt ++ [(f, s.now)], holdFrom := if l.heldAt = [] then s.now else l.holdFrom }
  else
    let rest := l.heldAt.filter fun e => e.1 != f
    (if rest = [] then s.holdEnd n else s).modLink n fun l => { l with heldAt := rest }

/-! ### The state of a core's context and the images saved of it (R76, R235) -/

/-- The sync registers of a core: SC0 to SC47, SC_SAT, SC_ORPHAN, SYNC_STATUS. -/
def syncRegs (c : CoreId) : List Nat := (List.range 48).map (rSc c) ++ [rScSat c, rScOrphan c, rSyncStatus c]

/-- Is the register at `a` context state of core `c` (R76)? -/
def ctxReg (c : CoreId) (a : Nat) : Bool :=
  decide (coreBase c ≤ a) && decide (a < coreBase c + 2 ^ 22) && match regDesc a with
    | some d => d.ctx
    | none => false

/-- The registers that make a core's context state (R76, R235). -/
def State.ctxRegs (s : State) (c : CoreId) : List (Nat × Word) :=
  (s.regs.filter fun e => ctxReg c e.1 && !(syncRegs c).contains e.1) ++ (rCoreStatus c :: syncRegs c).map fun a => (a, s.reg a)

/-- The core without its context-state registers. -/
def State.ctxClear (s : State) (c : CoreId) : State := s.resetRegs fun a => !(ctxReg c a || (rCoreStatus c :: syncRegs c).contains a)

/-- Apply an operation on a core to the image saved of it for context `k` (R235): the image stands on the core for the operation and is taken
back, and the core's own state is put in place again. -/
def State.onImage (s : State) (k : Nat) (i : SavedS) (f : State → State) : State :=
  let t := f (i.regs.foldl (fun s e => s.setReg e.1 e.2) ((s.ctxClear i.core).setCore i.core i.ops))
  let j : SavedS := { i with regs := t.ctxRegs i.core, ops := t.core i.core }
  ((((s.ctxRegs i.core).foldl (fun t e => t.setReg e.1 e.2) (t.ctxClear i.core)).setCore i.core (s.core i.core))).modCtx k fun x =>
    { x with saved := x.saved.map fun y => if y.core = i.core then j else y }

/-- Apply an operation on a core to every image saved for context `k`. -/
def State.onImages (s : State) (k : Nat) (f : CoreId → State → State) : State := (s.ctx k).saved.foldl (fun s i => s.onImage k i (f i.core)) s

end Sys2Proof.Machine
end

