-- ==== Sys2Proof/Machine/Semaphore.lean ====
section
/-! DEFINITION. Sys2Proof/Machine/Semaphore.lean: local counters (R217, R218), the semaphore unit (R222 to R236) and the messages it answers with. -/

namespace Sys2Proof.Machine

/-- A sum saturated to 0 .. 0xFFFF_FFFF (R217). -/
def sat32 (i : Int) : Nat := if i < 0 then 0 else if 0xFFFFFFFF < i then 0xFFFFFFFF else i.toNat

/-- Did the sum leave the range (R217)? (log entry 37, DEDUCED) -/
def satOut (i : Int) : Bool := decide (i < 0) || decide (0xFFFFFFFF < i)

/-- A counter of the core has changed: it ungates, and its 16 cc of waiting begin again (R220) (log entry 195, DESIGN CHOICE). -/
def CoreS.ungate (x : CoreS) : CoreS := { x with gated := false, waited := if x.gated then 0 else x.waited }

/-- Add to local counter `k` of a core (R217): saturating, with the sticky SC_SAT bit and one record at its first setting.
A change ungates the core (R220). -/
def State.scAdd (s : State) (c : CoreId) (k : Nat) (d : Int) : State :=
  let sum := (s.fget (rSc c k) fScValue : Int) + d
  let s1 := (s.fput (rSc c k) fScValue (sat32 sum)).modCore c CoreS.ungate
  let bit : Fd := ⟨k, k⟩
  if satOut sum && !s.flag (rScSat c) bit then
    (s1.fput (rScSat c) bit 1).emit
      ({ evr 0x4001 c.hall.val 0 (s.p1 c) k with p3 := wordOfInt sum }.ofCtx (s.coreCtx c) false)
  else s1

/-- Set local counter `k` (R146, R217): a set never saturates. -/
def State.scSet (s : State) (c : CoreId) (k v : Nat) : State :=
  (s.fput (rSc c k) fScValue v).modCore c CoreS.ungate

/-- Add to the counter a completion field names; 63 names none (R140). -/
def State.ctPost (s : State) (c : CoreId) (ct n : Nat) : State := if ct < 48 then s.scAdd c ct n else s

/-- Who posted to a semaphore (R223): a core, another unit of this device, or another device. -/
inductive Poster where
  | core (c : CoreId)
  | unit
  | remote (dev : Nat)
  deriving DecidableEq, Repr

/-- What a request asks of a semaphore (R222, R232). -/
inductive SemReq where
  | add
  | wait
  | watch
  deriving DecidableEq, Repr

/-- P4 of SEM_MAP_FAULT (R232). -/
def SemReq.code : SemReq → Nat
  | .add => 0
  | .wait => 1
  | .watch => 2

/-- Translate a request through the map of a context (R222): the physical semaphore, or the kind of refusal (R232). -/
def State.semMap (s : State) (k vsem : Nat) (q : SemReq) (remote : Bool) : Except Nat Nat :=
  let a := rSemMap k vsem
  if !s.flag a fSemMapValid then .error 0
  else if q = .add ∧ !s.flag a fSemMapPost then .error 1
  else if q ≠ .add ∧ !s.flag a fSemMapWait then .error 2
  else if remote && !s.flag a fSemMapRemote then .error 3
  else .ok (s.fget a fSemMapPsem)

/-- Does a request meet an orphan (R232): an unallocated semaphore, or an orphaned one that is not the requester's own? (log entry 39, DEDUCED) -/
def State.semOrphaned (s : State) (p k : Nat) (remote : Bool) : Bool :=
  !s.flag (rSem p) fSemAlloc || (s.flag (rSem p) fSemOrphan && (remote || s.fget (rSem p) fSemOwner != k))

/-! ### Requests of the Millpond's queues (R339, R340) -/

/-- The request semaphore of a Millpond queue, while it holds a unit (R339). -/
def State.requests (s : State) (q : Nat) : Option Nat :=
  match s.semMap (s.fget rMpCfg fMpCfgCtx) (s.fget (rMpQCt q) fMpQCtReqVsem) .wait false with
  | .ok p => if s.fget (rSem p) fSemValue = 0 then none else some p
  | .error _ => none

/-- Is a request pending with the ready list empty (R340)? -/
def State.pondEmptyNow (s : State) : Bool :=
  s.flag rMpCfg fMpCfgEn && s.pond.readyList.isEmpty && (List.range 16).any fun q => s.flag (rMpQCfg q) fMpQCfgEn && (s.requests q).isSome

/-- The time of MP_EMPTY_NS begins when a request is pending with the ready list empty, and ends with that (R340, R354). -/
def State.emptySettle (s : State) : State :=
  match s.pond.emptyAt, s.pondEmptyNow with
  | some t, false => { s with pond := { s.pond with emptyAt := none, emptyFor := s.pond.emptyFor + (s.now - t) } }
  | none, true => { s with pond := { s.pond with emptyAt := some s.now } }
  | _, _ => s

/-- P1 of a semaphore record for a poster (R223). -/
def State.posterP1 (s : State) : Poster → Nat
  | .core c => s.p1 c
  | _ => 0

/-- Source device field of P2 for a remote poster (R223, R232). -/
def posterDev : Poster → Nat
  | .remote d => d * 2 ^ 24
  | _ => 0

/-- The comparison of a wait or watch (R224, R225): unsigned. -/
def semHolds (equal : Bool) (v want : Nat) : Bool := if equal then v == want else decide (want ≤ v)

/-- A WAKE to a core (R179, R224). -/
def State.sendWake (s : State) (c : CoreId) (k : CtxId) (orphan : Bool) : State := s.bellToCore 4 k.val c (bton orphan) []

/-- Fire a watch (R225, R278): a WATCH_FIRE to the core, or the control message to the device that asked. -/
def State.fireWatch (s : State) (w : WatchS) (orphan : Bool) : State :=
  let s1 := s.count rWatchFireCnt 1
  match w.to_ with
  | .core c sc => s1.bellToCore 5 w.ctx.val c (bton orphan * 64 + sc.toNat) []
  | .remote d rl rt => s1.ctlRoute 0x17 d.toNat (.watchFire d (BitVec.ofNat 24 s.devId) rl rt orphan)

/-- Re-examine the waiters and watches of semaphore `p` in order of registration, each CONSUME before the next (R223). -/
def examine (p : Nat) : List SemEntry → State → State × List SemEntry
  | [], s => (s, [])
  | e :: es, s =>
    let v := s.fget (rSem p) fSemValue
    match e with
    | .wait w =>
      if w.psem == p && semHolds w.equal v w.value.toNat then
        examine p es ((if w.consume then s.fput (rSem p) fSemValue (v - w.value.toNat) else s).sendWake w.core w.ctx false)
      else
        let r := examine p es s
        (r.1, e :: r.2)
    | .watch w =>
      if w.psem == p && semHolds w.equal v w.value.toNat then examine p es (s.fireWatch w false)
      else
        let r := examine p es s
        (r.1, e :: r.2)

/-- Re-examination of a semaphore (R223). -/
def State.reexamine (s : State) (p : Nat) : State :=
  let r := examine p s.sem.entries s
  ({ r.1 with sem := { r.1.sem with entries := r.2 } } : State).emptySettle

/-- Apply an add to a physical semaphore (R223): saturating, sticky SAT with one record, then re-examination. -/
def State.semApply (s : State) (p : Nat) (d : Int) (by_ : Poster) (k : CtxId) : State :=
  let sum := (s.fget (rSem p) fSemValue : Int) + d
  let s1 := s.fput (rSem p) fSemValue (sat32 sum)
  let s2 :=
    if satOut sum && !s.flag (rSem p) fSemSat then
      (s1.fput (rSem p) fSemSat 1).emit
        ({ evr 0x4001 0x17 0 (s.posterP1 by_) (2 ^ 63 + posterDev by_ + p) with p3 := wordOfInt sum }.ofCtx k false)
    else s1
  s2.reexamine p

/-- The SEM_MAP_FAULT record (R232). -/
def State.semMapRec (s : State) (by_ : Poster) (k vsem : Nat) (q : SemReq) (kind : Nat) : EvRec :=
  match by_ with
  | .remote d => evr 0x4005 0x17 0 (k * 2 ^ 32) (vsem + 2 ^ 16 + d * 2 ^ 24) kind q.code
  | b => evr 0x4005 0x17 0 (s.posterP1 b) vsem kind q.code

/-- A request at the unit, counted (R242). -/
def State.semCount (s : State) (remote : Bool) : State := (s.count rSemReqCnt 1).count rSemRemoteCnt (bton remote)

/-- A refused translation (R232): a local request stops its context, a remote one only writes the record (log entry 73, DEDUCED). An add is discarded,
which R242 counts. -/
def State.semRefuse (s0 : State) (by_ : Poster) (k : CtxId) (vsem : Nat) (q : SemReq) (kind : Nat) : State :=
  let r := s0.semMapRec by_ k.val vsem q kind
  let s := s0.count rOrphanDropCnt (bton (q == .add))
  match by_ with
  | .remote _ => s.emit (r.ofCtx k false)
  | _ => (s.faultCtx k r).showFault k.val r.code

/-- An add request at the unit (R222, R223, R232). -/
def State.semAddReq (s : State) (by_ : Poster) (k : CtxId) (vsem : Nat) (d : Int) : State :=
  let remote := match by_ with
    | .remote _ => true
    | _ => false
  let s1 := s.semCount remote
  match s.semMap k.val vsem .add remote with
  | .error e => s1.semRefuse by_ k vsem .add e
  | .ok p =>
    if s.semOrphaned p k.val remote then
      let s2 := s1.count rOrphanDropCnt 1
      match by_ with
      | .core c => s2.sendWake c k true
      | _ => s2
    else s1.semApply p d by_ k

/-- Entries of the watch table in use by cores of this device and by other devices (R225). -/
def State.localWatches (s : State) : Nat :=
  (s.sem.entries.filter fun e => match e with
    | .watch ⟨_, _, _, _, .core _ _⟩ => true
    | _ => false).length

def State.remoteWatches (s : State) : Nat :=
  (s.sem.entries.filter fun e => match e with
    | .watch ⟨_, _, _, _, .remote _ _ _⟩ => true
    | _ => false).length

/-- Register an entry behind those already registered. -/
def State.semRegister (s : State) (e : SemEntry) : State := { s with sem := { s.sem with entries := s.sem.entries ++ [e] } }

/-- A wait request at the unit (R224, R232). -/
def State.semWaitReq (s : State) (c : CoreId) (k : CtxId) (equal consume : Bool) (vsem : BitVec 14) (value : BitVec 32) : State :=
  let s1 := s.count rSemReqCnt 1
  match s.semMap k.val vsem.toNat .wait false with
  | .error e => s1.semRefuse (.core c) k vsem.toNat .wait e
  | .ok p =>
    let v := s.fget (rSem p) fSemValue
    if s.semOrphaned p k.val false then s1.sendWake c k true
    else if semHolds equal v value.toNat then
      (if consume then (s1.fput (rSem p) fSemValue (v - value.toNat)).emptySettle else s1).sendWake c k false
    else s1.semRegister (.wait ⟨p, vsem, c, k, equal, consume, value⟩)

/-- A watch request at the unit (R225, R232): fired at once when orphaned or already satisfied, also while every remote entry is in use (log entry 196,
DESIGN CHOICE). -/
def State.semWatchReq (s : State) (k : CtxId) (equal : Bool) (vsem : BitVec 14) (value : BitVec 32) (to_ : WatchTo) : State :=
  let by_ : Poster := match to_ with
    | .core c _ => .core c
    | .remote d _ _ => .remote d.toNat
  let remote := match to_ with
    | .core .. => false
    | .remote .. => true
  let s1 := s.semCount remote
  match s.semMap k.val vsem.toNat .watch remote with
  | .error e =>
    let s2 := s1.semRefuse by_ k vsem.toNat .watch e
    if remote then s2.fireWatch ⟨0, k, equal, value, to_⟩ true else s2
  | .ok p =>
    let w : WatchS := ⟨p, k, equal, value, to_⟩
    if s.semOrphaned p k.val remote then s1.fireWatch w true
    else if semHolds equal (s.fget (rSem p) fSemValue) value.toNat then s1.fireWatch w false
    else if remote && decide (7168 ≤ s.remoteWatches) then (s1.fireWatch w true).emit (evr 0x4004 0x17 0)
    else s1.semRegister (.watch w)

/-- Physical semaphores a context owns (R222). -/
def State.ownedSems (s : State) (k : Nat) : List Nat :=
  s.regs.filterMap fun e =>
    if rSem 0 ≤ e.1 ∧ e.1 < rSem 16384 ∧ fSemAlloc.get e.2 = 1 ∧ fSemOwner.get e.2 = k then some ((e.1 - rSem 0) / 8) else none

/-- Is an entry released when semaphore `p` of context `k` is orphaned (R231): one of another context, or of another device? -/
def entryForeign (p k : Nat) : SemEntry → Bool
  | .wait w => w.psem == p && w.ctx.val != k
  | .watch w => w.psem == p && (w.ctx.val != k || match w.to_ with
    | .remote .. => true
    | .core .. => false)

/-- Orphan one semaphore (R231). -/
def State.orphanSem (s : State) (k p : Nat) : State :=
  let rel := s.sem.entries.filter (entryForeign p k)
  let s1 : State := { s with sem := { s.sem with entries := s.sem.entries.filter fun e => !entryForeign p k e } }
  let s2 := rel.foldl (fun s e => match e with
    | .wait w => s.sendWake w.core w.ctx true
    | .watch w => s.fireWatch w true) s1
  ((s2.fput (rSem p) fSemOrphan 1).count rOrphanRelCnt rel.length).emit (evr 0x4002 0x17 0 p k rel.length)

/-- Every semaphore of a context that is pre-empted, stopped for a fault, ended or reset becomes orphaned, unless it is already (R231). -/
def State.orphanCtx (s : State) (k : Nat) : State := ((s.ownedSems k).filter fun p => !s.flag (rSem p) fSemOrphan).foldl (fun s p => s.orphanSem k p) s

/-- A reset of the device orphans every owned semaphore (R231). -/
def State.orphanAll (s : State) : State := (List.range 8).foldl State.orphanCtx s

/-- The owner resumes: ORPHAN cleared, values kept (R231). -/
def State.unorphanCtx (s : State) (k : Nat) : State := (s.ownedSems k).foldl (fun s p => s.fput (rSem p) fSemOrphan 0) s

/-- The owner has ended: ALLOC and VALUE cleared (R231) (log entry 38, DEDUCED). -/
def State.freeSems (s : State) (k : Nat) : State :=
  ((s.ownedSems k).foldl (fun s p => ((s.fput (rSem p) fSemAlloc 0).fput (rSem p) fSemValue 0).fput (rSem p) fSemOrphan 0) s).emptySettle

/-- Remove a context's waiters and watches without delivery (R236, R357). -/
def State.dropEntries (s : State) (k : Nat) : State :=
  { s with sem := { s.sem with entries := s.sem.entries.filter fun e => match e with
    | .wait w => w.ctx.val != k
    | .watch w => w.ctx.val != k || match w.to_ with
      | .remote .. => true
      | .core .. => false } }

/-- A post of a front-die unit to a semaphore of a context (R228, R304): served by this device's own semaphore unit. -/
def State.unitPost (s : State) (k : CtxId) (vsem n : Nat) : State := s.semAddReq .unit k vsem n

/-! ### Nodes of the bell wire (R176 to R180) -/

/-- Position field of a message: its source or its destination (R176). -/
def bellSrc (m : BellMsg) : Nat := bitsN m.hdr.toNat 10 0
def bellDst (m : BellMsg) : Nat := bitsN m.hdr.toNat 21 19 * 256 + bitsN m.hdr.toNat 18 15 * 16 + bitsN m.hdr.toNat 14 11

/-- A node of the bell wire (R177). -/
inductive BellNode where
  | core (c : CoreId)
  | spread (h : Nat)
  | router (h e : Nat)
  | hallCtl (h : Nat)
  | front
  deriving DecidableEq, Repr

/-- Fields of a header (R176). -/
def bellRow (m : BellMsg) : Nat := bitsN m.hdr.toNat 18 15
def bellCol (m : BellMsg) : Nat := bitsN m.hdr.toNat 14 11
def bellHall (m : BellMsg) : Nat := bitsN m.hdr.toNat 21 19
def bellRmt (m : BellMsg) : Bool := bitN m.hdr.toNat 22
def bellCtx (m : BellMsg) : CtxId := ⟨bitsN m.hdr.toNat 27 25 % 8, Nat.mod_lt _ (by decide)⟩

/-- Edge routers of a hall (R41). -/
def routersOf (h : Nat) : Nat := if h % 4 = 0 then 4 else 5

/-- The node that a header names, none for a reserved one (R177). ROW 14 with COL 4 in halls 0 and 4, which have four edge routers, is taken as reserved (log
entry 219, DESIGN CHOICE). -/
def bellNode (m : BellMsg) : Option BellNode :=
  let y := bellRow m
  let x := bellCol m
  if y < 12 then (coreOfPos (bellDst m)).map .core
  else if y = 13 then some (.spread (bellHall m))
  else if y = 14 then (if x < routersOf (bellHall m) then some (.router (bellHall m) x) else none)
  else if y = 15 ∧ x = 0 then some (.hallCtl (bellHall m))
  else if y = 15 ∧ x = 15 then some .front
  else none

/-- The link behind edge router `e` of hall `h`, none for a stack or the front die (R41). -/
def routerLink (h e : Nat) : Option Nat :=
  let first := if h % 4 = 0 then 1 else 2
  if first ≤ e ∧ e < routersOf h then some (3 * h + (e - first)) else none

/-- The core whose bell-wire router carries edge router `e` of hall `h`: its first edge core (R41, R177). -/
def routerHome (h e : Nat) : CoreId :=
  match routerLink h e with
  | some n => coreOfIdx (linkEdge n)
  | none => coreOfIdx (144 * h + (if h < 4 then 0 else if h = 4 then 0 else 132) + 4 * e)

/-- The core at the router a node is attached to; the front die is reached at X = 0 of any row (R177, R178). -/
def BellNode.home : BellNode → Option CoreId
  | .core c => some c
  | .spread h => some (coreOfIdx (144 * h + 72))
  | .hallCtl h => some (coreOfIdx (144 * h + 72))
  | .router h e => some (routerHome h e)
  | .front => none

/-- Is the type urgent (R179)? -/
def bellUrgent (m : BellMsg) : Bool := decide (8 ≤ bellType m) && decide (bellType m ≤ 0xA)

/-- The hops that a message still has before it, the last one to its node among them (R178). -/
def bellRem (m : BellMsg) : Nat :=
  let dist (a b : Nat) : Nat := (a - b) + (b - a)
  if m.out then 0
  else match bellNode m with
    | none => 0
    | some node => match node.home with
      | some c => 1 + dist m.x (gx c) + dist m.y (gy c)
      | none => 1 + m.x

/-- The source node of a message: the position that a core or a hall control node names, of one sent back to the front die the core that it was for, and the
front die, or another unit, of the others (R176, R179, R235). -/
def bellFromNode (m : BellMsg) : Nat :=
  let t := bellType m
  if t = 4 ∨ t = 5 ∨ t = 6 then (if bellNode m = some .front then 1 + (m.pay.getLastD 0).toNat else 0)
  else if t = 8 then 0 else 1 + bellSrc m

/-- Are two messages of one class, from one source node to one destination node (R180)? -/
def bellSameWay (a b : BellMsg) : Bool := bellUrgent a == bellUrgent b && bellFromNode a == bellFromNode b && bellNode a == bellNode b

/-- The message that a command stands for: its type and context, and what the command says of its ARG, its destination and its payload. -/
structure MsgKey where
  type : Nat
  ctx : CtxId
  arg : Option Nat
  dst : Option Nat
  pay : Option (List (BitVec 32))
  deriving DecidableEq, Repr

def MsgKey.fits (q : MsgKey) (m : BellMsg) : Bool :=
  bellType m == q.type && bitsN m.hdr.toNat 27 25 == q.ctx.val && q.arg.all (· == bellSrc m) && q.dst.all (· == bellDst m) && q.pay.all (· == m.pay)

/-- The message on the wire that a command stands for: of several, the one that is furthest on its way. -/
def State.bellNow (s : State) (q : MsgKey) : Option BellMsg :=
  let l := s.bell.filter q.fits
  l.find? fun m => l.all fun a => decide (bellRem m ≤ bellRem a)

/-- May the message be delivered: is no older one of its class, source and destination on the wire (R180)? Of such messages, which take one way, the older
is always the further on, and stands first in a queue that both are in. A message that is not on the wire is held by none (log entry 4, DESIGN CHOICE). -/
def State.bellFree (s : State) (q : MsgKey) : Bool :=
  match s.bellNow q with
  | none => true
  | some m =>
    !((s.bell.takeWhile (· != m)).any fun a => bellSameWay a m && decide (bellRem a ≤ bellRem m)) &&
      !s.bell.any fun a => bellSameWay a m && decide (bellRem a < bellRem m)

/-- The message that a command stands for is off the wire: its last hops are made (log entry 29, DESIGN CHOICE). -/
def State.bellTaken (s : State) (q : MsgKey) : State :=
  match s.bellNow q with
  | some m => s.bellTake (· == m)
  | none => s

/-- A command that delivers a message: it waits behind older messages of the same way (R180). -/
def State.delivered (s : State) (q : MsgKey) (f : State → State) : Res := if s.bellFree q then .next (f (s.bellTaken q)) else .next s

/-- SEM_ADD (R223): an add from a core, or from another unit of the device, reaches the semaphore unit. -/
def execSemAdd (src : Option CoreId) (k : CtxId) (vsem : BitVec 14) (addend : BitVec 32) (s : State) : Res :=
  match src with
  | some c =>
    s.delivered ⟨1, k, some c.pos, none, some [vsem.setWidth 32, addend]⟩ fun s1 => s1.semAddReq (.core c) k vsem.toNat addend.toInt
  | none => .next (s.semAddReq .unit k vsem.toNat addend.toInt)

/-- SEM_WAIT (R224): a GWAIT request reaches the semaphore unit. MODE 0 and 1 compare at least, 2 and 3 equal. -/
def execSemWait (c : CoreId) (k : CtxId) (mode : BitVec 2) (consume : Bool) (vsem : BitVec 14) (value : BitVec 32) (s : State) : Res :=
  s.delivered ⟨2, k, some c.pos, none, none⟩ fun s1 => s1.semWaitReq c k (decide (2 ≤ mode.toNat)) consume vsem value

/-- SEM_WATCH (R225): a GWATCH request of a core reaches the semaphore unit. -/
def execSemWatch (c : CoreId) (k : CtxId) (cond : BitVec 2) (sc : BitVec 6) (vsem : BitVec 14) (value : BitVec 32) (s : State) : Res :=
  let w0 := BitVec.ofNat 32 (cond.toNat * 2 ^ 30 + sc.toNat * 2 ^ 14 + vsem.toNat)
  s.delivered ⟨3, k, some c.pos, none, some [w0, value]⟩ fun s1 => s1.semWatchReq k (cond == 1) vsem value (.core c sc)

/-- SEM_VALUE_WRITE (R223, R241): a Housekeeper write of SEM[p], then re-examination; any other requester is refused. -/
def execSemValueWrite (r : Requester) (p : BitVec 14) (v : Word) (s : State) : Res :=
  match r, regDesc (rSem p.toNat) with
  | .housekeeper, some d =>
    .next ((s.setReg (rSem p.toNat) (d.write 0 0 (2 ^ 64 - 1) v.toNat (s.reg (rSem p.toNat)))).reexamine p.toNat)
  | _, _ => .next s

/-- A message for a context that is absent goes back to the front die with the position added (R235). Only what the core sends of itself counts in
BELL_SENT_CNT (R192): the returned message does not (log entry 176, DESIGN CHOICE). -/
def State.bellReturn (s : State) (c : CoreId) (type : Nat) (k : CtxId) (arg : Nat) (pay : List (BitVec 32)) : State :=
  s.bellAt (gx c) (gy c) 4 (bellHdr type k.val (pay.length + 1) false 0 15 15 arg) (pay ++ [BitVec.ofNat 32 c.pos])

/-- ORPHAN_STOP (R233): the context stops on all its cores with fault SEM_ORPHAN. -/
def State.orphanStop (s : State) (c : CoreId) (k : CtxId) : State :=
  if s.flag (rSyncCtxCfg c.hall.val k.val) fSyncCtxCfgOrphanStop then
    (s.fput (rCoreStatus c) fCoreStatusFault 0x4002).stopCtx k.val 0x4002
  else s

/-- A WAKE delivered (R224, R233). -/
def State.wakeCore (s : State) (c : CoreId) (k : CtxId) (orphan : Bool) : State :=
  if s.flag (rSyncStatus c) fSyncStatusGwaitPend then
    let s1 := (s.fput (rSyncStatus c) fSyncStatusGwaitPend 0).modCore c fun x => { x with gwait := none }
    if orphan then (s1.fput (rSyncStatus c) fSyncStatusOrphanWake 1).orphanStop c k else s1
  else if orphan then (s.fput (rSyncStatus c) fSyncStatusOrphanNotice 1).orphanStop c k else s

/-- A WATCH_FIRE delivered (R225, R233): the counter gains 1 and the core's watch is free again. -/
def State.fireCore (s : State) (c : CoreId) (k : CtxId) (sc : Nat) (orphan : Bool) : State :=
  let s1 := (s.scAdd c sc 1).fput (rSyncStatus c) fSyncStatusWatches (s.fget (rSyncStatus c) fSyncStatusWatches - 1)
  if orphan then (s1.fput (rScOrphan c) ⟨sc, sc⟩ 1).orphanStop c k else s1

/-- WAKE (R233): at a core on which the context is present; otherwise returned to the front die. -/
def execWake (c : CoreId) (k : CtxId) (orphan : Bool) (s : State) : Res :=
  s.delivered ⟨4, k, some (bton orphan), some c.pos, none⟩ fun s1 =>
    if s.presentOn c k then s1.wakeCore c k orphan else s1.bellReturn c 4 k (bton orphan) []

/-- WATCH_FIRE (R225). -/
def execWatchFire (c : CoreId) (k : CtxId) (sc : BitVec 6) (orphan : Bool) (s : State) : Res :=
  s.delivered ⟨5, k, some (bton orphan * 64 + sc.toNat), some c.pos, none⟩ fun s1 =>
    if s.presentOn c k then (if sc.toNat < 48 then s1.fireCore c k sc.toNat orphan else s1)
    else s1.bellReturn c 5 k (bton orphan * 64 + sc.toNat) []

/-- CNT_POST (R218): a write-with-count post from any unit reaches a core counter. -/
def execCntPost (c : CoreId) (k : CtxId) (sc : BitVec 6) (count : BitVec 32) (s : State) : Res :=
  s.delivered ⟨6, k, some sc.toNat, some c.pos, some [count]⟩ fun s1 =>
    if s.presentOn c k then s1.ctPost c sc.toNat count.toNat else s1.bellReturn c 6 k sc.toNat [count]

/-- The image saved of a core for a context (R235). -/
def State.savedOf (s : State) (k : CtxId) (c : CoreId) : Option SavedS := (s.ctx k.val).saved.find? fun i => i.core == c

/-- A message returned: its type, ARG and payload (R235). -/
def retParts : RetMsg → Nat × Nat × List (BitVec 32)
  | .wake o => (4, bton o, [])
  | .fire sc o => (5, bton o * 64 + sc.toNat, [])
  | .post sc n => (6, sc.toNat, [n])

/-- The message as it stands on the wire, with the position of its core added (R235). -/
def retKey (m : RetMsg) (c : CoreId) (k : CtxId) : MsgKey :=
  ⟨(retParts m).1, k, some (retParts m).2.1, some (15 * 16 + 15), some ((retParts m).2.2 ++ [BitVec.ofNat 32 c.pos])⟩

/-- RETURNED_MESSAGE (R235): the front die applies it to the saved image, or sends it to the core again once the context is present. -/
def execReturnedMessage (c : CoreId) (k : CtxId) (m : RetMsg) (s : State) : Res :=
  s.delivered (retKey m c k) fun s1 => match s1.savedOf k c with
    | some i => s1.onImage k.val i fun t => match m with
      | .wake o => t.wakeCore c k o
      | .fire sc o => if sc.toNat < 48 then t.fireCore c k sc.toNat o else t
      | .post sc n => t.ctPost c sc.toNat n.toNat
    | none => s1.bellToCore (retParts m).1 k.val c (retParts m).2.1 (retParts m).2.2

end Sys2Proof.Machine
end

