-- ==== Sys2Proof/Machine/Translate.lean ====
section
/-! DEFINITION. Sys2Proof/Machine/Translate.lean: page tables and translated access to HBM (R207 to R214). -/

namespace Sys2Proof.Machine

/-- Kinds of access (R210): 0 read, 1 write, 2 accumulate. -/
def accRead : Nat := 0
def accWrite : Nat := 1
def accAccum : Nat := 2

/-- PA of the page-table entry of a virtual address in context `k` (R208, R213). -/
def pteAddr (k va : Nat) : Nat := 0xEE00000000 + k * 0x400000 + 8 * (va / 2 ^ 21)

/-- The page-table entry of a virtual address, zero beyond the table's 491,520 entries (log entry 70, DEDUCED). -/
def State.pte (s : State) (k va : Nat) : Nat := if va / 2 ^ 21 < 491520 then leNat (s.rdBytes (pteAddr k va) 8) else 0

/-- The failure an entry raises for an access, in the order of R210; `en` is TR_CTX.EN, `bad` a poisoned entry line. -/
def pteCheck (en bad : Bool) (e acc : Nat) : Option Nat :=
  let ppn := bitsN e 39 21
  if !en then some 5
  else if bad then some 4
  else if !bitN e 63 then some 0
  else if 491520 - 4096 ≤ ppn then some 3
  else if (acc = accRead ∨ acc = accAccum) ∧ !bitN e 62 then some 1
  else if (acc = accWrite ∨ acc = accAccum) ∧ !bitN e 61 then some 2
  else none

/-- Translate a virtual address of context `k` with the tables of hall `h` (R207 to R210): the PA or the KIND of the failure. -/
def State.translate (s : State) (h k va acc : Nat) : Except Nat Nat :=
  let e := s.pte k va
  match pteCheck (s.flag (rTrCtx h k) fTrCtxEn) (s.poisoned (pteAddr k va) 8) e acc with
  | some kind => .error kind
  | none => .ok (bitsN e 39 21 * 2 ^ 21 + va % 2 ^ 21)

/-- A run of `n` bytes at `va` cut at page boundaries: address and length of each part. -/
def pageParts : Nat → Nat → Nat → List (Nat × Nat)
  | 0, _, _ => []
  | fuel + 1, va, n =>
    let room := 2 ^ 21 - va % 2 ^ 21
    if n = 0 then [] else if n ≤ room then [(va, n)] else (va, room) :: pageParts fuel (va + room) (n - room)

/-- Translate a run of bytes page by page: the physical parts, or the failing address and KIND. -/
def State.vParts (s : State) (h k va n acc : Nat) : Except (Nat × Nat) (List (Nat × Nat)) :=
  (pageParts (n / 2 ^ 21 + 2) va n).mapM fun q =>
    match s.translate h k q.1 acc with
    | .ok pa => .ok (pa, q.2)
    | .error e => .error (q.1, e)

/-- Read bytes through a context's page table; `none` for poison. It passes by the stack caches (log entry 194, DESIGN CHOICE). -/
def State.vRead (s : State) (h k va n : Nat) : Except (Nat × Nat) (Option Bytes) :=
  match s.vParts h k va n accRead with
  | .error e => .error e
  | .ok ps =>
    .ok (if ps.any fun q => s.poisoned q.1 q.2 then none else some (ps.flatMap fun q => s.rdBytes q.1 q.2))

/-- Store bytes at physical parts in order. -/
def State.wrParts (s : State) : List (Nat × Nat) → Bytes → State
  | [], _ => s
  | q :: ps, b => (s.wrHbm q.1 (b.take q.2)).wrParts ps (b.drop q.2)

/-- Write bytes through a context's page table. -/
def State.vWrite (s : State) (h k va : Nat) (b : Bytes) : Except (Nat × Nat) State :=
  match s.vParts h k va b.length accWrite with
  | .error e => .error e
  | .ok ps => .ok (s.wrParts ps b)

/-- A PAGE_FAULT that a front-die unit meets for a context (R210): record, TR_FAULT of hall `h` unless valid, notice, stop. -/
def State.unitPageFault (s : State) (h : Nat) (k : CtxId) (unit sub va acc kind : Nat) : State :=
  let rec_ := evr 0x3001 unit sub (k.val * 2 ^ 32) va (acc * 2 ^ 52 + kind * 2 ^ 48)
  let s1 := s.faultCtx k rec_
  let s2 := if s1.flag (rTrFault h k.val) fTrFaultValid then s1
    else s1.setReg (rTrFault h k.val) (BitVec.ofNat 64 (2 ^ 63 + acc * 2 ^ 52 + kind * 2 ^ 48 + va))
  (s2.count (rTrFaultCnt h) 1).notify 3 (k.val + acc * 16 + kind * 2 ^ 8 + va * 2 ^ 16)

end Sys2Proof.Machine
end

