-- ==== Sys2Proof/Machine/Context.lean ====
section
/-! DEFINITION. Sys2Proof/Machine/Context.lean: Millpond slots, the clocks at G0, the release of a context's cores at the end of a step and the end of a context (R16, R137, R231, R236, R337, R347, R396). -/

namespace Sys2Proof.Machine

/-! ### Millpond slots -/

/-- State of Millpond slot `i` (R337). -/
def State.slotOf (s : State) (i : Nat) : SlotS := sget (fun _ => .free) s.pond.slots i

/-- Put slot `i` in a state. -/
def State.setSlot (s : State) (i : Nat) (v : SlotS) : State :=
  { s with pond := { s.pond with slots := sset (fun _ => .free) s.pond.slots i v } }

/-- Slots in a state other than FREE, in ascending index. -/
def State.slotsIn (s : State) (v : SlotS) : List Nat := (s.pond.slots.filter fun e => e.2 = v).map Prod.fst

/-- Number of FREE slots (R352): none before the Millpond is enabled for the first time, when no slot has a state yet. -/
def State.freeSlots (s : State) : Nat := if s.pond.pool then s.fget rMpCfg fMpCfgSlots - s.pond.slots.length else 0

/-- A slot becomes READY: appended to the ready list (R338). -/
def State.slotReady (s : State) (i : Nat) : State :=
  let s1 := s.setSlot i .ready
  ({ s1 with pond := { s1.pond with readyList := s1.pond.readyList ++ [i] } } : State).emptySettle

/-- RESERVE is topped up from FREE to XCH_K (R337), lowest index first. A slot in which a sample of the round has landed returns to it or is replaced by
an OUTBOUND one at the commit, and counts with it (log entry 197, DEDUCED). -/
def topUp : Nat → Nat → State → State
  | 0, _, s => s
  | fuel + 1, i, s =>
    if s.fget rMpCfg fMpCfgXchK ≤ (s.slotsIn .reserve).length + (s.slotsIn .inbound).length then s
    else topUp fuel (i + 1) (if s.slotOf i = .free then s.setSlot i .reserve else s)

/-- Top up the reserve: after a commit, at enable, and before any FREE slot is given to dispatch (R336, R337). -/
def State.topUpReserve (s : State) : State := topUp (s.fget rMpCfg fMpCfgSlots) 0 s

/-! ### Clips and engines -/

/-- Clip number `i` of those between start and retirement. -/
def State.clip (s : State) (i : Nat) : Option ClipS := s.pond.clips.getD i none

def State.setClip (s : State) (i : Nat) (c : Option ClipS) : State :=
  { s with pond := { s.pond with clips := s.pond.clips.set i c } }

/-- CONS passes every retired record in order (R320). -/
def consAdvance : Nat → Nat → State → State
  | 0, _, s => s
  | fuel + 1, k, s =>
    let c := BitVec.ofNat 32 (s.fget (rHrRingCons k) fHrRingConsCons)
    if s.pond.retired.contains (k, c) then
      consAdvance fuel k
        ({ s with pond := { s.pond with retired := s.pond.retired.filter fun e => e != (k, c) } }.fput (rHrRingCons k) fHrRingConsCons (c.toNat + 1))
    else s

/-- A record of ring `k` retires (R320). -/
def State.retire (s : State) (k : Nat) (num : BitVec 32) : State :=
  consAdvance 65536 k (({ s with pond := { s.pond with retired := s.pond.retired ++ [(k, num)] } } : State).count rHrClipCnt 1)

/-- Clip `i` retires once no sample of it is left (R320). -/
def State.clipCheck (s : State) (i : Nat) : State :=
  match s.clip i with
  | some c => if c.index.isSome && c.left == 0 then (s.setClip i none).retire c.ring c.num else s
  | none => s

/-- One sample of clip `i` is finished. -/
def State.sampleDone (s : State) (i : Nat) : State :=
  match s.clip i with
  | some c => (s.setClip i (some { c with left := c.left - 1 })).clipCheck i
  | none => s

/-- Engine `e` is free again. -/
def State.engineFree (s : State) (e : Nat) : State :=
  ({ s with pond := { s.pond with engines := s.pond.engines.set e none } } : State).fput rHrStatus ⟨e, e⟩ 0

/-- The samples in flight are discarded (R347): the engines are free, and each sample is finished for its clip. -/
def State.enginesDrop (s : State) : State :=
  (List.range 8).foldl (fun s e => match s.pond.engines.getD e none with
    | some x => (s.engineFree e).sampleDone x.clip
    | none => s) s

/-- The valid groups of a context. -/
def State.ctxGroups (s : State) (k : Nat) : List Nat :=
  s.regs.filterMap fun e =>
    if rGtCfg 0 ≤ e.1 ∧ e.1 < rGtCfg 1024 ∧ (e.1 - rGtCfg 0) % 0x100 = 0 ∧ fGtCfgValid.get e.2 = 1 ∧ fGtCfgCtx.get e.2 = k
    then some ((e.1 - rGtCfg 0) / 0x100) else none

/-- The Millpond's group, if its entry is valid (R337). -/
def State.pondGroup (s : State) : Option Nat :=
  let g := s.fget rMpCfg fMpCfgGroup
  if s.flag (rGtCfg g) fGtCfgValid then some g else none

/-- The Millpond's changes when a step commits (R337): HELD to FREE, OUTBOUND to RESERVE, INBOUND to READY, reserve topped up. -/
def State.pondCommit (s : State) : State :=
  let s1 := (s.slotsIn .held).foldl (fun s i => s.setSlot i .free) s
  let s2 := (s.slotsIn .outbound).foldl (fun s i => s.setSlot i .reserve) s1
  let s3 := (s.slotsIn .inbound).foldl (fun s i => s.slotReady i) s2
  let s4 : State := { s3 with pond := { s3.pond with held := [], replay := [], round := none } }
  let s5 := (List.range 16).foldl (fun s q => s.fput (rMpQHeld q) fMpQHeldHeld 0) s4
  s5.topUpReserve

/-- The Millpond's changes when a step rolls back (R337, R341, R344). -/
def State.pondRollback (s : State) : State :=
  let s1 := (s.slotsIn .outbound).foldl (fun s i => s.slotReady i) s
  let s2 := (s.slotsIn .inbound).foldl (fun s i => s.setSlot i .reserve) s1
  { s2 with pond := { s2.pond with replay := s2.pond.held, round := none } }

/-- Send a pause frame; a non-zero pause is counted (R346, R354). -/
def State.pfcSend (s : State) (quanta : Nat) : State :=
  if s.flag rHrCtl fHrCtlPfcEn then
    ({ s with sent := s.sent ++ [.pfc (s.fget rHrCtl fHrCtlPfcPrio) quanta] } : State).count rMpPauseCnt (if quanta = 0 then 0 else 1)
  else s

/-- Start or end the pause as FREE crosses its thresholds (R346). -/
def State.pfcCheck (s : State) : State :=
  if s.pond.pool && !s.pond.pausing && decide (s.freeSlots < s.fget rHrPfcCfg fHrPfcCfgXoffFree) then
    ({ s with pond := { s.pond with pausing := true } } : State).pfcSend 0xFFFF
  else if s.pond.pausing && decide (s.fget rHrPfcCfg fHrPfcCfgXonFree ≤ s.freeSlots) then
    ({ s with pond := { s.pond with pausing := false } } : State).pfcSend 0
  else s

/-- An excluded member's Millpond: HELD, OUTBOUND and INBOUND slots become FREE (R363). -/
def State.pondLeave (s : State) : State :=
  let s1 := (s.slotsIn .held ++ s.slotsIn .outbound ++ s.slotsIn .inbound).foldl (fun s i => s.setSlot i .free) s
  let s2 := (List.range 16).foldl (fun s q => s.fput (rMpQHeld q) fMpQHeldHeld 0) s1
  ({ s2 with pond := { s2.pond with held := [], replay := [], round := none } } : State).pfcCheck

/-- Dispatch waits no longer: the time counts in MP_FULL_NS (R354). -/
def State.fullEnd (s : State) : State :=
  match s.pond.fullAt with
  | some t => { s with pond := { s.pond with fullAt := none, fullFor := s.pond.fullFor + (s.now - t) } }
  | none => s

/-- Every slot becomes FREE, and the samples in flight are discarded (R337, R347). -/
def State.pondEmpty (s : State) : State :=
  let s1 := (List.range 16).foldl (fun s q => s.fput (rMpQHeld q) fMpQHeldHeld 0) s.enginesDrop
  ({ s1 with pond := { s1.pond with slots := [], used := [], readyList := [], held := [], replay := [], round := none } } : State).fullEnd.emptySettle

/-- MP_CFG.EN from 0 to 1 (R337, R352): every slot is FREE, MP_DRAW zero, the reserve topped up (log entry 197, DEDUCED). -/
def State.pondEnable (s : State) : State :=
  let s1 := s.pondEmpty.setReg rMpDraw 0
  ({ s1 with pond := { s1.pond with pool := true } } : State).topUpReserve

/-- The owning context of the Headrace or the Millpond ends (R347). -/
def State.pondEnd (s : State) (k : Nat) : State :=
  let s1 :=
    if s.fget rHrCtl fHrCtlCtx = k then
      let s1 := (s.fput rHrCtl fHrCtlEnable 0).fput rHrStatus fHrStatusBusy 0
      { s1 with pond := { s1.pond with
        clips := List.replicate 8 none, engines := List.replicate 8 none, slots := s1.pond.slots.filter fun e => e.2 ≠ .filling } }
    else s
  if s.fget rMpCfg fMpCfgCtx = k then (s1.fput rMpCfg fMpCfgEn 0).pondEmpty.pfcCheck else s1.fullEnd.pfcCheck

/-! ### Running contexts and the core clocks -/

/-- Is the context running (R16): started and not stopped? (log entry 91, DEDUCED) -/
def State.ctxRunning (s : State) (k : Nat) : Bool := (s.ctx k).started && (s.ctx k).stopped.isNone

/-- The running contexts. -/
def State.runningCtxs (s : State) : List Nat := (List.range 8).filter s.ctxRunning

/-- Operations of stopped cores that still complete at their stated cycles (R44, R67, R95), and rows on the mesh (log entry 46, DEDUCED). -/
def State.draining (s : State) : Bool :=
  (s.beats.any fun b => decide (b.dest < 1152)) || s.cores.any fun e => e.2.flights != [] || e.2.runs != [] || e.2.sends != [] || e.2.posts != []

/-- With no context running the device is at G0: core clocks stopped, share 0 (R20, R396). What stopped cores still complete comes first. -/
def State.idleCheck (s : State) : State :=
  if s.runningCtxs = [] ∧ !s.draining then
    let s1 := ((s.fput rEbcStatus fEbcStatusGear 0).fput rEbcStatus fEbcStatusShare 0).fput rHrStatus fHrStatusActive 0
    let s2 := (List.range 8).foldl (fun s h => s.fput (rHallClk h) fHallClkGear 0) s1
    { s2 with ebc := { s2.ebc with running := false, evaluating := false, ready := 0 } }
  else s

/-- A context starts while the core clocks stand: the evaluation of R21 begins (R396). -/
def State.startClocks (s : State) : State :=
  if s.ebc.running || s.ebc.change.isSome || s.ebc.noGear then s else { s with ebc := { s.ebc with evaluating := true } }

/-! ### Cores of a context -/

/-- CEL_PEAK follows a stack top that exceeds it (R256). -/
def State.celPeak (s : State) (c : CoreId) : State :=
  if s.fget (rCelPeak c) fCelPeakPeak < s.fget (rCelTop c) fCelTopTop then s.fput (rCelPeak c) fCelPeakPeak (s.fget (rCelTop c) fCelTopTop) else s

/-- Descriptors that leave a core's list with requests accepted by a stack cache: these are never lost, and complete (R125, R202, R357). -/
def State.descsGone (s : State) (c : CoreId) (p : DescS → Bool) : State :=
  let l := (s.core c).descs.zipIdx.filter fun d => d.1.reqs != 0 && p d.1
  if l = [] then s
  else s.modCore c fun x =>
    { x with gone := x.gone ++ l.map fun d => ⟨s.coreCtx c, decide (s.fget (rStrmEntry c d.2) fStrmEntryDesc = 1), d.1⟩ }

/-- What a halt or a reset of its context leaves of a core's operations: nothing in flight and nothing kept (R357). -/
def CoreS.clearOps (x : CoreS) : CoreS :=
  { x with
    queue := [], flights := [], sends := [], runs := [], chain := [], arrHold := 0, unitNext := [], descs := [], restart := [],
    posts := [], closing := [], kept := [], marker := .none, bubble := 0, gwait := none, waited := 0, gated := false, prefetch := [], outq := [], step := false,
    preempted := false, opened := [], tellStop := false }

/-- A core without any context's state: RUN = STOPPED = 0, context-state registers as after reset, nothing in flight (R76); the rules give these registers
no value while no context is on the core (log entry 42, DESIGN CHOICE). -/
def State.ctxBlank (s : State) (c : CoreId) : State :=
  ((s.descsGone c fun _ => true).ctxClear c).modCore c fun x =>
    { x.clearOps with present := false, stopCause := none, attempt := none, tlb := [] }

/-- A core leaves its context (R76, R137). -/
def State.leaveCore (s : State) (c : CoreId) : State := s.ctxBlank c

/-- A group's run time goes on, or stands still (R359). -/
def State.runGoes (s : State) (g : Nat) (on : Bool) : State :=
  let x := s.group g
  let n := x.runUnits + (match x.runFrom with
    | some t => s.now - t
    | none => 0)
  (s.modGroup g fun x => { x with runUnits := n, runFrom := if on then some s.now else none }).fput (rRsRunS g) fRsRunSRun (n / (unitsMs * 1000))

/-- Tags of a context at the link routers leave use (R236, R278). -/
def State.dropTags (s : State) (k : Nat) : State :=
  { s with links := s.links.map fun e => (e.1, { e.2 with tags := e.2.tags.map fun t => if t.ctx.val = k then { t with quarantine := true } else t }) }

/-- Flows of link `n` that belong to a context (R291). -/
def State.flowsOf (s : State) (n k : Nat) : List Nat := (List.range 64).filter fun f => s.fget (rLinkFlow n f) fLinkFlowCtx == k

/-- Links take beats of the context's flows again (R282, R357). -/
def State.clearDiscard (s : State) (k : Nat) : State :=
  (List.range 24).foldl (fun s n =>
    let fl := s.flowsOf n k
    if (s.link n).discard.any fl.contains then s.modLink n fun l => { l with discard := l.discard.filter fun f => !fl.contains f } else s) s

/-- The end of a context (R122, R231, R236, R347, R375): semaphores orphaned and freed, entries removed, units stopped, cores left. -/
def State.ctxEnd (s : State) (k : Nat) : State :=
  let gs := s.ctxGroups k
  let s1 := ((s.orphanCtx k).dropEntries k).freeSems k
  let s2 := ((s1.dropTags k).pondEnd k).clearDiscard k
  let s3 := (s.activeCores k).foldl (fun s c => s.leaveCore c) s2
  let s4 := gs.foldl (fun s g => s.setGroup g GroupS.fresh) s3
  (s4.setCtx k CtxS.fresh).idleCheck

/-- The held cores of a context are released into the next step, or leave it by EXIT (R137). -/
def State.releaseCtx (s : State) (k : Nat) : State :=
  let cores := s.ctxCores k
  let s1 := (s.activeCores k).foldl (fun s c => match (s.core c).marker with
    | .retired true => (s.leaveCore c).modCtx k fun x => { x with exited := if x.exited.contains c then x.exited else x.exited ++ [c] }
    | .retired false => s.modCore c fun x => { x with marker := .none }
    | _ => s) s
  let s2 := (s1.modCtx k fun x => { x with boundary := false, joined := false })
  let s3 := (s2.ctxGroups k).foldl (fun s g => s.modGroup g fun x => { x with committed := false }) s2
  if cores ≠ [] ∧ cores.all fun c => (s3.ctx k).exited.contains c then (s3.ctxEnd k).notify 1 k else s3

/-- Release a context that is past its boundary, the join and any gear change, and whose groups have adopted the commit (R137, R356). -/
def State.tryRelease (s : State) (k : Nat) : State :=
  let x := s.ctx k
  if x.boundary && x.joined && (s.ctxGroups k).all fun g => (s.group g).committed then s.releaseCtx k else s

/-- Have all cores of a context stopped issuing?. -/
def State.allStopped (s : State) (k : Nat) : Bool := (s.activeCores k).all fun c => !s.run c

end Sys2Proof.Machine
end

