-- ==== Sys2Proof/Machine/QuernPlan.lean ====
section
/-! DEFINITION. Sys2Proof/Machine/QuernPlan.lean: groups, the bucket plan, Quern records and the stations that send them (R294 to R299, R312, R314). -/

namespace Sys2Proof.Machine

/-! ### Groups -/

/-- Fields of a group table entry (R312). -/
def State.gMembers (s : State) (g : Nat) : Nat := s.fget (rGtCfg g) fGtCfgMembers
def State.gPos (s : State) (g : Nat) : Nat := s.fget (rGtCfg g) fGtCfgPos
def State.gValid (s : State) (g : Nat) : Bool := s.flag (rGtCfg g) fGtCfgValid
def State.gMiller (s : State) (g : Nat) : Bool := s.flag (rGtCfg g) fGtCfgMiller
def State.gEpoch (s : State) (g : Nat) : Nat := s.fget (rGtStep g) fGtStepEpoch
def State.gStep (s : State) (g : Nat) : Nat := s.fget (rGtStep g) fGtStepStep
def State.gCtx (s : State) (g : Nat) : CtxId := ⟨s.fget (rGtCfg g) fGtCfgCtx % 8, Nat.mod_lt _ (by decide)⟩

/-- Link to the next position in a direction on ring `r` (R294): NEXT_LINK for 0, PREV_LINK for 1. -/
def State.ringLink (s : State) (g r : Nat) (dir : Bool) : Nat :=
  if dir then s.fget (rGtRing g r) fGtRingPrevLink else s.fget (rGtRing g r) fGtRingNextLink

/-- Identifier the ring expects at the other end of that link (R312). -/
def State.ringDev (s : State) (g r : Nat) (dir : Bool) : Nat :=
  if dir then s.fget (rGtRing g r) fGtRingPrevDev else s.fget (rGtRing g r) fGtRingNextDev

/-- A group message of this device (R308). -/
def State.newMsg (s : State) (g arg : Nat) (dir : Bool) (value : Nat) : GMsg :=
  ⟨BitVec.ofNat 10 g, BitVec.ofNat 16 (s.gEpoch g), BitVec.ofNat 24 arg, dir, BitVec.ofNat 64 value⟩

/-- Send a group message on its way along ring `r`. -/
def State.gSend (s : State) (g r t : Nat) (m : GMsg) : State :=
  s.ctlSend (s.ringLink g r m.dir) (.group (BitVec.ofNat 4 t) m)

/-- Send a message in both directions on ring 0 (R356). -/
def State.gSendBoth (s : State) (g t arg value : Nat) : State :=
  (s.gSend g 0 t (s.newMsg g arg false value)).gSend g 0 t (s.newMsg g arg true value)

/-- Positions travelled in direction `dir` from `a` to `b` among `n`. -/
def ringDist (n a b : Nat) (dir : Bool) : Nat := if dir then (a + n - b) % n else (b + n - a) % n

/-! ### The bucket plan (R296, R297) -/

/-- A plan entry as a station uses it. -/
structure PlanE where
  kind : Nat
  ring : Nat
  dir : Bool
  owner : Nat
  nfmt : Nat
  tiles : Nat
  gradCt : Nat
  gathCt : Nat
  gradVa : Nat
  copyVa : Nat
  deriving DecidableEq, Repr

/-- Bytes of a 32 by 32 block in a working-copy format (R110, R296). -/
def nfmtBytes (f : Nat) : Nat :=
  match f with
  | 1 => 2048
  | 3 => 1024
  | 4 => 1024
  | 6 => 1056
  | 7 => 1056
  | _ => 0

/-- Byte offset of the first field of an entry that R297 refuses, none for a valid entry. -/
def planBad (b : Bytes) (t n : Nat) (ringOk : Nat → Bool) : Option Nat :=
  let rd := leAt b 3 1
  if leAt b 0 2 ≠ t then some 0
  else if 2 < leAt b 2 1 then some 2
  else if rd % 8 ≠ 0 ∨ 11 < rd / 16 ∨ !ringOk (rd / 16) then some 3
  else if n ≤ leAt b 4 3 then some 4
  else if nfmtBytes (leAt b 7 1) = 0 then some 7
  else if leAt b 8 2 = 0 ∨ 4096 < leAt b 8 2 then some 8
  else if leAt b 10 2 ≠ 0 then some 10
  else if 16384 ≤ leAt b 12 2 then some 12
  else if 16384 ≤ leAt b 14 2 then some 14
  else if leAt b 16 6 % 4096 ≠ 0 then some 16
  else if leAt b 22 6 % 4096 ≠ 0 then some 22
  else if slice b 28 36 ≠ zeros 36 then some 28
  else none

/-- The fields of a plan entry. -/
def planOf (b : Bytes) : PlanE :=
  ⟨leAt b 2 1, leAt b 3 1 / 16, bitN (leAt b 3 1) 3, leAt b 4 3, leAt b 7 1, leAt b 8 2, leAt b 12 2, leAt b 14 2, leAt b 16 6, leAt b 22 6⟩

/-- Why a plan entry cannot be used. -/
inductive PlanErr where
  | field (off : Nat)
  | page (va kind : Nat)
  | poison
  deriving DecidableEq, Repr

/-- The bytes of plan entry `t` of group `g` (R296): those read when the tag was first met in the step, which the plan cache holds (R294, R297), else
those in HBM as the engine of link `n` reads them. -/
def State.planBytes (s : State) (n g t : Nat) : Except PlanErr Bytes :=
  match (s.group g).entries.find? fun e => e.1 == t with
  | some e => .ok e.2
  | none => match s.vRead (n / 3) (s.gCtx g).val (s.fget (rGtPlan g) fGtPlanPlan * 64 + 64 * t) 64 with
    | .error e => .error (.page e.1 e.2)
    | .ok none => .error .poison
    | .ok (some b) => .ok b

/-- The tag is met: its entry, as the engine of link `n` reads it, is the one that the step uses (R297). -/
def State.meetTag (s : State) (n g t : Nat) : State :=
  if (s.group g).entries.any fun e => e.1 == t then s
  else match s.planBytes n g t with
    | .ok b => s.modGroup g fun x => { x with entries := x.entries ++ [(t, b)] }
    | .error _ => s

/-- Plan entry `t` of group `g` as the engine of link `n` has it, validated (R297). -/
def State.readPlan (s : State) (n g t : Nat) : Except PlanErr PlanE :=
  match s.planBytes n g t with
  | .error e => .error e
  | .ok b =>
    match planBad b t (s.gMembers g) fun r => s.flag (rGtRing g r) fGtRingV && decide (r < s.fget (rGtCfg g) fGtCfgRings) with
    | some o => .error (.field o)
    | none => .ok (planOf b)

/-- The stop a bad plan entry causes (R210, R297, R311) (log entry 85, DEDUCED). -/
def State.planFail (s : State) (n g t : Nat) (e : PlanErr) : State :=
  match e with
  | .field o => s.faultCtx (s.gCtx g) (evr 0x6004 0x18 n t o)
  | .page va kind => s.unitPageFault (n / 3) (s.gCtx g) 0x18 n va accRead kind
  | .poison => s.faultCtx (s.gCtx g) (evr 0x3004 0x18 n t)

/-! ### Records (R299) -/

/-- A record header. -/
structure QHdr where
  tag : Nat
  tile : Nat
  kind : Nat
  attempt : Nat
  beats : Nat
  fmt : Nat
  group : Nat
  epoch : Nat
  hops : Nat
  /-- Bytes 16 to 31. -/
  mid : Bytes
  deriving DecidableEq, Repr

/-- Read a header beat. -/
def qhdrOf (b : Bytes) : QHdr :=
  ⟨leAt b 0 2, leAt b 2 2, leAt b 4 1, leAt b 5 1, leAt b 6 1, leAt b 7 1, leAt b 8 2 % 1024, leAt b 10 2, leAt b 12 3, slice b 16 16⟩

/-- Write a header beat. -/
def qhdrBytes (h : QHdr) : Bytes :=
  natBytes 2 h.tag ++ natBytes 2 h.tile ++ natBytes 1 h.kind ++ natBytes 1 h.attempt ++ natBytes 1 h.beats ++ natBytes 1 h.fmt
    ++ natBytes 2 h.group ++ natBytes 2 h.epoch ++ natBytes 3 h.hops ++ natBytes 1 0 ++ slice h.mid 0 16 ++ zeros 96

/-- SUM and ABS as bytes 16 to 31. -/
def sumAbs (sum abs : Word) : Bytes := natBytes 8 sum.toNat ++ natBytes 8 abs.toNat

/-! ### Stations (R294, R312) -/

/-- Is the engine of link `n` a station of group `g`, ring `r`, direction `dir`? -/
def State.isStation (s : State) (n g r : Nat) (dir : Bool) : Bool :=
  s.flag (rQst n) fQstV && s.fget (rQst n) fQstGroup == g && s.fget (rQst n) fQstRing == r && s.flag (rQst n) fQstDir == dir

/-- The station of a group, ring and direction on this device. -/
def State.station (s : State) (g r : Nat) (dir : Bool) : Option Nat := (List.range 24).find? fun n => s.isStation n g r dir

/-- Bytes waiting in the egress buffer of a flow (R273). -/
def State.egress (s : State) (n f : Nat) : Bytes := sget (fun _ => []) (s.link n).egress f

/-- A station takes `k` beats from an egress flow (R294, R298). -/
def State.egTake (s : State) (n f k : Nat) : State :=
  if s.egress n f = [] then s
  else s.modLink n fun l => { l with egress := sset (fun _ => []) l.egress f ((sget (fun _ => []) l.egress f).drop (128 * k)) }

/-- The station of link `n` takes an upstream record with its header beat. -/
def State.upTake (s : State) (n beats : Nat) : State := s.egTake n (s.fget (rQst n) fQstUpFlow) (1 + beats)

/-- Append bytes to a flow's egress buffer. -/
def State.egPush (s : State) (n f : Nat) (b : Bytes) : State :=
  s.modLink n fun l => { l with egress := sset (fun _ => []) l.egress f (sget (fun _ => []) l.egress f ++ b) }

/-- Beats an egress flow can still take of its share (R273, R281). -/
def State.egRoom (s : State) (n f : Nat) : Nat :=
  s.fget (rLinkFlow n f) fLinkFlowEgBeats - ((s.egress n f).length + 127) / 128 - sget (fun _ => 0) (s.link n).reserved f

/-- The beats that `room` beats of egress space take of the records that wait, in order: the bytes, what still waits, and the gathers that end with
them. -/
def pumpBeats : Nat → List WireS → Bytes × List WireS × List (Nat × Nat)
  | _, [] => ([], [], [])
  | room, w :: ws =>
    if w.bytes.length ≤ 128 * room then
      let r := pumpBeats (room - w.bytes.length / 128) ws
      (w.bytes ++ r.1, r.2.1, (w.last.toList.map fun t => (w.group, t)) ++ r.2.2)
    else (w.bytes.take (128 * room), { w with bytes := w.bytes.drop (128 * room) } :: ws, [])

/-- The station of link `n` passes beats of its records into the egress buffer while its wire flow's share has room (R273) (log
entry 84, DESIGN CHOICE). -/
def State.wirePump (s : State) (n : Nat) : State :=
  let q := (s.link n).wireQ
  let f := s.fget (rQst n) fQstWireFlow
  let r := pumpBeats (s.egRoom n f) q
  if q = [] ∨ r.1 = [] then s
  else (s.egPush n f r.1).modLink n fun l => { l with wireQ := r.2.1, gathSent := l.gathSent ++ r.2.2 }

/-- A station sends a record on its wire flow; `last` names the tag whose gather ends with it. On a link that is not OPEN the record is lost
(R288, R311). -/
def State.wireSend (s : State) (n : Nat) (h : QHdr) (data : Bytes) (last : Option Nat := none) : State :=
  if s.linkState n = lsOpen then
    ((s.count (rQeRecTxCnt n) 1).modLink n fun l => { l with wireQ := l.wireQ ++ [⟨h.group, qhdrBytes h ++ data, last⟩] }).wirePump n
  else s.modLink n fun l => { l with gathSent := l.gathSent ++ last.toList.map fun t => (h.group, t) }

/-- Has the station egress space for what it would send next (R305): nothing waits before it and its share has room? -/
def State.wireFree (s : State) (n : Nat) : Bool :=
  s.linkState n != lsOpen || ((s.link n).wireQ == [] && decide (0 < s.egRoom n (s.fget (rQst n) fQstWireFlow)))

/-- Slots of the combine buffer in use (R294): records that wait for their counterpart, or for egress space. -/
def LinkS.slotsUsed (l : LinkS) : Nat := l.combine.length + (l.wireQ.filter fun w => w.last.isNone).length

/-- Does the peer of the station's link bear the identifier the ring expects (R312)? -/
def State.peerOk (s : State) (n g r : Nat) (dir : Bool) : Bool := s.fget (rLinkStatus n) fLinkStatusPeerId == s.ringDev g r dir

/-- The same for a record whose ring and direction are those of the station at link `n` (R312). -/
def State.stationPeer (s : State) (n : Nat) : Bool :=
  s.peerOk n (s.fget (rQst n) fQstGroup) (s.fget (rQst n) fQstRing) (s.flag (rQst n) fQstDir)

end Sys2Proof.Machine
end

