-- ==== Sys2Proof/Machine/Exchange.lean ====
section
/-! DEFINITION. Sys2Proof/Machine/Exchange.lean: Philox draws (R338) and the start of an exchange round (R342, R343). -/

namespace Sys2Proof.Machine

/-- One Philox-4x32 round on counter words and key words (R338). -/
def philoxRound (c : Nat × Nat × Nat × Nat) (k0 k1 : Nat) : Nat × Nat × Nat × Nat :=
  let p0 := 0xD2511F53 * c.1
  let p1 := 0xCD9E8D57 * c.2.2.1
  ((p1 / 2 ^ 32 ^^^ c.2.1) ^^^ k0, p1 % 2 ^ 32, (p0 / 2 ^ 32 ^^^ c.2.2.2) ^^^ k1, p0 % 2 ^ 32)

/-- `n` rounds with the key raised after each. -/
def philoxRounds : Nat → Nat × Nat × Nat × Nat → Nat → Nat → Nat × Nat × Nat × Nat
  | 0, c, _, _ => c
  | n + 1, c, k0, k1 => philoxRounds n (philoxRound c k0 k1) ((k0 + 0x9E3779B9) % 2 ^ 32) ((k1 + 0xBB67AE85) % 2 ^ 32)

/-- Philox-4x32-10 of a 64-bit key (R338). -/
def philox (key : Word) (c0 c1 c2 c3 : Nat) : Nat × Nat × Nat × Nat :=
  philoxRounds 10 (c0 % 2 ^ 32, c1 % 2 ^ 32, c2 % 2 ^ 32, c3 % 2 ^ 32) (key.toNat % 2 ^ 32) (key.toNat / 2 ^ 32)

/-- This device's position in the Millpond's group, 0 without one. -/
def State.pondPos (s : State) : Nat :=
  match s.pondGroup with
  | some g => s.gPos g
  | none => 0

/-- Take entry `j` of the ready list; the last entry fills the gap (R338). -/
def State.readyTake (s : State) (j : Nat) : State :=
  let l := s.pond.readyList
  ({ s with pond := { s.pond with readyList := (l.set j (l.getLastD 0)).dropLast } } : State).emptySettle

/-- Address of Millpond slot `i` (R337). -/
def State.slotVa (s : State) (i : Nat) : Nat :=
  s.fget rMpPool fMpPoolBase * 4096 + i * (s.fget rMpPool fMpPoolSlotSize * 4096)

/-- Used length in beats of the sample in slot `i` (R343): A_OFF plus the audio bytes, or 4,096 + V_BYTES, as it was written or landed. -/
def State.slotBeats (s : State) (i : Nat) : Nat := sget (fun _ => 0) s.pond.used i

/-- Keep the used length of a slot's sample. -/
def State.setUsed (s : State) (i beats : Nat) : State := { s with pond := { s.pond with used := sset (fun _ => 0) s.pond.used i beats } }

/-- Chunks of 128 beats of a sample as KIND 2 records (R343). -/
def chunkRecs (h : QHdr) (data : Bytes) : Nat → Nat → List (QHdr × Bytes)
  | 0, _ => []
  | fuel + 1, c =>
    let part := slice data (16384 * c) (min 16384 (data.length - 16384 * c))
    ({ h with tile := c, beats := part.length / 128 }, part) :: chunkRecs h data fuel (c + 1)

/-- A page of a slot is unmapped: the sample is dropped with a CLIP_RECORD record that carries the address (R329, R348); whose sample it was cannot be
read, and CLIP_ID and SAMPLE_TAG read 0 (log entry 198, DESIGN CHOICE). -/
def State.pondUnmapped (s : State) (va : Nat) : State :=
  (s.count (rHrDropCnt 5) 1).emit (evr 0x7005 0x13 0 0 0 5 va (2 ^ 64 - 1))

/-- Pick `j` of the round (R342) and send its sample, or a void one, on station `n`. -/
def State.sendPick (s : State) (n g t d j : Nat) : State :=
  let k := s.fget rMpCfg fMpCfgCtx
  let base : QHdr := ⟨t, 0, 2, 0, 0, 0, g, s.gEpoch g, 0, []⟩
  let mid (beats crc : Nat) : Bytes := natBytes 2 j ++ zeros 2 ++ natBytes 4 beats ++ natBytes 3 d ++ zeros 1 ++ natBytes 4 crc
  let void (s : State) : State := ((s.wireSend n { base with mid := mid 0 0 } []).count rMpXchVoidCnt 1).count rMpXchTxCnt 1
  let len := s.pond.readyList.length
  if len = 0 then void s
  else
    let u := (philox (s.reg rMpSeed) (s.gStep g) j (s.gPos g) 1).1
    let jj := u * len / 2 ^ 32
    let slot := s.pond.readyList.getD jj 0
    let s1 := s.readyTake jj
    let beats := s.slotBeats slot
    match s.vRead 0 k (s.slotVa slot) (128 * beats) with
    | .ok (some data) =>
      let h := { base with mid := mid beats (crc32c data).toNat }
      ((chunkRecs h data ((beats + 127) / 128) 0).foldl (fun s r => s.wireSend n r.1 r.2) (s1.setSlot slot .outbound)).count rMpXchTxCnt 1
    | .ok none => void (s1.setSlot slot .free).pfcCheck
    | .error e => void ((s1.setSlot slot .free).pondUnmapped e.1).pfcCheck

/-- The distance of round `s` (R342): the same on every member. -/
def State.xchDist (s : State) (g : Nat) : Nat :=
  1 + (philox (s.reg rMpSeed) (s.gStep g) 0 0 2).1 * (s.gMembers g - 1) / 2 ^ 32

/-- Does the Millpond run exchange rounds (R342)? -/
def State.xchOn (s : State) (g : Nat) : Bool :=
  s.flag rMpCfg fMpCfgEn && s.flag rMpCfg fMpCfgXchEn && decide (0 < s.fget rMpCfg fMpCfgXchK) && decide (1 < s.gMembers g) && s.pondGroup == some g

/-- The exchange round at the start of a step (R342) (log entry 94, DEDUCED). -/
def State.startRound (s : State) (g : Nat) : State :=
  if !s.xchOn g then s
  else
    let t := s.fget rMpCfg fMpCfgXchTag
    let d := s.xchDist g
    -- Any station of the group reads the entry; without one it cannot be met.
    match (List.range 24).find? fun n => s.flag (rQst n) fQstV && s.fget (rQst n) fQstGroup == g with
    | none => s
    | some n0 =>
      match s.readPlan n0 g t with
      | .error e => s.planFail n0 g t e
      | .ok p =>
        let s := s.meetTag n0 g t
        match s.station g p.ring p.dir with
        | none => s
        | some n =>
          let r : RoundS := ⟨BitVec.ofNat 32 (s.gStep g), d, [], [], s.slotsIn .reserve, 0, false⟩
          (List.range (s.fget rMpCfg fMpCfgXchK)).foldl (fun s j => s.sendPick n g t d j)
            { s with pond := { s.pond with round := some r } }

end Sys2Proof.Machine
end

