-- ==== Sys2Proof/Machine/QuernStep.lean ====
section
/-! DEFINITION. Sys2Proof/Machine/QuernStep.lean: the Quern's step on this device: buckets, the norm, the verdict and STEP_DONE (R263, R264, R295, R304 to R307, R313). -/

namespace Sys2Proof.Machine

/-- The bucket of a tag, if it has been met in this step. -/
def State.bucket (s : State) (g t : Nat) : Option BucketS := (s.group g).buckets.find? fun b => b.tag == t

/-- A bucket as first met. -/
def newBucket (t : Nat) : BucketS := ⟨t, 0, [], [], [], false, false, false, 0⟩

/-- The bucket with its changes; it is added when it is new, and its tag has been met (R297). -/
def State.modBucket (s : State) (g t : Nat) (f : BucketS → BucketS) : State :=
  (s.meetTag 0 g t).modGroup g fun x =>
    if x.buckets.any fun b => b.tag == t then { x with buckets := x.buckets.map fun b => if b.tag == t then f b else b }
    else { x with buckets := x.buckets ++ [f (newBucket t)] }

/-- The bucket's retained records are freed at its ACK (R300, R303): one that is still on its way to the region leaves it once it has been written and its
credits are freed. -/
def State.retainFree (s : State) (g t : Nat) : State :=
  let kept (r : RetS) : Option RetS := if r.tag ≠ t then some r else if r.committed then none else some { r with acked := true }
  s.modGroup g fun x => { x with retained := x.retained.filterMap kept }

/-- Buckets open on the device (R295). -/
def State.openBuckets (s : State) : Nat :=
  s.groups.foldl (fun n e => n + (e.2.buckets.filter fun b => !b.complete && !b.acked).length) 0

/-- Is there room for a record of this tag under the limit of 4,096 open buckets (R295)? -/
def State.bucketRoom (s : State) (g t : Nat) : Bool := (s.bucket g t).isSome || decide (s.openBuckets < 4096)

/-- Tags whose valid plan entry satisfies `p`, ascending. -/
def State.planTags (s : State) (g : Nat) (p : PlanE → Bool) : List Nat :=
  (List.range (s.fget (rGtPlancnt g) fGtPlancntBuckets)).filter fun t =>
    match s.readPlan 0 g t with
    | .ok e => p e
    | .error _ => false

/-- The buckets that a position owns by the plan, ascending (R296, R355). -/
def State.ownedBy (s : State) (g pos : Nat) : List Nat := s.planTags g fun e => e.kind ≠ 2 && e.owner == pos

/-- The buckets this member owns (R296). -/
def State.ownedTags (s : State) (g : Nat) : List Nat := s.ownedBy g (s.gPos g)

/-- The ownership list of a position (R355): its tags at load, then those it gained. -/
def State.ownList (s : State) (g pos : Nat) : List Nat := (s.group g).lists.getD pos []

/-- Clipping limit in force: C is positive and finite (R304). -/
def State.clipOn (s : State) (g : Nat) : Bool :=
  let c := s.fget (rGtClip g) fGtClipC
  decide (0 < c) && decide (c < 0x7F800000)

/-- Is every bucket owned here complete? -/
def State.ownComplete (s : State) (g : Nat) : Bool :=
  (s.ownedTags g).all fun t => match s.bucket g t with
    | some b => b.complete
    | none => false

/-- This device's partial sum of squares G_p: its buckets in ascending tag order (R263, R306). -/
def State.partialSum (s : State) (g : Nat) : Word :=
  (s.ownedTags g).foldl (fun acc t => match s.bucket g t with
    | some b => add64 acc b.sq
    | none => acc) 0

/-- The clip factor (R263): 1 when the root of G is at most C, else C over it, in FP64, rounded once to FP32. -/
def clipK (gval : Word) (c : BitVec 32) : BitVec 32 :=
  let r := rn64 (fpSqrt (f64 gval))
  if fpLe (f64 r) (f32 c) then 0x3F800000 else rn32 (f64 (rn64 (fpDiv (f32 c) (f64 r))))

/-- The step record (R313). -/
def stepRec (step epoch status : Nat) (gval : Word) (k : BitVec 32) (bad : Nat) (gp : Word) (retries : Nat) : Bytes :=
  natBytes 4 step ++ natBytes 2 epoch ++ natBytes 1 status ++ zeros 1 ++ natBytes 8 gval.toNat ++ natBytes 4 k.toNat ++ natBytes 4 bad
    ++ natBytes 8 gp.toNat ++ natBytes 4 retries ++ zeros 92

/-- The plan entry's completion semaphores posted for a list of tags. -/
def State.postTags (s : State) (g n : Nat) (ct : PlanE → Nat) (ts : List Nat) : State :=
  ts.foldl (fun s t => match s.readPlan 0 g t with
    | .ok e => s.unitPost (s.gCtx g) (ct e) n
    | .error _ => s) s

/-- Post the verdict (R304): the step record first, then VERDICT; GRAD_CT or the zero GATH_CT posts follow. -/
def State.postVerdict (s : State) (g status : Nat) (gval : Word) (k : BitVec 32) (bad : Nat) (gp : Word) : State :=
  let c := s.gCtx g
  let va := s.fget (rGtSteprec g) fGtSteprecRec * 128
  match s.vWrite 0 c.val va (stepRec (s.gStep g) (s.gEpoch g) status gval k bad gp (s.group g).retries) with
  | .error e => s.unitPageFault 0 c 0x18 0 e.1 accWrite e.2
  | .ok s1 =>
    let s2 := (s1.modGroup g fun x => { x with verdict := true, status := status, gval := gval, nonfinite := bad }).unitPost c
      (s.fget (rGtSem g) fGtSemVerdict) 1
    let own := (s.ownedTags g)
    if status = 2 then s2.postTags g 0 PlanE.gathCt own
    else if s.clipOn g then s2.postTags g 1 PlanE.gradCt (own.filter fun t => match s.bucket g t with
      | some b => b.complete
      | none => false)
    else s2

/-- Without clipping the verdict is posted when every bucket owned here is complete (R304). -/
def State.checkVerdict (s : State) (g : Nat) : State :=
  if !s.clipOn g && !(s.group g).verdict && s.ownComplete g then s.postVerdict g 1 0 0x3F800000 0xFFFFFF 0 else s

/-- G is known here: K, the verdict and, at the Miller, GRAD_NONFINITE (R263, R264, R306). -/
def State.verdictAct (s : State) (g : Nat) (gval : Word) (bad : Nat) : State :=
  let ok := fpFinite (f64 gval)
  let s1 := s.postVerdict g (if ok then 1 else 2) gval (clipK gval (BitVec.ofNat 32 (s.fget (rGtClip g) fGtClipC))) bad
    (s.partialSum g)
  if !ok && s.gMiller g then s1.emit ((evr 0x6003 0x11 0 (s.gStep g) bad).ofCtx (s.gCtx g) false) else s1

/-- First non-finite position carried on (R306). -/
def carryBad (bad pos : Nat) (gp : Word) : Nat := if bad ≠ 0xFFFFFF then bad else if fpFinite (f64 gp) then 0xFFFFFF else pos

/-- Pass the norm on once this member's own buckets are complete (R306). -/
def State.normTry (s : State) (g : Nat) : State :=
  let x := s.group g
  let n := s.gMembers g
  let p := s.gPos g
  if !s.clipOn g || x.normSent || x.verdict || !s.ownComplete g then s
  else
    let gp := s.partialSum g
    let send (s : State) (v : Word) (bad : Nat) : State :=
      let s1 := s.modGroup g fun x => { x with normSent := true }
      if p + 1 = n then
        (if 1 < n then s1.gSend g 0 4 (s1.newMsg g bad false v.toNat) else s1).verdictAct g v bad
      else s1.gSend g 0 3 (s1.newMsg g bad false v.toNat)
    if p = 0 then send s gp (carryBad 0xFFFFFF 0 gp)
    else match x.normIn with
      | some (v, bad) => send s (add64 v gp) (carryBad bad p gp)
      | none => s

/-- Is the exchange bucket done (R344): its round complete here and every other member's ACK in? -/
def State.roundDone (s : State) (g : Nat) : Bool :=
  if s.xchOn g then match s.pond.round with
    | some r => r.complete && decide (s.gMembers g ≤ r.acks + 1)
    | none => false
  else true

/-- Is the bucket of a tag done for STEP_DONE (R307)? -/
def State.tagDone (s : State) (g t : Nat) : Bool :=
  match s.readPlan 0 g t with
  | .error _ => false
  | .ok e =>
    if e.kind = 2 then s.roundDone g
    else match s.bucket g t with
      | none => false
      | some b =>
        (if e.owner = s.gPos g then b.complete else b.acked)
          && (e.kind == 1 || b.gathDone || (s.group g).status == 2)

/-- STEP_DONE is posted once, when everything of the step is done here (R307). -/
def State.checkStepDone (s : State) (g : Nat) : State :=
  let x := s.group g
  if !x.stepDone && x.retained.isEmpty && (List.range (s.fget (rGtPlancnt g) fGtPlancntBuckets)).all (s.tagDone g) then
    (s.modGroup g fun x => { x with stepDone := true }).unitPost (s.gCtx g) (s.fget (rGtSem g) fGtSemStepdone) 1
  else s

/-- What follows when buckets complete, ACKs or gathers arrive: verdict, norm, STEP_DONE. -/
def State.quernProgress (s : State) (g : Nat) : State := ((s.checkVerdict g).normTry g).checkStepDone g

/-- The value of the group's UPDATE semaphore (R305). -/
def State.updateValue (s : State) (g : Nat) : Nat :=
  s.fget (rSem (s.fget (rSemMap (s.gCtx g).val (s.fget (rGtSem g) fGtSemUpdate)) fSemMapPsem)) fSemValue

/-- The Quern's step starts: a member that owns nothing, or a plan without buckets, has nothing to wait for. -/
def State.quernStart (s : State) (g : Nat) : State :=
  (s.modGroup g fun x => { x with updBase := s.updateValue g }).quernProgress g

end Sys2Proof.Machine
end

