-- ==== Sys2Proof/Machine/GroupBase.lean ====
section
/-! DEFINITION. Sys2Proof/Machine/GroupBase.lean: halting and restarting a group's context, its snapshot, phases, rollback, recovery and fault reports (R309, R310, R355 to R365). -/

namespace Sys2Proof.Machine

/-- Position of the Miller as this device knows it (R356) (log entry 87, DEDUCED). -/
def State.millerPos (s : State) (g : Nat) : Nat := if s.gMiller g then s.gPos g else (s.group g).miller

/-- Is this device first after the Miller on the ring (R356)? -/
def State.ringFirst (s : State) (g : Nat) : Bool := (s.millerPos g + 1) % s.gMembers g == s.gPos g

/-- Is the next position the Miller? -/
def State.ringLast (s : State) (g : Nat) : Bool := (s.gPos g + 1) % s.gMembers g == s.millerPos g

/-- RS_STATUS.PHASE (R366). -/
def State.setPhase (s : State) (g p : Nat) : State := s.fput (rRsStatus g) fRsStatusPhase p

/-! ### The Quern's reset (R310) -/

/-- Every station of the group discards its records, retained records, open buckets and squares; the step's Quern state starts again. -/
def State.quernReset (s : State) (g : Nat) : State :=
  let s1 := (List.range 24).foldl (fun s n =>
    if s.flag (rQst n) fQstV && s.fget (rQst n) fQstGroup == g then
      s.modLink n fun l => { l with combine := [], wireQ := l.wireQ.filter fun w => w.group != g, gathSent := l.gathSent.filter fun e => e.1 != g } else s) s
  s1.modGroup g fun x =>
    { x with
      buckets := [], entries := [], retained := [], normIn := none, normSent := false, verdict := false, status := 0, gval := 0,
      nonfinite := 0xFFFFFF, retries := 0, gatherNext := 0, stepDone := false,
      ready := false, voteIn := none, voted := false, readyAt := none }

/-! ### Link buffers of a context -/

/-- Is a control message for the context of group number `gk` (R357)? -/
def ctlFor (gk : Nat) : CtlMsg → Bool
  | .semAdd _ _ g _ _ => g.toNat == gk
  | .semWatch _ _ g _ _ _ _ _ => g.toNat == gk
  | _ => false

/-- Egress and ingress buffers of the context's flows emptied, ingress beats discarded from now on, control messages dropped (R357). -/
def State.haltLink (s : State) (k n : Nat) : State :=
  let fl := s.flowsOf n k
  let gk := s.fget (rKflCtxGroup k) fKflCtxGroupGroup
  let s0 := if (s.link n).heldAt.all fun e => fl.contains e.1 then s.holdEnd n else s
  s0.modLink n fun l =>
    let gone := l.ingress.filter fun e => fl.contains e.1
    { l with
      egress := l.egress.filter fun e => !fl.contains e.1
      reserved := l.reserved.filter fun e => !fl.contains e.1
      ingress := l.ingress.filter fun e => !fl.contains e.1
      heldAt := l.heldAt.filter fun e => !fl.contains e.1
      recAt := l.recAt.filter fun e => !fl.contains e.1
      toReturn := l.toReturn + gone.length
      discard := l.discard ++ fl.filter fun f => !l.discard.contains f
      ctlIn := l.ctlIn.filter fun m => !ctlFor gk m && match m with
        | .watchFire _ _ rl rt _ => !(rl.toNat == n && l.tags.any fun t => t.tag == rt.toNat && t.ctx.val == k)
        | _ => true
      ctlOut := l.ctlOut.filter fun m => !ctlFor gk m }

/-! ### Areas of a checkpoint (R360) -/

/-- Bytes of state that the member at a position owns: its slots of the plan (R360). -/
def State.stateBytes (s : State) (g pos : Nat) : Nat :=
  (if pos = s.gPos g then s.fget (rRsSlots g) fRsSlotsSlotsUsed else (s.ownList g pos).length)
    * (s.fget (rRsState g) fRsStateSlotKib * 1024)

/-- Owner's slot address in bank `b` (R355). -/
def State.slotAddr (s : State) (g b i : Nat) : Nat :=
  s.fget (rRsState g) fRsStateVa * 4096 + b * (s.fget (rRsSlots g) fRsSlotsBankGib * 2 ^ 30) + i * (s.fget (rRsState g) fRsStateSlotKib * 1024)

/-- Address of a generation area (R360): 0 self 0, 1 self 1, 2 buddy 0, 3 buddy 1. -/
def State.areaAddr (s : State) (g i : Nat) : Nat :=
  s.fget (rRsCkpt g) fRsCkptVa * 4096 + i * (s.fget (rRsCkpt g) fRsCkptGenGib * 2 ^ 30)

/-- Write bytes at a virtual address of the group's context; a page that is missing stops it (R210): the state after it, and whether they are written. -/
def State.gPut (s : State) (g va : Nat) (b : Bytes) : State × Bool :=
  let k := s.gCtx g
  match s.vWrite 0 k.val va b with
  | .error e => (s.unitPageFault 0 k 0x11 0 e.1 accWrite e.2, false)
  | .ok t => (t, true)

/-- The same where the rules do not depend on its success. -/
def State.gWrite (s : State) (g va : Nat) (b : Bytes) : State := (s.gPut g va b).1

/-- Copy bytes between virtual areas of the group's context; a page that is missing stops it (R210), and so does a poisoned line (R199). -/
def State.gCopy (s : State) (g src dst n : Nat) : State × Bool :=
  let k := s.gCtx g
  match s.vRead 0 k.val src n with
  | .error e => (s.unitPageFault 0 k 0x11 0 e.1 accRead e.2, false)
  | .ok none => (s.faultCtx k (evr 0x3004 0x11 0), false)
  | .ok (some b) => s.gPut g dst b
def State.vCopy (s : State) (g src dst n : Nat) : State := (s.gCopy g src dst n).1

/-- Write the header of an area. -/
def State.areaHeader (s : State) (g area step bytes pos : Nat) (valid : Bool) : State :=
  s.gWrite g (s.areaAddr g area) (slice (Config.areaHeader step bytes g pos (s.gEpoch g) valid) 0 4096)

/-- The step that GT_STEP has just left: the one a still saves. -/
def State.lastStep (s : State) (g : Nat) : Nat := (s.gStep g + 2 ^ 32 - 1) % 2 ^ 32

/-- Position of the member whose buddy this one is. -/
def State.predPos (s : State) (g : Nat) : Nat := (s.gPos g + s.gMembers g - 1) % s.gMembers g

/-- Flow number under which a link's egress holds buddy copies while a still runs. -/
def stillFlow : Nat := 64

/-- The links carry no buddy copies any longer (R360): what has not been sent is given up. -/
def State.stillQuiet (s : State) : State :=
  (List.range 24).foldl (fun s n => if (s.link n).still then s.modLink n fun l =>
    { l with still := false, egress := l.egress.filter fun e => e.1 != stillFlow } else s) s

/-- A still that fails (R362): the areas it was writing have VALID = 0. -/
def State.stillDrop (s : State) (g : Nat) : State :=
  match (s.group g).still with
  | none => s.modGroup g fun x => { x with early := [], earlyBad := false }
  | some st =>
    let s1 := s.areaHeader g st.gen (s.lastStep g) st.bytes (s.gPos g) false
    let s2 := if s.gMembers g = 1 then s1 else s1.areaHeader g (2 + st.gen) (s.lastStep g) (s.stateBytes g (s.predPos g)) (s.predPos g) false
    (s2.modGroup g fun x => { x with still := none, early := [], earlyBad := false }).stillQuiet

/-! ### Halt (R357) -/

/-- The Cellar of a core emptied (R254). -/
def State.cellarEmpty (s : State) (c : CoreId) : State :=
  (((s.setReg (rCelTop c) (Fd.put fCelTopTop 0 (s.fget (rCelBase c) fCelBaseBase * 32))).fput (rCelStatus c) fCelStatusFrames 0).fput
    (rCelStatus c) fCelStatusDir 0).celPeak c

/-- The stream engine's entries cleared (R357). -/
def State.clearEntries (s : State) (c : CoreId) : State :=
  let lo := rStrmEntry c 0
  (s.resetRegs fun a => !(decide (lo ≤ a) && decide (a < lo + 0x400))).fput (rStrmStatus c) fStrmStatusDescLive 0
    |>.fput (rStrmStatus c) fStrmStatusReqUsed 0

/-- A core under a group halt: asked to stop, or, when it has stopped already, stripped of all that it kept. -/
def State.haltCore (s : State) (c : CoreId) : State :=
  let s1 := (((s.descsGone c fun _ => true).clearEntries c).cellarEmpty c).modCore c fun x => { x with descs := [], prefetch := [] }
  let s1 := s1.modCore c fun x => { x with tlb := [] }
  if s.run c then s1.modCore c fun x => { x with stopCause := some .group }
  else (s1.fput (rCoreStatus c) fCoreStatusPend 0).modCore c CoreS.clearOps

/-- Halt the context of a group for step `step` (R357). -/
def State.haltGroup (s : State) (g step : Nat) : State :=
  let k := s.gCtx g
  let s := s.stillDrop g
  let s1 := (s.activeCores k.val).foldl (fun s c => s.haltCore c) (s.modCtx k.val fun x => { x with groupHalt := true, boundary := false, joined := false, staging := [] })
  let s2 : State := { s1 with bell := s1.bell.filter fun m => !(bitsN m.hdr.toNat 27 25 == k.val && decide (1 ≤ bellType m) && decide (bellType m ≤ 6)) }
  let s3 := (List.range 24).foldl (fun s n => s.haltLink k.val n) ((s2.dropEntries k.val).dropTags k.val)
  let s3 := (s3.onImages k.val fun c s => s.haltCore c).runGoes g false
  let s4 := if s3.pondGroup = some g then s3.pondRollback else s3
  (s4.setReg (rGtPlan g) (Fd.put fGtPlanPlan 0 (s4.fget (rRsPlan g (step % 2)) fRsPlanVa))).modGroup g fun x =>
    { x with phaseIn := [], phaseOwn := [], phaseSent := [], guard := false, committed := false, halted := false }

/-! ### Snapshots (R355) -/

/-- Is the address a register of core `c` that the step-start snapshot keeps (R355)? -/
def snapAddr (c : CoreId) (a : Nat) : Bool :=
  let o := a - coreBase c
  decide (coreBase c ≤ a) &&
    (o == 0x200020 || (decide (0x201000 ≤ o) && decide (o < 0x202800)) || (decide (0x203000 ≤ o) && decide (o < 0x203200))
      || (decide (0x204000 ≤ o) && decide (o < 0x204188)) || (decide (0x205000 ≤ o) && decide (o < 0x205028))
      || (decide (0x211000 ≤ o) && decide (o < 0x211028)) || (decide (0x220000 ≤ o) && decide (o < 0x221000)))

/-- Take the step-start snapshot of the group's context: its cores, and the images of those it is absent from (log entry 157, DEDUCED). The spec gives the
working data of R213 no layout: the snapshot stands in GroupS, and 0xEE04000000 to 0xEE07FFFFFF read as nothing had written them (log entry 177, DESIGN CHOICE). -/
def State.takeSnap (s : State) (g : Nat) : State :=
  let k := (s.gCtx g).val
  let cores := s.activeCores k
  let regs := (s.regs.filter fun e => cores.any fun c => snapAddr c e.1) ++ (s.ctx k).saved.flatMap fun i => i.regs.filter fun e => snapAddr i.core e.1
  let sems := (s.ownedSems k).map fun p => (p, s.reg (rSem p))
  s.modGroup g fun x => { x with snapshot := some ⟨regs, sems⟩ }

/-- A core's sync state that no snapshot keeps: no GWAIT outstanding and no watch registered (R357) (log entry 76, DEDUCED). -/
def State.clearSync (s : State) (c : CoreId) : State :=
  ((s.fput (rSyncStatus c) fSyncStatusGwaitPend 0).fput (rSyncStatus c) fSyncStatusWatches 0).modCore c fun x => { x with gwait := none }

/-- A core as the step-start snapshot keeps it. -/
def State.restoreCore (s : State) (sn : SnapS) (c : CoreId) : State :=
  let s1 := (sn.regs.filter fun e => snapAddr c e.1).foldl (fun s e => s.setReg e.1 e.2) (s.resetRegs fun a => !snapAddr c a)
  (s1.clearSync c).modCore c fun x => { x with fetchIdx := s1.fget (rPc c) fPcBundle }

/-- Restore the step-start snapshot into every core, present or saved, and every owned semaphore (R357). -/
def State.restoreSnap (s : State) (g : Nat) : State :=
  let k := (s.gCtx g).val
  match (s.group g).snapshot with
  | none => s
  | some sn =>
    let s1 := ((s.activeCores k).foldl (fun s c => s.restoreCore sn c) s).onImages k fun c s => s.restoreCore sn c
    (sn.sems.foldl (fun s e => s.fput (rSem e.1) fSemValue (fSemValue.get e.2)) s1).emptySettle

/-! ### Recovery state (R363) -/

/-- The recovery state of a core: its recovery entry, S, V and counters zero, TILE_CFG at reset, loops and bindings closed. -/
def State.recoverCore (s : State) (i : ImgCore) : State :=
  let c := i.pos
  (((s.resetRegs fun a => !(snapAddr c a && !(decide (rCelBase c ≤ a) && decide (a < rCelBase c + 0x28)))).setReg (rPc c) (i.recovery.setWidth 64)).cellarEmpty c).clearSync c
    |>.modCore c fun x => { x with fetchIdx := i.recovery.toNat }

/-- The recovery record (R363) (log entry 90, DEDUCED). -/
def recoveryRec (step epoch oldN x pos mb own : Nat) : Bytes :=
  natBytes 4 step ++ natBytes 2 epoch ++ zeros 2 ++ natBytes 3 oldN ++ natBytes 3 (oldN - 1) ++ natBytes 3 x ++ natBytes 3 pos
    ++ natBytes 2 mb ++ zeros 2 ++ natBytes 4 own ++ zeros 100

/-- Micro-batches of a member after a recovery (R363). -/
def recoveryMb (oldN m pos : Nat) : Nat := oldN * m / (oldN - 1) + bton (decide (pos < oldN * m % (oldN - 1)))

/-- Chunks of 16 KiB as KIND 3 records with an area and a distance (R360, R363). -/
def ckptRecs (g epoch area dist : Nat) (base : Nat) (data : Bytes) : Nat → Nat → List (QHdr × Bytes)
  | 0, _ => []
  | fuel + 1, i =>
    if data.length ≤ 16384 * i then [] else
    let part := slice data (16384 * i) (min 16384 (data.length - 16384 * i))
    let mid := natBytes 8 (base + 16384 * i) ++ natBytes 3 dist ++ natBytes 1 area ++ natBytes 4 (crc32c part).toNat
    (⟨0, 0, 3, 0, (part.length + 127) / 128, 0, g, epoch, 0, mid⟩, part) :: ckptRecs g epoch area dist base data fuel (i + 1)

/-- Send the slots of the lost member's area to their new owners (R363): the stations of every valid ring, fewer hops first. -/
def State.spillSend (s : State) (g newN c : Nat) (tags : List Nat) : State :=
  let gen := s.fget (rRsStatus g) fRsStatusGen
  let kib := s.fget (rRsState g) fRsStateSlotKib * 1024
  let rings := (List.range 12).filter fun r => s.flag (rGtRing g r) fGtRingV && decide (r < s.fget (rGtCfg g) fGtCfgRings)
  let gained (dst : Nat) : Nat := ((List.range tags.length).filter fun i => i % newN == dst).length
  let base (dst : Nat) : Nat := (s.ownList g dst).length - gained dst
  (List.range tags.length).foldl (fun s i =>
    let dst := i % newN
    if dst = s.gPos g then s
    else
      let fwd := ringDist newN (s.gPos g) dst false
      let bwd := ringDist newN (s.gPos g) dst true
      let dir := decide (bwd < fwd)
      let r := rings.getD (i % max 1 rings.length) 0
      match s.vRead 0 (s.gCtx g).val (s.areaAddr g (2 + gen) + 4096 + i * kib) kib, s.station g r dir with
      | .ok (some b), some n =>
        (ckptRecs g (s.gEpoch g) (2 + c % 2) (min fwd bwd) ((base dst + i / newN) * kib) b (kib / 16384 + 1) 0).foldl
          (fun s rec_ => s.wireSend n rec_.1 rec_.2) s
      | .ok none, _ => s.faultCtx (s.gCtx g) (evr 0x3004 0x11 0)
      | .error e, _ => s.unitPageFault 0 (s.gCtx g) 0x11 0 e.1 accRead e.2
      | _, none => s) s

/-- Restore the recovery state on this device (R363, step 3). -/
def State.restoreRecovery (s : State) (g : Nat) (r : RecoverS) : State :=
  let k := (s.gCtx g).val
  let c := r.ckpt
  let newN := s.gMembers g
  let kib := s.fget (rRsState g) fRsStateSlotKib * 1024
  let used := r.used
  let tags := r.tags
  let mine := (List.range tags.length).filter fun i => i % newN == s.gPos g
  let gen := s.fget (rRsStatus g) fRsStatusGen
  let s1 := s.vCopy g (s.areaAddr g gen + 4096) (s.slotAddr g (c % 2) 0) (used * kib)
  -- The member whose predecessor was X holds X's buddy area.
  let s2 := if r.holder then
      let s2 := s1.spillSend g newN c tags
      mine.foldl (fun s i => s.vCopy g (s.areaAddr g (2 + gen) + 4096 + i * kib) (s.slotAddr g (c % 2) (used + i / newN)) kib) s2
    else s1
  let gained := mine.map fun i => tags.getD i 0
  let s3 := s2.gWrite g (s.fget (rRsRec g) fRsRecVa * 128 + 128 + 2 * used) (gained.flatMap fun t => natBytes 2 t)
  let s4 := s3.fput (rRsSlots g) fRsSlotsSlotsUsed (used + gained.length)
  let mb := recoveryMb r.oldN (s.group g).micro (s.gPos g)
  let s5 := s4.gWrite g (s.fget (rRsRec g) fRsRecVa * 128)
    (recoveryRec (c + 1) (s.gEpoch g) r.oldN r.lost (s.gPos g) mb (used + gained.length))
  let cores := match (s.ctx k).img with
    | some i => i.cores
    | none => []
  let s6 := ((cores.filter fun i => (s.activeCores k).contains i.pos).foldl (fun s i => s.recoverCore i) s5).onImages k fun c s =>
    match cores.find? fun i => i.pos == c with
    | some i => s.recoverCore i
    | none => s
  ((s.ownedSems k).foldl (fun s p => s.fput (rSem p) fSemValue 0) s6).emptySettle

/-! ### Restart -/

/-- The cores of a halted context issue again (R357, step 3; R363, step 4); one with HALT = 1 issues once that is 0 (R67). -/
def State.restartGroup (s : State) (g : Nat) : State :=
  let k := (s.gCtx g).val
  let s1 := (s.activeCores k).foldl (fun s c =>
    let on := bton (!s.flag (rCoreCtl c) fCoreCtlHalt)
    ((((s.settle c).fput (rCoreStatus c) fCoreStatusRun on).fput (rCoreStatus c) fCoreStatusStopped (1 - on)).fput (rCoreStatus c) fCoreStatusFaulted 0
      |>.fput (rCoreStatus c) fCoreStatusFault 0).modCore c fun x =>
        { x.clearOps with stopCause := none, fetchIdx := s.fget (rPc c) fPcBundle }) s
  let s2 := (s1.unorphanCtx k).modCtx k fun x => { x with groupHalt := false, stopped := none, cause := 0, boundary := false, joined := false, stopDone := [] }
  let s3 := (s2.setPhase g 0).modGroup g fun x =>
    { x with phaseIn := [], phaseOwn := [], phaseSent := [], guard := false, halted := false, committed := false }
  let s4 := if s3.gMiller g && (s.group g).recover.isSome then
      (s3.emit ((evr 0xA008 0x11 0).ofCtx (s.gCtx g) false)).modGroup g fun x => { x with ckptForced := true }
    else s3
  let s5 := s4.modGroup g fun x => { x with recover := none, recovered := x.recovered || x.recover.isSome }
  (((s5.runGoes g true).startClocks).startRound g).quernStart g

/-- TRICKLE_BUSY: an area is being sent, and EN lets it (R361, R366). -/
def State.trickleBusy (s : State) (g : Nat) : State :=
  s.fput (rRsStatus g) fRsStatusTrickleBusy (bton ((s.group g).trickle.isSome && s.flag (rRsTrickle g) fRsTrickleEn))

/-- The next area that waits is sent to the host (R361). -/
def State.trickleNext (s : State) (g : Nat) : State :=
  (s.modGroup g fun x => match x.trickle, x.trickleQ with
    | none, t :: ts => { x with trickle := some t, trickleQ := ts }
    | _, _ => x).trickleBusy g

/-- The checkpoint of a still is the newest VALID one (R360, R366); its self area waits to be sent to the host, as soon as EN lets it (R361). -/
def State.ckptTaken (s : State) (g : Nat) (st : StillS) : State :=
  ((s.fput (rRsStatus g) fRsStatusLastCkpt (s.lastStep g)).fput (rRsStatus g) fRsStatusGen st.gen).modGroup g fun x =>
    { x with ckpts := x.ckpts + 1, lastCkpt := some (s.lastStep g), sinceCkpt := 0, ckptForced := false, recovered := false
             trickleQ := x.trickleQ ++ [⟨st.gen, s.lastStep g, 4096, 4096 + st.bytes, false⟩]
             trickleDone := x.trickleDone.filter fun a => a != st.gen }

/-- The cores go on after a still, whether its checkpoint stands or not. -/
def State.stillLeave (s : State) (g : Nat) : State :=
  let s1 := ((s.setPhase g 0).modGroup g fun x => { x with still := none, committed := true, phaseIn := [], phaseOwn := [], phaseSent := [] }).stillQuiet
  (((s1.trickleNext g).startRound g).quernStart g).tryRelease (s.gCtx g).val

/-- The cores of the context are released from the still (R360). -/
def State.stillRelease (s : State) (g : Nat) : State :=
  match (s.group g).still with
  | none => s
  | some st => ((s.fput (rRsStillUs g) fRsStillUsStill ((s.now - st.atTime) / unitsUs)).ckptTaken g st).stillLeave g

/-- The checkpoint is abandoned (R362): its areas are not VALID, the cores are released, and the next commit takes one. A member that has not adopted the
COMMIT yet does so when it has (log entry 205, DEDUCED). -/
def State.stillAbandon (s : State) (g : Nat) : State :=
  match (s.group g).still with
  | none => if (s.group g).voted && !s.gMiller g then s.modGroup g fun x => { x with earlyBad := true } else s
  | some _ => ((s.stillDrop g).modGroup g fun x => { x with ckptForced := true }).stillLeave g

/-! ### Phases (R357) -/

/-- The Miller concludes a phase: it waits the guard time, restarts the group, or ends the still. -/
def State.phaseConclude (s : State) (g p : Nat) : State :=
  let s1 := s.modGroup g fun x => { x with phaseSent := x.phaseSent ++ [p] }
  let go (s : State) : State := if 1 < s.gMembers g then s.gSend g 0 13 (s.newMsg g 2 false (s.gStep g)) else s
  match p with
  | 0 => s1.modGroup g fun x => { x with guard := true }
  | 1 => (go s1).restartGroup g
  | _ => (go (s1.emit ((evr 0xA002 0x11 0).ofCtx (s.gCtx g) false))).stillRelease g

/-- A phase of this member moves on once it has reached it and its predecessor's report is here (R357). -/
def State.phaseTry (s : State) (g p : Nat) : State :=
  let x := s.group g
  if !x.phaseOwn.contains p || x.phaseSent.contains p || x.unrecoverable then s
  else if s.gMiller g then (if s.gMembers g = 1 ∨ x.phaseIn.contains p then s.phaseConclude g p else s)
  else if s.ringFirst g || x.phaseIn.contains p then
    (s.modGroup g fun x => { x with phaseSent := x.phaseSent ++ [p] }).gSend g 0 12 (s.newMsg g p false (s.gStep g))
  else s

/-- This member has reached a phase. -/
def State.phaseReach (s : State) (g p : Nat) : State :=
  if (s.group g).phaseOwn.contains p then s
  else ((s.modGroup g fun x => { x with phaseOwn := x.phaseOwn ++ [p] }).setPhase g (if p = 0 then 3 else if p = 1 then 4 else 2)).phaseTry g p

/-- Once every core of a halted context has stopped, phase 0 is reached (R357). -/
def State.haltCheck (s : State) (k : Nat) : State :=
  if (s.ctx k).groupHalt && s.allStopped k then
    (s.ctxGroups k).foldl (fun s g => (s.modGroup g fun x => { x with halted := true }).phaseReach g 0) s
  else s

/-- Is the context halted and not yet cleared, so that control messages for it are discarded (R357, R364)? -/
def State.clearing (s : State) (k : Nat) : Bool := (s.ctx k).groupHalt && !(s.ctxGroups k).any fun g => (s.group g).phaseOwn.contains 1

/-- Restore the step-start or recovery state, take beats again, and report phase 1 (R357, R363). -/
def State.clearGroup (s : State) (g : Nat) : State :=
  let s1 := match (s.group g).recover with
    | some r => s.restoreRecovery g r
    | none => s.restoreSnap g
  (s1.clearDiscard (s.gCtx g).val).phaseReach g 1

/-- A new Millpond seed after the loss of a member (R363): the pool is rebuilt, and DRAW begins again (R364) (log entry 206, DEDUCED). -/
def State.reseed (s : State) (g : Nat) (seed : Word) : State :=
  let s1 := s.setReg rMpSeed seed
  if (s.group g).recover.isNone then s1
  else if s.flag rMpCfg fMpCfgEn then s1.pondEnable.pfcCheck else s1.pondEmpty.pfcCheck

/-- The guard time has passed at the Miller (R357, R363): SEED in a recovery, then PHASE_GO(1). -/
def State.guardEnd (s : State) (g : Nat) : State :=
  let n := s.gMembers g
  let s1 := s.modGroup g fun x => { x with guard := false }
  let s2 := match (s.group g).recover with
    | some _ =>
      let w := philox (s.reg rMpSeed) (s.gEpoch g) 0 0 3
      let seed := BitVec.ofNat 64 (w.1 + w.2.1 * 2 ^ 32)
      let t := if s.pondGroup = some g then s1.reseed g seed else s1
      if 1 < n then t.gSend g 0 15 (s.newMsg g 0 false seed.toNat) else t
    | none => s1
  (if 1 < n then s2.gSend g 0 13 (s2.newMsg g 1 false (s2.gStep g)) else s2).clearGroup g

/-! ### Rollback, loss and faults (R357, R358, R363) -/

/-- The STEP_ROLLBACK record: group and epoch, step, cause and origin, kind, rollbacks of this step (log entry 86, DEDUCED). -/
def State.rollbackRec (s : State) (g epoch step cause origin kind count : Nat) : EvRec :=
  (evr 0xA001 0x11 0 (g * 2 ^ 32 + epoch) step (cause * 2 ^ 32 + origin) kind count).ofCtx (s.gCtx g) false

/-- The LINK_DOWN reports that a member holds; a commit or a rollback leaves them, for the link is still down (R363). -/
def GroupS.downs (x : GroupS) : List (Nat × Nat × Nat × Nat) := x.faults.filter fun f => f.1 == 0x5001

/-- What adopting COMMIT(s) does before the snapshot and with it (R356): STEP and plan, the Millpond, the Quern's new step, the snapshot. -/
def State.stepOn (s : State) (g : Nat) : State :=
  let s1 := s.fput (rGtStep g) fGtStepStep (s.gStep g + 1)
  let s2 := s1.setReg (rGtPlan g) (Fd.put fGtPlanPlan 0 (s1.fget (rRsPlan g ((s.gStep g + 1) % 2)) fRsPlanVa))
  let s3 := if s2.pondGroup = some g then s2.pondCommit.pfcCheck else s2
  let s4 := (s3.quernReset g).modGroup g fun y =>
    { y with rollbacks := 0, causer := none, faults := y.downs, sinceCkpt := y.sinceCkpt + 1, ckptReq := false }
  s4.takeSnap g

/-- The time since the last commit, and the run time so far, are noted at a commit (R359) (log entry 92, DEDUCED). -/
def State.commitClock (s : State) (g : Nat) : State :=
  (s.modGroup g fun y =>
    { y with commitTimes := (match y.commitAt with
               | some t => (s.now - t) :: y.commitTimes
               | none => y.commitTimes).take 15
             commitAt := some s.now }).runGoes g true

/-- A ROLLBACK or REBUILD waits for step 6 of the dump being taken (R444). -/
def State.rollWait (s : State) (r : GroupRoll) : State :=
  { s with dump := s.dump.map fun d => { d with rolls := d.rolls ++ [r] } }

/-- Does an adoption of the group wait for the end of a dump? -/
def State.rollWaits (s : State) (g : Nat) : Bool := match s.dump with
  | none => false
  | some d => d.rolls.any fun
    | .rollback k .. => k == g
    | .rebuild k .. => k == g

/-- Adopt a rollback (R357): record, halt, new epoch, Quern reset. One of the step after the member's own says that the COMMIT it waits for has been made:
that step stands (R358) (log entry 207, DEDUCED). -/
def State.rollbackNow (s : State) (g epoch step cause kind : Nat) : State :=
  let s := if (s.group g).ready && decide (step = (s.gStep g + 1) % 2 ^ 32) then (s.commitClock g).stepOn g else s
  let x := s.group g
  let known := x.faults.find? fun f => f.1 == cause
  let (origin, s0) : Nat × State := match known with
    | some f => (f.2.1, s)
    | none => if s.gMiller g then (s.gPos g, s) else ((s.fresh.1.toNat % 2 ^ 24), s.fresh.2)
  let s1 := s0.modGroup g fun y => { y with rollbacks := y.rollbacks + 1, kind := kind, faults := y.downs }
  let s2 := s1.emit (s1.rollbackRec g epoch step cause origin kind (x.rollbacks + 1))
  let s3 := (s2.fput (rRsCnt g) fRsCntRollbacks (s2.fget (rRsCnt g) fRsCntRollbacks + 1)).haltGroup g step
  ((s3.fput (rGtStep g) fGtStepEpoch epoch).quernReset g).haltCheck (s.gCtx g).val

/-- A rollback is adopted, after the dump that is being taken (R444). -/
def State.adoptRollback (s : State) (g epoch step cause kind : Nat) : State :=
  if s.dump.isSome then s.rollWait (.rollback g epoch step cause kind) else s.rollbackNow g epoch step cause kind

/-- The Miller starts a rollback (R357): ROLLBACK both ways under the old epoch, then its own adoption; none while one waits for a dump. -/
def State.millerRollback (s : State) (g cause kind : Nat) : State :=
  if s.rollWaits g then s else
  let epoch := (s.gEpoch g + 1) % 2 ^ 16
  let step := s.gStep g
  let s1 := if 1 < s.gMembers g then s.gSendBoth g 10 epoch (step + cause * 2 ^ 32 + kind * 2 ^ 48) else s
  s1.adoptRollback g epoch step cause kind

/-- Stop the group's context as unrecoverable on this device (R358, R365). -/
def State.groupStopHere (s : State) (g code p1 p2 p3 : Nat) : State :=
  (s.emitTrig fDumpCfgOnGroup ((evr 0xA005 0x11 0 p1 p2 p3).ofCtx (s.gCtx g) true)).stopCtx (s.gCtx g).val code
    |>.modGroup g fun x => { x with unrecoverable := true }

/-- A member stops the group's context on every member (R358, R365). A FAULT of code GROUP_UNRECOVERABLE tells the others: the member to blame as the
reporting position, the cause as what it names (log entry 88, DEDUCED; log entry 95, DEDUCED). -/
def State.groupStop (s : State) (g p2 p3 : Nat) : State :=
  let s1 := if 1 < s.gMembers g then s.gSendBoth g 11 p2 (0xA005 + p3 * 2 ^ 16) else s
  s1.groupStopHere g 0xA005 g p2 p3

/-- Rewrite plan `b` for the loss of position `x` (R363). -/
def State.rewritePlan (s : State) (g b x newN : Nat) (tags : List Nat) : State :=
  let va := s.fget (rRsPlan g b) fRsPlanVa * 64
  (List.range (s.fget (rGtPlancnt g) fGtPlancntBuckets)).foldl (fun s t =>
    match s.vRead 0 (s.gCtx g).val (va + 64 * t + 4) 3 with
    | .error e => s.unitPageFault 0 (s.gCtx g) 0x11 0 e.1 accRead e.2
    | .ok none => s.faultCtx (s.gCtx g) (evr 0x3004 0x11 0 t)
    | .ok (some o) =>
      let own := leNat o
      let new := match tags.idxOf? t with
        | some i => i % newN
        | none => if x < own then own - 1 else own
      if new = own then s else s.gWrite g (va + 64 * t + 4) (natBytes 3 new)) s

/-- The recovery-map entry of position `x` (R363): missing where RS_MAP names no map or the entry cannot be read (R365) (log entry 93, DEDUCED). -/
def State.mapEntry (s : State) (g x : Nat) : Option Bytes :=
  if s.fget (rRsMap g) fRsMapVa = 0 then none
  else match s.vRead 0 (s.gCtx g).val (s.fget (rRsMap g) fRsMapVa * 256 + 256 * x) 256 with
    | .ok b => b
    | .error _ => none

/-- Apply the recovery-map entry of position `x` (R363): ring replacements and forwarding masks. Without it the group cannot go on (R365). -/
def State.applyMap (s : State) (g x : Nat) : State :=
  match s.mapEntry g x with
  | none => s.groupStop g x 4
  | some b =>
    let s1 := (List.range 12).foldl (fun s r =>
      if bitN (leAt b 0 2) r then
        match regDesc (rGtRing g r) with
        | some d => s.setReg (rGtRing g r) (d.write 0 0 (2 ^ 64 - 1) (leAt b (8 + 8 * r) 8) (s.reg (rGtRing g r)))
        | none => s
      else s) s
    (List.range (min 4 (leAt b 2 1))).foldl (fun s i =>
      let w := leAt b (104 + 8 * i) 8
      s.fput (rLinkFlowFwd (bitsN w 33 29) (bitsN w 39 34)) fLinkFlowFwdFwd (bitsN w 63 40)) s1

/-- Is a checkpoint whose still runs here VALID on every survivor as a recovery begins, so that the group goes back to it (R363)? Not while an area of this
member's own is not; nor at the Miller, which would have ended the still. No message says it to another member: a free value (log entry 208, DESIGN CHOICE). -/
def State.stillStands (s : State) (g : Nat) : Bool × State :=
  match (s.group g).still with
  | some st =>
    if st.selfDone && (st.buddyDone || s.gMembers g == 1) && !s.gMiller g then (s.fresh.1.getLsbD 0, s.fresh.2) else (false, s)
  | none => (false, s)

/-- The checkpoint that a recovery goes back to is settled: a still under way counts if its areas are VALID everywhere, and is given up if not. -/
def State.ckptSettle (s : State) (g : Nat) : State :=
  let (whole, s1) := s.stillStands g
  match (s.group g).still with
  | some st => if whole then ((s1.ckptTaken g st).modGroup g fun x => { x with still := none }).stillQuiet else s1.stillDrop g
  | none => s1

/-- Positions after the loss of `x`. -/
def newPos (x p : Nat) : Nat := if x < p then p - 1 else p

/-- Reports held over the loss of `x`: those of links between survivors, in the new numbering. -/
def downsAfter (x : Nat) (l : List (Nat × Nat × Nat × Nat)) : List (Nat × Nat × Nat × Nat) :=
  (l.filter fun f => f.2.1 != x && f.2.2.1 != x).map fun f => (f.1, newPos x f.2.1, newPos x f.2.2.1, f.2.2.2)

/-- The group table entries as the group snapshot holds them: those it does not list were as after reset (R360, R363). -/
def State.groupBack (s : State) (g : Nat) : State :=
  match (s.group g).groupSnap with
  | some sn =>
    (sn.regs.foldl (fun s e => s.setReg e.1 e.2) (s.resetRegs fun a => !(decide (rGtCfg g ≤ a) && decide (a < rGtCfg g + 0x100)))).modGroup g fun y =>
      { y with members := sn.members }
  | none => s

/-- The member that a REBUILD excludes (R363): MEMBER_LOST naming itself, its Millpond slots freed, its context stopped, out of the group. -/
def State.excluded (s : State) (g : Nat) : State :=
  let k := s.gCtx g
  let s1 := s.emit ((evr 0xA004 0x11 0 g (s.gPos g)).ofCtx k true)
  let s2 := if s1.pondGroup = some g then s1.pondLeave.pfcCheck else s1
  ((s2.stopCtx k.val 0xA004).fput (rGtCfg g) fGtCfgValid 0).fput (rGtCfg g) fGtCfgMiller 0

/-- Adopt a REBUILD (R363, step 1): an excluded member leaves the group and frees its Millpond slots, a survivor halts, restores and remaps its tables. The
device that sends it is the Miller from then on; one that receives it is not (R364), but for the successor of a Miller that excludes itself, which
takes the role (log entry 209, DEDUCED). -/
def State.rebuildNow (s : State) (g epoch x newN : Nat) (own : Bool) : State :=
  let k := s.gCtx g
  if x = s.gPos g then s.excluded g
  else
    let oldN := s.gMembers g
    let heir := !own && !s.gMiller g && decide (x = s.millerPos g) && decide ((x + 1) % oldN = s.gPos g)
    let s := if heir then s.emit ((evr 0xA007 0x11 0).ofCtx k false) else s
    let own := own || heir
    let s := s.ckptSettle g
    let c := s.fget (rRsStatus g) fRsStatusLastCkpt
    let old := s.group g
    let tags := s.ownList g x
    let holder := (x + 1) % oldN == s.gPos g
    let s1 := s.modGroup g fun y => { y with rollbacks := y.rollbacks + 1, kind := 1, faults := downsAfter x y.downs }
    let s2 := s1.emit (s1.rollbackRec g epoch (c + 1) 0xA004 x 1 (old.rollbacks + 1))
    let s3 := (s2.fput (rRsCnt g) fRsCntRollbacks (s2.fget (rRsCnt g) fRsCntRollbacks + 1)).fput (rRsCnt g) fRsCntLosses
      (s2.fget (rRsCnt g) fRsCntLosses + 1)
    let s6 := ((s3.haltGroup g (c + 1)).groupBack g).applyMap g x
    let miller := s.millerPos g
    let newMiller := if own then s.gPos g else if x = miller ∨ s.gMiller g then (x + 1) % oldN else miller
    let s7 := (s6.fput (rGtCfg g) fGtCfgMembers newN).fput (rGtCfg g) fGtCfgPos (newPos x (s6.gPos g))
    let s8 := s7.fput (rGtCfg g) fGtCfgMiller (bton own)
    let s9 := ((s8.fput (rGtStep g) fGtStepEpoch epoch).fput (rGtStep g) fGtStepStep (c + 1)).modGroup g fun y =>
      { y with miller := newPos x newMiller, members := y.members.eraseIdx x
               lists := (y.lists.eraseIdx x).zipIdx.map fun e => e.1 ++ ((tags.zipIdx.filter fun t => t.2 % newN == e.2).map fun t => t.1)
               recover := some { lost := x, oldN := oldN, ckpt := c, epoch := epoch, used := s.fget (rRsSlots g) fRsSlotsSlotsUsed, holder := holder, tags := tags } }
    let s10 := (s9.rewritePlan g 0 x newN tags).rewritePlan g 1 x newN tags
    let s11 := s10.setReg (rGtPlan g) (Fd.put fGtPlanPlan 0 (s10.fget (rRsPlan g ((c + 1) % 2)) fRsPlanVa))
    (s11.quernReset g).haltCheck k.val

/-- A REBUILD is adopted, after the dump that is being taken (R444). -/
def State.adoptRebuild (s : State) (g epoch x newN : Nat) (own : Bool) : State :=
  if s.dump.isSome then s.rollWait (.rebuild g epoch x newN own) else s.rebuildNow g epoch x newN own

/-- What waited for the end of a dump is adopted. -/
def State.rollsAfter (s : State) (l : List GroupRoll) : State := l.foldl (fun s r => match r with
  | .rollback g epoch step cause kind => s.rollbackNow g epoch step cause kind
  | .rebuild g epoch x newN own => s.rebuildNow g epoch x newN own) s

/-- Does the member hold a LINK_DOWN report from `a` naming `x`? -/
def State.downReport (s : State) (g a x : Nat) : Bool :=
  (s.group g).faults.any fun f => f.1 == 0x5001 && f.2.1 == a && f.2.2.1 == x

/-- Is `x` lost by the evidence of R363: both ring-0 neighbours name it, or the pair of a dead link names each other and it is the higher? -/
def State.lossShown (s : State) (g x : Nat) : Bool :=
  let n := s.gMembers g
  let a := (x + 1) % n
  let b := (x + n - 1) % n
  (s.downReport g a x && s.downReport g b x) ||
    [a, b].any fun y => s.downReport g y x && s.downReport g x y && decide (y < x)

/-- What stops a recovery before it starts (R362, R365): the cause in parameter 3, 0 when it may run (log entry 93, DEDUCED). -/
def State.recoverBar (s : State) (g x : Nat) : Nat :=
  let x0 := s.group g
  let n := s.gMembers g
  let spilled (p : Nat) : Nat := (s.ownList g (if p < x then p else p + 1)).length
    + (((List.range (s.ownList g x).length)).filter fun i => i % (n - 1) == p).length
  if !s.flag (rRsCfg g) fRsCfgRecoverEn then 1
  else if x0.lastCkpt.isNone || !s.flag (rRsCfg g) fRsCfgCkptEn then 2
  else if x0.recovered || x0.recover.isSome || (List.range n).any fun y => y != x && s.downReport g ((y + 1) % n) y && s.downReport g ((y + n - 1) % n) y then 3
  else if (s.mapEntry g x).isNone then 4
  else if (List.range (n - 1)).any fun p => decide (s.fget (rRsSlots g) fRsSlotsSlotsMax < spilled p) then 5
  else 0

/-- The Miller treats position `x` as lost (R358, R363, R365). -/
def State.memberLost (s : State) (g x : Nat) : State :=
  if s.rollWaits g then s else
  let s1 := s.emit ((evr 0xA004 0x11 0 g x).ofCtx (s.gCtx g) false)
  let bar := s.recoverBar g x
  if bar ≠ 0 then s1.groupStop g x bar
  else
    let epoch := (s.gEpoch g + 1) % 2 ^ 16
    let newN := s.gMembers g - 1
    (s1.gSendBoth g 14 epoch (x + newN * 2 ^ 24)).adoptRebuild g epoch x newN true

/-- A member holds a FAULT report; one that says that the link came back ends the report of its loss (R357, R363). -/
def GroupS.hold (x : GroupS) (code from_ named : Nat) (back : Bool) (now : Nat) : GroupS :=
  { x with faults := if back then x.faults.filter fun f => !(f.1 == code && f.2.1 == from_ && f.2.2.1 == named)
                     else x.faults ++ [(code, from_, named, now)] }

/-- The Miller acts on a FAULT report (R357, R358): `code` reported by `from_`, naming `named`; `back` when the link came back. A failed checkpoint is
abandoned on every member, and no step is repeated for it (R362). -/
def State.millerFault (s : State) (g code from_ named : Nat) (back : Bool) : State :=
  let s1 := s.modGroup g fun x => x.hold code from_ named back s.now
  let roll (s : State) (cause : Nat) : State :=
    let n := match (s.group g).causer with
      | some (p, n) => if p = from_ then n + 1 else 1
      | none => 1
    let s2 := s.modGroup g fun x => { x with causer := some (from_, n) }
    if s.fget (rRsCfg g) fRsCfgRollbackMax ≤ n && decide (1 < s.gMembers g) then s2.memberLost g from_
    else s2.millerRollback g cause (bton (s.group g).recover.isSome)
  match code with
  | 0x6004 => s1.groupStop g from_ 0x6004
  | 0x6005 => s1.groupStop g from_ 0x6005
  | 0xA005 => s1.groupStopHere g 0xA005 g from_ named
  | 0xA003 => s.stillAbandon g
  | 0x5001 =>
    if back then (s1.modGroup g fun x => { x with causer := none }).millerRollback g 0x5001 (bton (s.group g).recover.isSome) else s1
  | 0x7007 =>
    let s2 := if 1 < s.gMembers g then s1.gSend g 0 15 (s1.newMsg g 0 false (s1.reg rMpSeed).toNat) else s1
    roll s2 0x7007
  | _ => roll s1 code

/-- A member reports a fault of its group (R309, R357): to itself when it is the Miller, else both ways round ring 0. -/
def State.groupReport (s : State) (g code named : Nat) (back : Bool) : State :=
  if !s.gValid g || (s.group g).unrecoverable then s
  else if s.gMiller g then
    (if code = 0xA003 ∧ 1 < s.gMembers g then s.gSendBoth g 11 (s.gPos g) code else s).millerFault g code (s.gPos g) named back
  else
    (s.modGroup g fun x => x.hold code (s.gPos g) named back s.now).gSendBoth g 11 (s.gPos g)
      (code + named * 2 ^ 16 + bton back * 2 ^ 40)

end Sys2Proof.Machine
end

