-- ==== Sys2Proof/Machine/Quern.lean ====
section
/-! DEFINITION. Sys2Proof/Machine/Quern.lean: the meanings of the Quern's commands: contributions, records, the owner's check, ACK, RETRY, NORM, VERDICT and the gather (R298 to R308). -/

namespace Sys2Proof.Machine

/-- Take a group control message off the receiving link and act on it when its group is valid and its epoch is this
device's; a message of another epoch is stale (R308). A link that is not OPEN, or Nuore-compatible, has discarded it (R284, R289). -/
def State.gRecv (s : State) (n t : Nat) (m : GMsg) (f : State → Nat → State) : State :=
  let s1 := s.modLink n fun l => { l with ctlIn := dropFirst (fun x => x == .group (BitVec.ofNat 4 t) m) l.ctlIn }
  let g := m.group.toNat
  if s.linkState n ≠ lsOpen ∨ (s.link n).mode = true ∨ !s.gValid g then s1
  else if s.gEpoch g ≠ m.epoch.toNat then s1.count (rQeStaleCnt n) 1
  else f s1 g

/-- Credits of a local flow freed: the CNT_POST of R273 for `beats` beats taken by the station. -/
def State.creditPost (s : State) (n f beats : Nat) : State :=
  let a := rLinkFlow n f
  if s.flag a fLinkFlowEgPost && decide (s.fget a fLinkFlowSc < 48) then
    match coreOfPos (s.fget a fLinkFlowPos) with
    | some c => s.bellToCore 6 (s.fget a fLinkFlowCtx) c (s.fget a fLinkFlowSc) [BitVec.ofNat 32 beats]
    | none => s
  else s

/-- Header of a combine record as sent on. -/
def State.recHdr (s : State) (g : Nat) (r : QRec) : QHdr :=
  ⟨r.tag, r.tile, 0, r.attempt, 32, 0, g, s.gEpoch g, r.hops, sumAbs r.sum r.abs⟩

/-- Sum of an upstream and a local record, element by element (R301). -/
def combineRec (a b : QRec) : QRec :=
  { a with
    hops := a.hops + b.hops
    sum := add64 a.sum b.sum
    abs := add64 a.abs b.abs
    data := f32Bytes (List.zipWith add32 (f32s a.data 1024) (f32s b.data 1024)) }

/-- tau of R302, exact (log entry 63, DEDUCED). -/
def tauOf (f n : Nat) (abs : Word) : Fp :=
  fpMul (.fin false f 0)
    (fpAdd (fpMul (f64 abs) (fpAdd (.fin false (n - 1) (-24)) (.fin false (2 * n) (-53)))) (.fin false (1024 * n) (-149)))

/-- The checksums of a run of FP32 elements (R300): the exact sum and absolute sum, rounded once to FP64. -/
def checksums (data : Bytes) : Word × Word :=
  let l := (f32s data 1024).map f32
  (rn64 (fpSum l), rn64 (fpSum (l.map fpAbs)))

/-- Does the owner's comparison fail, and on what excess (R302)? `exempt` when a value is not finite. -/
def ownerCompare (f n : Nat) (r : QRec) : Bool × Bool × Fp :=
  let sumR := (checksums r.data).1
  let exempt := !(fpFinite (f64 r.sum) && fpFinite (f64 sumR) && fpFinite (f64 r.abs))
  let excess := fpAbs (fpAdd (f64 r.sum) (fpNeg (f64 sumR)))
  (exempt, !exempt && fpLt (tauOf f n r.abs) excess, excess)

/-- The bucket is complete at the owner (R303, R304): squares formed, ACK sent, retained records freed, GRAD_CT posted. -/
def State.bucketComplete (s : State) (n g t : Nat) (p : PlanE) : State :=
  let k := s.gCtx g
  match s.vRead (n / 3) k.val p.gradVa (4096 * p.tiles) with
  | .error e => s.unitPageFault (n / 3) k 0x18 n e.1 accRead e.2
  | .ok none => s.faultCtx k (evr 0x3004 0x18 n t)
  | .ok (some b) =>
    let sq := (f32s b (1024 * p.tiles)).foldl (fun acc v => rn64 (fpAdd (f64 acc) (fpMul (f32 v) (f32 v)))) 0
    let s1 := (s.modBucket g t fun b => { b with complete := true, sq := sq }).retainFree g t
    let att := match s.bucket g t with
      | some b => b.attempt
      | none => 0
    let s2 := if 1 < s.gMembers g then s1.gSend g p.ring 1 (s1.newMsg g (p.ring * 2 ^ 20 + att * 2 ^ 16 + t) p.dir 0) else s1
    let s3 := if s.clipOn g then s2 else s2.unitPost k p.gradCt 1
    s3.quernProgress g

/-- The retained records of a tag as local records of an attempt; `none` when a line of one is poisoned (R303). -/
def State.retainedRecs (s : State) (n g t att : Nat) : Option (List QRec) :=
  ((s.group g).retained.filter fun r => r.tag == t).mapM fun r =>
    let bytes := if r.committed then match s.vRead (n / 3) (s.gCtx g).val r.va 4224 with
        | .ok b => b
        | .error _ => none
      else some r.data
    bytes.map fun b =>
      { tag := t, tile := r.tile, attempt := att, isLocal := true, hops := 1, sum := BitVec.ofNat 64 (leAt b 16 8),
        abs := BitVec.ofNat 64 (leAt b 24 8), data := slice b 128 4096 }

/-- The owner's check of a final tile (R302, R303); `again` takes the owner's own retained records back in on a retry. -/
def State.ownerCheck (s : State) (n g : Nat) (p : PlanE) (r : QRec) (again : State → List QRec → State) : State :=
  let k := s.gCtx g
  let f := s.fget (rQuernCtxCfg k.val) fQuernCtxCfgQtolFactor
  let m := s.gMembers g
  let (exempt, far, excess) := ownerCompare f m r
  let s1 := (s.count (rQeCheckCnt n) 1).count (rQeNonfiniteCnt n) (bton exempt)
  if far || r.hops != m then
    let s2 := (s1.count (rQeCheckFailCnt n) 1).emit
      ({ evr 0x6001 0x18 n r.tag r.tile r.attempt with p4 := rn64 excess, p5 := rn64 (tauOf f m r.abs) }.ofCtx k false)
    let s3 := (s2.modLink n fun l => { l with combine := l.combine.filter fun q => !(q.tag == r.tag && q.attempt == r.attempt) }).modBucket g r.tag
      fun b => { b with passed := [] }
    if r.attempt < s.fget (rQuernCtxCfg k.val) fQuernCtxCfgRetryMax ∧ s.flag (rGtCfg g) fGtCfgRetain then
      let a := r.attempt + 1
      let s4 := (s3.modBucket g r.tag fun b => { b with attempt := a }).modGroup g fun x => { x with retries := x.retries + bton (decide (1 < m)) }
      let s5 := if 1 < m then (s4.count (rQeRetryCnt n) 1).gSend g p.ring 2 (s4.newMsg g (p.ring * 2 ^ 20 + a * 2 ^ 16 + r.tag) p.dir 0) else s4
      match s5.retainedRecs n g r.tag a with
      | some l => again s5 l
      | none => s5.faultCtx k (evr 0x3004 0x18 n r.tag)
    else s3.faultCtx k (evr 0x6006 0x18 n)
  else
    match s1.vWrite (n / 3) k.val (p.gradVa + 4096 * r.tile) r.data with
    | .error e => s1.unitPageFault (n / 3) k 0x18 n e.1 accWrite e.2
    | .ok s2 =>
      let s3 := s2.modBucket g r.tag fun b => { b with passed := if b.passed.contains r.tile then b.passed else b.passed ++ [r.tile] }
      match s3.bucket g r.tag with
      | some b => if p.tiles ≤ b.passed.length then s3.bucketComplete n g r.tag p else s3
      | none => s3

/-- A record takes its place in the fixed order of R301: sent on, held, or combined with its counterpart. `final` handles
a finished tile at the owner. -/
def State.placeRec (s : State) (n g : Nat) (p : PlanE) (final : State → QRec → State) (r : QRec) : State :=
  let m := s.gMembers g
  let own := p.owner == s.gPos g
  if m = 1 then final s r
  else if !own && ringDist m p.owner (s.gPos g) p.dir == 1 then s.wireSend n (s.recHdr g r) r.data
  else match (s.link n).combine.find? fun q => q.tag == r.tag && q.tile == r.tile && q.attempt == r.attempt && q.isLocal != r.isLocal with
    | none => s.modLink n fun l => { l with combine := l.combine ++ [r] }
    | some q =>
      let s1 := s.modLink n fun l => { l with combine := l.combine.filter fun x => x != q }
      let out := combineRec (if r.isLocal then q else r) (if r.isLocal then r else q)
      if own then final s1 out else s1.wireSend n (s.recHdr g out) out.data

/-- Records of one bucket taken in, with as many retries as the attempts allow: each retry replays the retained records. -/
def State.contribute : Nat → Nat → Nat → PlanE → State → List QRec → State
  | 0, _, _, _, s, _ => s
  | fuel + 1, n, g, p, s, l =>
    l.foldl (fun s r => s.placeRec n g p (fun s r => s.ownerCheck n g p r (State.contribute fuel n g p)) r) s

/-- Fuel for the attempts 0 to 15 of a bucket. -/
def attempts : Nat := 17

/-- QUERN_CONFIG of a ring-peer mismatch (R312), once per link and epoch, and its report to the Miller (R309). -/
def State.peerBad (s : State) (n g : Nat) : State :=
  let e := s.gEpoch g
  if (s.link n).badPeer.contains e then s
  else (((s.modLink n fun l => { l with badPeer := l.badPeer ++ [e] })).emit ((evr 0x6004 0x18 n).ofCtx (s.gCtx g) false)).groupReport g 0x6004 n false

/-- QUERN_LOCAL_HEADER (R300): a core's contribution: the header row and the 32 rows of the tile. -/
def execQuernLocalHeader (n : LinkId) (hdr tile : Bytes) (s : State) : Res :=
  let n := n.val
  let g := s.fget (rQst n) fQstGroup
  let k := s.gCtx g
  let h := qhdrOf hdr
  let bad := s.faultCtx k (evr 0x6005 0x18 n (leAt hdr 0 8) (leAt hdr 8 8))
  if !s.flag (rQst n) fQstV || !s.gValid g then .next s
  else if h.kind ≠ 0 ∨ h.beats ≠ 32 ∨ h.fmt ≠ 0 ∨ leAt hdr 8 2 ≠ g ∨ s.fget (rGtPlancnt g) fGtPlancntBuckets ≤ h.tag then .next bad
  else match s.readPlan n g h.tag with
    | .error e => .next (s.planFail n g h.tag e)
    | .ok p =>
      let b := (s.bucket g h.tag).getD (newBucket h.tag)
      let retain := s.flag (rGtCfg g) fGtCfgRetain
      let ret := (s.group g).retained
      let cap := s.fget (rGtRetain g) fGtRetainRetMib * 2 ^ 20 / 4224
      let base := s.fget (rGtRetain g) fGtRetainBase * 4096
      if p.tiles ≤ h.tile ∨ !s.isStation n g p.ring p.dir ∨ b.local_.contains h.tile then .next bad
      else if !s.peerOk n g p.ring p.dir && decide (1 < s.gMembers g) then .next (s.peerBad n g)
      -- Held: the credits stay withheld (R295, R300).
      else if !s.bucketRoom g h.tag || (retain && decide (cap ≤ ret.length)) || decide (2048 ≤ (s.link n).slotsUsed) then .next s
      else
        let cs := checksums tile
        let r : QRec := ⟨h.tag, h.tile, b.attempt, true, 1, cs.1, cs.2, slice tile 0 4096⟩
        let s1 := ((s.egTake n (s.fget (rQst n) fQstLocalFlow) 33).count (rQeLocalCnt n) 1).modBucket g h.tag fun b => { b with local_ := b.local_ ++ [h.tile] }
        let s2 := if retain then
            let i := ((List.range (ret.length + 1)).find? fun i => !ret.any fun x => x.va == base + 4224 * i).getD ret.length
            s1.modGroup g fun x => { x with retained := x.retained ++ [⟨h.tag, h.tile, base + 4224 * i, qhdrBytes (s.recHdr g r) ++ r.data, false, false⟩] }
          else s1.creditPost n (s.fget (rQst n) fQstLocalFlow) 33
        .next (State.contribute attempts n g p s2 [r])

/-- The last retained record may have been what STEP_DONE waited for (R307). -/
def State.retainDone (s : State) (g : Nat) (r : RetS) : State := if r.acked then s.checkStepDone g else s

/-- QUERN_RETAIN_COMMIT (R300): the retained record is written and the contribution's credits are freed. -/
def execQuernRetainCommit (n : LinkId) (tag tile : BitVec 16) (s : State) : Res :=
  let g := s.fget (rQst n.val) fQstGroup
  match (s.group g).retained.find? fun r => r.tag == tag.toNat && r.tile == tile.toNat && !r.committed with
  | none => .next s
  | some r =>
    match s.vWrite (n.val / 3) (s.gCtx g).val r.va r.data with
    | .error e => .next (s.unitPageFault (n.val / 3) (s.gCtx g) 0x18 n.val e.1 accWrite e.2)
    | .ok s1 =>
      let kept (q : RetS) : Option RetS := if q ≠ r then some q else if r.acked then none else some { q with committed := true, data := [] }
      .next ((s1.modGroup g fun x => { x with retained := x.retained.filterMap kept }).creditPost
          n.val (s.fget (rQst n.val) fQstLocalFlow) 33 |>.retainDone g r)

/-- Does a KIND 2 or 3 record land here: does HOPS reach DIST (R299, R343, R360)? -/
def QHdr.lands (h : QHdr) : Bool := leAt h.mid 8 3 == h.hops + 1

/-- Forward a KIND 2 or 3 record one hop, or land it when HOPS reaches DIST. -/
def State.fwdOrLand (s : State) (n : Nat) (h : QHdr) (data : Bytes) (land : State → State) : State :=
  if h.lands then land s else (s.count (rQeRecRxCnt n) 1).wireSend n { h with hops := h.hops + 1 } data

/-- A KIND 2 or 3 record that does not land here goes on once the next hop has room (R281, R299, R343); of a KIND 2 record the entry is met and validated
(R297), and a station with the wrong peer takes none (R312). -/
def State.fwdRec (s : State) (n : Nat) (h : QHdr) (data : Bytes) : State :=
  let go (s : State) : State := if s.wireFree n then (s.upTake n h.beats).fwdOrLand n h data id else s
  if !s.stationPeer n then s.peerBad n h.group
  else if h.kind = 2 then match s.readPlan n h.group h.tag with
    | .error e => s.planFail n h.group h.tag e
    | .ok _ => go (s.meetTag n h.group h.tag)
  else go s

/-- Is a record of this group and epoch acceptable at station `n`? -/
def State.recOk (s : State) (n : Nat) (h : QHdr) : Bool :=
  s.flag (rQst n) fQstV && s.fget (rQst n) fQstGroup == h.group && s.gValid h.group

/-- QUERN_RECORD_RX (R301): a record from upstream. KIND 0 is combined, forwarded or checked; KIND 2 and 3 travel on. A gather, and a KIND 2 or 3 record that
lands here, wait for their own rows: QUERN_GATHER_RX, EXCHANGE_RECORD_LAND and CKPT_RECORD_LAND. -/
def execQuernRecordRx (n : LinkId) (hdr data : Bytes) (s : State) : Res :=
  let n := n.val
  let h := qhdrOf hdr
  let g := h.group
  let taken := s.upTake n h.beats
  let stale := (taken.count (rQeRecRxCnt n) 1).count (rQeStaleCnt n) 1
  if 4 ≤ h.kind then .next stale
  else if !s.recOk n h then .next s
  else if h.epoch ≠ s.gEpoch g then .next stale
  else if h.kind = 2 ∨ h.kind = 3 then .next (if h.lands then s else s.fwdRec n h data)
  else if h.kind = 1 then .next s
  else match s.readPlan n g h.tag with
    | .error e => .next (s.planFail n g h.tag e)
    | .ok p =>
      let b := (s.bucket g h.tag).getD (newBucket h.tag)
      if !s.isStation n g p.ring p.dir ∨ p.tiles ≤ h.tile then .next stale
      else if !s.peerOk n g p.ring p.dir then .next (s.peerBad n g)
      else if h.attempt < b.attempt ∨ b.complete ∨ b.acked then .next stale
      else if !s.bucketRoom g h.tag ∨ 2048 ≤ (s.link n).slotsUsed then .next s
      else
        let r : QRec := ⟨h.tag, h.tile, h.attempt, false, h.hops, BitVec.ofNat 64 (leAt h.mid 0 8), BitVec.ofNat 64 (leAt h.mid 8 8), slice data 0 4096⟩
        .next (State.contribute attempts n g p ((taken.count (rQeRecRxCnt n) 1).modBucket g h.tag id) [r])

/-- Is this member the last one a message of the bucket's owner passes (R303)? -/
def State.lastFrom (s : State) (g owner : Nat) (dir : Bool) : Bool := ringDist (s.gMembers g) (s.gPos g) owner dir == 1

/-- ACK (R303, R344). -/
def execAck (n : LinkId) (m : GMsg) (s : State) : Res :=
  .next (s.gRecv n.val 1 m fun s g =>
    let t := bitsN m.arg.toNat 15 0
    let r := bitsN m.arg.toNat 23 20
    match s.readPlan n.val g t with
    | .error e => s.planFail n.val g t e
    | .ok p =>
      if p.kind = 2 then
        match s.pond.round with
        | none => s
        | some rd =>
          let s1 : State := { s with pond := { s.pond with round := some { rd with acks := rd.acks + 1 } } }
          (if rd.acks + 2 < s.gMembers g then s1.gSend g r 1 m else s1).checkStepDone g
      else
        let s1 := (s.modBucket g t fun b => { b with acked := true }).retainFree g t
        (if s.lastFrom g p.owner m.dir then s1 else s1.gSend g r 1 m).quernProgress g)

/-- RETRY (R303): records of lower attempts are dropped and the retained ones take part again. -/
def execRetry (n : LinkId) (m : GMsg) (s : State) : Res :=
  .next (s.gRecv n.val 2 m fun s g =>
    let t := bitsN m.arg.toNat 15 0
    let r := bitsN m.arg.toNat 23 20
    let a := bitsN m.arg.toNat 19 16
    match s.readPlan n.val g t with
    | .error e => s.planFail n.val g t e
    | .ok p =>
      let s0 := if s.lastFrom g p.owner m.dir then s else s.gSend g r 2 m
      match s.station g p.ring p.dir with
      | none => s0
      | some st =>
        let b := (s.bucket g t).getD (newBucket t)
        if a ≤ b.attempt then s0
        else
          let s1 := ((s0.count (rQeRetryCnt st) 1).modBucket g t fun b => { b with attempt := a }).modLink st fun l =>
            { l with combine := l.combine.filter fun q => !(q.tag == t && decide (q.attempt < a)) }
          match s1.retainedRecs st g t a with
          | some l => State.contribute attempts st g p s1 l
          | none => s1.faultCtx (s.gCtx g) (evr 0x3004 0x18 st t))

/-- NORM (R306). -/
def execNorm (n : LinkId) (m : GMsg) (s : State) : Res :=
  .next (s.gRecv n.val 3 m fun s g => ((s.modGroup g fun x => { x with normIn := some (m.value, m.arg.toNat) }).normTry g).checkStepDone g)

/-- VERDICT (R306): passed on through positions 0 to n - 2, and acted on here. -/
def execVerdict (n : LinkId) (m : GMsg) (s : State) : Res :=
  .next (s.gRecv n.val 4 m fun s g =>
    if (s.group g).verdict then s
    else ((if s.gPos g + 2 < s.gMembers g then s.gSend g 0 4 m else s).verdictAct g m.value m.arg.toNat).checkStepDone g)

/-- The gathers whose last record the station has sent post the owner's GATH_CT (R305). -/
def State.gathPosts (s : State) (n : Nat) : State :=
  (s.link n).gathSent.foldl (fun s e =>
    match s.readPlan n e.1 e.2 with
    | .ok p => (((s.modBucket e.1 e.2 fun b => { b with gathDone := true }).unitPost (s.gCtx e.1) p.gathCt 1).checkStepDone e.1)
    | .error f => s.planFail n e.1 e.2 f) (s.modLink n fun l => if l.gathSent = [] then l else { l with gathSent := [] })

/-- QUERN_GATHER_START (R305): the next owned KIND 0 bucket in plan order is sent from COPY_VA once UPDATE has reached its count. -/
def execQuernGatherStart (n : LinkId) (s : State) : Res :=
  let n := n.val
  let g := s.fget (rQst n) fQstGroup
  let x := s.group g
  let k := s.gCtx g
  if !s.flag (rQst n) fQstV || !s.gValid g || x.status == 2 then .next s
  else match (s.planTags g fun e => e.kind == 0 && e.owner == s.gPos g)[x.gatherNext]? with
    | none => .next s
    | some t =>
      match s.readPlan n g t with
      | .error e => .next (s.planFail n g t e)
      | .ok p =>
        let bs := nfmtBytes p.nfmt
        if !s.isStation n g p.ring p.dir ∨ s.updateValue g < x.updBase + x.gatherNext + 1 then .next s
        else match s.vRead (n / 3) k.val p.copyVa (bs * p.tiles) with
          | .error e => .next (s.unitPageFault (n / 3) k 0x18 n e.1 accRead e.2)
          | .ok none => .next (s.faultCtx k (evr 0x3004 0x18 n t))
          | .ok (some b) =>
            let beats := (bs + 127) / 128
            let s0 := s.modGroup g fun x => { x with gatherNext := x.gatherNext + 1 }
            let s1 := if s.gMembers g = 1 then s0.modLink n fun l => { l with gathSent := l.gathSent ++ [(g, t)] }
              else (List.range p.tiles).foldl (fun s i =>
                s.wireSend n ⟨t, i, 1, 0, beats, p.nfmt, g, s.gEpoch g, 0, []⟩ (slice b (bs * i) bs ++ zeros (128 * beats - bs))
                  (if i + 1 = p.tiles then some t else none)) s0
            .next (s1.gathPosts n)

/-- QUERN_GATHER_RX (R305): the block is written to COPY_VA and forwarded; GATH_CT is posted after the last block. -/
def execQuernGatherRx (n : LinkId) (hdr data : Bytes) (s : State) : Res :=
  let n := n.val
  let h := qhdrOf hdr
  let g := h.group
  let k := s.gCtx g
  if h.kind ≠ 1 ∨ !s.recOk n h then .next s
  else if h.epoch ≠ s.gEpoch g then .next (((s.upTake n h.beats).count (rQeRecRxCnt n) 1).count (rQeStaleCnt n) 1)
  else match s.readPlan n g h.tag with
    | .error e => .next (s.planFail n g h.tag e)
    | .ok p =>
      let bs := nfmtBytes p.nfmt
      if !s.isStation n g p.ring p.dir ∨ p.tiles ≤ h.tile then .next (((s.upTake n h.beats).count (rQeRecRxCnt n) 1).count (rQeStaleCnt n) 1)
      else if !s.peerOk n g p.ring p.dir then .next (s.peerBad n g)
      else if (!s.lastFrom g p.owner p.dir && !s.wireFree n) || decide (2048 ≤ (s.link n).slotsUsed) then .next s
      else
        let s1 := (s.upTake n h.beats).count (rQeRecRxCnt n) 1
        match s1.vWrite (n / 3) k.val (p.copyVa + bs * h.tile) (slice data 0 bs) with
        | .error e => .next (s1.unitPageFault (n / 3) k 0x18 n e.1 accWrite e.2)
        | .ok s2 =>
          let s3 := if s.lastFrom g p.owner p.dir then s2 else s2.wireSend n h data
          let s4 := (s3.count (rQeGatherCnt n) 1).modBucket g h.tag fun b =>
            { b with gathered := if b.gathered.contains h.tile then b.gathered else b.gathered ++ [h.tile] }
          match s4.bucket g h.tag with
          | some b =>
            if p.tiles ≤ b.gathered.length ∧ !b.gathDone then
              .next (((s4.modBucket g h.tag fun b => { b with gathDone := true }).unitPost k p.gathCt 1).checkStepDone g)
            else .next s4
          | none => .next s4

end Sys2Proof.Machine
end

