-- ==== Sys2Proof/Machine/Pond.lean ====
section
/-! DEFINITION. Sys2Proof/Machine/Pond.lean: the meanings of the Headrace's and the Millpond's commands (R316 to R354). What the Headrace makes of a clip stands in Headrace.lean (assumption 12). -/

namespace Sys2Proof.Machine

/-- The Headrace's context (R316) (log entry 97, DEDUCED). -/
def State.hrCtx (s : State) : Nat := s.fget rHrCtl fHrCtlCtx

/-! ### Back-pressure (R346) -/

/-- PFC_REPEAT (R346): every 10 us while the pause lasts (log entry 98, DEDUCED). -/
def execPfcRepeat (s : State) : Res :=
  .next (if s.pond.pausing then (if decide (s.fget rHrPfcCfg fHrPfcCfgXonFree ≤ s.freeSlots) then s.pfcCheck else s.pfcSend 0xFFFF) else s)

/-! ### Drops and retirement (R320, R329) -/

/-- Record code of a drop reason (R329). -/
def dropCode (r : Nat) : Nat :=
  match r with
  | 1 => 0x7002
  | 2 => 0x7003
  | 3 => 0x7004
  | 5 => 0x7005
  | 6 => 0x7006
  | 7 => 0x7008
  | _ => 0x7001

/-- Count a drop of clip `i` and write the first record of its code (R329): CLIP_ID and ring, tag, index and reason, offset, frame. -/
def State.dropRec (s : State) (i : Nat) (c : ClipS) (tag idx reason : Nat) (off frame : Word) : State :=
  let s1 := s.count (rHrDropCnt (reason % 8)) 1
  let code := dropCode reason
  if c.codes.contains code then s1
  else
    (s1.setClip i (some { c with codes := c.codes ++ [code] })).emit
      { evr code 0x12 0 (c.id.toNat * 2 ^ 32 + c.ring) tag (idx * 2 ^ 16 + reason) with p4 := off, p5 := frame }

/-! ### Receive rings (R317, R350) -/

/-- HR_RING_PROD_WRITE (R350): clamped to CONS .. CONS + 2^LOG2 modulo 2^32. The Housekeeper, the host (R349) and RDMA's doorbell (R378) write it. -/
def execHrRingProdWrite (_r : Requester) (k : Fin 16) (v : BitVec 32) (s : State) : Res :=
  let cons := s.fget (rHrRingCons k.val) fHrRingConsCons
  let size := 2 ^ s.fget (rHrRingCfg k.val) fHrRingCfgLog2
  .next (s.fput (rHrRingProd k.val) fHrRingProdProd (Clamp.ringProd.apply 0 cons size v.toNat))

/-- HR_RING_ENABLE (R350): HR_RING_CFG written; EN from 0 to 1 zeroes PROD and CONS. The Housekeeper or the host writes it (R349); RDMA, which writes
HR_RING_PROD only (R378), is refused. -/
def execHrRingEnable (r : Requester) (k : Fin 16) (v : Word) (s : State) : Res :=
  if r = .rdma then .next s else
  let a := rHrRingCfg k.val
  let was := s.flag a fHrRingCfgEn
  let s1 := match regDesc a with
    | some d => s.setReg a (d.write 0 0 (2 ^ 64 - 1) v.toNat (s.reg a))
    | none => s
  if !was && s1.flag a fHrRingCfgEn then
    let s2 := (s1.setReg (rHrRingProd k.val) 0).setReg (rHrRingCons k.val) 0
    .next { s2 with pond := { s2.pond with started := s2.pond.started.set k.val 0, retired := s2.pond.retired.filter fun e => e.1 != k.val } }
  else .next s1

/-! ### Clips -/

/-- Byte offset of the first invalid field of a clip record (R319). -/
def clipBad (b : Bytes) : Option Nat :=
  let len := leAt b 8 4
  let cont := leAt b 24 1
  if slice b 6 2 ≠ zeros 2 then some 6
  else if len = 0 ∨ 2 ^ 30 < len ∨ (cont = 0 ∧ len % 188 ≠ 0) then some 8
  else if leAt b 16 6 % 32 ≠ 0 then some 16
  else if 4096 < leAt b 22 2 then some 22
  else if 1 < cont then some 24
  else if 15 < leAt b 25 1 then some 25
  else if slice b 30 2 ≠ zeros 2 then some 30
  else if slice b 40 24 ≠ zeros 24 then some 40
  else none

/-- Does a crop side resize by a ratio between 1/8 and 8 (R331)? -/
def ratioOk (crop out : Nat) : Bool := crop == 0 || (decide (out ≤ 8 * crop) && decide (crop ≤ 8 * out))

/-- Byte offset of the first limit of R331 that a recipe breaks. -/
def recipeBad (b : Bytes) : Option Nat :=
  let w := leAt b 8 2
  let h := leAt b 10 2
  let patch := leAt b 12 1
  let even (o : Nat) : Bool := leAt b o 2 % 2 == 0
  if !even 0 then some 0
  else if !even 2 then some 2
  else if !even 4 then some 4
  else if !even 6 then some 6
  else if patch ≠ 8 ∧ patch ≠ 16 ∧ patch ≠ 32 then some 12
  else if w < 16 ∨ 4096 < w ∨ w % patch ≠ 0 ∨ !ratioOk (leAt b 4 2) w then some 8
  else if h < 16 ∨ 2176 < h ∨ h % patch ≠ 0 ∨ !ratioOk (leAt b 6 2) h then some 10
  else if leAt b 13 1 ≠ 1 ∧ leAt b 13 1 ≠ 2 ∧ leAt b 13 1 ≠ 4 then some 13
  else if 2 < leAt b 14 1 then some 14
  else if 15 < leAt b 15 1 then some 15
  else if ¬ (leAt b 40 1 ∈ [1, 3, 4, 6, 7, 8, 9, 10]) then some 40
  else if 1 < leAt b 41 1 then some 41
  else if 2 < leAt b 43 1 then some 43
  else if 1 < leAt b 44 1 then some 44
  else if leAt b 45 1 ≠ 1 ∧ leAt b 45 1 ≠ 2 then some 45
  else if leAt b 46 1 ≠ 64 ∧ leAt b 46 1 ≠ 128 then some 46
  else if 1 < leAt b 47 1 then some 47
  else if slice b 48 16 ≠ zeros 16 then some 48
  else none

/-- The next ring to serve: round-robin after the last, enabled and holding an unstarted record (R320). -/
def State.nextRing (s : State) : Option Nat :=
  ((List.range 16).map fun i => (s.pond.lastRing + 1 + i) % 16).find? fun k =>
    s.flag (rHrRingCfg k) fHrRingCfgEn && (s.pond.started.getD k 0) != BitVec.ofNat 32 (s.fget (rHrRingProd k) fHrRingProdProd)

/-- Place `c` in the first free clip position; its number. -/
def State.freeClip (s : State) : Option Nat := (List.range 8).find? fun i => (s.clip i).isNone

/-- Every sample of a clip is dropped for one reason and the clip retires, with its record (R329, R330); a record that cannot be read or that names no sample
counts none (log entry 199, DEDUCED). -/
def State.dropClip (s : State) (i : Nat) (c : ClipS) (reason : Nat) (off : Word) : State :=
  let s1 := (s.setClip i (some c)).dropRec i c 0 0 reason off (BitVec.allOnes 64)
  let s2 := s1.setReg (rHrDropCnt reason) (s.reg (rHrDropCnt reason) + BitVec.ofNat 64 c.nsamp)
  (s2.setClip i none).retire c.ring c.num

/-- CLIP_START (R320, R319, R331): the oldest unstarted record of the next ring (log entry 12, DESIGN CHOICE). -/
def execClipStart (s : State) : Res :=
  if !s.flag rHrCtl fHrCtlEnable then .next s
  else match s.nextRing, s.freeClip with
    | some k, some i =>
      let num := s.pond.started.getD k 0
      let va := s.fget (rHrRingCfg k) fHrRingCfgBase * 4096 + 64 * (num.toNat % 2 ^ s.fget (rHrRingCfg k) fHrRingCfgLog2)
      let s1 : State := { s with pond := { s.pond with lastRing := k, started := s.pond.started.set k (num + 1) } }
      let none_ : ClipS := ⟨k, num, 0, 0, 0, 0, 0, [], [], none, 0, 0, [], false⟩
      match s.vRead 0 s.hrCtx va 64 with
      | .error e => .next (s1.dropClip i none_ 5 (BitVec.ofNat 64 e.1))
      | .ok none => .next (s1.dropClip i none_ 5 (BitVec.ofNat 64 va))
      | .ok (some b) =>
        let c : ClipS := ⟨k, num, BitVec.ofNat 32 (leAt b 12 4), BitVec.ofNat 64 (leAt b 32 8), leAt b 25 1, leAt b 16 6, leAt b 22 2, [],
          b, none, 0, leAt b 22 2, [], false⟩
        match clipBad b with
        | some o => .next (s1.dropClip i c 5 (BitVec.ofNat 64 o))
        | none =>
          if c.nsamp = 0 then .next (s1.retire k num)
          else
            let rva := s.fget rHrRecipe fHrRecipeVa * 64 + 64 * c.recipe
            match s.vRead 0 s.hrCtx rva 64 with
            | .error e => .next (s1.dropClip i c 5 (BitVec.ofNat 64 e.1))
            | .ok none => .next (s1.dropClip i c 5 (BitVec.ofNat 64 rva))
            | .ok (some r) =>
              match recipeBad r with
              | some o => .next (s1.dropClip i c 5 (BitVec.ofNat 64 o))
              | none => .next (s1.setClip i (some { c with rbytes := r }))
    | _, _ => .next s

/-- Byte offset of the first field of a sample descriptor out of range (R321). -/
def sampBad (b : Bytes) (tubeN : Nat) : Option Nat :=
  if leAt b 8 2 = 0 ∨ 1024 < leAt b 8 2 then some 8
  else if leAt b 10 1 = 0 ∨ 64 < leAt b 10 1 ∨ leAt b 10 1 % tubeN ≠ 0 then some 10
  else if slice b 11 5 ≠ zeros 5 then some 11
  else if slice b 24 8 ≠ zeros 8 then some 24
  else none

/-- The poisoned lines of the parts of a run: offset in the run and length (R199). -/
def State.poisonIn (s : State) : Nat → List (Nat × Nat) → List (Nat × Nat)
  | _, [] => []
  | o, p :: ps =>
    (((List.range ((p.1 % 128 + p.2 + 127) / 128)).map fun i => p.1 / 128 * 128 + 128 * i).filterMap fun l =>
      if s.poisoned l 128 then some (o + (max l p.1 - p.1), min (l + 128) (p.1 + p.2) - max l p.1) else none) ++ s.poisonIn (o + p.2) ps

/-- A clip's bytes, read once, with its poisoned lines (R320, R330); the VA that fails where a page does not answer. -/
def State.clipRead (s : State) (c : ClipS) : Except (Nat × Nat) (Bytes × List (Nat × Nat)) :=
  match s.vParts 0 s.hrCtx (leAt c.record 0 6) (leAt c.record 8 4) accRead with
  | .error e => .error e
  | .ok ps => .ok (ps.flatMap fun q => s.rdBytes q.1 q.2, s.poisonIn 0 ps)

/-- CLIP_INDEX_DONE (R320, R322) of the clip of ring `k` at position `i`: every byte of it has been read and its index stands; its samples may be
dispatched. A page that is not mapped drops the clip with reason 5 (R330). -/
def execClipIndexDone (k : Fin 16) (i : Fin 8) (s : State) : Res :=
  match s.clip i.val with
  | none => .next s
  | some c =>
    if c.index.isSome ∨ c.ring ≠ k.val then .next s
    else match s.clipRead c with
      | .error e => .next (s.dropClip i.val c 5 (BitVec.ofNat 64 e.1))
      | .ok (b, poison) => .next ((s.setClip i.val (some { c with index := some (clipIndex c.record b poison) })).clipCheck i.val)

/-- The first FREE slot that dispatch may take, once the reserve is topped up (R336, R337). -/
def State.dispatchSlot (s : State) : Option Nat :=
  (List.range (s.fget rMpCfg fMpCfgSlots)).find? fun j => s.topUpReserve.slotOf j = .free

/-- SAMPLE_DISPATCH (R336): the clip's next sample goes to an active engine and takes a FREE slot; an invalid descriptor is dropped (R321). -/
def execSampleDispatch (i e : Fin 8) (s : State) : Res :=
  match s.clip i.val with
  | none => .next s
  | some c =>
    if c.index.isNone || decide (c.nsamp ≤ c.next) || !s.flag rHrCtl fHrCtlEnable then .next s
    else
      let va := c.sampVa + 32 * c.next
      let c1 := { c with next := c.next + 1 }
      let s1 := s.setClip i.val (some c1)
      let drop (tag : Nat) (off : Nat) : Res :=
        .next ((s1.dropRec i.val c1 tag c.next 5 (BitVec.ofNat 64 off) (BitVec.allOnes 64)).sampleDone i.val)
      match s.vRead 0 s.hrCtx va 32 with
      | .error f => drop 0 f.1
      | .ok none => drop 0 va
      | .ok (some b) =>
        match sampBad b (max 1 (leAt c.rbytes 13 1)) with
        | some o => drop (leAt b 16 8) o
        | none =>
          if (s.pond.engines.getD e.val none).isSome || decide (min (s.fget rHrStatus fHrStatusActive) s.ebc.ready ≤ e.val) || !s.flag rMpCfg fMpCfgEn then .next s
          else match s.dispatchSlot with
            | none => .next (if s.pond.fullAt.isSome then s else { s with pond := { s.pond with fullAt := some s.now } })
            | some j =>
              let s2 := ((s1.topUpReserve.setSlot j .filling).fput rHrStatus ⟨e.val, e.val⟩ 1).fullEnd
              .next ({ s2 with pond := { s2.pond with engines := s2.pond.engines.set e.val (some ⟨i.val, c.next, b, j⟩) } } : State).pfcCheck

/-! ### Samples -/

/-- The label and the frame count of a held sample's descriptor (R321). -/
def sampleTag (x : EngineS) : Nat := leAt x.desc 16 8
def sampleFrames (x : EngineS) : Nat := leAt x.desc 10 1

/-- The sample header of R335. -/
def sampleHeader (c : ClipS) (x : EngineS) (d : SampleData) (origin : Nat) : Bytes :=
  let r := c.rbytes
  let n := sampleFrames x
  let amode := leAt r 43 1
  let (rows, cols) := videoShape r n
  natBytes 8 (sampleTag x) ++ natBytes 8 c.tag.toNat ++ natBytes 4 c.id.toNat ++ natBytes 1 c.recipe ++ natBytes 1 n
    ++ natBytes 1 (leAt r 40 1) ++ natBytes 1 amode ++ natBytes 4 rows ++ natBytes 4 cols ++ natBytes 8 d.time.toNat
    ++ natBytes 8 (videoBytes r n) ++ natBytes 8 (audioOffset r (videoBytes r n))
    ++ natBytes 4 (if amode = 0 then 0 else d.aRows) ++ natBytes 4 (if amode = 0 then 0 else d.aCols)
    ++ natBytes 1 (if amode = 0 then 0 else leAt r 45 1) ++ natBytes 3 origin ++ zeros 60

/-- A dispatched sample is dropped (R329): nothing is written to its slot, which returns to FREE; the pictures decoded for it until then count (R351). -/
def State.engineDrop (s : State) (e : Nat) (x : EngineS) (c : ClipS) (d : DropInfo) : State :=
  let s1 := (s.count rHrDecodeCnt d.pictures).count rHrPixelCnt d.pixels
  ((((s1.engineFree e).setSlot x.slot .free).dropRec x.clip c (sampleTag x) x.sample d.reason.toNat d.offset d.frame).sampleDone x.clip).pfcCheck

/-- Address of the scratch area of engine `e` (R336). -/
def State.scratchVa (s : State) (e : Nat) : Nat := s.fget rHrScratch fHrScratchBase * 2 ^ 33 + e * 2 ^ 30

/-- The bytes that decoding a sample leaves in the engine's scratch area (R336): the spec gives the pictures there no layout (log entry 184, DESIGN CHOICE). -/
def scratchBytes (c : ClipS) (x : EngineS) : Bytes := (Config.scratch c.record c.rbytes x.desc).take (2 ^ 30)

/-- Decode the chain into the scratch area (R316, R336): the state after it, or the address that fails. -/
def State.scratchWrite (s : State) (c : ClipS) (e : Nat) (x : EngineS) : Except (Nat × Nat) State :=
  s.vWrite 0 s.hrCtx (s.scratchVa e) (scratchBytes c x)

/-- The fate of the sample that engine `e` holds (R322 to R335); a scratch page that does not answer drops it with reason 5 (R316, R330). -/
def State.fateOf (s : State) (c : ClipS) (e : Nat) (x : EngineS) : Except DropInfo SampleData :=
  match c.index with
  | none => .error ⟨2, BitVec.allOnes 64, BitVec.allOnes 64, 0, 0⟩
  | some ix => match sampleFate ix c.rbytes x.desc (s.fget rMpPool fMpPoolSlotSize * 4096) with
    | .error d => .error d
    | .ok d => match s.scratchWrite c e x with
      | .error f => .error ⟨5, BitVec.ofNat 64 f.1, BitVec.allOnes 64, 0, 0⟩
      | .ok _ => .ok d

/-- The bytes of a filled slot (R335): header, video from 4,096, audio from A_OFF. -/
def slotBody (c : ClipS) (x : EngineS) (d : SampleData) (origin : Nat) : Bytes :=
  let vb := videoBytes c.rbytes (sampleFrames x)
  let aoff := audioOffset c.rbytes vb
  sampleHeader c x d origin ++ zeros 3968 ++ d.video ++ (if aoff = 0 then [] else zeros (aoff - 4096 - vb) ++ d.audio)

/-- The originating position in the Millpond's group (R335). -/
def State.pondOrigin (s : State) : Nat :=
  match s.pondGroup with
  | some g => s.gPos g
  | none => 0xFFFFFF

/-- SAMPLE_READY (R335, R336): header, video and audio are written and the slot becomes READY; a sample whose slot is unmapped is dropped with reason 5 (R348).
It is the sample of clip `i` that engine `e` holds; one that R329 drops never becomes READY. -/
def execSampleReady (i e : Fin 8) (s : State) : Res :=
  match s.pond.engines.getD e.val none with
  | none => .next s
  | some x =>
    match if x.clip = i.val then s.clip i.val else none with
    | none => .next s
    | some c =>
      match s.fateOf c e.val x, s.scratchWrite c e.val x with
      | .ok d, .ok s0 =>
        let body := slotBody c x d s.pondOrigin
        match s0.vWrite 0 (s.fget rMpCfg fMpCfgCtx) (s.slotVa x.slot) body with
        | .error f => .next (s0.engineDrop e.val x c ⟨5, BitVec.ofNat 64 f.1, BitVec.allOnes 64, d.pictures, d.pixels⟩)
        | .ok s1 =>
          let s2 := (((s1.count rHrSampleCnt 1).count rHrFrameCnt (sampleFrames x)).count rHrDecodeCnt d.pictures).count rHrPixelCnt d.pixels
          .next ((((s2.engineFree e.val).setUsed x.slot ((body.length + 127) / 128)).slotReady x.slot).count rMpInCnt 1 |>.sampleDone x.clip)
      | _, _ => .next s

/-- SAMPLE_DROP (R329): decoding has met the drop of the sample of clip `i` that engine `e` holds. A sample that has none is not dropped. -/
def execSampleDrop (i e : Fin 8) (s : State) : Res :=
  match s.pond.engines.getD e.val none with
  | none => .next s
  | some x =>
    match if x.clip = i.val then s.clip i.val else none with
    | none => .next s
    | some c =>
      match s.fateOf c e.val x with
      | .error d => .next (s.engineDrop e.val x c d)
      | .ok _ => .next s

/-! ### Releases (R338, R339, R341) -/

/-- Slots held for queue `q`, oldest first. -/
def heldOf (l : List (Nat × List HeldS)) (q : Nat) : List HeldS := sget (fun _ => []) l q

/-- The next queue with a request pending that can be served, round-robin after the last served (R339): it has a held slot of a repeated step (R341), or the
ready list has a slot. -/
def State.nextQueue (s : State) : Option (Nat × Nat) :=
  ((List.range 16).map fun i => (s.pond.lastQueue + 1 + i) % 16).findSome? fun q =>
    if s.flag (rMpQCfg q) fMpQCfgEn && (s.pond.readyList != [] || heldOf s.pond.replay q != []) then (s.requests q).map fun p => (q, p) else none

/-- The release entry (R339). -/
def releaseEntry (va slot seq tag clip : Nat) : Bytes :=
  natBytes 6 va ++ zeros 2 ++ natBytes 4 slot ++ natBytes 4 seq ++ natBytes 8 tag ++ natBytes 4 clip ++ zeros 4

/-- Write the entry, advance SEQ and post the queue's target (R339), on the state `take` leaves once the slot is taken; an unmapped ring disables the queue
(R348), and then nothing has been drawn or taken (log entry 200, DEDUCED). -/
def State.release (s : State) (q p slot tag clip : Nat) (take : State → State) : State :=
  let k : CtxId := ⟨s.fget rMpCfg fMpCfgCtx % 8, Nat.mod_lt _ (by decide)⟩
  let seq := s.fget (rMpQSeq q) fMpQSeqSeq
  let va := s.fget (rMpQCfg q) fMpQCfgRingVa * 32 + 32 * (seq % 2 ^ s.fget (rMpQCfg q) fMpQCfgLog2depth)
  match s.vWrite 0 k.val va (releaseEntry (s.slotVa slot) slot seq tag clip) with
  | .error e => ((s.fput (rMpQCfg q) fMpQCfgEn 0).emit (evr 0x7005 0x13 0 (clip * 2 ^ 32) tag 5 e.1 (2 ^ 64 - 1))).emptySettle
  | .ok s0 =>
    let s1 := take { s0 with pond := { s0.pond with lastQueue := q } }
    let s2 := (s1.fput (rSem p) fSemValue (s1.fget (rSem p) fSemValue - 1)).reexamine p
    let s3 := ((s2.setSlot slot .held).fput (rMpQSeq q) fMpQSeqSeq (seq + 1)).count rMpRelCnt 1
    let id := s.fget (rMpQCt q) fMpQCtCtId
    match s.fget (rMpQCt q) fMpQCtCtKind with
    | 1 => match coreOfPos (s.fget (rMpQCt q) fMpQCtPos) with
      | some c => s3.bellToCore 6 k.val c (id % 64) [1]
      | none => s3
    | 2 => s3.unitPost k id 1
    | _ => s3

/-- A slot leaves the ready list for queue `q` by a draw: DRAW advances, and the queue holds the slot (R338, R341). -/
def State.drawTake (s : State) (q j draw : Nat) (h : HeldS) : State :=
  let held := heldOf s.pond.held q ++ [h]
  let s1 := (s.readyTake j).setReg rMpDraw (BitVec.ofNat 64 (draw + 1))
  ({ s1 with pond := { s1.pond with held := sset (fun _ => []) s1.pond.held q held } } : State).fput (rMpQHeld q) fMpQHeldHeld held.length

/-- MILLPOND_RELEASE (R339, R341): a held slot of a repeated step first, else a new draw (R338). -/
def execMillpondRelease (s : State) : Res :=
  if !s.flag rMpCfg fMpCfgEn then .next s
  else match s.nextQueue with
    | none => .next s
    | some (q, p) =>
      match heldOf s.pond.replay q with
      | h :: rest =>
        .next (s.release q p h.slot h.tag.toNat h.clip.toNat fun t => { t with pond := { t.pond with replay := sset (fun _ => []) t.pond.replay q rest } })
      | [] =>
        let draw := (s.reg rMpDraw).toNat
        let u := (philox (s.reg rMpSeed) draw (draw / 2 ^ 32) s.pondPos 0).1
        let j := u * s.pond.readyList.length / 2 ^ 32
        let slot := s.pond.readyList.getD j 0
        let lost := ((s.readyTake j).setReg rMpDraw (BitVec.ofNat 64 (draw + 1))).setSlot slot .free
        match s.vRead 0 (s.fget rMpCfg fMpCfgCtx) (s.slotVa slot) 128 with
        | .ok (some hdr) =>
          let tag := leAt hdr 0 8
          let clip := leAt hdr 16 4
          .next (s.release q p slot tag clip fun t => t.drawTake q j draw ⟨slot, BitVec.ofNat 64 tag, BitVec.ofNat 32 clip⟩)
        | .ok none => .next lost.pfcCheck
        | .error e => .next (lost.pondUnmapped e.1).pfcCheck

/-! ### Landing (R344) -/

/-- Sample `j` of the round is handled; the round completes after K (R344). -/
def State.roundHandled (s : State) (g : Nat) (p : PlanE) (t j : Nat) : State :=
  match s.pond.round with
  | none => s
  | some r =>
    let done := if r.handled.contains j then r.handled else r.handled ++ [j]
    let full := decide (s.fget rMpCfg fMpCfgXchK ≤ done.length)
    let s1 : State := { s with pond := { s.pond with round := some { r with handled := done, complete := full } } }
    if full && !r.complete then
      (if 1 < s.gMembers g then s1.gSend g p.ring 1 (s1.newMsg g (p.ring * 2 ^ 20 + t) p.dir 0) else s1).checkStepDone g
    else s1

/-- A landing record finds its place (R344): the round runs, and its slot is there unless the sample is void. -/
def State.landSlot (s : State) (j beats : Nat) : Option (RoundS × Nat) :=
  match s.pond.round with
  | none => none
  | some r => if beats = 0 then some (r, 0) else (r.slots[j]?).map fun slot => (r, slot)

/-- A landed sample fails its CRC, or cannot be read again (R329, R344): reason 7, once for the sample; its slot stays in RESERVE. Of a sample that cannot be
read CLIP_ID and SAMPLE_TAG are 0 (log entry 198, DESIGN CHOICE). -/
def State.landFail (s : State) (j clip tag : Nat) : State :=
  (s.count (rHrDropCnt 7) 1).emit (evr 0x7008 0x13 0 (clip * 2 ^ 32) tag (j * 2 ^ 16 + 7) (2 ^ 64 - 1) (2 ^ 64 - 1))

/-- A record lands (R343, R344): DIST is compared, the chunk is written, and after the last chunk the CRC decides. What else arrives of a sample already handled
is taken without an effect. -/
def State.landRecord (s : State) (n : Nat) (p : PlanE) (h : QHdr) (data : Bytes) (r : RoundS) (slot : Nat) : State :=
  let g := h.group
  let j := leAt h.mid 0 2
  let beats := leAt h.mid 4 4
  let dist := leAt h.mid 8 3
  let k : CtxId := ⟨s.fget rMpCfg fMpCfgCtx % 8, Nat.mod_lt _ (by decide)⟩
  let s0 := s.count (rQeRecRxCnt n) 1
  if dist ≠ r.dist then s0.faultCtx k (evr 0x7007 0x13 0 r.dist dist)
  else if r.handled.contains j then s0
  else if beats = 0 then s0.roundHandled g p h.tag j
  else match s0.vWrite 0 k.val (s.slotVa slot + 16384 * h.tile) (slice data 0 (128 * h.beats)) with
    | .error e => (s0.pondUnmapped e.1).roundHandled g p h.tag j
    | .ok s1 =>
      let got := sget (fun _ => 0) r.landed j + h.beats
      let s2 : State := { s1 with pond := { s1.pond with round := some { r with landed := sset (fun _ => 0) r.landed j got } } }
      if got < beats then s2
      else match s2.vRead 0 k.val (s.slotVa slot) (128 * beats) with
        | .ok (some b) =>
          if (crc32c b).toNat = leAt h.mid 12 4 then (((s2.setSlot slot .inbound).setUsed slot beats).count rMpXchRxCnt 1).roundHandled g p h.tag j
          else (s2.landFail j (leAt b 16 4) (leAt b 0 8)).roundHandled g p h.tag j
        | .ok none => (s2.landFail j 0 0).roundHandled g p h.tag j
        | .error e => (s2.pondUnmapped e.1).roundHandled g p h.tag j

/-- EXCHANGE_RECORD_LAND (R343, R344): a KIND 2 record is forwarded once the next hop has room, or lands here; one with no RESERVE slot left for it waits: the
ingress router holds its flow under R281 (log entry 81, DEDUCED). -/
def execExchangeRecordLand (n : LinkId) (hdr data : Bytes) (s : State) : Res :=
  let n := n.val
  let h := qhdrOf hdr
  let g := h.group
  if h.kind ≠ 2 ∨ !s.recOk n h then .next s
  else if h.epoch ≠ s.gEpoch g then .next (((s.upTake n h.beats).count (rQeRecRxCnt n) 1).count (rQeStaleCnt n) 1)
  else if !h.lands then .next (s.fwdRec n h data)
  else if !s.stationPeer n then .next (s.peerBad n g)
  else match s.readPlan n g h.tag with
    | .error e => .next (s.planFail n g h.tag e)
    | .ok p =>
      match s.landSlot (leAt h.mid 0 2) (leAt h.mid 4 4) with
      | none => .next s
      | some (r, slot) => .next (((s.meetTag n g h.tag).upTake n h.beats).landRecord n p h data r slot)

end Sys2Proof.Machine
end

