-- ==== Sys2Proof/Machine/Group.lean ====
section
/-! DEFINITION. Sys2Proof/Machine/Group.lean: the meanings of the group commands: step commit, checkpoints, rollback and the loss of a member (R356 to R366). -/

namespace Sys2Proof.Machine

/-! ### The still (R360) -/

/-- Links that carry buddy copies, ascending (R360). -/
def State.ckptLinks (s : State) (g : Nat) : List Nat := (List.range 24).filter fun k => bitN (s.fget (rRsCfg g) fRsCfgCkptLinks) k

/-- A member whose self and buddy areas are both VALID reports phase 2 (R360). -/
def State.stillTry (s : State) (g : Nat) : State :=
  match (s.group g).still with
  | some st => if st.selfDone && (st.buddyDone || s.gMembers g == 1) then s.phaseReach g 2 else s
  | none => s

/-- Once the whole buddy area has landed, its header becomes VALID (R360). -/
def State.buddyTry (s : State) (g : Nat) : State :=
  match (s.group g).still with
  | some st =>
    let total := s.stateBytes g (s.predPos g)
    if s.gMembers g = 1 ∨ st.buddyDone = true ∨ 16384 * st.landed.length < total then s
    else
      ((s.areaHeader g (2 + st.gen) (s.lastStep g) total (s.predPos g) true).modGroup g fun x =>
        { x with still := some { st with buddyDone := true } }).stillTry g
  | none => s

/-- Put the buddy copy on its links (R360): chunk i on the (i mod L)-th link. -/
def State.sendBuddy (s : State) (g gen step bytes : Nat) : State :=
  let k := s.gCtx g
  let links := s.ckptLinks g
  match s.vRead 0 k.val (s.slotAddr g (step % 2) 0) bytes with
  | .error e => s.unitPageFault 0 k 0x11 0 e.1 accRead e.2
  | .ok none => s.faultCtx k (evr 0x3004 0x11 0)
  | .ok (some b) =>
    let recs := ckptRecs g (s.gEpoch g) gen 1 0 b (bytes / 16384 + 1) 0
    let s1 := links.foldl (fun s n => s.modLink n fun l => { l with still := true }) s
    (recs.zipIdx).foldl (fun s r =>
      match links[r.2 % max 1 links.length]? with
      | some n => s.egPush n stillFlow (qhdrBytes r.1.1 ++ r.1.2 ++ zeros ((128 - r.1.2.length % 128) % 128))
      | none => s) s1

/-- Start checkpoint k for step `step` (R360): group snapshot, headers not VALID, buddy copy on its links. Chunks that came before this member's own
COMMIT count, and so does a failure among them (log entry 205, DEDUCED). -/
def State.startStill (s : State) (g step : Nat) : State :=
  let gen := (s.group g).ckpts % 2
  let bytes := s.stateBytes g (s.gPos g)
  let snap := s.regs.filter fun e => decide (rGtCfg g ≤ e.1) && decide (e.1 < rGtCfg g + 0x100)
  let bad := (s.group g).earlyBad
  let s1 := (s.modGroup g fun x =>
    { x with groupSnap := some ⟨snap, x.members⟩, still := some ⟨gen, bytes, false, x.early, false, s.now⟩, early := [], earlyBad := false
             trickle := x.trickle.filter fun t => t.gen != gen
             trickleQ := x.trickleQ.filter fun t => t.gen != gen }).setPhase g 2
  let s2 := (s1.trickleNext g).areaHeader g gen step bytes (s.gPos g) false
  let s3 := if s.gMembers g = 1 then s2
    else ((s2.areaHeader g (2 + gen) step (s.stateBytes g (s.predPos g)) (s.predPos g) false).sendBuddy g gen step bytes).buddyTry g
  if bad then s3.stillAbandon g else s3

/-! ### Cadence (R359) -/

/-- T_still of R360 in femtoseconds. -/
def State.estStill (s : State) (g : Nat) : Nat :=
  let b := s.stateBytes g (s.gPos g)
  let l := max 1 (s.ckptLinks g).length
  max ((b + 16383) / 16384 * 16512 * 4 * 10 ^ 6 / (l * 775)) (b * 10 ^ 3 * 2 / 3) + 2 * (s.gMembers g - 1) * 46410000

/-- n_steps (R359): the square root is exact before it is rounded half up (log entry 92, DEDUCED; log entry 96, DEDUCED). -/
def State.interval (s : State) (g : Nat) : Nat :=
  let x := s.group g
  let c := x.commitTimes.length
  let t := x.commitTimes.foldl (· + ·) 0
  let a := s.fget (rRsRunS g) fRsRunSRun + 3600 * s.fget (rRsTime g) fRsTimePriorH
  let losses := s.fget (rRsCnt g) fRsCntLosses
  let us := s.fget (rRsStillUs g) fRsStillUsStill
  let f := if us = 0 then s.estStill g else us * 10 ^ 9
  let lo := s.fget (rRsCadence g) fRsCadenceMinSteps
  let hi := s.fget (rRsCadence g) fRsCadenceMaxSteps
  if t = 0 then hi
  else min (max ((Nat.sqrt (8 * f * a * (c * 126000000000) ^ 2 / (10 ^ 15 * (losses + 1) * t ^ 2)) + 1) / 2) lo) hi

/-- Does this member report TRICKLE_OK (R361)? Not while the trickle runs without a session to take it (R380). -/
def State.trickleOk (s : State) (g : Nat) : Bool :=
  let x := s.group g
  !s.flag (rRsTrickle g) fRsTrickleEn
    || ((decide (x.ckpts < 2) || x.trickleDone.contains (x.ckpts % 2)) && s.host.sessions.any fun y => y.cls == 2 && y.group == g)

/-! ### Commit (R356) -/

/-- Adopt COMMIT(s) in the order of R356. -/
def State.adoptCommit (s : State) (g : Nat) (ckpt : Bool) : State :=
  let t := s.stepOn g
  if ckpt then (t.startStill g (s.gStep g)).stillTry g
  else (((t.modGroup g fun y => { y with committed := true }).setPhase g 0).startRound g).quernStart g |>.tryRelease (s.gCtx g).val

/-- The Miller commits (R356, R359): the interval, the checkpoint decision, COMMIT and its own adoption. -/
def State.millerCommit (s : State) (g : Nat) (trickle : Bool) : State :=
  let s := s.commitClock g
  let x := s.group g
  let n := s.interval g
  let s1 := s.fput (rRsStatus g) fRsStatusInterval n
  let en := s.flag (rRsCfg g) fRsCfgCkptEn
  let want := en && (decide (n ≤ x.sinceCkpt + 1) || x.ckptReq || x.deferred)
  let ckpt := en && (x.ckptForced || (want && trickle))
  let hold := want && !ckpt
  let s2 := if hold && !x.deferred then s1.emit ((evr 0xA009 0x11 0).ofCtx (s.gCtx g) false) else s1
  let s3 := s2.modGroup g fun y => { y with deferred := hold }
  let s4 := if 1 < s.gMembers g then s3.gSend g 0 9 (s3.newMsg g 0 false (s.gStep g + bton ckpt * 2 ^ 32)) else s3
  s4.adoptCommit g ckpt

/-- A ready member sends or forwards VOTE; the Miller commits once its own readiness and the VOTE are in (R356), unless it holds a FAULT (R358). -/
def State.voteTry (s : State) (g : Nat) : State :=
  let x := s.group g
  if !x.ready || x.voted then s
  else if s.gMiller g then
    if x.faults ≠ [] then s
    else if s.gMembers g = 1 then s.millerCommit g (s.trickleOk g)
    else match x.voteIn with
      | some ok => s.millerCommit g (ok && s.trickleOk g)
      | none => s
  else
    let send (ok : Bool) : State := (s.modGroup g fun y => { y with voted := true }).gSend g 0 8 (s.newMsg g 0 false (s.gStep g + bton ok * 2 ^ 32))
    if s.ringFirst g then send (s.trickleOk g)
    else match x.voteIn with
      | some ok => send (ok && s.trickleOk g)
      | none => s

/-- Are the egress buffers of the context's link flows empty (R356)? -/
def State.egressEmpty (s : State) (k : Nat) : Bool :=
  (List.range 24).all fun n =>
    let fl := s.flowsOf n k
    (s.link n).egress.all fun e => !(fl.contains e.1) || e.2.isEmpty

/-- VOTE_READY (R356): the member is ready for the step. -/
def execVoteReady (g : Fin 1024) (s : State) : Res :=
  let g := g.val
  let k := (s.gCtx g).val
  let x := s.group g
  if s.gValid g && x.stepDone && (s.ctx k).boundary && s.egressEmpty k && !x.ready && !(s.ctx k).groupHalt then
    .next (((s.modGroup g fun y => { y with ready := true, readyAt := some s.now }).setPhase g 1).voteTry g)
  else .next s

/-- VOTE (R356). -/
def execVote (n : LinkId) (m : GMsg) (s : State) : Res :=
  .next (s.gRecv n.val 8 m fun s g =>
    if m.value.toNat % 2 ^ 32 ≠ s.gStep g then s
    else (s.modGroup g fun x => { x with voteIn := some (bitN m.value.toNat 32) }).voteTry g)

/-- COMMIT (R356): adopted, then forwarded. -/
def execCommit (n : LinkId) (m : GMsg) (s : State) : Res :=
  .next (s.gRecv n.val 9 m fun s g =>
    if s.gMiller g ∨ m.value.toNat % 2 ^ 32 ≠ s.gStep g then s
    else
      let t := (s.commitClock g).adoptCommit g (bitN m.value.toNat 32)
      if s.ringLast g then t else t.gSend g 0 9 m)

/-- CKPT_SELF_COPY_DONE (R360): bank s mod 2 has been copied to the self area; its header becomes VALID. -/
def execCkptSelfCopyDone (g : Fin 1024) (s : State) : Res :=
  let g := g.val
  match (s.group g).still with
  | none => .next s
  | some st =>
    if st.selfDone then .next s
    else
      let step := s.lastStep g
      let (s1, ok) := s.gCopy g (s.slotAddr g (step % 2) 0) (s.areaAddr g st.gen + 4096) st.bytes
      if !ok then .next s1
      else
        let s2 := (s1.areaHeader g st.gen step st.bytes (s.gPos g) true).modGroup g fun x => { x with still := some { st with selfDone := true } }
        .next (s2.stillTry g)

/-- A KIND 3 record lands (R360, R363): written and checked; a buddy chunk that fails abandons the checkpoint (R362). A chunk of the next checkpoint may
come before this member has adopted its COMMIT. -/
def State.ckptLand (s : State) (n g : Nat) (h : QHdr) (data : Bytes) : State :=
  let off := leAt h.mid 0 8
  let area := leAt h.mid 11 1
  let part := slice data 0 (128 * h.beats)
  let s0 := s.count (rQeRecRxCnt n) 1
  let good := decide ((crc32c part).toNat = leAt h.mid 12 4)
  let x := s.group g
  if 2 ≤ area then (if good then s0.gWrite g (s.slotAddr g (area % 2) 0 + off) part else s0)
  else if area ≠ (match x.still with
      | some st => st.gen
      | none => x.ckpts % 2) then s0
  else if !good then
    ((s0.emit ((evr 0xA003 0x11 0 h.tag (off / 16384) n).ofCtx (s.gCtx g) false)).stillAbandon g).groupReport g 0xA003 n false
  else
    let (s1, ok) := s0.gPut g (s.areaAddr g (2 + area) + 4096 + off) part
    let add (l : List Nat) : List Nat := if l.contains off || !ok then l else l ++ [off]
    (s1.modGroup g fun x => match x.still with
      | some st => { x with still := some { st with landed := add st.landed } }
      | none => { x with early := add x.early }).buddyTry g

/-- CKPT_RECORD_LAND (R360): a KIND 3 record lands in the buddy area or the state bank, or is forwarded. -/
def execCkptRecordLand (n : LinkId) (hdr data : Bytes) (s : State) : Res :=
  let n := n.val
  let h := qhdrOf hdr
  let g := h.group
  if h.kind ≠ 3 ∨ !s.gValid g then .next s
  else if h.epoch ≠ s.gEpoch g then .next (((s.upTake n h.beats).count (rQeRecRxCnt n) 1).count (rQeStaleCnt n) 1)
  else if s.flag (rQst n) fQstV && !s.stationPeer n then .next (s.peerBad n g)
  else .next (if h.lands || s.wireFree n then (s.upTake n h.beats).fwdOrLand n h data fun s => s.ckptLand n g h data else s)

/-- COMMIT_TIMEOUT (R358): the VOTE is not complete COMMIT_MS after the Miller was ready. -/
def execCommitTimeout (g : Fin 1024) (s : State) : Res :=
  let g := g.val
  let x := s.group g
  if s.gValid g && s.gMiller g && x.ready && x.voteIn.isNone && decide (1 < s.gMembers g) then
    .next (((s.emit ((evr 0xA006 0x11 0).ofCtx (s.gCtx g) false)).modGroup g fun x => { x with causer := none }).millerRollback g 0xA006 0)
  else .next s

/-! ### Faults, rollback and phases (R357, R358) -/

/-- GROUP_FAULT (R357): a FAULT report: acted on by the Miller, held and passed on by every other member. -/
def execGroupFault (n : LinkId) (m : GMsg) (s : State) : Res :=
  .next (s.gRecv n.val 11 m fun s g =>
    let code := bitsN m.value.toNat 15 0
    let named := bitsN m.value.toNat 39 16
    let back := bitN m.value.toNat 40
    if (s.group g).unrecoverable then s
    else if s.gMiller g then s.millerFault g code m.arg.toNat named back
    else
      let s1 := (s.gSend g 0 11 m).modGroup g fun x => x.hold code m.arg.toNat named back s.now
      match code with
      | 0xA005 => s1.groupStopHere g 0xA005 g m.arg.toNat named
      | 0xA003 => s1.stillAbandon g
      | _ => s1)

/-- ROLLBACK (R357): forwarded and adopted; during a dump its adoption waits (R444). -/
def execRollback (n : LinkId) (m : GMsg) (s : State) : Res :=
  .next (s.gRecv n.val 10 m fun s g =>
    (s.gSend g 0 10 m).adoptRollback g (m.arg.toNat % 2 ^ 16) (m.value.toNat % 2 ^ 32) (bitsN m.value.toNat 47 32) (bitsN m.value.toNat 48 48))

/-- PHASE_DONE (R357, R360). -/
def execPhaseDone (n : LinkId) (m : GMsg) (s : State) : Res :=
  .next (s.gRecv n.val 12 m fun s g =>
    let p := m.arg.toNat % 4
    (s.modGroup g fun x => { x with phaseIn := if x.phaseIn.contains p then x.phaseIn else x.phaseIn ++ [p] }).phaseTry g p)

/-- GUARD_EXPIRY (R357): GUARD_US after PHASE_DONE(0) at the Miller. -/
def execGuardExpiry (g : Fin 1024) (s : State) : Res :=
  .next (if s.gValid g.val && s.gMiller g.val && (s.group g.val).guard && !(s.group g.val).unrecoverable then s.guardEnd g.val else s)

/-- PHASE_GO (R357, R360). -/
def execPhaseGo (n : LinkId) (m : GMsg) (s : State) : Res :=
  .next (s.gRecv n.val 13 m fun s g =>
    if s.gMiller g then s
    else
      let s1 := if s.ringLast g then s else s.gSend g 0 13 m
      if (s.group g).unrecoverable then s1
      else if m.arg.toNat % 4 = 1 then s1.clearGroup g
      else if (s.group g).still.isSome then s1.stillRelease g
      else if (s.ctx (s.gCtx g).val).groupHalt then s1.restartGroup g else s1)

/-! ### Losing a member (R363) -/

/-- MEMBER_LOSS_CONFIRM (R363): at the Miller, or at the Miller's successor when the Miller itself is lost. -/
def execMemberLossConfirm (g : Fin 1024) (x : BitVec 24) (s : State) : Res :=
  let g := g.val
  let x := x.toNat
  if !s.gValid g || !s.lossShown g x then .next s
  else if s.gMiller g then .next (s.memberLost g x)
  else if x = s.millerPos g ∧ (x + 1) % s.gMembers g = s.gPos g then
    .next (((s.emit ((evr 0xA007 0x11 0).ofCtx (s.gCtx g) false)).fput (rGtCfg g) fGtCfgMiller 1).memberLost g x)
  else .next s

/-- REBUILD (R363): forwarded and adopted; a Miller that receives one gives up its role (R364). During a dump its adoption waits (R444). -/
def execRebuild (n : LinkId) (m : GMsg) (s : State) : Res :=
  .next (s.gRecv n.val 14 m fun s g =>
    (s.gSend g 0 14 m).adoptRebuild g (m.arg.toNat % 2 ^ 16) (bitsN m.value.toNat 23 0) (bitsN m.value.toNat 47 24) false)

/-- SEED (R345, R363): a new Millpond seed. -/
def execSeed (n : LinkId) (m : GMsg) (s : State) : Res :=
  .next (s.gRecv n.val 15 m fun s g =>
    if s.gMiller g then s
    else
      let s1 := if s.ringLast g then s else s.gSend g 0 15 m
      if s.fget rMpCfg fMpCfgGroup = g then s1.reseed g m.value else s1)

/-- CKPT_REQ (R366): a write of RS_CMD.CKPT_REQ by the Housekeeper or the host. -/
def execCkptReq (r : Requester) (g : Fin 1024) (s : State) : Res :=
  match r with
  | .rdma => .next s
  | _ => .next (s.modGroup g.val fun x => { x with ckptReq := true })

end Sys2Proof.Machine
end

