-- ==== Sys2Proof/Machine/Link.lean ====
section
/-! DEFINITION. Sys2Proof/Machine/Link.lean: the fabric links (chapter 12): training and shutters, frames and credits, lane maps, forwarding, control messages, watches of the link routers, loss. -/

namespace Sys2Proof.Machine

/-- Lane-map entry of lane `l` in slot `t` (R272, R291), and in the present one. -/
def State.laneMapAt (s : State) (n l t : Nat) : Nat := s.entry16 (rLinkLaneMap n) (3 * (t % s.slotPeriod (coreOfIdx (linkEdge n))) + l)
def State.laneMap (s : State) (n l : Nat) : Nat := s.laneMapAt n l s.slot

/-- Frame period FP (R270). -/
def State.framePeriod (s : State) (n : Nat) : Nat := 2 ^ s.fget (rLinkCtl n) fLinkCtlFpLog2

/-- The digest over a slot table (R271). -/
def State.slotDigest (s : State) (n : Nat) (tab : Nat → Nat) : BitVec 32 :=
  crc32c (natBytes 1 (s.fget (rLinkCtl n) fLinkCtlFpLog2) ++ (List.range (s.framePeriod n)).flatMap fun i => natBytes 2 (s.entry16 tab i))

/-- The sender's frame-clock stamp: periods of 2.56 ns (R277, R280). -/
def State.frameStamp (s : State) : Nat := s.now * 25 / 8064 % 2 ^ 48

/-! ### Management messages -/

/-- Send an IDENT with the present READY and digest (R271, R277) (log entry 77, DESIGN CHOICE). -/
def State.sendIdent (s : State) (n : Nat) : State :=
  s.ctlSend n (.mgmt 0 (BitVec.ofNat 116 (s.devId * 2 ^ 92 + n * 2 ^ 87 + s.fget (rLinkCtl n) fLinkCtlOpen * 2 ^ 86
    + bton (s.link n).mode * 2 ^ 85 + (s.slotDigest n (rLinkTxslot n)).toNat * 2 ^ 53)))

/-- Put the link in a state (R290). -/
def State.linkGo (s : State) (n st : Nat) : State := s.fput (rLinkStatus n) fLinkStatusState st

/-- Buffers, queues, credits and frame indices as at a fresh start (R288). -/
def LinkS.cleared (l : LinkS) : LinkS :=
  { l with
    egress := [], reserved := [], ingress := [], heldAt := [], recAt := [], rxPhase := [], ctlOut := [], ctlIn := [], credits := 256,
    toReturn := 0, txIdx := 0, rxIdx := none, still := false, serve := none, wireQ := [], gathSent := [] }

/-- A link starts afresh (R288). -/
def State.clearLink (s : State) (n : Nat) : State :=
  (s.holdEnd n).modLink n fun l => { l.cleared with identSeen := false, echoSeen := false, peerReady := false, wrongPeer := false }

/-- The groups one of whose rings uses the link, with the position of the neighbour there (R294). -/
def State.ringUses (s : State) (n : Nat) : List (Nat × Nat) :=
  (s.regs.filterMap fun e =>
    if rGtCfg 0 ≤ e.1 ∧ e.1 < rGtCfg 1024 ∧ (e.1 - rGtCfg 0) % 0x100 = 0 ∧ fGtCfgValid.get e.2 = 1 then some ((e.1 - rGtCfg 0) / 0x100) else none).filterMap fun g =>
    let m := s.gMembers g
    let uses (dir : Bool) : Bool := (List.range (s.fget (rGtCfg g) fGtCfgRings)).any fun r =>
      s.flag (rGtRing g r) fGtRingV && s.ringLink g r dir == n
    if uses false then some (g, (s.gPos g + 1) % m) else if uses true then some (g, (s.gPos g + m - 1) % m) else none

/-- Watches outstanding on the router's tags are answered with ORPHAN = 1 and the tags quarantined (R288). -/
def State.orphanTags (s : State) (n : Nat) : State :=
  let live := (s.link n).tags.filter fun t => !t.quarantine
  let s1 := live.foldl (fun s t => s.bellToCore 5 t.ctx.val t.core (64 + t.sc.toNat) []) s
  s1.modLink n fun l => { l with tags := l.tags.map fun t => { t with quarantine := true } }

/-- The link goes DOWN (R287, R288). -/
def State.goDown (s : State) (n reason : Nat) : State :=
  let peer := s.fget (rLinkStatus n) fLinkStatusPeerId
  let s1 := ((s.linkGo n lsDown).fput (rLinkStatus n) fLinkStatusLastDown reason).count (rLinkDownCnt n) 1
  let s2 := (s1.emit (evr 0x5001 (0x20 + n) 0 n peer reason)).orphanTags n
  let s3 := (s2.fput (rLinkStatus n) fLinkStatusPeerReady 0).fput (rLinkStatus n) fLinkStatusTableOk 0
  let s4 := (s3.clearLink n).modLink n fun l => { l with mismatch := false, peerDigest := none }
  (s4.ringUses n).foldl (fun s g => s.groupReport g.1 0x5001 g.2 false) s4

/-- A failure to reach SHUTTERED: back to DETECT, with one record at the first and at every 64th further one (R284). -/
def State.trainFail (s : State) (n : Nat) : State :=
  let f := (s.link n).fails + 1
  let s1 := ((s.linkGo n lsDetect).clearLink n).modLink n fun l => { l with fails := f }
  if (f - 1) % 64 = 0 then s1.emit (evr 0x5002 (0x20 + n) 0 n) else s1

/-- SHUTTERED to OPEN once both READY bits are 1 (R284): START goes first, credits and indices start again, and the groups that
had reported the link down hear that it is back (R357). -/
def State.openTry (s : State) (n : Nat) : State :=
  if s.linkState n = lsShuttered ∧ s.flag (rLinkCtl n) fLinkCtlOpen ∧ s.flag (rLinkStatus n) fLinkStatusPeerReady then
    let s1 := (s.linkGo n lsOpen).modLink n fun l => { l with credits := 256, toReturn := 0, txIdx := 0, serve := none, ctlOut := .mgmt 4 0 :: l.ctlOut }
    let s2 := s1.emit (evr 0x5003 (0x20 + n) 0 n (s.fget (rLinkStatus n) fLinkStatusPeerId))
    (s2.ringUses n).foldl (fun s g =>
      if (s.group g.1).faults.any fun f => f.1 == 0x5001 && f.2.1 == s.gPos g.1 && f.2.2.1 == g.2 then s.groupReport g.1 0x5001 g.2 true else s) s2
  else s

/-- TABLE_OK while the digests match, with one LINK_TABLE_MISMATCH record for a mismatch (R271). -/
def State.tableCheck (s : State) (n : Nat) : State :=
  match (s.link n).peerDigest with
  | none => s
  | some d =>
    let ok := d == s.slotDigest n (rLinkRxslot n)
    let s1 := s.fput (rLinkStatus n) fLinkStatusTableOk (bton ok)
    let s2 := s1.modLink n fun l => { l with mismatch := !ok }
    if !ok && !(s.link n).mismatch then s2.emit (evr 0x5008 (0x20 + n) 0 n) else s2

/-- PEER_READY follows the partner's last READY, but is forced to 0 while the partner is not the one that LINK_PEER_EXP expects and the link is not
OPEN; LINK_PEER_MISMATCH is written when that begins, or when another such partner answers (R286). -/
def State.peerCheck (s : State) (n : Nat) (other : Bool) : State :=
  let l := s.link n
  let dev := s.fget (rLinkStatus n) fLinkStatusPeerId
  let want := s.fget (rLinkPeerExp n) fLinkPeerExpDev
  if !l.identSeen then s
  else
    let wrong := s.linkState n != lsOpen && !s.flag (rLinkPeerExp n) fLinkPeerExpAny && want != dev
    let s1 := (s.fput (rLinkStatus n) fLinkStatusPeerReady (bton (l.peerReady && !wrong))).modLink n fun l => { l with wrongPeer := wrong }
    if wrong && (other || !l.wrongPeer) then s1.emit (evr 0x5004 (0x20 + n) 0 want dev) else s1

/-- A group message of the boot exchange: no group, no epoch (R421). -/
def bootMsg : GMsg := ⟨0, 0, 0, false, 0⟩

/-- The next message of an image that link 0 serves to a neighbour, and the chunk after it (R421): 8 bytes of the running image, or BOOT_END. -/
def State.bootNext (s : State) : Option (CtlMsg × Option Nat) :=
  match (s.link 0).serve, s.hearth.img with
  | some i, some img =>
    if 8 * i < 4096 + img.len then
      some (.group 6 { bootMsg with arg := BitVec.ofNat 24 i, value := BitVec.ofNat 64 (leNat (s.runBytes img (8 * i) (min 8 (4096 + img.len - 8 * i)))) }, some (i + 1))
    else some (.group 7 { bootMsg with value := BitVec.ofNat 64 (4096 + img.len) }, none)
  | _, _ => none

/-- IDENT to SHUTTERED once an IDENT and an ECHO have arrived (R284); a boot ROM that waits for link 0 then sends its BOOT_REQ (R421). -/
def State.identReach (s : State) (n : Nat) : State :=
  if s.linkState n = lsIdent ∧ (s.link n).identSeen ∧ (s.link n).echoSeen then
    let s1 := (((s.linkGo n lsShuttered).modLink n fun l => { l with fails := 0 }).sendIdent n).openTry n
    if n = 0 ∧ s.hearth.boot = .neighbour then s1.ctlSend 0 (.group 5 bootMsg) else s1
  else s

/-- The Housekeeper has loaded new tables (R271): the digest is sent again and compared again. -/
def State.tablesLoaded (s : State) (n : Nat) : State := (s.sendIdent n).tableCheck n

/-- A message is taken from those received. -/
def State.ctlTake (s : State) (n : Nat) (m : CtlMsg) : State :=
  if (s.link n).ctlIn.contains m then s.modLink n fun l => { l with ctlIn := dropFirst (fun x => x == m) l.ctlIn } else s

/-- Does the link accept management messages (R277)? -/
def State.linkTalks (s : State) (n : Nat) : Bool :=
  decide (lsIdent ≤ s.linkState n)

/-! ### Frames -/

/-- Bytes of a frame: frame byte, control message, bulk (R269). -/
def frameBytes (kind blen credit bits : Nat) (bulk : Bytes) : Bytes :=
  natBytes 1 (kind * 32 + blen * 4 + credit) ++ natBytes 15 bits ++ slice bulk 0 496

/-- Send one frame (R269 to R275, R280); then the station passes on what the frame has made room for. -/
def State.frameTx (s : State) (n : Nat) : State :=
  if !s.linkTalks n then s
  else
    let l := s.link n
    let opened := s.linkState n == lsOpen
    let cr := if opened then min 3 l.toReturn else 0
    let ent := s.entry16 (rLinkTxslot n) (l.txIdx % s.framePeriod n)
    let f := if l.still then stillFlow else ent % 64
    let buf := s.egress n f
    let want := opened && s.flag (rLinkStatus n) fLinkStatusTableOk && !s.flag (rLinkStatus n) fLinkStatusBulkUnreach
      && (l.still || bitN ent 15) && decide (buf ≠ [])
    let go := want && decide (0 < l.credits)
    let bulk := if go then buf.take 496 else []
    let blen := if bulk.length = 496 then 7 else (bulk.length + 127) / 128
    let beats := ((128 - buf.length % 128) % 128 + bulk.length) / 128
    let boot := if n = 0 && l.ctlOut == [] then s.bootNext else none
    let msg := l.ctlOut.head?.orElse fun _ => boot.map Prod.fst
    let out := match msg with
      | some m => frameBytes (ctlKind m) blen cr (ctlBits m) bulk
      | none => frameBytes 0 blen cr 0 bulk
    let s1 := s.modLink n fun l => { l with
      ctlOut := l.ctlOut.tail, serve := if boot.isSome then boot.bind Prod.snd else l.serve, toReturn := l.toReturn - cr, txIdx := if opened then l.txIdx + 1 else l.txIdx,
      credits := if go then l.credits - 1 else l.credits,
      egress := if go then sset (fun _ => []) l.egress f (buf.drop 496) else l.egress }
    let s2 := ((s1.count (rLinkFramesTxCnt n) (bton opened)).count (rLinkBulkTxCnt n) bulk.length).count (rLinkCtlTxCnt n) (bton msg.isSome)
    let s3 := s2.count (rLinkNocreditCnt n) (bton (want && !go))
    let s4 := if go && decide (0 < beats) && f ≠ stillFlow then s3.creditPost n f beats else s3
    let s5 := (s4.wirePump n).gathPosts n
    { s5 with sent := s5.sent ++ [.linkFrame ⟨n % 24, Nat.mod_lt _ (by decide)⟩ out] }

/-- LINK_FRAME_TX (R274): the frame of one frame time. -/
def execLinkFrameTx (n : LinkId) (s : State) : Res := .next (s.frameTx n.val)

/-- A control message arrives in a frame: counted, and kept for its own command unless its kind or type is discarded
(R276, R277, R284, R289, R308, R421). -/
def State.ctlRx (s : State) (n : Nat) (m : CtlMsg) : State :=
  let st := s.linkState n
  let s1 := s.count (rLinkCtlRxCnt n) 1
  let keep := s1.modLink n fun l => { l with ctlIn := l.ctlIn ++ [m] }
  match m with
  | .other _ _ => s1.count (rLinkCtlBadCnt n) 1
  | .mgmt t _ => if t.toNat < 5 then keep else s1
  | .group t _ =>
    let boot := decide (5 ≤ t.toNat) && decide (t.toNat ≤ 7)
    if st = lsShuttered then (if boot then keep else s1)
    else if st = lsOpen then (if boot || t == 0 || (s.link n).mode then s1.count (rLinkCtlBadCnt n) 1 else keep)
    else s1
  | _ => if st = lsOpen then keep else s1

/-- Take one frame's bulk (R269, R272, R275): into the ingress buffer, or discarded with its credit returned (R282) (log entry 80, DEDUCED). -/
def State.bulkRx (s : State) (n f blen : Nat) (bulk : Bytes) : State :=
  let l := s.link n
  let ph := sget (fun _ => 0) l.rxPhase f
  let len := if blen = 7 then 496 else if 5 ≤ blen then 0 else min 496 (128 * blen - ph)
  if len = 0 then s
  else
    let b := slice bulk 0 len
    let l1 := { l with rxPhase := sset (fun _ => 0) l.rxPhase f ((ph + len) % 128) }
    (s.setLink n (if l.discard.contains f then { l1 with toReturn := l1.toReturn + 1 } else { l1 with ingress := l1.ingress ++ [(f, b)] })).count
      (rLinkBulkRxCnt n) len

/-- LINK_FRAME_RX (R269): a whole frame (log entry 79, DEDUCED). One with a message waits while 64 messages received are not dispatched (R279) (log
entry 82, DESIGN CHOICE). -/
def execLinkFrameRx (n : LinkId) (frame : Bytes) (s : State) : Res :=
  let n := n.val
  if !s.linkTalks n || (leAt frame 0 1 / 32 != 0 && decide (64 ≤ (s.link n).ctlIn.length)) then .next s
  else
    let opened := s.linkState n == lsOpen
    let b0 := leAt frame 0 1
    let m := ctlOf (b0 / 32) (leAt frame 1 15)
    let start := match m with
      | .mgmt t _ => b0 / 32 == 4 && t == 4
      | _ => false
    let idx := if start then some 0 else (s.link n).rxIdx
    let s1 := if b0 / 32 = 0 then s else s.ctlRx n m
    let s2 := s1.modLink n fun l => { l with credits := if opened then l.credits + b0 % 4 else l.credits, rxIdx := idx.map (· + 1) }
    match idx with
    | none => .next s2
    | some i =>
      let ent := s.entry16 (rLinkRxslot n) (i % s.framePeriod n)
      .next (if opened && bitN ent 15 && !s.flag (rLinkStatus n) fLinkStatusBulkUnreach then s2.bulkRx n (ent % 64) (b0 / 4 % 8) (slice frame 16 496) else s2)

/-- LINK_CODEWORD_RX (R268): corrected bytes are counted and watched over the last millisecond, with one record each time they come to exceed
CORR_ALARM; a bad codeword in OPEN takes the link DOWN. -/
def execLinkCodewordRx (n : LinkId) (corrected : BitVec 4) (bad : Bool) (s : State) : Res :=
  let n := n.val
  if s.linkState n < lsAlign ∨ s.linkState n = lsDown then .next s
  else if bad then .next (if s.linkState n = lsOpen then s.goDown n 2 else s)
  else
    let k := min 12 corrected.toNat
    let l := s.link n
    let live := l.corrs.filter fun e => decide (s.now < e.1 + unitsMs)
    let alarm := s.fget (rLinkCfg n) fLinkCfgCorrAlarm
    let sum := (live.map Prod.snd).sum + k
    let known := l.degraded && decide (alarm < (live.map Prod.snd).sum)
    let above := decide (alarm < sum)
    let s1 := (s.count (rLinkFecCorrCnt n) k).modLink n fun l =>
      { l with corrs := if k = 0 then live else live ++ [(s.now, k)], degraded := known || above }
    .next (if above && !known then s1.emit (evr 0x5007 (0x20 + n) 0 n sum) else s1)

/-! ### Training -/

/-- A change of training state, taken only from the state that awaits it. -/
def State.trainStep (s : State) (n from_ : Nat) (f : State → State) : State := if s.linkState n = from_ then f s else s

/-- LINK_SIGNAL_DETECT (R284, R289): MODE takes effect at training. -/
def execLinkSignalDetect (n : LinkId) (s : State) : Res :=
  .next (s.trainStep n.val lsDetect fun s => (s.linkGo n.val lsTrain).modLink n.val fun l => { l with mode := s.flag (rLinkCtl n.val) fLinkCtlMode })

/-- LINK_TRAIN_DONE (R284); under CLK_MODE = 10 the reference moves to link 0 as it reaches ALIGN (R395). -/
def execLinkTrainDone (n : LinkId) (s : State) : Res :=
  .next (s.trainStep n.val lsTrain fun s =>
    let s1 := s.linkGo n.val lsAlign
    if n.val = 0 ∧ s.fget rStartStatus fStartStatusClkMode = 2 ∧ !s.flag rEbcStatus fEbcStatusRefFailover then s1.fput rEbcStatus fEbcStatusRefSrc 2 else s1)

/-- LINK_TRAIN_TIMEOUT (R284) (log entry 17, DESIGN CHOICE). -/
def execLinkTrainTimeout (n : LinkId) (s : State) : Res := .next (s.trainStep n.val lsTrain fun s => s.trainFail n.val)

/-- LINK_ALIGN_DONE (R284): IDENT and PROBE are sent. -/
def execLinkAlignDone (n : LinkId) (s : State) : Res :=
  .next (s.trainStep n.val lsAlign fun s =>
    let s1 := (s.linkGo n.val lsIdent).clearLink n.val
    (s1.sendIdent n.val).ctlSend n.val (.mgmt 1 (BitVec.ofNat 116 s.frameStamp)))

/-- LINK_ALIGN_TIMEOUT (R284). -/
def execLinkAlignTimeout (n : LinkId) (s : State) : Res := .next (s.trainStep n.val lsAlign fun s => s.trainFail n.val)

/-- LINK_IDENT_TIMEOUT (R284). -/
def execLinkIdentTimeout (n : LinkId) (s : State) : Res := .next (s.trainStep n.val lsIdent fun s => s.trainFail n.val)

/-- LINK_DOWN_EXPIRY (R284): after 1 ms in DOWN. -/
def execLinkDownExpiry (n : LinkId) (s : State) : Res := .next (s.trainStep n.val lsDown fun s => s.linkGo n.val lsDetect)

/-- LINK_LOSS_OF_SIGNAL (R287): reason 0, or 1 for loss of lock (log entry 78, DEDUCED). -/
def execLinkLossOfSignal (n : LinkId) (lock : Bool) (s : State) : Res :=
  .next (s.trainStep n.val lsOpen fun s => s.goDown n.val (bton lock))

/-- LINK_NO_CODEWORD (R287). -/
def execLinkNoCodeword (n : LinkId) (s : State) : Res := .next (s.trainStep n.val lsOpen fun s => s.goDown n.val 3)

/-- LINK_OPEN (R285): OPEN = 1 is stored and the new READY sent. -/
def execLinkOpen (n : LinkId) (s : State) : Res :=
  .next (((s.fput (rLinkCtl n.val) fLinkCtlOpen 1).sendIdent n.val).openTry n.val)

/-- LINK_CLOSE (R285): OPEN = 0 is stored; an open link sends CLOSE and returns to SHUTTERED. -/
def execLinkClose (n : LinkId) (s : State) : Res :=
  let n := n.val
  let s1 := s.fput (rLinkCtl n) fLinkCtlOpen 0
  if s.linkState n = lsOpen then
    let s2 := ((s1.linkGo n lsShuttered).holdEnd n).modLink n fun l => l.cleared
    .next ((s2.ctlSend n (.mgmt 3 0)).sendIdent n)
  else .next (s1.sendIdent n)

/-- LINK_RETRAIN (R290): reason 6. -/
def execLinkRetrain (n : LinkId) (s : State) : Res :=
  .next (if s.linkState n.val = lsDisabled ∨ s.linkState n.val = lsDown then s else s.goDown n.val 6)

/-- LINK_ENABLE (R284). -/
def execLinkEnable (n : LinkId) (s : State) : Res :=
  .next ((s.fput (rLinkCtl n.val) fLinkCtlEnable 1).trainStep n.val lsDisabled fun s => s.linkGo n.val lsDetect)

/-- LINK_DISABLE (R287): an open link goes DOWN first. -/
def execLinkDisable (n : LinkId) (s : State) : Res :=
  let n := n.val
  let s1 := s.fput (rLinkCtl n) fLinkCtlEnable 0
  let s2 := if s.linkState n = lsOpen then s1.goDown n 6 else s1.clearLink n
  .next (s2.linkGo n lsDisabled)

/-! ### Management messages received -/

/-- MGMT_IDENT (R277, R284, R286, R287, R271) (log entry 83, DEDUCED). -/
def execMgmtIdent (n : LinkId) (dev : BitVec 24) (plink : BitVec 5) (ready nuore : Bool) (digest : BitVec 32) (s : State) : Res :=
  let n := n.val
  let s0 := s.ctlTake n (.mgmt 0 (BitVec.ofNat 116 (dev.toNat * 2 ^ 92 + plink.toNat * 2 ^ 87 + bton ready * 2 ^ 86 + bton nuore * 2 ^ 85 + digest.toNat * 2 ^ 53)))
  let l := s.link n
  let old := s.fget (rLinkStatus n) fLinkStatusPeerId
  let named (s : State) : State := (s.fput (rLinkStatus n) fLinkStatusPeerId dev.toNat).fput (rLinkStatus n) fLinkStatusPeerLink plink.toNat
  if !s.linkTalks n then .next s
  else if s.linkState n = lsOpen ∧ old ≠ dev.toNat then .next (named (s0.goDown n 5))
  else if s.linkState n = lsDown then .next (named s0)
  else if nuore ≠ l.mode then .next (named (s0.trainFail n))
  else
    let s1 := (named s0).modLink n fun l => { l with identSeen := true, peerNuore := nuore, peerDigest := some digest, peerReady := ready }
    .next ((((s1.peerCheck n (old != dev.toNat)).tableCheck n).identReach n).openTry n)

/-- MGMT_PROBE (R277): answered with an ECHO of its stamp. -/
def execMgmtProbe (n : LinkId) (stamp : BitVec 48) (s : State) : Res :=
  .next (if s.linkTalks n.val then (s.ctlTake n.val (.mgmt 1 (stamp.setWidth 116))).ctlSend n.val (.mgmt 2 (stamp.setWidth 116)) else s)

/-- MGMT_ECHO (R277, R284): in IDENT the latency is half the round trip. -/
def execMgmtEcho (n : LinkId) (stamp : BitVec 48) (s : State) : Res :=
  let n := n.val
  let s0 := s.ctlTake n (.mgmt 2 (stamp.setWidth 116))
  if s.linkState n = lsIdent then
    let d := (s.frameStamp + 2 ^ 48 - stamp.toNat) % 2 ^ 48
    .next (((s0.fput (rLinkLat n) fLinkLatLatPs (1280 * d)).modLink n fun l => { l with echoSeen := true }).identReach n)
  else .next s0

/-- MGMT_CLOSE (R287): the partner closed its shutter. -/
def execMgmtClose (n : LinkId) (s : State) : Res :=
  let s0 := s.ctlTake n.val (.mgmt 3 0)
  .next (if s.linkState n.val = lsOpen then s0.goDown n.val 4 else s0)

/-- MGMT_START (R270): the frame that carried START has index 0. -/
def execMgmtStart (n : LinkId) (s : State) : Res :=
  let s0 := s.ctlTake n.val (.mgmt 4 0)
  .next (if s.linkTalks n.val && (s.link n.val).rxIdx.isNone then s0.modLink n.val fun l => { l with rxIdx := some 0 } else s0)

/-! ### Bulk between the hall and the link -/

/-- LINK_EGRESS_BEAT (R272, R273, R283, R288): the lane map is looked up in the slot in which the edge core sent the beat. -/
def execLinkEgressBeat (n : LinkId) (lane : Fin 3) (data : Bytes) (s : State) : Res :=
  let n := n.val
  let s0 : State := { s with beats := dropFirst (fun e => e.dest == laneKey n lane.val) s.beats }
  let ent := s.laneMapAt n lane.val (match s.beats.find? fun e => e.dest == laneKey n lane.val with
    | some b => b.inp
    | none => s.slot)
  let f := ent / 256 % 64
  let s1 := s0.count (rEdgeBeatsOut (linkHall n) (linkRouter n)) 1
  if !bitN ent 15 then .next (s1.count (rLinkDiscardCnt n) 1)
  else if s.linkState n ≠ lsOpen then .next ((s1.count (rLinkDiscardCnt n) 1).creditPost n f 1)
  else
    let b := slice data 0 128
    let r := sget (fun _ => 0) (s.link n).reserved f
    if 0 < r then
      .next ((s1.modLink n fun l => { l with reserved := sset (fun _ => 0) l.reserved f (r - 1) }).egPush n f b)
    else if 0 < s.egRoom n f then .next (s1.egPush n f b)
    else
      let k : CtxId := ⟨s.fget (rLinkFlow n f) fLinkFlowCtx % 8, Nat.mod_lt _ (by decide)⟩
      .next (s1.faultCtx k (evr 0x5005 (0x20 + n) 0 n f s.slot))

/-- Remove the next `need` bytes of flow `f` from the ingress entries; entries emptied are counted. -/
def eatFlow (f : Nat) : Nat → List (Nat × Bytes) → List (Nat × Bytes) × Nat
  | _, [] => ([], 0)
  | need, e :: es =>
    if e.1 ≠ f ∨ need = 0 then
      let r := eatFlow f need es
      (e :: r.1, r.2)
    else if e.2.length ≤ need then
      let r := eatFlow f (need - e.2.length) es
      (r.1, r.2 + 1)
    else ((e.1, e.2.drop need) :: es, 0)

/-- The links named in a flow's FWD mask (R281), and those to which its beats go: a Nuore-compatible link forwards nothing (R289). -/
def State.fwdMask (s : State) (n f : Nat) : List Nat := (List.range 24).filter fun k => bitN (s.fget (rLinkFlowFwd n f) fLinkFlowFwdFwd) k
def State.fwdLinks (s : State) (n f : Nat) : List Nat := if (s.link n).mode then [] else s.fwdMask n f

/-- Records that wait in a station's UP_FLOW buffer: a header beat, and BEATS more. -/
def recsIn : Nat → Bytes → Nat
  | 0, _ => 0
  | fuel + 1, b => if b.length = 0 then 0 else 1 + recsIn fuel (b.drop (128 * (1 + leAt b 6 1)))

/-- Is link `k` a station that takes flow `f` as its UP_FLOW (R294)? -/
def State.feeds (s : State) (k f : Nat) : Bool := s.flag (rQst k) fQstV && s.fget (rQst k) fQstUpFlow == f

/-- May the ingress router release the next beat of a record to the station of link `k` (R295, R305, R311, R344)? `at_` is what is left of the present record
and its header, `beat` the beat. A contribution needs a bucket and a slot of the combine buffer, a gather a slot and onward egress space, a record that
travels on egress space, an exchanged sample a RESERVE slot. What the station will discard needs nothing (log entry 203, DEDUCED). -/
def State.stationTakes (s : State) (k : Nat) (at_ : Nat × Bytes) (beat : Bytes) : Bool :=
  let head := at_.1 == 0
  let h := qhdrOf (if head then beat else at_.2)
  let up := s.egress k (s.fget (rQst k) fQstUpFlow)
  let slot := decide ((s.link k).slotsUsed + recsIn up.length up < 2048) || !head
  let onward := s.linkState k != lsOpen || decide (0 < s.egRoom k (s.fget (rQst k) fQstWireFlow))
  if !s.recOk k h || h.epoch != s.gEpoch h.group then true
  else match h.kind with
    | 0 => !head || (s.bucketRoom h.group h.tag && slot)
    | 1 => slot && (onward || match s.readPlan k h.group h.tag with
        | .ok p => s.lastFrom h.group p.owner p.dir
        | .error _ => true)
    | 2 => if h.lands then !head || (s.landSlot (leAt h.mid 0 2) (leAt h.mid 4 4)).isSome else onward
    | 3 => h.lands || onward
    | _ => true

/-- The next beat of ingress flow `f` of link `n`, and what its record has left. -/
def State.nextBeat (s : State) (n f : Nat) : Bytes := (((s.link n).ingress.filter fun e => e.1 == f).flatMap Prod.snd).take 128
def State.recLeft (s : State) (n f : Nat) : Nat × Bytes := sget (fun _ => (0, [])) (s.link n).recAt f

/-- The branches of a forwarded flow that lack space (R281, R288): egress space for the flow, or what a station there needs for the beat. -/
def State.lackMask (s : State) (n f : Nat) : List Nat :=
  (s.fwdLinks n f).filter fun k => decide (s.linkState k ≠ lsOpen) || decide (s.egRoom k f = 0)
    || (s.feeds k f && !s.stationTakes k (s.recLeft n f) (s.nextBeat n f))

/-- A beat of a flow that feeds a station has been released: its record goes on, or begins with it. -/
def State.recPass (s : State) (n f : Nat) (beat : Bytes) : State :=
  if (s.fwdLinks n f).any fun k => s.feeds k f then
    let r := s.recLeft n f
    s.modLink n fun l => { l with recAt := sset (fun _ => (0, [])) l.recAt f (if r.1 = 0 then (if leAt beat 6 1 = 0 then (0, []) else (leAt beat 6 1, beat))
      else if r.1 = 1 then (0, []) else (r.1 - 1, r.2)) }
  else s

/-- LINK_INGRESS_RELEASE (R272, R281): the next buffered beat of the slot's ingress flow enters the hall, all-or-wait. -/
def execLinkIngressRelease (n : LinkId) (lane : Fin 3) (s : State) : Res :=
  let n := n.val
  let ent := s.laneMap n lane.val
  let f := ent % 64
  let l := s.link n
  let buf := (l.ingress.filter fun e => e.1 == f).flatMap Prod.snd
  if !bitN ent 7 ∨ buf.length < 128 ∨ s.flag (rLinkStatus n) fLinkStatusBulkUnreach then .next s
  else if s.lackMask n f ≠ [] then .next (s.setHeld n f true)
  else
    let r := eatFlow f 128 l.ingress
    let s1 := (s.fwdLinks n f).foldl (fun s k => s.modLink k fun l =>
      { l with reserved := sset (fun _ => 0) l.reserved f (sget (fun _ => 0) l.reserved f + 1) }) s
    let s2 := ((s1.setHeld n f false).recPass n f (buf.take 128)).modLink n fun l => { l with ingress := r.1, toReturn := l.toReturn + r.2 }
    .next (({ s2 with beats := s2.beats ++ [⟨linkEdge n, laneInput n lane.val, s.cc + 1, 1152, buf.take 128⟩] } : State).count
      (rEdgeBeatsIn (linkHall n) (linkRouter n)) 1)

/-- MCAST_STALL (R282): the held flow is discarded and its context stopped (log entry 163, DEDUCED). -/
def execMcastStall (n : LinkId) (flow : BitVec 6) (s : State) : Res :=
  let n := n.val
  let f := flow.toNat
  if !(s.link n).heldAt.any fun e => e.1 == f then .next s
  else
    let k : CtxId := ⟨s.fget (rLinkFlow n f) fLinkFlowCtx % 8, Nat.mod_lt _ (by decide)⟩
    let mask := (s.lackMask n f).foldl (fun m k => m + 2 ^ k) 0
    let s1 := (s.setHeld n f false).modLink n fun l => { l with
      toReturn := l.toReturn + (l.ingress.filter fun e => e.1 == f).length
      ingress := l.ingress.filter fun e => e.1 != f
      recAt := l.recAt.filter fun e => e.1 != f
      discard := if l.discard.contains f then l.discard else l.discard ++ [f] }
    .next (s1.faultCtx k (evr 0x6002 (0x20 + n) 0 n f mask))

/-! ### Control messages for semaphores -/

/-- The context that a group's table entry names for a remote request (R222) (log entry 74, DEDUCED). -/
def State.remoteCtx (s : State) (g : Nat) : Option CtxId := if s.gValid g then some (s.gCtx g) else none

/-- KFL_SEM_ADD (R276, R279): routed on, or served by this device's semaphore unit. A link that is not OPEN has discarded it (R284); one to be routed on
waits while the control queue of its output link is full (R279). -/
def execKflSemAdd (n : LinkId) (dst src : BitVec 24) (group : BitVec 10) (vsem : BitVec 14) (addend : BitVec 32) (s : State) : Res :=
  let m := CtlMsg.semAdd dst src group vsem addend
  let s0 := s.ctlTake n.val m
  if s.linkState n.val ≠ lsOpen then .next s0
  else if dst.toNat ≠ s.devId then .next (if s.ctlStuck dst.toNat then s else s0.ctlRoute (0x20 + n.val) dst.toNat m)
  else match s.remoteCtx group.toNat with
    | some k => .next (if s.clearing k.val then s0 else s0.semAddReq (.remote src.toNat) k vsem.toNat addend.toInt)
    | none => .next ((s0.semCount true).semRefuse (.remote src.toNat) (s.gCtx group.toNat) vsem.toNat .add 0)

/-- KFL_SEM_WATCH (R276, R278). -/
def execKflSemWatch (n : LinkId) (dst src : BitVec 24) (group : BitVec 10) (vsem : BitVec 14) (rlink : BitVec 5) (rtag : BitVec 6)
    (cond : BitVec 2) (value : BitVec 32) (s : State) : Res :=
  let m := CtlMsg.semWatch dst src group vsem rlink rtag cond value
  let s0 := s.ctlTake n.val m
  if s.linkState n.val ≠ lsOpen then .next s0
  else if dst.toNat ≠ s.devId then .next (if s.ctlStuck dst.toNat then s else s0.ctlRoute (0x20 + n.val) dst.toNat m)
  else match s.remoteCtx group.toNat with
    | some k => .next (if s.clearing k.val then s0 else s0.semWatchReq k (cond == 1) vsem value (.remote src rlink rtag))
    | none =>
      let k := s.gCtx group.toNat
      .next (((s0.semCount true).semRefuse (.remote src.toNat) k vsem.toNat .watch 0).fireWatch ⟨0, k, cond == 1, value, .remote src rlink rtag⟩ true)

/-- KFL_WATCH_FIRE (R278): forwarded to the recorded core and the tag freed into quarantine. -/
def execKflWatchFire (n : LinkId) (dst src : BitVec 24) (rlink : BitVec 5) (rtag : BitVec 6) (orphan : Bool) (s : State) : Res :=
  let m := CtlMsg.watchFire dst src rlink rtag orphan
  let s0 := s.ctlTake n.val m
  if s.linkState n.val ≠ lsOpen then .next s0
  else if dst.toNat ≠ s.devId then .next (if s.ctlStuck dst.toNat then s else s0.ctlRoute (0x20 + n.val) dst.toNat m)
  else
    let r := rlink.toNat
    match (s.link r).tags.find? fun t => t.tag == rtag.toNat && !t.quarantine with
    | some t =>
      .next ((s0.modLink r fun l => { l with tags := l.tags.map fun u => if u.tag = t.tag then { u with quarantine := true } else u }).bellToCore
        5 t.ctx.val t.core (bton orphan * 64 + t.sc.toNat) [])
    | none => .next (s0.count (rLinkStaleCnt (if r < 24 then r else n.val)) 1)

/-- A remote request whose DEVICE is this device is served as a local one (R226); any other is sent with a tag (R278). -/
def State.routerWatch (s : State) (n : Nat) (c : CoreId) (k : CtxId) (sc : BitVec 6) (cond : BitVec 2) (dev : BitVec 24) (vsem : BitVec 14)
    (value : BitVec 32) : State :=
  if dev.toNat = s.devId then s.semWatchReq k (cond == 1) vsem value (.core c sc)
  else match (List.range 64).find? fun t => !(s.link n).tags.any fun u => u.tag == t with
    | none => s
    | some t =>
      (s.modLink n fun l => { l with tags := l.tags ++ [⟨t, c, sc, k, false⟩] }).ctlRoute (0x20 + n) dev.toNat
        (.semWatch dev (BitVec.ofNat 24 s.devId) (BitVec.ofNat 10 (s.fget (rKflCtxGroup k.val) fKflCtxGroupGroup)) vsem (BitVec.ofNat 5 n)
          (BitVec.ofNat 6 t) cond value)

/-- Has the link router a free tag (R278)? -/
def State.tagFree (s : State) (n : Nat) : Bool := decide ((s.link n).tags.length < 64)

/-- LINK_ROUTER_WATCH (R278): a remote GWATCH reaches its link router; with all tags in use it is not accepted. -/
def execLinkRouterWatch (n : LinkId) (c : CoreId) (k : CtxId) (sc : BitVec 6) (cond : BitVec 2) (dev : BitVec 24) (vsem : BitVec 14)
    (value : BitVec 32) (s : State) : Res :=
  if dev.toNat ≠ s.devId ∧ (!s.tagFree n.val || s.ctlStuck dev.toNat) = true then .next s
  else
    let w0 := BitVec.ofNat 32 (cond.toNat * 2 ^ 30 + sc.toNat * 2 ^ 14 + vsem.toNat)
    s.delivered ⟨3, k, some c.pos, none, some [dev.setWidth 32, w0, value]⟩ fun s0 => s0.routerWatch n.val c k sc cond dev vsem value

/-- TAG_QUARANTINE_END (R278): 1,000 us after it was freed. -/
def execTagQuarantineEnd (n : LinkId) (tag : BitVec 6) (s : State) : Res :=
  .next (s.modLink n.val fun l => { l with tags := l.tags.filter fun t => !(t.tag == tag.toNat && t.quarantine) })

end Sys2Proof.Machine
end

