-- ==== Sys2Proof/Machine/Transc.lean ====
section
/-! DEFINITION. Sys2Proof/Machine/Transc.lean: the correctly rounded functions of class V3 (R162), computed in 320-bit fixed point and rounded once (assumption 8). -/

namespace Sys2Proof.Machine

/-- Fraction bits of the fixed-point arithmetic. -/
def fxBits : Nat := 320

/-- One in fixed point. -/
def fxOne : Nat := 2 ^ fxBits

/-- sum of z^(2n+1)/(2n+1) from n on, for a fixed-point z below 1: `p` is z^(2n+1). -/
def atanhSum : Nat → Nat → Nat → Nat → Nat
  | 0, _, _, _ => 0
  | fuel + 1, z2, p, n => p / (2 * n + 1) + atanhSum fuel z2 (p * z2 / fxOne) (n + 1)

/-- atanh of a fixed-point number up to 1/3. -/
def fxAtanh (z : Nat) : Nat := atanhSum 110 (z * z / fxOne) z 0

/-- ln 2 = 2 atanh(1/3). -/
def fxLn2 : Nat := 2 * fxAtanh (fxOne / 3)

/-- sum of r^n/n! from n on: `p` is r^n/n!. -/
def expSum : Nat → Nat → Nat → Nat → Nat
  | 0, _, _, _ => 0
  | fuel + 1, r, p, n => p + expSum fuel r (p * r / (fxOne * (n + 1))) (n + 1)

/-- A finite value in fixed point, toward minus infinity. -/
def fxOf (neg : Bool) (m : Nat) (e : Int) : Int :=
  let v : Int := if 0 ≤ e + fxBits then (m * 2 ^ (e + fxBits).toNat : Nat) else (m / 2 ^ (-(e + fxBits)).toNat : Nat)
  if neg then -v else v

/-- e^x of a fixed-point x as a fixed-point number in [1, 2) and a power of two. -/
def fxExp (x : Int) : Nat × Int :=
  let k := x / fxLn2
  (expSum 90 (x - k * fxLn2).toNat fxOne 0, k)

/-- VEXP (log entry 8, DESIGN CHOICE). -/
def vexp32 (v : BitVec 32) : BitVec 32 :=
  match f32 v with
  | .nan => 0x7FC00000
  | .inf b => if b then 0 else 0x7F800000
  | .fin b m e =>
    if m = 0 then 0x3F800000
    else if fpLt (.fin false 128 0) (.fin false m e) then (if b then 0 else 0x7F800000)
    else
      let r := fxExp (fxOf b m e)
      rn32 (.fin false r.1 (r.2 - fxBits))

/-- VLOG. -/
def vlog32 (v : BitVec 32) : BitVec 32 :=
  match f32 v with
  | .nan => 0x7FC00000
  | .inf b => if b then 0x7FC00000 else 0x7F800000
  | .fin b m e =>
    if m = 0 then 0xFF800000
    else if b then 0x7FC00000
    else if v = 0x3F800000 then 0
    else
      let l := Nat.log2 m
      let f := m * 2 ^ (fxBits - l)
      let z := (f - fxOne) * fxOne / (f + fxOne)
      let y : Int := (l + e) * (fxLn2 : Int) + 2 * fxAtanh z
      rn32 (fpOfInt y (-(fxBits : Int)))

/-- VRCP. -/
def vrcp32 (v : BitVec 32) : BitVec 32 := rn32 (fpDiv (.fin false 1 0) (f32 v))

/-- VRSQ. -/
def vrsq32 (v : BitVec 32) : BitVec 32 :=
  match f32 v with
  | .nan => 0x7FC00000
  | .inf b => if b then 0x7FC00000 else 0
  | .fin b m e =>
    if m = 0 then (if b then 0xFF800000 else 0x7F800000)
    else if b then 0x7FC00000
    else
      let n := if e % 2 = 0 then m else 2 * m
      let h := (e - e % 2) / 2
      let r := Nat.sqrt (2 ^ 520 / n)
      rn32 (.fin false (2 * r + bton (r * r * n != 2 ^ 520)) (-260 - h - 1))

/-- VTANH. -/
def vtanh32 (v : BitVec 32) : BitVec 32 :=
  match f32 v with
  | .nan => 0x7FC00000
  | .inf b => if b then 0xBF800000 else 0x3F800000
  | .fin b m e =>
    if m = 0 then v
    else if fpLt (.fin false 32 0) (.fin false m e) then (if b then 0xBF800000 else 0x3F800000)
    else
      let r := fxExp (2 * fxOf false m e)
      -- e^2x = r.1 * 2^k over fxOne, k at least 0.
      let g := r.1 * 2 ^ r.2.toNat
      rn32 (.fin b ((g - fxOne) * 2 ^ 400 / (g + fxOne)) (-400))

end Sys2Proof.Machine
end

