-- ==== Sys2Proof/Machine/CoreReg.lean ====
section
/-! DEFINITION. Sys2Proof/Machine/CoreReg.lean: a core's registers, tile file, core store and tile shapes as its instructions see them, the faults of an instruction, and when an instruction's row acts (R55, R57, R60, R72 to R76, R131). -/

namespace Sys2Proof.Machine

/-! ### Registers -/

/-- Scalar register S`i`. -/
def State.sreg (s : State) (c : CoreId) (i : BitVec 5) : Word := s.reg (rS c i.toNat)

/-- Write a scalar register. -/
def State.setS (s : State) (c : CoreId) (i : BitVec 5) (v : Word) : State := s.setReg (rS c i.toNat) v

/-- Vector register V`k`: 128 bytes, lane l at bytes 4l to 4l + 3 (R158). -/
def State.vreg (s : State) (c : CoreId) (k : BitVec 4) : Bytes := (List.range 16).flatMap fun m => natBytes 8 (s.reg (rV c k.toNat m)).toNat

/-- Registers `m` on of V`k` from 8-byte parts. -/
def State.setVParts (s : State) (c : CoreId) (k : Nat) (b : Bytes) : List Nat → State
  | [] => s
  | m :: ms => (s.setReg (rV c k m) (BitVec.ofNat 64 (leAt b (8 * m) 8))).setVParts c k b ms

/-- Write a vector register. -/
def State.setV (s : State) (c : CoreId) (k : BitVec 4) (b : Bytes) : State := s.setVParts c k.toNat b (List.range 16)

/-- A lane of 128 bytes. -/
def laneOf (b : Bytes) (l : Nat) : BitVec 32 := BitVec.ofNat 32 (leAt b (4 * l) 4)

/-- 128 bytes from a function of the lane. -/
def lanes (f : Nat → BitVec 32) : Bytes := (List.range 32).flatMap fun l => natBytes 4 (f l).toNat

/-- Index of the bundle in hand, PC.BUNDLE (R76). -/
def State.pc (s : State) (c : CoreId) : Nat := s.fget (rPc c) fPcBundle

/-- Set PC.BUNDLE, modulo 65,536 (R135). -/
def State.setPc (s : State) (c : CoreId) (v : Nat) : State := s.fput (rPc c) fPcBundle v

/-- LOOP_ENTRY.COUNT (R154) and the row count of a binding (R191). -/
def fLoopEntryCount : Fd := ⟨63, 32⟩
def fBindCntRows : Fd := ⟨15, 0⟩

/-! ### Core store and tile file -/

/-- Address of row `i` of T`n` in the tile-file window (R75). -/
def tileAddr (c : CoreId) (n i : Nat) : Nat := coreBase c + 0x240000 + n * 0x1000 + i * 0x80

/-- Row `i` of T`n`: 128 bytes. -/
def State.row (s : State) (c : CoreId) (n i : Nat) : Bytes := s.rdBytes (tileAddr c n i) 128

/-- Write a tile row: its data, then zeros to byte 127 (R473). -/
def State.setRow (s : State) (c : CoreId) (n i : Nat) (b : Bytes) : State := s.wrBytes (tileAddr c n i) (slice b 0 128)

/-- Bytes of the core store. -/
def State.rdStore (s : State) (c : CoreId) (off n : Nat) : Bytes := s.rdBytes (coreBase c + off) n

/-- Write bytes of the core store. -/
def State.wrStore (s : State) (c : CoreId) (off : Nat) (b : Bytes) : State := s.wrBytes (coreBase c + off) b

/-- Format, COLS, ROWS and RB of a tile (R60, R61): PWIDTH never exceeds 8 (log entry 161, DEDUCED). -/
def State.tFmt (s : State) (c : CoreId) (n : Nat) : EFmt :=
  ⟨s.fget (rTileCfg c n) fTileCfgFmt, min 8 (s.fget (rTileCfg c n) fTileCfgPwidth), s.flag (rTileCfg c n) fTileCfgUsgn⟩
def State.tCols (s : State) (c : CoreId) (n : Nat) : Nat := s.fget (rTileCfg c n) fTileCfgCols
def State.tRows (s : State) (c : CoreId) (n : Nat) : Nat := s.fget (rTileCfg c n) fTileCfgRows
def State.tRB (s : State) (c : CoreId) (n : Nat) : Nat := fmtRB (s.tFmt c n) (s.tCols c n)

/-- Is the tile's COLS legal for its FMT, and N within its ROWS (R62)? An N of 33 to 63 always exceeds ROWS (R140). -/
def State.tileOk (s : State) (c : CoreId) (t n : Nat) : Bool :=
  fmtColsOk (s.tFmt c t).fmt (s.tCols c t) && decide (n ≤ s.tRows c t) && decide (n ≤ 32)

/-- Does every row lie within the core store, in unbounded signed arithmetic (R65)? -/
def storeOk (b d : Int) (n w : Nat) : Bool :=
  let last := b + (n - 1 : Int) * d
  decide (n = 0) || (decide (0 ≤ b) && decide (0 ≤ last) && decide (b + w ≤ 0x200000) && decide (last + w ≤ 0x200000))

/-- S[SB] + OFF, in signed 64-bit arithmetic without wrap (R65, R140). -/
def State.storeAddr (s : State) (c : CoreId) (sb : BitVec 5) (off : BitVec 16) : Int := (s.sreg c sb).toInt + off.toInt

/-- S[SS][31:0] as a signed stride (R140). -/
def State.stride (s : State) (c : CoreId) (ss : BitVec 5) : Int := sextNat 32 (s.sreg c ss).toNat

/-! ### Faults of instructions (R131, R434) -/

/-- A record of a core's hall. -/
def coreRec (c : CoreId) (code : Nat) (p1 p2 p3 p4 p5 : Nat := 0) : EvRec := evr code c.hall.val 0 p1 p2 p3 p4 p5

/-- ILLEGAL_INSTR, TILE_SHAPE, CORE_STORE_RANGE, ARRAY_CHAIN and the other faults raised at issue. -/
def State.illegal (s : State) (c : CoreId) : EvRec := coreRec c 0x100B (s.pc c)
def State.tileShape (s : State) (c : CoreId) (ts : List Nat) : EvRec :=
  coreRec c 0x1001 (s.pc c) (ts.getD 0 0) (ts.getD 1 0) (ts.getD 2 0)
def State.storeRange (s : State) (c : CoreId) (b d : Int) (n : Nat) : EvRec :=
  coreRec c 0x1007 (s.pc c) (wordOfInt b).toNat (wordOfInt d).toNat n
def State.arrayChain (s : State) (c : CoreId) : EvRec := coreRec c 0x2003 (s.pc c)
def State.loopDepth (_s : State) (c : CoreId) : EvRec := coreRec c 0x100C
def State.streamDesc (s : State) (c : CoreId) : EvRec := coreRec c 0x100D (s.pc c)

/-! ### The operations of tiles, one row at a time -/

/-- An operation's row (R64, R473): the destination row that a load makes of core-store bytes. -/
def State.loadRow (s : State) (c : CoreId) (t : Nat) (b d : Int) (i : Nat) : Bytes := s.rdStore c (b + i * d).toNat (s.tRB c t)

/-- The bytes that a store takes from row `i` of a tile. -/
def State.storeRow (s : State) (c : CoreId) (t i : Nat) : Bytes := (s.row c t i).take (s.tRB c t)

/-! ### When a row acts -/

/-- May a bundle issue on the core: it runs, no stop has been asked for, it holds no step-end marker and waits in no GWAIT (R67, R137, R224)? -/
def State.canIssue (s : State) (c : CoreId) : Bool :=
  let x := s.core c
  s.run c && x.stopCause.isNone && x.marker == .none && !s.flag (rSyncStatus c) fSyncStatusGwaitPend

/-- Number the next operation (R69). -/
def State.nextOrder (s : State) (c : CoreId) : State := s.modCore c fun x => { x with order := x.order + 1 }

end Sys2Proof.Machine
end

