-- ==== Sys2Proof/Machine/VecFun.lean ====
section
/-! DEFINITION. Sys2Proof/Machine/VecFun.lean: the vector unit's functions on lanes and rows (R144, R145, R160 to R166). -/

namespace Sys2Proof.Machine

/-- Is the lane a NaN? -/
def nan32 (v : BitVec 32) : Bool := f32 v == .nan

/-- VMAX and VMIN of two lanes (R160, R161): the bits of the chosen operand; +0 counts above -0. -/
def vmax32 (a b : BitVec 32) : BitVec 32 :=
  match fpCmp (f32 a) (f32 b) with
  | none => 0x7FC00000
  | some .lt => b
  | some .gt => a
  | some .eq => if a.msb then b else a
def vmin32 (a b : BitVec 32) : BitVec 32 :=
  match fpCmp (f32 a) (f32 b) with
  | none => 0x7FC00000
  | some .lt => a
  | some .gt => b
  | some .eq => if a.msb then a else b

/-- VCMP's comparison (R144): 0 EQ, 1 NE, 2 LT, 3 LE, 4 GT, 5 GE. -/
def vcmp32 (cond : Nat) (a b : BitVec 32) : Bool :=
  match fpCmp (f32 a) (f32 b) with
  | none => cond == 1
  | some o =>
    match cond with
    | 0 => o == .eq
    | 1 => o != .eq
    | 2 => o == .lt
    | 3 => o != .gt
    | 4 => o == .gt
    | _ => o != .lt

/-- The lane function of an opcode (R144, R145). -/
def vfun (op cond : Nat) (a b c : BitVec 32) : BitVec 32 :=
  match op with
  | 0x01 => add32 a b
  | 0x02 => rn32 (fpAdd (f32 a) (fpNeg (f32 b)))
  | 0x03 => mul32 a b
  | 0x04 => fma32 a b c
  | 0x08 => if vcmp32 cond a b then 0xFFFFFFFF else 0
  | 0x09 => if c = 0 then b else a
  | 0x0A => a &&& b
  | 0x0B => a ||| b
  | 0x0C => a ^^^ b
  | 0x0D => vmin32 a b
  | 0x0E => vmax32 a b
  | 0x18 => vexp32 a
  | 0x19 => vlog32 a
  | 0x1A => vrcp32 a
  | 0x1B => vrsq32 a
  | _ => vtanh32 a

/-- Latency of a function in cc: 4 for V1, 2 for V2, 12 for V3 (R30, R145). -/
def vlat (op : Nat) : Nat := if op ≤ 0x04 then 4 else if op ≤ 0x10 then 2 else if op ≤ 0x1C then 12 else 7

/-- The lane-wise result of a register-form instruction. -/
def vlanes (op cond : Nat) (a b c : Bytes) : Bytes := lanes fun l => vfun op cond (laneOf a l) (laneOf b l) (laneOf c l)

/-- An exact sum: +0 when it is zero, unless every term is -0 (R163). -/
def exactSum (l : List Fp) : Fp :=
  if l.all fun x => match x with
    | .fin true 0 _ => true
    | _ => false
  then .fin true 0 0 else fpSum l

/-- VRSUM and VRMAX of a register (R163). -/
def vrsumOf (a : Bytes) : BitVec 32 := rn32 (exactSum ((List.range 32).map fun l => f32 (laneOf a l)))
def vrmaxOf (a : Bytes) : BitVec 32 := ((List.range 32).map (laneOf a)).foldl vmax32 0xFF800000

/-- The element of a 32-column FP32, BF16 or FP16 row as FP32 bits: widening is exact (R164). -/
def rowF32 (f : EFmt) (cols : Nat) (row : Bytes) (j : Nat) : BitVec 32 :=
  if f.fmt = 0 then laneOf row j else rn32 (decRowE f none cols row j)

/-- One row of TVOP (R164): 32 results, encoded in the destination's format. -/
def tvopRow (fa fd : EFmt) (op cond : Nat) (bcast : Bool) (i : Nat) (row vb vc : Bytes) : Bytes :=
  let at_ (v : Bytes) (j : Nat) : BitVec 32 := laneOf v (if bcast then i else j)
  let res (j : Nat) : BitVec 32 := vfun op cond (rowF32 fa 32 row j) (at_ vb j) (at_ vc j)
  if fd.fmt = 0 then lanes res else (List.range 32).flatMap fun j => natBytes 2 (encBits fd false (f32 (res j)))

/-- One lane of TRED (R166): the reduction of row `i`. -/
def tredLane (f : EFmt) (cols kind i : Nat) (row vb : Bytes) : BitVec 32 :=
  let a (j : Nat) : Fp := decRowE f none cols row j
  match kind with
  | 0 => rn32 (exactSum ((List.range 32).map a))
  | 1 => ((List.range 32).map fun j => rowF32 f cols row j).foldl vmax32 0xFF800000
  | 2 => rn32 (exactSum ((List.range 32).map fun j => f32 (vexp32 (rn32 (fpAdd (a j) (fpNeg (f32 (laneOf vb i))))))))
  | _ => rn32 (exactSum ((List.range 32).map fun j => fpMul (fpMul (a j) (if cols = 64 then a (32 + j) else a j)) (f32 (laneOf vb j))))

end Sys2Proof.Machine
end

