-- ==== Sys2Proof/Machine/TileOps.lean ====
section
/-! DEFINITION. Sys2Proof/Machine/TileOps.lean: the operations that take more than one cc as they are issued, what each holds (R28, R30, R58, R68), and their actions row by row (R64, R141, R164 to R166, R473). -/

namespace Sys2Proof.Machine

/-! ### What an operation holds -/

/-- Do two walks meet (R57, R59): they share a cc, and use one collector or port M there, or one bank in every shared cc? -/
def walksMeet (a b : WalkS) : Bool :=
  decide (a.start < b.start + b.len) && decide (b.start < a.start + a.len) &&
    ((match a.unit, b.unit with
      | some u, some v => u == v
      | _, _ => false) ||
     (match a.tile, b.tile with
      | some m, some n => (m + b.start) % 32 == (n + a.start) % 32
      | _, _ => false))

/-- Does an operation meet its own walks: its source read and its destination write (R472)? -/
def ownMeet : List WalkS → Bool
  | [] => false
  | w :: ws => ws.any (walksMeet w) || ownMeet ws

/-- A flight with no walks, tiles or registers. -/
def flight0 (i : Instr) (t pc : Nat) : FlightS :=
  { instr := i, issue := t, order := 0, pc := pc, base := 0, stride := 0, rows := 0, vb := [], vc := [], data := [], done := t + 1,
    walks := [], reads := [], writes := [], dests := [] }

/-- The register of a vector destination in a flight's list. -/
def vdst (k : BitVec 4) : Nat := 32 + k.toNat

/-- The operation that an instruction starts when it issues in cc `t` (R30, R58, R68, R141), its operands captured (R55). Classes S1,
C, Y and the others that take one cc leave nothing behind. -/
def State.flightOf (s : State) (c : CoreId) (t : Nat) (i : Instr) : FlightS :=
  let f := flight0 i t (s.pc c)
  let sc (sd : BitVec 5) (l : Nat) : FlightS := { f with done := t + l, dests := [(sd.toNat, t + l)] }
  let ve (vd : BitVec 4) (l : Nat) : FlightS := { f with done := t + l, dests := [(vdst vd, t + l)] }
  match i with
  | .mul _ sd _ _ => sc sd 3
  | .mulh _ sd _ _ => sc sd 3
  | .mulhu _ sd _ _ => sc sd 3
  | .div _ sd _ _ => sc sd 20
  | .divu _ sd _ _ => sc sd 20
  | .rem _ sd _ _ => sc sd 20
  | .remu _ sd _ _ => sc sd 20
  | .fadd _ sd _ _ => sc sd 4
  | .fmul _ sd _ _ => sc sd 4
  | .ffma _ sd _ _ => sc sd 4
  | .fcvti _ sd _ => sc sd 4
  | .icvtf _ sd _ => sc sd 4
  | .vadd _ vd _ _ => ve vd 4
  | .vsub _ vd _ _ => ve vd 4
  | .vmul _ vd _ _ => ve vd 4
  | .vfma _ vd _ _ _ => ve vd 4
  | .vcmp _ vd _ _ _ => ve vd 2
  | .vsel _ vd _ _ _ => ve vd 2
  | .vand _ vd _ _ => ve vd 2
  | .vor _ vd _ _ => ve vd 2
  | .vxor _ vd _ _ => ve vd 2
  | .vmin _ vd _ _ => ve vd 2
  | .vmax _ vd _ _ => ve vd 2
  | .vbcast _ vd _ => ve vd 2
  | .vext _ sx _ _ => sc sx 2
  | .vexp _ vd _ => ve vd 12
  | .vlog _ vd _ => ve vd 12
  | .vrcp _ vd _ => ve vd 12
  | .vrsq _ vd _ => ve vd 12
  | .vtanh _ vd _ => ve vd 12
  | .vrsum _ vd _ => ve vd 7
  | .vrmax _ vd _ => ve vd 7
  | .tld _ tl n sb ss off =>
    let n := n.toNat
    if n = 0 then f else
    { f with base := s.storeAddr c sb off, stride := s.stride c ss, rows := n, done := t + 4 + n,
             walks := [⟨t + 1, n, none, some 4⟩, ⟨t + 4, n, some tl.toNat, none⟩], writes := [(tl.toNat, t + 4 + n)] }
  | .tst _ tl n sb ss off =>
    let n := n.toNat
    if n = 0 then f else
    { f with base := s.storeAddr c sb off, stride := s.stride c ss, rows := n, done := t + 4 + n,
             walks := [⟨t + 1, n, some tl.toNat, some 3⟩, ⟨t + 4, n, none, some 4⟩], reads := [(tl.toNat, t + 4 + n)] }
  | .tcpy _ td n ts =>
    let n := n.toNat
    if n = 0 then f else
    { f with rows := n, done := t + 2 + n, walks := [⟨t + 1, n, some ts.toNat, some 3⟩, ⟨t + 2, n, some td.toNat, none⟩],
             reads := [(ts.toNat, t + 2 + n)], writes := [(td.toNat, t + 2 + n)] }
  | .sld _ sd sb _ _ off =>
    { f with base := s.storeAddr c sb off, done := t + 5, walks := [⟨t + 1, 1, none, some 4⟩], dests := [(sd.toNat, t + 5)] }
  | .sst _ sa sb w off =>
    { f with base := s.storeAddr c sb off, done := t + 5, walks := [⟨t + 4, 1, none, some 4⟩],
             data := [natBytes (2 ^ w.toNat) (s.sreg c sa).toNat] }
  | .vld _ vd sb off =>
    { f with base := s.storeAddr c sb off, done := t + 5, walks := [⟨t + 1, 1, none, some 4⟩], dests := [(vdst vd, t + 5)] }
  | .vst _ va sb off =>
    { f with base := s.storeAddr c sb off, done := t + 5, walks := [⟨t + 4, 1, none, some 4⟩], data := [s.vreg c va] }
  | .tvop _ td ta n func vb vc _ _ =>
    let n := n.toNat
    let l := vlat func.toNat
    if n = 0 then f else
    { f with rows := n, vb := s.vreg c vb, vc := s.vreg c vc, done := t + 2 + n + l,
             walks := [⟨t + 1, n, some ta.toNat, some 2⟩, ⟨t + 2 + l, n, some td.toNat, none⟩],
             reads := [(ta.toNat, t + 2 + n + l)], writes := [(td.toNat, t + 2 + n + l)] }
  | .tred _ vd ta n _ vb =>
    let n := n.toNat
    if n = 0 then f else
    { f with rows := n, vb := s.vreg c vb, done := t + n + 9, walks := [⟨t + 1, n, some ta.toNat, some 2⟩],
             reads := [(ta.toNat, t + n + 9)], dests := [(vdst vd, t + n + 9)] }
  | _ => f

/-! ### Actions -/

/-- What the operation reads for row `i`: the data that it carries to its write. -/
def State.flightRead (s : State) (c : CoreId) (f : FlightS) (i : Nat) : Bytes :=
  match f.instr with
  | .tld _ tl _ _ _ _ => s.loadRow c tl.toNat f.base f.stride i
  | .tst _ tl _ _ _ _ => s.storeRow c tl.toNat i
  | .tcpy _ td _ ts => (s.row c ts.toNat i).take (s.tRB c td.toNat)
  | .tvop _ _ ta _ _ _ _ _ _ => s.row c ta.toNat i
  | .tred _ _ ta _ _ _ => s.row c ta.toNat i
  | .sld _ _ _ w _ _ => s.rdStore c f.base.toNat (2 ^ w.toNat)
  | .vld _ _ _ _ => s.rdStore c f.base.toNat 128
  | _ => []

/-- What the operation writes for row `i` from the data it carries. -/
def State.flightWrite (s : State) (c : CoreId) (f : FlightS) (i : Nat) (d : Bytes) : State :=
  match f.instr with
  | .tld _ tl _ _ _ _ => s.setRow c tl.toNat i d
  | .tst _ _ _ _ _ _ => s.wrStore c (f.base + i * f.stride).toNat d
  | .tcpy _ td _ _ => s.setRow c td.toNat i d
  | .tvop _ td ta _ func _ _ bsrc cond =>
    s.setRow c td.toNat i (tvopRow (s.tFmt c ta.toNat) (s.tFmt c td.toNat) func.toNat cond.toNat (bsrc == 1) i d f.vb f.vc)
  | .sld _ sd _ w sx _ =>
    s.setS c sd (if sx then wordOfInt (sextNat (8 * 2 ^ w.toNat) (leNat d)) else BitVec.ofNat 64 (leNat d))
  | .sst _ _ _ _ _ => s.wrStore c f.base.toNat d
  | .vld _ vd _ _ => s.setV c vd d
  | .vst _ _ _ _ => s.wrStore c f.base.toNat d
  | _ => s

/-- TRED's write of its whole vector from the rows read (R165): lanes N to 31 are +0. -/
def State.tredWrite (s : State) (c : CoreId) (f : FlightS) (rows : List Bytes) : State :=
  match f.instr with
  | .tred _ vd ta _ kind _ =>
    s.setV c vd (lanes fun l => match rows[l]? with
      | some r => tredLane (s.tFmt c ta.toNat) (s.tCols c ta.toNat) kind.toNat l r f.vb
      | none => 0)
  | _ => s

/-- Rows `i` on, each read and then written. -/
def State.runRows (s : State) (c : CoreId) (f : FlightS) : Nat → Nat → State
  | 0, _ => s
  | k + 1, i => (s.flightWrite c f i (s.flightRead c f i)).runRows c f k (i + 1)

/-- The whole operation at once: the sum of its actions. -/
def State.runFlight (s : State) (c : CoreId) (f : FlightS) : State :=
  match f.instr with
  | .tred .. => if f.rows = 0 then s else s.tredWrite c f ((List.range f.rows).map (s.flightRead c f))
  | .sst .. => s.flightWrite c f 0 (f.data.getD 0 [])
  | .vst .. => s.flightWrite c f 0 (f.data.getD 0 [])
  | .sld .. => s.flightWrite c f 0 (s.flightRead c f 0)
  | .vld .. => s.flightWrite c f 0 (s.flightRead c f 0)
  | _ => s.runRows c f f.rows 0

/-- The cc, counted from its issue, in which the operation reads its first row and writes its first row (R58, R141). -/
def FlightS.offs (f : FlightS) : Nat × Nat :=
  match f.instr with
  | .tcpy .. => (1, 2)
  | .tvop _ _ _ _ func _ _ _ _ => (1, 2 + vlat func.toNat)
  | .sld .. => (1, 1)
  | .vld .. => (1, 1)
  | _ => (1, 4)

/-- The operation's actions in cc `t` (R58, R141): at most one row written and one row read. -/
def State.flightAct (s : State) (c : CoreId) (f : FlightS) (t : Nat) : State × FlightS :=
  let (r0, w0) := f.offs
  let i := t - f.issue - r0
  let j := t - f.issue - w0
  let rd := decide (f.issue + r0 ≤ t) && decide (i < max f.rows 1)
  let wr := decide (f.issue + w0 ≤ t) && decide (j < max f.rows 1)
  match f.instr with
  | .tred .. =>
    let f1 := if rd then { f with data := f.data ++ [s.flightRead c f i] } else f
    if 0 < f.rows ∧ t = f.issue + f.rows + 8 then (s.tredWrite c f1 f1.data, f1) else (s, f1)
  | .sst .. => (if t = f.issue + 4 then s.flightWrite c f 0 (f.data.getD 0 []) else s, f)
  | .vst .. => (if t = f.issue + 4 then s.flightWrite c f 0 (f.data.getD 0 []) else s, f)
  | .sld .. => (if t = f.issue + 1 then s.flightWrite c f 0 (s.flightRead c f 0) else s, f)
  | .vld .. => (if t = f.issue + 1 then s.flightWrite c f 0 (s.flightRead c f 0) else s, f)
  | _ =>
    if f.rows = 0 then (s, f) else
    -- The row written in this cc was read in an earlier one: data holds the rows read so far, row 0 first.
    let s1 := if wr then s.flightWrite c f j (f.data.getD j []) else s
    let f1 := if rd then { f with data := f.data ++ [s.flightRead c f i] } else f
    (s1, f1)

/-- Is the operation one of those that a stop abandons (R67)? -/
def abandons : Instr → Bool
  | .tld .. => true
  | .tst .. => true
  | .tcpy .. => true
  | .tvop .. => true
  | .tred .. => true
  | _ => false

/-! ### Faults at issue of tile operations -/

/-- TILE_SHAPE and CORE_STORE_RANGE of a tile load or store (R62, R65). -/
def State.tldFault (s : State) (c : CoreId) (tl n : BitVec 6) (b d : Int) : Option EvRec :=
  if n = 0 then none
  else if !s.tileOk c tl.toNat n.toNat then some (s.tileShape c [tl.toNat])
  else if !storeOk b d n.toNat (s.tRB c tl.toNat) then some (s.storeRange c b d n.toNat)
  else none

/-- TILE_SHAPE of a tile copy (R62, R472): with the tile that is bad, or where the two do not go together with both, destination first (log entry 175,
DESIGN CHOICE). -/
def State.tcpyFault (s : State) (c : CoreId) (td n ts : BitVec 6) : Option EvRec :=
  let bad := [td.toNat, ts.toNat].filter fun t => !s.tileOk c t n.toNat
  if n = 0 then none
  else if bad != [] then some (s.tileShape c bad)
  else if s.tRB c td.toNat != s.tRB c ts.toNat || (decide (2 ≤ n.toNat) && (td.toNat + 32 - ts.toNat % 32) % 32 == 1) then
    some (s.tileShape c [td.toNat, ts.toNat])
  else none

/-- Is the tile one that TVOP takes, and TRED of KIND 0 to 2: FP32, BF16 or FP16 of 32 columns (R164, R167)? -/
def State.vecTile (s : State) (c : CoreId) (t : Nat) : Bool := decide ((s.tFmt c t).fmt ≤ 2) && s.tCols c t == 32

/-- TILE_SHAPE of TVOP (R62, R164, R169, R472): with the tile of a bad shape, or where its own read and write meet with both: no rule orders the two
numbers, and the model puts TD in P2 and TA in P3 (log entry 175, DESIGN CHOICE). -/
def State.tvopFault (s : State) (c : CoreId) (td ta n func : BitVec 6) : Option EvRec :=
  let l := vlat func.toNat
  let fp32 := func = 0x08 ∨ func = 0x0A ∨ func = 0x0B ∨ func = 0x0C
  let bad := [td.toNat, ta.toNat].filter fun t =>
    !s.tileOk c t n.toNat || !s.vecTile c t || (decide fp32 && (s.tFmt c t).fmt != 0)
  if n = 0 then none
  else if bad != [] then some (s.tileShape c bad)
  else if decide (l + 2 ≤ n.toNat) && (td.toNat + 32 - ta.toNat % 32) % 32 == (l + 1) % 32 then
    some (s.tileShape c [td.toNat, ta.toNat])
  else none

/-- TILE_SHAPE of TRED (R62, R167). -/
def State.tredFault (s : State) (c : CoreId) (ta n : BitVec 6) (kind : BitVec 3) : Option EvRec :=
  let f := (s.tFmt c ta.toNat).fmt
  let ok := s.vecTile c ta.toNat || (kind == 3 && (f == 1 || f == 2) && s.tCols c ta.toNat == 64)
  if n = 0 then none else if !s.tileOk c ta.toNat n.toNat || !ok then some (s.tileShape c [ta.toNat]) else none

/-- CORE_STORE_RANGE of a register move of `w` bytes (R65, R141). -/
def State.moveFault (s : State) (c : CoreId) (sb : BitVec 5) (off : BitVec 16) (w : Nat) : Option EvRec :=
  let b := s.storeAddr c sb off
  if storeOk b 0 1 w then none else some (s.storeRange c b 0 1)

end Sys2Proof.Machine
end

