-- ==== Sys2Proof/Machine/ArrayFun.lean ====
section
/-! DEFINITION. Sys2Proof/Machine/ArrayFun.lean: what a pass and a chain of passes compute, bit for bit, and the run-time check of their results (R77 to R81, R86, R87). -/

namespace Sys2Proof.Machine

/-- The rate class of a pair of formats (R77): 0, 1, 2 as RATE encodes them, none for a pair that is not allowed. -/
def passRate (fa fw : Nat) : Option Nat :=
  let h (f : Nat) : Bool := f == 1 || f == 2
  let f8 (f : Nat) : Bool := f == 3 || f == 4 || f == 6 || f == 7
  let lo (f : Nat) : Bool := f == 8 || f == 9 || f == 10
  let int (f : Nat) : Bool := f == 5 || f == 11
  let any (f : Nat) : Bool := h f || f8 f || lo f
  if (h fa && any fw) || (h fw && any fa) then some 0
  else if (f8 fa && (f8 fw || lo fw)) || (f8 fw && lo fa) || (int fa && int fw) then some 1
  else if lo fa && lo fw then some 2
  else none

/-- Elements of one cell, and contraction length K, of a RATE field (R77, R143). -/
def rho (rate : BitVec 2) : Nat := 2 ^ rate.toNat
def passK (rate : BitVec 2) : Nat := 32 * rho rate

/-- Format and COLS held in a TILE_CFG value. -/
def cfgFmt (w : Word) : EFmt := ⟨fTileCfgFmt.get w, fTileCfgPwidth.get w, fTileCfgUsgn.get w == 1⟩

/-- The decoded rows of the operands of a pass: x[i][k] and w[j][k] (R80). -/
def PassS.xs (p : PassS) : List (List Fp) := p.rowsA.map (decRow (cfgFmt p.cfgA) (passK p.rate))
def PassS.ws (p : PassS) : List (List Fp) := p.rowsW.map (decRow (cfgFmt p.cfgW) (passK p.rate))

/-- The exact dot product of two runs of values. -/
def fpDot (x w : List Fp) : Fp := fpSum (List.zipWith fpMul x w)

/-- One element of a pass: the accumulator goes through the cells of its column, each summing `r` products exactly and rounding once (R80). -/
def cellSum (r : Nat) : Nat → List Fp → List Fp → BitVec 32 → BitVec 32
  | 0, _, _, y => y
  | n + 1, x, w, y => cellSum r n (x.drop r) (w.drop r) (rn32 (fpAdd (f32 y) (fpDot (x.take r) (w.take r))))

/-- The rows of a single pass, held rows apart. -/
def PassS.out (p : PassS) : List (List (BitVec 32)) :=
  let ws := p.ws
  p.xs.map fun x => ws.map fun w => cellSum (rho p.rate) 32 x w 0

/-- The rows of a chain: each pass's rows added to the held rows (R80, R83). -/
def chainOut : List PassS → List (List (BitVec 32))
  | [] => []
  | p :: ps => ps.foldl (fun held q => List.zipWith (List.zipWith add32) held q.out) p.out

/-! ### The check (R86, R87) -/

/-- A sum in FP32, each term added exactly and rounded once. -/
def sum32 (start : BitVec 32) (l : List Fp) : BitVec 32 := l.foldl (fun a x => rn32 (fpAdd (f32 a) x)) start

/-- Column `k` of a list of rows. -/
def column (m : List (List Fp)) (k : Nat) : List Fp := m.map fun r => r.getD k (.fin false 0 0)

/-- Predicted sums of a check: p and M of each row, q and Q of each column. -/
structure ChkAcc where
  p : List (BitVec 32)
  m : List (BitVec 32)
  q : List (BitVec 32)
  bigQ : List (BitVec 32)
  keff : Nat
  deriving DecidableEq, Repr

/-- One pass taken into the predicted sums. -/
def ChkAcc.add (a : ChkAcc) (p : PassS) : ChkAcc :=
  let xs := p.xs
  let ws := p.ws
  let ks := List.range (passK p.rate)
  let c := ks.map fun k => f32 (sum32 0 (column ws k))
  let bigC := ks.map fun k => f32 (sum32 0 ((column ws k).map fpAbs))
  let s := ks.map fun k => f32 (sum32 0 (column xs k))
  let bigS := ks.map fun k => f32 (sum32 0 ((column xs k).map fpAbs))
  { p := List.zipWith (fun acc x => sum32 acc (List.zipWith fpMul x c)) a.p xs
    m := List.zipWith (fun acc x => sum32 acc (List.zipWith fpMul (x.map fpAbs) bigC)) a.m xs
    q := List.zipWith (fun acc w => sum32 acc (List.zipWith fpMul s w)) a.q ws
    bigQ := List.zipWith (fun acc w => sum32 acc (List.zipWith fpMul bigS (w.map fpAbs))) a.bigQ ws
    keff := a.keff + passK p.rate + 1 }

/-- The verdict on one row or column: exempt, or how far it is out and its tolerance. -/
structure Line where
  exempt : Bool
  excess : Fp
  tol : Fp
  deriving DecidableEq, Repr

/-- Compare a predicted sum with the sum of results (R86, R87): tolerance F (K_EFF + extra) (2^-24 M + 2^-149). -/
def checkLine (f kx : Nat) (pred mag res : BitVec 32) : Line :=
  let fin := fpFinite (f32 pred) && fpFinite (f32 mag) && fpFinite (f32 res)
  ⟨!fin, fpAbs (fpAdd (f32 pred) (fpNeg (f32 res))),
    fpMul (fpOfInt (f * kx : Nat) 0) (fpAdd (fpScale (-24) (f32 mag)) (.fin false 1 (-149)))⟩

/-- Does the line fail? -/
def Line.fails (l : Line) : Bool := !l.exempt && fpLt l.tol l.excess

/-- The outcome of a check. -/
structure Verdict where
  rows : Nat
  cols : Nat
  nonfinite : Nat
  excess : BitVec 32
  tol : BitVec 32
  deriving DecidableEq, Repr

/-- A mask of the lines that fail. -/
def lineMask (l : List Line) : Nat := (List.range l.length).foldl (fun a i => a + bton ((l[i]?.map Line.fails).getD false) * 2 ^ i) 0

/-- Check the result rows of a pass or chain (R86): `f` is TOL_FACTOR (log entry 62, DESIGN CHOICE). -/
def checkRun (f : Nat) (ps : List PassS) (y : List (List (BitVec 32))) : Verdict :=
  let n := y.length
  let z (k : Nat) : List (BitVec 32) := List.replicate k 0
  let a := ps.foldl ChkAcc.add ⟨z n, z n, z 32, z 32, 0⟩
  let keff := a.keff - 1
  let yv := y.map fun r => r.map f32
  let rl := (List.range n).map fun i =>
    checkLine f (keff + 32) (a.p.getD i 0) (a.m.getD i 0) (sum32 0 (yv.getD i []))
  let cl := (List.range 32).map fun j => checkLine f (keff + n) (a.q.getD j 0) (a.bigQ.getD j 0) (sum32 0 (column yv j))
  let all := rl ++ cl
  let worst := (all.filter Line.fails).foldl (fun (w : Option Line) l => match w with
    | none => some l
    | some v => if fpLt v.excess l.excess then some l else some v) none
  ⟨lineMask rl, lineMask cl, (all.filter Line.exempt).length,
    match worst with
    | some l => rn32 l.excess
    | none => 0,
    match worst with
    | some l => rn32 l.tol
    | none => 0⟩

/-- Does a row or column fail? -/
def Verdict.mismatch (v : Verdict) : Bool := v.rows != 0 || v.cols != 0

/-- Results as the hardware left them: the elements that an upset struck are changed, element 32 i + j by an XOR. -/
def upset (y : List (List (BitVec 32))) (u : List (BitVec 10 × BitVec 32)) : List (List (BitVec 32)) :=
  u.foldl (fun y e => y.modify (e.1.toNat / 32) fun r => r.modify (e.1.toNat % 32) (· ^^^ e.2)) y

/-- A result row as the 128 bytes of a tile row. -/
def rowBytes (r : List (BitVec 32)) : Bytes := r.flatMap fun v => natBytes 4 v.toNat

end Sys2Proof.Machine
end

