-- ==== Sys2Proof/Machine/ArrayOps.lean ====
section
/-! DEFINITION. Sys2Proof/Machine/ArrayOps.lean: issuing passes and chains, their faults, what they hold, their results, mismatches and re-executions (R29, R31, R32, R78 to R102). -/

namespace Sys2Proof.Machine

/-- The array block of a core (R101): hall, and 12 y + x. -/
def arrIx (c : CoreId) : Nat := 12 * c.row.val + c.col.val
def rArr (c : CoreId) : Nat := rArrStatus c.hall.val (arrIx c)

/-- Add to a counter that CNT_CTL.FREEZE of the core holds (R50, R102). -/
def State.countC (s : State) (c : CoreId) (a n : Nat) : State := if s.flag (rCntCtl c) fCntCtlFreeze then s else s.count a n

/-- Is checking on for the context of the core in its hall (R17, R100)? -/
def State.checking (s : State) (c : CoreId) : Bool := s.flag (rArrCtxCfg c.hall.val (s.coreCtx c).val) fArrCtxCfgCheck

/-- A pass among the operations to restart. -/
def FlightS.isPass (f : FlightS) : Bool :=
  match f.instr with
  | .pass .. => true
  | _ => false

/-- Does a restart entry hold its rows for a later pass (KEEP)? -/
def FlightS.keeps (f : FlightS) : Bool :=
  match f.instr with
  | .pass _ _ _ _ _ _ keep _ => keep
  | _ => false

/-- Passes in the open chain, those waiting to be reissued included (R96, R99). -/
def CoreS.openLen (x : CoreS) : Nat := x.chain.length + (((x.restart.filter FlightS.isPass).reverse).takeWhile FlightS.keeps).length

/-- The fault that a pass raises at issue, chain rules first (R78, R84, R94). A TILE_SHAPE record names TA, TW and TD in this order, bad or not
(R63; log entry 175, DESIGN CHOICE). -/
def State.passFault (s : State) (c : CoreId) (ta tw td n : BitVec 6) (rate : BitVec 2) (keep chain : Bool) : Option EvRec :=
  let x := s.core c
  if n = 0 then none
  else if (chain && x.chain == []) || (!chain && x.chain != []) || (x.chain.any fun p => p.n != n)
    || (x.chain.length == 63 && keep) then some (s.arrayChain c)
  else
    let fa := (s.tFmt c ta.toNat).fmt
    let fw := (s.tFmt c tw.toNat).fmt
    let ok := passRate fa fw == some rate.toNat && s.tileOk c ta.toNat n.toNat && s.tileOk c tw.toNat 0
      && s.tCols c ta.toNat == passK rate && s.tCols c tw.toNat == passK rate && s.tRows c tw.toNat == 32
      && (keep || (s.tileOk c td.toNat n.toNat && (s.tFmt c td.toNat).fmt == 0 && s.tCols c td.toNat == 32 && td != ta && td != tw))
    if ok then none else some (s.tileShape c [ta.toNat, tw.toNat, td.toNat])

/-! ### Timing (R31) -/

/-- Last data read e of a pass. -/
def PassS.e (p : PassS) : Nat := p.d + p.n.toNat - 1

/-- The pass as it issues in cc `t` (R31, R55): its operand rows as the slot finds them, the rules giving no tile order between slots of one bundle (log
entry 167, DESIGN CHOICE), and d from the last data read of the pass before it. -/
def State.passOf (s : State) (c : CoreId) (t : Nat) (ta tw td n : BitVec 6) (rate : BitVec 2) (keep chain : Bool) : PassS :=
  { ta, tw, td, n, rate, keep, chain,
    rowsA := (List.range n.toNat).map (s.row c ta.toNat), rowsW := (List.range 32).map (s.row c tw.toNat),
    cfgA := s.reg (rTileCfg c ta.toNat), cfgW := s.reg (rTileCfg c tw.toNat),
    issue := t, order := (s.core c).order, pc := s.pc c, d := max (t + 33) ((s.core c).arrLast + 1), counted := false }

/-- ARR_STATUS as it reads now (R101): STRIKES and RETIRE_PEND are kept, the rest is the array's state; a pass of an open chain is in flight until
its rows are held (R31). -/
def State.arrWord (s : State) (c : CoreId) : Word :=
  let x := s.core c
  let busy := x.runs != [] || x.chain.any fun p => decide (s.cc < p.e + 66)
  fArrStatusBusy.put (fArrStatusReexec.put (fArrStatusChainOpen.put (fArrStatusChainLen.put (s.reg (rArr c)) x.openLen)
    (bton (decide (0 < x.openLen)))) (bton (x.runs.any RunS.reexec))) (bton busy)

/-- Walks of a pass's operand reads. -/
def PassS.walks (p : PassS) : List WalkS :=
  [⟨p.issue + 1, 32, some p.tw.toNat, some 1⟩, ⟨p.d, p.n.toNat, some p.ta.toNat, some 0⟩]

/-- A closed run: its check end and its w (R31). -/
def mkRun (ps : List PassS) (checked reexec : Bool) : RunS :=
  let e := match ps.getLast? with
    | some p => p.e
    | none => 0
  { list := ps, checked, check := e + 72, w := if checked then e + 73 else e + 66, reexec, result := none }

/-- Destination and row count of a run. -/
def RunS.last (r : RunS) : Option PassS := r.list.getLast?

/-- Walks of a run: operand reads and the destination write. -/
def RunS.walks (r : RunS) : List WalkS :=
  (r.list.flatMap PassS.walks) ++ match r.last with
    | some p => [⟨r.w, p.n.toNat, some p.td.toNat, none⟩]
    | none => []

/-- A cc that no program reaches: what an open chain holds has no end yet. -/
def noEnd : Nat := 2 ^ 64

/-- Source tiles that passes hold, with the cc from which they are free (R29, R85). -/
def passHolds (checked : Bool) (w : Nat) (ps : List PassS) : List (Nat × Nat) :=
  ps.flatMap fun p => if checked then [(p.ta.toNat, w), (p.tw.toNat, w)] else [(p.ta.toNat, p.e + 1), (p.tw.toNat, p.issue + 33)]

/-! ### Results -/

/-- Count passes as completed (R102): the destination written or the rows held. -/
def State.countPass (s : State) (c : CoreId) (p : PassS) : State :=
  let h := c.hall.val
  (s.countC c (rArrPassCnt h (arrIx c)) 1).countC c (rArrMacCnt h (arrIx c)) (p.n.toNat * 32 * passK p.rate)

/-- Count the passes of a list that have not been counted. -/
def State.countPasses (s : State) (c : CoreId) (ps : List PassS) : State :=
  (ps.filter fun p => !p.counted).foldl (fun s p => s.countPass c p) s

/-- Write result rows from row `i` on into the destination. -/
def State.putRows (s : State) (c : CoreId) (td : Nat) : Nat → List (List (BitVec 32)) → State
  | _, [] => s
  | i, r :: rs => (s.setRow c td i (rowBytes r)).putRows c td (i + 1) rs

/-- The destination of a run receives its rows at once. -/
def State.runStore (s : State) (c : CoreId) (r : RunS) (y : List (List (BitVec 32))) : State :=
  match r.last with
  | some p => s.putRows c p.td.toNat 0 y
  | none => s

/-- A run without a fault of the array: its exact result. -/
def RunS.exact (r : RunS) : List (List (BitVec 32)) := chainOut r.list

/-! ### Mismatch and re-execution (R32, R90, R91) -/

/-- The passes of a re-execution whose first pass is placed as if issued at `t`: 32 cc apart, each behind the data of the one before. -/
def placePasses : Nat → Nat → List PassS → List PassS
  | _, _, [] => []
  | t, prev, p :: ps =>
    let d := max (t + 33) (prev + 1)
    { p with issue := t, d := d, counted := false } :: placePasses (t + 32) (d + p.n.toNat - 1) ps

/-- Row reads of a mesh send still to come: OC3, and the bank of each row, in the cc before it leaves (R37, R57). -/
def SendS.walks (x : SendS) : List WalkS :=
  ((List.range x.ats.length).zip x.ats).map fun e => ⟨e.2 - 1, 1, some (x.tile + e.1), some 3⟩

/-- Every cycle that the core's operations hold (R28). -/
def CoreS.allWalks (x : CoreS) : List WalkS :=
  x.flights.flatMap FlightS.walks ++ x.runs.flatMap RunS.walks ++ x.chain.flatMap PassS.walks ++ x.sends.flatMap SendS.walks

/-- Find the earliest placement from `t` on whose cycles are all free of other operations; meetings among the chain's own passes, which the spacing of
32 cc fixes, do not count (log entry 171, DESIGN CHOICE). -/
def findPlace (held : List WalkS) (ps : List PassS) (prev : Nat) : Nat → Nat → RunS
  | 0, t => mkRun (placePasses t prev ps) true true
  | fuel + 1, t =>
    let r := mkRun (placePasses t prev ps) true true
    if r.walks.any fun w => held.any (walksMeet w) then findPlace held ps prev fuel (t + 1) else r

/-- The effects of a mismatch (R90): record, strike, retirement, and the stop or the re-execution (log entry 61, DEDUCED). A run whose re-execution
mismatches is dropped: its context stops for the fault, and the run is not among the passes reissued at a resume (log entry 170, DESIGN CHOICE). -/
def State.mismatch (s : State) (c : CoreId) (r : RunS) (v : Verdict) : State :=
  let h := c.hall.val
  let a := rArr c
  let strikes := min 255 (s.fget a fArrStatusStrikes + 1)
  let pc := match r.last with
    | some p => p.pc
    | none => 0
  let rec_ := evr 0x2001 h 0 (s.p1 c) pc (v.cols * 2 ^ 32 + v.rows) (v.excess.toNat * 2 ^ 32 + v.tol.toNat)
    (strikes * 2 ^ 56 + r.list.length * 2 ^ 48 + bton r.reexec)
  let retire := decide (2 ≤ strikes) && !s.flag a fArrStatusRetirePend
  let s1 := ((s.emit (rec_.ofCtx (s.coreCtx c) false)).fput a fArrStatusStrikes strikes).countC c (rArrCheckFailCnt h (arrIx c)) 1
  let s2 := if retire then s1.fput a fArrStatusRetirePend 1 else s1
  let rr := evr 0x2002 h 0 (s.p1 c) pc 0 0 (bton r.reexec * 2)
  if r.reexec then
    if retire then s2.faultCore c rr else (s2.fput (rCoreStatus c) fCoreStatusFault 0x2002).stopCtx (s.coreCtx c).val 0x2002
  else
    let s3 := if retire then s2.emit (rr.ofCtx (s.coreCtx c) false) else s2
    let x := s3.core c
    let run := findPlace x.allWalks r.list x.arrLast 4096 (max x.arrLast r.check)
    let (hold, last) := match run.last with
      | some p => (p.d, p.e)
      | none => (0, 0)
    (s3.setCore c { x with runs := x.runs ++ [run], arrHold := hold, arrLast := last }).countC c (rArrReexecCnt h (arrIx c)) 1

/-- Exempt lines counted (R87). -/
def State.countNonfinite (s : State) (c : CoreId) (v : Verdict) : State :=
  s.countC c (rArrNonfiniteCnt c.hall.val (arrIx c)) v.nonfinite

/-- Take the run `r` out of the core's runs. -/
def State.dropRun (s : State) (c : CoreId) (r : RunS) : State := s.modCore c fun x => { x with runs := dropFirst (· == r) x.runs }

/-- The check of a run ends (R86 to R91). `late` tells that the destination's own cc are still to come: its rows then wait for them. -/
def State.endCheck (s : State) (c : CoreId) (r : RunS) (u : List (BitVec 10 × BitVec 32)) (late : Bool) : State :=
  let y := upset r.exact u
  let v := checkRun (s.fget (rArrCtxCfg c.hall.val (s.coreCtx c).val) fArrCtxCfgTolFactor) r.list y
  let s1 := s.countNonfinite c v
  if v.mismatch then ((s1.countPasses c (r.list.filter fun p => p.keep)).dropRun c r).mismatch c r v
  else if late then s1.modCore c fun x => { x with runs := x.runs.map fun q => if q == r then { q with result := some (y.map rowBytes) } else q }
  else ((s1.runStore c r y).countPasses c r.list).dropRun c r

/-! ### Issue -/

/-- A pass enters the array (R31, R83): it extends the open chain, or closes it into a run. -/
def State.passIn (s : State) (c : CoreId) (p : PassS) : State :=
  let checked := s.checking c
  s.modCore c fun x =>
    let ps := if p.chain then x.chain ++ [p] else [p]
    let y := { x with arrLast := p.e, order := x.order + 1 }
    if p.keep then { y with chain := ps } else { y with chain := [], runs := y.runs ++ [mkRun ps checked false] }

/-- A pass issued in cc `t` (R78, R79): one with N = 0 does nothing. -/
def State.passIssue (s : State) (c : CoreId) (t : Nat) (ta tw td n : BitVec 6) (rate : BitVec 2) (keep chain : Bool) : State :=
  if n = 0 then s else s.passIn c (s.passOf c t ta tw td n rate keep chain)

/-- Everything of the newest pass that needs no check, at once: rows held, or with checking off the destination written. -/
def State.passSettle (s : State) (c : CoreId) : State :=
  let x := s.core c
  match x.chain.getLast? with
  | some p =>
    if p.counted then s
    else (s.countPass c p).modCore c fun x => { x with chain := x.chain.dropLast ++ [{ p with counted := true }] }
  | none =>
    match x.runs.getLast? with
    | some r => if r.checked || r.result.isSome then s
      else ((s.runStore c r r.exact).countPasses c r.list).dropRun c r
    | none => s

end Sys2Proof.Machine
end

