-- ==== Sys2Proof/Machine/Direct.lean ====
section
/-! DEFINITION. Sys2Proof/Machine/Direct.lean: an instruction's row as its whole effect at once (assumption 16), and the operations that a stop left pending (R69, R70, R96). -/

namespace Sys2Proof.Machine

/-- PEND as the restart list stands (R76). -/
def State.pendSync (s : State) (c : CoreId) : State := s.fput (rCoreStatus c) fCoreStatusPend (min 255 (s.core c).restart.length)

/-- A fault of a reissued operation, with its original PC (R71). -/
def State.reissueFault (s : State) (c : CoreId) (f : FlightS) : Option EvRec :=
  let r := match f.instr with
    | .tld _ tl n _ _ _ => s.tldFault c tl n f.base f.stride
    | .tst _ tl n _ _ _ => s.tldFault c tl n f.base f.stride
    | .tcpy _ td n ts => s.tcpyFault c td n ts
    | .tvop _ td ta n func _ _ _ _ => s.tvopFault c td ta n func
    | .tred _ _ ta n kind _ => s.tredFault c ta n kind
    | .pass _ ta tw td n rate keep chain => s.passFault c ta tw td n rate keep chain
    | _ => none
  r.map fun e => { e with p1 := BitVec.ofNat 64 f.pc }

/-- One pending operation reissued and completed at once. -/
def State.restartNow (s : State) (c : CoreId) (f : FlightS) : State :=
  match f.instr with
  | .pass _ ta tw td n rate keep chain =>
    (s.passIn c { s.passOf c s.cc ta tw td n rate keep chain with pc := f.pc, order := f.order }).passSettle c
  | _ => s.runFlight c f

/-- Pending operations reissued in their original order, until one faults (R69, R71). -/
def restartAll (c : CoreId) : List FlightS → State → State
  | [], s => s
  | f :: fs, s =>
    match s.reissueFault c f with
    | some r => s.faultCore c r
    | none => restartAll c fs (((s.modCore c fun x => { x with restart := fs }).restartNow c f).pendSync c)

/-- Every pending operation of the core reissued and completed (R69). -/
def State.flushRestart (s : State) (c : CoreId) : State := restartAll c (s.core c).restart s

/-- The TILE_RESTART record of the core's hall, once for each stop (R70): of the cores of `who` that have pending operations. -/
def State.tileRestart (s : State) (c : CoreId) (who : List CoreId) : State :=
  let k := s.coreCtx c
  let cores := who.filter fun d => d.hall == c.hall && (s.core d).restart != [] && (s.core d).reissued == 0 && decide (s.coreCtx d = k)
  if (s.core c).restart == [] || (s.core c).reissued != 0 then s
  else
    let n := (cores.map fun d => (s.core d).restart.length).foldl (· + ·) 0
    (cores.foldl (fun s d => s.modCore d fun x => { x with reissued := x.restart.length }) s).emit
      ((evr 0x1002 c.hall.val 0 k.val c.hall.val cores.length n).ofCtx k false)

/-- A bundle has issued: under CORE_CTL.STEP the core stops again (R76). -/
def State.stepped (s : State) (c : CoreId) : State :=
  if (s.core c).step then (s.modCore c fun x => { x with step := false }).askStop c .halt else s

/-- An instruction's row: nothing while the core cannot issue; otherwise the checks of R131 and the whole effect (log entry 16, DESIGN CHOICE). -/
def State.issueOne (s : State) (c : CoreId) (i : Instr) (fault : State → Option EvRec) (eff : State → State) : State :=
  if !s.canIssue c then s
  else if !i.wf then s.faultCore c (s.illegal c)
  else
    let s1 := s.flushRestart c
    if !s1.canIssue c then s1
    else match fault s1 with
      | some r => s1.faultCore c r
      | none => (eff s1).stepped c

/-- No fault at issue. -/
def noFault (_ : State) : Option EvRec := none

end Sys2Proof.Machine
end

