-- ==== Sys2Proof/Machine/Control.lean ====
section
/-! DEFINITION. Sys2Proof/Machine/Control.lean: the CTL slot: branches, calls, hardware loops and step ends (R134 to R137). -/

namespace Sys2Proof.Machine

/-- Does S[SA] meet COND (R135)? -/
def brTaken (cond : BitVec 3) (v : Word) : Bool :=
  match cond.toNat with
  | 0 => v == 0
  | 1 => v != 0
  | 2 => v.slt 0
  | 3 => !v.slt 0
  | 4 => !v.slt 0 && v != 0
  | 5 => v.slt 0 || v == 0
  | _ => true

/-- A control transfer: the next bundle is at index `t`, and nothing fetched behind the old one is used. -/
def State.jump (s : State) (c : CoreId) (t : Nat) : State :=
  (s.setPc c t).modCore c fun x => { x with queue := [], fetchIdx := t % 65536 }

/-- Depth of the loop stack, and an entry (R154). -/
def State.loopDep (s : State) (c : CoreId) : Nat := s.fget (rLoopCtl c) fLoopCtlDepth
def State.loopFld (s : State) (c : CoreId) (k : Nat) (f : Fd) : Nat := s.fget (rLoopEntry c k) f

/-- Is the bundle in hand the END of the innermost loop (R136)? -/
def State.atLoopEnd (s : State) (c : CoreId) : Bool :=
  decide (0 < s.loopDep c) && s.loopFld c (s.loopDep c - 1) fLoopEntryEnd == s.pc c

/-- Iterations of a LOOP: ICOUNT or S[SA][31:0] (R136). -/
def State.loopCount (s : State) (c : CoreId) (src : Bool) (sa : BitVec 5) (icount : BitVec 8) : Nat :=
  if src then (s.sreg c sa).toNat % 2 ^ 32 else icount.toNat

/-- The fault of LOOP and LBRK (R136). A LOOP of no iterations with four entries active raises LOOP_DEPTH too (log entry 173, DESIGN CHOICE). -/
def State.loopFault (s : State) (c : CoreId) : Option EvRec :=
  if s.atLoopEnd c then some (s.illegal c) else if s.loopDep c = 4 then some (s.loopDepth c) else none
def State.lbrkFault (s : State) (c : CoreId) : Option EvRec :=
  if s.atLoopEnd c then some (s.illegal c) else if s.loopDep c = 0 then some (s.loopDepth c) else none

/-- The fault of the step-end marker while a chain is open (R84). -/
def State.markerFault (s : State) (c : CoreId) : Option EvRec :=
  if (s.core c).openLen = 0 then none else some (s.arrayChain c)

/-- The target of a control transfer that is taken, none when control goes on to the next bundle. -/
def State.ctlTarget (s : State) (c : CoreId) (i : Instr) : Option Nat :=
  match i with
  | .br _ cond sa off => if brTaken cond (s.sreg c sa) then some (((s.pc c : Int) + off.toInt) % 65536).toNat else none
  | .jmp _ target => some target.toNat
  | .jmpr _ sa => some ((s.sreg c sa).toNat % 65536)
  | .call _ target => some target.toNat
  | .callr _ sa => some ((s.sreg c sa).toNat % 65536)
  | .loop _ src sa icount len => if s.loopCount c src sa icount = 0 then some ((s.pc c + len.toNat + 1) % 65536) else none
  | .lbrk _ => some ((s.loopFld c (s.loopDep c - 1) fLoopEntryEnd + 1) % 65536)
  | _ => none

/-- Push a loop entry (R136). -/
def State.loopPush (s : State) (c : CoreId) (start end_ count : Nat) : State :=
  let d := s.loopDep c
  (s.fput (rLoopCtl c) fLoopCtlDepth (d + 1)).setReg (rLoopEntry c d)
    (Fd.put fLoopEntryCount (Fd.put fLoopEntryEnd (Fd.put fLoopEntryStart 0 start) end_) count)

/-- The effect of a CTL instruction on everything but the program counter; `rd` is the state that operands are read from. -/
def effCtl (rd : State) (c : CoreId) (i : Instr) (s : State) : State :=
  match i with
  | .call _ _ => s.setS c 31 (BitVec.ofNat 64 ((rd.pc c + 1) % 65536))
  | .callr _ _ => s.setS c 31 (BitVec.ofNat 64 ((rd.pc c + 1) % 65536))
  | .loop _ src sa icount len =>
    let n := rd.loopCount c src sa icount
    if n = 0 then s else s.loopPush c ((rd.pc c + 1) % 65536) ((rd.pc c + len.toNat) % 65536) n
  | .lbrk _ => s.fput (rLoopCtl c) fLoopCtlDepth (rd.loopDep c - 1)
  | .stepend _ => s.modCore c fun x => { x with marker := .issued false }
  | .exit _ => s.modCore c fun x => { x with marker := .issued true }
  | .brkpt _ => (s.fput (rCoreCtl c) fCoreCtlHalt 1).askStop c .halt
  | _ => s

/-- A CTL instruction at once: its effect, and the transfer if it is taken. -/
def State.ctlNow (s : State) (c : CoreId) (i : Instr) : State :=
  let s1 := effCtl s c i s
  match s.ctlTarget c i with
  | some t => s1.jump c t
  | none => s1

/-- The end of a loop iteration when the bundle at `pc` has issued with no transfer taken (R136): the index of the next bundle. -/
def loopEnd (c : CoreId) : Nat → State → Nat → State × Nat
  | 0, s, pc => (s, (pc + 1) % 65536)
  | fuel + 1, s, pc =>
    let d := s.loopDep c
    if d = 0 then (s, (pc + 1) % 65536)
    else if s.loopFld c (d - 1) fLoopEntryEnd ≠ pc then (s, (pc + 1) % 65536)
    else
      let n := s.loopFld c (d - 1) fLoopEntryCount
      if 1 < n then (s.fput (rLoopEntry c (d - 1)) fLoopEntryCount (n - 1), s.loopFld c (d - 1) fLoopEntryStart)
      else loopEnd c fuel (s.fput (rLoopCtl c) fLoopCtlDepth (d - 1)) pc

/-- BR (R135). -/
def execBr (c : CoreId) (cond : BitVec 3) (sa : BitVec 5) (off : BitVec 18) (s : State) : Res :=
  .next (s.issueOne c (.br c cond sa off) noFault fun s => s.ctlNow c (.br c cond sa off))

/-- JMP (R135). -/
def execJmp (c : CoreId) (target : BitVec 16) (s : State) : Res :=
  .next (s.issueOne c (.jmp c target) noFault fun s => s.ctlNow c (.jmp c target))

/-- JMPR (R135). -/
def execJmpr (c : CoreId) (sa : BitVec 5) (s : State) : Res :=
  .next (s.issueOne c (.jmpr c sa) noFault fun s => s.ctlNow c (.jmpr c sa))

/-- CALL (R135). -/
def execCall (c : CoreId) (target : BitVec 16) (s : State) : Res :=
  .next (s.issueOne c (.call c target) noFault fun s => s.ctlNow c (.call c target))

/-- CALLR (R135). -/
def execCallr (c : CoreId) (sa : BitVec 5) (s : State) : Res :=
  .next (s.issueOne c (.callr c sa) noFault fun s => s.ctlNow c (.callr c sa))

/-- LOOP (R136). -/
def execLoop (c : CoreId) (src : Bool) (sa : BitVec 5) (icount : BitVec 8) (len : BitVec 12) (s : State) : Res :=
  .next (s.issueOne c (.loop c src sa icount len) (fun s => s.loopFault c) fun s => s.ctlNow c (.loop c src sa icount len))

/-- LBRK (R136). -/
def execLbrk (c : CoreId) (s : State) : Res :=
  .next (s.issueOne c (.lbrk c) (fun s => s.lbrkFault c) fun s => s.ctlNow c (.lbrk c))

/-- STEPEND (R137). -/
def execStepend (c : CoreId) (s : State) : Res :=
  .next (s.issueOne c (.stepend c) (fun s => s.markerFault c) fun s => s.ctlNow c (.stepend c))

/-- EXIT (R137). -/
def execExit (c : CoreId) (s : State) : Res :=
  .next (s.issueOne c (.exit c) (fun s => s.markerFault c) fun s => s.ctlNow c (.exit c))

/-- BRKPT (R135) (log entry 41, DEDUCED). -/
def execBrkpt (c : CoreId) (s : State) : Res :=
  .next (s.issueOne c (.brkpt c) noFault fun s => s.ctlNow c (.brkpt c))

end Sys2Proof.Machine
end

