-- ==== Sys2Proof/Machine/Scalar.lean ====
section
/-! DEFINITION. Sys2Proof/Machine/Scalar.lean: the SCL slot (R138, R139). -/

namespace Sys2Proof.Machine

/-- CORE_ID (R76), from the position and the physical row that serves it. -/
def State.coreIdVal (s : State) (c : CoreId) : Nat := s.p1 c % 2 ^ 32

/-- RDSP's selected value (R138). -/
def State.rdspVal (s : State) (c : CoreId) (sel : Nat) : Word :=
  match sel with
  | 0 => BitVec.ofNat 64 (s.slot % 2 ^ 48)
  | 1 => BitVec.ofNat 64 (s.coreIdVal c)
  | 2 => BitVec.ofNat 64 (s.coreCtx c).val
  | 3 => BitVec.ofNat 64 (s.pc c)
  | _ => if s.loopDep c = 0 then 0 else BitVec.ofNat 64 (s.loopFld c (s.loopDep c - 1) fLoopEntryCount)

/-- Division and remainder, rounding toward zero (R139): by zero the quotient is all ones and the remainder the dividend. -/
def divS (a b : Word) : Word := if b = 0 then BitVec.allOnes 64 else wordOfInt (a.toInt.tdiv b.toInt)
def divU (a b : Word) : Word := if b = 0 then BitVec.allOnes 64 else BitVec.ofNat 64 (a.toNat / b.toNat)
def remS (a b : Word) : Word := if b = 0 then a else wordOfInt (a.toInt.tmod b.toInt)
def remU (a b : Word) : Word := if b = 0 then a else BitVec.ofNat 64 (a.toNat % b.toNat)

/-- The low 32 bits of a source, and a result of 32 bits (R139). -/
def lo32 (a : Word) : BitVec 32 := a.setWidth 32
def zx32 (a : BitVec 32) : Word := a.setWidth 64

/-- 1 if true, else 0. -/
def flagW (b : Bool) : Word := if b then 1 else 0

/-- FCVTI and ICVTF (R138): ties to even, saturating, a NaN to 0. -/
def fcvti (a : Word) : Word := wordOfInt (encInt (-(2 ^ 63)) (2 ^ 63 - 1) (f32 (lo32 a)))
def icvtf (a : Word) : Word := zx32 (rn32 (fpOfInt a.toInt 0))

/-- INSH: halfword `k` of `d` replaced (R138). -/
def insh (d : Word) (k : Nat) (v : BitVec 16) : Word := Fd.put ⟨16 * k + 15, 16 * k⟩ d v.toNat

/-- Is every field of a TILE_CFG value within its range (R60)? (log entry 50, DEDUCED) -/
def tcfgOk (v : Word) : Bool :=
  let r := fTileCfgRows.get v
  let k := fTileCfgCols.get v
  let p := fTileCfgPwidth.get v
  decide (1 ≤ r) && decide (r ≤ 32) && decide (1 ≤ k) && decide (k ≤ 128) && decide (fTileCfgFmt.get v ≤ 11) && decide (1 ≤ p) && decide (p ≤ 8)

/-- TCFG (R139): the reserved bits are not stored. -/
def State.tcfgPut (s : State) (c : CoreId) (tn : BitVec 6) (v : Word) : State := s.setReg (rTileCfg c tn.toNat) (v &&& 0x1FFFF3F)
def State.tcfgFault (s : State) (c : CoreId) (tn : BitVec 6) (sa : BitVec 5) : Option EvRec :=
  if tcfgOk (s.sreg c sa) then none else some (s.tileShape c [tn.toNat])

/-- The destination and the value of an SCL instruction, operands read from `s` (R138, R139). -/
def State.sclVal (s : State) (c : CoreId) (i : Instr) : Option (BitVec 5 × Word) :=
  let r (x : BitVec 5) : Word := s.sreg c x
  match i with
  | .add _ sd sa sb => some (sd, r sa + r sb)
  | .sub _ sd sa sb => some (sd, r sa - r sb)
  | .and _ sd sa sb => some (sd, r sa &&& r sb)
  | .or _ sd sa sb => some (sd, r sa ||| r sb)
  | .xor _ sd sa sb => some (sd, r sa ^^^ r sb)
  | .shl _ sd sa sb => some (sd, r sa <<< ((r sb).toNat % 64))
  | .shr _ sd sa sb => some (sd, r sa >>> ((r sb).toNat % 64))
  | .sra _ sd sa sb => some (sd, (r sa).sshiftRight ((r sb).toNat % 64))
  | .slt _ sd sa sb => some (sd, flagW ((r sa).slt (r sb)))
  | .sltu _ sd sa sb => some (sd, flagW ((r sa).ult (r sb)))
  | .seq _ sd sa sb => some (sd, flagW (r sa == r sb))
  | .min _ sd sa sb => some (sd, if (r sb).slt (r sa) then r sb else r sa)
  | .max _ sd sa sb => some (sd, if (r sa).slt (r sb) then r sb else r sa)
  | .addi _ sd sa imm => some (sd, r sa + imm.signExtend 64)
  | .andi _ sd sa imm => some (sd, r sa &&& imm.setWidth 64)
  | .ori _ sd sa imm => some (sd, r sa ||| imm.setWidth 64)
  | .xori _ sd sa imm => some (sd, r sa ^^^ imm.setWidth 64)
  | .shli _ sd sa imm => some (sd, r sa <<< (imm.toNat % 64))
  | .shri _ sd sa imm => some (sd, r sa >>> (imm.toNat % 64))
  | .srai _ sd sa imm => some (sd, (r sa).sshiftRight (imm.toNat % 64))
  | .slti _ sd sa imm => some (sd, flagW ((r sa).slt (imm.signExtend 64)))
  | .movi _ sd imm => some (sd, imm.signExtend 64)
  | .insh _ sd k imm => some (sd, insh (r sd) k.toNat imm)
  | .rdsp _ sd sel => some (sd, s.rdspVal c sel.toNat)
  | .mul _ sd sa sb => some (sd, r sa * r sb)
  | .mulh _ sd sa sb => some (sd, wordOfInt ((r sa).toInt * (r sb).toInt / 2 ^ 64))
  | .mulhu _ sd sa sb => some (sd, BitVec.ofNat 64 ((r sa).toNat * (r sb).toNat / 2 ^ 64))
  | .div _ sd sa sb => some (sd, divS (r sa) (r sb))
  | .divu _ sd sa sb => some (sd, divU (r sa) (r sb))
  | .rem _ sd sa sb => some (sd, remS (r sa) (r sb))
  | .remu _ sd sa sb => some (sd, remU (r sa) (r sb))
  | .fadd _ sd sa sb => some (sd, zx32 (add32 (lo32 (r sa)) (lo32 (r sb))))
  | .fmul _ sd sa sb => some (sd, zx32 (mul32 (lo32 (r sa)) (lo32 (r sb))))
  | .ffma _ sd sa sb => some (sd, zx32 (fma32 (lo32 (r sa)) (lo32 (r sb)) (lo32 (r sd))))
  | .fcvti _ sd sa => some (sd, fcvti (r sa))
  | .icvtf _ sd sa => some (sd, icvtf (r sa))
  | _ => none

/-- The effect of an SCL instruction; `rd` is the state that operands are read from. -/
def effScl (rd : State) (c : CoreId) (i : Instr) (s : State) : State :=
  match i with
  | .tcfg _ tn sa => s.tcfgPut c tn (rd.sreg c sa)
  | _ =>
    match rd.sclVal c i with
    | some (sd, v) => s.setS c sd v
    | none => s

/-- ADD (R138). -/
def execAdd (c : CoreId) (sd sa sb : BitVec 5) (s : State) : Res :=
  .next (s.issueOne c (.add c sd sa sb) noFault fun s => effScl s c (.add c sd sa sb) s)

/-- SUB (R138). -/
def execSub (c : CoreId) (sd sa sb : BitVec 5) (s : State) : Res :=
  .next (s.issueOne c (.sub c sd sa sb) noFault fun s => effScl s c (.sub c sd sa sb) s)

/-- AND (R138). -/
def execAnd (c : CoreId) (sd sa sb : BitVec 5) (s : State) : Res :=
  .next (s.issueOne c (.and c sd sa sb) noFault fun s => effScl s c (.and c sd sa sb) s)

/-- OR (R138). -/
def execOr (c : CoreId) (sd sa sb : BitVec 5) (s : State) : Res :=
  .next (s.issueOne c (.or c sd sa sb) noFault fun s => effScl s c (.or c sd sa sb) s)

/-- XOR (R138). -/
def execXor (c : CoreId) (sd sa sb : BitVec 5) (s : State) : Res :=
  .next (s.issueOne c (.xor c sd sa sb) noFault fun s => effScl s c (.xor c sd sa sb) s)

/-- SHL (R138). -/
def execShl (c : CoreId) (sd sa sb : BitVec 5) (s : State) : Res :=
  .next (s.issueOne c (.shl c sd sa sb) noFault fun s => effScl s c (.shl c sd sa sb) s)

/-- SHR (R138). -/
def execShr (c : CoreId) (sd sa sb : BitVec 5) (s : State) : Res :=
  .next (s.issueOne c (.shr c sd sa sb) noFault fun s => effScl s c (.shr c sd sa sb) s)

/-- SRA (R138). -/
def execSra (c : CoreId) (sd sa sb : BitVec 5) (s : State) : Res :=
  .next (s.issueOne c (.sra c sd sa sb) noFault fun s => effScl s c (.sra c sd sa sb) s)

/-- SLT (R138). -/
def execSlt (c : CoreId) (sd sa sb : BitVec 5) (s : State) : Res :=
  .next (s.issueOne c (.slt c sd sa sb) noFault fun s => effScl s c (.slt c sd sa sb) s)

/-- SLTU (R138). -/
def execSltu (c : CoreId) (sd sa sb : BitVec 5) (s : State) : Res :=
  .next (s.issueOne c (.sltu c sd sa sb) noFault fun s => effScl s c (.sltu c sd sa sb) s)

/-- SEQ (R138). -/
def execSeq (c : CoreId) (sd sa sb : BitVec 5) (s : State) : Res :=
  .next (s.issueOne c (.seq c sd sa sb) noFault fun s => effScl s c (.seq c sd sa sb) s)

/-- MIN (R138). -/
def execMin (c : CoreId) (sd sa sb : BitVec 5) (s : State) : Res :=
  .next (s.issueOne c (.min c sd sa sb) noFault fun s => effScl s c (.min c sd sa sb) s)

/-- MAX (R138). -/
def execMax (c : CoreId) (sd sa sb : BitVec 5) (s : State) : Res :=
  .next (s.issueOne c (.max c sd sa sb) noFault fun s => effScl s c (.max c sd sa sb) s)

/-- ADDI (R138). -/
def execAddi (c : CoreId) (sd sa : BitVec 5) (imm : BitVec 16) (s : State) : Res :=
  .next (s.issueOne c (.addi c sd sa imm) noFault fun s => effScl s c (.addi c sd sa imm) s)

/-- ANDI (R138). -/
def execAndi (c : CoreId) (sd sa : BitVec 5) (imm : BitVec 16) (s : State) : Res :=
  .next (s.issueOne c (.andi c sd sa imm) noFault fun s => effScl s c (.andi c sd sa imm) s)

/-- ORI (R138). -/
def execOri (c : CoreId) (sd sa : BitVec 5) (imm : BitVec 16) (s : State) : Res :=
  .next (s.issueOne c (.ori c sd sa imm) noFault fun s => effScl s c (.ori c sd sa imm) s)

/-- XORI (R138). -/
def execXori (c : CoreId) (sd sa : BitVec 5) (imm : BitVec 16) (s : State) : Res :=
  .next (s.issueOne c (.xori c sd sa imm) noFault fun s => effScl s c (.xori c sd sa imm) s)

/-- SHLI (R138). -/
def execShli (c : CoreId) (sd sa : BitVec 5) (imm : BitVec 16) (s : State) : Res :=
  .next (s.issueOne c (.shli c sd sa imm) noFault fun s => effScl s c (.shli c sd sa imm) s)

/-- SHRI (R138). -/
def execShri (c : CoreId) (sd sa : BitVec 5) (imm : BitVec 16) (s : State) : Res :=
  .next (s.issueOne c (.shri c sd sa imm) noFault fun s => effScl s c (.shri c sd sa imm) s)

/-- SRAI (R138). -/
def execSrai (c : CoreId) (sd sa : BitVec 5) (imm : BitVec 16) (s : State) : Res :=
  .next (s.issueOne c (.srai c sd sa imm) noFault fun s => effScl s c (.srai c sd sa imm) s)

/-- SLTI (R138). -/
def execSlti (c : CoreId) (sd sa : BitVec 5) (imm : BitVec 16) (s : State) : Res :=
  .next (s.issueOne c (.slti c sd sa imm) noFault fun s => effScl s c (.slti c sd sa imm) s)

/-- MOVI (R138). -/
def execMovi (c : CoreId) (sd : BitVec 5) (imm : BitVec 21) (s : State) : Res :=
  .next (s.issueOne c (.movi c sd imm) noFault fun s => effScl s c (.movi c sd imm) s)

/-- INSH (R138). -/
def execInsh (c : CoreId) (sd : BitVec 5) (k : BitVec 2) (imm : BitVec 16) (s : State) : Res :=
  .next (s.issueOne c (.insh c sd k imm) noFault fun s => effScl s c (.insh c sd k imm) s)

/-- RDSP (R138). -/
def execRdsp (c : CoreId) (sd : BitVec 5) (sel : BitVec 4) (s : State) : Res :=
  .next (s.issueOne c (.rdsp c sd sel) noFault fun s => effScl s c (.rdsp c sd sel) s)

/-- TCFG (R139). -/
def execTcfg (c : CoreId) (tn : BitVec 6) (sa : BitVec 5) (s : State) : Res :=
  .next (s.issueOne c (.tcfg c tn sa) (fun s => s.tcfgFault c tn sa) fun s => effScl s c (.tcfg c tn sa) s)

/-- MUL (R138). -/
def execMul (c : CoreId) (sd sa sb : BitVec 5) (s : State) : Res :=
  .next (s.issueOne c (.mul c sd sa sb) noFault fun s => effScl s c (.mul c sd sa sb) s)

/-- MULH (R138). -/
def execMulh (c : CoreId) (sd sa sb : BitVec 5) (s : State) : Res :=
  .next (s.issueOne c (.mulh c sd sa sb) noFault fun s => effScl s c (.mulh c sd sa sb) s)

/-- MULHU (R138). -/
def execMulhu (c : CoreId) (sd sa sb : BitVec 5) (s : State) : Res :=
  .next (s.issueOne c (.mulhu c sd sa sb) noFault fun s => effScl s c (.mulhu c sd sa sb) s)

/-- DIV (R139). -/
def execDiv (c : CoreId) (sd sa sb : BitVec 5) (s : State) : Res :=
  .next (s.issueOne c (.div c sd sa sb) noFault fun s => effScl s c (.div c sd sa sb) s)

/-- DIVU (R139). -/
def execDivu (c : CoreId) (sd sa sb : BitVec 5) (s : State) : Res :=
  .next (s.issueOne c (.divu c sd sa sb) noFault fun s => effScl s c (.divu c sd sa sb) s)

/-- REM (R139). -/
def execRem (c : CoreId) (sd sa sb : BitVec 5) (s : State) : Res :=
  .next (s.issueOne c (.rem c sd sa sb) noFault fun s => effScl s c (.rem c sd sa sb) s)

/-- REMU (R139). -/
def execRemu (c : CoreId) (sd sa sb : BitVec 5) (s : State) : Res :=
  .next (s.issueOne c (.remu c sd sa sb) noFault fun s => effScl s c (.remu c sd sa sb) s)

/-- FADD (R139). -/
def execFadd (c : CoreId) (sd sa sb : BitVec 5) (s : State) : Res :=
  .next (s.issueOne c (.fadd c sd sa sb) noFault fun s => effScl s c (.fadd c sd sa sb) s)

/-- FMUL (R139). -/
def execFmul (c : CoreId) (sd sa sb : BitVec 5) (s : State) : Res :=
  .next (s.issueOne c (.fmul c sd sa sb) noFault fun s => effScl s c (.fmul c sd sa sb) s)

/-- FFMA (R139). -/
def execFfma (c : CoreId) (sd sa sb : BitVec 5) (s : State) : Res :=
  .next (s.issueOne c (.ffma c sd sa sb) noFault fun s => effScl s c (.ffma c sd sa sb) s)

/-- FCVTI (R138). -/
def execFcvti (c : CoreId) (sd sa : BitVec 5) (s : State) : Res :=
  .next (s.issueOne c (.fcvti c sd sa) noFault fun s => effScl s c (.fcvti c sd sa) s)

/-- ICVTF (R138). -/
def execIcvtf (c : CoreId) (sd sa : BitVec 5) (s : State) : Res :=
  .next (s.issueOne c (.icvtf c sd sa) noFault fun s => effScl s c (.icvtf c sd sa) s)

end Sys2Proof.Machine
end

