-- ==== Sys2Proof/Machine/Vector.lean ====
section
/-! DEFINITION. Sys2Proof/Machine/Vector.lean: the VEC slot (R144, R145, R158 to R167). -/

namespace Sys2Proof.Machine

/-- The destination and the value of a register-form vector instruction, operands read from `s` (R144, R160 to R163). -/
def State.vecVal (s : State) (c : CoreId) (i : Instr) : Option (BitVec 4 × Bytes) :=
  let v (k : BitVec 4) : Bytes := s.vreg c k
  match i with
  | .vadd _ vd va vb => some (vd, vlanes 0x1 0 (v va) (v vb) (v vb))
  | .vsub _ vd va vb => some (vd, vlanes 0x2 0 (v va) (v vb) (v vb))
  | .vmul _ vd va vb => some (vd, vlanes 0x3 0 (v va) (v vb) (v vb))
  | .vfma _ vd va vb vc => some (vd, vlanes 0x4 0 (v va) (v vb) (v vc))
  | .vcmp _ vd va vb cond => some (vd, vlanes 0x8 cond.toNat (v va) (v vb) (v vb))
  | .vsel _ vd va vb vc => some (vd, vlanes 0x9 0 (v va) (v vb) (v vc))
  | .vand _ vd va vb => some (vd, vlanes 0xa 0 (v va) (v vb) (v vb))
  | .vor _ vd va vb => some (vd, vlanes 0xb 0 (v va) (v vb) (v vb))
  | .vxor _ vd va vb => some (vd, vlanes 0xc 0 (v va) (v vb) (v vb))
  | .vmin _ vd va vb => some (vd, vlanes 0xd 0 (v va) (v vb) (v vb))
  | .vmax _ vd va vb => some (vd, vlanes 0xe 0 (v va) (v vb) (v vb))
  | .vbcast _ vd sx => some (vd, lanes fun _ => lo32 (s.sreg c sx))
  | .vexp _ vd va => some (vd, vlanes 0x18 0 (v va) (v va) (v va))
  | .vlog _ vd va => some (vd, vlanes 0x19 0 (v va) (v va) (v va))
  | .vrcp _ vd va => some (vd, vlanes 0x1a 0 (v va) (v va) (v va))
  | .vrsq _ vd va => some (vd, vlanes 0x1b 0 (v va) (v va) (v va))
  | .vtanh _ vd va => some (vd, vlanes 0x1c 0 (v va) (v va) (v va))
  | .vrsum _ vd va => some (vd, lanes fun _ => vrsumOf (v va))
  | .vrmax _ vd va => some (vd, lanes fun _ => vrmaxOf (v va))
  | _ => none

/-- The effect of a register-form vector instruction; `rd` is the state that operands are read from. -/
def effVec (rd : State) (c : CoreId) (i : Instr) (s : State) : State :=
  match i with
  | .vext _ sx va lane => s.setS c sx (zx32 (laneOf (rd.vreg c va) lane.toNat))
  | _ =>
    match rd.vecVal c i with
    | some (vd, b) => s.setV c vd b
    | none => s

/-- VADD (R161). -/
def execVadd (c : CoreId) (vd va vb : BitVec 4) (s : State) : Res :=
  .next (s.issueOne c (.vadd c vd va vb) noFault fun s => effVec s c (.vadd c vd va vb) s)

/-- VSUB (R161). -/
def execVsub (c : CoreId) (vd va vb : BitVec 4) (s : State) : Res :=
  .next (s.issueOne c (.vsub c vd va vb) noFault fun s => effVec s c (.vsub c vd va vb) s)

/-- VMUL (R161). -/
def execVmul (c : CoreId) (vd va vb : BitVec 4) (s : State) : Res :=
  .next (s.issueOne c (.vmul c vd va vb) noFault fun s => effVec s c (.vmul c vd va vb) s)

/-- VFMA (R161). -/
def execVfma (c : CoreId) (vd va vb vc : BitVec 4) (s : State) : Res :=
  .next (s.issueOne c (.vfma c vd va vb vc) noFault fun s => effVec s c (.vfma c vd va vb vc) s)

/-- VCMP (R144). -/
def execVcmp (c : CoreId) (vd va vb : BitVec 4) (cond : BitVec 3) (s : State) : Res :=
  .next (s.issueOne c (.vcmp c vd va vb cond) noFault fun s => effVec s c (.vcmp c vd va vb cond) s)

/-- VSEL (R144). -/
def execVsel (c : CoreId) (vd va vb vc : BitVec 4) (s : State) : Res :=
  .next (s.issueOne c (.vsel c vd va vb vc) noFault fun s => effVec s c (.vsel c vd va vb vc) s)

/-- VAND (R160). -/
def execVand (c : CoreId) (vd va vb : BitVec 4) (s : State) : Res :=
  .next (s.issueOne c (.vand c vd va vb) noFault fun s => effVec s c (.vand c vd va vb) s)

/-- VOR (R160). -/
def execVor (c : CoreId) (vd va vb : BitVec 4) (s : State) : Res :=
  .next (s.issueOne c (.vor c vd va vb) noFault fun s => effVec s c (.vor c vd va vb) s)

/-- VXOR (R160). -/
def execVxor (c : CoreId) (vd va vb : BitVec 4) (s : State) : Res :=
  .next (s.issueOne c (.vxor c vd va vb) noFault fun s => effVec s c (.vxor c vd va vb) s)

/-- VMIN (R161). -/
def execVmin (c : CoreId) (vd va vb : BitVec 4) (s : State) : Res :=
  .next (s.issueOne c (.vmin c vd va vb) noFault fun s => effVec s c (.vmin c vd va vb) s)

/-- VMAX (R161). -/
def execVmax (c : CoreId) (vd va vb : BitVec 4) (s : State) : Res :=
  .next (s.issueOne c (.vmax c vd va vb) noFault fun s => effVec s c (.vmax c vd va vb) s)

/-- VBCAST (R144). -/
def execVbcast (c : CoreId) (vd : BitVec 4) (sx : BitVec 5) (s : State) : Res :=
  .next (s.issueOne c (.vbcast c vd sx) noFault fun s => effVec s c (.vbcast c vd sx) s)

/-- VEXT (R144). -/
def execVext (c : CoreId) (sx : BitVec 5) (va : BitVec 4) (lane : BitVec 5) (s : State) : Res :=
  .next (s.issueOne c (.vext c sx va lane) noFault fun s => effVec s c (.vext c sx va lane) s)

/-- VEXP (R162). -/
def execVexp (c : CoreId) (vd va : BitVec 4) (s : State) : Res :=
  .next (s.issueOne c (.vexp c vd va) noFault fun s => effVec s c (.vexp c vd va) s)

/-- VLOG (R162). -/
def execVlog (c : CoreId) (vd va : BitVec 4) (s : State) : Res :=
  .next (s.issueOne c (.vlog c vd va) noFault fun s => effVec s c (.vlog c vd va) s)

/-- VRCP (R162). -/
def execVrcp (c : CoreId) (vd va : BitVec 4) (s : State) : Res :=
  .next (s.issueOne c (.vrcp c vd va) noFault fun s => effVec s c (.vrcp c vd va) s)

/-- VRSQ (R162). -/
def execVrsq (c : CoreId) (vd va : BitVec 4) (s : State) : Res :=
  .next (s.issueOne c (.vrsq c vd va) noFault fun s => effVec s c (.vrsq c vd va) s)

/-- VTANH (R162). -/
def execVtanh (c : CoreId) (vd va : BitVec 4) (s : State) : Res :=
  .next (s.issueOne c (.vtanh c vd va) noFault fun s => effVec s c (.vtanh c vd va) s)

/-- VRSUM (R163). -/
def execVrsum (c : CoreId) (vd va : BitVec 4) (s : State) : Res :=
  .next (s.issueOne c (.vrsum c vd va) noFault fun s => effVec s c (.vrsum c vd va) s)

/-- VRMAX (R163). -/
def execVrmax (c : CoreId) (vd va : BitVec 4) (s : State) : Res :=
  .next (s.issueOne c (.vrmax c vd va) noFault fun s => effVec s c (.vrmax c vd va) s)

/-- TVOP (R164). -/
def execTvop (c : CoreId) (td ta n func : BitVec 6) (vb vc : BitVec 4) (bsrc : BitVec 2) (cond : BitVec 3) (s : State) : Res :=
  .next (s.issueOne c (.tvop c td ta n func vb vc bsrc cond) (fun s => s.tvopFault c td ta n func) fun s =>
    s.runFlight c (s.flightOf c s.cc (.tvop c td ta n func vb vc bsrc cond)))

/-- TRED (R166). -/
def execTred (c : CoreId) (vd : BitVec 4) (ta n : BitVec 6) (kind : BitVec 3) (vb : BitVec 4) (s : State) : Res :=
  .next (s.issueOne c (.tred c vd ta n kind vb) (fun s => s.tredFault c ta n kind) fun s =>
    s.runFlight c (s.flightOf c s.cc (.tred c vd ta n kind vb)))

end Sys2Proof.Machine
end

