-- ==== Sys2Proof/Machine/Mesh.lean ====
section
/-! DEFINITION. Sys2Proof/Machine/Mesh.lean: beats on the mesh and the attachment lanes, bindings and mesh sends (R35 to R39, R170 to R174, R191, R471). -/

namespace Sys2Proof.Machine

/-! ### Slot tables and neighbours -/

/-- The entry of output `o` of a core in slot `t` (R35): N, E, S, W, EJECT, EDGE as 0 to 5. -/
def State.portEnt (s : State) (c : CoreId) (o t : Nat) : Nat := s.entry16 (rPortSlot c o) (t % s.slotPeriod c)

/-- Fields of a port slot entry. -/
def entCtx (e : Nat) : Nat := bitsN e 15 13
def entSrc (e : Nat) : Nat := bitsN e 12 10
def entFlow (e : Nat) : Nat := bitsN e 5 0

/-- The edge router of a core and the core's place in its list, none for a core of no attachment (R41). -/
def edgeOf (c : CoreId) : Option (Nat × Nat) :=
  let h := c.hall.val
  let y := c.row.val
  let x := c.col.val
  match (List.range 24).find? fun n => linkEdge n == c.idx with
  | some n => some (linkRouter n, 0)
  | none =>
    if h % 4 = 0 then (if x = 0 then some (0, y) else none)
    else if y = (if h < 4 then 0 else 11) ∧ x < 8 then some (x / 4, x % 4) else none

/-- The lane-table entry of a core of capacity 3 in slot `t`, zero for the others (R174). -/
def State.laneEnt (s : State) (c : CoreId) (t : Nat) : Nat :=
  match edgeOf c with
  | some (e, k) => if c.hall.val % 4 = 0 ∧ e = 0 then 0 else s.entry16 (rLaneTab c.hall.val e k) (t % s.slotPeriod c)
  | none => 0

/-- Has the core an attachment of capacity 3: every edge core but the front die's (R41, R173)? -/
def cap3 (c : CoreId) : Bool :=
  match edgeOf c with
  | some (e, _) => !(c.hall.val % 4 == 0 && e == 0)
  | none => false

/-- The link whose edge core this is. -/
def linkAt (c : CoreId) : Option Nat := (List.range 24).find? fun n => linkEdge n == c.idx

/-- The core at a global position (R12). -/
def coreAt (x y : Nat) : CoreId := coreOfIdx (144 * (4 * (y / 12) + x / 12) + 12 * (y % 12) + x % 12)

/-- The core that output `o` (N, E, S, W) reaches, with the code of its input there; none at an edge of the grid (R12, R36). -/
def meshNext (c : CoreId) (o : Nat) : Option (CoreId × Nat) :=
  let x := gx c
  let y := gy c
  match o with
  | 0 => if y = 0 then none else some (coreAt x (y - 1), 3)
  | 1 => if x = 47 then none else some (coreAt (x + 1) y, 4)
  | 2 => if y = 23 then none else some (coreAt x (y + 1), 1)
  | 3 => if x = 0 then none else some (coreAt (x - 1) y, 2)
  | _ => none

/-- Does the code name an input that lies on attachment lane 1: an output or input of the grid's edge (R173)? -/
def offGrid (c : CoreId) (code : Nat) : Bool := decide (1 ≤ code) && decide (code ≤ 4) && (meshNext c (code - 1)).isNone

/-- A beat put on its way. -/
def State.addBeat (s : State) (dest inp due src : Nat) (data : Bytes) : State := { s with beats := s.beats ++ [⟨dest, inp, due, src, data⟩] }

/-- A beat leaves through an attachment lane (R173): towards the link, with the slot `t` in which it is sent (R272), or out to
a stack's or the front die's router (log entry 54, DEDUCED). -/
def State.laneOut (s : State) (c : CoreId) (l t src : Nat) (data : Bytes) : State :=
  match linkAt c with
  | some n => s.addBeat (laneKey n l) t (s.cc + 1) src data
  | none =>
    match edgeOf c with
    | some (e, _) => s.count (rEdgeBeatsOut c.hall.val e) 1
    | none => s

/-- A beat leaves the core in slot `t` through output `o`: to the neighbour's input, to the core's own store, or onto a lane. Lane 1 is the output that
faces the edge at a core of capacity 3; at any other core without a neighbour there, and towards a hole, which has no mesh links, nothing takes the beat
(R173, R187). -/
def State.beatOut (s : State) (c : CoreId) (o t flow src : Nat) (data : Bytes) : State :=
  if o = 4 then s.addBeat c.idx (16 + flow) (s.cc + 1) src data
  else if o = 5 then s.laneOut c 0 t src data
  else match meshNext c o with
    | some (d, i) => if s.isHole d then s else s.addBeat d.idx i (s.cc + 1) src data
    | none => if cap3 c then s.laneOut c 1 t src data else s

/-- The outputs of a core that satisfy `p` of their entry in slot `t`, each with its entry. -/
def State.outsAt (s : State) (c : CoreId) (t : Nat) (p : Nat → Nat → Bool) : List (Nat × Nat) :=
  ((List.range 6).map fun o => (o, s.portEnt c o t)).filter fun e => p e.1 e.2

/-- The beat through every output of a list, in slot `t`. -/
def State.beatAll (s : State) (c : CoreId) (t src : Nat) (data : Bytes) (l : List (Nat × Nat)) : State :=
  l.foldl (fun s e => s.beatOut c e.1 t (entFlow e.2) src data) s

/-! ### Bindings (R38, R191) -/

/-- Open bindings of a flow. -/
def State.bindings (s : State) (c : CoreId) (f : Nat) : Nat :=
  ((List.range 4).filter fun q => s.flag (rBind c f q) fBindValid).length

/-- Where the next binding of a flow stands: behind those already open, or, when the last entry is one that a write has opened above an empty one, in the
first empty one (R38, R191) (log entry 159, DEDUCED). -/
def State.bindNext (s : State) (c : CoreId) (f : Nat) : Nat :=
  let empty (q : Nat) : Bool := !s.flag (rBind c f q) fBindValid
  match (List.range 4).find? fun q => (List.range (4 - q)).all fun i => empty (q + i) with
  | some q => q
  | none => ((List.range 4).find? empty).getD 0

/-- Open a binding (R38): behind those already open. -/
def State.bindOpen (s : State) (c : CoreId) (f : Nat) (ct base : Nat) (stride : Nat) (n : Nat) : State :=
  let q := s.bindNext c f
  (s.setReg (rBind c f q) (Fd.put fBindValid (Fd.put fBindCt (Fd.put fBindBase (Fd.put fBindStride 0 stride) base) ct) 1)).setReg
    (rBindCnt c f q) (Fd.put fBindCntRows 0 n)

/-- The oldest open binding of a flow. -/
def State.bindOldest (s : State) (c : CoreId) (f : Nat) : Nat := ((List.range 4).find? fun q => s.flag (rBind c f q) fBindValid).getD 0

/-- Close the oldest binding of a flow: the others move up. -/
def State.bindClose (s : State) (c : CoreId) (f : Nat) : State :=
  let mv (s : State) (q : Nat) : State := (s.setReg (rBind c f q) (s.reg (rBind c f (q + 1)))).setReg (rBindCnt c f q) (s.reg (rBindCnt c f (q + 1)))
  ((((List.range 3).drop (s.bindOldest c f)).foldl mv s).setReg (rBind c f 3) (regReset (rBind c f 3))).setReg (rBindCnt c f 3) 0

/-- The binding of a flow that takes its next row: the oldest open one with rows left (R38). One whose last row is written stays open until it posts. -/
def State.bindTakes (s : State) (c : CoreId) (f : Nat) : Option Nat :=
  (List.range 4).find? fun q => s.flag (rBind c f q) fBindValid && decide (s.fget (rBindCnt c f q) fBindCntWritten < s.fget (rBindCnt c f q) fBindCntRows)

/-- A completion post on its way: applied in cc `at_` (R37, R38, R142). -/
def State.addPost (s : State) (c : CoreId) (at_ ct n : Nat) : State := s.modCore c fun x => { x with posts := x.posts ++ [(at_, ct, n)] }

/-- A beat that EJECT takes with no open binding is discarded (R38, R471). -/
def State.ejectStray (s : State) (c : CoreId) (f : Nat) : State :=
  s.faultCore c (coreRec c 0x1004 (s.p1 c) f ((s.slot + 2 ^ 48 - 1) % 2 ^ 48))

/-- An EJECT write (R38): the beat lands in the flow's binding; the cc after its last row the binding posts and then closes (log entry 52,
DEDUCED). -/
def State.ejectWrite (s : State) (c : CoreId) (f : Nat) (data : Bytes) : State :=
  match s.bindTakes c f with
  | none => s.ejectStray c f
  | some q =>
    let w := s.fget (rBindCnt c f q) fBindCntWritten
    let n := s.fget (rBindCnt c f q) fBindCntRows
    let a := (s.fget (rBind c f q) fBindBase : Int) + w * sextNat 32 (s.fget (rBind c f q) fBindStride)
    let s1 := (s.wrStore c (a.toNat % 0x200000) data).fput (rBindCnt c f q) fBindCntWritten (w + 1)
    if w + 1 < n then s1
    else (s1.addPost c (s.cc + 1) (s.fget (rBind c f q) fBindCt) n).modCore c fun x => { x with closing := x.closing ++ [(s.cc + 1, f)] }

/-! ### Beats (R170, R171) -/

/-- The input that a beat's code names, and whether it came on lane 2 (R173). -/
def beatInput (code : Nat) : Nat × Bool := if code = 15 then (7, true) else (code, false)

/-- The outputs that take an input's beat in slot `t`: of input EDGE, those whose lane-select bit names the lane it came on (R35, R173). -/
def State.takersAt (s : State) (c : CoreId) (t inp : Nat) (lane2 : Bool) : List (Nat × Nat) :=
  let ln := s.laneEnt c t
  s.outsAt c t fun o e => entSrc e == inp && (inp != 7 || (bitN ln o && decide (o < 5)) == lane2)

/-- The outputs that take an input's beat in this slot. -/
def State.takers (s : State) (c : CoreId) (inp : Nat) (lane2 : Bool) : List (Nat × Nat) := s.takersAt c s.slot inp lane2

/-- Where beats that enter cores by inputs in slot `t` are written, hop by hop: the cores whose EJECT entries take them, each with the entry's flow (R35,
R38, R170). -/
def State.reached (s : State) : Nat → Nat → List (CoreId × Nat × Bool) → List (CoreId × Nat)
  | 0, _, _ => []
  | _ + 1, _, [] => []
  | n + 1, t, at_ =>
    let outs := at_.flatMap fun a => (s.takersAt a.1 t a.2.1 a.2.2).map fun e => (a.1, e)
    let next := outs.filterMap fun o => if o.2.1 < 4 then ((meshNext o.1 o.2.1).filter fun d => !s.isHole d.1).map fun d => (d.1, d.2, false) else none
    ((outs.filter fun o => o.2.1 == 4).map fun o => (o.1, entFlow o.2.2)) ++ s.reached n (t + 1) next.dedup

/-- The owner of a slot at an input: the context that the entry taking the beat gives, else the context of the core (R35, R171). -/
def State.slotOwner (s : State) (c : CoreId) (inp : Nat) (lane2 : Bool) : CtxId :=
  match s.takers c inp lane2 with
  | e :: _ => ⟨entCtx e.2 % 8, Nat.mod_lt _ (by decide)⟩
  | [] => s.coreCtx c

/-- A correct beat leaves through every output that names its input in this slot (R35, R173): of input EDGE, by the lane it came on. -/
def State.beatPass (s : State) (c : CoreId) (inp : Nat) (lane2 : Bool) (src : Nat) (data : Bytes) : State :=
  let ln := s.laneEnt c s.slot
  let outs := s.takers c inp lane2
  let two := inp ≠ 7 ∧ bitsN ln 13 11 = inp
  if outs = [] ∧ ¬ two then s.faultCore c (coreRec c 0x1006 (s.p1 c) inp (s.slot % 2 ^ 48))
  else
    let s1 := s.beatAll c s.slot src data outs
    if two then s1.laneOut c 2 s.slot src data else s1

/-- A beat that an input receives (R170, R171). The hall raises MESH_ECC for the context that owns the slot; P1 of its record has the layout of R92, whose
context field holds the context of the core (log entry 168, DESIGN CHOICE). CORE_STATUS.FAULT shows it where that context is on the core. -/
def State.beatIn (s : State) (c : CoreId) (inp : Nat) (lane2 : Bool) (src : Nat) (data : Bytes) (ecc : EccRes) : State :=
  match ecc with
  | .clean => s.beatPass c inp lane2 src data
  | .corrected => (s.countC c (rMeshCorrCnt c) 1).beatPass c inp lane2 src data
  | .bad =>
    let k := s.slotOwner c inp lane2
    let s1 := if s.presentOn c k then s.fput (rCoreStatus c) fCoreStatusFault 0x100E else s
    s1.faultHall c.hall.val k (coreRec c 0x100E (s.p1 c) inp (s.slot % 2 ^ 48))

/-- A beat from outside the mesh enters the hall through the router of a core's attachment, by input EDGE or the input that faces the edge (R51, R173). -/
def State.attachIn (s : State) (c : CoreId) (inp : Nat) : State :=
  match edgeOf c with
  | some (e, _) => if inp = 7 ∨ (cap3 c && offGrid c inp) = true then s.count (rEdgeBeatsIn c.hall.val e) 1 else s
  | none => s

/-- MESH_BEAT (R35, R171) (log entry 53, DESIGN CHOICE). -/
def execMeshBeat (c : CoreId) (inp : BitVec 3) (lane2 : Bool) (data : Bytes) (ecc : EccRes) (s : State) : Res :=
  let code := if lane2 then 15 else inp.toNat
  match s.beats.find? fun b => b.dest == c.idx && b.inp == code with
  | some b => .next (({ s with beats := dropFirst (fun b => b.dest == c.idx && b.inp == code) s.beats } : State).beatIn c inp.toNat lane2 b.src
      (slice data 0 128) ecc)
  | none => .next ((s.attachIn c inp.toNat).beatIn c inp.toNat lane2 1152 (slice data 0 128) ecc)

/-! ### Mesh sends (R37) -/

/-- Does slot `t` hold an injection entry of flow `f` on the core? -/
def State.injects (s : State) (c : CoreId) (f t : Nat) : Bool :=
  (s.outsAt c t fun _ e => entSrc e == 5 && entFlow e == f) != [] || (bitsN (s.laneEnt c t) 13 11 == 5 && bitsN (s.laneEnt c t) 10 5 == f)

/-- Has the flow an injection slot on this core (R45)? -/
def State.slotted (s : State) (c : CoreId) (f : Nat) : Bool := (List.range (s.slotPeriod c)).any fun t => s.injects c f t

/-- The faults of a mesh send (R37, R45, R62) (log entry 51, DEDUCED). -/
def State.msndFault (s : State) (c : CoreId) (ts n flow : BitVec 6) : Option EvRec :=
  if n = 0 then none
  else if !s.slotted c flow.toNat then some (coreRec c 0x1005)
  else if !s.tileOk c ts.toNat n.toNat then some (s.tileShape c [ts.toNat])
  else none

/-- A row leaves in slot `t` through every output that names the flow's injection. -/
def State.sendRow (s : State) (c : CoreId) (f t : Nat) (data : Bytes) : State :=
  let s1 := s.beatAll c t c.idx data (s.outsAt c t fun _ e => entSrc e == 5 && entFlow e == f)
  let ln := s.laneEnt c t
  if bitsN ln 13 11 = 5 ∧ bitsN ln 10 5 = f then s1.laneOut c 2 t c.idx data else s1

/-- The first injection slot of a flow from `t` on. -/
def nextSlot (s : State) (c : CoreId) (f : Nat) : Nat → Nat → Nat
  | 0, t => t
  | fuel + 1, t => if s.injects c f t then t else nextSlot s c f fuel (t + 1)

/-- The injection slots of `n` rows from slot `t` on: s_0 to s_(n-1). -/
def sendSlots (s : State) (c : CoreId) (f : Nat) : Nat → Nat → List Nat
  | 0, _ => []
  | n + 1, t =>
    let u := nextSlot s c f (s.slotPeriod c) t
    u :: sendSlots s c f n (u + 1)

/-- A send begins (R37): its rows take the flow's first injection slots from two cc on. They are taken as the slot of the bundle finds them; the rules
give no tile order between slots of one bundle (log entry 167, DESIGN CHOICE). -/
def State.sendStart (s : State) (c : CoreId) (ts n flow ct : BitVec 6) : State :=
  if n = 0 then s.addPost c (s.cc + 1) ct.toNat 0
  else
    let ats := (sendSlots s c flow.toNat n.toNat (s.slot + 2)).map fun u => s.cc + (u - s.slot)
    s.modCore c fun x =>
      { x with
        sends := x.sends ++ [⟨flow, ct, n, (List.range n.toNat).map (s.row c ts.toNat), 0, ats, ts.toNat⟩]
        order := x.order + 1 }

/-- The rest of a send's rows leave, each in its slot. -/
def State.sendRest (s : State) (c : CoreId) (x : SendS) : State :=
  ((x.rows.zip x.ats).drop x.sent).foldl (fun s e => s.sendRow c x.flow.toNat (s.slot + (e.2 - s.cc)) e.1) s

/-- A send has ended: the flow is free and its completion target is posted (R37). -/
def State.sendEnd (s : State) (c : CoreId) (x : SendS) (at_ : Nat) : State :=
  (s.modCore c fun y => { y with sends := dropFirst (· == x) y.sends }).addPost c at_ x.ct.toNat x.n.toNat

/-- Bindings that have posted by cc `t` close (R38). -/
def State.closings (s : State) (c : CoreId) (t : Nat) : State :=
  let due := (s.core c).closing.filter fun p => decide (p.1 ≤ t)
  due.foldl (fun s p => if (s.bindTakes c p.2).all fun q => q != s.bindOldest c p.2 then s.bindClose c p.2 else s)
    (if due = [] then s else s.modCore c fun x => { x with closing := x.closing.filter fun p => !decide (p.1 ≤ t) })

/-- Completion posts due by cc `t` are applied, and the bindings among them close (R38, R218). -/
def State.posts (s : State) (c : CoreId) (t : Nat) : State :=
  let due := (s.core c).posts.filter fun p => decide (p.1 ≤ t)
  (due.foldl (fun s p => s.ctPost c p.2.1 p.2.2)
    (if due = [] then s else s.modCore c fun x => { x with posts := x.posts.filter fun p => !decide (p.1 ≤ t) })).closings c t

/-- MSND_COMPLETE (R37): the flow's oldest send has left; the flow is freed and the target posted. -/
def execMsndComplete (c : CoreId) (flow : BitVec 6) (s : State) : Res :=
  match (s.core c).sends.find? fun x => x.flow == flow with
  | none => .next s
  | some x => .next (((s.sendRest c x).sendEnd c x s.cc).posts c s.cc)

end Sys2Proof.Machine
end

