-- ==== Sys2Proof/Machine/Move.lean ====
section
/-! DEFINITION. Sys2Proof/Machine/Move.lean: the MOV slot (R64, R140 to R142) and the ARR slot (R143), as rows. -/

namespace Sys2Proof.Machine

/-! ### MOV -/

/-- TLD (R64). -/
def execTld (c : CoreId) (tl n : BitVec 6) (sb ss : BitVec 5) (off : BitVec 16) (s : State) : Res :=
  .next (s.issueOne c (.tld c tl n sb ss off) (fun s => s.tldFault c tl n (s.storeAddr c sb off) (s.stride c ss)) fun s =>
    s.runFlight c (s.flightOf c s.cc (.tld c tl n sb ss off)))

/-- TST (R64). -/
def execTst (c : CoreId) (tl n : BitVec 6) (sb ss : BitVec 5) (off : BitVec 16) (s : State) : Res :=
  .next (s.issueOne c (.tst c tl n sb ss off) (fun s => s.tldFault c tl n (s.storeAddr c sb off) (s.stride c ss)) fun s =>
    s.runFlight c (s.flightOf c s.cc (.tst c tl n sb ss off)))

/-- TCPY (R58). -/
def execTcpy (c : CoreId) (td n ts : BitVec 6) (s : State) : Res :=
  .next (s.issueOne c (.tcpy c td n ts) (fun s => s.tcpyFault c td n ts) fun s => s.runFlight c (s.flightOf c s.cc (.tcpy c td n ts)))

/-- MSND (R37): a later send on a flow that an earlier one still occupies waits. -/
def execMsnd (c : CoreId) (ts n flow ct : BitVec 6) (s : State) : Res :=
  .next (s.issueOne c (.msnd c ts n flow ct) (fun s => s.msndFault c ts n flow) fun s =>
    if n ≠ 0 ∧ (s.core c).sends.any fun x => x.flow == flow then s
    else if n = 0 then s.ctPost c ct.toNat 0
    else s.sendStart c ts n flow ct)

/-- Row count of an MBIND, and its fault (R65, R140). -/
def State.bindRows (s : State) (c : CoreId) (sn : BitVec 5) : Nat := (s.sreg c sn).toNat % 2 ^ 16
def State.mbindFault (s : State) (c : CoreId) (flow : BitVec 6) (sb ss sn : BitVec 5) : Option EvRec :=
  if storeOk (s.sreg c sb).toInt (s.stride c ss) (s.bindRows c sn) 128 then none else some (coreRec c 0x1007 flow.toNat)

/-- A binding opens, for the rows of the cc after (R30), or with no rows opens and closes at once (R38, R142). -/
def effMbind (rd : State) (c : CoreId) (flow ct : BitVec 6) (sb ss sn : BitVec 5) (s : State) : State :=
  let n := rd.bindRows c sn
  if n = 0 then s.ctPost c ct.toNat 0
  else (s.bindOpen c flow.toNat ct.toNat (rd.sreg c sb).toNat ((rd.sreg c ss).toNat % 2 ^ 32) n).modCore c fun x =>
    { x with opened := x.opened ++ [flow.toNat] }

/-- MBIND (R38): with four bindings open for the flow it waits. -/
def execMbind (c : CoreId) (flow ct : BitVec 6) (sb ss sn : BitVec 5) (s : State) : Res :=
  .next (s.issueOne c (.mbind c flow ct sb ss sn) (fun s => s.mbindFault c flow sb ss sn) fun s =>
    if s.bindRows c sn ≠ 0 ∧ s.bindings c flow.toNat = 4 then s else effMbind s c flow ct sb ss sn s)

/-- Descriptors live on the core (R155). -/
def State.descLive (s : State) (c : CoreId) : Nat := s.fget (rStrmStatus c) fStrmStatusDescLive

/-- The fault of SLNCH (R140). -/
def State.slnchFault (s : State) (c : CoreId) (sb : BitVec 5) (off : BitVec 16) : Option EvRec :=
  let a := s.storeAddr c sb off
  if a % 64 = 0 ∧ 0 ≤ a ∧ a + 64 ≤ 0x200000 then none else some (s.streamDesc c)

/-- A descriptor is launched into the next entry (R43, R155). -/
def effSlnch (rd : State) (c : CoreId) (sb : BitVec 5) (off : BitVec 16) (s : State) : State :=
  let k := s.descLive c
  let a := (rd.storeAddr c sb off).toNat
  (((s.setReg (rStrmEntry c k) (Fd.put fStrmEntryValid (Fd.put fStrmEntryDescIdx 0 (a / 64)) 1)).setReg (rStrmProgress c k) 0).fput
    (rStrmStatus c) fStrmStatusDescLive (k + 1)).modCore c fun x =>
      { x with descs := x.descs ++ [{ pc := rd.pc c, bytes := none, staged := false, waiting := false, frame := none, tagOk := false, reqs := 0, pages := [], id := x.order, idx := none }], order := x.order + 1 }

/-- SLNCH (R140): with 64 descriptors live it waits. -/
def execSlnch (c : CoreId) (sb : BitVec 5) (off : BitVec 16) (s : State) : Res :=
  .next (s.issueOne c (.slnch c sb off) (fun s => s.slnchFault c sb off) fun s =>
    if s.descLive c = 64 then s else effSlnch s c sb off s)

/-- SLD (R141). -/
def execSld (c : CoreId) (sd sb : BitVec 5) (w : BitVec 2) (sx : Bool) (off : BitVec 16) (s : State) : Res :=
  .next (s.issueOne c (.sld c sd sb w sx off) (fun s => s.moveFault c sb off (2 ^ w.toNat)) fun s =>
    s.runFlight c (s.flightOf c s.cc (.sld c sd sb w sx off)))

/-- SST (R141). -/
def execSst (c : CoreId) (sa sb : BitVec 5) (w : BitVec 2) (off : BitVec 16) (s : State) : Res :=
  .next (s.issueOne c (.sst c sa sb w off) (fun s => s.moveFault c sb off (2 ^ w.toNat)) fun s =>
    s.runFlight c (s.flightOf c s.cc (.sst c sa sb w off)))

/-- VLD (R141). -/
def execVld (c : CoreId) (vd : BitVec 4) (sb : BitVec 5) (off : BitVec 16) (s : State) : Res :=
  .next (s.issueOne c (.vld c vd sb off) (fun s => s.moveFault c sb off 128) fun s =>
    s.runFlight c (s.flightOf c s.cc (.vld c vd sb off)))

/-- VST (R141). -/
def execVst (c : CoreId) (va : BitVec 4) (sb : BitVec 5) (off : BitVec 16) (s : State) : Res :=
  .next (s.issueOne c (.vst c va sb off) (fun s => s.moveFault c sb off 128) fun s =>
    s.runFlight c (s.flightOf c s.cc (.vst c va sb off)))

/-! ### ARR -/

/-- PASS (R78): its result waits for PASS_CHECK while checking is on. -/
def execPass (c : CoreId) (ta tw td n : BitVec 6) (rate : BitVec 2) (keep chain : Bool) (s : State) : Res :=
  .next (s.issueOne c (.pass c ta tw td n rate keep chain) (fun s => s.passFault c ta tw td n rate keep chain) fun s =>
    if n = 0 then s else (s.passIssue c s.cc ta tw td n rate keep chain).passSettle c)

/-- PASS_CHECK (R90): the check of the core's oldest run ends. Before that run's own check cc its whole result is written at once;
from then on its rows are written in the cc of R31. -/
def execPassCheck (c : CoreId) (upsets : List (BitVec 10 × BitVec 32)) (s : State) : Res :=
  match (s.core c).runs.find? fun r => r.checked && r.result.isNone with
  | none => .next s
  | some r => .next (s.endCheck c r upsets (decide (r.check ≤ s.cc)))

/-- The value of ASTAT (R143). -/
def State.astatVal (s : State) (c : CoreId) : Word := s.arrWord c &&& 0xFFFFFF

/-- ASTAT (R143). -/
def execAstat (c : CoreId) (sd : BitVec 5) (s : State) : Res :=
  .next (s.issueOne c (.astat c sd) noFault fun s => s.setS c sd (s.astatVal c))

end Sys2Proof.Machine
end

