-- ==== Sys2Proof/Machine/Sync.lean ====
section
/-! DEFINITION. Sys2Proof/Machine/Sync.lean: the SYN slot (R146, R147, R217 to R226). -/

namespace Sys2Proof.Machine

/-- The number that MODE and IMM name: IMM, or the low 32 bits of S[IMM[4:0]] (R146). -/
def State.synVal (s : State) (c : CoreId) (isReg : Bool) (imm : BitVec 16) : Nat :=
  if isReg then (s.sreg c (imm.setWidth 5)).toNat % 2 ^ 32 else imm.toNat

/-- The same as a signed number (R146). -/
def State.synInt (s : State) (c : CoreId) (isReg : Bool) (imm : BitVec 16) : Int :=
  if isReg then sextNat 32 (s.synVal c true imm) else imm.toInt

/-- POST's effect (R146, R217). -/
def effPost (rd : State) (c : CoreId) (sc : BitVec 6) (mode : BitVec 2) (imm : BitVec 16) (s : State) : State :=
  let r := mode.getLsbD 1
  if mode.getLsbD 0 then s.scSet c sc.toNat (rd.synVal c r imm) else s.scAdd c sc.toNat (rd.synInt c r imm)

/-- Does a WAIT hold (R146, R219)? MODE 0 and 1 compare at least, 2 and 3 equal. -/
def State.waitOk (s : State) (c : CoreId) (sc : BitVec 6) (mode : BitVec 2) (imm : BitVec 16) : Bool :=
  semHolds (mode.getLsbD 1) (s.fget (rSc c sc.toNat) fScValue) (s.synVal c (mode.getLsbD 0) imm)

/-- WAIT's effect: CONSUME takes the compared value (R219). -/
def effWait (rd : State) (c : CoreId) (sc : BitVec 6) (mode : BitVec 2) (consume : Bool) (imm : BitVec 16) (s : State) : State :=
  if consume then s.scAdd c sc.toNat (-(rd.synVal c (mode.getLsbD 0) imm : Int)) else s

/-- Fields of a semaphore name (R147): is the semaphore another device's, and its virtual number. -/
def State.semRemote (s : State) (w : Word) : Bool := w.getLsbD 63 && decide (bitsN w.toNat 47 24 ≠ s.devId)
def semVsem (w : Word) : Nat := bitsN w.toNat 13 0

/-- Messages that the core itself has sent and that still wait in the local queue of its router: of its class, the ordinary one (R175, R182). -/
def State.injected (s : State) (c : CoreId) : Nat :=
  (s.bell.filter fun m => m.x == gx c && m.y == gy c && m.inp == 4 && !m.out && decide (bellType m ≤ 3) && bellSrc m == c.pos).length

/-- Is the core's injection queue full (R182) (log entry 13, DESIGN CHOICE)? -/
def State.bellFull (s : State) (c : CoreId) : Bool := decide (Config.bellQueueExtra < s.injected c)

/-- A request of a core to the semaphore unit (R147, R179, R226): to the front die, or with RMT to the link router of SYNC_RT. -/
def State.semSend (s : State) (c : CoreId) (type : Nat) (w : Word) (p0 p1 : BitVec 32) : State :=
  let k := (s.coreCtx c).val
  if s.semRemote w then
    s.bellFrom c (bellHdr type k 3 true (s.fget (rSyncRt c) fSyncRtHall) 14 (s.fget (rSyncRt c) fSyncRtRouter) c.pos)
      [BitVec.ofNat 32 (bitsN w.toNat 47 24), p0, p1]
  else s.bellFrom c (bellHdr type k 2 false 0 15 15 c.pos) [p0, p1]

/-- GPOST's effect (R146). -/
def effGpost (rd : State) (c : CoreId) (sa : BitVec 5) (mode : BitVec 2) (imm : BitVec 16) (s : State) : State :=
  let w := rd.sreg c sa
  s.semSend c 1 w (BitVec.ofNat 32 (semVsem w)) (BitVec.ofInt 32 (rd.synInt c (mode == 2) imm))

/-- GWAIT's fault: a wait on another device's semaphore (R147). -/
def State.gwaitFault (s : State) (c : CoreId) (sa : BitVec 5) : Option EvRec :=
  if (s.sreg c sa).getLsbD 63 then some (s.illegal c) else none

/-- GWAIT's effect (R224). -/
def effGwait (rd : State) (c : CoreId) (sa : BitVec 5) (mode : BitVec 2) (consume : Bool) (imm : BitVec 16) (s : State) : State :=
  let w := rd.sreg c sa
  let v := BitVec.ofNat 32 (rd.synVal c (mode.getLsbD 0) imm)
  (((s.semSend c 2 w (BitVec.ofNat 32 (mode.toNat * 2 ^ 30 + bton consume * 2 ^ 29 + semVsem w)) v).fput (rSyncStatus c)
    fSyncStatusGwaitPend 1)).modCore c fun x => { x with gwait := some ⟨w, v, rd.pc c⟩ }

/-- GWATCH's effect (R225). -/
def effGwatch (rd : State) (c : CoreId) (sa sv : BitVec 5) (sc : BitVec 6) (cond : BitVec 2) (s : State) : State :=
  let w := rd.sreg c sa
  (s.semSend c 3 w (BitVec.ofNat 32 (cond.toNat * 2 ^ 30 + sc.toNat * 2 ^ 14 + semVsem w)) (lo32 (rd.sreg c sv))).fput (rSyncStatus c)
    fSyncStatusWatches (s.fget (rSyncStatus c) fSyncStatusWatches + 1)

/-- POST (R146). -/
def execPost (c : CoreId) (sc : BitVec 6) (mode : BitVec 2) (imm : BitVec 16) (s : State) : Res :=
  .next (s.issueOne c (.post c sc mode imm) noFault fun s => effPost s c sc mode imm s)

/-- WAIT (R219): it waits until the comparison holds. -/
def execWait (c : CoreId) (sc : BitVec 6) (mode : BitVec 2) (consume : Bool) (imm : BitVec 16) (s : State) : Res :=
  .next (s.issueOne c (.wait c sc mode consume imm) noFault fun s =>
    if s.waitOk c sc mode imm then effWait s c sc mode consume imm s else s)

/-- GPOST (R146): with its injection queue full it waits (R182). -/
def execGpost (c : CoreId) (sa : BitVec 5) (mode : BitVec 2) (imm : BitVec 16) (s : State) : Res :=
  .next (s.issueOne c (.gpost c sa mode imm) noFault fun s => if s.bellFull c then s else effGpost s c sa mode imm s)

/-- GWAIT (R224): with its injection queue full it waits (R182). -/
def execGwait (c : CoreId) (sa : BitVec 5) (mode : BitVec 2) (consume : Bool) (imm : BitVec 16) (s : State) : Res :=
  .next (s.issueOne c (.gwait c sa mode consume imm) (fun s => s.gwaitFault c sa) fun s =>
    if s.bellFull c then s else effGwait s c sa mode consume imm s)

/-- GWATCH (R225): with 8 watches outstanding, or its injection queue full (R182), it waits. -/
def execGwatch (c : CoreId) (sa sv : BitVec 5) (sc : BitVec 6) (cond : BitVec 2) (s : State) : Res :=
  .next (s.issueOne c (.gwatch c sa sv sc cond) noFault fun s =>
    if 8 ≤ s.fget (rSyncStatus c) fSyncStatusWatches ∨ s.bellFull c = true then s else effGwatch s c sa sv sc cond s)

end Sys2Proof.Machine
end

