-- ==== Sys2Proof/Machine/Stall.lean ====
section
/-! DEFINITION. Sys2Proof/Machine/Stall.lean: to which cause a cc of waiting is charged (R47, R48). -/

namespace Sys2Proof.Machine

/-- The 64 bytes of live descriptor `e`: those read at its start, else those in the core store (R148, R152). -/
def State.descBytes (s : State) (c : CoreId) (e : Nat) : Bytes :=
  match ((s.core c).descs[e]?).bind DescS.bytes with
  | some b => b
  | none => s.rdStore c (64 * s.fget (rStrmEntry c e) fStrmEntryDescIdx) 64

/-- Read data held at the stacks' routers for a descriptor (R42). -/
def State.backFor (s : State) (c : CoreId) (id : Nat) : Nat :=
  (s.hbm.map fun k => (k.2.back.filter fun b => b.req.core == c && b.req.ctx == s.coreCtx c && b.req.desc == id).length).sum

/-- The cause of a wait on a live descriptor (R42, R47): Cellar; its staging area; the edge slot while all that it waits for is a request that has not
left its core, or read data held for a return slot; the stack if a side is in HBM; otherwise a slot or port S within the device's cores (log entry 55, DESIGN CHOICE). -/
def State.descCause (s : State) (c : CoreId) (e : Nat) : Nat :=
  let b := s.descBytes c e
  let d := (s.core c).descs[e]?
  if bitN (leAt b 57 1) 2 then 8
  else if (d.map DescS.waiting).getD false then 5
  else
    let out := (s.core c).outq.filter fun o => some o.desc == d.map DescS.id
    let back := s.backFor c ((d.map DescS.id).getD 0)
    if (out != [] || back != 0) && (d.map DescS.reqs).getD 0 == back && !out.any OutReqS.refused then 7
    else if leAt b 0 6 < hbmEnd ∨ leAt b 6 6 < hbmEnd then 5 else 6

/-- The oldest live descriptor whose completion target is local counter `k`. -/
def State.descFor (s : State) (c : CoreId) (k : Nat) : Option Nat :=
  (List.range (s.core c).descs.length).find? fun e => leAt (s.descBytes c e) 58 2 == 0x4000 + k

/-- Semaphores, by physical number, that the Quern of a group of context `k` posts (R47). -/
def State.quernSems (s : State) (k : Nat) : List Nat :=
  let vs := (s.ctxGroups k).flatMap fun g =>
    [s.fget (rGtSem g) fGtSemStepdone, s.fget (rGtSem g) fGtSemVerdict, s.fget (rGtSem g) fGtSemUpdate] ++
      (List.range (s.fget (rGtPlancnt g) fGtPlancntBuckets)).flatMap fun t =>
        match s.readPlan 0 g t with
        | .ok p => [p.gradCt, p.gathCt]
        | .error _ => []
  vs.map fun v => s.fget (rSemMap k v) fSemMapPsem

/-- GWATCH requests of a core for counter `k` that are still on the bell wire: the flit with SC and VSEM, of requests to this device or to another. -/
def State.gwatchesOut (s : State) (c : CoreId) (k : Nat) (rmt : Bool) : List Nat :=
  s.bell.filterMap fun m =>
    let w := (m.pay.getD (bton rmt) 0).toNat
    if bellType m = 3 ∧ bellSrc m = c.pos ∧ bitN m.hdr.toNat 22 = rmt ∧ bitsN w 19 14 = k then some w else none

/-- Outstanding GWATCHes of a core that fire counter `k`, by physical semaphore. -/
def State.watchesFor (s : State) (c : CoreId) (k : Nat) : List Nat :=
  (s.sem.entries.filterMap fun e => match e with
    | .watch w => match w.to_ with
      | .core d sc => if d = c ∧ sc.toNat = k then some w.psem else none
      | .remote .. => none
    | .wait _ => none) ++
  (s.gwatchesOut c k false).map fun w => s.fget (rSemMap (s.coreCtx c).val (bitsN w 13 0)) fSemMapPsem

/-- Has the core a watch on another device's semaphore that fires counter `k`: on its way to the link router, or as a tag there? -/
def State.tagsFor (s : State) (c : CoreId) (k : Nat) : Bool :=
  s.gwatchesOut c k true != [] || s.links.any fun l => l.2.tags.any fun t => !t.quarantine && t.core == c && t.sc.toNat == k

/-- Flows of a core's open bindings that post counter `k`. -/
def State.bindFlows (s : State) (c : CoreId) (k : Nat) : List Nat :=
  (List.range 64).filter fun f => (List.range 4).any fun q => s.flag (rBind c f q) fBindValid && s.fget (rBind c f q) fBindCt == k

/-- Ingress flows that a link's lane map releases into the hall (R272). -/
def State.laneFlows (s : State) (n : Nat) : List Nat :=
  s.regs.flatMap fun e =>
    if rLinkLaneMap n 0 ≤ e.1 ∧ e.1 < rLinkLaneMap n 3072 then
      (List.range 4).filterMap fun j => let x := bitsN e.2.toNat (16 * j + 15) (16 * j); if bitN x 7 then some (x % 64) else none
    else []

/-- Does link `n` release flow `f` for the context of the core (R272, R291)? -/
def State.linkFeeds (s : State) (c : CoreId) (n f : Nat) : Bool :=
  (s.laneFlows n).contains f && s.fget (rLinkFlow n f) fLinkFlowCtx == (s.coreCtx c).val

/-- The slots, each with its lane, in which a link's lane map releases a flow (R272). -/
def State.laneSlots (s : State) (n f : Nat) : List (Nat × Nat) :=
  s.regs.flatMap fun e =>
    if rLinkLaneMap n 0 ≤ e.1 ∧ e.1 < rLinkLaneMap n 3072 then
      (List.range 4).filterMap fun j =>
        let x := bitsN e.2.toNat (16 * j + 15) (16 * j)
        let i := (e.1 - rLinkLaneMap n 0) / 8 * 4 + j
        if bitN x 7 ∧ x % 64 = f then some (i / 3, i % 3) else none
    else []

/-- Is the core's binding for flow `f` fed by that flow of link `n`: do the slot tables bring the beats of some slot of its lane map to the core's EJECT
(R281)? -/
def State.linkReaches (s : State) (c : CoreId) (n f : Nat) : Bool :=
  s.linkFeeds c n f && (s.laneSlots n f).any fun u =>
    (s.reached 80 (u.1 + 1) [(coreOfIdx (linkEdge n), beatInput (laneInput n u.2))]).contains (c, f)

/-- Is counter `k` of the core the credit counter of flow `f` of link `n` (R291)? -/
def State.creditFlow (s : State) (c : CoreId) (k n f : Nat) : Bool :=
  s.flag (rLinkFlow n f) fLinkFlowEgPost && s.fget (rLinkFlow n f) fLinkFlowSc == k && s.fget (rLinkFlow n f) fLinkFlowPos == c.pos

/-- Is counter `k` of the core the credit counter of a link flow? Only flows whose register has been written can post (EG_POST). -/
def State.creditFor (s : State) (c : CoreId) (k : Nat) : Bool :=
  s.regs.any fun e =>
    let o := e.1 - rLinkFlow 0 0
    decide (rLinkFlow 0 0 ≤ e.1) && decide (e.1 < rLinkFlow 24 0) && decide (o % 0x10000 < 0x400) && decide (o % 16 = 0)
      && s.creditFlow c k (o / 0x10000) (o % 0x10000 / 16)

/-- Is it the credit counter of a Quern station's LOCAL_FLOW (R298)? -/
def State.quernCredit (s : State) (c : CoreId) (k : Nat) : Bool :=
  (List.range 24).any fun n => s.flag (rQst n) fQstV && s.creditFlow c k n (s.fget (rQst n) fQstLocalFlow)

/-- Millpond queues whose completion target is counter `k` of the core. -/
def State.queuesFor (s : State) (c : CoreId) (k : Nat) : List Nat :=
  (List.range 16).filter fun q => s.flag (rMpQCfg q) fMpQCfgEn && s.fget (rMpQCt q) fMpQCtCtKind == 1
    && s.fget (rMpQCt q) fMpQCtCtId % 64 == k && s.fget (rMpQCt q) fMpQCtPos == c.pos && s.fget rMpCfg fMpCfgCtx == (s.coreCtx c).val

/-- The cause of a wait on local counter `k`, by the first row of R47 that applies. -/
def State.waitCause (s : State) (c : CoreId) (k : Nat) : Nat :=
  let ws := s.watchesFor c k
  let fl := s.bindFlows c k
  let qs := s.queuesFor c k
  match s.descFor c k with
  | some e => s.descCause c e
  | none =>
    if s.pond.readyList == [] && qs.any fun q => (s.requests q).isSome then 9
    else if s.quernCredit c k || (ws != [] && ws.any fun p => (s.quernSems (s.coreCtx c).val).contains p) then 10
    else if fl.any fun f => s.links.any fun l => (l.2.heldAt.any fun h => h.1 == f) && s.linkReaches c l.1 f then 11
    else if (fl != [] && (List.range 24).any fun n => fl.any (s.linkFeeds c n)) || s.tagsFor c k || s.creditFor c k then 4
    else if ((s.core c).sends.any fun x => x.ct.toNat == k) || fl != [] then 2
    else if ws != [] || (qs != [] && s.pond.readyList != []) then 3
    else 2

/-- The cause while the core holds a step-end marker (R137, R356): its own sends and passes, its streams, the gear change, the group's COMMIT, or the others. -/
def State.markerCause (s : State) (c : CoreId) : Nat :=
  let x := s.core c
  match x.marker with
  | .retired _ =>
    let k := (s.coreCtx c).val
    if s.ebc.evaluating || s.ebc.change.isSome then 12 else if x.descs != [] then s.descCause c 0
    else if (s.ctx k).boundary && (s.ctxGroups k).any fun g => !(s.group g).committed then 4 else 3
  | _ => 2

/-- Does a Millpond queue with a request pending and no slot READY post semaphore `p` (R340, R354)? -/
def State.pondWaits (s : State) (p : Nat) : Bool :=
  s.pond.readyList == [] && (List.range 16).any fun q =>
    s.flag (rMpQCfg q) fMpQCfgEn && s.fget (rMpQCt q) fMpQCtCtKind == 2 && (s.requests q).isSome
      && s.fget (rSemMap (s.fget rMpCfg fMpCfgCtx) (s.fget (rMpQCt q) fMpQCtCtId)) fSemMapPsem == p

/-- The cause while a GWAIT is outstanding (R224, R340). -/
def State.gwaitCause (s : State) (c : CoreId) : Nat :=
  match (s.core c).gwait with
  | some g =>
    let p := s.fget (rSemMap (s.coreCtx c).val (semVsem g.sem)) fSemMapPsem
    if s.pondWaits p then 9 else if (s.quernSems (s.coreCtx c).val).contains p then 10 else 3
  | none => 3

/-- Which of several causes is charged (R47): RESTART, PREEMPT, POWER_GATE, GEAR_CHANGE first, then the lowest index. -/
def pickCause (l : List Nat) : Nat :=
  if l.contains 15 then 15 else if l.contains 14 then 14 else if l.contains 13 then 13 else if l.contains 12 then 12
  else match l with
    | [] => 0
    | x :: xs => xs.foldl min x

end Sys2Proof.Machine
end

