-- ==== Sys2Proof/Machine/Uses.lean ====
section
/-! DEFINITION. Sys2Proof/Machine/Uses.lean: the registers and tiles that each instruction names, reads and writes (R28, R132, R133). Scalar registers count from 0, vector registers from 32. -/

namespace Sys2Proof

open Machine

/-- Registers that the instruction reads (R133) (log entry 49, DEDUCED). -/
def Instr.srcRegs : Instr → List Nat
  | .br _ cond sa _ => if cond = 6 then [] else [sa.toNat]
  | .jmpr _ sa => [sa.toNat]
  | .callr _ sa => [sa.toNat]
  | .loop _ src sa _ _ => if src then [sa.toNat] else []
  | .add _ _ sa sb => [sa.toNat, sb.toNat]
  | .sub _ _ sa sb => [sa.toNat, sb.toNat]
  | .and _ _ sa sb => [sa.toNat, sb.toNat]
  | .or _ _ sa sb => [sa.toNat, sb.toNat]
  | .xor _ _ sa sb => [sa.toNat, sb.toNat]
  | .shl _ _ sa sb => [sa.toNat, sb.toNat]
  | .shr _ _ sa sb => [sa.toNat, sb.toNat]
  | .sra _ _ sa sb => [sa.toNat, sb.toNat]
  | .slt _ _ sa sb => [sa.toNat, sb.toNat]
  | .sltu _ _ sa sb => [sa.toNat, sb.toNat]
  | .seq _ _ sa sb => [sa.toNat, sb.toNat]
  | .min _ _ sa sb => [sa.toNat, sb.toNat]
  | .max _ _ sa sb => [sa.toNat, sb.toNat]
  | .mul _ _ sa sb => [sa.toNat, sb.toNat]
  | .mulh _ _ sa sb => [sa.toNat, sb.toNat]
  | .mulhu _ _ sa sb => [sa.toNat, sb.toNat]
  | .div _ _ sa sb => [sa.toNat, sb.toNat]
  | .divu _ _ sa sb => [sa.toNat, sb.toNat]
  | .rem _ _ sa sb => [sa.toNat, sb.toNat]
  | .remu _ _ sa sb => [sa.toNat, sb.toNat]
  | .fadd _ _ sa sb => [sa.toNat, sb.toNat]
  | .fmul _ _ sa sb => [sa.toNat, sb.toNat]
  | .ffma _ sd sa sb => [sa.toNat, sb.toNat, sd.toNat]
  | .addi _ _ sa _ => [sa.toNat]
  | .andi _ _ sa _ => [sa.toNat]
  | .ori _ _ sa _ => [sa.toNat]
  | .xori _ _ sa _ => [sa.toNat]
  | .shli _ _ sa _ => [sa.toNat]
  | .shri _ _ sa _ => [sa.toNat]
  | .srai _ _ sa _ => [sa.toNat]
  | .slti _ _ sa _ => [sa.toNat]
  | .insh _ sd _ _ => [sd.toNat]
  | .tcfg _ _ sa => [sa.toNat]
  | .fcvti _ _ sa => [sa.toNat]
  | .icvtf _ _ sa => [sa.toNat]
  | .tld _ _ _ sb ss _ => [sb.toNat, ss.toNat]
  | .tst _ _ _ sb ss _ => [sb.toNat, ss.toNat]
  | .mbind _ _ _ sb ss sn => [sb.toNat, ss.toNat, sn.toNat]
  | .slnch _ sb _ => [sb.toNat]
  | .sld _ _ sb _ _ _ => [sb.toNat]
  | .sst _ sa sb _ _ => [sa.toNat, sb.toNat]
  | .vld _ _ sb _ => [sb.toNat]
  | .vst _ va sb _ => [vdst va, sb.toNat]
  | .vadd _ _ va vb => [vdst va, vdst vb]
  | .vsub _ _ va vb => [vdst va, vdst vb]
  | .vmul _ _ va vb => [vdst va, vdst vb]
  | .vand _ _ va vb => [vdst va, vdst vb]
  | .vor _ _ va vb => [vdst va, vdst vb]
  | .vxor _ _ va vb => [vdst va, vdst vb]
  | .vmin _ _ va vb => [vdst va, vdst vb]
  | .vmax _ _ va vb => [vdst va, vdst vb]
  | .vfma _ _ va vb vc => [vdst va, vdst vb, vdst vc]
  | .vsel _ _ va vb vc => [vdst va, vdst vb, vdst vc]
  | .vcmp _ _ va vb _ => [vdst va, vdst vb]
  | .vbcast _ _ sx => [sx.toNat]
  | .vext _ _ va _ => [vdst va]
  | .vexp _ _ va => [vdst va]
  | .vlog _ _ va => [vdst va]
  | .vrcp _ _ va => [vdst va]
  | .vrsq _ _ va => [vdst va]
  | .vtanh _ _ va => [vdst va]
  | .vrsum _ _ va => [vdst va]
  | .vrmax _ _ va => [vdst va]
  | .tvop _ _ _ n func vb vc _ _ => if n = 0 ∨ 0x18 ≤ func.toNat then [] else if func = 0x04 ∨ func = 0x09 then [vdst vb, vdst vc] else [vdst vb]
  | .tred _ _ _ n kind vb => if n = 0 ∨ kind.toNat < 2 then [] else [vdst vb]
  | .post _ _ mode imm => if mode.getLsbD 1 then [imm.toNat % 32] else []
  | .wait _ _ mode _ imm => if mode.getLsbD 0 then [imm.toNat % 32] else []
  | .gpost _ sa mode imm => if mode = 2 then [sa.toNat, imm.toNat % 32] else [sa.toNat]
  | .gwait _ sa mode _ imm => if mode.getLsbD 0 then [sa.toNat, imm.toNat % 32] else [sa.toNat]
  | .gwatch _ sa sv _ _ => [sa.toNat, sv.toNat]
  | _ => []

/-- Registers that the instruction writes (R132). -/
def Instr.dstRegs : Instr → List Nat
  | .call _ _ => [31]
  | .callr _ _ => [31]
  | .add _ sd _ _ => [sd.toNat]
  | .sub _ sd _ _ => [sd.toNat]
  | .and _ sd _ _ => [sd.toNat]
  | .or _ sd _ _ => [sd.toNat]
  | .xor _ sd _ _ => [sd.toNat]
  | .shl _ sd _ _ => [sd.toNat]
  | .shr _ sd _ _ => [sd.toNat]
  | .sra _ sd _ _ => [sd.toNat]
  | .slt _ sd _ _ => [sd.toNat]
  | .sltu _ sd _ _ => [sd.toNat]
  | .seq _ sd _ _ => [sd.toNat]
  | .min _ sd _ _ => [sd.toNat]
  | .max _ sd _ _ => [sd.toNat]
  | .mul _ sd _ _ => [sd.toNat]
  | .mulh _ sd _ _ => [sd.toNat]
  | .mulhu _ sd _ _ => [sd.toNat]
  | .div _ sd _ _ => [sd.toNat]
  | .divu _ sd _ _ => [sd.toNat]
  | .rem _ sd _ _ => [sd.toNat]
  | .remu _ sd _ _ => [sd.toNat]
  | .fadd _ sd _ _ => [sd.toNat]
  | .fmul _ sd _ _ => [sd.toNat]
  | .ffma _ sd _ _ => [sd.toNat]
  | .addi _ sd _ _ => [sd.toNat]
  | .andi _ sd _ _ => [sd.toNat]
  | .ori _ sd _ _ => [sd.toNat]
  | .xori _ sd _ _ => [sd.toNat]
  | .shli _ sd _ _ => [sd.toNat]
  | .shri _ sd _ _ => [sd.toNat]
  | .srai _ sd _ _ => [sd.toNat]
  | .slti _ sd _ _ => [sd.toNat]
  | .movi _ sd _ => [sd.toNat]
  | .insh _ sd _ _ => [sd.toNat]
  | .rdsp _ sd _ => [sd.toNat]
  | .fcvti _ sd _ => [sd.toNat]
  | .icvtf _ sd _ => [sd.toNat]
  | .sld _ sd _ _ _ _ => [sd.toNat]
  | .vld _ vd _ _ => [vdst vd]
  | .astat _ sd => [sd.toNat]
  | .vadd _ vd _ _ => [vdst vd]
  | .vsub _ vd _ _ => [vdst vd]
  | .vmul _ vd _ _ => [vdst vd]
  | .vand _ vd _ _ => [vdst vd]
  | .vor _ vd _ _ => [vdst vd]
  | .vxor _ vd _ _ => [vdst vd]
  | .vmin _ vd _ _ => [vdst vd]
  | .vmax _ vd _ _ => [vdst vd]
  | .vfma _ vd _ _ _ => [vdst vd]
  | .vsel _ vd _ _ _ => [vdst vd]
  | .vcmp _ vd _ _ _ => [vdst vd]
  | .vbcast _ vd _ => [vdst vd]
  | .vext _ sx _ _ => [sx.toNat]
  | .vexp _ vd _ => [vdst vd]
  | .vlog _ vd _ => [vdst vd]
  | .vrcp _ vd _ => [vdst vd]
  | .vrsq _ vd _ => [vdst vd]
  | .vtanh _ vd _ => [vdst vd]
  | .vrsum _ vd _ => [vdst vd]
  | .vrmax _ vd _ => [vdst vd]
  | .tred _ vd _ n _ _ => if n = 0 then [] else [vdst vd]
  | _ => []

/-- Registers that the checks of a fault at issue read (R131): those of an address, a stride or a count, of TCFG's word and of GWAIT's semaphore. -/
def Instr.checkRegs : Instr → List Nat
  | .tcfg _ _ sa => [sa.toNat]
  | .tld _ _ _ sb ss _ => [sb.toNat, ss.toNat]
  | .tst _ _ _ sb ss _ => [sb.toNat, ss.toNat]
  | .mbind _ _ _ sb ss sn => [sb.toNat, ss.toNat, sn.toNat]
  | .slnch _ sb _ => [sb.toNat]
  | .sld _ _ sb _ _ _ => [sb.toNat]
  | .sst _ _ sb _ _ => [sb.toNat]
  | .vld _ _ sb _ => [sb.toNat]
  | .vst _ _ sb _ => [sb.toNat]
  | .gwait _ sa _ _ _ => [sa.toNat]
  | _ => []

/-- Registers that the instruction names as destinations, whatever its N (R132). -/
def Instr.dstNames : Instr → List Nat
  | .tred _ vd _ _ _ _ => [vdst vd]
  | i => i.dstRegs

/-- Tiles that the instruction names in its tile fields, whatever its N or KEEP (R132). -/
def Instr.tileFields : Instr → List Nat
  | .tld _ tl _ _ _ _ => [tl.toNat]
  | .tst _ tl _ _ _ _ => [tl.toNat]
  | .tcpy _ td _ ts => [td.toNat, ts.toNat]
  | .msnd _ ts _ _ _ => [ts.toNat]
  | .pass _ ta tw td _ _ _ _ => [ta.toNat, tw.toNat, td.toNat]
  | .tvop _ td ta _ _ _ _ _ _ => [td.toNat, ta.toNat]
  | .tred _ _ ta _ _ _ => [ta.toNat]
  | _ => []

/-- Tiles that the instruction reads (R28). -/
def Instr.srcTiles : Instr → List Nat
  | .tst _ tl n _ _ _ => if n = 0 then [] else [tl.toNat]
  | .tcpy _ _ n ts => if n = 0 then [] else [ts.toNat]
  | .msnd _ ts n _ _ => if n = 0 then [] else [ts.toNat]
  | .pass _ ta tw _ n _ _ _ => if n = 0 then [] else [ta.toNat, tw.toNat]
  | .tvop _ _ ta n _ _ _ _ _ => if n = 0 then [] else [ta.toNat]
  | .tred _ _ ta n _ _ => if n = 0 then [] else [ta.toNat]
  | _ => []

/-- Tiles that the instruction writes, or for TCFG reshapes (R28, R139). -/
def Instr.dstTiles : Instr → List Nat
  | .tcfg _ tn _ => [tn.toNat]
  | .tld _ tl n _ _ _ => if n = 0 then [] else [tl.toNat]
  | .tcpy _ td n _ => if n = 0 then [] else [td.toNat]
  | .pass _ _ _ td n _ keep _ => if n = 0 ∨ keep then [] else [td.toNat]
  | .tvop _ td _ n _ _ _ _ _ => if n = 0 then [] else [td.toNat]
  | _ => []

end Sys2Proof
end

