-- ==== Sys2Proof/Machine/Issue.lean ====
section
/-! DEFINITION. Sys2Proof/Machine/Issue.lean: fetching bundles and issuing the head bundle whole, or charging what holds it (R28 to R31, R47, R52, R53, R129 to R136). -/

namespace Sys2Proof.Machine

/-! ### Fetch (R52) -/

/-- The bundle at an index of the core store. -/
def State.bundleAt (s : State) (c : CoreId) (i : Nat) : BundleS := ⟨BitVec.ofNat 16 i, BitVec.ofNat 256 (leNat (s.rdStore c (32 * i) 32))⟩

/-- The bundles from index `i` to the end of its line. -/
def State.lineFrom (s : State) (c : CoreId) (i : Nat) : List BundleS := (List.range (4 - i % 4)).map fun j => s.bundleAt c (i + j)

/-- One line enters the issue queue, if it has room for four bundles and port F has not served a fetch in this cc (R52, R72). -/
def State.fetch (s : State) (c : CoreId) : State :=
  let x := s.core c
  if s.run c && !x.fetched && decide (x.queue.length ≤ 4) then
    s.setCore c { x with queue := x.queue ++ s.lineFrom c x.fetchIdx, fetchIdx := (x.fetchIdx / 4 * 4 + 4) % 65536, fetched := true }
  else s

/-- START of every active loop (R154). -/
def State.loopStarts (s : State) (c : CoreId) : List Nat := (List.range (s.loopDep c)).map fun k => s.loopFld c k fLoopEntryStart

/-- The bundle at `pc` issues: if an active loop begins there, its line is kept as it was fetched, and what belongs to no active loop is let go (R52). -/
def State.keepLine (s : State) (c : CoreId) (pc : Nat) : State :=
  let starts := s.loopStarts c
  let x := s.core c
  if starts = [] ∧ x.kept = [] then s
  else
    let old := x.kept.filter fun e => e.1 != pc && starts.contains e.1
    let line := x.queue.takeWhile fun b => b.idx.toNat / 4 == pc / 4
    s.setCore c { x with kept := if starts.contains pc then (pc, line) :: old else old }

/-- The bundles of an active loop's first line: as kept, or read again where a stop or a jump has left none (log entry 178, DESIGN CHOICE). -/
def State.loopLine (s : State) (c : CoreId) (i : Nat) : List BundleS :=
  match (s.core c).kept.find? fun e => e.1 == i with
  | some e => e.2
  | none => s.lineFrom c i

/-- BUNDLE_FETCH (R52). -/
def execBundleFetch (c : CoreId) (s : State) : Res := .next (s.fetch c)

/-! ### What holds a bundle (R28, R30, R68, R133) -/

/-- Is a write of register `r` outstanding in cc `t`? -/
def CoreS.regPend (x : CoreS) (t r : Nat) : Bool := x.flights.any fun f => f.dests.any fun d => d.1 == r && decide (t < d.2)

/-- Is a write of tile `n` outstanding in cc `t`? -/
def CoreS.tileLate (x : CoreS) (t n : Nat) : Bool :=
  (x.flights.any fun f => f.writes.any fun w => w.1 == n && decide (t < w.2)) ||
    x.runs.any fun r => match r.last with
      | some p => p.td.toNat == n && decide (t < r.w + p.n.toNat)
      | none => false

/-- Is tile `n` not free in cc `t`: written, read or locked? -/
def CoreS.tileHeld (x : CoreS) (checked : Bool) (t n : Nat) : Bool :=
  x.tileLate t n ||
    (x.flights.any fun f => f.reads.any fun r => r.1 == n && decide (t < r.2)) ||
    (x.sends.any fun d => d.tile == n && d.ats.any fun a => decide (t < a)) ||
    (x.runs.any fun r => (passHolds r.checked r.w r.list).any fun h => h.1 == n && decide (t < h.2)) ||
    (passHolds checked noEnd x.chain).any fun h => h.1 == n && decide (t < h.2)

/-- The class whose Next an instruction keeps, and how many cc (R30, R151): none for Next = t + 1 on every path (log entry 48, DEDUCED). -/
def nextUse : Instr → Option (Nat × Nat)
  | .div .. => some (3, 20)
  | .divu .. => some (3, 20)
  | .rem .. => some (3, 20)
  | .remu .. => some (3, 20)
  | .tld _ _ n _ _ _ => some (11, max 1 n.toNat)
  | .tst _ _ n _ _ _ => some (12, max 1 n.toNat)
  | .tcpy _ _ n _ => some (13, max 1 n.toNat)
  | .tvop _ _ _ n _ _ _ _ _ => some (35, max 1 n.toNat)
  | .tred _ _ _ n _ _ => some (35, max 1 n.toNat)
  | .pass .. => some (21, 32)
  | _ => none

/-- Every cycle that an instruction will hold if it issues in cc `t` (R28, R58, R31, R37). -/
def State.instrWalks (s : State) (c : CoreId) (t : Nat) (i : Instr) : List WalkS :=
  match i with
  | .pass _ ta tw td n _ keep _ =>
    if n = 0 then []
    else
      let d := max (t + 33) ((s.core c).arrLast + 1)
      let e := d + n.toNat - 1
      [⟨t + 1, 32, some tw.toNat, some 1⟩, ⟨d, n.toNat, some ta.toNat, some 0⟩] ++
        if keep then [] else [⟨if s.checking c then e + 73 else e + 66, n.toNat, some td.toNat, none⟩]
  | .msnd _ ts n flow _ =>
    (SendS.mk flow 0 n [] 0 ((sendSlots s c flow.toNat n.toNat (s.slot + 2)).map fun u => t + (u - s.slot)) ts.toNat).walks
  | _ => (s.flightOf c t i).walks

/-- The causes, as STALL_CNT indices, that hold an instruction of the head bundle in this cc (R28, R47). An MBIND with no rows opens no binding and does
not wait for one to close (log entry 174, DESIGN CHOICE). -/
def State.holds (s : State) (c : CoreId) (i : Instr) : List Nat :=
  let x := s.core c
  let t := s.cc
  let ch := s.checking c
  let early := (if i.srcRegs.any (x.regPend t) || i.srcTiles.any (x.tileLate t) then [0] else [])
  let dest := i.dstRegs.any (x.regPend t) || i.dstTiles.any (x.tileHeld ch t)
    || (let held := x.allWalks; (s.instrWalks c t i).any fun w => held.any (walksMeet w))
    || (match nextUse i with
      | some (k, _) => decide (t < sget (fun _ => 0) x.unitNext k)
      | none => false)
    || (match i with
      | .msnd _ _ n flow _ => n != 0 && x.sends.any fun d => d.flow == flow
      | .mbind _ flow _ _ _ sn => s.bindRows c sn != 0 && s.bindings c flow.toNat == 4
      | .pass .. => decide (t < x.arrHold)
      | .astat .. => decide (t < x.arrHold)
      | _ => false)
  early ++ (if dest then [1] else []) ++ match i with
    | .wait _ sc mode _ imm => if s.waitOk c sc mode imm then [] else [s.waitCause c sc.toNat]
    | .slnch .. => if s.descLive c = 64 then [s.descCause c 0] else []
    | .gwatch _ sa _ _ _ =>
      if 8 ≤ s.fget (rSyncStatus c) fSyncStatusWatches then [if (s.sreg c sa).getLsbD 63 then 4 else 3]
      else if s.bellFull c then [if s.semRemote (s.sreg c sa) then 4 else 3] else []
    | .gpost _ sa _ _ => if s.bellFull c then [if s.semRemote (s.sreg c sa) then 4 else 3] else []
    | .gwait .. => if s.bellFull c then [3] else []
    | .pass .. => if s.slot % 1024 < 64 * s.ebc.gateLvl.getD c.hall.val 0 then [13] else []
    | .astat .. => if s.slot % 1024 < 64 * s.ebc.gateLvl.getD c.hall.val 0 then [13] else []
    | _ => []

/-! ### Faults of the head bundle (R53, R131, R132) -/

/-- The fault that an instruction raises at issue (R131) (log entry 60, DEDUCED). -/
def State.issueFault (s : State) (c : CoreId) (i : Instr) : Option EvRec :=
  match i with
  | .loop .. => s.loopFault c
  | .lbrk .. => s.lbrkFault c
  | .stepend .. => s.markerFault c
  | .exit .. => s.markerFault c
  | .tcfg _ tn sa => s.tcfgFault c tn sa
  | .tld _ tl n sb ss off => s.tldFault c tl n (s.storeAddr c sb off) (s.stride c ss)
  | .tst _ tl n sb ss off => s.tldFault c tl n (s.storeAddr c sb off) (s.stride c ss)
  | .tcpy _ td n ts => s.tcpyFault c td n ts
  | .msnd _ ts n flow _ => s.msndFault c ts n flow
  | .mbind _ flow _ sb ss sn => s.mbindFault c flow sb ss sn
  | .slnch _ sb off => s.slnchFault c sb off
  | .sld _ _ sb w _ off => s.moveFault c sb off (2 ^ w.toNat)
  | .sst _ _ sb w off => s.moveFault c sb off (2 ^ w.toNat)
  | .vld _ _ sb off => s.moveFault c sb off 128
  | .vst _ _ sb off => s.moveFault c sb off 128
  | .pass _ ta tw td n rate keep chain => s.passFault c ta tw td n rate keep chain
  | .tvop _ td ta n func _ _ _ _ => s.tvopFault c td ta n func
  | .tred _ _ ta n kind _ => s.tredFault c ta n kind
  | .gwait _ sa _ _ _ => s.gwaitFault c sa
  | _ => none

/-- Faults that depend on a register are looked for once that register is resident (log entry 27, DEDUCED); what else the instruction reads does not
delay them. -/
def State.knownFault (s : State) (c : CoreId) (i : Instr) : Option EvRec :=
  match s.issueFault c i with
  | none => none
  | some r =>
    let regFault := r.code == 0x1007 || r.code == 0x100D || (match i with
      | .tcfg .. => true
      | .gwait .. => true
      | _ => false)
    if regFault && i.checkRegs.any ((s.core c).regPend s.cc) then none else some r

/-- Does a list hold an element twice? -/
def hasDup : List Nat → Bool
  | [] => false
  | a :: l => l.contains a || hasDup l

/-- Would two slots of one bundle use one bank, collector or port M in one cc (R28, R57)? -/
def State.slotsMeet (s : State) (c : CoreId) (l : List Instr) : Bool :=
  let rec go : List (List WalkS) → Bool
    | [] => false
    | a :: as => (as.any fun b => a.any fun v => b.any (walksMeet v)) || go as
  go (l.map (s.instrWalks c s.cc))

/-- Everything that holds the bundle in this cc: what holds its slots, and their meeting each other. -/
def State.bundleHolds (s : State) (c : CoreId) (l : List Instr) : List Nat :=
  l.flatMap (s.holds c) ++ if s.slotsMeet c l then [1] else []

/-- The bundle rules (R132): no register written twice, no TCFG of a tile that another slot names. -/
def bundleRules (l : List Instr) : Bool :=
  !hasDup (l.flatMap Instr.dstNames) &&
    !l.any fun i => match i with
      | .tcfg _ tn _ => l.any fun j => j.tileFields.contains tn.toNat
      | _ => false

/-- Is a bundle index within CODE_RANGE (R53)? -/
def State.inRange (s : State) (c : CoreId) (i : Nat) : Bool :=
  decide (s.fget (rCodeRange c) fCodeRangeBaseLine ≤ i / 4) && decide (i / 4 ≤ s.fget (rCodeRange c) fCodeRangeLimitLine)

/-- The checks of the head bundle, in the order of R131: its instructions, or the first fault. -/
def State.headCheck (s : State) (c : CoreId) (b : BundleS) : Except EvRec (List Instr) :=
  if !s.inRange c b.idx.toNat then .error (coreRec c 0x1008 (s.p1 c) (s.pc c))
  else match decBundle c b.bits with
    | none => .error (s.illegal c)
    | some l =>
      if !bundleRules l then .error (s.illegal c)
      else match l.findSome? fun i => s.knownFault c i with
        | some r => .error r
        | none => .ok l

/-! ### Issue -/

/-- The effect of one slot of an issuing bundle; `rd` is the state before the bundle (R132). -/
def slotEff (rd : State) (c : CoreId) (i : Instr) (s : State) : State :=
  let t := rd.cc
  let fly (s : State) : State :=
    let f := rd.flightOf c t i
    if f.done ≤ t + 1 then s
    else s.modCore c fun x => { x with flights := x.flights ++ [{ f with order := x.order }], order := x.order + 1 }
  let nx (s : State) : State := match nextUse i with
    | some (k, n) => s.modCore c fun x => { x with unitNext := sset (fun _ => 0) x.unitNext k (t + n) }
    | none => s
  nx (fly (match i with
    | .pass _ ta tw td n rate keep chain =>
      if n = 0 then s else s.passIn c { s.passOf c t ta tw td n rate keep chain with pc := rd.pc c }
    | .astat _ sd => s.setS c sd (rd.astatVal c)
    | .msnd _ ts n flow ct => s.sendStart c ts n flow ct
    | .mbind _ flow ct sb ss sn =>
      if rd.bindRows c sn = 0 then s.addPost c t ct.toNat 0 else effMbind rd c flow ct sb ss sn s
    | .slnch _ sb off => effSlnch rd c sb off s
    | .post _ sc mode imm => effPost rd c sc mode imm s
    | .wait _ sc mode consume imm => effWait rd c sc mode consume imm s
    | .gpost _ sa mode imm => effGpost rd c sa mode imm s
    | .gwait _ sa mode consume imm => effGwait rd c sa mode consume imm s
    | .gwatch _ sa sv sc cond => effGwatch rd c sa sv sc cond s
    | _ => effVec rd c i (effScl rd c i (effCtl rd c i s))))

/-- The head bundle issues (R28, R134, R136): PC advances, then every slot has its effect. -/
def State.issueBundle (s : State) (c : CoreId) (b : BundleS) (l : List Instr) : State :=
  let pc := b.idx.toNat
  let taken := l.findSome? fun i => s.ctlTarget c i
  let s1 := (s.keepLine c pc).modCore c fun x => { x with queue := x.queue.drop 1, waited := 0, gated := false, preempted := false, attempt := some none }
  let s2 := match taken with
    | some t => (s1.jump c t).modCore c fun x => { x with bubble := 2 }
    | none =>
      let r := loopEnd c 5 s1 pc
      let r1 := r.1.setPc c r.2
      if r.2 = (pc + 1) % 65536 then r1
      else r1.modCore c fun x => { x with queue := r1.loopLine c r.2, fetchIdx := (r.2 / 4 * 4 + 4) % 65536 }
  (l.foldl (fun st i => slotEff s c i st) s2).stepped c

/-- A cc in which the core cannot issue for cause `i`; `onCounter` tells that a wait on a counter holds the head bundle. -/
def State.stall (s : State) (c : CoreId) (i : Nat) (onCounter : Bool) : State :=
  s.modCore c fun x => { x with attempt := some (some i), waited := if onCounter then x.waited + 1 else 0 }

/-- The oldest pending operation is reissued once nothing holds it; each such cc is RESTART (R69) (log entry 45, DESIGN CHOICE). -/
def State.restartOne (s : State) (c : CoreId) : State :=
  match (s.core c).restart with
  | [] => s
  | f :: fs =>
    match s.reissueFault c f with
    | some r => (s.faultCore c r).stall c 15 false
    | none =>
      -- Registers were captured at first issue, so only tiles, cycles, units and the gating of R33 hold it.
      let hold := (s.holds c f.instr).filter fun k => k == 1 || k == 13 || (k == 0 && f.instr.srcTiles.any ((s.core c).tileLate s.cc))
      if hold ≠ [] then s.stall c 15 false
      else
        let s1 := s.modCore c fun x => { x with restart := fs }
        let g := s.flightOf c s.cc f.instr
        let s2 := match f.instr with
          | .pass _ ta tw td n rate keep chain => s1.passIn c { s1.passOf c s.cc ta tw td n rate keep chain with pc := f.pc, order := f.order }
          | _ => s1.modCore c fun x =>
            { x with
              flights := x.flights ++ [{ g with base := f.base, stride := f.stride, vb := f.vb, vc := f.vc, pc := f.pc, order := f.order }] }
        (s2.stall c 15 false).pendSync c

/-- The fault of the bundle at the head of the queue, if it has one (R131). -/
def State.headFault (s : State) (c : CoreId) : Option EvRec :=
  match (s.core c).queue with
  | [] => none
  | b :: _ => match s.headCheck c b with
    | .error r => some r
    | .ok _ => none

/-- What a core waits for before it looks at its head bundle at all: a GWAIT (R224), a step-end marker (R137). -/
def State.coreWaits (s : State) (c : CoreId) : List Nat :=
  (if s.flag (rSyncStatus c) fSyncStatusGwaitPend then [s.gwaitCause c] else []) ++ if (s.core c).marker ≠ .none then [s.markerCause c] else []

/-- Has the core issued its EXIT? -/
def CoreS.exits (x : CoreS) : Bool := x.marker == .issued true || x.marker == .retired true

/-- The core's one attempt of this cc (R28, R47, R131, R134). The head bundle is checked while operations wait to be reissued, while a GWAIT is outstanding
and behind a STEPEND too, but not behind an EXIT; the cc of its fault is charged to index 2, which no row of R47 names (log entry 44, DESIGN CHOICE). -/
def State.tryIssue (s : State) (c : CoreId) : State :=
  let x := s.core c
  let waits := s.coreWaits c
  let pre (l : List Nat) : List Nat := if x.preempted then 14 :: l else l
  if !s.run c || x.attempt.isSome || x.stopCause.isSome then s
  else if x.restart ≠ [] ∨ waits ≠ [] then
    match if x.bubble = 0 ∧ x.exits = false then s.headFault c else none with
    | some r => (s.faultCore c r).stall c 2 false
    | none => if x.restart ≠ [] then s.restartOne c else s.stall c (pickCause (pre waits)) false
  else if 0 < x.bubble then s.modCore c fun x => { x with bubble := x.bubble - 1, attempt := some none }
  else match x.queue with
    | [] => s
    | b :: _ =>
      match s.headCheck c b with
      | .error r => (s.faultCore c r).stall c 2 false
      | .ok l =>
        let hold := s.bundleHolds c l
        if hold = [] then s.issueBundle c b l
        else
          let onCnt := l.any fun i => match i with
            | .wait _ sc mode _ imm => !s.waitOk c sc mode imm
            | _ => false
          s.stall c (pickCause (pre hold)) onCnt

/-- BUNDLE_ISSUE (R28). -/
def execBundleIssue (c : CoreId) (s : State) : Res := .next (s.tryIssue c)

/-! ### Waiting at the head (R220, R237) -/

/-- The instructions of the head bundle. -/
def State.headInstrs (s : State) (c : CoreId) : List Instr :=
  match (s.core c).queue with
  | [] => []
  | b :: _ => (decBundle c b.bits).getD []

/-- SYNC_CLOCK_GATE (R220): the head bundle has waited on a counter for 16 cc; the core gates until a counter changes (log entry 58, DEDUCED). -/
def execSyncClockGate (c : CoreId) (s : State) : Res :=
  let waits := (s.headInstrs c).any fun i => match i with
    | .wait _ sc mode _ imm => !s.waitOk c sc mode imm
    | _ => false
  .next (if s.run c && waits && decide (16 ≤ (s.core c).waited) then s.modCore c fun x => { x with gated := true } else s)

/-- The current value of the semaphore that a core names (R237). -/
def State.semNow (s : State) (c : CoreId) (w : Word) : Nat :=
  s.fget (rSem (s.fget (rSemMap (s.coreCtx c).val (semVsem w)) fSemMapPsem)) fSemValue

/-- SYNC_TIMEOUT (R237): a GWAIT, or the WAIT or GWATCH at the head, has lasted TMO_MS (log entry 72, DEDUCED). -/
def execSyncTimeout (c : CoreId) (s : State) : Res :=
  let rec_ (pc k want now : Nat) : EvRec := evr 0x4003 c.hall.val 0 (s.p1 c) pc k (want * 2 ^ 32 + now)
  if !s.run c ∨ s.fget (rSyncCtxCfg c.hall.val (s.coreCtx c).val) fSyncCtxCfgTmoMs = 0 then .next s
  else match if s.flag (rSyncStatus c) fSyncStatusGwaitPend then (s.core c).gwait else none with
    | some g =>
      let s1 : State := { s with sem := { s.sem with entries := s.sem.entries.filter fun e => match e with
        | .wait w => w.core ≠ c || w.ctx ≠ s.coreCtx c
        | .watch _ => true } }
      let s2 := (s1.fput (rSyncStatus c) fSyncStatusGwaitPend 0).modCore c fun x => { x with gwait := none }
      .next (s2.faultCore c (rec_ g.pc (semVsem g.sem) g.value.toNat (s.semNow c g.sem)))
    | none =>
      match (s.headInstrs c).findSome? fun i => match i with
        | .wait _ sc mode _ imm =>
          if s.waitOk c sc mode imm then none
          else some (rec_ (s.pc c) sc.toNat (s.synVal c (mode.getLsbD 0) imm) (s.fget (rSc c sc.toNat) fScValue))
        | .gwatch _ sa sv _ _ =>
          if s.fget (rSyncStatus c) fSyncStatusWatches < 8 then none
          else some (rec_ (s.pc c) (semVsem (s.sreg c sa)) (lo32 (s.sreg c sv)).toNat (s.semNow c (s.sreg c sa)))
        | _ => none with
      | some r => .next (s.faultCore c r)
      | none => .next s

end Sys2Proof.Machine
end

