-- ==== Sys2Proof/Machine/CoreEvents.lean ====
section
/-! DEFINITION. Sys2Proof/Machine/CoreEvents.lean: step ends, halts, stops and resumes of cores, the saving of a core's sync state, and what the front die does as a context stops (R16, R39, R44, R67 to R71, R95, R98, R137, R179, R231, R235, R386, R387). -/

namespace Sys2Proof.Machine

/-! ### Step ends (R16, R39, R98) -/

/-- Is a beat that the core sent still on the mesh: not yet written at an EJECT and not yet passed to an attachment lane (R39)? -/
def State.onMesh (s : State) (c : CoreId) : Bool := s.beats.any fun b => b.src == c.idx && (decide (b.dest < 1152) || decide (s.cc < b.due))

/-- STEPEND_RETIRE (R39, R98): every row has left the mesh, every pass is resident and no chain is open. -/
def execStependRetire (c : CoreId) (s : State) : Res :=
  let x := s.core c
  match x.marker with
  | .issued exit =>
    if x.sends = [] ∧ x.runs = [] ∧ x.chain = [] ∧ x.restart = [] ∧ s.onMesh c = false then
      .next (s.modCore c fun y => { y with marker := .retired exit })
    else .next s
  | _ => .next s

/-- Has the core retired its marker, with every stream completion of the step signalled (R16)? -/
def State.coreAtEnd (s : State) (c : CoreId) : Bool :=
  let x := s.core c
  (match x.marker with
    | .retired _ => true
    | _ => false) && x.descs == []

/-- CONTEXT_STEP_BOUNDARY (R16). A core with frames left stops the context, whose boundary is not reached then (R253, R255); a Millpond without a group
commits here (R337). -/
def execContextStepBoundary (k : CtxId) (s : State) : Res :=
  let cores := s.liveCores k.val
  if s.ctxRunning k.val && !(s.ctx k.val).groupHalt && !(s.ctx k.val).boundary && cores != []
    && cores.all fun c => s.presentOn c k && s.coreAtEnd c then
    let left := cores.filter fun c => s.fget (rCelStatus c) fCelStatusFrames != 0
    if left ≠ [] then
      .next ((left.filter fun c => s.fget (rCoreStatus c) fCoreStatusFault != 0x300A).foldl (fun s c =>
        s.faultCore c (coreRec c 0x300A (s.fget (rCelStatus c) fCelStatusFrames))) s)
    else
    let s1 := s.modCtx k.val fun x => { x with boundary := true }
    .next (if s.flag rMpCfg fMpCfgEn && s.pondGroup.isNone && decide (s.fget rMpCfg fMpCfgCtx = k.val) then s1.pondCommit.pfcCheck else s1)
  else .next s

/-- Does the context take part in the device step boundary (R16): running, and neither pre-empted nor halted nor stopped? -/
def State.takesPart (s : State) (k : Nat) : Bool :=
  s.ctxRunning k && !(s.ctx k).groupHalt && (s.activeCores k).any s.run

/-- The energy and duration of the step just ended, and ENG_W from its Headrace energy (R386, R387). -/
def State.stepFigures (s : State) : State :=
  let us := (s.now - s.ebc.stepAt) / unitsUs
  let act := s.fget rHrStatus fHrStatusActive
  let s1 := (s.fput rEbcStepMj fEbcStepMjLastStepMj (s.ebc.stepUj / 1000)).fput rEbcStepUs fEbcStepUsLastStepUs us
  let s2 := if act = 0 ∨ us = 0 then s1 else s1.fput rEbcEng fEbcEngEngW (min 255 (s.ebc.stepHrUj / us / act))
  { s2 with ebc := { s2.ebc with stepUj := 0, stepHrUj := 0, stepAt := s.now, engMeasured := s.ebc.engMeasured || decide (act ≠ 0 ∧ us ≠ 0) } }

/-- DEVICE_STEP_BOUNDARY (R16, R390): every context that takes part is at its boundary; the halls report and the evaluation of R21 begins. -/
def execDeviceStepBoundary (s : State) : Res :=
  let ks := (List.range 8).filter s.takesPart
  if ks ≠ [] ∧ (ks.all fun k => (s.ctx k).boundary) = true ∧ s.ebc.evaluating = false ∧ s.ebc.change = none
    ∧ (ks.any fun k => !(s.ctx k).joined) = true then
    let s1 := s.stepFigures
    .next { s1 with ebc := { s1.ebc with evaluating := true } }
  else .next s

/-- JOIN_TIMEOUT (R16): the context's cores are released with the gear and the decode share as they are. -/
def execJoinTimeout (k : CtxId) (s : State) : Res :=
  let others := (List.range 8).any fun j => s.takesPart j && !(s.ctx j).boundary
  if (s.ctx k.val).boundary && !(s.ctx k.val).joined && s.takesPart k.val && others && !s.ebc.evaluating && s.ebc.change.isNone then
    .next ((s.modCtx k.val fun x => { x with joined := true }).tryRelease k.val)
  else .next s

/-! ### Halting and resuming a core (R67, R69, R76) -/

/-- Issue resumes on a stopped core from PC (R69): what was fetched is fetched again. -/
def State.resumeCore (s : State) (c : CoreId) : State :=
  (((s.settle c).fput (rCoreStatus c) fCoreStatusRun 1).fput (rCoreStatus c) fCoreStatusStopped 0).modCore c fun x =>
    { x with queue := [], kept := [], fetchIdx := s.pc c, bubble := 0, stopCause := none, reissued := 0, waited := 0, gated := false, tellStop := false }

/-- Is a context present on the core and not issuing, while the context itself is not stopped? -/
def State.resumable (s : State) (c : CoreId) : Bool :=
  let k := (s.coreCtx c).val
  (s.core c).present && s.flag (rCoreStatus c) fCoreStatusStopped && !s.flag (rCoreStatus c) fCoreStatusFaulted
    && (s.ctx k).started && (s.ctx k).stopped.isNone && !(s.ctx k).groupHalt

/-- CORE_HALT (R67, R76). -/
def execCoreHalt (c : CoreId) (s : State) : Res :=
  let s1 := s.fput (rCoreCtl c) fCoreCtlHalt 1
  .next (if s.run c then s1.askStop c .halt else s1)

/-- CORE_RESUME (R69, R76). -/
def execCoreResume (c : CoreId) (s : State) : Res :=
  let s1 := s.fput (rCoreCtl c) fCoreCtlHalt 0
  if s.run c then
    .next (s1.modCore c fun x => { x with step := false, stopCause := if x.stopCause = some .halt then none else x.stopCause })
  else if s.resumable c then .next ((s1.tileRestart c [c]).resumeCore c)
  else .next s1

/-- CORE_STEP (R76): only while HALT = 1. -/
def execCoreStep (c : CoreId) (s : State) : Res :=
  if s.flag (rCoreCtl c) fCoreCtlHalt && !s.run c && s.resumable c then
    .next (((s.tileRestart c [c]).resumeCore c).modCore c fun x => { x with step := true })
  else .next s

/-! ### The stop (R67, R95) -/

/-- A discarded pass as an operation to restart. -/
def PassS.restart (p : PassS) (c : CoreId) : FlightS :=
  { flight0 (.pass c p.ta p.tw p.td p.n p.rate p.keep p.chain) p.issue p.pc with order := p.order }

/-- Put an operation into a list in its original issue order (R69). -/
def orderInsert (f : FlightS) : List FlightS → List FlightS
  | [] => [f]
  | g :: gs => if f.order < g.order then f :: g :: gs else g :: orderInsert f gs

/-- What a stop with first idle cc `t` leaves of a core's operations: those abandoned and the passes discarded wait for the restart. -/
def CoreS.stopAt (x : CoreS) (c : CoreId) (t : Nat) : CoreS :=
  let cut := x.flights.filter fun f => abandons f.instr && decide (t < f.done)
  let gone := (x.runs.filter fun r => !decide (r.w < t)).flatMap RunS.list ++ x.chain
  { x with
    flights := x.flights.filter fun f => !(abandons f.instr && decide (t < f.done))
    runs := x.runs.filter fun r => decide (r.w < t)
    chain := [], arrLast := 0, arrHold := 0, unitNext := x.unitNext.filter fun e => e.1 == 3
    restart := (cut ++ gone.map fun p => p.restart c).foldl (fun l f => orderInsert f l) x.restart
    reissued := 0, queue := [], kept := [], bubble := 0, stopCause := none, step := false, gated := false, waited := 0 }

/-- Passes that a stop discards (R95). -/
def CoreS.discarded (x : CoreS) (t : Nat) : Nat := ((x.runs.filter fun r => !decide (r.w < t)).flatMap RunS.list).length + x.chain.length

/-- STOP_DONE to the front die (R179). -/
def State.tellDone (s : State) (c : CoreId) : State := s.bellFrom c (bellHdr 9 (s.coreCtx c).val 0 false 0 15 15 c.pos) []

/-- Have all rows of the core's sends been delivered (R44)? -/
def State.rowsDone (s : State) (c : CoreId) : Bool := (s.core c).sends == [] && !s.onMesh c

/-- The core has stopped: RUN = 0, and the front die is told unless HALT or a breakpoint stopped it (R76, R179); of a pre-emption once the rows of its sends
are delivered (R44). -/
def State.stopped (s : State) (c : CoreId) (cause : StopCause) : State :=
  let s1 := ((s.fput (rCoreStatus c) fCoreStatusRun 0).fput (rCoreStatus c) fCoreStatusStopped 1).modCore c fun x => { x with haltAt := s.cc }
  match cause with
  | .halt => s1
  | .group => ((s1.modCore c CoreS.clearOps).fput (rCoreStatus c) fCoreStatusPend 0).tellDone c
  | .preempt => if s.rowsDone c then s1.tellDone c else s1.modCore c fun x => { x with tellStop := true }
  | .fault _ => s1.tellDone c

/-- A stopped core tells the front die once the rows of its sends are delivered (R44). -/
def State.tellLate (s : State) (c : CoreId) : State :=
  if (s.core c).tellStop && s.rowsDone c then (s.modCore c fun x => { x with tellStop := false }).tellDone c else s

/-- The stop of a core at its bundle boundary: the first cc without an issue is this one, or the next if a bundle has issued. -/
def State.stopCore (s : State) (c : CoreId) (cause : StopCause) : State :=
  let t := if (s.core c).attempt = some none then s.cc + 1 else s.cc
  let n := (s.core c).discarded t
  let s1 := (s.modCore c fun x => x.stopAt c t).countC c (rArrDiscardCnt c.hall.val (arrIx c)) n
  (s1.pendSync c).stopped c cause

/-- CORE_STOP (R67). -/
def execCoreStop (c : CoreId) (s : State) : Res :=
  match (s.core c).stopCause with
  | some cause => .next (if s.run c then s.stopCore c cause else s.modCore c fun x => { x with stopCause := none })
  | none => .next s

/-! ### Saving and restoring (R235) -/

/-- Does an address lie in the core's tile-file window (R75)? -/
def tileCell (c : CoreId) (a : Nat) : Bool := decide (coreBase c + 0x240000 ≤ a) && decide (a < coreBase c + 0x280000)

/-- The context state of a stopped core as one image (R76, R235, R475): its context-state registers, the tile file, and the queues and pending
operations of core and stream engine. The core store is not context state (log entry 42, DESIGN CHOICE). -/
def State.ctxImage (s : State) (c : CoreId) : SavedS :=
  { core := c
    regs := s.ctxRegs c
    tiles := s.mem.filter fun e => tileCell c e.1
    ops := { s.core c with
      present := false, tlb := [], attempt := none, stopCause := none, fetched := false, gone := [], outq := [],
      descs := (s.core c).descs.map fun d => { d with recheck := true, ahead := [], held := [] } }
    arrCfg := s.reg (rArrCtxCfg c.hall.val (s.coreCtx c).val) }

/-- Are rows of a context's sends still to be delivered (R44)? -/
def State.ctxMoves (s : State) (k : Nat) : Bool := (s.activeCores k).any fun d => (s.core d).sends != [] || s.onMesh d

/-- CONTEXT_SAVE (R44, R125, R235, R475): the context on a stopped core becomes absent and its state stands in the saved image, once what its operations
were writing has ended (R95), the rows that its cores have sent are delivered and its stream requests have completed (log entry 42, DESIGN CHOICE). -/
def execContextSave (c : CoreId) (s : State) : Res :=
  let x := s.core c
  if x.present && !s.run c && x.flights == [] && x.runs == [] && x.sends == [] && x.posts == [] && !x.descs.any (fun d => d.reqs != 0)
    && !s.ctxMoves (s.coreCtx c).val then
    let i := s.ctxImage c
    .next (((s.settle c).ctxBlank c).modCtx (s.coreCtx c).val fun y => { y with saved := i :: y.saved.filter fun j => j.core != c })
  else .next s

/-- CONTEXT_RESTORE (R235): the saved image, with the messages applied to it meanwhile, goes back to a core that no context holds, and the context is
present again. -/
def execContextRestore (at_ : CtxAt) (s : State) : Res :=
  let c := at_.core
  let k := at_.ctx
  match s.savedOf k c with
  | none => .next s
  | some i =>
    if (s.core c).present then .next s
    else
      let x := s.core c
      let s1 := i.regs.foldl (fun s e => s.setReg e.1 e.2) (s.ctxBlank c)
      let s2 : State := { s1 with mem := i.tiles.foldl (fun m e => sset memDefault m e.1 e.2) (s1.mem.filter fun e => !tileCell c e.1) }
      let s3 := (((s2.setReg (rArrCtxCfg c.hall.val k.val) i.arrCfg).fput (rCoreStatus c) fCoreStatusRun 0).fput (rCoreStatus c) fCoreStatusStopped 1).fput (rCoreStatus c) fCoreStatusFaulted
        (bton (decide ((s.ctx k.val).cause ≠ 0)))
      .next ((s3.setCore c { i.ops with present := true, haltAt := x.haltAt, gone := x.gone }).modCtx k.val fun y =>
        { y with saved := y.saved.filter fun j => j.core != c })

/-! ### Messages about stops (R179) -/

/-- PREEMPT (R44): 0 stops the context on the core, 1 resumes it; 2 and 3 are reserved (log entry 59, DEDUCED). -/
def execPreempt (c : CoreId) (k : CtxId) (act : BitVec 2) (s : State) : Res :=
  s.delivered ⟨8, k, some act.toNat, some c.pos, none⟩ fun s1 =>
    if !s.presentOn c k then s1
    else match act.toNat with
      | 0 => if s.run c then (s1.modCore c fun x => { x with preempted := true }).askStop c .preempt else s1
      | 1 =>
        if s.resumable c && !s.flag (rCoreCtl c) fCoreCtlHalt then
          ((s1.tileRestart c ((hallCores c.hall.val).filter fun d => s.presentOn d k)).resumeCore c).modCore c fun x => { x with preempted := true }
        else s1
      | _ => s1

/-- What a context stop does to a core's stream engine: the translation cache dropped, requests not yet sent given up, index tables to be checked again
(R122, R125, R209). -/
def CoreS.streamStop (x : CoreS) : CoreS :=
  { x with tlb := [], outq := [], descs := x.descs.map fun d => { d with recheck := true, faulted := false, ahead := [], held := [] } }

/-- A context stop takes the staging area from a holder in phase 1, which then waits for it behind the others (R122) (log entry 69, DEDUCED). -/
def State.stageRelease (s : State) (k : Nat) : State :=
  match (s.ctx k).staging with
  | [] => s
  | (c, id, _) :: rest =>
    match (s.core c).descs.findIdx? fun d => d.id == id with
    | none => s
    | some e =>
      if s.fget (rStrmEntry c e) fStrmEntryPhase = 1 ∧ (((s.core c).descs[e]?).map DescS.waiting) = some false then
        (s.modCore c fun x => { x with descs := x.descs.map fun d => if d.id = id then { d with waiting := true } else d }).modCtx k fun x =>
          { x with staging := rest ++ [(c, id, s.cc)] }
      else s

/-- Every core of the context has stopped (R179, R231, R357, R375): semaphores orphaned, the host and the groups told. -/
def State.ctxStopped (s : State) (k : CtxId) : State :=
  let x := s.ctx k.val
  let s1 := s.modCtx k.val fun y => { y with stopped := some y.cause, stopDone := [] }
  let s2 := (((s.activeCores k.val).foldl (fun s c => s.modCore c CoreS.streamStop) s1).stageRelease k.val).orphanCtx k.val
  let s2 := (s.ctxGroups k.val).foldl (fun s g => s.runGoes g false) s2
  let s3 := if x.cause = 0 then s2 else s2.notify 2 (k.val + x.cause * 2 ^ 16)
  (if x.cause = 0 then s3 else (s.ctxGroups k.val).foldl (fun s g => s.groupReport g x.cause 0 false) s3).idleCheck

/-- STOP_DONE (R179). -/
def execStopDone (c : CoreId) (k : CtxId) (s : State) : Res :=
  s.delivered ⟨9, k, some c.pos, none, none⟩ fun s0 =>
    let s1 := s0.modCtx k.val fun x => { x with stopDone := if x.stopDone.contains c then x.stopDone else x.stopDone ++ [c] }
    let all := (s.activeCores k.val).all fun d => (s1.ctx k.val).stopDone.contains d || (!s.run d && !(s.core d).tellStop)
    if !all || !(s.ctx k.val).started then s1
    else if (s.ctx k.val).groupHalt then (s1.modCtx k.val fun x => { x with stopDone := [] }).haltCheck k.val
    else if (s.ctx k.val).stopped.isSome then s1
    else s1.ctxStopped k

/-- The position that a FAULT message names as its source (R176, R177, R179). -/
def faultPos : FaultSrc → Nat
  | .core c => c.pos
  | .hall h => h.val * 256 + 15 * 16

/-- BELL_FAULT (R179): the front die has the context stopped on all its cores; CORE_STATUS.FAULT shows the code where a core raised it (R76). -/
def execBellFault (src : FaultSrc) (k : CtxId) (code pc : BitVec 16) (param : BitVec 32) (s : State) : Res :=
  s.delivered ⟨0xA, k, some (faultPos src), none, some [code ++ pc, param]⟩ fun s1 => match src with
    | .core c => if s.presentOn c k then (s1.fput (rCoreStatus c) fCoreStatusFault code.toNat).stopCtx k.val code.toNat
      else s1.stopCtx k.val code.toNat
    | .hall _ => s1.stopCtx k.val code.toNat

end Sys2Proof.Machine
end

