-- ==== Sys2Proof/Machine/Bell.lean ====
section
/-! DEFINITION. Sys2Proof/Machine/Bell.lean: the bell wire's routers: hops, parity, reserved nodes, hall spreads and the arrival at a link router (R175 to R183). -/

namespace Sys2Proof.Machine

/-- The core position of a router in the grid. -/
def coreAtXY (x y : Nat) : CoreId := coreOfIdx (144 * (4 * (y / 12) + x / 12) + 12 * (y % 12) + x % 12)

/-- Is the type reserved (R179)? -/
def bellReserved (m : BellMsg) : Bool := let t := bellType m; t == 0 || t == 7 || decide (0xB ≤ t)

/-- Do two messages stand in one queue: the same router, input and class (R175)? -/
def bellSameQueue (a b : BellMsg) : Bool :=
  a.x == b.x && a.y == b.y && a.inp == b.inp && !a.out && !b.out && bellUrgent a == bellUrgent b

/-- P1 of a record about a router's position for a message's context. -/
def State.p1At (s : State) (c : CoreId) (k : CtxId) : Nat := s.p1 c - (s.coreCtx c).val * 2 ^ 32 + k.val * 2 ^ 32

/-- A message discarded with BELL_MALFORMED; its context stops (R183). -/
def State.bellBad (s : State) (m : BellMsg) (at_ : CoreId) : State :=
  s.faultHall at_.hall.val (bellCtx m) (evr 0x1010 at_.hall.val 0 m.hdr.toNat)

/-- A remote request at its link router (R226, R278): an add is served here when it names this device, else routed. No rule gives an unreserved
message of another type an effect there, and R183 does not list it: it is taken off the wire (log entry 179, DESIGN CHOICE). -/
def State.atLink (s : State) (n : Nat) (m : BellMsg) : State :=
  let k := bellCtx m
  let dev := bitsN (m.pay.getD 0 0).toNat 23 0
  let vsem := bitsN (m.pay.getD 1 0).toNat 13 0
  let addend := m.pay.getD 2 0
  if bellType m = 1 then
    if dev = s.devId then
      match coreOfPos (bellSrc m) with
      | some c => s.semAddReq (.core c) k vsem addend.toInt
      | none => s
    else s.ctlRoute (0x20 + n) dev (.semAdd (BitVec.ofNat 24 dev) (BitVec.ofNat 24 s.devId)
      (BitVec.ofNat 10 (s.fget (rKflCtxGroup k.val) fKflCtxGroupGroup)) (BitVec.ofNat 14 vsem) addend)
  else if bellType m = 3 then { s with bell := s.bell ++ [{ m with out := true }] }
  else s

/-- The copies of a hall-spread message, in row-major order (R178). -/
def State.bellSpread (s : State) (m : BellMsg) (h : Nat) : State :=
  ((hallCores h).filter fun c => s.presentOn c (bellCtx m)).foldl (fun s c =>
    s.bellAt m.x m.y 5 (bellHdr (bellType m) (bellCtx m).val m.pay.length false h c.row.val c.col.val (bellSrc m)) m.pay) s

/-- A message at the router of its node (log entry 29, DESIGN CHOICE). At an edge router one without RMT, and one with RMT at the router of a stack or of the
front die, is taken off the wire without effect: no rule gives it one, and R183 does not list it (log entry 179, DESIGN CHOICE). -/
def State.bellArrive (s : State) (m : BellMsg) (node : BellNode) (at_ : CoreId) : State :=
  match node with
  | .core c => if s.isHole c then s.bellBad m at_ else { s with bell := s.bell ++ [{ m with out := true }] }
  | .front => { s with bell := s.bell ++ [{ m with out := true }] }
  | .spread h => s.bellSpread m h
  | .hallCtl _ => s
  | .router h e => match routerLink h e with
    | some n => if bellRmt m then s.atLink n m else s
    | none => s

/-- Does the message stand at the router of its node? -/
def bellAtHome (m : BellMsg) (node : BellNode) : Bool :=
  match node.home with
  | none => m.x == 0
  | some c => m.x == gx c && m.y == gy c

/-- The next router on the way, along X, then along Y, to the front die west in its own row (R178); it arrives in the input that faces back. -/
def bellNext (m : BellMsg) (node : BellNode) : BellMsg :=
  let west : BellMsg := { m with x := m.x - 1, inp := 1 }
  match node.home with
  | none => west
  | some c =>
    if m.x < gx c then { m with x := m.x + 1, inp := 3 }
    else if gx c < m.x then west
    else if m.y < gy c then { m with y := m.y + 1, inp := 0 }
    else { m with y := m.y - 1, inp := 2 }

/-- The router output that a message waits for: 0 N, 1 E, 2 S, 3 W, 4 the core, 5 an edge router, 6 the hall control node; none for a message that
is discarded here (R177, R178, R183). -/
def bellWants (m : BellMsg) : Option Nat :=
  if bellReserved m then none
  else (bellNode m).map fun node =>
    if bellAtHome m node then (match node with
      | .core _ => 4
      | .router .. => 5
      | .front => 3
      | _ => 6)
    else ((bellNext m node).inp + 2) % 4

/-- Is the message the first of its queue? -/
def State.bellHead (s : State) (m : BellMsg) : Bool := !((s.bell.takeWhile fun a => a != m).any (bellSameQueue m))

/-- Does a link router take a remote request: not while the control queue of the output link is full, nor a watch while all 64 tags are in use (R278,
R279)? -/
def State.linkTakes (s : State) (m : BellMsg) : BellNode → Bool
  | .router h e => match routerLink h e with
    | some n =>
      let dev := bitsN (m.pay.getD 0 0).toNat 23 0
      !(bellRmt m && dev != s.devId && ((bellType m == 1 && s.ctlStuck dev)
        || (bellType m == 3 && (s.ctlStuck dev || decide (64 ≤ (s.link n).tags.length)))))
    | none => true
  | _ => true

/-- Do the message's flits fit in the 8-flit queue it would enter (R175)? A node takes every message that reaches it, but for a link router with a full
control queue; a message longer than what is free waits whole. -/
def State.bellFits (s : State) (m : BellMsg) : Bool :=
  match bellNode m with
  | none => true
  | some node =>
    if bellReserved m then true
    else if bellAtHome m node then s.linkTakes m node
    else
      let n := bellNext m node
      decide (((s.bell.filter (bellSameQueue n)).map fun a => a.pay.length + 1).sum + m.pay.length + 1 ≤ 8)

/-- The key under which an output keeps the input it served last in a class. -/
def bellKey (m : BellMsg) (o : Nat) : Nat := ((48 * m.y + m.x) * 8 + o) * 2 + bton (bellUrgent m)

/-- The head messages at a router that wait for output `o`. -/
def State.bellRivals (s : State) (m : BellMsg) (o : Nat) : List BellMsg :=
  s.bell.filter fun a => a.x == m.x && a.y == m.y && !a.out && s.bellHead a && bellWants a == some o

/-- Does the output choose this head message (R175): urgent ones first, the inputs of one class round-robin, beginning behind the one served last?
An urgent message without credit holds no ordinary one back, since each class has its own queues (log entry 180, DEDUCED). -/
def State.bellChosen (s : State) (m : BellMsg) (o : Nat) : Bool :=
  let rivals := s.bellRivals m o
  let turn (a : BellMsg) : Nat := (a.inp + 11 - sget (fun _ => 5) s.bellServed (bellKey m o)) % 6
  (bellUrgent m || !rivals.any fun a => bellUrgent a && s.bellFits a) &&
    rivals.all fun a => bellUrgent a != bellUrgent m || decide (turn m ≤ turn a)

/-- BELL_HOP (R175, R178, R183): the first message of a router's queue moves on when its output chooses it and the next queue has room; else it
waits. `errs` counts the parity errors of one flit on its way into this router (log entry 28, DESIGN CHOICE). A message that is not on the wire moves
nothing (log entry 4, DESIGN CHOICE). -/
def execBellHop (m : BellMsg) (errs : BitVec 2) (s : State) : Res :=
  let c := coreAtXY m.x m.y
  let k := bellCtx m
  let gone : State := { s with bell := dropFirst (· == m) s.bell }
  if m ∉ s.bell ∨ m.out ∨ 48 ≤ m.x ∨ 24 ≤ m.y ∨ s.bellHead m = false then .next s
  else
    let retry (s : State) : State := if errs = 0 then s else s.countC c (rBellRetryCnt c) 1
    if 2 ≤ errs.toNat then .next ((retry gone).faultHall c.hall.val k (evr 0x100F c.hall.val 0 (s.p1At c k) (bellType m)))
    else match bellWants m, bellNode m with
      | some o, some node =>
        if !s.bellChosen m o || !s.bellFits m then .next s
        else
          let served : State := { gone with bellServed := sset (fun _ => 5) s.bellServed (bellKey m o) m.inp }
          if bellAtHome m node then .next ((retry served).bellArrive m node c)
          else .next (retry { served with bell := served.bell ++ [bellNext m node] })
      | _, _ => .next ((retry gone).bellBad m c)

end Sys2Proof.Machine
end

