-- ==== Sys2Proof/Machine/Cache.lean ====
section
/-! DEFINITION. Sys2Proof/Machine/Cache.lean: where a physical address lies among the stacks, and the lines of the stack caches (R13, R198 to R202). -/

namespace Sys2Proof.Machine

/-! ### Where a physical address lies (R13, R198) -/

def stackOf (pa : Nat) : Nat := (pa / 4096 + pa / 4096 / 12) % 12
def stackLocal (pa : Nat) : Nat := pa / 4096 / 12 * 4096 + pa % 4096
def pseudoChan (pa : Nat) : Nat := pa / 128 % 32
def bankIn (pa : Nat) : Nat := pa / 4096 / 12 % 64

/-- The bank of a line among the 2,048 of its stack. -/
def bankOf (pa : Nat) : Nat := pseudoChan pa * 64 + bankIn pa

/-- The set of a line in its stack cache (R200). -/
def setOf (pa : Nat) : Nat := stackLocal pa / 128 % 16384

/-- Hall of stack `k`, and its number there. -/
def stackHall (k : Nat) : Nat := if k < 6 then k / 2 + 1 else k / 2 + 2

/-- Count on a counter of stack `k`. -/
def State.stkCount (s : State) (r : Nat → Nat → Nat) (k : Nat) : State := s.count (r (stackHall k) (k % 2)) 1

/-- A field of STK_CFG of stack `k`. -/
def State.stkCfg (s : State) (k : Nat) (f : Fd) : Nat := s.fget (rStkCfg (stackHall k) (k % 2)) f

/-- A record of stack `k` (R470). -/
def stkRec (k code : Nat) (p1 p2 p3 p4 : Nat := 0) : EvRec := evr code (stackHall k) (0x10 + k % 2) p1 p2 p3 p4

/-! ### The cache (R200 to R202) -/

/-- Has the oldest miss waiting on a bank of stack `k` waited more than SLOW_US (R203)? -/
def State.bankSlow (s : State) (k bank : Nat) : Bool :=
  (s.stack k).misses.any fun m => bankOf m.line == bank && decide (s.stkCfg k fStkCfgSlowUs * unitsUs < s.now - m.since)

/-- Kinds of request that write. -/
def reqWrites : StackReq → Bool
  | .partialWrite => true
  | .fullLine => true
  | .accumulate => true
  | _ => false

/-- The line that leaves when `line` comes into a full set: the least recently used one (log entry 35, DESIGN CHOICE). -/
def StackS.victim (x : StackS) (line : Nat) : Option (Nat × Bool) :=
  let mates := x.lines.filter fun e => e.1 != line && setOf e.1 == setOf line
  if (x.lines.any fun e => e.1 == line) || decide (mates.length < 16) then none else mates.getLast?

/-- Has the write-back buffer of 64 lines room for what would leave (R200, R202)? -/
def StackS.wbRoom (x : StackS) (line : Nat) : Bool :=
  match x.victim line with
  | some (_, true) => decide (x.wb.length < 64)
  | _ => true

/-- A line enters the cache of stack `k`, or is used there again; a dirty line that leaves goes into the write-back buffer, and is counted as written back
then (R215) (log entry 213, DESIGN CHOICE). -/
def State.cacheIn (s : State) (k line : Nat) (dirty : Bool) : State :=
  let x := s.stack k
  let was := (x.lines.any fun e => e == (line, true))
  let v := x.victim line
  let kept := x.lines.filter fun e => e.1 != line && some e.1 != v.map Prod.fst
  let s1 := s.modStack k fun y => { y with
    lines := (line, dirty || was) :: kept
    pf := y.pf.filter fun l => some l != v.map Prod.fst
    wb := match v with
      | some (l, true) => y.wb ++ [l]
      | _ => y.wb }
  match v with
  | some (_, true) => s1.stkCount rStkWbCnt k
  | _ => s1

/-- The oldest line of every write-back buffer has reached HBM: one a cc, which no rule states (log entry 181, DESIGN CHOICE). -/
def State.wbDrain (s : State) : State :=
  s.hbm.foldl (fun s e => if e.2.wb = [] then s else s.modStack e.1 fun y => { y with wb := y.wb.drop 1 }) s

/-- A demand read reaches a line: it is no longer one prefetched and not yet read (R206, R251), and one that a prefetch brought in is counted where the
read hits it (R215). -/
def State.pfUse (s : State) (c : CoreId) (id k line : Nat) (hit : Bool) : State :=
  let s1 := if (s.core c).prefetch.contains (line, id) then s.modCore c fun x => { x with prefetch := x.prefetch.filter fun l => l != (line, id) } else s
  if !(s.stack k).pf.contains line then s1
  else
    let s2 := s1.modStack k fun y => { y with pf := y.pf.filter fun l => l != line }
    if hit then s2.stkCount rStkPfUseCnt k else s2

/-- Is a miss slot free, and its line's bank below BANK_SLOT_MAX (R202)? -/
def State.slotFor (s : State) (k line : Nat) : Bool :=
  decide ((s.stack k).misses.length < 256)
    && decide (((s.stack k).misses.filter fun m => bankOf m.line == bankOf line).length < s.stkCfg k fStkCfgBankSlotMax)

/-- A request served at once, its miss filled within the command and lines written back meanwhile (log entry 190, DESIGN CHOICE): what it counts and leaves in
its cache, and whether it hit. None where the stack refuses it, or where its line is held in a miss slot, whose requests come first (R201, R202). -/
def State.lineIn (s : State) (line : Nat) (kind : StackReq) : Option (State × Bool) :=
  let k := stackOf line
  let x := s.stack k
  let put (s : State) : State := (s.cacheIn k line (reqWrites kind)).modStack k fun y => { y with wb := y.wb.drop (y.wb.length - 64) }
  if x.lines.any fun l => l.1 == line then some (put (s.stkCount rStkHitCnt k), true)
  else if x.misses.any fun m => m.line == line then none
  else if kind = .fullLine then some (put s, false)
  else if s.slotFor k line then some (put (s.stkCount rStkMissCnt k), false)
  else none

/-- Can a line come in, the write-back buffer as it stands (R200)? -/
def State.lineRoom (s : State) (line : Nat) : Bool :=
  let x := s.stack (stackOf line)
  (x.lines.any fun l => l.1 == line) || x.wbRoom line

/-- A request counted as refused, unless its line is held in a miss slot, where it waits (R201, R202). -/
def State.lineRefused (s : State) (line : Nat) : State :=
  let k := stackOf line
  if (s.stack k).misses.any fun m => m.line == line then s else s.stkCount rStkRefuseCnt k

/-- A demand request of descriptor `id` served at once, with its beats through the stack's router (R51, R215). -/
def State.lineTouch (s : State) (c : CoreId) (id line : Nat) (kind : StackReq) : Option State :=
  let k := stackOf line
  let rd := kind == .read
  (s.lineIn line kind).map fun r =>
    let s1 := (r.1.count (rEdgeBeatsOut (stackHall k) (k % 2)) 1).count (rEdgeBeatsIn (stackHall k) (k % 2)) (bton rd)
    if rd then s1.pfUse c id k line r.2 else s1

/-- Requests for a list of lines in turn: all of them, or the first line that is not taken (R202). -/
def State.linesTouch (s : State) (c : CoreId) (id : Nat) (l : List (Nat × StackReq)) : Except Nat State :=
  l.foldl (fun a e => match a with
    | .error n => .error n
    | .ok t => match if s.lineRoom e.1 then t.lineTouch c id e.1 e.2 else none with
      | some u => .ok u
      | none => .error e.1) (.ok s)

/-- A bank whose oldest miss has not waited so long is no longer slow (R203) (log entry 36, DEDUCED). -/
def State.bankCheck (s : State) (k bank : Nat) : State :=
  if s.bankSlow k bank then s else s.modStack k fun y => { y with slowBanks := y.slowBanks.filter fun b => b != bank }

/-- A write of STK_CFG: banks that are no longer slow by the SLOW_US it leaves have recovered (R203). -/
def State.banksCheck (s : State) (k : Nat) : State :=
  if (s.stack k).slowBanks = [] then s else (s.stack k).slowBanks.foldl (fun s b => s.bankCheck k b) s

end Sys2Proof.Machine
end

