-- ==== Sys2Proof/Machine/StreamDesc.lean ====
section
/-! DEFINITION. Sys2Proof/Machine/StreamDesc.lean: a stream descriptor's fields, where its elements lie, its hulls and the checks of its start that need no memory (R109 to R121, R148 to R151, R246, R247). -/

namespace Sys2Proof.Machine

/-! ### Fields (R148) -/

/-- One side of a descriptor: base, format, layout, strides and its own two inner extents (R149). -/
structure SideS where
  base : Int
  f : EFmt
  blk : Bool
  s1 : Int
  s2 : Int
  s3 : Int
  e0 : Nat
  e1 : Nat
  deriving DecidableEq, Repr

/-- A descriptor as its engine reads it. -/
structure DescP where
  src : SideS
  dst : SideS
  e2 : Nat
  e3 : Nat
  idxOff : Nat
  idxLimit : Nat
  idxSide : Nat
  dop : Nat
  tr : Bool
  sat : Bool
  view : Option EFmt
  scale : Int
  prefetch : Bool
  cellar : Bool
  /-- Of a Cellar descriptor: its destination is the Cellar (R246). -/
  fill : Bool
  ctKind : Nat
  ctId : Nat
  count : Nat
  /-- A reserved field is set, or a code or width is out of range (R150). -/
  bad : Bool
  deriving DecidableEq, Repr

/-- A width of format 11 is legal; other formats carry none. -/
def widthOk (fmt w : Nat) : Bool := fmt != 11 || (decide (1 ≤ w) && decide (w ≤ 8))

/-- Read a descriptor from its 64 bytes (R148). With TRANSPOSE the destination's inner extents are exchanged (R149). -/
def parseDesc (b : Bytes) : DescP :=
  let u (o n : Nat) : Nat := leAt b o n
  let i32 (o : Nat) : Int := sextNat 32 (leAt b o 4)
  let fa := u 52 2
  let fb := u 54 2
  let ctrl := u 57 1
  let ct := u 58 2
  let sf : EFmt := ⟨bitsN fa 3 0, bitsN fa 11 8, bitN fb 8⟩
  let df : EFmt := ⟨bitsN fa 7 4, bitsN fa 15 12, bitN fb 9⟩
  let vf := bitsN fb 3 0
  let vw := bitsN fb 7 4
  let tr := bitN fb 11
  let e0 := u 12 2
  let e1 := u 14 2
  { src := ⟨u 0 6, sf, bitN fb 12, i32 20, i32 24, i32 28, e0, e1⟩
    dst := ⟨u 6 6, df, bitN fb 13, i32 32, i32 36, i32 40, if tr then e1 else e0, if tr then e0 else e1⟩
    e2 := u 16 2, e3 := u 18 2, idxOff := u 44 3, idxLimit := u 48 4, idxSide := bitsN ctrl 1 0, dop := bitsN fb 15 14
    tr := tr, sat := bitN fb 10, view := if vf = 15 then none else some ⟨vf, vw, sf.usgn⟩, scale := sextNat 8 (u 56 1)
    prefetch := bitN ctrl 3, cellar := bitN ctrl 2, fill := bitN ctrl 2 && u 6 6 == 0, ctKind := bitsN ct 15 14, ctId := bitsN ct 13 0, count := u 60 2
    bad := u 47 1 != 0 || bitsN ctrl 7 4 != 0 || decide (12 ≤ sf.fmt) || decide (12 ≤ df.fmt) || (decide (12 ≤ vf) && vf != 15)
      || !widthOk sf.fmt sf.pw || !widthOk df.fmt df.pw || !widthOk vf vw || (vf == 15 && vw != 0)
      || bitsN ctrl 1 0 == 3 || bitsN ct 15 14 == 3 || (bitsN ct 15 14 == 1 && decide (48 ≤ bitsN ct 13 0)) }

/-- Zero length (R151) (log entry 31, DEDUCED). -/
def DescP.zero (d : DescP) : Bool := d.src.e0 == 0 || d.src.e1 == 0 || d.e2 == 0 || d.e3 == 0

/-- Does the format move in whole groups (R109)? -/
def grouped (fmt : Nat) : Bool := decide (6 ≤ fmt)

/-! ### Geometry (R149) -/

/-- Block rows and block columns of a side. -/
def SideS.br (x : SideS) : Nat := (x.e1 + 31) / 32
def SideS.bc (x : SideS) : Nat := (x.e0 + 31) / 32

/-- Where row (a1, a2, a3) starts, and block (br, bc) of matrix (a2, a3). -/
def SideS.rowAt (x : SideS) (a1 a2 a3 : Nat) : Int := x.base + a1 * x.s1 + a2 * x.s2 + a3 * x.s3
def SideS.blockAt (x : SideS) (br bc a2 a3 : Nat) : Int := x.base + a2 * x.s2 + a3 * x.s3 + br * x.s1 + (bc * fmtBS x.f : Nat)

/-- A place of an element: none for a null record, in a row, or in a block. -/
inductive Loc where
  | null
  | row (a : Int) (col : Nat)
  | block (a : Int) (r c : Nat)
  deriving DecidableEq, Repr

/-- Place of element (a0, a1, a2, a3) on a side without an index table. -/
def SideS.loc (x : SideS) (a0 a1 a2 a3 : Nat) : Loc :=
  if x.blk then .block (x.blockAt (a1 / 32) (a0 / 32) a2 a3) (a1 % 32) (a0 % 32) else .row (x.rowAt a1 a2 a3) a0

/-- The null index (R116) (log entry 30, DEDUCED). -/
def nullIdx : Nat := 0xFFFFFFFF

/-- The dense side of a gather or scatter, and the side that the table indexes. -/
def DescP.dense (d : DescP) : SideS := if d.idxSide = 1 then d.dst else d.src
def DescP.indexed (d : DescP) : SideS := if d.idxSide = 1 then d.src else d.dst

/-- Number of records (R116, R149): rows where the indexed side is of formats 0 to 5, blocks where it is of the others. The rule names one format; where the
two sides differ, the side that the table indexes decides (log entry 34, DESIGN CHOICE). -/
def DescP.records (d : DescP) : Nat :=
  if grouped d.indexed.f.fmt then d.dense.bc * d.dense.br * d.e2 * d.e3 else d.dense.e1 * d.e2 * d.e3

/-- The record of element (a0, a1, a2, a3). -/
def DescP.recordOf (d : DescP) (a0 a1 a2 a3 : Nat) : Nat :=
  if grouped d.indexed.f.fmt then a0 / 32 + d.dense.bc * (a1 / 32 + d.dense.br * (a2 + d.e2 * a3)) else a1 + d.dense.e1 * (a2 + d.e2 * a3)

/-- Place of an element on the indexed side: record n at base + index[n] x STR1. -/
def SideS.locIdx (x : SideS) (i a0 a1 : Nat) : Loc :=
  if i = nullIdx then .null else if grouped x.f.fmt then .block (x.base + i * x.s1) (a1 % 32) (a0 % 32) else .row (x.base + i * x.s1) a0

/-- Place of the source of destination element (b0, b1, b2, b3) (R114, R149). -/
def DescP.srcLoc (d : DescP) (idx : List Nat) (b0 b1 b2 b3 : Nat) : Loc :=
  let (a0, a1) := if d.tr then (b1, b0) else (b0, b1)
  if d.idxSide = 1 then d.src.locIdx (idx.getD (d.recordOf a0 a1 b2 b3) nullIdx) a0 a1 else d.src.loc a0 a1 b2 b3

/-- Place of destination element (b0, b1, b2, b3). -/
def DescP.dstLoc (d : DescP) (idx : List Nat) (b0 b1 b2 b3 : Nat) : Loc :=
  if d.idxSide = 2 then d.dst.locIdx (idx.getD (d.recordOf b0 b1 b2 b3) nullIdx) b0 b1 else d.dst.loc b0 b1 b2 b3

/-- What the progress point counts (R124): destination elements, or records. -/
def DescP.total (d : DescP) : Nat := if d.idxSide = 0 then d.src.e0 * d.src.e1 * d.e2 * d.e3 else d.records

/-! ### Hulls (R121, R150, R247) -/

/-- Lowest byte and end of an arithmetic reach of (count, stride) pairs behind a base, with a span at each point. -/
def reach (base : Int) (ps : List (Nat × Int)) (span : Nat) : Int × Int :=
  let lo := ps.foldl (fun a p => a + min 0 ((p.1 - 1 : Int) * p.2)) base
  let hi := ps.foldl (fun a p => a + max 0 ((p.1 - 1 : Int) * p.2)) base
  (lo, hi + span)

/-- Bytes that a side can touch, none when it touches no byte: every index below the limit on the indexed side, whose reach does not depend on how many
records there are (R150). -/
def SideS.hull (x : SideS) (e2 e3 : Nat) (limit : Option Nat) : Option (Int × Int) :=
  match limit with
  | some 0 => none
  | some n =>
    let span := if grouped x.f.fmt then fmtBS x.f else fmtRB x.f x.e0
    if span = 0 then none else some (reach x.base [(n, x.s1)] span)
  | none =>
    if x.blk then some (reach x.base [(x.br, x.s1), (e2, x.s2), (e3, x.s3)] (x.bc * fmtBS x.f))
    else some (reach x.base [(x.e1, x.s1), (e2, x.s2), (e3, x.s3)] (fmtRB x.f x.e0))

/-- Hulls of the two sides of a descriptor of non-zero length. -/
def DescP.srcHull (d : DescP) : Option (Int × Int) := d.src.hull d.e2 d.e3 (if d.idxSide = 1 then some d.idxLimit else none)
def DescP.dstHull (d : DescP) : Option (Int × Int) := d.dst.hull d.e2 d.e3 (if d.idxSide = 2 then some d.idxLimit else none)

/-- Does the hull lie within HBM, or within the core-store half of one core window (R150)? -/
def hullOk (inHbm : Bool) (h : Option (Int × Int)) : Bool :=
  match h with
  | none => true
  | some (lo, hi) =>
    (inHbm && decide (0 ≤ lo) && decide (hi ≤ hbmEnd)) || (decide (0 ≤ lo) && match place lo.toNat with
      | .core _ off => decide (off + (hi - lo) ≤ 0x200000)
      | _ => false)

/-- Do two hulls meet? -/
def hullsMeet (a b : Option (Int × Int)) : Bool :=
  match a, b with
  | some x, some y => decide (x.1 < y.2) && decide (y.1 < x.2)
  | _, _ => false

/-! ### Cellar descriptors (R246, R247) -/

/-- A fill: the Cellar side is the destination. -/
def DescP.isFill (d : DescP) : Bool := d.fill

/-- The Cellar side, and the other side. -/
def DescP.celSide (d : DescP) : SideS := if d.isFill then d.dst else d.src
def DescP.coreSide (d : DescP) : SideS := if d.isFill then d.src else d.dst

/-- Frame length F (R247). -/
def DescP.frameLen (d : DescP) : Nat :=
  let h := match ({ d.celSide with base := 0 } : SideS).hull d.e2 d.e3 none with
    | some x => x.2.toNat
    | none => 0
  (h + 127) / 128 * 128 + 128

/-- The descriptor with its Cellar side at a frame's base. -/
def DescP.withFrame (d : DescP) (base : Nat) : DescP :=
  if d.isFill then { d with dst := { d.dst with base := base } } else { d with src := { d.src with base := base } }

/-- STREAM_DESC for a Cellar descriptor (R246). -/
def DescP.cellarBad (d : DescP) : Bool :=
  (d.src.base == 0) == (d.dst.base == 0) || (match place d.coreSide.base.toNat with
    | .core _ off => decide (0x200000 ≤ off)
    | _ => true)
    || d.idxSide != 0 || d.dop != 0 || decide (d.celSide.s1 < 0) || decide (d.celSide.s2 < 0) || decide (d.celSide.s3 < 0)

/-! ### Checks at start (R150, R109, R113, R118, R121) -/

/-- STREAM_DESC. A side without an index table touches no byte when the descriptor is of zero length, so no hull of it can lie outside (R151); the hull of
an indexed side is taken from its limit (R150). -/
def DescP.descBad (d : DescP) : Bool :=
  d.bad ||
    (d.idxSide != 0 && (d.tr || (let x := if d.idxSide = 1 then d.src else d.dst; !grouped x.f.fmt && x.blk)
      || d.idxOff % 4 != 0 || decide (0x200000 < d.idxOff + 4 * d.records))) ||
    (if d.cellar then d.cellarBad || (!d.zero && !hullOk false (if d.isFill then d.srcHull else d.dstHull))
     else (!d.zero || d.idxSide == 1) && !hullOk true d.srcHull || (!d.zero || d.idxSide == 2) && !hullOk true d.dstHull)

/-- Group length of a format (R109). -/
def groupLen (fmt : Nat) : Nat := if fmtMx fmt then 32 else if fmt = 11 then 8 else 1

/-- Is the view one of R113? -/
def viewOk (f : EFmt) (v : Option EFmt) : Bool :=
  match v with
  | none => true
  | some g => (f.fmt == 8 && g.fmt == 10) || (f.fmt == 11 && g.fmt == 11 && decide (g.pw < f.pw))

/-- STREAM_FORMAT (R105, R109, R113, R118): any two formats pair; a record of formats 6 to 11 is a block, so an indexed side of these is blocked (log
entry 34, DESIGN CHOICE). -/
def DescP.formatBad (d : DescP) : Bool :=
  d.src.e0 % groupLen d.src.f.fmt != 0 || d.dst.e0 % groupLen d.dst.f.fmt != 0 || !viewOk d.src.f d.view || !dopOk d.dop d.dst.f.fmt
    || (d.idxSide != 0 && grouped d.indexed.f.fmt && !d.indexed.blk)

/-- Do two sides hold elements alike? WIDTH and USGN belong to format 11 alone (R148). -/
def sameFmt (a b : EFmt) : Bool := a.fmt == b.fmt && (a.fmt != 11 || (a.pw == b.pw && a.usgn == b.usgn))

/-- A plain copy (R121). -/
def DescP.plain (d : DescP) : Bool :=
  !d.tr && d.idxSide == 0 && d.dop == 0 && d.view.isNone && d.scale == 0 && sameFmt d.src.f d.dst.f && d.src.blk == d.dst.blk
    && d.src.s1 == d.dst.s1 && d.src.s2 == d.dst.s2 && d.src.s3 == d.dst.s3

/-- Rows of a side, or its rows of blocks, and their length in bytes. -/
def SideS.rows (x : SideS) : Nat × Nat := if x.blk then (x.br, x.bc * fmtBS x.f) else (x.e1, fmtRB x.f x.e0)

/-- Does `v` lie less than `len` from a multiple of `st`, with a factor from `lo` to `hi`? -/
def nearMultiple (st v : Int) (len : Nat) (lo hi : Int) : Bool :=
  let q := if st = 0 then 0 else v / st
  decide (lo ≤ hi) && [q - 1, q, q + 1].any fun i => decide ((max lo (min hi i) * st - v).natAbs < len)

/-- Are two rows of a side, the second later in the traversal, less than their length apart once the second is moved down by `delta`? -/
def SideS.near (x : SideS) (e2 e3 : Nat) (delta : Int) : Bool :=
  let (n1, len) := x.rows
  let ahead (n : Nat) : List Int := (List.range (n - 1)).map fun (i : Nat) => (i : Int) + 1
  let both (n : Nat) : List Int := (List.range (2 * n - 1)).map fun (i : Nat) => (i : Int) - (n - 1 : Int)
  let row (i2 i3 : Int) : Bool := nearMultiple x.s1 (delta - i2 * x.s2 - i3 * x.s3) len (1 - (n1 : Int)) ((n1 : Int) - 1)
  nearMultiple x.s1 delta len 1 ((n1 : Int) - 1) || ((ahead e2).any fun i2 => row i2 0) || (ahead e3).any fun i3 => (both e2).any fun i2 => row i2 i3

/-- Does an overlapping plain copy run in descending order (R121, R124)? It does where in ascending order a row, or a row of blocks, would be written
before a later one that lies on it is read; where either order does, it ascends (log entry 210, DESIGN CHOICE). -/
def DescP.descending (d : DescP) : Bool :=
  let delta := d.dst.base - d.src.base
  (decide (0 < delta) && decide (delta < d.src.rows.2)) || d.src.near d.e2 d.e3 delta

/-- Could two rows of the destination fall on one byte (R119)? -/
def DescP.rowsMeet (d : DescP) : Bool := d.dst.near d.e2 d.e3 0

/-- Must the descriptor commit its elements strictly in ascending order (R119, R124): an operation other than NONE, or elements that could fall on one
byte? A scatter and rows that lie closer than their length are taken to collide (log entry 182, DESIGN CHOICE). -/
def DescP.ordered (d : DescP) : Bool := d.dop != 0 || d.idxSide == 2 || d.rowsMeet

/-- How a descriptor runs (R121): refused, as it is, in descending order, or staged. -/
inductive RunKind where
  | refuse
  | normal
  | down
  | staged
  deriving DecidableEq, Repr

/-- The overlap check of R121 for a descriptor of the core whose window starts at `win`. -/
def DescP.runKind (d : DescP) (win : Nat) : RunKind :=
  let tab : Option (Int × Int) := if d.idxSide = 0 then none else some ((win + d.idxOff : Nat), (win + d.idxOff + 4 * d.records : Nat))
  if d.cellar then .normal
  else if hullsMeet d.dstHull tab then .refuse
  else if !hullsMeet d.srcHull d.dstHull then .normal
  else if d.plain then (if d.descending then .down else .normal)
  else match d.srcHull with
    | some h => if h.2 - h.1 ≤ 0x400000 then .staged else .refuse
    | none => .normal

/-! ### Blocks of a destination (R111) -/

/-- Number of block instances of the destination, and instance n: address, block row and column, matrix. -/
def DescP.insts (d : DescP) : Nat := d.dst.bc * d.dst.br * d.e2 * d.e3
def DescP.inst (d : DescP) (idx : List Nat) (n : Nat) : Option Int :=
  if d.idxSide = 2 then
    let i := idx.getD n nullIdx
    if i = nullIdx then none else some (d.dst.base + i * d.dst.s1)
  else some (d.dst.blockAt (n / d.dst.bc % d.dst.br) (n % d.dst.bc) (n / (d.dst.bc * d.dst.br) % d.e2) (n / (d.dst.bc * d.dst.br * d.e2)))

/-- Does an element of the descriptor land on (r, c) of instance n? -/
def DescP.lands (d : DescP) (n r c : Nat) : Bool :=
  decide (n / d.dst.bc % d.dst.br * 32 + r < d.dst.e1) && decide (n % d.dst.bc * 32 + c < d.dst.e0)

/-- Destination coordinates of (r, c) of instance n. -/
def DescP.instCoord (d : DescP) (n r c : Nat) : Nat × Nat × Nat × Nat :=
  (n % d.dst.bc * 32 + c, n / d.dst.bc % d.dst.br * 32 + r, n / (d.dst.bc * d.dst.br) % d.e2, n / (d.dst.bc * d.dst.br * d.e2))

/-- The newest instance up to n at the same address on whose (r, c) an element lands. -/
def DescP.lander (d : DescP) (idx : List Nat) (n r c : Nat) : Option Nat :=
  if d.lands n r c then some n
  else (List.range n).reverse.find? fun m => d.inst idx m == d.inst idx n && d.lands m r c

/-- Do an element of row `r` and one of the columns of byte `o` of a block land on instance n: does the byte hold something of an element that lands?
Bytes of a plane hold eight elements of one row, and a scale those of its row (R109, R110). -/
def DescP.landsAt (d : DescP) (n o : Nat) : Bool :=
  let f := d.dst.f
  if f.fmt ≤ 5 then d.lands n (o / (32 * fmtSize f.fmt)) (o % (32 * fmtSize f.fmt) / fmtSize f.fmt)
  else if f.fmt ≤ 7 then (if o < 1024 then d.lands n (o / 32) (o % 32) else d.lands n (o - 1024) 0)
  else if o < 128 * fmtPlanes f then d.lands n (o % 128 / 4) (o % 4 * 8)
  else d.lands n (o - 128 * fmtPlanes f) 0

/-- Does an element of the descriptor land on the byte at an address? -/
def DescP.landsByte (d : DescP) (idx : List Nat) (a : Int) : Bool :=
  (List.range d.insts).any fun m => match d.inst idx m with
    | some b => decide (b ≤ a) && decide ((a - b).toNat < fmtBS d.dst.f) && d.landsAt m (a - b).toNat
    | none => false

/-- Does a block of another address lie on the block of instance n? -/
def DescP.crossed (d : DescP) (idx : List Nat) (n : Nat) : Bool :=
  (List.range d.insts).any fun m => match d.inst idx m, d.inst idx n with
    | some b, some a => a != b && decide ((a - b).natAbs < fmtBS d.dst.f)
    | _, _ => false

/-! ### Steps of the engine (R124) -/

/-- Coordinates of destination element `i` in traversal order, b0 fastest. -/
def DescP.coord (d : DescP) (i : Nat) : Nat × Nat × Nat × Nat :=
  (i % d.dst.e0, i / d.dst.e0 % d.dst.e1, i / (d.dst.e0 * d.dst.e1) % d.e2, i / (d.dst.e0 * d.dst.e1 * d.e2))

/-- How the engine writes: element by element, record by record, row by row, block row by block row, block by block, or by the rows of a row of source blocks. -/
inductive StepMode where
  | elem
  | record
  | row
  | blockRow
  | block
  | tile
  | tileRow
  deriving DecidableEq, Repr

/-- A destination in groups is written in whole rows or rows of blocks, or block by block where a record is a block; the others element by element, record
by record, or by the elements of one source block. A gather of blocks into linear rows that could meet goes row by row (R119). -/
def DescP.mode (d : DescP) : StepMode :=
  if d.idxSide = 1 ∧ grouped d.src.f.fmt = true ∧ d.dst.blk = false ∧ d.rowsMeet = true then .tileRow
  else if grouped d.dst.f.fmt then (if d.idxSide ≠ 0 ∧ grouped d.indexed.f.fmt = true then .block else if d.dst.blk then .blockRow else .row)
  else if d.idxSide = 0 then .elem else if grouped d.indexed.f.fmt then .tile else .record

/-- What a destination row counts in the progress point (R124): its elements, or one record. -/
def DescP.rowUnit (d : DescP) : Nat := if d.idxSide = 0 then d.dst.e0 else 1

/-- The progress point once the steps below `j` are done. -/
def DescP.progAt (d : DescP) (j : Nat) : Nat :=
  match d.mode with
  | .row => j * d.rowUnit
  | .blockRow => j / d.dst.br * (d.rowUnit * d.dst.e1) + min (j % d.dst.br * 32) d.dst.e1 * d.rowUnit
  | .tileRow => j * d.dst.bc
  | _ => j

/-- The step that holds progress point `p`. -/
def DescP.stepOf (d : DescP) (p : Nat) : Nat :=
  match d.mode with
  | .row => p / d.rowUnit
  | .blockRow => p / (d.rowUnit * d.dst.e1) * d.dst.br + p % (d.rowUnit * d.dst.e1) / (32 * d.rowUnit)
  | .tileRow => p / d.dst.bc
  | _ => p

/-- How many steps it takes to bring the progress point to `q` or beyond. -/
def DescP.stepsTo (d : DescP) (q : Nat) : Nat := if q = 0 then 0 else d.stepOf (q - 1) + 1

end Sys2Proof.Machine
end

