-- ==== Sys2Proof/Machine/Stream.lean ====
section
/-! DEFINITION. Sys2Proof/Machine/Stream.lean: the stream engine: launch order, start and refusal, translation, moving and committing elements, staging, completion and timeout (R43, R105 to R125, R150 to R153, R209, R210). -/

namespace Sys2Proof.Machine

/-! ### Entries (R155) -/

/-- A field of entry `e`. -/
def State.entFld (s : State) (c : CoreId) (e : Nat) (f : Fd) : Nat := s.fget (rStrmEntry c e) f

/-- Live descriptor `e`. -/
def State.desc (s : State) (c : CoreId) (e : Nat) : Option DescS := (s.core c).descs[e]?

/-- Change live descriptor `e`. -/
def State.modDesc (s : State) (c : CoreId) (e : Nat) (f : DescS → DescS) : State := s.modCore c fun x => { x with descs := x.descs.modify e f }

/-- The engine works in this cc (R49) (log entry 33, DEDUCED). -/
def State.works (s : State) (c : CoreId) : State := s.modCore c fun x => { x with strm := true }

/-- Entries above `e` move down by one (R155). -/
def State.shiftEntries (s : State) (c : CoreId) : Nat → Nat → State
  | 0, e => (s.setReg (rStrmEntry c e) 0).setReg (rStrmProgress c e) 0
  | n + 1, e => ((s.setReg (rStrmEntry c e) (s.reg (rStrmEntry c (e + 1)))).setReg (rStrmProgress c e) (s.reg (rStrmProgress c (e + 1)))).shiftEntries c n (e + 1)

/-- Is the descriptor a Cellar descriptor with its direction: some true a fill, some false a drain? -/
def DescS.cellarDir (d : DescS) : Option Bool :=
  match d.bytes with
  | some b => let p := parseDesc b; if p.cellar then some p.isFill else none
  | none => none

/-- DIR is 0 again once no Cellar descriptor is incomplete (R250). -/
def State.cellarIdle (s : State) (c : CoreId) : State :=
  if (s.core c).descs.any fun d => d.cellarDir.isSome then s else s.fput (rCelStatus c) fCelStatusDir 0

/-- The staging area of a core's context is left by a descriptor that holds it or waits for it (R122). -/
def State.stageLeave (s : State) (c : CoreId) (id : Nat) : State :=
  s.modCtx (s.coreCtx c).val fun x => { x with staging := x.staging.filter fun y => !(y.1 == c && y.2.1 == id) }

/-- Live descriptor `e` is gone: its entry is compacted away and a staging area it held or waited for is left (R122, R155). -/
def State.dropDesc (s : State) (c : CoreId) (e : Nat) : State :=
  match s.desc c e with
  | none => s
  | some d =>
    let live := s.descLive c
    let s1 := ((s.descsGone c fun x => x.id == d.id).shiftEntries c (live - 1 - e) e).fput (rStrmStatus c) fStrmStatusDescLive (live - 1)
    let s2 := s1.modCore c fun x => { x with descs := x.descs.eraseIdx e }
    let s3 := s2.fput (rStrmStatus c) fStrmStatusReqUsed (s2.fget (rStrmStatus c) fStrmStatusReqUsed - d.reqs)
    let s4 := s3.modCore c fun x => { x with outq := x.outq.filter fun r => r.desc != d.id, prefetch := x.prefetch.filter fun l => l.2 != d.id }
    (s4.stageLeave c d.id).cellarIdle c

/-! ### Faults -/

/-- A descriptor's fault stops the context (R150): LAST_FAULT holds its code. -/
def State.descFault (s : State) (c : CoreId) (r : EvRec) : State := (s.faultCore c r).fput (rStrmStatus c) fStrmStatusLastFault r.code

/-- A refusal at start: the record names the core and the descriptor's offset, and the entry is removed (R150) (log entry 66, DEDUCED). -/
def State.descRefuse (s : State) (c : CoreId) (e code : Nat) : State :=
  (s.descFault c (coreRec c code (s.p1 c) (64 * s.entFld c e fStrmEntryDescIdx))).dropDesc c e

/-- Why an access failed: a translation at an address, or a poisoned line. -/
inductive AccFault where
  | page (va acc kind : Nat)
  | poison (pa : Nat)
  deriving DecidableEq, Repr

/-- The fault of an access of live descriptor `e` (R199, R210): it sends no further request. -/
def State.accFault (s0 : State) (c : CoreId) (e : Nat) (f : AccFault) : State :=
  let gone := (s0.desc c e).map DescS.id
  let s := (s0.modDesc c e fun x => { x with faulted := true }).modCore c fun x => { x with outq := x.outq.filter fun o => some o.desc != gone }
  match f with
  | .page va acc kind =>
    let h := c.hall.val
    let k := s.coreCtx c
    let s1 := s.descFault c (coreRec c 0x3001 (s.p1 c) va (acc * 2 ^ 52 + kind * 2 ^ 48) e)
    let s2 := if s1.flag (rTrFault h k.val) fTrFaultValid then s1
      else (s1.setReg (rTrFault h k.val) (BitVec.ofNat 64 (2 ^ 63 + acc * 2 ^ 52 + kind * 2 ^ 48 + va))).setReg (rTrFault2 h k.val)
        (BitVec.ofNat 64 (h * 2 ^ 21 + c.row.val * 2 ^ 17 + c.col.val * 2 ^ 13 + e * 2 ^ 7))
    (s2.count (rTrFaultCnt h) 1).notify 3 (k.val + acc * 16 + kind * 2 ^ 8 + va * 2 ^ 16)
  | .poison _ => s.descFault c (coreRec c 0x3004)

/-! ### Translation (R209) -/

/-- A walk's read of the entry's line reaches its stack cache (R200, R209). It counts no beats at an edge router; one that the stack refuses is sent again
until it is taken, within the walk (log entry 190, DESIGN CHOICE). -/
def State.walkTouch (s : State) (pa : Nat) : State :=
  match if s.lineRoom (lineOf pa) then s.lineIn (lineOf pa) .read else none with
  | some r => r.1
  | none => s.lineRefused (lineOf pa)

/-- Walk the table for the page of `va` (R209): the entry is installed if it permits the access. -/
def State.walk (s : State) (c : CoreId) (va acc : Nat) : State × Except Nat Nat :=
  let k := (s.coreCtx c).val
  let h := c.hall.val
  let e := s.pte k va
  let s1 := (s.count (rTrWalkCnt h) 1).walkTouch (pteAddr k va)
  match pteCheck (s.flag (rTrCtx h k) fTrCtxEn) (s.poisoned (pteAddr k va) 8) e acc with
  | some kind => (s1, .error kind)
  | none =>
    (s1.modCore c fun x => { x with tlb := (k, va / 2 ^ 21, BitVec.ofNat 64 e) :: (x.tlb.filter fun t => !(t.1 == k && t.2.1 == va / 2 ^ 21)).take 31 },
     .ok (bitsN e 39 21 * 2 ^ 21 + va % 2 ^ 21))

/-- Translate for the core's stream engine: from its translation cache, else by a walk. With TR_CTX.EN = 0 the access fails at once, without a walk and
whatever the cache holds (log entry 211, DESIGN CHOICE). -/
def State.xlat (s : State) (c : CoreId) (va acc : Nat) : State × Except Nat Nat :=
  let k := (s.coreCtx c).val
  if !s.flag (rTrCtx c.hall.val k) fTrCtxEn then (s, .error 5)
  else match (s.core c).tlb.find? fun t => t.1 == k && t.2.1 == va / 2 ^ 21 with
    | some t =>
      if pteCheck true false t.2.2.toNat acc = none then (s, .ok (bitsN t.2.2.toNat 39 21 * 2 ^ 21 + va % 2 ^ 21)) else s.walk c va acc
    | none => s.walk c va acc

/-- Translate for a request by the pages that it was translated with as it was sent, else through the translation cache (R209, R211). -/
def State.xlatBy (s : State) (c : CoreId) (tr : List (Nat × Nat)) (va acc : Nat) : State × Except Nat Nat :=
  match tr.find? fun p => p.1 == va / 2 ^ 21 with
  | some p => (s, .ok (p.2 + va % 2 ^ 21))
  | none => s.xlat c va acc

/-- Translate a run cut at pages: its physical parts. -/
def State.xlatParts (s : State) (c : CoreId) (tr : List (Nat × Nat)) (acc : Nat) : List (Nat × Nat) → State × Except AccFault (List (Nat × Nat))
  | [] => (s, .ok [])
  | q :: qs =>
    match s.xlatBy c tr q.1 acc with
    | (s1, .error kind) => (s1, .error (.page q.1 acc kind))
    | (s1, .ok pa) => match s1.xlatParts c tr acc qs with
      | (s2, .error f) => (s2, .error f)
      | (s2, .ok ps) => (s2, .ok ((pa, q.2) :: ps))

/-- Parts of `n` bytes at a device address: of HBM translated, of a core store as they are. The core windows of a hall whose grid is not built refuse
every access (R9, R184, R195): a read gives zeros and a write changes nothing, which no part stands for. -/
def State.devParts (s : State) (c : CoreId) (tr : List (Nat × Nat)) (a n acc : Nat) : State × Except AccFault (List (Nat × Nat)) :=
  if a < hbmEnd then s.xlatParts c tr acc (pageParts (n / 2 ^ 21 + 2) a n)
  else match place a with
    | .core d _ => (s, .ok (if s.built d.hall.val && !s.isHole d then [(a, n)] else []))
    | _ => (s, .ok [])

/-- PA of a staging byte (R121, R213): its offset from the lowest byte of the source hull. -/
def stagePa (k : Nat) (lo : Int) (a : Nat) : Nat := 0xEE02000000 + k * 0x400000 + ((a : Int) - lo).toNat

/-- Where a descriptor's source bytes come from beside the memory its addresses name: its context and the lowest byte of its source hull when it is staged
(phase 2), lines already fetched, and source bytes that the descriptor has itself overwritten (R121, R124); and the pages by which they are translated. -/
structure SrcS where
  stage : Option (Nat × Int)
  held : List (Nat × Bytes)
  old : List Host.Cell
  pages : List (Nat × Nat)
  deriving DecidableEq, Repr

/-- Bytes at a device address with those of a list of cells put over them. -/
def overlay (cells : List Host.Cell) (a : Nat) (b : Bytes) : Bytes :=
  if cells = [] then b
  else b.zipIdx.map fun x => match cells.find? fun e => e.1 == a + x.2 with
    | some e => e.2
    | none => x.1

/-- The bytes that fetched lines hold of `n` bytes at `a`, if they hold them all. -/
def heldBytes (held : List (Nat × Bytes)) (a n : Nat) : Option Bytes :=
  if held = [] ∨ n = 0 then none
  else
    let ls := (List.range ((a % 128 + n + 127) / 128)).map fun i => held.find? fun e => e.1 == lineOf a + 128 * i
    if ls.any Option.isNone then none else some (slice (ls.flatMap fun e => (e.map Prod.snd).getD []) (a % 128) n)

/-- Read `n` bytes of the source. -/
def State.srcRead (s : State) (c : CoreId) (src : SrcS) (a : Int) (n : Nat) : State × Except AccFault Bytes :=
  match heldBytes src.held a.toNat n with
  | some b => (s, .ok (overlay src.old a.toNat b))
  | none =>
    let r := match src.stage with
      | some q => (s, Except.ok [(stagePa q.1 q.2 a.toNat, n)])
      | none => s.devParts c src.pages a.toNat n accRead
    match r with
    | (s1, .error f) => (s1, .error f)
    | (s1, .ok ps) =>
      match ps.find? fun q => decide (q.1 < hbmEnd) && s1.poisoned q.1 q.2 with
      | some q => (s1, .error (.poison q.1))
      | none => (s1, .ok (overlay src.old a.toNat (slice (ps.flatMap fun q => s1.rdBytes q.1 q.2) 0 n)))

/-- The source as it stands in memory. -/
def srcPlain : SrcS := ⟨none, [], [], []⟩

/-- Store bytes at physical parts, in HBM or in a core store. -/
def State.putParts (s : State) : List (Nat × Nat) → Bytes → State
  | [], _ => s
  | q :: ps, b => (if q.1 < hbmEnd then s.wrHbm q.1 (b.take q.2) else s.wrBytes q.1 (b.take q.2)).putParts ps (b.drop q.2)

/-! ### Values (R103 to R113) -/

/-- The byte ranges that a view fetches of a block or row whose planes are `w` bytes apart and whose scales lie at `sc` (R113). -/
def viewRanges (f : EFmt) (v : Option EFmt) (w sc nsc n : Nat) : List (Nat × Nat) :=
  match v with
  | none => [(0, n)]
  | some g =>
    let lo := fmtPlanes f - fmtPlanes g
    [(lo * w, (fmtPlanes f - lo) * w)] ++ if fmtMx f.fmt then [(sc, nsc)] else []

/-- Fetch ranges of a container into a run of `n` bytes, zeros elsewhere. -/
def State.fetchRanges (s : State) (c : CoreId) (stage : SrcS) (a : Int) (n : Nat) : List (Nat × Nat) → State × Except AccFault Bytes
  | [] => (s, .ok (zeros n))
  | q :: qs =>
    match s.srcRead c stage (a + q.1) q.2 with
    | (s1, .error f) => (s1, .error f)
    | (s1, .ok b) => match s1.fetchRanges c stage a n qs with
      | (s2, .error f) => (s2, .error f)
      | (s2, .ok r) => (s2, .ok (putBytes r q.1 b))

/-- Length of a source container and the ranges of it that are fetched: a whole block (R112), or a row; of a view its planes and scales (R113). -/
def DescP.fetched (d : DescP) : Loc → Nat × List (Nat × Nat)
  | .null => (0, [])
  | .block _ _ _ => (fmtBS d.src.f, viewRanges d.src.f d.view 128 (128 * fmtPlanes d.src.f) 32 (fmtBS d.src.f))
  | .row _ _ =>
    let f := d.src.f
    let n := fmtRB f d.src.e0
    (n, viewRanges f d.view (d.src.e0 / 8) (fmtPlanes f * d.src.e0 / 8) (d.src.e0 / 32) n)

/-- The start of a container. -/
def Loc.key : Loc → Option Int
  | .null => none
  | .row a _ => some a
  | .block a _ _ => some a

/-- The container of a source element as fetched. -/
def State.container (s : State) (c : CoreId) (d : DescP) (stage : SrcS) (l : Loc) : State × Except AccFault Bytes :=
  match l.key with
  | none => (s, .ok [])
  | some a => s.fetchRanges c stage a (d.fetched l).1 (d.fetched l).2

/-- The value of an element after step 2 of R105, from its container: a null record reads as zeros. -/
def DescP.value (d : DescP) (l : Loc) (b : Bytes) : Fp :=
  match l with
  | .null => .fin false 0 0
  | .block _ r col => fpScale d.scale (decBlockE d.src.f d.view b r col)
  | .row _ col => fpScale d.scale (decRowE d.src.f d.view d.src.e0 b col)

/-- A container in hand, so that the elements of one container fetch it once. -/
abbrev Held := Option (Int × Bytes)

/-- The value of destination element (b0, b1, b2, b3). -/
def State.elemVal (s : State) (c : CoreId) (d : DescP) (idx : List Nat) (stage : SrcS) (h : Held) (q : Nat × Nat × Nat × Nat) :
    State × Held × Except AccFault Fp :=
  let l := d.srcLoc idx q.1 q.2.1 q.2.2.1 q.2.2.2
  match l.key with
  | none => (s, h, .ok (d.value l []))
  | some a =>
    match h with
    | some (k, b) =>
      if k = a then (s, h, .ok (d.value l b))
      else match s.container c d stage l with
        | (s1, .ok b1) => (s1, some (a, b1), .ok (d.value l b1))
        | (s1, .error f) => (s1, none, .error f)
    | none => match s.container c d stage l with
      | (s1, .ok b1) => (s1, some (a, b1), .ok (d.value l b1))
      | (s1, .error f) => (s1, none, .error f)

/-- The values of a list of destination elements. -/
def State.elemVals (s : State) (c : CoreId) (d : DescP) (idx : List Nat) (stage : SrcS) (h : Held) :
    List (Nat × Nat × Nat × Nat) → State × Held × Except AccFault (List Fp)
  | [] => (s, h, .ok [])
  | q :: qs =>
    match s.elemVal c d idx stage h q with
    | (s1, h1, .error f) => (s1, h1, .error f)
    | (s1, h1, .ok v) => match s1.elemVals c d idx stage h1 qs with
      | (s2, h2, .error f) => (s2, h2, .error f)
      | (s2, h2, .ok vs) => (s2, h2, .ok (v :: vs))

/-! ### Writes (R106 to R111, R118 to R120) -/

/-- A write on its way: bytes, or an element to be combined with what its place holds. -/
inductive WrS where
  | bytes (a : Int) (b : Bytes)
  | elem (a : Int) (v : Fp)
  deriving DecidableEq, Repr

/-- The access of a descriptor's elements to their destination: a write, or an update (R120, R210). -/
def DescP.dstAcc (d : DescP) : Nat := if d.dop = 0 then accWrite else accAccum

/-- Address of an element of formats 0 to 5. -/
def elemAddr (fmt : Nat) : Loc → Option Int
  | .null => none
  | .row a col => some (a + (col * fmtSize fmt : Nat))
  | .block a r col => some (a + ((32 * r + col) * fmtSize fmt : Nat))

/-- The pieces of a row group of `w` elements, encoded as a row of its own, in a row of `cols` elements (R109). -/
def rowPieces (f : EFmt) (cols w g : Nat) (a : Int) (b : Bytes) : List WrS :=
  if f.fmt ≤ 7 then [.bytes (a + (32 * g : Nat)) (b.take w), .bytes (a + (cols + g : Nat)) (slice b w 1)]
  else
    let p := fmtPlanes f
    ((List.range p).map fun i => .bytes (a + (i * cols / 8 + 4 * g : Nat)) (slice b (i * w / 8) (w / 8)))
      ++ if fmtMx f.fmt then [.bytes (a + (p * cols / 8 + g : Nat)) (slice b (p * w / 8) 1)] else []

/-- The elements of a step in the order in which their values are fetched. -/
def DescP.stepElems (d : DescP) (idx : List Nat) (j : Nat) : List (Nat × Nat × Nat × Nat) :=
  let inst (n : Nat) : List (Nat × Nat × Nat × Nat) :=
    if d.inst idx n = none then []
    else (List.range 32).flatMap fun r => (List.range 32).filterMap fun c => (d.lander idx n r c).map fun m => d.instCoord m r c
  match d.mode with
  | .elem => [d.coord j]
  | .tileRow => (List.range (min 32 (d.dst.e1 - 32 * (j % d.dst.br)))).flatMap fun r => (List.range d.dst.e0).map fun b0 =>
      (b0, 32 * (j % d.dst.br) + r, j / d.dst.br % d.e2, j / (d.dst.br * d.e2))
  | .record => (List.range d.dst.e0).map fun b0 => (b0, j % d.dst.e1, j / d.dst.e1 % d.e2, j / (d.dst.e1 * d.e2))
  | .row => (List.range d.dst.e0).map fun b0 => (b0, j % d.dst.e1, j / d.dst.e1 % d.e2, j / (d.dst.e1 * d.e2))
  | .blockRow => (List.range d.dst.bc).flatMap fun bc => inst (j * d.dst.bc + bc)
  | .tile => (List.range 32).flatMap fun r => (List.range 32).filterMap fun c => if d.lands j r c then some (d.instCoord j r c) else none
  | .block =>
    if d.dst.blk then inst j
    else (List.range 32).flatMap fun r => (List.range 32).filterMap fun c => if d.lands j r c then some (d.instCoord j r c) else none

/-- The block of instance n from the values that land on it, zeros elsewhere; where a block at another address lies on it, its padding is not written over
what an element lands on (R111). -/
def DescP.blockWrite (d : DescP) (idx : List Nat) (n : Nat) (vals : List ((Nat × Nat × Nat × Nat) × Fp)) : List WrS :=
  match d.inst idx n with
  | none => []
  | some a =>
    let cell (r c : Nat) : Fp := match d.lander idx n r c with
      | some m => match vals.find? fun e => e.1 == d.instCoord m r c with
        | some e => e.2
        | none => .fin false 0 0
      | none => .fin false 0 0
    let b := encBlock d.dst.f d.sat ((List.range 32).map fun r => (List.range 32).map (cell r))
    if !d.crossed idx n then [.bytes a b]
    else b.zipIdx.filterMap fun x =>
      if d.landsAt n x.2 || !d.landsByte idx (a + (x.2 : Nat)) then some (.bytes (a + (x.2 : Nat)) [x.1]) else none

/-- The writes of elements of formats 0 to 5. -/
def DescP.elemWrites (d : DescP) (idx : List Nat) (vals : List ((Nat × Nat × Nat × Nat) × Fp)) : List WrS :=
  vals.filterMap fun v => (elemAddr d.dst.f.fmt (d.dstLoc idx v.1.1 v.1.2.1 v.1.2.2.1 v.1.2.2.2)).map fun a => .elem a v.2

/-- The writes of a step from the values of its elements. -/
def DescP.stepWrites (d : DescP) (idx : List Nat) (j : Nat) (vals : List ((Nat × Nat × Nat × Nat) × Fp)) : List WrS :=
  match d.mode with
  | .row => match vals with
    | [] => []
    | v :: _ => [.bytes (d.dst.rowAt v.1.2.1 v.1.2.2.1 v.1.2.2.2) (encRow d.dst.f d.sat (vals.map Prod.snd))]
  | .blockRow => (List.range d.dst.bc).flatMap fun bc => d.blockWrite idx (j * d.dst.bc + bc) vals
  | .block =>
    if d.dst.blk then d.blockWrite idx j vals
    else (List.range 32).flatMap fun r =>
      let row := vals.filter fun v => v.1.2.1 % 32 == r
      match row with
      | [] => []
      | v :: _ => rowPieces d.dst.f d.dst.e0 row.length (j % d.dst.bc) (d.dst.rowAt v.1.2.1 v.1.2.2.1 v.1.2.2.2)
          (encRow d.dst.f d.sat (row.map Prod.snd))
  | .tileRow =>
    if grouped d.dst.f.fmt then (List.range 32).flatMap fun r => match vals.filter fun v => v.1.2.1 % 32 == r with
      | [] => []
      | v :: row => [.bytes (d.dst.rowAt v.1.2.1 v.1.2.2.1 v.1.2.2.2) (encRow d.dst.f d.sat ((v :: row).map Prod.snd))]
    else d.elemWrites idx vals
  | _ => d.elemWrites idx vals

/-- The zeros of a blocked destination of formats 0 to 5, written once before its first element (R111). -/
def DescP.fillWrites (d : DescP) (idx : List Nat) : List WrS :=
  if grouped d.dst.f.fmt || !d.dst.blk || (d.dst.e0 % 32 == 0 && d.dst.e1 % 32 == 0) then []
  else (List.range d.insts).flatMap fun n => match d.inst idx n with
    | none => []
    | some a => (List.range (fmtBS d.dst.f)).filterMap fun o =>
        if d.landsByte idx (a + (o : Nat)) then none else some (.bytes (a + (o : Nat)) [0])

/-- Source bytes of an overlapping plain copy that a write at `a` is about to change are kept as they were (R121). -/
def State.keepOld (s : State) (c : CoreId) (e : Nat) (d : DescP) (a : Int) (ps : List (Nat × Nat)) : State :=
  if !d.plain || !hullsMeet d.srcHull d.dstHull then s
  else
    let cells := ((ps.flatMap fun q => s.rdBytes q.1 q.2).zipIdx.map fun x => (a.toNat + x.2, x.1)).filter fun x =>
      match d.srcHull with
      | some h => decide (h.1 ≤ (x.1 : Int)) && decide ((x.1 : Int) < h.2)
      | none => false
    s.modDesc c e fun y => { y with old := y.old ++ cells.filter fun x => !y.old.any fun z => z.1 == x.1 }

/-- One write at its destination: the parts written, or the failure. An ADD, MAX or MIN of a poisoned line reads it, and raises HBM_POISON with nothing
applied (R199) (log entry 212, DESIGN CHOICE). -/
def State.doWrite (s : State) (c : CoreId) (e : Nat) (d : DescP) (tr : List (Nat × Nat)) (w : WrS) : State × Except AccFault (List (Nat × Nat)) :=
  match w with
  | .bytes a b => match s.devParts c tr a.toNat b.length accWrite with
    | (s1, .error f) => (s1, .error f)
    | (s1, .ok ps) => ((s1.keepOld c e d a ps).putParts ps b, .ok ps)
  | .elem a v =>
    let n := fmtSize d.dst.f.fmt
    match s.devParts c tr a.toNat n d.dstAcc with
    | (s1, .error f) => (s1, .error f)
    | (s1, .ok ps) =>
      let old := ps.flatMap fun q => s1.rdBytes q.1 q.2
      match if d.dop = 0 then none else ps.find? fun q => decide (q.1 < hbmEnd) && s1.poisoned q.1 q.2 with
      | some q => (s1, .error (.poison q.1))
      | none =>
        ((s1.keepOld c e d a ps).putParts ps (natBytes n (encBits d.dst.f d.sat (dopVal d.dop (decBits d.dst.f (leNat old)) v))), .ok ps)

/-- Writes in order, until one fails: the parts written, or the failure, which undoes those before it, so that no element of a record is applied twice
(R124, R125). -/
def State.doWrites (s : State) (c : CoreId) (e : Nat) (d : DescP) (tr : List (Nat × Nat)) (ws : List WrS) :
    State × Except AccFault (List (Nat × Nat)) :=
  let r := ws.foldl (fun (a : State × Except AccFault (List (Nat × Nat))) w =>
    match a.2 with
    | .error _ => a
    | .ok ps => match a.1.doWrite c e d tr w with
      | (s1, .ok qs) => (s1, .ok (ps ++ qs))
      | (s1, .error f) => (s1, .error f)) (s, .ok [])
  match r.2 with
  | .error _ => ({ r.1 with mem := s.mem, poison := s.poison }, r.2)
  | .ok _ => r

/-- Poisoned lines that a run of writes has written whole lose their poison (R199). -/
def State.clearWhole (s : State) (ps : List (Nat × Nat)) : State :=
  if s.poison = [] then s
  else { s with poison := s.poison.filter fun l => !((List.range 128).all fun o => ps.any fun q => decide (q.1 ≤ l + o) && decide (l + o < q.1 + q.2)) }

/-- The writes of steps `j` on, `n` of them or fewer if a read fails: each step's list, and the failure. -/
def State.gatherSteps (s : State) (c : CoreId) (d : DescP) (idx : List Nat) (stage : SrcS) (down : Option Nat) :
    Nat → Nat → Held → State × List (List WrS) × Option AccFault
  | 0, _, _ => (s, [], none)
  | n + 1, j, h =>
    let i := match down with
      | some last => last - j
      | none => j
    let es := d.stepElems idx i
    match s.elemVals c d idx stage h es with
    | (s1, _, .error f) => (s1, [], some f)
    | (s1, h1, .ok vs) =>
      let (s2, ws, f) := s1.gatherSteps c d idx stage down n (j + 1) h1
      (s2, d.stepWrites idx i (es.zip vs) :: ws, f)

/-- Each ADD, MAX or MIN applied in HBM counts at its stack (R120, R215). -/
def State.countAtomic (s : State) (d : DescP) (ps : List (Nat × Nat)) : State :=
  if d.dop = 0 then s else ps.foldl (fun s q => if q.1 < hbmEnd then s.stkCount rStkAtomicCnt (stackOf q.1) else s) s

/-- Commit the writes of steps in order: how many steps committed, the parts written, and the failure. -/
def State.commitSteps (s : State) (c : CoreId) (e : Nat) (d : DescP) (tr : List (Nat × Nat)) :
    List (List WrS) → State × Nat × List (Nat × Nat) × Option AccFault
  | [] => (s, 0, [], none)
  | w :: ws =>
    match s.doWrites c e d tr w with
    | (s1, .error f) => (s1, 0, [], some f)
    | (s1, .ok ps) => let (s2, n, qs, f) := (s1.countAtomic d ps).commitSteps c e d tr ws; (s2, n + 1, ps ++ qs, f)

/-! ### Commits (R124) -/

/-- The index table in the core's own store (R116). -/
def State.indices (s : State) (c : CoreId) (d : DescP) : List Nat :=
  if d.idxSide = 0 then [] else (List.range d.records).map fun n => leNat (s.rdStore c (d.idxOff + 4 * n) 4)

/-- Do the indices of the records from `n` on meet the limit (R117)? -/
def DescP.idxOk (d : DescP) (idx : List Nat) (n : Nat) : Bool := (idx.drop n).all fun i => i == nullIdx || decide (i < d.idxLimit)

/-- The descriptor of live entry `e` as it runs: a Cellar descriptor at its frame. -/
def DescS.parsed (x : DescS) : Option DescP :=
  x.bytes.map fun b =>
    let d := parseDesc b
    match x.frame with
    | some (f, _, _) => d.withFrame f
    | none => d

/-- Is the descriptor moving data: started, not waiting, and past its staging copy or its tag check? -/
def State.moving (s : State) (c : CoreId) (e : Nat) (x : DescS) (d : DescP) : Bool :=
  !x.waiting && s.entFld c e fStrmEntryPhase == 2 && (!d.cellar || d.isFill || x.tagOk)

/-- The steps that move the progress point from `lo` to `hi` or beyond, counted in the order in which they are made. -/
def DescP.stepsIn (d : DescP) (down : Bool) (lo hi : Nat) : Nat × Nat :=
  let last := d.stepsTo d.total
  if down then (last - d.stepsTo (d.total - lo), last - d.stepOf (d.total - hi)) else (d.stepOf lo, d.stepsTo hi)

/-- The progress point once `n` steps have been made. -/
def DescP.pointAt (d : DescP) (down : Bool) (n : Nat) : Nat := if down then d.total - d.progAt (d.stepsTo d.total - n) else d.progAt n

/-- The progress point over a set of committed runs (R124). -/
def absorb (p : Nat) (l : List (Nat × Nat)) : Nat :=
  (List.range l.length).foldl (fun q _ => l.foldl (fun q r => if r.1 ≤ q then max q r.2 else q) q) p

/-- The lines of ranges of device addresses in HBM. -/
def linesOf (l : List (Int × Nat)) : List Nat :=
  l.flatMap fun q => if 0 ≤ q.1 ∧ q.1 < (hbmEnd : Int) ∧ q.2 ≠ 0 then
    (List.range ((q.1.toNat % 128 + q.2 + 127) / 128)).map fun i => lineOf q.1.toNat + 128 * i else []

/-- A list without elements that stand again right behind themselves. -/
def unrepeated {α : Type} [DecidableEq α] (l : List α) : List α := l.foldr (fun x r => if r.head? = some x then r else x :: r) []

/-- The source containers that a step fetches, by start and by the row of blocks that holds them. -/
def DescP.visits (d : DescP) (idx : List Nat) (j : Nat) : List (Int × Nat × Loc) :=
  (d.stepElems idx j).filterMap fun q =>
    let l := d.srcLoc idx q.1 q.2.1 q.2.2.1 q.2.2.2
    l.key.map fun a => (a, (if d.tr then q.1 else q.2.1) / 32 + d.src.br * (q.2.2.1 + d.e2 * q.2.2.2), l)

/-- The ranges of a container that are fetched, from its start. -/
def DescP.fetchedAt (d : DescP) (a : Int) (l : Loc) : List (Int × Nat) := (d.fetched l).2.map fun r => (a + (r.1 : Int), r.2)

/-- The ranges of a container as they count in lines: a whole block as ⌈BS ÷ 128⌉ of them, and one more where it does not start on a line (R112); of a row
of formats 0 to 5 its element. -/
def DescP.askedAt (d : DescP) (a : Int) (l : Loc) : List (Int × Nat) :=
  match l, d.view with
  | .block .., none => [(a, (fmtBS d.src.f + 127) / 128 * 128)]
  | .row _ col, none => if grouped d.src.f.fmt then d.fetchedAt a l else [(a + (col * fmtSize d.src.f.fmt : Nat), fmtSize d.src.f.fmt)]
  | _, _ => d.fetchedAt a l

/-- The source containers of a step as ranges, each once. -/
def DescP.stepReads (d : DescP) (idx : List Nat) (j : Nat) : List (Int × Nat) :=
  (unrepeated ((d.visits idx j).map fun v => d.fetchedAt v.1 v.2.2)).dedup.flatten

/-- The lines, by device address, that the reads of steps ask for. A block counts once, in whatever order the steps visit it (R112); of rows a line counts
again where the steps come back to it. -/
def DescP.readLines (d : DescP) (idx : List Nat) (js : List Nat) : List Nat :=
  let vs := js.flatMap (d.visits idx)
  let isBlock (v : Int × Nat × Loc) : Bool := match v.2.2 with
    | .block .. => true
    | _ => false
  let blocks := ((unrepeated ((vs.filter isBlock).map fun v => (v.1, v.2.1, d.askedAt v.1 v.2.2))).dedup.map fun v => linesOf v.2.2).flatten
  blocks ++ unrepeated ((vs.filter fun v => !isBlock v).flatMap fun v => linesOf (d.askedAt v.1 v.2.2))

/-- Where a write goes, and its access. -/
def DescP.writeRange (d : DescP) : WrS → Int × Nat × Nat
  | .bytes a b => (a, b.length, accWrite)
  | .elem a _ => (a, fmtSize d.dst.f.fmt, d.dstAcc)

/-- What a step touches in memory, each range with the access that it makes (R209); with `first` the zeros before the first element too. -/
def DescP.stepRanges (d : DescP) (idx : List Nat) (staged first : Bool) (j : Nat) : List (Int × Nat × Nat) :=
  (if staged then [] else (d.stepReads idx j).map fun q => (q.1, q.2, accRead)) ++
    ((if first then d.fillWrites idx else []) ++ d.stepWrites idx j ((d.stepElems idx j).map fun q => (q, .fin false 0 0))).map d.writeRange

/-- The pages of ranges, each with the access it has been translated for and its base: those got before, then new ones, up to a failure (R209, R210). -/
def State.pagesOf (s : State) (c : CoreId) (got : List (Nat × Nat × Nat)) : List (Nat × Nat) → State × List (Nat × Nat × Nat) × Option AccFault
  | [] => (s, got, none)
  | (va, acc) :: l =>
    if got.any fun g => g.1 == va / 2 ^ 21 && g.2.1 == acc then s.pagesOf c got l
    else match s.xlat c va acc with
      | (s1, .ok pa) => s1.pagesOf c ((va / 2 ^ 21, acc, pa - va % 2 ^ 21) :: got) l
      | (s1, .error kind) => (s1, got, some (.page va acc kind))

/-- Ranges cut at pages: the addresses in HBM at which each part begins. -/
def vaParts (l : List (Int × Nat × Nat)) : List (Nat × Nat) :=
  (l.filter fun q => decide (q.1 < (hbmEnd : Int))).flatMap fun q => (pageParts (q.2.1 / 2 ^ 21 + 2) q.1.toNat q.2.1).map fun p => (p.1, q.2.2)

/-- The pages of a run of steps, translated as its requests are sent: how many steps lie wholly in pages that translate, the pages, and the failure of
the next one (log entry 216, DESIGN CHOICE). -/
def State.stepPages (s : State) (c : CoreId) (d : DescP) (idx : List Nat) (staged first : Bool) (down : Option Nat) :
    Nat → Nat → List (Nat × Nat × Nat) → State × Nat × List (Nat × Nat × Nat) × Option AccFault
  | 0, _, got => (s, 0, got, none)
  | n + 1, j, got =>
    let i := match down with
      | some last => last - j
      | none => j
    match s.pagesOf c got (vaParts (d.stepRanges idx staged first i)) with
    | (s1, got1, some f) => (s1, 0, got1, some f)
    | (s1, got1, none) => let (s2, m, got2, f) := s1.stepPages c d idx staged false down n (j + 1) got1; (s2, m + 1, got2, f)

/-- The last step, if a descriptor goes down. -/
def DescP.lastStep (d : DescP) (down : Bool) : Option Nat := if down then some (d.stepsTo d.total - 1) else none

/-- Does live descriptor `e` run in descending order? -/
def State.goesDown (s : State) (c : CoreId) (e : Nat) : Bool := s.entFld c e fStrmEntryDesc == 1

/-- The pages of the run of progress points `lo` to `hi` of live descriptor `e`, and how many of its steps they hold. -/
def State.runPages (s : State) (c : CoreId) (e : Nat) (x : DescS) (d : DescP) (lo hi : Nat) : State × Nat × List (Nat × Nat) × Option AccFault :=
  let down := s.goesDown c e
  let (j0, j1) := d.stepsIn down lo (min hi d.total)
  let first := decide ((s.reg (rStrmProgress c e)).toNat = 0 ∧ lo = 0)
  let (s1, n, got, f) := s.stepPages c d (x.idx.getD []) x.staged first (d.lastStep down) (if min hi d.total ≤ lo then 0 else j1 - j0) j0 []
  (s1, n, got.map fun g => (g.1, g.2.2), f)

/-- A run of progress points is read, converted and committed: how many steps, the parts written, and the failure. `k` is the descriptor's context. -/
def State.commitRun (s : State) (c : CoreId) (k e : Nat) (x : DescS) (d : DescP) (down first : Bool) (lo hi : Nat) (tr : List (Nat × Nat)) :
    State × Nat × List (Nat × Nat) × Option AccFault :=
  let idx := x.idx.getD []
  let (j0, j1) := d.stepsIn down lo (min hi d.total)
  let src : SrcS := ⟨if x.staged then d.srcHull.map fun h => (k, h.1) else none, x.held, x.old, tr⟩
  let (s1, ws, rf) := s.gatherSteps c d idx src (d.lastStep down) (j1 - j0) j0 none
  match if first && ws != [] then s1.doWrites c e d tr (d.fillWrites idx) else (s1, .ok []) with
  | (s2, .error f) => (s2, 0, [], some f)
  | (s2, .ok ps0) =>
    let (s3, n, ps, wf) := s2.commitSteps c e d tr ws
    (s3.clearWhole (ps0 ++ ps), n, ps0 ++ ps, wf <|> rf)

/-- Move the run of progress points `lo` to `hi` of live descriptor `e`: its elements are read, converted and committed, and the progress point passes
over every run that is complete. The parts written, and false after a fault (log entry 68, DESIGN CHOICE). -/
def State.move (s : State) (c : CoreId) (e lo hi : Nat) (tr : List (Nat × Nat)) : State × List (Nat × Nat) × Bool :=
  match s.desc c e with
  | none => (s, [], false)
  | some x =>
    match x.parsed with
    | none => (s, [], false)
    | some d =>
      let p := (s.reg (rStrmProgress c e)).toNat
      if !s.moving c e x d then (s, [], false)
      else if min hi d.total ≤ lo then (s, [], true)
      else
        let down := s.goesDown c e
        let (s1, n, ps, f) := s.commitRun c (s.coreCtx c).val e x d down (decide (p = 0 ∧ lo = 0)) lo hi tr
        let run := (lo, d.pointAt down ((d.stepsIn down lo (min hi d.total)).1 + n))
        let q := if n = 0 then p else absorb p (run :: x.ahead)
        let s2 := (s1.setReg (rStrmProgress c e) (BitVec.ofNat 64 q)).modDesc c e fun y =>
          { y with ahead := if n = 0 then y.ahead else (run :: y.ahead).filter fun r => decide (q < r.2) }
        let s3 := if x.staged && decide (d.total ≤ q) then s2.stageLeave c x.id else s2
        match f with
        | some f => (if x.faulted then s3 else s3.accFault c e f, ps, false)
        | none => (s3, ps, true)

/-- After a stop the index table is read and checked again over the records not yet committed, and what had been fetched or had committed beyond the progress
point counts no longer (R125). False after a refusal. -/
def State.recheckIdx (s : State) (c : CoreId) (e : Nat) (x : DescS) (d : DescP) : State × Bool :=
  if !x.recheck then (s, true)
  else
    let idx := s.indices c d
    let s := if d.idxSide = 0 then s else s.works c
    if d.idxSide ≠ 0 ∧ !d.idxOk idx (s.reg (rStrmProgress c e)).toNat then (s.descRefuse c e 0x100A, false)
    else (s.modDesc c e fun y => { y with idx := some idx, recheck := false, ahead := [], held := [] }, true)

/-! ### Lines (R112, R202) -/

/-- A line by device address where its page lies, if the page is one of those translated. -/
def pageLine (pages : List (Nat × Nat)) (va : Nat) : Option Nat :=
  (pages.find? fun p => p.1 == va / 2 ^ 21).map fun p => lineOf (p.2 + va % 2 ^ 21)

/-- Lines that writes change, as requests: whole ones, and those written in part (R202). -/
def DescP.partLines (d : DescP) (ps : List (Nat × Nat)) : List (Nat × StackReq) :=
  let ls := ((ps.filter fun q => decide (q.1 < hbmEnd)).flatMap fun q =>
    (List.range ((q.1 % 128 + q.2 + 127) / 128)).map fun i => lineOf q.1 + 128 * i).dedup
  let whole (l : Nat) : Bool := (List.range 128).all fun o => ps.any fun q => decide (q.1 ≤ l + o) && decide (l + o < q.1 + q.2)
  ls.map fun l => (l, if d.dop ≠ 0 then .accumulate else if whole l then .fullLine else .partialWrite)

/-- The destination blocks of a step that writes whole blocks. -/
def DescP.stepBlocks (d : DescP) (idx : List Nat) (j : Nat) : List Int :=
  match d.mode with
  | .blockRow => (List.range d.dst.bc).filterMap fun b => d.inst idx (j * d.dst.bc + b)
  | .block => if d.dst.blk then (d.inst idx j).toList else []
  | _ => []

/-- The lines that a run of steps asks for (R112): its reads, from the staging area of context `k` if the descriptor is staged, then its writes, blocks as
whole blocks, and the parts it wrote otherwise. A line of a page that the run does not touch, which only the one more line of a block can be, is left out
(log entry 217, DESIGN CHOICE). -/
def DescP.runLines (d : DescP) (k : Nat) (x : DescS) (js : List Nat) (pages ps : List (Nat × Nat)) : List (Nat × StackReq) :=
  let idx := x.idx.getD []
  let at_ (va : Nat) : Option Nat := if x.staged then d.srcHull.map fun h => lineOf (stagePa k h.1 va) else pageLine pages va
  let bs := js.flatMap (d.stepBlocks idx)
  let blockLines (a : Int) : List (Nat × StackReq) := (linesOf [(a, (fmtBS d.dst.f + 127) / 128 * 128)]).filterMap fun l =>
    (pageLine pages l).map fun pa => (pa, if a ≤ (l : Int) ∧ (l + 128 : Int) ≤ a + fmtBS d.dst.f then .fullLine else .partialWrite)
  ((d.readLines idx js).filterMap at_).map (fun l => (l, .read)) ++ if bs = [] then d.partLines ps else bs.flatMap blockLines

/-- A page that the descriptor has demand-read (R205). -/
def State.notePage (s : State) (c : CoreId) (e va : Nat) : State :=
  s.modDesc c e fun x => { x with pages := if x.pages.contains (va / 2 ^ 21) then x.pages else x.pages ++ [va / 2 ^ 21] }

/-- Entries with SRC = 6 of a core in slot `t`, its lane-2 entry among them: the requests that may leave it in that slot (R42). -/
def State.outSlotsAt (s : State) (c : CoreId) (t : Nat) : Nat :=
  (s.outsAt c t fun _ e => entSrc e == 6).length + bton (decide (bitsN (s.laneEnt c t) 13 11 = 6))

/-- Has the core a reserved outbound slot at all? -/
def State.hasOutSlot (s : State) (c : CoreId) : Bool := (List.range (s.slotPeriod c)).any fun t => s.outSlotsAt c t != 0

/-- Does a descriptor move data within the core's own core store alone, which takes no slot (R42)? -/
def DescP.ownStore (d : DescP) (c : CoreId) : Bool :=
  let own (x : SideS) (h : Option (Int × Int)) : Bool := h.isNone || (match place x.base.toNat with
    | .core o _ => o == c
    | _ => false)
  !d.cellar && own d.src d.srcHull && own d.dst d.dstHull

/-! ### Completion (R43, R151, R153) -/

/-- Post the completion target (R148). -/
def State.descPost (s : State) (c : CoreId) (d : DescP) (n : Nat) : State :=
  match d.ctKind with
  | 1 => s.ctPost c d.ctId n
  | 2 => s.bellFrom c (bellHdr 1 (s.coreCtx c).val 2 false 0 15 15 c.pos) [BitVec.ofNat 32 d.ctId, BitVec.ofNat 32 n]
  | _ => s

/-- STATUS written, the entry removed, the target posted (R153). -/
def State.descEnd (s : State) (c : CoreId) (e : Nat) (d : DescP) (empty : Bool) : State :=
  let off := 64 * s.entFld c e fStrmEntryDescIdx
  ((s.wrStore c (off + 62) (natBytes 2 (0x8000 + bton empty * 0x4000))).dropDesc c e).descPost c d (if empty then 0 else d.count)

/-! ### Start (R150 to R152) -/

/-- The first descriptor in launch order that has not started, if none before it holds the start of later ones (R122, R152). -/
def State.nextStart (s : State) (c : CoreId) : Option Nat :=
  let ds := (s.core c).descs
  match (List.range ds.length).find? fun e => ((ds[e]?).bind DescS.bytes).isNone with
  | none => none
  | some e => if (ds.take e).any DescS.waiting then none else some e

/-- A waiting descriptor of a context takes the staging area when it is first in line (R122): phase 1 begins. -/
def State.stageTake (s : State) (c : CoreId) (e : Nat) : State :=
  match s.desc c e, (s.ctx (s.coreCtx c).val).staging with
  | some x, h :: _ => if x.waiting && h.1 == c && h.2.1 == x.id then s.modDesc c e fun y => { y with waiting := false } else s
  | _, _ => s

/-- A descriptor reaches the staging area and waits behind those that reached it before it, of those of the same cc behind lower core indices (R122). -/
def stageInsert (x : CoreId × Nat × Nat) : List (CoreId × Nat × Nat) → List (CoreId × Nat × Nat)
  | [] => [x]
  | y :: ys => if y.2.2 = x.2.2 ∧ x.1.idx < y.1.idx then x :: y :: ys else y :: stageInsert x ys

/-- A descriptor other than a Cellar descriptor starts; its bytes have been read. A staged one shows PHASE 1 from its start, while it waits for the staging
area too, of which no rule says what PHASE reads (log entry 172, DESIGN CHOICE). It takes a free area at once, and one that a core of higher index has
taken in this same cc (R122). -/
def State.startPlain (s : State) (c : CoreId) (e : Nat) (b : Bytes) (d : DescP) : State :=
  match d.runKind (coreBase c) with
  | .refuse => s.descRefuse c e 0x1003
  | kind =>
    let idx := s.indices c d
    if d.idxSide ≠ 0 ∧ !d.idxOk idx 0 then s.descRefuse c e 0x100A
    else
      let st := decide (kind = .staged)
      let s1 := ((s.fput (rStrmEntry c e) fStrmEntryPhase (if st then 1 else 2)).fput (rStrmEntry c e) fStrmEntryDesc (bton (decide (kind = .down)))).modDesc
        c e fun x => { x with bytes := some b, idx := some idx, staged := st, waiting := st }
      match st, s.desc c e with
      | true, some x =>
        let k := (s.coreCtx c).val
        let me := (c, x.id, s.cc)
        match (s.ctx k).staging with
        | [] => (s1.modCtx k fun y => { y with staging := [me] }).stageTake c e
        | h :: rest =>
          match (s.core h.1).descs.findIdx? fun d => d.id == h.2.1 with
          | some i =>
            if h.2.2 = s.cc ∧ c.idx < h.1.idx ∧ s.entFld h.1 i fStrmEntryPhase = 1 then
              ((s1.modDesc h.1 i fun y => { y with waiting := true }).modCtx k fun y => { y with staging := me :: stageInsert h rest }).stageTake c e
            else s1.modCtx k fun y => { y with staging := h :: stageInsert me rest }
          | none => s1.modCtx k fun y => { y with staging := h :: stageInsert me rest }
      | _, _ => s1

/-- A Cellar fill pushes its frame (R249). -/
def State.startFill (s : State) (c : CoreId) (e : Nat) (b : Bytes) (d : DescP) : State :=
  let top := s.fget (rCelTop c) fCelTopTop * 128
  let n := s.fget (rCelStatus c) fCelStatusFrames
  let f := d.frameLen
  if s.fget (rCelLimit c) fCelLimitLimit * 4096 < top + f then
    let pc := match s.desc c e with
      | some x => x.pc
      | none => 0
    (s.descFault c (coreRec c 0x3007 pc f top)).dropDesc c e
  else
    let s1 := (((s.fput (rCelTop c) fCelTopTop ((top + f) / 128)).fput (rCelStatus c) fCelStatusFrames (n + 1)).fput (rCelStatus c) fCelStatusDir 1).celPeak c
    (s1.fput (rStrmEntry c e) fStrmEntryPhase 2).modDesc c e fun x => { x with bytes := some b, idx := some [], frame := some (top, top, n) }

/-- A Cellar drain pops its frame (R250). -/
def State.startDrain (s : State) (c : CoreId) (e : Nat) (b : Bytes) (d : DescP) : State :=
  let top := s.fget (rCelTop c) fCelTopTop * 128
  let n := s.fget (rCelStatus c) fCelStatusFrames
  let f := d.frameLen
  if n = 0 ∨ top < s.fget (rCelBase c) fCelBaseBase * 4096 + f then s.descRefuse c e 0x3008
  else
    let s1 := ((s.fput (rCelTop c) fCelTopTop ((top - f) / 128)).fput (rCelStatus c) fCelStatusFrames (n - 1)).fput (rCelStatus c) fCelStatusDir 2
    (s1.fput (rStrmEntry c e) fStrmEntryPhase 2).modDesc c e fun x => { x with bytes := some b, idx := some [], frame := some (top - f, top, n) }

/-- May a Cellar descriptor start: is no descriptor of the other direction incomplete (R249, R250)? -/
def State.dirFree (s : State) (c : CoreId) (fill : Bool) : Bool := !(s.core c).descs.any fun x => x.cellarDir == some (!fill)

/-- The engine starts descriptor `e` (R150 to R152). -/
def State.startDesc (s : State) (c : CoreId) (e : Nat) : State :=
  let b := s.rdStore c (64 * s.entFld c e fStrmEntryDescIdx) 64
  let d := parseDesc b
  if d.descBad then (s.descRefuse c e 0x100D).works c
  else if d.zero then (s.descEnd c e d true).works c
  else if d.formatBad then (s.descRefuse c e 0x1009).works c
  else if !d.cellar then (s.startPlain c e b d).works c
  else if !s.dirFree c d.isFill then s
  else (if d.isFill then s.startFill c e b d else s.startDrain c e b d).works c

/-- DESCRIPTOR_START (R150): the next in launch order, while the context issues on the core (R125). -/
def execDescriptorStart (c : CoreId) (s : State) : Res :=
  match s.nextStart c with
  | some e => .next (if s.run c then s.startDesc c e else s)
  | none => .next s

/-- CELLAR_FILL_START (R249). -/
def execCellarFillStart (c : CoreId) (e : BitVec 6) (s : State) : Res :=
  let d := parseDesc (s.rdStore c (64 * s.entFld c e.toNat fStrmEntryDescIdx) 64)
  .next (if s.run c && s.nextStart c == some e.toNat && d.isFill then s.startDesc c e.toNat else s)

/-- CELLAR_DRAIN_START (R250). -/
def execCellarDrainStart (c : CoreId) (e : BitVec 6) (s : State) : Res :=
  let d := parseDesc (s.rdStore c (64 * s.entFld c e.toNat fStrmEntryDescIdx) 64)
  .next (if s.run c && s.nextStart c == some e.toNat && d.cellar && !d.isFill then s.startDesc c e.toNat else s)

/-! ### Cellar tags (R248, R250) -/

/-- The tag line of a frame (R248). -/
def tagLine (len seq ctx pos : Nat) : Bytes := natBytes 8 len ++ natBytes 4 seq ++ natBytes 1 ctx ++ zeros 1 ++ natBytes 2 pos ++ zeros 112

/-- Drains that were launched after live descriptor `e` are abandoned with it. -/
def dropDrains (c : CoreId) (e : Nat) : Nat → State → State
  | 0, s => s
  | n + 1, s => match s.desc c (e + n) with
    | some x => dropDrains c e n (if x.cellarDir = some false then s.dropDesc c (e + n) else s)
    | none => dropDrains c e n s

/-- CELLAR_TAG_CHECK (R250): the tag line is read, the drain's first request, and compared with the drain. It needs a reserved outbound slot and a stack that
takes it (R42, R202). -/
def execCellarTagCheck (c : CoreId) (e : BitVec 6) (s : State) : Res :=
  let i := e.toNat
  match s.desc c i with
  | none => .next s
  | some x => match x.parsed, x.frame with
    | some d, some (base, top, n) =>
      if !d.cellar || d.isFill || x.tagOk || x.faulted || !s.run c || !s.hasOutSlot c then .next s
      else
        let f := d.frameLen
        let va := base + (f - 128)
        match (s.works c).xlat c va accRead with
        | (s1, .error kind) => .next (s1.accFault c i (.page va accRead kind))
        | (s1, .ok pa) => match s1.linesTouch c x.id [(lineOf pa, .read)] with
          | .error l => .next (s1.lineRefused l)
          | .ok s2 =>
            let s3 := s2.notePage c i va
            if s3.poisoned pa 128 then .next (s3.accFault c i (.poison pa))
            else
              let t := s3.rdBytes pa 128
              if t.take 13 = (tagLine f (n - 1) (s.coreCtx c).val c.pos).take 13 ∧ leAt t 14 2 = c.pos then
                .next (s3.modDesc c i fun y => { y with tagOk := true })
              else
                let s4 := dropDrains c i ((s3.core c).descs.length - i) s3
                let s5 := (s4.fput (rCelTop c) fCelTopTop (top / 128)).fput (rCelStatus c) fCelStatusFrames n
                .next (s5.descFault c (coreRec c 0x3009 0 0 (leAt t 0 8) (leAt t 8 8)))
    | _, _ => .next s

/-! ### Staging (R121, R122) -/

/-- STAGING_ACQUIRE (R122). -/
def execStagingAcquire (c : CoreId) (e : BitVec 6) (s : State) : Res := .next (if s.run c then s.stageTake c e.toNat else s)

/-- The containers that the source side touches (R112, R113, R121): of its rows or blocks, or of the records that the index table names. -/
def DescP.srcLocs (d : DescP) (idx : List Nat) : List Loc :=
  let x := d.src
  if d.idxSide = 1 then (idx.filter fun i => i != nullIdx).map fun i => x.locIdx i 0 0
  else (List.range d.e3).flatMap fun a3 => (List.range d.e2).flatMap fun a2 =>
    if x.blk then (List.range x.br).flatMap fun br => (List.range x.bc).map fun bc => x.loc (32 * bc) (32 * br) a2 a3
    else (List.range x.e1).map fun a1 => x.loc 0 a1 a2 a3

/-- The bytes that the source side touches, as ranges. -/
def DescP.srcRanges (d : DescP) (idx : List Nat) : List (Int × Nat) :=
  (d.srcLocs idx).flatMap fun l => match l.key with
    | some a => d.fetchedAt a l
    | none => []

/-- The lines of phase 1 (R112, R121): the source's, where `pages` puts them, then those of the staging area. -/
def DescP.stageLines (d : DescP) (k : Nat) (idx : List Nat) (lo : Int) (pages : List (Nat × Nat)) : List (Nat × StackReq) :=
  let asked := (d.srcLocs idx).flatMap fun l => match l, l.key with
    | .block .., some a => d.askedAt a l
    | _, some a => d.fetchedAt a l
    | _, none => []
  ((linesOf asked).filterMap (pageLine pages)).map (fun l => (l, .read)) ++
    ({ d with dop := 0 } : DescP).partLines ((d.srcRanges idx).map fun q => (stagePa k lo q.1.toNat, q.2))

/-- Phase 1: the source's bytes into the staging area. -/
def State.stageCopy (s : State) (c : CoreId) (lo : Int) (pages : List (Nat × Nat)) : List (Int × Nat) → State × Option AccFault
  | [] => (s, none)
  | q :: qs =>
    match s.srcRead c { srcPlain with pages := pages } q.1 q.2 with
    | (s1, .error f) => (s1, some f)
    | (s1, .ok b) => (s1.wrHbm (stagePa (s.coreCtx c).val lo q.1.toNat) b).stageCopy c lo pages qs

/-- STAGING_PHASE2 (R121): phase 1 has copied the source; phase 2 begins. After a stop the index table is checked again (R125). The copy needs a reserved
outbound slot and stacks that take its lines (R42, R202). -/
def execStagingPhase2 (c : CoreId) (e : BitVec 6) (s : State) : Res :=
  let i := e.toNat
  match s.desc c i with
  | none => .next s
  | some x => match x.parsed with
    | none => .next s
    | some d =>
      if x.staged && !x.waiting && !x.faulted && s.entFld c i fStrmEntryPhase == 1 && s.run c && s.hasOutSlot c then
        match (s.works c).recheckIdx c i x d with
        | (s1, false) => .next s1
        | (s1, true) =>
          let k := (s.coreCtx c).val
          let idx := if x.recheck then s.indices c d else x.idx.getD []
          let lo := match d.srcHull with
            | some h => h.1
            | none => 0
          match s1.pagesOf c [] (vaParts ((d.srcRanges idx).map fun q => (q.1, q.2, accRead))) with
          | (s2, _, some f) => .next (s2.accFault c i f)
          | (s2, got, none) =>
            let pages := got.map fun g => (g.1, g.2.2)
            match s2.linesTouch c x.id (d.stageLines k idx lo pages) with
            | .error l => .next (s2.lineRefused l)
            | .ok s3 => match (pages.foldl (fun s p => s.notePage c i (p.1 * 2 ^ 21)) s3).stageCopy c lo pages (d.srcRanges idx) with
              | (s4, some f) => .next (s4.accFault c i f)
              | (s4, none) => .next ((s4.fput (rStrmEntry c i) fStrmEntryPhase 2).setReg (rStrmProgress c i) 0)
      else .next s

/-! ### Walks, completion, timeout -/

/-- TABLE_WALK (R209): for live descriptor `e`, where its core's translation cache holds no entry that permits the access; a context that is stopping
makes none (R210). -/
def execTableWalk (c : CoreId) (e : BitVec 6) (va : BitVec 48) (access : BitVec 2) (s : State) : Res :=
  match s.desc c e.toNat with
  | none => .next s
  | some x =>
    if !s.run c || x.faulted then .next s
    else match s.xlat c va.toNat access.toNat with
      | (s1, .ok _) => .next s1
      | (s1, .error kind) => .next (s1.accFault c e.toNat (.page va.toNat access.toNat kind))

/-- What is left of live descriptor `e` is asked for and moved at once (log entry 190, DESIGN CHOICE): the state after, and false where a stack refuses a line,
with nothing moved, or after a fault. -/
def State.moveRest (s : State) (c : CoreId) (e : Nat) (x : DescS) (d : DescP) : State × Bool :=
  let p := (s.reg (rStrmProgress c e)).toNat
  let down := s.goesDown c e
  let j0 := (d.stepsIn down p d.total).1
  let (s1, n, pages, pf) := s.runPages c e x d p d.total
  let (s2, ps, ok) := s1.move c e p (d.pointAt down (j0 + n)) pages
  let js := (List.range n).map fun i => match d.lastStep down with
    | some last => last - (j0 + i)
    | none => j0 + i
  match s2.linesTouch c x.id (d.runLines (s.coreCtx c).val x js pages ps) with
  | .error l => (s1.lineRefused l, false)
  | .ok s3 => match ok, pf with
    | false, _ => (s3, false)
    | true, some f => (s3.accFault c e f, false)
    | true, none => (s3, true)

/-- A fill's tag line, written after its last data byte (R249, R252): false where it is refused, or after a fault. -/
def State.tagWrite (s : State) (c : CoreId) (e : Nat) (x : DescS) (d : DescP) (base n : Nat) : State × Bool :=
  let f := d.frameLen
  let va := base + (f - 128)
  match s.xlat c va accWrite with
  | (s1, .error kind) => (s1.accFault c e (.page va accWrite kind), false)
  | (s1, .ok pa) => match s1.linesTouch c x.id [(lineOf pa, .fullLine)] with
    | .error l => (s1.lineRefused l, false)
    | .ok s2 => ((s2.wrHbm pa (tagLine f n (s.coreCtx c).val c.pos)).clearWhole [(pa, 128)], true)

/-- DESCRIPTOR_COMPLETE (R153): what is left commits, a fill's tag line last, then STATUS and the post. With requests unanswered it waits, and on a stopped
core it goes on at the resume (R125, R252). What lies outside the core's own store moves only for a core with a reserved outbound slot (R42). -/
def execDescriptorComplete (c : CoreId) (e : BitVec 6) (s : State) : Res :=
  let i := e.toNat
  match s.desc c i with
  | none => .next s
  | some x => match x.parsed with
    | none => .next s
    | some d =>
      let left := decide ((s.reg (rStrmProgress c i)).toNat < d.total)
      let out := x.reqs != 0 || (s.core c).outq.any fun r => r.desc == x.id
      if !s.moving c i x d || out || !s.run c || x.faulted || ((left || d.isFill) && !d.ownStore c && !s.hasOutSlot c) then .next s
      else
        let rest (s : State) : State × Bool := if left then (match (s.recheckIdx c i x d) with
          | (s1, false) => (s1, false)
          | (s1, true) => match s1.desc c i with
            | some y => s1.moveRest c i y d
            | none => (s1, false)) else (s, true)
        match rest (s.works c) with
        | (s1, false) => .next s1
        | (s1, true) => match d.isFill, x.frame with
          | true, some (base, _, n) => match s1.tagWrite c i x d base n with
            | (s2, false) => .next s2
            | (s2, true) => .next (s2.descEnd c i d false)
          | _, _ => .next (s1.descEnd c i d false)

/-- STREAM_TIMEOUT (R43): the descriptor is abandoned, and nothing is posted. A wait for the staging area does not count (R122). -/
def execStreamTimeout (c : CoreId) (e : BitVec 6) (s : State) : Res :=
  match s.desc c e.toNat with
  | none => .next s
  | some x => .next (if s.run c && !x.waiting then (s.descFault c (coreRec c 0x3002)).dropDesc c e.toNat else s)

end Sys2Proof.Machine
end

