-- ==== Sys2Proof/Machine/Stack.lean ====
section
/-! DEFINITION. Sys2Proof/Machine/Stack.lean: requests of the stream engines and how the stack caches take and answer them: reserved slots, hits, merges, misses, refusals, fills, returns, slow banks, scrubbing, prefetch (R42, R199 to R206). -/

namespace Sys2Proof.Machine

/-! ### Answers (R42, R201, R202) -/

/-- Requests accepted by stack caches and not yet answered, of a descriptor (R43). -/
def State.reqAdd (s : State) (c : CoreId) (e : Nat) : State :=
  (s.modDesc c e fun x => { x with reqs := x.reqs + 1 }).fput (rStrmStatus c) fStrmStatusReqUsed (s.fget (rStrmStatus c) fStrmStatusReqUsed + 1)

/-- The live descriptor whose request this is. -/
def State.liveOf (s : State) (r : ReqS) : Option Nat :=
  if s.coreCtx r.core = r.ctx then (s.core r.core).descs.findIdx? fun d => d.id == r.desc else none

/-- An accepted request is answered: it is no longer outstanding, whether its descriptor is live or gone (R43, R202). -/
def State.reqDone (s : State) (r : ReqS) : State :=
  match s.liveOf r with
  | some e => ((s.modDesc r.core e fun x => { x with reqs := x.reqs - 1 }).fput (rStrmStatus r.core) fStrmStatusReqUsed
      (s.fget (rStrmStatus r.core) fStrmStatusReqUsed - 1)).works r.core
  | none => s.modCore r.core fun x => { x with gone := (x.gone.map fun g =>
      if g.ctx = r.ctx ∧ g.desc.id = r.desc then { g with desc := { g.desc with reqs := g.desc.reqs - 1 } } else g).filter fun g => g.desc.reqs != 0 }

/-- The run of an accepted write or update commits (R124, R200). Of a descriptor that has left its core's list the request still commits, and moves no
progress point (R202) (log entry 215, DEDUCED). -/
def State.commitReq (s : State) (r : ReqS) : State :=
  match s.liveOf r with
  | some e => (s.move r.core e r.lo r.hi r.pages).1
  | none => match (s.core r.core).gone.find? fun g => g.ctx == r.ctx && g.desc.id == r.desc with
    | none => s
    | some g => match g.desc.parsed with
      | none => s
      | some d => if min r.hi d.total ≤ r.lo then s else (s.commitRun r.core r.ctx.val 64 g.desc d g.down (decide (r.lo = 0)) r.lo r.hi r.pages).1

/-- Read data wait at the stack's router for the core's next return slot (R42): the line as it now stands, unless it is poisoned (R199). -/
def State.holdBack (s : State) (k line : Nat) (r : ReqS) : State :=
  s.modStack k fun y => { y with back := y.back ++ [⟨r, line, if s.poisoned line 128 then none else some (s.rdBytes line 128)⟩] }

/-- Read data reach their core (R42, R199): of a live descriptor the run that belongs to the request is moved; a poisoned line faults it. A faulted one
takes no data (R210). -/
def State.returned (s : State) (b : BackS) : State :=
  let r := b.req
  let c := r.core
  let s1 := s.reqDone r
  match s.liveOf r with
  | none => s1
  | some e =>
    if ((s.desc c e).map DescS.faulted).getD true then s1
    else match b.data with
      | none => s1.accFault c e (.poison b.line)
      | some l => ((s1.modDesc c e fun x => { x with held := ((lineOf r.va, l) :: x.held.filter fun h => h.1 != lineOf r.va).take 64 }).move c e r.lo r.hi r.pages).1

/-! ### Return slots (R42) -/

/-- Edge core `p` of a stack's router (R41), by core. -/
def stackEdge (k p : Nat) : CoreId := coreOfIdx (144 * stackHall k + (if stackHall k < 4 then 0 else 132) + 4 * (k % 2) + p)

/-- The input by which a lane enters an edge core of a stack (R173): EDGE for lanes 0 and 2, the outward input for lane 1. -/
def returnInput (k lane : Nat) : Nat × Bool := if lane = 1 then (if stackHall k < 4 then 1 else 3, false) else (7, lane == 2)

/-- The cores for which a lane of a stack's router has a return slot in this cc: those that its entries lead to (log entry 214, DESIGN CHOICE). -/
def State.returnsTo (s : State) (k p lane : Nat) : List CoreId := (s.reached 80 s.slot [(stackEdge k p, returnInput k lane)]).map Prod.fst

/-- One lane of a stack's router in one cc: the oldest data held for a core that the lane's slot leads to return to it (log entry 214, DESIGN CHOICE). -/
def State.returnLane (s : State) (k p lane : Nat) : State :=
  if (s.stack k).back = [] then s
  else
    let to_ := s.returnsTo k p lane
    match (s.stack k).back.find? fun b => to_.contains b.req.core with
    | none => s
    | some b => ((s.modStack k fun y => { y with back := dropFirst (· == b) y.back }).count (rEdgeBeatsIn (stackHall k) (k % 2)) 1).returned b

/-- The return slots of this cc, by edge core and lane. -/
def State.returnStep (s : State) : State :=
  (s.hbm.map Prod.fst).foldl (fun s k => if (s.stack k).back = [] then s else
    (List.range 12).foldl (fun s i => s.returnLane k (i / 3) (i % 3)) s) s

/-! ### Errors of a line (R199) -/

/-- An uncorrectable line is poisoned and recorded once (R199). -/
def State.hbmBad (s : State) (k line : Nat) : State :=
  if s.poison.contains line then s
  else ((s.poisonLine line).stkCount rStkUncorrCnt k).emit (stkRec k 0x3003 k line)

/-- The outcome of reading a line of HBM, or of the cache's own array. -/
def State.hbmRead (s : State) (k line : Nat) (ecc : EccRes) : State :=
  match ecc with
  | .clean => s
  | .corrected => s.stkCount rStkCorrCnt k
  | .bad => s.hbmBad k line

/-! ### Requests at a stack cache (R202) -/

/-- A request merged into the miss slot that holds its line. -/
def State.mergeReq (s : State) (k line : Nat) (r : ReqS) : State :=
  (s.stkCount rStkMergeCnt k).modStack k fun y => { y with misses := y.misses.map fun m => if m.line = line then { m with reqs := m.reqs ++ [r] } else m }

/-- A miss slot allocated. -/
def State.missReq (s : State) (k line : Nat) (r : ReqS) : State :=
  (s.stkCount rStkMissCnt k).modStack k fun y => { y with misses := y.misses ++ [⟨line, [r], s.now⟩] }

/-- A request that finds its line in the cache: a read's data are held for its core, a write commits. -/
def State.hitReq (s : State) (e k line : Nat) (r : ReqS) : State :=
  if r.kind = .read then ((s.pfUse r.core r.desc k line true).reqAdd r.core e).holdBack k line r else s.commitReq r

/-- A demand request of live descriptor `e` reaches stack `k`: true when it is accepted (R202). -/
def State.demand (s : State) (e k line : Nat) (r : ReqS) (ecc : EccRes) : State × Bool :=
  let x := s.stack k
  let wait (s : State) : State := let s1 := s.reqAdd r.core e; if r.kind = .read then s1.pfUse r.core r.desc k line false else s1
  if x.lines.any fun l => l.1 == line then
    ((((s.stkCount rStkHitCnt k).hbmRead k line ecc).cacheIn k line (reqWrites r.kind)).hitReq e k line r, true)
  else if x.misses.any fun m => m.line == line then (wait (s.mergeReq k line r), true)
  else if r.kind = .fullLine then
    if x.wbRoom line then ((s.cacheIn k line true).commitReq r, true) else (s.stkCount rStkRefuseCnt k, false)
  else if s.slotFor k line then (wait (s.missReq k line r), true)
  else (s.stkCount rStkRefuseCnt k, false)

/-! ### Reserved outbound slots (R42) -/

/-- The requests that may leave a core in this cc. -/
def State.outSlots (s : State) (c : CoreId) : Nat := s.outSlotsAt c s.slot

/-- Has the core a reserved outbound slot left in this cc? -/
def State.slotFree (s : State) (c : CoreId) : Bool := decide ((s.core c).outSent < s.outSlots c)

/-- The place of an edge core and lane in the order of R201. -/
def arrivalKey (port lane : Nat) : Nat := 4 * port + lane

/-- Would a request by this edge core and lane reach the stack behind those that have reached it in this cc (R201)? -/
def State.arrivesNow (s : State) (k port lane : Nat) : Bool :=
  (s.stack k).arrived.1 != s.cc || decide ((s.stack k).arrived.2 ≤ arrivalKey port lane)

/-- A request leaves its core through the stack's router (R51) and reaches its stack; a refused one stays at the head of those that wait (R202). -/
def State.sendReq (s : State) (c : CoreId) (o : OutReqS) : State :=
  let s0 := ((s.works c).modCore c fun x => { x with outSent := x.outSent + 1 }).count (rEdgeBeatsOut (stackHall o.stack) (o.stack % 2)) 1
  let s1 := s0.modStack o.stack fun y => { y with arrived := (s.cc, arrivalKey o.port o.lane) }
  match (s1.core c).descs.findIdx? fun d => d.id == o.desc with
  | none => s1
  | some e =>
    let (s2, ok) := (if o.kind = .read then s1.notePage c e o.va else s1).demand e o.stack o.line
      ⟨c, s.coreCtx c, o.desc, o.va, o.kind, o.lo, o.hi, o.pages⟩ o.ecc
    if ok then s2 else s2.modCore c fun x => { x with outq := { o with refused := true } :: x.outq }

/-- The waiting requests of a core whose slot this is. -/
def State.coreLeaving (s : State) (c : CoreId) : List OutReqS :=
  ((s.core c).outq.take (s.outSlots c - (s.core c).outSent)).takeWhile fun o => s.arrivesNow o.stack o.port o.lane

/-- The requests that leave in this cc, in the order in which the stacks serve them: by edge core, then by lane (R201). -/
def State.leaving (s : State) : List (CoreId × OutReqS) :=
  let l := (s.cores.map fun e => coreOfIdx e.1).flatMap fun c => (s.coreLeaving c).map fun o => (c, o)
  (List.range 16).flatMap fun p => l.filter fun q => arrivalKey q.2.port q.2.lane == p

/-- The waiting requests whose slot this is leave (R42). -/
def State.outStep (s : State) : State :=
  let go := s.leaving
  let s1 := (go.map Prod.fst).dedup.foldl (fun t c => t.modCore c fun x => { x with outq := x.outq.drop (s.coreLeaving c).length }) s
  go.foldl (fun s q => s.sendReq q.1 q.2) s1

/-! ### The prefetcher (R205, R206, R251) -/

/-- Prefetches of the core that wait for their fill (R206). -/
def State.pfInFlight (s : State) (c : CoreId) : Nat :=
  (s.hbm.map fun e => (e.2.misses.map fun m => (m.reqs.filter fun r => r.core == c && r.kind == .prefetch).length).sum).sum

/-- The progress point up to which requests have been sent (R124, R125). -/
def State.sentTo (s : State) (c : CoreId) (e : Nat) (x : DescS) : Nat :=
  let p := (s.reg (rStrmProgress c e)).toNat
  if x.recheck then p else max p x.sent

/-- Will the descriptor read the line at `va` beyond what it has asked for: does a container that a later step fetches touch it (R205)? -/
def State.readsLater (s : State) (c : CoreId) (e : Nat) (x : DescS) (d : DescP) (va : Nat) : Bool :=
  let down := s.goesDown c e
  let (j0, j1) := d.stepsIn down (s.sentTo c e x) d.total
  decide (s.sentTo c e x < d.total) && (List.range (j1 - j0)).any fun i =>
    (linesOf (d.stepReads (x.idx.getD []) (if down then d.stepsTo d.total - 1 - (j0 + i) else j0 + i))).contains (lineOf va)

/-- May the descriptor prefetch the line at `va` (R205, R206, R251)? A staged one reads the staging area, which no page maps (log entry 218, DEDUCED). -/
def State.pfAllowed (s : State) (c : CoreId) (e : Nat) (x : DescS) (d : DescP) (va : Nat) : Bool :=
  let k := (s.coreCtx c).val
  let own := ((s.core c).prefetch.filter fun l => l.2 == x.id).length
  (if d.cellar then !d.isFill && decide (own < s.fget (rCelCtxCfg c.hall.val k) fCelCtxCfgLeadKib * 8) else d.prefetch)
    && (d.idxSide == 0 || !x.recheck)
    && decide (s.pfInFlight c < s.fget (rTrCtx c.hall.val k) fTrCtxPfLines)
    && (s.core c).outq == [] && s.slotFree c
    && (x.staged || ((s.core c).tlb.any fun t => t.1 == k && t.2.1 == va / 2 ^ 21 && bitN t.2.2.toNat 62 && !bitN t.2.2.toNat 60) && x.pages.contains (va / 2 ^ 21))
    && s.readsLater c e x d va

/-- A prefetch request (R202, R206): accepted without data, or dropped. -/
def State.prefetchReq (s0 : State) (c : CoreId) (k line va id : Nat) : State :=
  let s := ((s0.works c).modCore c fun x => { x with outSent := x.outSent + 1 }).count (rEdgeBeatsOut (stackHall k) (k % 2)) 1
  let x := s.stack k
  let r : ReqS := ⟨c, s.coreCtx c, id, va, .prefetch, 0, 0, []⟩
  let note (s : State) : State := ((s.stkCount rStkPfIssueCnt k).modCore c fun y =>
    { y with prefetch := if y.prefetch.contains (line, id) then y.prefetch else y.prefetch ++ [(line, id)] }).modStack k fun y =>
      { y with pf := if y.pf.contains line then y.pf else y.pf ++ [line] }
  if x.lines.any fun l => l.1 == line then note ((s.stkCount rStkHitCnt k).cacheIn k line false)
  else if x.misses.any fun m => m.line == line then note (s.mergeReq k line r)
  else if s.slotFor k line && decide (s.stkCfg k fStkCfgDemandRsv < 256 - x.misses.length) then note (s.missReq k line r)
  else s.stkCount rStkPfDropCnt k

/-! ### A request of a stream engine -/

/-- Is the kind of request one that the descriptor makes of the line at `va`: a read of its source, a write or an update of its destination? -/
def DescP.reqFits (d : DescP) (kind : StackReq) (va : Nat) : Bool :=
  let at_ : Option (Int × Int) := some ((lineOf va : Nat), (lineOf va + 128 : Nat))
  match kind with
  | .read => hullsMeet d.srcHull at_
  | .prefetch => true
  | .accumulate => d.dop != 0 && hullsMeet d.dstHull at_
  | _ => d.dop == 0 && hullsMeet d.dstHull at_

/-- Where the line at `va` lies physically: in the staging area for the source of a staged descriptor in phase 2, else as its page maps it (R121, R209). -/
def State.reqPa (s : State) (c : CoreId) (x : DescS) (d : DescP) (kind : StackReq) (va : Nat) : State × Except Nat Nat :=
  match if x.staged && (kind == .read || kind == .prefetch) then d.srcHull else none with
  | some h => (s, .ok (stagePa (s.coreCtx c).val h.1 va))
  | none => s.xlat c va (match kind with
    | .read => accRead
    | .prefetch => accRead
    | .accumulate => accAccum
    | _ => accWrite)

/-- A demand request of live descriptor `e`, its index table checked where that was due: its line and the pages of its run are translated, and it leaves now
or waits for a slot. -/
def State.makeReq (s : State) (c : CoreId) (e : Nat) (x : DescS) (d : DescP) (kind : StackReq) (va adv : Nat) (a : Arrival) : State :=
  let lo := s.sentTo c e x
  let down := s.goesDown c e
  let hi := if adv = 0 then lo else d.pointAt down (d.stepsIn down lo (min (lo + adv) d.total)).2
  match s.reqPa c x d kind va with
  | (s1, .error k) => (s1.works c).accFault c e (.page va (if kind = .read then accRead else if kind = .accumulate then accAccum else accWrite) k)
  | (s1, .ok pa) => match s1.runPages c e x d lo hi with
    | (s2, _, _, some f) => (s2.works c).accFault c e f
    | (s2, _, pages, none) =>
      let o : OutReqS := ⟨x.id, va, stackOf pa, lineOf pa, a.port.val, a.lane.val, kind, lo, hi, pages, a.ecc, false⟩
      let s3 := s2.modDesc c e fun y => { y with sent := hi }
      if (s.core c).outq = [] ∧ s3.slotFree c = true ∧ s3.leaving = [] ∧ s3.arrivesNow o.stack o.port o.lane = true then s3.sendReq c o
      else s3.modCore c fun y => { y with outq := y.outq ++ [o] }

/-- STACK_CACHE_REQUEST (R42, R202): live descriptor `e` asks for the line at `va`, to move `adv` progress points with it. The request leaves in this cc
if the core has a reserved outbound slot left in it and nothing waits before it, else it waits for the next one; it arrives by the edge core and lane that `a` names of
the stack's router. With 64 requests outstanding, before a drain's tag check, or where the order of an ordered descriptor forbids it, it is not made (R43, R124,
R125, R250) (log entry 190, DESIGN CHOICE). -/
def execStackCacheRequest (c : CoreId) (e : BitVec 6) (va : BitVec 40) (kind : StackReq) (adv : BitVec 32) (a : Arrival) (s : State) : Res :=
  let i := e.toNat
  match s.desc c i with
  | none => .next s
  | some x => match x.parsed with
    | none => .next s
    | some d =>
      let q := (s.core c).outq
      let busy := x.reqs != 0 || q.any fun o => o.desc == x.id
      let hold := 64 ≤ s.fget (rStrmStatus c) fStrmStatusReqUsed + q.length ∨ (x.recheck && busy) = true
        ∨ (adv != 0 && d.ordered && busy) = true
      if !s.run c || x.faulted || !s.moving c i x d || decide (hbmEnd ≤ va.toNat) || !d.reqFits kind va.toNat then .next s
      else if kind = .prefetch then
        if !s.pfAllowed c i x d va.toNat then .next s
        else match s.reqPa c x d kind va.toNat with
          | (s1, .ok pa) => .next (s1.prefetchReq c (stackOf pa) (lineOf pa) va.toNat x.id)
          | (_, .error _) => .next s
      else if hold then .next s
      else match s.recheckIdx c i x d with
        | (s1, false) => .next s1
        | (s1, true) => match s1.desc c i with
          | some y => .next (s1.makeReq c i y d kind va.toNat adv.toNat a)
          | none => .next s1

/-! ### Fills and banks (R199, R202, R203) -/

/-- One merged request is served (R201, R202): a read's data are held for its core, a write commits. -/
def State.serve (s : State) (k line : Nat) (r : ReqS) : State :=
  match r.kind with
  | .prefetch => s
  | .read => s.holdBack k line r
  | _ => (s.commitReq r).reqDone r

/-- MISS_FILL (R202): the line is merged, and the requests merged into its slot are served in their order. It waits for room in the write-back buffer
(R200) (log entry 4, DESIGN CHOICE). -/
def execMissFill (k : Fin 12) (line : BitVec 40) (ecc : EccRes) (s : State) : Res :=
  let l := lineOf line.toNat
  match (s.stack k.val).misses.find? fun m => m.line == l with
  | none => .next s
  | some m =>
    if !(s.stack k.val).wbRoom l then .next s
    else
      let s1 := (s.hbmRead k.val l ecc).modStack k.val fun y => { y with misses := y.misses.filter fun n => n.line != l }
      let s2 := s1.cacheIn k.val l (m.reqs.any fun r => reqWrites r.kind)
      .next ((m.reqs.foldl (fun s r => s.serve k.val l r) s2).bankCheck k.val (bankOf l))

/-- HBM_SLOW_BANK (R203): one record when the bank becomes slow. -/
def execHbmSlowBank (k : Fin 12) (bank : BitVec 12) (s : State) : Res :=
  let b := bank.toNat
  let n := ((s.stack k.val).misses.filter fun m => bankOf m.line == b).length
  if !s.bankSlow k.val b || (s.stack k.val).slowBanks.contains b then .next s
  else .next ((s.modStack k.val fun y => { y with slowBanks := y.slowBanks ++ [b] }).emit (stkRec k.val 0x3005 k.val (b / 64) (b % 64) n))

/-- PATROL_SCRUB (R199). -/
def execPatrolScrub (k : Fin 12) (line : BitVec 40) (ecc : EccRes) (s : State) : Res :=
  let l := lineOf line.toNat
  .next (if stackOf l = k.val ∧ l < hbmEnd then s.hbmRead k.val l ecc else s)

end Sys2Proof.Machine
end

