-- ==== Sys2Proof/Machine/Tick.lean ====
section
/-! DEFINITION. Sys2Proof/Machine/Tick.lean: the passing of one core cycle, or of one Hearth cycle while the core clocks stand (assumption 5): what falls due in the cc, the counters of R46 to R51, and the next cc's actions. -/

namespace Sys2Proof.Machine

/-- The cores with anything in their structured state. -/
def State.listed (s : State) : List CoreId := s.cores.map fun e => coreOfIdx e.1

/-- Nothing falls due on the core while it does not run: its cc are counted when someone looks (`State.settle`). -/
def CoreS.quiet (x : CoreS) : Bool :=
  x.flights == [] && x.runs == [] && x.chain == [] && x.sends == [] && x.posts == [] && x.descs == [] && x.outq == [] && x.attempt.isNone && !x.strm
    && !x.fetched && x.opened == [] && !x.tellStop

/-! ### What falls due in a cc -/

/-- A running core that has not tried its head bundle in this cc does so (R28, R52). -/
def State.autoIssue (s : State) (c : CoreId) : State :=
  if s.run c && (s.core c).attempt.isNone && (s.core c).stopCause.isNone then (s.fetch c).tryIssue c else s

/-- A beat that has reached its input by this cc is handled, without error (R35, R170). -/
def State.landBeat (s : State) (b : BeatS) : State :=
  ({ s with beats := dropFirst (· == b) s.beats } : State).beatIn (coreOfIdx b.dest) (beatInput b.inp).1 (beatInput b.inp).2 b.src b.data .clean

/-- Every beat due at an input. -/
def State.landBeats (s : State) : State :=
  (s.beats.filter fun b => decide (b.dest < 1152) && decide (b.inp < 16) && decide (b.due ≤ s.cc)).foldl State.landBeat s

/-- EJECT writes that are due (R37, R38). -/
def State.ejectsDue (s : State) : List BeatS :=
  s.beats.filter fun b => decide (b.dest < 1152) && decide (16 ≤ b.inp) && decide (b.due ≤ s.cc)

/-- Does a binding that was open when the cc began take the beat: one before those that this cc's MBINDs have opened (R30 M5)? -/
def State.ejectBound (s : State) (b : BeatS) : Bool :=
  let c := coreOfIdx b.dest
  let f := b.inp - 16
  match s.bindTakes c f with
  | some q =>
    let older := ((List.range q).filter fun p => s.flag (rBind c f p) fBindValid).length
    decide (older < s.bindings c f - ((s.core c).opened.filter fun g => g == f).length)
  | none => false

/-- An EJECT beat leaves the mesh: written into its binding, or discarded. -/
def State.landEject (s : State) (b : BeatS) : State :=
  ({ s with beats := dropFirst (· == b) s.beats } : State).ejectWrite (coreOfIdx b.dest) (b.inp - 16) b.data
def State.dropEject (s : State) (b : BeatS) : State :=
  ({ s with beats := dropFirst (· == b) s.beats } : State).ejectStray (coreOfIdx b.dest) (b.inp - 16)

/-- The rows of a send whose slot this is leave; after the last one, s_(N-1), the send ends (R37): a later MSND on the flow still waits in that cc and may issue
in the cc after it (log entry 169, DESIGN CHOICE). -/
def State.sendStep (s : State) (c : CoreId) (x : SendS) : State :=
  let go := ((x.rows.zip x.ats).drop x.sent).takeWhile fun e => decide (e.2 ≤ s.cc)
  if go = [] then s
  else
    let s1 := go.foldl (fun s e => s.sendRow c x.flow.toNat (s.slot + (e.2 - s.cc)) e.1) s
    let y := { x with sent := x.sent + go.length }
    if y.sent = x.rows.length then s1.sendEnd c x (s.cc + 1)
    else s1.modCore c fun z => { z with sends := z.sends.map fun w => if w == x then y else w }

/-- Rows held by KEEP passes whose last row has left the array (R31, R102). -/
def State.countHeld (s : State) (c : CoreId) : State :=
  let x := s.core c
  let due (p : PassS) : Bool := p.keep && !p.counted && decide (p.e + 65 ≤ s.cc)
  let mark (l : List PassS) : List PassS := l.map fun p => if due p then { p with counted := true } else p
  let ps := (x.chain ++ x.runs.flatMap RunS.list).filter due
  if ps = [] then s
  else (ps.foldl (fun s p => s.countPass c p) s).modCore c fun x =>
    { x with chain := mark x.chain, runs := x.runs.map fun r => { r with list := mark r.list } }

/-- Checks that end in this cc, without upsets (R31, R86). -/
def State.checksDue (s : State) (c : CoreId) : State :=
  let rs := (s.core c).runs.filter fun r => r.checked && r.result.isNone && decide (r.check ≤ s.cc)
  rs.foldl (fun s r => s.endCheck c r [] true) s

/-- What falls due on one core in this cc, its own attempt apart. -/
def State.coreDue (s : State) (c : CoreId) : State :=
  let s1 := (s.core c).sends.foldl (fun s x => s.sendStep c x) s
  let s2 := s1.posts c s.cc
  (s2.countHeld c).checksDue c

/-! ### Counting the cc (R46 to R49) -/

/-- Is the instruction one of the array's? -/
def isArr : Instr → Bool
  | .pass .. => true
  | .astat .. => true
  | _ => false

/-- Is the instruction one of the vector unit's: one that writes a vector register or a tile there, or reads lanes? -/
def isVec (i : Instr) : Bool :=
  match i with
  | .vld .. => false
  | .tvop .. => true
  | .tred .. => true
  | .vext .. => true
  | .tcfg .. => false
  | _ => i.dstRegs.any fun r => decide (32 ≤ r)

/-- Is the instruction a descriptor launch? -/
def isLaunch : Instr → Bool
  | .slnch .. => true
  | _ => false

/-- Does the array work in cc `t` (R49): some pass is between its first weight read and its last held row, or its last destination write? -/
def CoreS.arrWorks (x : CoreS) (t : Nat) : Bool :=
  ((x.chain ++ x.runs.flatMap fun r => r.list.dropLast).any fun p => decide (p.issue < t) && decide (t < p.e + 66)) ||
    x.runs.any fun r => match r.last with
      | some q => decide (q.issue < t) && decide (t < r.w + q.n.toNat)
      | none => false

/-- Does the vector unit work in cc `t` (R49)? -/
def CoreS.vecWorks (x : CoreS) (t : Nat) : Bool := x.flights.any fun f => isVec f.instr && decide (f.issue ≤ t) && decide (t < f.done)

/-- `n` cc of an engine that does not work, by R49, in cc charged to `at_` if the core waits. -/
def State.idleCount (s : State) (works : Bool) (desc at_ : Option Nat) (mine : Bool) (idle : Nat → Nat) (nowork n : Nat) : State :=
  if works then s
  else match desc with
    | some i => s.count (idle i) n
    | none => match at_ with
      | some i => if mine then s.count (idle i) n else s.count nowork n
      | none => s.count nowork n

/-- `n` cc of a core counted once each (R46), and for each of its engines (R49): an issue (`some none`), a stall (`some (some i)`), or a cc without a
running context (log entry 162, DEDUCED). -/
def State.accountAs (s : State) (c : CoreId) (what : Option (Option Nat)) (n : Nat) : State :=
  if s.flag (rCntCtl c) fCntCtlFreeze then s
  else
    let x := s.core c
    let s1 := match what with
      | some none => s.count (rIssueCnt c) n
      | some (some i) => s.count (rStallCnt c i) n
      | none => s.count (rHaltCnt c) n
    let head := s.headInstrs c
    let at_ := what.bind id
    let s2 := s1.idleCount (x.arrWorks s.cc) none at_ (head.any isArr) (rArrIdleCnt c) (rArrNoworkCnt c) n
    let s3 := s2.idleCount (x.vecWorks s.cc) none at_ (head.any isVec) (rVecIdleCnt c) (rVecNoworkCnt c) n
    s3.idleCount x.strm (if x.descs = [] then none else some (s.descCause c 0)) at_ (head.any isLaunch) (rStrmIdleCnt c) (rStrmNoworkCnt c) n

/-- This cc of a core; a core that is about to stop for a pre-emption and has not issued counts it as PREEMPT (R44). -/
def State.account (s : State) (c : CoreId) : State :=
  let x := s.core c
  s.accountAs c (if x.attempt.isNone && s.run c && x.preempted then some (some 14) else x.attempt) 1

/-- The actions of a core's operations in this cc, and the rows of passes that are written in it (R31, R58); what has made its last
write leaves. -/
def State.coreActs (s : State) (c : CoreId) : State :=
  let x := s.core c
  let t := s.cc
  let (s1, fs) := x.flights.foldl (fun (a : State × List FlightS) f => let r := a.1.flightAct c f t; (r.1, a.2 ++ [r.2])) (s, [])
  let rowsOf (r : RunS) : Option (List Bytes) := if r.checked then r.result else some (r.exact.map rowBytes)
  let writes (s : State) (r : RunS) : State :=
    match r.last, rowsOf r with
    | some p, some ys => if r.w ≤ t then match ys[t - r.w]? with
        | some y => s.setRow c p.td.toNat (t - r.w) y
        | none => s
      else s
    | _, _ => s
  let resident (r : RunS) : Bool := match r.last with
    | some p => decide (r.w + p.n.toNat ≤ t + 1) && (rowsOf r).isSome
    | none => true
  let s2 := x.runs.foldl writes s1
  let s3 := (x.runs.filter resident).foldl (fun s r => s.countPasses c r.list) s2
  s3.modCore c fun y =>
    { y with flights := fs.filter fun f => decide (t + 1 < f.done), runs := y.runs.filter fun r => !resident r }

/-- The end of a core's cc: counted; its operations act; it stops if a stop has been asked for, before they act where no bundle has
issued in the cc (R67); it gates after 16 cc of waiting on a counter (R220). -/
def State.coreEnd (s : State) (c : CoreId) : State :=
  let s1 := s.account c
  let s2 := match (s.core c).stopCause with
    | some cause =>
      if s.run c then
        if (s.core c).attempt = some none then (s1.coreActs c).stopCore c cause else (s1.stopCore c cause).coreActs c
      else (s1.modCore c fun x => { x with stopCause := none }).coreActs c
    | none => s1.coreActs c
  s2.modCore c fun x => { x with haltAt := s.cc + 1, gated := x.gated || (s2.run c && decide (16 ≤ x.waited)) }

/-- Slots of the cc reserved at an edge core, outward and inward (R41, R51). -/
def State.edgeSlots (s : State) (c : CoreId) : Nat × Nat :=
  let ln := s.laneEnt c s.slot
  let outs := s.outsAt c s.slot fun _ e => entSrc e != 0
  let out := (outs.filter fun e => e.1 == 5 || (cap3 c && decide (e.1 < 4) && (meshNext c e.1).isNone)).length + bton (decide (bitsN ln 13 11 ≠ 0))
  let two (e : Nat × Nat) : Bool := entSrc e.2 == 7 && decide (e.1 < 5) && bitN ln e.1
  let inn := bton (outs.any fun e => entSrc e.2 == 7 && !two e) + bton (outs.any two) + bton (cap3 c && outs.any fun e => offGrid c (entSrc e.2))
  (out, inn)

/-- The slot counters of the edge routers: every edge core's, whether or not a context is on it (R51). -/
def State.edgeCount (s : State) (c : CoreId) : State :=
  match edgeOf c with
  | none => s
  | some (e, _) =>
    let n := s.edgeSlots c
    if n = (0, 0) then s else (s.count (rEdgeSlotsOut c.hall.val e) n.1).count (rEdgeSlotsIn c.hall.val e) n.2

/-- Edge core `k` of edge router `e` of hall `h`, by index (R41). -/
def edgeCoreIdx (h e k : Nat) : Nat :=
  match routerLink h e with
  | some n => linkEdge n
  | none => if h % 4 = 0 then 144 * h + 12 * k else (routerHome h e).idx + k

/-- The cores with a port slot entry or a lane entry written: the others reserve nothing (R35, R174). -/
def State.tabled (s : State) : List Nat :=
  (s.regs.filterMap fun e => match place e.1 with
    | .core c o => if 0x280000 ≤ o ∧ o < 0x28C000 then some c.idx else none
    | .hall h o => if 0x410000 ≤ o ∧ o < 0x438000 then some (edgeCoreIdx h.val ((o - 0x410000) / 0x8000) ((o - 0x410000) % 0x8000 / 0x2000)) else none
    | _ => none).dedup

/-- The slot counters in one cc. -/
def State.edgeCounts (s : State) : State := s.tabled.foldl (fun s i => s.edgeCount (coreOfIdx i)) s

/-- Whole beats in a link's ingress buffer. -/
def LinkS.beatsHeld (l : LinkS) : Nat :=
  (((List.range 64).map fun f => ((l.ingress.filter fun e => e.1 == f).map fun e => e.2.length).sum / 128)).sum

/-- The beats that wait at the link routers and at the stacks' routers for a slot (R42, R51) (log entry 56, DEDUCED). -/
def State.holdCount (s : State) : State :=
  let s1 := s.links.foldl (fun s e => if e.2.ingress = [] then s else s.count (rEdgeHoldCc (linkHall e.1) (linkRouter e.1)) e.2.beatsHeld) s
  s.hbm.foldl (fun s e => if e.2.back = [] then s else s.count (rEdgeHoldCc (stackHall e.1) (e.1 % 2)) e.2.back.length) s1

/-! ### The next cc -/

/-- A core's next cc begins. -/
def State.coreBegin (s : State) (c : CoreId) : State := s.modCore c fun x => { x with attempt := none, strm := false, fetched := false, outSent := 0, opened := [] }

/-- A period of 1,024 cc starts: every hall applies the level that has reached it (R392). -/
def State.gatePeriod (s : State) : State :=
  if s.ebc.gateHere.all Option.isNone then s
  else { s with ebc := { s.ebc with
    gateLvl := (s.ebc.gateLvl.zip s.ebc.gateHere).map fun e => e.2.getD e.1
    gateHere := List.replicate 8 none } }

/-- One core cycle (R15, R34): everything that is due, the ports of each core store in the order F, M, J (R73), then the next cc. What the commands
between two core cycles do through port S counts to the cc before (log entry 57, DESIGN CHOICE), and what crosses between clocks takes no time (log entry
193, DESIGN CHOICE). -/
def State.coreCycle (s : State) : State :=
  let s0 := s.wbDrain.returnStep.outStep
  let s1 := s0.listed.foldl State.autoIssue s0
  let s2 := s1.landBeats
  let s3 := s2.listed.foldl State.coreDue s2
  let ej := s3.ejectsDue
  let s4 := (ej.filter fun b => !s.ejectBound b).foldl State.dropEject s3
  let busy := s4.listed.filter fun c => s4.run c || !(s4.core c).quiet
  let s5 := busy.foldl State.coreEnd s4
  let s6 := (ej.filter s.ejectBound).foldl State.landEject s5
  let s7 := (s6.listed.foldl State.tellLate s6).edgeCounts.holdCount
  let s8 : State := { s7 with cc := s.cc + 1, slot := (s.slot + 1) % 2 ^ 48, now := s.now + ccUnits s.gear }
  let s9 := busy.foldl State.coreBegin (if s8.slot % 1024 = 0 then s8.gatePeriod else s8)
  if s9.runningCtxs = [] then s9.idleCheck else s9

/-- Time passes: a core cycle while the core clocks run, else a Hearth cycle of 40 ns (R394, R396). -/
def State.tick (s : State) : State :=
  if s.ebc.running then s.coreCycle else { s with now := s.now + hearthUnits }

end Sys2Proof.Machine
end

