-- ==== Sys2Proof/Machine/Recorder.lean ====
section
/-! DEFINITION. Sys2Proof/Machine/Recorder.lean: the event recorder: records as bytes, acceptance, the buffer, the flash log and its index, their recovery at a start, the calendar and the freezing of the core counters (R433 to R441, R449). -/

namespace Sys2Proof.Machine

/-! ### The record (R433) -/

/-- A record as its 64 bytes. -/
def LogRec.bytes (r : LogRec) : Bytes :=
  let e := r.ev
  let flags := bton r.unset + 2 * bton e.stop + 4 * bton e.dump + match e.ctx with
    | some k => 8 + 16 * k.val
    | none => 0
  let body := natBytes 2 e.code ++ natBytes 2 flags ++ natBytes 4 r.seq ++ natBytes 8 r.time ++ natBytes 8 e.p1.toNat
    ++ natBytes 8 e.p2.toNat ++ natBytes 8 e.p3.toNat ++ natBytes 8 e.p4.toNat ++ natBytes 8 e.p5.toNat
    ++ natBytes 1 e.sub ++ natBytes 1 e.unit ++ zeros 2
  body ++ natBytes 4 (crc32c body).toNat

/-- Is the CRC at the end of the bytes that of those before it? -/
def crcOk (b : Bytes) : Bool := (crc32c (b.take (b.length - 4))).toNat == leNat (b.drop (b.length - 4))

/-! ### Acceptance (R435, R437) -/

/-- Put a record behind those of its own source and of every lower one. -/
def sourceInsert (r : EvRec) : List EvRec → List EvRec
  | [] => [r]
  | e :: l => if r.unit < e.unit ∨ (r.unit = e.unit ∧ r.sub < e.sub) then r :: e :: l else e :: sourceInsert r l

/-- The records of one Hearth cycle in ascending UNIT, then SUB, each source's own in their order (log entry 158, DEDUCED). -/
def sourceSort (l : List EvRec) : List EvRec := l.foldl (fun acc r => sourceInsert r acc) []

/-- May the record use one of the last 16 entries of the buffer? -/
def mayUseLast (code : Nat) : Bool := code / 4096 == 0 || code / 4096 == 9 || code == 0xF005

/-- A record at the end of its Hearth cycle: accepted with the next SEQ and the cycle's TIME, or dropped. -/
def State.accept (s : State) (r : EvRec) : State :=
  let used := s.log.buffer.length
  if used < 1008 ∨ (used < 1024 ∧ mayUseLast r.code = true) then
    let lr : LogRec := ⟨r, s.log.nextSeq, s.time, s.hearth.cal.isNone⟩
    let s1 : State := { s with
      log := { s.log with buffer := s.log.buffer ++ [lr], nextSeq := (s.log.nextSeq + 1) % 2 ^ 32 }
      dump := match s.dump with
        | some d => if r.dump && d.seq.isNone then some { d with seq := some lr.seq } else s.dump
        | none => none }
    let s2 := s1.count rEvrAcceptCnt 1
    if r.code / 4096 = 9 ∨ r.code / 4096 = 10 then s2.notify 4 (r.code + r.p1.toNat % 2 ^ 48 * 2 ^ 16) else s2
  else
    ({ s with log := { s.log with drops := match s.log.drops with
        | none => some (1, r.code)
        | some (n, c) => some (n + 1, c) } } : State).count rEvrDropCnt 1

/-- Everything that has arrived is accepted. -/
def State.acceptAll (s : State) : State :=
  (sourceSort s.log.arrivals).foldl State.accept { s with log := { s.log with arrivals := [] } }

/-- EVR_ACCEPT (R435). -/
def execEvrAccept (s : State) : Res := .next s.acceptAll

/-! ### Flash (R437 to R439) -/

/-- Address of the record with SEQ `q` (R438). -/
def recAddr (q : Nat) : Nat := if q < 4096 then 0x2010000 + 64 * q else 0x2050000 + 64 * ((q - 4096) % 17408)

/-- Start of a half of the log index (R439). -/
def halfBase (h : Bool) : Nat := if h then 0x2008000 else 0x2000000

/-- An index entry as bytes. -/
def indexEntry (gen next : Nat) : Bytes :=
  let body := natBytes 4 gen ++ natBytes 4 next ++ zeros 4
  body ++ natBytes 4 (crc32c body).toNat

/-- An index entry appended (R439): a full half gives way to the other one, erased (log entry 147, DESIGN CHOICE). -/
def State.indexAppend (s : State) (next : Nat) : State :=
  let l := s.log
  let (s1, l1) := if l.entries = 2048 then
      (s.flashErase (halfBase !l.half) 0x8000, { l with half := !l.half, gen := l.gen + 1, entries := 0 })
    else (s, l)
  { s1.flashWr (halfBase l1.half + 16 * l1.entries) (indexEntry l1.gen next) with log := { l1 with entries := l1.entries + 1, since := 0 } }

/-- The sector that falls due before the record with SEQ `q` is erased (R438). -/
def State.eraseFor (s : State) (q : Nat) : State :=
  if 4096 ≤ q ∧ (q - 4096) % 17408 % 1024 = 0 then (s.flashErase (recAddr q) 0x10000).count rEvrEraseCnt 1 else s

/-- The oldest buffered record is programmed, with the erase and the index entry that fall to it, and its entry frees (log entry 148, DEDUCED). -/
def State.program (s : State) : State :=
  match s.log.buffer with
  | [] => s
  | r :: rest =>
    let s2 := ((s.eraseFor r.seq).flashWr (recAddr r.seq) r.bytes).count rEvrFlashCnt 1
    let l := { s2.log with
      buffer := rest, since := s2.log.since + 1
      flushTo := match s2.log.flushTo with
        | some q => if rest.any fun e => decide (e.seq < q) then some q else none
        | none => none }
    let s3 : State := { s2 with log := l }
    let s4 := if rest = [] ∨ l.since = 64 then s3.indexAppend ((r.seq + 1) % 2 ^ 32) else s3
    match l.drops with
    | some (n, c) => ({ s4 with log := { s4.log with drops := none } } : State).emit (evr 0xF005 0x10 0 n c)
    | none => s4

/-- FLASH_PROGRAM (R437). -/
def execFlashProgram (s : State) : Res := .next s.program

/-- Program `n` records. -/
def programMany : Nat → State → State
  | 0, s => s
  | n + 1, s => programMany n s.program

/-- The whole buffer is flushed, with the overflow record that the flush may bring (R415, R437). -/
def State.flushAll (s : State) : State := (programMany 1 (programMany 1024 s.acceptAll).acceptAll)

/-! ### Flash operations that a reset meets (R407, R441) -/

/-- `n` words of free values, as bytes. -/
def freeBytes : Nat → State → Bytes × State
  | 0, s => ([], s)
  | n + 1, s => let (b, t) := freeBytes n s.fresh.2; (natBytes 8 s.fresh.1.toNat ++ b, t)

/-- A flash operation of `n` words at `a` is cut off: what it leaves is free. -/
def State.cutOff (s : State) (a n : Nat) : State := (freeBytes n s).2.flashWr a (freeBytes n s).1

/-- A power trip or a loss of power tears a program of the oldest record, or of the index entry behind it (R407, R441). Whether one is in progress is
free (log entry 225, DESIGN CHOICE). -/
def State.tearRec (s : State) : State :=
  match s.log.buffer with
  | [] => s
  | r :: _ =>
    let (v, s1) := s.fresh
    if !v.getLsbD 0 then s1
    else if !v.getLsbD 1 then (s1.eraseFor r.seq).cutOff (recAddr r.seq) 8
    else
      let s2 := s1.program
      if s2.log.since = 0 then s2.cutOff (halfBase s2.log.half + 16 * (s2.log.entries - 1)) 2 else s2

/-- It tears a firmware write that began in this Hearth cycle too, or comes after it (R407; log entry 225, DESIGN CHOICE). -/
def State.tearFw (s : State) : State :=
  match s.hearth.flashOp with
  | none => s
  | some (c, a) => if c = s.now / hearthUnits then (if s.fresh.1.getLsbD 0 then s.fresh.2.cutOff a 512 else s.fresh.2) else s

/-- Every other source waits for a program in progress (R407), and that record is kept. Whether one is in progress is free (log entry 225, DESIGN
CHOICE). -/
def State.finishRec (s : State) : State :=
  if s.log.buffer = [] then s else if s.fresh.1.getLsbD 0 then s.fresh.2.program else s.fresh.2

/-! ### Recovery at a start (R439) -/

/-- The valid entries of a half: GEN, place, NEXT. -/
def State.halfEntries (s : State) (h : Bool) : List (Nat × Bool × Nat × Nat) :=
  (List.range 2048).filterMap fun i =>
    let b := s.flashBytes (halfBase h + 16 * i) 16
    if crcOk b then some (leAt b 0 4, h, i, leAt b 4 4) else none

/-- The entry that the recovery takes: the highest GEN, and the last of it. -/
def lastEntry (l : List (Nat × Bool × Nat × Nat)) : Option (Nat × Bool × Nat × Nat) :=
  l.foldl (fun acc e => match acc with
    | none => some e
    | some a => if a.1 < e.1 ∨ (a.1 = e.1 ∧ a.2.2.1 < e.2.2.1) then some e else some a) none

/-- The scan forward from SEQ `q`: the first SEQ whose slot is erased, and the torn slots met (log entry 149, DEDUCED). -/
def State.logScan (s : State) : Nat → Nat → List Nat → Nat × List Nat
  | 0, q, torn => (q, torn)
  | n + 1, q, torn =>
    let b := s.flashBytes (recAddr q) 64
    if b.all fun x => x == 0xFF then (q, torn)
    else s.logScan n ((q + 1) % 2 ^ 32) (if crcOk b && leAt b 4 4 == q then torn else torn ++ [q])

/-- The log as recovered from flash, and the LOG_REPAIR record of torn slots. -/
def State.logRecover (s : State) : State :=
  let (gen, half, entries, next) := match lastEntry (s.halfEntries false ++ s.halfEntries true) with
    | some (g, h, i, n) => (g, h, i + 1, n)
    | none => (0, false, 0, 0)
  let (q, torn) := s.logScan 1024 next []
  let s1 : State := { s with log := { s.log with buffer := [], nextSeq := q, drops := none, flushTo := none, gen, half, entries, since := 0 } }
  match torn with
  | [] => s1
  | t :: _ => s1.emit (evr 0x0016 0x10 0 torn.length t)

/-! ### Reading the log (R440) -/

/-- First SEQ not yet in flash. -/
def State.flashed (s : State) : Nat :=
  match s.log.buffer with
  | r :: _ => r.seq
  | [] => s.log.nextSeq

/-- Oldest SEQ that the circulating area still holds when `f` is the first SEQ not yet in flash. -/
def oldestSeq (f : Nat) : Nat :=
  if f ≤ 4096 + 17408 then 4096 else (f - 1) - (f - 1 - 4096) % 1024 - 17408 + 1024

/-- The SEQs in flash from `a` on. -/
def State.flashSeqs (s : State) (a : Nat) : List Nat :=
  let f := s.flashed
  ((List.range 4096).filter fun q => decide (a ≤ q) && decide (q < f)) ++
    ((List.range 17408).map fun i => oldestSeq f + i).filter fun q => decide (a ≤ q) && decide (q < f)

/-- Up to `n` records from SEQ `a` on, each with its SEQ. -/
def State.logRead (s : State) (a n : Nat) : List (Nat × Bytes) :=
  (((s.flashSeqs a).map fun q => (q, s.flashBytes (recAddr q) 64)) ++
    (s.log.buffer.filter fun r => decide (a ≤ r.seq)).map fun r => (r.seq, r.bytes)).take n

/-! ### Calendar, flush, freeze (R436, R449, R450) -/

/-- Requesters that may write front-die registers by a row of their own: not RoCEv2, whose only register is HR_RING_PROD (R378). -/
def mayWrite (r : Requester) : Bool := r != .rdma

/-- CAL_SET (R436). -/
def execCalSet (r : Requester) (v : Word) (s : State) : Res :=
  if !mayWrite r then .next s
  else .next (({ s with hearth := { s.hearth with cal := some (v.toNat, s.now) } } : State).emit
    (evr 0xF004 0x10 0 s.time v.toNat (bton s.hearth.cal.isNone)))

/-- EVR_FLUSH (R450). -/
def execEvrFlush (r : Requester) (s : State) : Res :=
  if !mayWrite r ∨ s.log.buffer = [] then .next s
  else .next { s with log := { s.log with flushTo := some s.log.nextSeq } }

/-- DIAG_SNAP_FREEZE (R449). -/
def execDiagSnapFreeze (r : Requester) (on : Bool) (s : State) : Res :=
  if !mayWrite r then .next s
  else .next { s.fput rDiagSnap fDiagSnapFreeze (bton on) with snapPend := some on }

/-- DIAG_SNAP_APPLY (R449): in a cc with SLOT mod 1,024 = 0. -/
def execDiagSnapApply (s : State) : Res :=
  match s.snapPend with
  | none => .next s
  | some on =>
    if s.slot % 1024 ≠ 0 then .next s
    else
      let s1 := (allCores.filter fun c => s.built c.hall.val).foldl (fun s c => (s.settle c).fput (rCntCtl c) fCntCtlFreeze (bton on))
        { s with snapPend := none }
      .next (if on then s1.fput rDiagSnapSlot fDiagSnapSlotSnapSlot s.slot else s1)

end Sys2Proof.Machine
end

