-- ==== Sys2Proof/Machine/Start.lean ====
section
/-! DEFINITION. Sys2Proof/Machine/Start.lean: resets and what survives them, firmware images, the classing of starts, and the start up to the run phase, Porch or a failure (R405 to R425, R457, R461, R462). -/

namespace Sys2Proof.Machine

/-! ### Scopes of the resets (R405, R415) -/

/-- Array status registers: STRIKES and RETIRE_PEND of every core. -/
def isArrStatus (a : Nat) : Bool :=
  decide (hallSpace ≤ a) && decide (a < hallSpace + 8 * 0x1000000) && decide (0x510000 ≤ a % 0x1000000) && decide (a % 0x1000000 < 0x510000 + 144 * 0x40)
    && a % 0x40 == 0

/-- GRID_COL registers. -/
def isGridCol (a : Nat) : Bool :=
  decide (hallSpace ≤ a) && decide (a < hallSpace + 8 * 0x1000000) && decide (0x600100 ≤ a % 0x1000000) && decide (a % 0x1000000 < 0x600160)

/-- What a reset that keeps the evidence leaves of a register: STRIKES and RETIRE_PEND, or RETIRE (R415). -/
def evidence (a : Nat) (w : Word) : Word :=
  if isArrStatus a then Fd.put fArrStatusRetirePend (Fd.put fArrStatusStrikes (regReset a) (fArrStatusStrikes.get w)) (fArrStatusRetirePend.get w)
  else Fd.put fGridColRetire (regReset a) (fGridColRetire.get w)

/-- Registers after a reset of the whole device but the Hearth: all at reset but those the Hearth and the pins hold, the
count of dumps since power-on and a failover of the reference, which lasts until REF_RETRY or the next power-on (R395); with `keep` also the evidence of
failing cores. -/
def State.resetAll (s : State) (keep : Bool) : State :=
  let held := [rRstCause, rStartStatus]
  let old := s
  let s1 : State := { s with regs := s.regs.filter fun e => held.contains e.1 }
  let s2 := if keep then (old.regs.filter fun e => isArrStatus e.1 || isGridCol e.1).foldl (fun s e => s.setReg e.1 (evidence e.1 e.2)) s1 else s1
  ((s2.fput rModPins fModPinsThrottle (old.fget rModPins fModPinsThrottle)).fput rDumpStatus fDumpStatusDumpSeq
    (old.fget rDumpStatus fDumpStatusDumpSeq)).fput rEbcStatus fEbcStatusRefFailover (old.fget rEbcStatus fEbcStatusRefFailover)

/-- The structured state that every reset of the front die, halls and links clears. -/
def State.clearDevice (s : State) : State :=
  { s with
    cores := [], ctxs := [], hbm := [], links := [], groups := [], sem := {}, bell := [], bellServed := [], beats := [], pond := {}, host := {}, ebc := {},
    dump := none, snapPend := none, inval := [], slot := 0,
    log := { s.log with arrivals := [], buffer := [], drops := none, flushTo := none } }

/-- Clear what lies in HBM, or keep it (R405); tile files and core stores are lost in either case (R415). -/
def State.clearMem (s : State) (keepHbm : Bool) : State :=
  if keepHbm then { s with mem := s.mem.filter fun e => decide (e.1 < hbmEnd) } else { s with mem := [], poison := [] }

/-- Place of a reset source in the order of R405, from its CAUSE bits; a self-restart and PORCH_EXIT stand with MOD_RESET_N (R412, R419). -/
def resetRank (bits : Nat) : Nat :=
  if bitN bits 0 then 0 else if bitN bits 1 then 1 else if bitN bits 2 ∨ bitN bits 6 then 2 else if bitN bits 3 then 3 else 4

/-- Did the reset that holds the device come in this Hearth cycle, so that a source that comes now is simultaneous with it (R407)? -/
def State.sameCycle (s : State) : Bool :=
  (s.hearth.boot == .rails || s.hearth.boot == .tripHold) && s.hearth.wdt.isNone && s.hearth.resetAt == some (s.now / hearthUnits)

/-- Does a simultaneous source that came before it stand before it in the order of R405? -/
def State.outranked (s : State) (bits : Nat) : Bool := s.sameCycle && decide (resetRank (s.fget rRstCause fRstCauseCause) < resetRank bits)

/-- A reset is applied (R231, R405, R407, R430): `bits` are its CAUSE bits, `warm` tells a watchdog or warm reset. Of simultaneous sources the first in
the order of R405 is applied, and PENDING names all (log entry 139, DEDUCED; log entry 140, DEDUCED; log entry 153, DEDUCED). A trip tears a flash operation in
progress, and every other source waits for it. -/
def State.applyReset (s : State) (bits : Nat) (warm : Bool) (next : Boot) : State :=
  let h := s.hearth
  let pend := bits ||| (if s.sameCycle then s.fget rRstCause fRstCausePending else 0)
  if s.outranked bits then s.fput rRstCause fRstCausePending pend
  else
    let s := if bits = 2 then s.tearRec.tearFw else s.finishRec
    let underWay := h.boot ≠ .rails ∧ h.boot ≠ .tripHold
    let h1 : HearthS := { h with
      boot := next, img := none, heldHdr := none, erased := false, hkMem := [], bootIdx := 0, wdt := none, stableAt := none
      endBits := if underWay ∨ s.sameCycle then bits else h.endBits
      sinceStable := if underWay then h.stableAt.map (fun t => (s.now - t) / unitsMs) else h.sinceStable
      resetAt := some (s.now / hearthUnits), resetWdt := h.wdt.isSome || (s.sameCycle && h.resetWdt)
      flashOp := none }
    let s1 := ((s.orphanAll.resetAll warm).clearDevice).clearMem warm
    { s1 with hearth := h1 }.setReg rRstCause (BitVec.ofNat 64 (h.trip * 2 ^ 16 + pend * 2 ^ 8 + bits))

/-- Does the present start follow a watchdog or warm reset, through which power-good stays high (R409)? -/
def State.warmStart (s : State) : Bool :=
  let cause := s.fget rRstCause fRstCauseCause
  bitN cause 3 || bitN cause 4

/-- Has power-good risen and the start begun (R457)? -/
def State.powerGood (s : State) : Bool := s.hearth.up && s.hearth.boot != .off && s.hearth.boot != .rails && s.hearth.boot != .tripHold

/-- MOD_RESET_N (R457): a reset of the device, but for a pin that is low while the rails are not up, unless it is simultaneous with the reset that took
them down (R407). -/
def execModResetN (s : State) : Res :=
  if !s.hearth.up then .next s
  else
    let low (s : State) : State := { s with hearth := { s.hearth with resetLow := true } }
    let rails := s.hearth.boot == .rails && s.warmStart
    .next (if s.powerGood || rails || s.sameCycle then low (s.applyReset 4 false .rails) else low s)

/-- POWER_TRIP (R384, R406): the Hearth latches the cause. -/
def execPowerTrip (cause : BitVec 3) (s : State) : Res :=
  if !s.hearth.up ∨ s.hearth.boot = .off then .next s
  else .next (({ s with hearth := { s.hearth with trip := cause.toNat, tripNote := true } } : State).applyReset 2 false .tripHold)

/-- TRIP_HOLD_END (R406). -/
def execTripHoldEnd (s : State) : Res :=
  .next (if s.hearth.boot = .tripHold then { s with hearth := { s.hearth with boot := .rails } } else s)

/-- HEARTH_POWER_LOSS (R461): only fuses and flash stay; a flash operation in progress is torn (R407). -/
def execHearthPowerLoss (s0 : State) : Res :=
  let s := s0.tearRec.tearFw
  .next { State.reset with
    pending := s.pending, flash := s.flash, sent := s.sent, free := s.free, regs := []
    hearth := { (State.reset).hearth with up := false, boot := .off, fuses := s.hearth.fuses } }

/-- POWER_ON (R462): the Hearth, its oscillator and the calendar start; RST_CAUSE has its reset value, power-on (log entry 142, DEDUCED). -/
def execPowerOn (s : State) : Res :=
  if s.hearth.up then .next s
  else .next { s with now := 0, regs := [], hearth := { (State.reset).hearth with fuses := s.hearth.fuses } }

/-- SELF_RESTART (R412): 1 s after START_FAIL, when its record has long been flushed (log entry 143, DEDUCED). -/
def execSelfRestart (s : State) : Res :=
  .next (if s.hearth.boot = .failed then s.flushAll.applyReset 0x24 false .rails else s)

/-! ### The watchdog (R408) -/

/-- WATCHDOG (R408): the record is flushed with the buffer, and the reset follows; one simultaneous with another reset takes its place by R407. -/
def execWatchdog (s : State) : Res :=
  if s.hearth.wdt.isSome ∨ (s.sameCycle && s.hearth.resetWdt) = true then
    .next ((if s.outranked 8 then s else (s.emit (evr 0x0014 0x10 0)).orphanAll.flushAll).applyReset 8 true .rails)
  else .next s

/-- WDT_KICK (R408): written only by the Housekeeper; the period begins again. -/
def execWdtKick (r : Requester) (s : State) : Res :=
  .next (if r = .housekeeper ∧ s.hearth.wdt.isSome then { s with hearth := { s.hearth with wdt := some s.now } } else s)

/-! ### Firmware images (R422, R424) -/

/-- A digest as the 64 bytes of FIPS 180, the most significant first. -/
def digestBytes (d : BitVec 512) : Bytes := (natBytes 64 d.toNat).reverse

/-- The first check of R424 that a header and the body behind it fail, none if all pass. `check` tells whether CHECK counts; the
receiver of a host's or a neighbour's image recomputes it. -/
def State.fwCheck (s : State) (hdr body : Bytes) (check : Bool) : Option Nat :=
  let len := leAt hdr 12 4
  let slot := leAt hdr 20 4
  let f := s.hearth.fuses
  if slice hdr 0 8 ≠ ascii "KTZ-FW01" ∨ (check ∧ leAt hdr 364 4 ≠ (crc32c (slice hdr 0 364)).toNat) ∨ len = 0 ∨ 0x1000000 - 4096 < len then some 1
  else if 4 ≤ slot ∨ ¬ bitN f.keyFused.toNat slot ∨ bitN f.keyRevoked.toNat slot ∨ Config.sha512 (slice hdr 88 133) ≠ f.keyHash.getD slot 0 then some 2
  else if !Config.ecdsaVerify (slice hdr 88 133) (Config.sha512 (slice hdr 0 224)) (slice hdr 224 132) then some 3
  else if digestBytes (Config.sha512 (slice body 0 len)) ≠ slice hdr 24 64 then some 4
  else if leAt hdr 8 4 < f.svn then some 5
  else none

/-- The image that a header describes. -/
def fwImg (hdr : Bytes) (seq bank : Nat) : FwImg :=
  ⟨seq, leAt hdr 8 4, leAt hdr 12 4, bitN (leAt hdr 16 4) 0, BitVec.ofNat 4 (leAt hdr 16 4 / 16), leAt hdr 20 4,
    BitVec.ofNat 512 (leNat (slice hdr 24 64).reverse), bank⟩

def State.bankHdr (s : State) (b : Nat) : Bytes := s.flashBytes (bankBase b) 4096
def State.bankBody (s : State) (b : Nat) : Bytes := s.flashBytes (bankBase b + 4096) (leAt (s.bankHdr b) 12 4)

/-- SEQ of a bank's image, none if the bank is not valid. -/
def State.bankSeq (s : State) (b : Nat) : Option Nat :=
  if (s.fwCheck (s.bankHdr b) (s.bankBody b) true).isNone then some (leAt (s.bankHdr b) 356 8) else none

/-- The valid bank with the higher SEQ, bank A if both are equal (R424). -/
def State.newestBank (s : State) : Option Nat :=
  match s.bankSeq 0, s.bankSeq 1 with
  | some a, some b => some (if a < b then 1 else 0)
  | some _, none => some 0
  | none, some _ => some 1
  | none, none => none

/-- A firmware write of 4 KiB to flash (R423), which begins in this Hearth cycle. -/
def State.fwFlash (s : State) (a : Nat) (b : Bytes) : State :=
  { s.flashWr a b with hearth := { s.hearth with flashOp := some (s.now / hearthUnits, a) } }

/-- SEQ that the device gives the next image it takes (R423, R424) (log entry 145, DEDUCED). -/
def State.seqNext (s : State) : Nat :=
  match s.newestBank with
  | some b => (s.bankSeq b).getD 0 + 1
  | none => 1

/-- The bank that a start takes by CONSEC_FAIL (R418). -/
def State.bootBank (s : State) (consec : Nat) : Option Nat :=
  match s.newestBank with
  | none => none
  | some b => some (if consec = 2 ∧ (s.bankSeq (1 - b)).isSome then 1 - b else b)

/-- Bytes written into the Housekeeper image memory. -/
def hkWrite (m : List Host.Cell) : Nat → Bytes → List Host.Cell
  | _, [] => m
  | o, b :: bs => hkWrite (sset (fun _ => 0) m o b) (o + 1) bs

/-- The check of the image in Housekeeper memory. -/
def State.hkCheck (s : State) : Option Nat := s.fwCheck (s.hkBytes 0 4096) (s.hkBytes 4096 (leAt (s.hkBytes 0 4096) 12 4)) false

/-! ### Classing the previous start (R417) -/

/-- A start record of the log: code, P1, P3, P5. -/
structure StartRec where
  code : Nat
  p1 : Nat
  p3 : Nat
  p5 : Nat
  deriving DecidableEq, Repr

/-- The start records in flash from SEQ `a` on. -/
def State.startRecs (s : State) (a : Nat) : List StartRec :=
  (s.flashSeqs a).filterMap fun q =>
    let b := s.flashBytes (recAddr q) 64
    let code := leAt b 0 2
    if crcOk b && [0x0001, 0x0002, 0x0010, 0x0011, 0x0014, 0x0015].contains code then some ⟨code, leAt b 16 8, leAt b 32 8, leAt b 48 8⟩ else none

/-- Does a list of start records hold a code? -/
def hasRec (l : List StartRec) (code : Nat) : Bool := l.any fun r => r.code == code

/-- Verdict on a start from its records, from how it ended and from the start before it: 0 good, 1 failed, 2 Porch; and the rule (log entry 137,
DEDUCED; log entry 138, DEDUCED). -/
def classStart (l : List StartRec) (warmEnd late prevLate : Bool) : Nat × Nat :=
  if hasRec l 0x0011 then (2, 0)
  else if warmEnd then (0, 0)
  else if hasRec l 0x0010 then (1, 1)
  else if !hasRec l 0x0002 then (1, 2)
  else if late && prevLate then (1, 3)
  else (0, 0)

/-- CONSEC_FAIL after a start (R417). -/
def nextConsec (l : List StartRec) (consec verdict : Nat) : Nat :=
  if hasRec l 0x0015 then 0 else if verdict = 0 then 0 else if verdict = 1 then min 255 (consec + 1) else consec

/-- Is a CAUSE one of the watchdog or a power trip? -/
def lateCause (bits : Nat) : Bool := bitN bits 1 || bitN bits 3

/-- The last start in the log of a Hearth that has lost its power: CONSEC_FAIL at it, its records, and whether the start before it
ended late (assumption 40). -/
def foldStarts : List StartRec → Nat × List StartRec × Bool → Nat × List StartRec × Bool
  | [], acc => acc
  | r :: rs, (consec, cur, late) =>
    let close := if cur = [] then consec else nextConsec cur consec (classStart cur false false false).1
    let opens := r.code = 0x0001 ∨ r.code = 0x0011 ∨ (r.code = 0x0010 ∧ (r.p3 = 1 ∨ r.p3 = 4))
    if r.code = 0x0001 then foldStarts rs (r.p3, [r], lateCause r.p1 && decide (r.p5 ≤ 600000))
    else if opens then foldStarts rs (close, [r], false)
    else foldStarts rs (consec, cur ++ [r], late)

/-- Step 2 of a start: the log is recovered, and the previous start classed (R411, R417, R439). -/
def State.classify (s : State) : State :=
  let s1 := s.logRecover
  let h := s1.hearth
  let (consec0, recs, prevLate) := match h.startSeq with
    | some q => (h.consec, s1.startRecs q, h.prevLate)
    | none => foldStarts (s1.startRecs 0) (0, [], false)
  let since := if h.startSeq.isNone then none else h.sinceStable
  let late := lateCause h.endBits && match since with
    | some ms => decide (ms ≤ 600000)
    | none => false
  let warmEnd := h.startSeq.isSome && (bitN h.endBits 4 || bitN h.endBits 6)
  let v := if h.startSeq.isNone && recs == [] then (0, 0) else classStart recs warmEnd late prevLate
  let consec := if h.startSeq.isNone && recs == [] then 0 else nextConsec recs consec0 v.1
  ({ s1 with hearth := { h with
      startSeq := some s1.log.nextSeq, consec := consec, prevLate := late, verdict := v.1 + 256 * v.2, sinceStable := since } } : State).fput
    rStartStatus fStartStatusConsecFail consec

/-! ### The start (R411, R412, R419 to R421) -/

/-- START_FAIL (R412), written by a unit. -/
def State.startFailBy (s : State) (unit cause : Nat) : State :=
  { s.emit (evr 0x0010 unit 0 0 0 cause) with hearth := { s.hearth with boot := .failed, wdt := none } }

/-- START_FAIL (R470): the boot ROM writes it for causes 1, 4 and cause 3 of step 1, the Housekeeper for causes 2 and 5. -/
def State.startFail (s : State) (cause : Nat) : State := s.startFailBy (if cause = 2 ∨ cause = 5 then 0x11 else 0x10) cause

/-- The POWER_TRIP record of the start that follows a trip (R406) (log entry 141, DEDUCED). -/
def State.noteTrip (s : State) : State :=
  if s.hearth.tripNote then
    { s.emit (evr 0x8005 0x10 0 0 0 s.hearth.trip) with hearth := { s.hearth with tripNote := false } }
  else s

/-- Porch is entered (R419): only the front die is powered. -/
def State.enterPorch (s : State) (reason : Nat) : State :=
  let s1 := (s.emit (evr 0x0011 0x10 0 0 0 reason)).fput rEthStatus fEthStatusPhase 1
  let s2 := (List.range 24).foldl (fun s n => s.fput (rLinkStatus n) fLinkStatusState lsDisabled) s1
  let s3 : State := { s2 with regs := s2.regs.filter fun e => !(isArrStatus e.1 || isGridCol e.1) }
  { s3.clearMem false with hearth := { s3.hearth with boot := if reason = 2 then .hostImage else .porch, wdt := none } }

/-- The firmware takes over the port (R411 step 6): the reserved part of HBM is zero (R213), the pins are released, and a dump not
yet read is held (R410, R447). -/
def State.enterRun (s0 : State) : State :=
  let s : State := { s0 with
    mem := s0.mem.filter fun e => !(decide (0xEE08000000 ≤ e.1) && decide (e.1 < 0xEF00000000))
    poison := s0.poison.filter fun l => !(decide (0xEE08000000 ≤ l) && decide (l < 0xEF00000000)) }
  let s1 := (s.fput rEthStatus fEthStatusPhase 2).fput rPinCtl fPinCtlRelease 1
  let hdr := s.rdBytes dumpArea 4096
  let s2 := if crcOk hdr ∧ leAt hdr 56 1 = 2 ∧ leAt hdr 52 1 = 0 then (s1.fput rDumpStatus fDumpStatusValid 1).fput rDumpCfg fDumpCfgArm 0 else s1
  { s2 with hearth := { s2.hearth with boot := .run } }

/-- A lock failure of a PLL (R397): the domain and the hall. -/
def State.pllRecord (s : State) (d : PllDom) : State :=
  s.emit (evr 0x8003 0x14 0 (Config.domainCode d) (match d with
    | .hall h => h.val
    | _ => 0))

/-- Is it a PLL of step 5: an HBM or a link PLL (R397, R411)? -/
def PllDom.late : PllDom → Bool
  | .hall _ => false
  | .front => false
  | .ether => false
  | .stack _ => true
  | .link _ => true

/-- The PLLs of a list that fail twice, with both records of each (R397). -/
def State.pllRecords (s : State) (l : List PllDom) : State := l.foldl (fun s d => (s.pllRecord d).pllRecord d) s

/-- Steps 5 and 6 of a start with a verified image (R411, R413, R197, R397) (log entry 9, DESIGN CHOICE; log entry 136, DEDUCED; log entry 152, DEDUCED;
log entry 223, DEDUCED). -/
def State.bringUp (s : State) (env : StartEnv) (img : FwImg) : State :=
  let s0 := s.fput rStartStatus fStartStatusBank img.bank
  let st := s0.reg rStartStatus
  let p4 := fStartStatusBootSrc.get st + fStartStatusClkMode.get st * 4 + img.bank * 16
  let s1 := State.acceptAll <| s0.emit (evr 0x0001 0x11 0 (s0.reg rRstCause).toNat s0.hearth.verdict s0.hearth.consec p4 (s0.hearth.sinceStable.getD (2 ^ 64 - 1)))
  let s2 : State := { s1 with hearth := { s1.hearth with img := some img, trip := 0, wdt := some s1.now } }
  let plls := env.pllFail.filter PllDom.late
  if plls ≠ [] then (s2.pllRecords plls).startFailBy 0x11 3
  else if env.trainFail ≠ [] then
    (env.trainFail.foldl (fun s k => s.emit (stkRec k.val 0x3006 k.val)) s2).startFail 2
  else if !env.selfTestOk then s2.startFail 5
  else s2.enterRun

/-- Steps 3 and 4 of a start (R411, R418, R419): Porch, the neighbour's image or a bank of flash (log entry 144, DEDUCED). -/
def State.bootRom (s : State) (env : StartEnv) : State :=
  let src := s.fget rStartStatus fStartStatusBootSrc
  if src = 3 then s.enterPorch 1
  else if src = 1 then s.enterPorch 2
  else if 3 ≤ s.hearth.consec then s.enterPorch 0
  else if src = 2 then { s with hearth := { s.hearth with boot := .neighbour, bootIdx := 0, hkMem := [] } }
  else match s.bootBank s.hearth.consec with
    | none => s.startFail 1
    | some b => s.bringUp env (fwImg (s.bankHdr b) (leAt (s.bankHdr b) 356 8) b)

/-- POWER_GOOD (R409, R411): power-good rises, or a watchdog or warm reset is released, which keeps the straps; a
failover of the reference stands (R395). A start runs to its end in this one step (log entry 224, DESIGN CHOICE). -/
def execPowerGood (env : StartEnv) (s : State) : Res :=
  if !s.hearth.up ∨ s.hearth.boot ≠ .rails then .next s
  else
    let old := s.reg rStartStatus
    let warm := s.warmStart
    let src := if warm then fStartStatusBootSrc.get old else env.bootSrc.toNat
    let mode := if warm then fStartStatusClkMode.get old else env.clkMode.toNat
    let s1 := s.setReg rStartStatus (Fd.put fStartStatusClkMode (Fd.put fStartStatusBootSrc 0 src) mode)
    let s2 := s1.fput rEbcStatus fEbcStatusRefSrc (if mode = 1 ∧ s.flag rEbcStatus fEbcStatusRefFailover = false then 1 else 0)
    let s3 : State := { s2 with hearth := { s2.hearth with resetLow := false } }
    let s4 := s3.classify.noteTrip
    let early := env.pllFail.filter fun d => d == .front || (d == .link 0 && (src == 2 || mode == 2))
    .next (if early ≠ [] then (s4.pllRecords early).startFail 3 else s4.bootRom env)

/-! ### After the start (R411, R425) -/

/-- START_STABLE (R411, R425): fuses are burned only now. -/
def execStartStable (s : State) : Res :=
  if s.hearth.boot ≠ .run ∨ s.hearth.stableAt.isSome then .next s
  else
    let s1 := (s.emit (evr 0x0002 0x11 0)).fput rStartStatus fStartStatusStable 1
    let h := s1.hearth
    match h.img with
    | none => .next { s1 with hearth := { h with stableAt := some s.now } }
    | some i =>
      let up := i.advance && decide (h.fuses.svn < i.svn)
      let f1 := if up then { h.fuses with svn := min 128 i.svn } else h.fuses
      let f2 := { f1 with keyRevoked := f1.keyRevoked ||| BitVec.ofNat 4 (i.revoke.toNat - (if bitN i.revoke.toNat i.keySlot then 2 ^ i.keySlot else 0)) }
      let s2 : State := { s1 with hearth := { h with stableAt := some s.now, fuses := f2 } }
      .next (if up then s2.emit (evr 0x9002 0x15 0) else s2)

/-! ### Boot from a neighbour (R421) -/

/-- BOOT_REQ (R421): served over link 0 in SHUTTERED if BOOT_SERVE is set: the running image goes out in ascending chunks, one a frame, then BOOT_END;
else BOOT_END refuses (log entry 146, DEDUCED). -/
def execBootReq (n : LinkId) (s : State) : Res :=
  let s0 := s.ctlTake 0 (.group 5 bootMsg)
  if n.val ≠ 0 ∨ s.linkState 0 ≠ lsShuttered ∨ s.hearth.boot ≠ .run then .next s
  else match s.hearth.img, s.flag rSecCfg fSecCfgBootServe with
    | some _, true => .next (s0.modLink 0 fun l => { l with serve := some 0 })
    | _, _ => .next (s0.ctlSend 0 (.group 7 { bootMsg with arg := 1 }))

/-- BOOT_DATA (R421): a gap in the chunk indices fails the start. Link 0 delivers it while SHUTTERED. -/
def execBootData (idx : BitVec 24) (v : Word) (s0 : State) : Res :=
  let s := s0.ctlTake 0 (.group 6 { bootMsg with arg := idx, value := v })
  if s.hearth.boot ≠ .neighbour ∨ s.linkState 0 ≠ lsShuttered then .next s0
  else if idx.toNat ≠ s.hearth.bootIdx ∨ 0x200000 ≤ idx.toNat then .next (s.startFail 4)
  else .next { s with hearth := { s.hearth with bootIdx := s.hearth.bootIdx + 1, hkMem := hkWrite s.hearth.hkMem (8 * idx.toNat) (natBytes 8 v.toNat) } }

/-- BOOT_END (R421, R424). -/
def execBootEnd (refused : Bool) (len : Word) (env : StartEnv) (s0 : State) : Res :=
  let s := s0.ctlTake 0 (.group 7 { bootMsg with arg := BitVec.ofNat 24 (bton refused), value := len })
  if s.hearth.boot ≠ .neighbour ∨ s.linkState 0 ≠ lsShuttered then .next s0
  else if refused ∨ 8 * s.hearth.bootIdx < len.toNat then .next (s.startFail 4)
  else if (s.hkCheck).isSome then .next (s.startFail 1)
  else .next (s.bringUp env (fwImg (s.hkBytes 0 4096) s.seqNext 3))

/-- NEIGHBOUR_BOOT_TIMEOUT (R421). -/
def execNeighbourBootTimeout (s : State) : Res := .next (if s.hearth.boot = .neighbour then s.startFail 4 else s)

end Sys2Proof.Machine
end

