-- ==== Sys2Proof/Machine/Power.lean ====
section
/-! DEFINITION. Sys2Proof/Machine/Power.lean: the energy budget controller: gears and decode share, PLLs and the starting of the core clocks, issue gating, heat, the reference, the joule counters (R20, R21, R384 to R404, R458). -/

namespace Sys2Proof.Machine

/-! ### Budget and limits -/

/-- B_eff in milliwatts (R385); until the input has been sampled, BUDGET_W (log entry 128, DEDUCED). -/
def State.effMw (s : State) : Nat :=
  let b := s.fget rEbcBudget fEbcBudgetBudgetW * 1000
  let v := s.fget rEbcIn fEbcInVinMv
  if v = 0 then b else min b (66 * v)

/-- Is L held at 15, and the gear at G2: HOT, or THROTTLE_N low (R389, R393, R458)? -/
def State.heatHeld (s : State) : Bool := s.flag rEbcStatus fEbcStatusHot || s.flag rModPins fModPinsThrottle

/-- TEMP of sensor `i`, in eighths of a degree. -/
def State.temp (s : State) (i : Nat) : Int := sextNat 16 (s.fget (rEbcTemp i) fEbcTempTemp)

/-- Does a hall or front-die sensor stand at G4_C, and so in the step that begins too (R389)? -/
def State.atG4C (s : State) : Bool := (List.range 9).any fun i => decide ((8 * s.fget rEbcTempCfg fEbcTempCfgG4C : Int) ≤ s.temp i)

/-- May G4 take part in the next selection (R389)? -/
def State.g4Ok (s : State) : Bool := s.flag rEbcCtl fEbcCtlG4En && !s.ebc.g4Hot && !s.heatHeld

/-- ENG_W (R387): measured, or ENG_INIT_W until a step with an active engine has ended (log entry 129, DEDUCED). -/
def State.engW (s : State) : Nat := if s.ebc.engMeasured then s.fget rEbcEng fEbcEngEngW else s.fget rEbcEng fEbcEngEngInitW

/-! ### Gear and share (R20, R21, R388, R389) -/

/-- E and T of a context's estimate for gear `g`. -/
def State.estE (s : State) (k g : Nat) : Nat := s.fget (rEbcEst k (g - 1)) fEbcEstEMj
def State.estT (s : State) (k g : Nat) : Nat := s.fget (rEbcEst k (g - 1)) fEbcEstTUs

/-- est_power_w of R21, exact: mJ per us is 1,000 W (R388). -/
def State.estPower (s : State) (ks : List Nat) (g share : Nat) : Rat :=
  (ks.map fun k => ((1000 * s.estE k g : Nat) : Rat) / (s.estT k g : Rat)).foldl (· + ·) 0
    - (((ks.length : Int) - 1) * (s.fget (rEbcBase (g - 1)) fEbcBaseBaseW : Int) : Int) + ((share * s.engW : Nat) : Rat)

/-- Does gear `g` with a share fit the budget? -/
def State.fits (s : State) (ks : List Nat) (g share : Nat) : Bool := decide (s.estPower ks g share ≤ (s.effMw : Rat) / 1000)

/-- The gears that the selection considers, highest first (R388, R389). -/
def State.considered (s : State) (ks : List Nat) : List Nat :=
  [4, 3, 2, 1].filter fun g => (ks.all fun k => s.estT k g != 0) && (g != 4 || s.g4Ok) && (decide (g ≤ 2) || !s.heatHeld)

/-- Minimum and maximum share over the running contexts (R20, R23). -/
def State.minShare (s : State) (ks : List Nat) : Nat := (ks.map fun k => s.fget (rHrShare k) fHrShareMin).foldl max 0
def State.maxShare (s : State) (ks : List Nat) : Nat := (ks.map fun k => s.fget (rHrShare k) fHrShareMax).foldl max (s.minShare ks)

/-- The gear (R21, R389): the forced one or the highest considered below it; else the highest that fits; else the lowest considered. -/
def State.pickGear (s : State) (ks : List Nat) (share : Nat) : Nat :=
  let cons := s.considered ks
  let force := s.fget rEbcCtl fEbcCtlGearForce
  let low := (cons.getLast?).getD 1
  if force ≠ 0 then (cons.find? fun g => decide (g ≤ force)).getD low
  else (cons.dropLast.find? fun g => s.fits ks g share).getD low

/-- The remainder of the budget spent on decode engines (R21). -/
def State.growShare (s : State) (ks : List Nat) (g top : Nat) : Nat → Nat → Nat
  | 0, share => share
  | n + 1, share => if share < top ∧ s.fits ks g (share + 1) = true then s.growShare ks g top n (share + 1) else share

/-- The selection of R21: gear and share. -/
def State.select (s : State) : Nat × Nat :=
  let ks := s.runningCtxs
  let share := s.minShare ks
  if s.considered ks = [] then (1, share)
  else
    let g := s.pickGear ks share
    (g, s.growShare ks g (s.maxShare ks) 8 share)

/-! ### The clocks (R390, R396, R397) -/

/-- The halls whose grid is built: those with power and a clock (log entry 131, DEDUCED). -/
def State.builtHalls (s : State) : List (Fin 8) := (List.finRange 8).filter fun h => s.built h.val

/-- Contexts at their boundary go on into the next step once the clocks and the share are settled (R137, R390). -/
def State.releaseAll (s : State) : State :=
  let ks := (List.range 8).filter fun k => s.takesPart k && (s.ctx k).boundary
  ks.foldl (fun s k => (s.modCtx k fun x => { x with joined := true }).tryRelease k) s

/-- The new share takes effect (R20, R336); engines that it adds become ready later. -/
def State.setShare (s : State) (n : Nat) : State :=
  let s1 := (s.fput rEbcStatus fEbcStatusShare n).fput rHrStatus fHrStatusActive n
  { s1 with ebc := { s1.ebc with ready := min s1.ebc.ready n } }

/-- Every built hall's PLL is started, or started again, at a gear. -/
def State.relock (s : State) (target prev : Nat) (fallback : Bool) : State :=
  let s1 := s.builtHalls.foldl (fun s h => (s.fput (rHallClk h.val) fHallClkPllOn 1).fput (rHallClk h.val) fHallClkPllLock 0) s
  let at_ := match s.ebc.change with
    | some c => c.at_
    | none => s.now
  { s1 with ebc := { s1.ebc with change := some ⟨target, prev, [], [], fallback, at_⟩, tried := [], running := false, pllGear := target } }

/-- GEAR_SELECT (R390, R396): the evaluation ends. The same gear goes on; another, or a start at G0, needs the PLLs. -/
def execGearSelect (s : State) : Res :=
  if !s.ebc.evaluating ∨ s.runningCtxs = [] ∨ s.ebc.change.isSome then .next s
  else
    let (g, share) := s.select
    let s1 := s.setShare share
    let s2 : State := { s1 with ebc := { s1.ebc with evaluating := false, g4Hot := s.atG4C } }
    if s.ebc.running then
      .next (if g = s.gear then s2.releaseAll else s2.relock g s.gear false)
    else if s.ebc.pllGear = g ∧ (s.builtHalls.all fun h => s.flag (rHallClk h.val) fHallClkPllLock) = true then
      .next { s2 with ebc := { s2.ebc with change := some ⟨g, 0, List.finRange 8, [], false, s.now⟩ } }
    else .next (s2.relock g 0 false)

/-- PLL_LOCK (R390): the lock of a hall PLL reaches the controller. -/
def execPllLock (d : PllDom) (s : State) : Res :=
  match d, s.ebc.change with
  | .hall h, some c =>
    if !s.built h.val ∨ c.locked.contains h then .next s
    else
      let s1 := s.fput (rHallClk h.val) fHallClkPllLock 1
      .next { s1 with ebc := { s1.ebc with change := some { c with locked := c.locked ++ [h] }, tried := s1.ebc.tried.filter fun e => e != d } }
  | _, _ => .next { s with ebc := { s.ebc with tried := s.ebc.tried.filter fun e => e != d } }

/-- The cores whose context runs on them, and the stopped interval that each counts as GEAR_CHANGE (R390) (log entry 47, DEDUCED). -/
def State.countStopped (s : State) (n : Nat) : State :=
  (s.listed.filter s.run).foldl (fun s c => (s.accountAs c (some (some 12)) n).modCore c fun x => { x with haltAt := s.cc + n }) s

/-- CORE_CLOCK_START (R390, R396): every hall has locked; SLOT restarts at 0. A start from G0 begins the step of R386 and R387. -/
def execCoreClockStart (s : State) : Res :=
  match s.ebc.change with
  | none => .next s
  | some c =>
    if !(s.builtHalls.all fun h => c.locked.contains h) ∨ s.builtHalls = [] then .next s
    else
      let n := if c.prev = 0 then 0 else (s.now - c.at_) / ccUnits c.target
      let s1 := s.countStopped n
      let s2 := s1.builtHalls.foldl (fun s h => s.fput (rHallClk h.val) fHallClkGear c.target) (s1.fput rEbcStatus fEbcStatusGear c.target)
      let s3 : State := { s2 with
        cc := s.cc + n, slot := 0
        ebc := { s2.ebc with change := none, running := true, doze := false } }
      let s4 := s3.gatePeriod
      .next (if c.prev = 0 then { s4 with ebc := { s4.ebc with stepAt := s.now, stepUj := 0, stepHrUj := 0 } } else s4.releaseAll)

/-- Every running context stops with fault 0x8003 and the device stays at G0 (R397); the record is a dump trigger (R443) (log entry 133, DEDUCED). -/
def State.pllStop (s : State) : State :=
  let s1 : State := { s with ebc := { s.ebc with change := none, noGear := true, evaluating := false, running := false } }
  let stopAll (s : State) (k : CtxId) : State :=
    let s3 := (s.showFault k.val 0x8003).stopCtx k.val 0x8003
    let s4 := (s3.activeCores k.val).foldl (fun s c => if s.run c then s.stopCore c .halt else s) s3
    s4.ctxStopped k
  ((List.finRange 8).filter fun k => s.ctxRunning k.val).foldl stopAll s1

/-- PLL_LOCK_FAIL (R397): tried once more; then the previous gear, the stop of every context, or the failure of the start. -/
def execPllLockFail (d : PllDom) (s : State) : Res :=
  let again := s.ebc.tried.contains d
  let tried (s : State) : State := { s with ebc := { s.ebc with tried := s.ebc.tried ++ [d] } }
  match d with
  | .hall h =>
    let s1 := s.fput (rHallClk h.val) fHallClkLockFails (min 255 (s.fget (rHallClk h.val) fHallClkLockFails + 1))
    match s.ebc.change with
    | none => .next (tried (s1.pllRecord d))
    | some c =>
      if !again then .next (tried (s1.pllRecord d))
      else if c.prev ≠ 0 ∧ c.fallback = false then .next ((s1.pllRecord d).relock c.prev c.prev true)
      else
        let r := evr 0x8003 0x14 0 (Config.domainCode d) h.val
        .next ((s1.emitTrig fDumpCfgOnPll r).pllStop)
  | _ =>
    let s1 := s.pllRecord d
    .next (if again && (s.hearth.boot == .neighbour) && d != .ether then s1.startFail 3 else tried s1)

/-- G0_DOZE (R396): the hall PLLs power off, the stacks keep their contents in self-refresh. -/
def execG0Doze (s : State) : Res :=
  if s.ebc.running ∨ s.ebc.change.isSome ∨ s.runningCtxs ≠ [] then .next s
  else
    let s1 := (List.range 8).foldl (fun s h => (s.fput (rHallClk h) fHallClkPllOn 0).fput (rHallClk h) fHallClkPllLock 0) s
    .next { s1 with ebc := { s1.ebc with doze := true, pllGear := 0 } }

/-- DECODE_ENGINE_READY (R390): the engines that the share switches on may take samples. -/
def execDecodeEngineReady (s : State) : Res := .next { s with ebc := { s.ebc with ready := s.fget rEbcStatus fEbcStatusShare } }

/-! ### Issue gating (R391, R392) -/

/-- GATE_NS brought up to the present (R403). -/
def State.gateSettle (s : State) : State :=
  let n := s.ebc.gateRem + (s.now - s.ebc.gateAt)
  if s.fget rEbcStatus fEbcStatusGateLevel = 0 then { s with ebc := { s.ebc with gateAt := s.now } }
  else { s.count rGateNs (n / unitsNs) with ebc := { s.ebc with gateAt := s.now, gateRem := n % unitsNs } }

/-- The controller's level L, on its way to the halls (log entry 130, DEDUCED). -/
def State.setLevel (s : State) (l : Nat) : State :=
  if s.fget rEbcStatus fEbcStatusGateLevel = l then s
  else
    let s1 := s.gateSettle.fput rEbcStatus fEbcStatusGateLevel l
    { s1 with ebc := { s1.ebc with gatePend := List.replicate 8 (some l) } }

/-- GATING_BUCKET (R391, R392): the window takes in the bucket that ends, and L follows it (log entry 127, DESIGN CHOICE). -/
def execGatingBucket (s : State) : Res :=
  let win := (s.ebc.bucket :: s.ebc.window).take 100
  let uj := win.sum
  let s1 := ({ s with ebc := { s.ebc with window := win, bucket := 0 } } : State).fput rEbcWin fEbcWinWinMj (uj / 1000)
  let l := s.fget rEbcStatus fEbcStatusGateLevel
  let s2 := s1.gateSettle
  if s.heatHeld then .next (s2.setLevel 15)
  else if !s.flag rEbcCtl fEbcCtlGateEn then .next (s2.setLevel 0)
  else if 21 * s.effMw * 10 < 20 * uj then
    let s3 := s2.setLevel (min 15 (l + 1))
    .next (if l = 0 then s3.emit (evr 0x8001 0x14 0 (uj / 10000) (s.effMw / 1000) s.gear (s.fget rEbcStatus fEbcStatusShare)) else s3)
  else if uj ≤ s.effMw * 10 then .next (s2.setLevel (l - 1))
  else .next s2

/-- GATE_LEVEL_APPLY (R392): the level reaches the hall, which applies it in a cc in which a period of 1,024 cc starts (log entry 222, DEDUCED). -/
def execGateLevelApply (h : Fin 8) (s : State) : Res :=
  match s.ebc.gatePend.getD h.val none with
  | some l =>
    let s1 : State := { s with ebc := { s.ebc with gateHere := s.ebc.gateHere.set h.val (some l), gatePend := s.ebc.gatePend.set h.val none } }
    .next (if s.slot % 1024 = 0 then s1.gatePeriod else s1)
  | none => .next s

/-! ### Heat and the board's throttle (R389, R393, R458) -/

/-- A sensor reads `temp`; a hall or front-die sensor that reaches G4_C is noted (R389). -/
def State.sensor (s : State) (i : Fin 21) (temp : BitVec 16) : State :=
  let s1 := s.fput (rEbcTemp i.val) fEbcTempTemp temp.toNat
  if i.val < 9 ∧ (8 * s.fget rEbcTempCfg fEbcTempCfgG4C : Int) ≤ temp.toInt then { s1 with ebc := { s1.ebc with g4Hot := true } } else s1

/-- THERMAL_HOT (R393): sensor `i` reads `temp`, at its limit. -/
def execThermalHot (i : Fin 21) (temp : BitVec 16) (s : State) : Res :=
  let s1 := s.sensor i temp
  let limit : Int := if i.val < 9 then 8 * s.fget rEbcTempCfg fEbcTempCfgHotC else 8 * 95
  if temp.toInt < limit ∨ s.flag rEbcStatus fEbcStatusHot = true then .next s1
  else .next (((s1.fput rEbcStatus fEbcStatusHot 1).emit (evr 0x8002 0x14 0 i.val temp.toNat)).setLevel 15)

/-- Is every sensor below its release limit (R393)? -/
def State.cool (s : State) : Bool :=
  (List.range 21).all fun i => decide (s.temp i < if i < 9 then 8 * ((s.fget rEbcTempCfg fEbcTempCfgHotC : Int) - 5) else 8 * 90)

/-- HOT_CLEAR (R393): R391 governs L again from 15. -/
def execHotClear (s : State) : Res := .next (if s.cool then s.fput rEbcStatus fEbcStatusHot 0 else s)

/-- SENSOR_AT_G4_C (R389): a hall or front-die sensor. -/
def execSensorAtG4C (i : Fin 21) (temp : BitVec 16) (s : State) : Res := .next (s.sensor i temp)

/-- THROTTLE_ASSERT (R458). -/
def execThrottleAssert (s : State) : Res := .next ((s.fput rModPins fModPinsThrottle 1).setLevel 15)

/-- THROTTLE_RELEASE (R458). -/
def execThrottleRelease (s : State) : Res := .next (s.fput rModPins fModPinsThrottle 0)

/-! ### The reference (R395) -/

/-- CLK_REF_LOSS (R395): a reference in use other than the internal one goes. -/
def execClkRefLoss (s : State) : Res :=
  if s.fget rEbcStatus fEbcStatusRefSrc = 0 then .next s
  else .next (((s.fput rEbcStatus fEbcStatusRefSrc 0).fput rEbcStatus fEbcStatusRefFailover 1).emit (evr 0x8006 0x14 0))

/-- REF_RETRY (R395, R402): back to the strapped reference if it is present (log entry 132, DEDUCED). -/
def execRefRetry (r : Requester) (present : Bool) (s : State) : Res :=
  let mode := s.fget rStartStatus fStartStatusClkMode
  let src := if mode = 1 then 1 else if mode = 2 ∧ lsAlign ≤ s.linkState 0 ∧ s.linkState 0 ≠ lsDown then 2 else 0
  .next (if mayWrite r && present && s.flag rEbcStatus fEbcStatusRefFailover then
    (s.fput rEbcStatus fEbcStatusRefSrc src).fput rEbcStatus fEbcStatusRefFailover 0 else s)

/-! ### Energy and the input (R384, R386) -/

/-- Add to a list of counters. -/
def State.countEach (s : State) (r : Nat → Nat) (l : List Nat) : State :=
  (l.zip (List.range l.length)).foldl (fun s e => s.count (r e.2) e.1) s

/-- ENERGY_SAMPLE (R386): the counters, the bucket and the step integrate 40 ns; the input and the sensors are read. -/
def execEnergySample (e : EnergySample) (s : State) : Res :=
  let halls := e.hallUj.take 8
  let stk := e.stackUj.take 12
  let parts := halls.sum + stk.sum + e.links + e.front + e.headrace
  let s1 := ((s.count rModJ e.mod).countEach rHallJ halls).countEach rStackJ stk
  let s2 := ((s1.count rLinkJ e.links).count rFrontJ e.front).count rHeadraceJ e.headrace
  let s3 := s2.setReg rOtherJ (s2.reg rOtherJ + BitVec.ofNat 64 e.mod - BitVec.ofNat 64 parts)
  let s4 := ((e.temps.take 21).zip (List.range 21)).foldl (fun s t => s.fput (rEbcTemp t.2) fEbcTempTemp t.1.toNat) s3
  let s5 := (s4.fput rEbcIn fEbcInVinMv e.vinMv.toNat).fput rEbcIn fEbcInIinMa e.iinMa.toNat
  let inside := decide (46000 ≤ e.vinMv.toNat) && decide (e.vinMv.toNat ≤ 54000)
  .next { s5 with ebc := { s5.ebc with
    bucket := s.ebc.bucket + e.mod, stepUj := s.ebc.stepUj + e.mod, stepHrUj := s.ebc.stepHrUj + e.headrace
    excursion := s.ebc.excursion && !inside
    g4Hot := s.ebc.g4Hot || (e.temps.take 9).any fun t => decide ((8 * s.fget rEbcTempCfg fEbcTempCfgG4C : Int) ≤ t.toInt) } }

/-- INPUT_RANGE (R384): one record per excursion. -/
def execInputRange (vin : BitVec 16) (iin : BitVec 17) (high : Bool) (s : State) : Res :=
  let out := if high then decide (54000 < vin.toNat) else decide (vin.toNat < 46000)
  if !out ∨ s.ebc.excursion then .next s
  else .next { s.emit (evr 0x8004 0x14 0 vin.toNat iin.toNat (bton high)) with ebc := { s.ebc with excursion := true } }

end Sys2Proof.Machine
end

