-- ==== Sys2Proof/Machine/Bus.lean ====
section
/-! DEFINITION. Sys2Proof/Machine/Bus.lean: reads and writes of registers, core stores and tile files by device address: access types, clamps, refusals, and the effects that a register write has of its own (R6 to R9, R50, R51, R75, R76, R102, R194, R195, R216, R475). -/

namespace Sys2Proof.Machine

/-! ### What a read sees beyond what is stored -/

/-- A one-field word. -/
def fldWord (f : Fd) (v : Nat) : Word := Fd.put f 0 v

/-- CORE_ID (R76). -/
def State.coreIdWord (s : State) (c : CoreId) : Word :=
  fldWord fCoreIdHall c.hall.val ||| fldWord fCoreIdRow c.row.val ||| fldWord fCoreIdCol c.col.val ||| fldWord fCoreIdProw (s.prow c)

/-- The attachment of edge router `e` of hall `h`: its KIND, INDEX and capacity, none for a router that hall lacks (R41, R51). -/
def edgeAttach (h e : Nat) : Option (Nat × Nat × Nat) :=
  if h % 4 = 0 then (if e = 0 then some (0, 0, 12) else if e < 4 then some (2, 3 * h + e - 1, 3) else none)
  else if e < 2 then some (1, (if h < 4 then 2 * h - 2 else 2 * h - 4) + e, 12)
  else if e < 5 then some (2, 3 * h + e - 2, 3) else none

/-- Slots of the Millpond in a state. -/
def State.slotCount (s : State) (v : SlotS) : Nat := (s.slotsIn v).length

/-- STK_STATUS of stack `k` (R215) (log entry 25, DEDUCED). -/
def State.stkStatusWord (s : State) (k : Nat) : Word :=
  let x := s.stack k
  let peak := (x.misses.map fun m => (x.misses.filter fun n => bankOf n.line == bankOf m.line).length).foldl max 0
  fldWord fStkStatusSlotsUsed x.misses.length ||| fldWord fStkStatusBankPeak peak ||| fldWord fStkStatusSlowBanks (x.slowBanks.filter (s.bankSlow k)).length
    ||| fldWord fStkStatusReady (bton (s.hearth.boot == .run))

/-- The FUSE_BAD bits of column `x` of hall `h` (R188). -/
def State.fuseBad (s : State) (h x : Nat) : Nat :=
  match s.hearth.fuses.faultBits.find? fun e => e.1 == 12 * h + x with
  | some e => e.2.toNat
  | none => 0

/-- ALERT_N driven low (R459). -/
def State.alert (s : State) : Bool :=
  s.flag rPinCtl fPinCtlRelease && (s.flag rEbcStatus fEbcStatusHot || s.flag rDumpStatus fDumpStatusValid || s.flag rModPins fModPinsAlertForce)

/-- ARR_STATUS of position `i` of a hall as it reads now (R101). -/
def State.arrWordAt (s : State) (h i : Nat) : Word := s.arrWord (coreOfIdx (144 * h + i))

/-- A register of a hall control block as it reads now. -/
def State.viewHall (s : State) (h o : Nat) (w : Word) : Word :=
  let e := (o - 0x400000) / 0x100
  if 0x400000 ≤ o ∧ o < 0x400500 ∧ o % 0x100 = 0 then
    match edgeAttach h e with
    | some (k, i, c) => fldWord fEdgeInfoKind k ||| fldWord fEdgeInfoIndex i ||| fldWord fEdgeInfoCap c
    | none => w
  else if 0x600100 ≤ o ∧ o < 0x600160 then Fd.put fGridColFuseBad w (s.fuseBad h ((o - 0x600100) / 8))
  else if o = 0x700008 ∨ o = 0x710008 then
    match edgeAttach h ((o - 0x700000) / 0x10000) with
    | some (1, k, _) => s.stkStatusWord k
    | _ => w
  else if 0x510000 ≤ o ∧ o < 0x510000 + 144 * 0x40 ∧ o % 0x40 = 0 then s.arrWordAt h ((o - 0x510000) / 0x40)
  else if o = 0x780040 then fldWord fTrInvalBusy (bton (s.inval != []))
  else w

/-- SEC_STATUS (R431) (log entry 165, DESIGN CHOICE). -/
def State.secStatusWord (s : State) : Word :=
  let f := s.hearth.fuses
  fldWord fSecStatusFusedSvn f.svn ||| fldWord fSecStatusKeyRevoked f.keyRevoked.toNat ||| fldWord fSecStatusTpiFmtMax f.tpiFmtMax.toNat
    ||| fldWord fSecStatusKeyFused f.keyFused.toNat ||| fldWord fSecStatusRomVer f.romVer.toNat

/-- EVR_STATUS (R450). -/
def State.evrStatusWord (s : State) : Word :=
  fldWord fEvrStatusNextSeq s.log.nextSeq ||| fldWord fEvrStatusCalSet (bton s.hearth.cal.isSome)
    ||| fldWord fEvrStatusFlushBusy (bton s.log.flushTo.isSome) ||| fldWord fEvrStatusBufUsed s.log.buffer.length

/-- Waiters and watches registered at a semaphore (R241). -/
def State.semWaiters (s : State) (p : Nat) : Nat :=
  (s.sem.entries.filter fun e => match e with
    | .wait w => w.psem == p
    | .watch w => w.psem == p).length

/-- Nanoseconds of a time that has lasted `n` units before and, where it runs, since a moment (log entry 26, DEDUCED). -/
def State.nsFor (s : State) (n : Nat) (t : Option Nat) : Nat :=
  (n + match t with
    | some x => s.now - x
    | none => 0) / unitsNs

/-- A front-die register as it reads now (log entry 24, DEDUCED). -/
def State.viewDie (s : State) (o : Nat) (w : Word) : Word :=
  let a := dieSpace + o
  if a = rMpStatus0 then
    fldWord fMpStatus0Ready (s.slotCount .ready) ||| fldWord fMpStatus0Held (s.slotCount .held)
      ||| fldWord fMpStatus0Free s.freeSlots
  else if a = rMpStatus1 then
    fldWord fMpStatus1Filling (s.slotCount .filling) ||| fldWord fMpStatus1Reserve (s.slotCount .reserve)
      ||| fldWord fMpStatus1Exch (s.slotCount .outbound + s.slotCount .inbound)
  else if a = rMpEmptyNs then w + BitVec.ofNat 64 (s.nsFor s.pond.emptyFor s.pond.emptyAt)
  else if a = rMpFullNs then w + BitVec.ofNat 64 (s.nsFor s.pond.fullFor s.pond.fullAt)
  else if a = rEbcStatus then Fd.put fEbcStatusG4Ok (Fd.put fEbcStatusEffW w (s.effMw / 1000)) (bton s.g4Ok)
  else if a = rGateNs then (s.gateSettle).reg rGateNs
  else if a = rModPins then Fd.put fModPinsAlert w (bton s.alert)
  else if a = rEvrStatus then s.evrStatusWord
  else if a = rEvrCalNow then BitVec.ofNat 64 s.time
  else if a = rSecStatus then s.secStatusWord
  else if a = rEthMac then fldWord fEthMacMac s.hearth.fuses.mac.toNat
  else if 0xB080000 ≤ o ∧ o < 0xB0A0000 ∧ o % 0x80 = 0x78 then
    let x := s.group ((o - 0xB080000) / 0x80)
    match x.runFrom with
    | some t => Fd.put fRsRunSRun w ((x.runUnits + (s.now - t)) / (unitsMs * 1000))
    | none => w
  else if a = rQuernStatus then fldWord fQuernStatusOpen s.openBuckets
  else if a = rWatchUsed then fldWord fWatchUsedRemoteUsed s.remoteWatches ||| fldWord fWatchUsedLocalUsed s.localWatches
  else if 0x8000000 ≤ o ∧ o < 0x8180000 ∧ o % 0x10000 = 0x140 then
    let l := s.link ((o - 0x8000000) / 0x10000)
    if l.heldAt = [] then w else w + BitVec.ofNat 64 ((s.now - l.holdFrom) / unitsNs)
  else if 0x9001000 ≤ o ∧ o < 0x9002800 ∧ o % 0x100 = 0 then fldWord fQeStatusBufUsed (min 2048 (s.link ((o - 0x9001000) / 0x100)).slotsUsed)
  else if 0xA000000 ≤ o ∧ o < 0xA020000 then Fd.put fSemWaiters w (s.semWaiters ((o - 0xA000000) / 8))
  else w

/-- A register as it reads now, WO fields not yet taken out (log entry 160, DEDUCED). -/
def State.regNow (s : State) (a : Nat) : Word :=
  match place a with
  | .core c o =>
    if o = 0x200000 then s.coreIdWord c
    else if 0x300000 ≤ o then (s.settle c).reg a
    else s.reg a
  | .hall h o => s.viewHall h.val o (s.reg a)
  | .die o => s.viewDie o (s.reg a)
  | _ => 0

/-! ### Which accesses are refused (R9, R76, R184, R195) -/

/-- Does the hall have the edge router or the stack that a control-block offset names (R41, R174, R195)? (log entry 23, DEDUCED) -/
def hallHas (h o : Nat) : Bool :=
  if 0x400000 ≤ o ∧ o < 0x410000 then (edgeAttach h ((o - 0x400000) / 0x100)).isSome
  else if 0x410000 ≤ o ∧ o < 0x500000 then
    match edgeAttach h ((o - 0x410000) / 0x8000) with
    | some (2, _, _) => decide ((o - 0x410000) % 0x8000 < 0x2000)
    | some _ => true
    | none => false
  else if 0x700000 ≤ o ∧ o < 0x780000 then decide (h % 4 ≠ 0)
  else true

/-- The stack region of a hall that has no stack reads zero (R215). -/
def stackless (h o : Nat) : Bool := h % 4 == 0 && decide (0x700000 ≤ o) && decide (o < 0x720000)

/-- The register family at an address that is there. -/
def regHere (a : Nat) : Option RegDesc :=
  match place a with
  | .hall h o => if hallHas h.val o then regDesc a else none
  | _ => regDesc a

/-- Does the offset in a core window lie in the tile file (R75)? -/
def inTileFile (o : Nat) : Bool := decide (0x240000 ≤ o) && decide (o < 0x280000)

/-- Is an access of `n` bytes at `a` of a legal width and alignment (R9)? (log entry 21, DEDUCED) -/
def widthAligned (a n : Nat) : Bool := (n == 4 || n == 8) && a % n == 0

/-- May the core window be reached at an offset: the grid is built and has a core there, and context state only while RUN is 0 (R76, R184, R187)? (log
entry 22, DEDUCED) -/
def State.coreOpen (s : State) (c : CoreId) (o : Nat) (d : Option RegDesc) : Bool :=
  s.built c.hall.val && !s.isHole c && !(s.run c && (inTileFile o || match d with
    | some d => d.ctx
    | none => false))

/-- An aligned register read of 4 or 8 bytes: its bytes, none where it is refused (R9). -/
def State.busRead (s : State) (a n : Nat) : Option Bytes :=
  let b := a / 8 * 8
  let d := regHere b
  if !widthAligned a n then none
  else match place b with
    | .core c o =>
      if !s.coreOpen c o d then none
      else if o < 0x200000 ∨ inTileFile o = true then some (s.rdBytes a n)
      else d.map fun d => slice (natBytes 8 (d.read (s.regNow b)).toNat) (a % 8) n
    | .hall h o => if stackless h.val o then some (zeros n) else d.map fun d => slice (natBytes 8 (d.read (s.regNow b)).toNat) (a % 8) n
    | .die _ => d.map fun d => slice (natBytes 8 (d.read (s.regNow b)).toNat) (a % 8) n
    | _ => none

/-- What an accepted read of `n` bytes at `a` leaves behind: RC fields are cleared (R6). -/
def State.readDone (s : State) (a n : Nat) : State :=
  let b := a / 8 * 8
  match regHere b with
  | some d =>
    if d.hasRc && (s.busRead a n).isSome then s.setReg b (d.afterRead ((2 ^ (8 * n) - 1) * 2 ^ (8 * (a % 8))) (s.reg b)) else s
  | none => s

/-! ### Invalidations (R211, R216) -/

/-- Fields of a value written to TR_INVAL: the context, and the page unless ALL is set. -/
def invalOf (v : Word) : Nat × Option Nat :=
  (fTrInvalCtx.get v, if fTrInvalAll.get v = 1 then none else some (fTrInvalVpn.get v))

/-- TR_INVAL (R216): a write in any hall acts on the whole device; it waits while BUSY is 1. -/
def State.invalidate (s : State) (v : Word) : State := { s with inval := s.inval ++ [invalOf v] }

/-- TR_INVAL (R216). RoCEv2 reaches no register but HR_RING_PROD (R378). -/
def execTrInval (r : Requester) (_h : Fin 8) (v : Word) (s : State) : Res := .next (if mayWrite r then s.invalidate v else s)

/-- Is a request that was translated by context `k`, for page `p` if one is named, still to commit (R211): waiting for its slot, or in a miss slot? -/
def State.oldOut (s : State) (k : Nat) (p : Option Nat) : Bool :=
  let hit (j : CtxId) (va : Nat) (pages : List (Nat × Nat)) : Bool := j.val == k && (match p with
    | some v => va / 2 ^ 21 == v || pages.any fun g => g.1 == v
    | none => true)
  (s.listed.any fun c => (s.core c).outq.any fun o => hit (s.coreCtx c) o.va o.pages)
    || s.hbm.any fun e => (e.2.back.any fun b => hit b.req.ctx b.req.va b.req.pages)
      || e.2.misses.any fun m => m.reqs.any fun r => r.kind != .prefetch && hit r.ctx r.va r.pages

/-- TR_INVAL_DONE (R211): every translation cache has dropped the entry and every request translated with it has committed; an invalidation held
starts. -/
def execTrInvalDone (s : State) : Res :=
  match s.inval with
  | [] => .next s
  | (k, p) :: rest =>
    if s.oldOut k p then .next s
    else
    let hit (e : Nat × Nat × Word) : Bool := e.1 == k && (match p with
      | some v => e.2.1 == v
      | none => true)
    .next { s.listed.foldl (fun s c => s.modCore c fun x => { x with tlb := x.tlb.filter fun e => !hit e }) s with inval := rest }

/-! ### Stream entries (R475) -/

/-- A write of the bits under `mask` into the first register of entry `e` (R155, R475): VALID = 0 removes a live descriptor; one that has not started
takes DESC_IDX, DESC and PHASE, whose 3 stores 2; the engine starts a descriptor whatever its PHASE reads (log entry 67, DESIGN CHOICE). -/
def State.entryWrite (s : State) (c : CoreId) (e mask new : Nat) : State :=
  let a := rStrmEntry c e
  if (s.core c).descs.length ≤ e then s
  else if bitN mask 63 && !bitN new 63 then s.dropDesc c e
  else if s.fget a fStrmEntryPhase ≠ 0 then s
  else
    let m := bitsN mask 20 6
    let s1 := s.fput a fStrmEntryDescIdx ((s.fget a fStrmEntryDescIdx &&& (0x7FFF - m)) ||| (bitsN new 20 6 &&& m))
    if bitN mask 60 then (s1.fput a fStrmEntryDesc (bitsN new 60 60)).fput a fStrmEntryPhase (min (bitsN new 62 61) 2) else s1

/-- A write of the bits under `mask` into PROGRESS of a live entry. -/
def State.progressWrite (s : State) (c : CoreId) (e mask new : Nat) : State :=
  let a := rStrmProgress c e
  if (s.core c).descs.length ≤ e then s
  else s.setReg a (BitVec.ofNat 64 (((s.reg a).toNat &&& (2 ^ 64 - 1 - mask)) ||| (new &&& mask)))

/-- STRM_ENTRY_WRITE (R475): reached while RUN is 0 in a built hall (R76, R184). -/
def execStrmEntryWrite (r : Requester) (c : CoreId) (e : BitVec 6) (second : Bool) (v : Word) (s : State) : Res :=
  if !mayWrite r || !s.coreOpen c 0x210100 (regDesc (coreBase c + 0x210100)) then .next s
  else .next (if second then s.progressWrite c e.toNat (2 ^ 64 - 1) v.toNat else s.entryWrite c e.toNat (2 ^ 64 - 1) v.toNat)

/-! ### Counter blocks -/

/-- Registers of an address range [lo, hi) back to their reset values. -/
def State.zeroRange (s : State) (lo hi : Nat) : State := s.resetRegs fun a => !(decide (lo ≤ a) && decide (a < hi))

/-- A write of CNT_CTL (R50): FREEZE is stored, and CLEAR zeroes every counter of the block. -/
def State.cntCtlWrite (s : State) (c : CoreId) (mask new : Nat) : State :=
  let s1 := s.settle c
  let s2 := if bitN mask 1 then s1.fput (rCntCtl c) fCntCtlFreeze (bitsN new 1 1) else s1
  if bitN mask 0 && bitN new 0 then
    (s2.zeroRange (coreBase c + 0x300008) (coreBase c + 0x300018)).zeroRange (coreBase c + 0x300080) (coreBase c + 0x300298) else s2

/-- CNT_CTL_CLEAR (R50). -/
def execCntCtlClear (r : Requester) (c : CoreId) (v : Word) (s : State) : Res :=
  .next (if mayWrite r && s.built c.hall.val then s.cntCtlWrite c (2 ^ 64 - 1) v.toNat else s)

/-- The array counters of a core zeroed (R102). -/
def State.arrClear (s : State) (c : CoreId) : State :=
  s.zeroRange (rArrPassCnt c.hall.val (arrIx c)) (rArrCntCtl c.hall.val (arrIx c))

/-- ARR_CNT_CLEAR (R102): the registers lie in the hall control block. -/
def execArrCntClear (r : Requester) (c : CoreId) (s : State) : Res := .next (if mayWrite r then s.arrClear c else s)

/-- How far below a control register of EDGE_CTL's layout its counters begin (R51, R102, R215, R216, R242, R292, R315, R351, R352,
R383, R403, R452). -/
def ctlSpan (a : Nat) : Option Nat :=
  match place a with
  | .hall h o =>
    if !hallHas h.val o then none
    else if 0x400000 ≤ o ∧ o < 0x400500 ∧ o % 0x100 = 0x30 then some 0x28
    else if 0x510000 ≤ o ∧ o < 0x510000 + 144 * 0x40 ∧ o % 0x40 = 0x38 then some 0x30
    else if o = 0x700068 ∨ o = 0x710068 then some 0x58
    else if o = 0x780110 then some 0x10 else none
  | .die o =>
    let a := dieSpace + o
    if a = rHrCntCtl then some 0x80 else if a = rMpCntCtl then some 0x40 else if a = rEbcCntCtl then some 0xD0
    else if a = rEvrCntCtl then some 0x28 else if a = rThpCntCtl then some 0x40 else if a = rSemCntCtl then some 0x28
    else if 0x8000000 ≤ o ∧ o < 0x8180000 ∧ o % 0x10000 = 0x160 then some 0x60
    else if 0x9001000 ≤ o ∧ o < 0x9002800 ∧ o % 0x100 = 0x50 then some 0x48 else none
  | _ => none

/-- The counters under a control register zeroed; those counted lazily begin again now. -/
def State.blockClear (s : State) (a : Nat) : State :=
  match ctlSpan a with
  | none => s
  | some n =>
    let s1 := (if a = rEbcCntCtl then s.gateSettle else s).zeroRange (a - n) a
    if a = rMpCntCtl then
      { s1 with pond := { s1.pond with
        emptyAt := s1.pond.emptyAt.map fun _ => s.now, fullAt := s1.pond.fullAt.map fun _ => s.now, emptyFor := 0, fullFor := 0 } }
    else if rLinkCntCtl 0 ≤ a ∧ a ≤ rLinkCntCtl 23 then s1.modLink ((a - rLinkCntCtl 0) / 0x10000) fun l => if l.heldAt = [] then l else { l with holdFrom := s.now }
    else s1

/-- EDGE_CTL_CLEAR (R51). -/
def execEdgeCtlClear (r : Requester) (a : BitVec 48) (s : State) : Res := .next (if mayWrite r then s.blockClear a.toNat else s)

/-! ### Writes -/

/-- The state a meaning answers with. -/
def nextOr (s : State) : Res → State
  | .next t => t
  | _ => s

/-- How a requester may write a field of a table: the Housekeeper stores it, clamped where it is an RWC field, and to all others it is RO
(R7, R8, R35, R290). -/
def Acc.ofTable (a : Acc) (r : Requester) : Acc :=
  if r = .housekeeper then (if a = .rwc then .rwc else .rw) else .ro

/-- The fields of a family as a requester sees them: tables are the Housekeeper's to write (R35, R290). -/
def RegDesc.openTo (d : RegDesc) (r : Requester) : RegDesc :=
  if d.who = .table then { d with flds := d.flds.map fun x => { x with acc := x.acc.ofTable r } } else d

/-- The stored value after a write by access type (R6 to R8). -/
def State.storeReg (s : State) (d : RegDesc) (r : Requester) (a mask new : Nat) : State :=
  s.setReg a ((d.openTo r).write 0 0 mask new (s.reg a))

/-- A write of CORE_CTL (R76): HALT as changed, or STEP while HALT stays 1. -/
def State.coreCtlWrite (s : State) (c : CoreId) (mask new : Nat) : State :=
  let was := s.flag (rCoreCtl c) fCoreCtlHalt
  let is := if bitN mask 0 then bitN new 0 else was
  if was && is then (if bitN mask 1 && bitN new 1 then nextOr s (execCoreStep c s) else s)
  else if is then nextOr s (execCoreHalt c s)
  else if was then nextOr s (execCoreResume c s)
  else s

/-- A write of LINK_CTL (R284, R285, R290). -/
def State.linkCtlWrite (s : State) (d : RegDesc) (r : Requester) (n : LinkId) (mask new : Nat) : State :=
  let a := rLinkCtl n.val
  let en := s.flag a fLinkCtlEnable
  let op := s.flag a fLinkCtlOpen
  let s0 := s.storeReg d r a mask new
  let s1 := if s0.framePeriod n.val = s.framePeriod n.val then s0 else s0.tableCheck n.val
  let en' := s1.flag a fLinkCtlEnable
  let op' := s1.flag a fLinkCtlOpen
  let s2 := if en = en' then s1 else if en' then nextOr s1 (execLinkEnable n s1) else nextOr s1 (execLinkDisable n s1)
  let s3 := if bitN mask 4 && bitN new 4 then nextOr s2 (execLinkRetrain n s2) else s2
  if op = op' then s3 else if op' then nextOr s3 (execLinkOpen n s3) else nextOr s3 (execLinkClose n s3)

/-- A write of SEM (R223, R241): the value changes, and waiters and watches are examined again. -/
def State.semWrite (s : State) (d : RegDesc) (p mask new : Nat) : State :=
  (s.storeReg d .housekeeper (rSem p) mask new).reexamine p

/-- A write of HR_RING_CFG (R350). -/
def State.ringCfgWrite (s : State) (d : RegDesc) (r : Requester) (k : Fin 16) (mask new : Nat) : State :=
  nextOr s (execHrRingEnable r k (d.write 0 0 mask new (s.reg (rHrRingCfg k.val))) s)

/-- A write of MP_CFG (R337, R346, R352): EN from 0 to 1 enables the Millpond; a request may be pending from now on, and FREE may have crossed a threshold. -/
def State.mpCfgWrite (s : State) (d : RegDesc) (r : Requester) (mask new : Nat) : State :=
  let s1 := s.storeReg d r rMpCfg mask new
  (if !s.flag rMpCfg fMpCfgEn && s1.flag rMpCfg fMpCfgEn then s1.pondEnable else s1).emptySettle.pfcCheck

/-- Is the die register one whose write may move the thresholds of R346 or a request of R340: HR_PFC_CFG, HR_CTL, MP_Q_CFG and MP_Q_CT? -/
def pondReg (a : Nat) : Bool := a == rHrPfcCfg || a == rHrCtl || (List.range 16).any fun q => a == rMpQCfg q || a == rMpQCt q

/-! ### Dumps asked for (R443, R447) -/

/-- DUMP_CFG.REQ (R443): a trigger of its own; while the dump is not armed, or one is being taken, it is skipped (log entry 150, DEDUCED). -/
def State.dumpReq (s : State) : State :=
  if s.flag rDumpCfg fDumpCfgArm && s.dump.isNone then s.dumpStart 0 none true else s.emit (evr 0xF007 0x11 0)

/-- DUMP_CFG.ARM = 1 (R447): the held dump, if any, is marked read, its CRC computed again, and VALID falls. -/
def State.dumpArm (s : State) : State :=
  let s1 := s.fput rDumpCfg fDumpCfgArm 1
  if s.flag rDumpStatus fDumpStatusValid then
    let body := (slice (s.rdBytes dumpArea 4096) 0 4092).set 52 1
    (s1.wrHbm dumpArea (body ++ natBytes 4 (crc32c body).toNat)).fput rDumpStatus fDumpStatusValid 0
  else s1

/-- DUMP_REQ (R443). -/
def execDumpReq (r : Requester) (s : State) : Res := .next (if mayWrite r then s.dumpReq else s)

/-- DUMP_ARM (R447). -/
def execDumpArm (r : Requester) (s : State) : Res := .next (if mayWrite r then s.dumpArm else s)

/-- A write of DUMP_CFG (R451). -/
def State.dumpCfgWrite (s : State) (d : RegDesc) (r : Requester) (mask new : Nat) : State :=
  let s1 := s.storeReg d r rDumpCfg mask new
  let s2 := if bitN mask 0 && bitN new 0 then s1.dumpArm else s1
  if bitN mask 1 && bitN new 1 then s2.dumpReq else s2

end Sys2Proof.Machine
end

