-- ==== Sys2Proof/Machine/HallReset.lean ====
section
/-! DEFINITION. Sys2Proof/Machine/HallReset.lean: the hall-level reset (R414), the register write of every block (R6 to R9), and the taking of a dump (R443 to R448). -/

namespace Sys2Proof.Machine

/-! ### The hall-level reset (R414) -/

/-- The core whose lane table is number `k` of router `e` (R41, R174). -/
def laneCore (h e k : Nat) : Option CoreId := (hallCores h).find? fun c => edgeOf c == some (e, k)

/-- Is context `k` loaded with a core outside hall `h`? -/
def State.reachesOut (s : State) (h k : Nat) : Bool := (s.ctx k).loaded && (s.ctxCores k).any fun c => c.hall.val != h

/-- Entries of a register that holds four. -/
def quarters (w : Word) : List Nat := (List.range 4).map fun j => bitsN w.toNat (16 * j + 15) (16 * j)

/-- Does a slot or lane table of the hall hold an entry of a loaded context whose cores lie outside the hall (R414)? A lane entry is one of the
context that has the core (log entry 155, DEDUCED). -/
def State.foreignSlots (s : State) (h : Nat) : Bool :=
  s.regs.any fun e => match place e.1 with
    | .core c o =>
      c.hall.val == h && decide (0x280000 ≤ o) && decide (o < 0x28C000) && (quarters e.2).any fun x => entSrc x != 0 && s.reachesOut h (entCtx x)
    | .hall g o =>
      g.val == h && decide (0x410000 ≤ o) && decide (o < 0x438000) && e.2 != 0 && (match laneCore h ((o - 0x410000) / 0x8000) ((o - 0x410000) % 0x8000 / 0x2000) with
        | some c => (List.range 8).any fun k => s.reachesOut h k && (s.ctxCores k).contains c
        | none => false)
    | _ => false

/-- Links attached to a hall (R13). -/
def hallLinks (h : Nat) : List Nat := [3 * h, 3 * h + 1, 3 * h + 2]

/-- The first item of R414 that stands against a reset of the hall, none when it may be reset. -/
def State.hallBusy (s : State) (h : Nat) : Option Nat :=
  if (hallCores h).any s.run then some 1
  else if (hallCores h).any fun c => s.fget (rStrmStatus c) fStrmStatusDescLive != 0 then some 2
  else if s.foreignSlots h then some 3
  else if (hallLinks h).any fun n => s.flag (rLinkCtl n) fLinkCtlOpen then some 4
  else if (hallLinks h).any fun n => s.flag (rQst n) fQstV then some 5
  else if s.ebc.change.isSome then some 6
  else none

/-- Does a hall-level reset of hall `h` return the register at an address to its reset value: core windows, control block but the stacks', link tables
of the hall's links (R414, R415)? (log entry 154, DEDUCED) -/
def hallScope (h a : Nat) : Bool :=
  match place a with
  | .core c _ => c.hall.val == h
  | .hall g o => g.val == h && !(decide (0x700000 ≤ o) && decide (o < 0x780000))
  | .die o => decide (0x8000000 + 0x30000 * h ≤ o) && decide (o < 0x8000000 + 0x30000 * (h + 1)) && decide (0x1000 ≤ o % 0x10000)
  | _ => false

/-- An accepted hall-level reset. -/
def State.hallClear (s : State) (h : Nat) : State :=
  let ks := (List.range 8).filter fun k => (s.ctxCores k).any fun c => c.hall.val == h
  let s1 := ks.foldl (fun s k => s.ctxEnd k) s
  let kept := s1.regs.filter fun e => hallScope h e.1 && (isArrStatus e.1 || isGridCol e.1)
  let s2 := kept.foldl (fun s e => s.setReg e.1 (evidence e.1 e.2)) (s1.resetRegs fun a => !hallScope h a)
  let s3 := (hallLinks h).foldl State.tableCheck s2
  { s3 with
    cores := s3.cores.filter fun e => e.1 / 144 != h
    beats := s3.beats.filter fun b => !(b.dest / 144 == h && decide (b.dest < 1152))
    mem := s3.mem.filter fun e => match place e.1 with
      | .core c _ => c.hall.val != h
      | _ => true
    ebc := { s3.ebc with tried := s3.ebc.tried.filter fun d => match d with
      | .hall g => g.val != h
      | _ => true } }

/-- One hall of a request. -/
def State.hallRequest (s : State) (h : Nat) : State :=
  match s.hallBusy h with
  | some n => (s.fput rHallRst fHallRstReason n).emit (evr 0x0013 0x10 0 0 0 h n)
  | none => ((s.hallClear h).fput rHallRst fHallRstReason 0).fput rHallRst ⟨16 + h, 16 + h⟩ 1

/-- HALL_RST.REQ (R414): the halls of the mask in ascending order. -/
def State.hallRst (s : State) (mask : Nat) : State := ((List.range 8).filter fun h => bitN mask h).foldl State.hallRequest s

/-- HALL_RST_REQ (R414). -/
def execHallRstReq (r : Requester) (mask : BitVec 8) (s : State) : Res :=
  .next (if mayWrite r && s.hearth.boot == .run then s.hallRst mask.toNat else s)

/-- HALL_RESET (R414). -/
def execHallReset (h : Fin 8) (s : State) : Res :=
  .next (if s.flag rHallRst ⟨16 + h.val, 16 + h.val⟩ then (s.fput rHallRst ⟨16 + h.val, 16 + h.val⟩ 0).emit (evr 0x0012 0x10 0) else s)

/-! ### The write of a register -/

/-- Was bit `i` written as 1? -/
def wroteOne (mask new i : Nat) : Bool := bitN mask i && bitN new i

/-- The entry of a slot table as it is stored (R8, R35, R174): reserved bits are zero, and a flow is zero where its source or output has none. SRC2 = 7
of a lane entry, which is never stored, is stored as 0, which no rule names (log entry 183, DESIGN CHOICE). -/
def slotStored (a e : Nat) : Nat :=
  match place a with
  | .core _ o =>
    let e1 := e / 1024 % 64 * 1024 + e % 64
    if entSrc e = 5 ∨ entSrc e = 6 ∨ (0x288000 ≤ o ∧ o < 0x28A000) then e1 else e1 / 64 * 64
  | .hall _ _ =>
    let src := if bitsN e 13 11 = 7 then 0 else bitsN e 13 11
    src * 2048 + (if src = 5 ∨ src = 6 then bitsN e 10 5 else 0) * 32 + e % 32
  | _ => e

/-- A register of four entries as it is stored. -/
def slotWord (a : Nat) (w : Word) : Word :=
  BitVec.ofNat 64 ((List.range 4).foldl (fun n j => n + slotStored a ((quarters w).getD j 0) * 2 ^ (16 * j)) 0)

/-- Bindings of flow `f` stay compacted, the oldest first, when a write has closed one (R191). One that a write opens keeps its place. -/
def State.bindCompact (s : State) (c : CoreId) (f : Nat) : State :=
  let open_ := ((List.range 4).filter fun q => s.flag (rBind c f q) fBindValid).map fun q => (s.reg (rBind c f q), s.reg (rBindCnt c f q))
  if (List.range open_.length).all fun q => s.flag (rBind c f q) fBindValid then s
  else (List.range 4).foldl (fun s q =>
    let x := open_.getD q (BitVec.ofNat 64 (63 * 2 ^ 57), 0)
    (s.setReg (rBind c f q) x.1).setReg (rBindCnt c f q) x.2) s

/-- A register write in a core window (log entry 159, DEDUCED). -/
def State.coreWrite (s : State) (d : RegDesc) (r : Requester) (c : CoreId) (o mask new : Nat) : State :=
  if o = 0x200008 then s.coreCtlWrite c mask new
  else if 0x210100 ≤ o ∧ o < 0x210500 then
    (if o % 0x10 = 0 then s.entryWrite c ((o - 0x210100) / 0x10) mask new else s.progressWrite c ((o - 0x210100) / 0x10) mask new)
  else if o = 0x300000 then s.cntCtlWrite c mask new
  else if o = 0x211010 then (s.storeReg d r (coreBase c + o) mask new).celPeak c
  else if 0x220000 ≤ o ∧ o < 0x221000 then
    let s1 := s.storeReg d r (coreBase c + o) mask new
    if o % 0x10 = 0 ∧ s.flag (coreBase c + o) fBindValid = true ∧ s1.flag (coreBase c + o) fBindValid = false then s1.bindCompact c ((o - 0x220000) / 0x40)
    else s1
  else if 0x280000 ≤ o ∧ o < 0x28C000 then
    let s1 := s.storeReg d r (coreBase c + o) mask new
    s1.setReg (coreBase c + o) (slotWord (coreBase c + o) (s1.reg (coreBase c + o)))
  else s.storeReg d r (coreBase c + o) mask new

/-- A hall has a running core of context `k`. -/
def State.runsIn (s : State) (h k : Nat) : Bool := (hallCores h).any fun c => s.run c && (s.coreCtx c).val == k

/-- A register write in a hall control block. -/
def State.hallWrite (s : State) (d : RegDesc) (r : Requester) (h o mask new : Nat) : State :=
  let a := hallBase h + o
  if o = 0x780040 then s.invalidate (BitVec.ofNat 64 new)
  else if (ctlSpan a).isSome then (if wroteOne mask new 0 then s.blockClear a else s)
  else if 0x410000 ≤ o ∧ o < 0x438000 ∧ (edgeAttach h ((o - 0x410000) / 0x8000)).isSome ∧ h % 4 = 0 ∧ o < 0x418000 then s
  else if 0x410000 ≤ o ∧ o < 0x438000 then
    let s1 := s.storeReg d r a mask new
    s1.setReg a (slotWord a (s1.reg a))
  else if 0x700000 ≤ o ∧ o < 0x720000 ∧ o % 0x10000 = 0 ∧ h % 4 ≠ 0 then
    (s.storeReg d r a mask new).banksCheck ((if h < 4 then 2 * h - 2 else 2 * h - 4) + (o - 0x700000) / 0x10000)
  else s.storeReg d r a mask new

/-- A register write in a front-die block (log entry 134, DESIGN CHOICE). -/
def State.dieWrite (s : State) (d : RegDesc) (r : Requester) (o mask new : Nat) : State :=
  let a := dieSpace + o
  let w := BitVec.ofNat 64 new
  if (ctlSpan a).isSome then (if wroteOne mask new 0 then s.blockClear a else s)
  else if 0x1001000 ≤ o ∧ o < 0x1001200 ∧ o % 0x20 = 0 then s.ringCfgWrite d r ⟨(o - 0x1001000) / 0x20 % 16, Nat.mod_lt _ (by decide)⟩ mask new
  else if 0x1001000 ≤ o ∧ o < 0x1001200 ∧ o % 0x20 = 8 then
    (if bitsN mask 31 0 = 0 then s
     else nextOr s (execHrRingProdWrite r ⟨(o - 0x1001000) / 0x20 % 16, Nat.mod_lt _ (by decide)⟩ (BitVec.ofNat 32 new) s))
  else if a = rMpCfg then s.mpCfgWrite d r mask new
  else if pondReg a then (s.storeReg d r a mask new).emptySettle.pfcCheck
  else if a = rEbcCtl then
    let s1 := s.storeReg d r a mask new
    if wroteOne mask new 8 then (let f := s1.fresh; nextOr f.2 (execRefRetry r (f.1.getLsbD 0) f.2)) else s1
  else if a = rWdtKick then (if wroteOne mask new 0 then nextOr s (execWdtKick r s) else s)
  else if a = rHallRst then (if s.hearth.boot = .run then s.hallRst (bitsN (mask &&& new) 7 0) else s)
  else if a = rEvrCalSet then nextOr s (execCalSet r w s)
  else if a = rEvrFlush then (if wroteOne mask new 0 then nextOr s (execEvrFlush r s) else s)
  else if a = rDumpCfg then s.dumpCfgWrite d r mask new
  else if a = rDiagSnap then (if bitN mask 0 then nextOr s (execDiagSnapFreeze r (bitN new 0) s) else s)
  else if a = rSecCfg then
    let s1 := s.storeReg d r a mask new
    if s.flag a fSecCfgProgSigReq then s1.fput a fSecCfgProgSigReq 1 else s1
  else if rSecProgKeyhash 0 ≤ a ∧ a ≤ rSecProgKeyhash 7 ∧ s.flag rSecCfg fSecCfgProgSigReq = true then s
  else if 0x8000000 ≤ o ∧ o < 0x8180000 ∧ o % 0x10000 = 0 then s.linkCtlWrite d r ⟨(o - 0x8000000) / 0x10000 % 24, Nat.mod_lt _ (by decide)⟩ mask new
  else if 0x8000000 ≤ o ∧ o < 0x8180000 ∧ 0x1000 ≤ o % 0x10000 ∧ o % 0x10000 < 0x2000 ∧ r = .housekeeper then
    (s.storeReg d r a mask new).tablesLoaded ((o - 0x8000000) / 0x10000)
  else if 0x8000000 ≤ o ∧ o < 0x8180000 ∧ o % 0x10000 = 0x18 then
    ((s.storeReg d r a mask new).peerCheck ((o - 0x8000000) / 0x10000) false).openTry ((o - 0x8000000) / 0x10000)
  else if 0xB000000 ≤ o ∧ o < 0xB040000 ∧ o % 0x100 = 8 then
    let g := (o - 0xB000000) / 0x100
    let s1 := s.storeReg d r a mask new
    if s1.gEpoch g = s.gEpoch g then s1 else s1.quernReset g
  else if 0xA000000 ≤ o ∧ o < 0xA020000 then s.semWrite d ((o - 0xA000000) / 8) mask new
  else if 0xB080000 ≤ o ∧ o < 0xB0A0000 ∧ o % 0x80 = 0x18 then
    (if wroteOne mask new 0 then nextOr s (execCkptReq r ⟨(o - 0xB080000) / 0x80 % 1024, Nat.mod_lt _ (by decide)⟩ s) else s)
  else if 0xB080000 ≤ o ∧ o < 0xB0A0000 ∧ o % 0x80 = 0x58 then (s.storeReg d r a mask new).trickleBusy ((o - 0xB080000) / 0x80 % 1024)
  else s.storeReg d r a mask new

/-- May the requester write the family at all (R9, R378)? -/
def RegDesc.mayPut (d : RegDesc) (r : Requester) (a : Nat) : Bool :=
  match r with
  | .housekeeper => true
  | .host => d.who != .hk
  | .rdma => (List.range 16).any fun k => a / 8 * 8 == rHrRingProd k

/-- An aligned write of 4 or 8 bytes through the register window: none where it is refused (R9). -/
def State.busWrite (s : State) (r : Requester) (a n v : Nat) : Option State :=
  let b := a / 8 * 8
  let d := regHere b
  let sh := 8 * (a % 8)
  let mask := (2 ^ (8 * n) - 1) * 2 ^ sh
  let new := v % 2 ^ (8 * n) * 2 ^ sh
  let allowed := match d with
    | some d => d.mayPut r a && !(d.w64 && n != 8)
    | none => false
  if !widthAligned a n then none
  else match place b with
    | .core c o =>
      if !s.coreOpen c o d then none
      else if o < 0x200000 ∨ inTileFile o = true then (if mayWrite r then some (s.wrBytes a (natBytes n v)) else none)
      else match d, allowed with
        | some d, true => some (s.coreWrite d r c o mask new)
        | _, _ => none
    | .hall h o => match d, allowed && !(0x500000 ≤ o && o < 0x500040 && s.runsIn h.val ((o - 0x500000) / 8)) with
      | some d, true => some (s.hallWrite d r h.val o mask new)
      | _, _ => none
    | .die o => match d, allowed with
      | some d, true => some (s.dieWrite d r o mask new)
      | _, _ => none
    | _ => none

/-- REGISTER_WRITE (R6 to R9): a refused write changes nothing. -/
def execRegisterWrite (r : Requester) (a : BitVec 48) (wide : Bool) (v : Word) (s : State) : Res :=
  .next ((s.busWrite r a.toNat (if wide then 8 else 4) v.toNat).getD s)

/-! ### The dump (R444 to R446) -/

/-- A section of a dump. -/
structure DumpSec where
  kind : Nat
  idx : Nat
  src : Nat
  off : Nat
  captured : Bool
  bytes : Bytes
  deriving DecidableEq, Repr

/-- Registers captured from a range, 8 bytes at a time; refused ones store zero. -/
def State.capture (s : State) (a n : Nat) : Bytes := (List.range (n / 8)).flatMap fun i => (s.busRead (a + 8 * i) 8).getD (zeros 8)

/-- The window ranges of a core register image, as offset in the image, offset in the window and length (R445). -/
def imageRanges : List (Nat × Nat × Nat) :=
  [(0, 0x200000, 0x6000), (0x6000, 0x210000, 0x2000), (0x8000, 0x220000, 0x2000), (0xA000, 0x280000, 0xC000), (0x16000, 0x2F0000, 0x1000), (0x17000, 0x300000, 0x1000)]

/-- The register image of a core: the ranges follow each other, and the rest of its 128 KiB is zero. -/
def State.coreImage (s : State) (c : CoreId) : Bytes :=
  (imageRanges.flatMap fun r => s.capture (coreBase c + r.2.1) r.2.2) ++ zeros 0x8000

/-- Is there a core to capture at the position (R184, R187)? -/
def State.coreThere (s : State) (c : CoreId) : Bool := s.built c.hall.val && !s.isHole c

/-- A section of a core, not captured where there is none. -/
def State.coreSec (s : State) (kind src off : Nat) (bytes : Bytes) (c : CoreId) : DumpSec :=
  ⟨kind, c.idx, src, off, s.coreThere c, if s.coreThere c then bytes else []⟩

/-- The sections of a dump in the order of R445 (log entry 151, DEDUCED). -/
def State.dumpSecs (s : State) (d : DumpS) : List DumpSec :=
  [⟨1, 0, rEvrStatus, 0x20000, true, s.log.buffer.flatMap LogRec.bytes⟩]
    ++ ((List.range 12).map fun b => ⟨2, b, dieSpace + b * 0x1000000, 0x1000000 + b * 0x400000, true, s.capture (dieSpace + b * 0x1000000) 0x400000⟩)
    ++ ((List.range 8).map fun h => ⟨3, h, hallBase h + 0x400000, 0x4000000 + h * 0x400000, true, s.capture (hallBase h + 0x400000) 0x400000⟩)
    ++ (d.cores.map fun c => s.coreSec 4 (coreBase c + 0x200000) (0x8000000 + c.idx * 0x20000) (s.coreImage c) c)
    ++ (d.cores.map fun c => s.coreSec 5 (coreBase c + 0x240000) (0x12000000 + c.idx * 0x40000) (s.rdBytes (coreBase c + 0x240000) 0x40000) c)
    ++ (d.cores.map fun c => s.coreSec 6 (coreBase c) (0x24000000 + c.idx * 0x200000) (s.rdStore c 0 0x200000) c)

/-- A section entry as its 32 bytes (R446). -/
def DumpSec.entry (x : DumpSec) : Bytes :=
  natBytes 2 x.kind ++ natBytes 1 (bton x.captured) ++ zeros 1 ++ natBytes 2 x.idx ++ zeros 2 ++ natBytes 8 x.src ++ natBytes 8 x.off
    ++ natBytes 4 x.bytes.length ++ natBytes 4 (crc32c x.bytes).toNat

/-- Steps 4 to 6 of a dump (R444), once the captured cores have stopped; then what waited for its end. -/
def State.dumpDone (s : State) (d : DumpS) (us : Nat) : State :=
  let secs := s.dumpSecs d
  let s1 := secs.foldl (fun s x => s.wrHbm (dumpArea + x.off) x.bytes) s
  let s2 := s1.wrHbm (dumpArea + 0x1000) (secs.flatMap DumpSec.entry)
  let s3 := (d.cores.filter fun c => !d.frozen.contains c).foldl (fun s c => (s.settle c).fput (rCntCtl c) fCntCtlFreeze 0) s2
  let s4 := d.halted.foldl (fun s c => nextOr s (execCoreResume c s)) s3
  let s5 := s4.wrHbm dumpArea (s4.dumpHeader d 2 secs.length 0)
  let s6 := ((s5.fput rDumpStatus fDumpStatusBusy 0).fput rDumpStatus fDumpStatusValid 1).count rDumpCnt 1
  ({ s6 with dump := none }.emit (evr 0xF006 0x11 0 (s6.fget rDumpStatus fDumpStatusDumpSeq) d.trigger us)).rollsAfter d.rolls

/-- DUMP_DONE (R444). -/
def execDumpDone (us : BitVec 32) (s : State) : Res :=
  match s.dump with
  | none => .next s
  | some d => .next (if d.cores.all fun c => !s.run c then s.dumpDone d us.toNat else s)

end Sys2Proof.Machine
end

