-- ==== Sys2Proof/Machine/Grid.lean ====
section
/-! DEFINITION. Sys2Proof/Machine/Grid.lean: the grid build of a hall (R184 to R189), with the excluded rows, the records, and the failures. -/

namespace Sys2Proof.Machine

/-! ### The row mapping of a column (R185) -/

/-- The physical row of logical row `y` when physical row `e0` is bypassed. -/
def physRow (e0 y : Nat) : Nat := if y < e0 then y else y + 1

/-- The physical row that a set of excluded rows bypasses: its lowest, 15 for none. -/
def bypassOf (e : Nat) : Nat := ((List.range 13).find? fun p => bitN e p).getD 15

/-- The logical rows of a column that are holes. -/
def colHoles (e : Nat) : List Nat := (List.range 12).filter fun y => bitN e (physRow (bypassOf e) y)

/-- The row bypassed in column `x` of hall `h` at the last build, 15 before any: the cores to which the kept evidence belongs. -/
def State.oldBypass (s : State) (h x : Nat) : Nat := sget (fun _ => 15) s.hearth.bypass (12 * h + x)

/-- The physical rows of the column whose core has RETIRE_PEND (R184). -/
def State.pendRows (s : State) (h x : Nat) : Nat :=
  ((List.range 12).filter fun y => s.flag (rArrStatus h (12 * y + x)) fArrStatusRetirePend).foldl
    (fun m y => m ||| 2 ^ physRow (s.oldBypass h x) y) 0

/-- The set E of the column (R184). -/
def State.excludedSet (s : State) (h x : Nat) : Nat := s.fuseBad h x ||| s.fget (rGridCol h x) fGridColRetire ||| s.pendRows h x

/-- The records of a column: GRID_REMAP unless the fuses give its e0, and a GRID_HOLE for each hole (R185). -/
def State.colRecords (s : State) (h x e : Nat) : State :=
  let s1 := if e = 0 ∨ bypassOf e = bypassOf (s.fuseBad h x) then s else s.emit (evr 0x1011 h 0)
  (colHoles e).foldl (fun s y => s.emit (evr 0x1012 h 0 h y x (physRow (bypassOf e) y))) s1

/-- A column is mapped: its register, the evidence of positions that get another core (R101), and its records. -/
def State.mapCol (s : State) (h x : Nat) : State :=
  let e := s.excludedSet h x
  let old := s.oldBypass h x
  let retire := s.fget (rGridCol h x) fGridColRetire ||| s.pendRows h x
  let hs := colHoles e
  let w := fldWord fGridColHoleRow (hs.headD 15) ||| fldWord fGridColHoleCnt hs.length ||| fldWord fGridColBypass (bypassOf e)
    ||| fldWord fGridColExcluded e ||| fldWord fGridColRetire retire
  let moved := (List.range 12).filter fun y => physRow (bypassOf e) y ≠ physRow old y
  let s1 := moved.foldl (fun s y => (s.fput (rArrStatus h (12 * y + x)) fArrStatusStrikes 0).fput (rArrStatus h (12 * y + x)) fArrStatusRetirePend 0)
    (s.colRecords h x e)
  { s1.setReg (rGridCol h x) w with hearth := { s1.hearth with bypass := sset (fun _ => 15) s1.hearth.bypass (12 * h + x) (bypassOf e) } }

/-! ### The build of a hall -/

/-- The holes of a hall as its columns say. -/
def State.hallHoles (s : State) (h : Nat) : Nat := ((List.range 12).map fun x => s.fget (rGridCol h x) fGridColHoleCnt).foldl (· + ·) 0

/-- P of the contexts loaded, none while there is none (R36). -/
def State.loadedPeriod (s : State) : Option Nat :=
  (((List.range 8).filter fun k => (s.ctx k).loaded).flatMap s.ctxCores).head?.map fun c => s.fget (rPortSlotCfg c) fPortSlotCfgPeriodLog2

/-- A build that ends well: the hall is there, its links reach their edge core or not (R187), its cores get the period in use (R35), and its PLL runs
as those of the other halls do (R396) (log entry 110, DEDUCED; log entry 111, DEDUCED). -/
def State.hallUp (s : State) (h : Nat) : State :=
  let s1 := (List.range 12).foldl (fun s x => s.mapCol h x) s
  let s2 := s1.setReg (rGridStatus h) (fldWord fGridStatusHoles (s1.hallHoles h) ||| fldWord fGridStatusBuilt 1)
  let s3 := (hallLinks h).foldl (fun s n => s.fput (rLinkStatus n) fLinkStatusBulkUnreach (bton (s.isHole (coreOfIdx (linkEdge n))))) s2
  let p := match (List.range 8).find? fun g => s.built g with
    | some g => s.fget (rPortSlotCfg (coreOfIdx (144 * g))) fPortSlotCfgPeriodLog2
    | none => 6
  let s4 := (hallCores h).foldl (fun s c => s.fput (rPortSlotCfg c) fPortSlotCfgPeriodLog2 p) s3
  let on := s.ebc.pllGear != 0
  ((s4.fput (rHallClk h) fHallClkPllOn (bton on)).fput (rHallClk h) fHallClkPllLock (bton (on && s.ebc.change.isNone))).fput (rHallClk h)
    fHallClkGear (if s.ebc.running then s.gear else 0)

/-- A build that fails (R189): no GRID_COL field changes. Cause 2 is a PLL that failed to lock twice (R397). -/
def State.hallFail (s : State) (h : Fin 8) (cause pos : Nat) : State :=
  let s1 := s.fput (rGridStatus h.val) fGridStatusFail cause
  let s2 := if cause = 2 then (((s1.pllRecord (.hall h)).pllRecord (.hall h)).fput (rHallClk h.val) fHallClkLockFails
    (min 255 (s1.fget (rHallClk h.val) fHallClkLockFails + 2))) else s1
  s2.emit (evr 0x1013 h.val 0 0 0 h.val (cause + if cause = 3 then pos * 256 else 0))

/-- What the build of a hall finds: a cause of R189 with its position, or none. -/
def BuildEnv.failOf (e : BuildEnv) (h : Fin 8) : Option (Nat × Nat) :=
  (e.fail.find? fun f => f.1 == h && decide (1 ≤ f.2.1.toNat) && decide (f.2.1.toNat ≤ 3)).map fun f => (f.2.1.toNat, f.2.2.toNat)

/-- One hall is built, unless it is built already. -/
def State.buildHall (s : State) (e : BuildEnv) (h : Fin 8) : State :=
  if s.built h.val then s
  else match BuildEnv.failOf e h with
    | some (c, p) => s.hallFail h c p
    | none => s.hallUp h.val

/-- BASE_W as a build measures it at G1 to G4 (R388) (log entry 112, DEDUCED). -/
def State.baseMeasured (s : State) (e : BuildEnv) : State :=
  if e.baseW.length = 4 then (List.range 4).foldl (fun s i => s.fput (rEbcBase i) fEbcBaseBaseW (e.baseW.getD i 0).toNat) s else s

/-- The halls of a mask are built in ascending order; whether one of them was built decides on the measurement (log entry 156, DEDUCED). -/
def State.buildHalls (s : State) (e : BuildEnv) (mask : Nat) : State :=
  let hs := (List.finRange 8).filter fun h => bitN mask h.val && !s.built h.val
  let s1 := hs.foldl (fun s h => s.buildHall e h) s
  if hs.any fun h => s1.built h.val then s1.baseMeasured e else s1

/-- Halls of a mask that are not built. -/
def State.unbuilt (s : State) (mask : Nat) : List Nat := (List.range 8).filter fun h => bitN mask h && !s.built h

end Sys2Proof.Machine
end

