-- ==== Sys2Proof/Machine/Load.lean ====
section
/-! DEFINITION. Sys2Proof/Machine/Load.lean: the load of a program image (R376): its signature block, the conditions of R36, R174, R187, R227, R245, R259, R273, R289 and R362, and the installation. -/

namespace Sys2Proof.Machine

/-- Why a load is refused: reason and detail of R376. -/
abbrev LoadErr := Nat × Nat

/-! ### The image's bytes (R426) -/

/-- The checks on an image's bytes at `pa`: the signature block, its format and, where asked for, the signature. A poisoned line makes its first byte
a bad one (log entry 113, DEDUCED). -/
def State.imageBytes (s : State) (pa len : Nat) : Except LoadErr Bytes :=
  if hbmEnd < pa + len ∨ len < 512 then .error (2, 0)
  else match s.poison.filter fun l => decide (pa < l + 128) && decide (l < pa + len) with
    | l :: _ => .error (2, l - pa)
    | [] =>
      let b := s.rdBytes pa len
      let blk := slice b (len - 512) 512
      let magic := ascii "KTZ-TPI1"
      match (List.range 8).find? fun i => blk.getD i 0 != magic.getD i 0 with
      | some i => .error (2, len - 512 + i)
      | none =>
        let fmt := leAt blk 8 4
        let hash := BitVec.ofNat 512 ((List.range 8).foldl (fun n i => n + (s.reg (rSecProgKeyhash i)).toNat * 2 ^ (64 * i)) 0)
        let key := slice blk 16 133
        if fmt = 0 ∨ s.hearth.fuses.tpiFmtMax.toNat < fmt then .error (1, Config.rejectDetail 1)
        else if s.flag rSecCfg fSecCfgProgSigReq then
          (if BitVec.ofNat 512 (leNat (digestBytes (Config.sha512 key))) ≠ hash then .error (1, Config.rejectDetail 2)
           else if !Config.ecdsaVerify key (Config.sha512 (b.take (len - 512) ++ blk.take 152)) (slice blk 152 132) then .error (1, Config.rejectDetail 3)
           else .ok b)
        else .ok b

/-! ### The registers and tables an image writes -/

/-- Does the address lie in a table of 16-bit slot entries: port slot, lane, KFL slot or lane-map table (R35, R174, R291)? -/
def slotTable (a : Nat) : Bool :=
  match place a with
  | .core _ o => decide (0x280000 ≤ o) && decide (o < 0x28C000)
  | .hall _ o => decide (0x410000 ≤ o) && decide (o < 0x438000)
  | .die o => decide (0x8000000 ≤ o) && decide (o < 0x8180000) && decide (0x1000 ≤ o % 0x10000) && decide (o % 0x10000 < 0x8000)
  | _ => false

/-- Does the image of a loaded context other than `k` name quarter `j` of a register of slot entries? -/
def State.slotNamed (s : State) (k a j : Nat) : Bool :=
  (List.range 8).any fun c => c != k && (s.ctx c).loaded && match (s.ctx c).img with
    | some i => i.regs.any fun e => e.1.toNat == a && (quarters e.2).getD j 0 != 0
    | none => false

/-- A register of four slot entries as the load leaves it: an entry of the image, else one that stands for another loaded context. Port slot entries name
their context; of the others it is the image that named the entry (log entry 115, DEDUCED). -/
def State.mergeSlots (s : State) (k a : Nat) (w : Word) : Word :=
  let old := quarters (s.reg a)
  let port := match place a with
    | .core _ _ => true
    | _ => false
  BitVec.ofNat 64 ((List.range 4).foldl (fun n j =>
    let new := (quarters w).getD j 0
    let was := old.getD j 0
    let keep := if port then entSrc was != 0 && entCtx was != k && (s.ctx (entCtx was)).loaded else s.slotNamed k a j
    n + (if new ≠ 0 then slotStored a new else if keep then was else 0) * 2 ^ (16 * j)) 0)

/-- Does the address lie in the lane table of a core of capacity 1, which reads zero (R174)? -/
def laneless (a : Nat) : Bool :=
  match place a with
  | .hall h o => h.val % 4 == 0 && decide (0x410000 ≤ o) && decide (o < 0x418000)
  | _ => false

/-- Is a core held by another context than `k`, whose state stands in its registers? -/
def State.heldByOther (s : State) (c : CoreId) (k : Nat) : Bool := (s.core c).present && (s.coreCtx c).val != k

/-- Is the register context state of a core that another context holds? -/
def State.foreignReg (s : State) (k a : Nat) : Bool :=
  match place a with
  | .core c _ => ctxReg c a && s.heldByOther c k
  | _ => false

/-- One register or table value of the image. -/
def State.imageReg (s : State) (k : Nat) (e : BitVec 48 × Word) : State :=
  let a := e.1.toNat
  if s.foreignReg k a then s
  else if !slotTable a then (s.busWrite .housekeeper a 8 e.2.toNat).getD s
  else match if a % 8 = 0 ∧ laneless a = false then regHere a else none with
    | some d => s.storeReg d .housekeeper a (2 ^ 64 - 1) (s.mergeSlots k a e.2).toNat
    | none => s

/-- The slice that the stage table gives the `n`-th core of the image, in units of 4 KiB: its base, and the first unit beyond it (R257). -/
def imageSlice (i : Image) (n : Nat) : Nat × Nat :=
  match i.cores[n]? with
  | none => (0, 0)
  | some x =>
    let e := i.table.entries.getD (if i.table.even then 0 else x.stage) (0, 0)
    let size := min e.2.toNat 524288
    let base := e.1.toNat * 512 + ((i.cores.take n).filter fun y => y.stage == x.stage).length * size
    (base, base + size)

/-- The stage table in the registers of every hall (R257). -/
def State.tableIn (s : State) (k : Nat) (i : Image) : State :=
  let cfg := Fd.put fCelCtxCfgStages (Fd.put fCelCtxCfgEven (Fd.put fCelCtxCfgLeadKib 0 (min i.table.leadKib.toNat 4096)) (bton i.table.even))
    (min (max i.table.entries.length 1) 16)
  (List.range 8).foldl (fun s h => (List.range 16).foldl (fun s j =>
    let e := i.table.entries.getD j (0, 0)
    s.setReg (rCelStage h k j) (Fd.put fCelStageVpage (Fd.put fCelStageSlice 0 (min e.2.toNat 524288)) e.1.toNat)) (s.setReg (rCelCtxCfg h k) cfg)) s

/-- One run of bytes of the image: HBM by PA, or a core store. -/
def State.imageRun (s : State) (e : BitVec 48 × Bytes) : State :=
  match place e.1.toNat with
  | .hbm pa => s.wrHbm pa (e.2.take (hbmEnd - pa))
  | .core c o => if o < 0x200000 then s.wrStore c o (e.2.take (0x200000 - o)) else s
  | _ => s

/-- The values of P that an image's registers give. -/
def imagePeriods (i : Image) : List Nat :=
  i.regs.filterMap fun e => match place e.1.toNat with
    | .core _ 0x2F0000 => some (min (max (bitsN e.2.toNat 3 0) 6) 12)
    | _ => none

/-- P in force on the device: that of a core of a built hall. -/
def State.devicePeriod (s : State) : Nat :=
  match (List.range 8).find? s.built with
  | some h => s.fget (rPortSlotCfg (coreOfIdx (144 * h))) fPortSlotCfgPeriodLog2
  | none => 6

/-- P that the load writes to every core (R36). -/
def State.imagePeriod (s : State) (i : Image) : Nat := (s.loadedPeriod).getD ((imagePeriods i).headD s.devicePeriod)

/-- Links whose tables the image writes. -/
def imageLinks (i : Image) : List Nat :=
  (List.range 24).filter fun n => i.regs.any fun e => match place e.1.toNat with
    | .die o => decide (0x8000000 + 0x10000 * n + 0x1000 ≤ o) && decide (o < 0x8000000 + 0x10000 * (n + 1))
    | _ => false

/-- The groups of this device that belong to context `k`. -/
def State.groupsOf (s : State) (k : Nat) : List Nat := (List.range 1024).filter fun g => s.gValid g && (s.gCtx g).val == k

/-- SYNC_CTX_CFG of the context, where the image gives it: the same value in all eight halls (R240). -/
def State.syncCfgIn (s : State) (k : Nat) (i : Image) : State :=
  match i.regs.reverse.findSome? fun e => match place e.1.toNat with
    | .hall h o => if o = 0x580000 + 8 * k then some h.val else none
    | _ => none with
  | some h => (List.range 8).foldl (fun t g => t.setReg (rSyncCtxCfg g k) (s.reg (rSyncCtxCfg h k))) s
  | none => s

/-- The state with the image's registers, tables and bytes in place: the conditions are checked on it, and a load that passes keeps it. -/
def State.imageIn (s : State) (k : CtxId) (i : Image) : State :=
  let p := s.imagePeriod i
  let s1 := allCores.foldl (fun s c => s.fput (rPortSlotCfg c) fPortSlotCfgPeriodLog2 p) s
  let s2 := i.regs.foldl (fun s e => if imagePeriods { i with regs := [e] } = [] then s.imageReg k.val e else s) s1
  let s3 := (i.store.foldl State.imageRun (s2.syncCfgIn k.val i)).tableIn k.val i
  let s4 := (List.range 8).foldl (fun s h => s.fput (rTrCtx h k.val) fTrCtxEn 1) s3
  (s4.groupsOf k.val).foldl (fun s g => s.setReg (rGtPlan g) (Fd.put fGtPlanPlan 0 (s.fget (rRsPlan g (s.gStep g % 2)) fRsPlanVa))) s4

/-! ### Reason 4: the port slot tables (R36) -/

/-- A slot entry of an image: core, output, slot, entry. -/
structure SlotE where
  core : CoreId
  out : Nat
  slot : Nat
  ent : Nat
  deriving DecidableEq, Repr

/-- The entries that an image's port slot tables hold. -/
def imageSlots (i : Image) : List SlotE :=
  i.regs.flatMap fun e => match place e.1.toNat with
    | .core c o =>
      if 0x280000 ≤ o ∧ o < 0x28C000 then
        ((List.range 4).map fun j => (⟨c, (o - 0x280000) / 0x2000, (o - 0x280000) % 0x2000 / 2 + j, (quarters e.2).getD j 0⟩ : SlotE)).filter
          fun x => entSrc x.ent != 0
      else []
    | _ => []

/-- A lane-table entry of an image: its core, slot and entry. -/
def imageLanes (i : Image) : List SlotE :=
  i.regs.flatMap fun e => match place e.1.toNat with
    | .hall h o =>
      if 0x410000 ≤ o ∧ o < 0x438000 then
        match laneCore h.val ((o - 0x410000) / 0x8000) ((o - 0x410000) % 0x8000 / 0x2000) with
        | some c => ((List.range 4).map fun j => (⟨c, 6, (o - 0x410000) % 0x2000 / 2 + j, (quarters e.2).getD j 0⟩ : SlotE)).filter fun x => x.ent != 0
        | none => []
      else []
    | _ => []

/-- The first of a list that satisfies a test, in ascending core index. -/
def firstCore (l : List CoreId) : Option CoreId :=
  l.foldl (fun (m : Option CoreId) c => match m with
    | some d => if c.idx < d.idx then some c else some d
    | none => some c) none

/-- Has input `code` of a core a neighbour (R36, R173, R187)? -/
def State.hasNeighbour (s : State) (c : CoreId) (code : Nat) : Bool :=
  if code = 7 then (edgeOf c).isSome
  else if 1 ≤ code ∧ code ≤ 4 then match meshNext c (code - 1) with
    | some (d, _) => !s.isHole d
    | none => cap3 c
  else true

/-- Does an output of the core, or its lane-2 entry, name input `code` in slot `t`? -/
def State.names (s : State) (c : CoreId) (code t : Nat) : Bool :=
  (s.outsAt c t fun _ e => entSrc e == code) != [] || bitsN (s.laneEnt c t) 13 11 == code

/-- Condition 1 of R36: an entry on a slot that a running context owns. -/
def State.slotOverlap (s : State) (k : CtxId) (i : Image) : Option CoreId :=
  firstCore (((imageSlots i).filter fun x =>
      let was := s.entry16 (rPortSlot x.core x.out) x.slot
      entSrc was != 0 && entCtx was != k.val && s.ctxRunning (entCtx was)).map SlotE.core)

/-- Condition 2: an input without a neighbour is named. `t` is the state with the image in place (log entry 118, DEDUCED). -/
def State.badInput (t : State) (i : Image) : Option CoreId :=
  firstCore ((((imageSlots i).filter fun x => !t.hasNeighbour x.core (entSrc x.ent)) ++
    (imageLanes i).filter fun x => !t.hasNeighbour x.core (bitsN x.ent 13 11)).map SlotE.core)

/-- Condition 3: a beat enters an input of the next core in a slot in which no output there names it. A hole has no mesh links, so an output that faces it
is like one at the grid's edge (R187). -/
def State.unnamed (t : State) (i : Image) : Option CoreId :=
  firstCore ((imageSlots i).filterMap fun x => match meshNext x.core x.out with
    | some (d, code) => if t.isHole d || t.names d code (x.slot + 1) then none else some d
    | none => none)

/-- The state in another slot. -/
def State.inSlot (s : State) (t : Nat) : State := { s with slot := t }

/-- Cores of an edge router. -/
def routerCores (h e : Nat) : List CoreId := (hallCores h).filter fun c => (edgeOf c).any fun r => r.1 == e

/-- Condition 4: a router that some slot gives more beats than its capacity. -/
def State.overCap (t : State) : Option CoreId :=
  firstCore ((List.range 40).filterMap fun q =>
    match edgeAttach (q / 5) (q % 5) with
    | none => none
    | some (_, _, cap) =>
      let cs := routerCores (q / 5) (q % 5)
      let crowded := (List.range (2 ^ t.devicePeriod)).any fun u =>
        let ns := cs.map fun c => (t.inSlot u).edgeSlots c
        decide (cap < (ns.map Prod.fst).sum) || decide (cap < (ns.map Prod.snd).sum)
      if crowded then cs.head? else none)

/-- Condition 5: a flow with injection slots on a core and 16 consecutive entries without one. -/
def State.sparseFlow (t : State) (i : Image) : Option CoreId :=
  let inj := (((imageSlots i).filter fun x => entSrc x.ent == 5).map fun x => (x.core, entFlow x.ent))
    ++ ((imageLanes i).filter fun x => bitsN x.ent 13 11 == 5).map fun x => (x.core, bitsN x.ent 10 5)
  firstCore ((inj.eraseDups.filter fun f => (List.range (t.slotPeriod f.1)).any fun u =>
    (List.range 16).all fun v => !t.injects f.1 f.2 ((u + v) % t.slotPeriod f.1)).map Prod.fst)

/-- Condition 6: tables with different P, or another P than the contexts already loaded. -/
def State.badPeriod (s : State) (i : Image) : Option CoreId :=
  firstCore (i.regs.filterMap fun e => match place e.1.toNat with
    | .core c 0x2F0000 => if imagePeriods { i with regs := [e] } = [s.imagePeriod i] then none else some c
    | _ => none)

/-- Reason 4: the first condition of R36 that fails, in its order, and a position. -/
def State.slotCheck (s t : State) (k : CtxId) (i : Image) : Option LoadErr :=
  let conds := [s.slotOverlap k i, t.badInput i, t.unnamed i, t.overCap, t.sparseFlow i, s.badPeriod i]
  ((List.range 6).filterMap fun j => (conds.getD j none).map fun c => (4, j + 1 + c.pos * 256)).head?

/-! ### Reasons 5 to 11 -/

/-- Reason 5 (R174): two beats in one outbound lane, or an inbound lane whose beat no output names. -/
def State.laneCheck (t : State) (i : Image) : Option LoadErr :=
  let hot (q u : Nat) : Bool :=
    let cs := routerCores (q / 5) (q % 5)
    let two := cs.any fun c => cap3 c && decide (2 ≤ ((t.outsAt c u fun o e => entSrc e != 0 && decide (o < 4) && (meshNext c o).isNone)).length)
    let lost := match edgeAttach (q / 5) (q % 5) with
      | some (2, n, _) =>
        let c := coreOfIdx (linkEdge n)
        let ln := t.laneEnt c (u + 1)
        (List.range 3).any fun l =>
          let inp := laneInput n l
          bitN (t.entry16 (rLinkLaneMap n) (3 * u + l)) 7 && (if inp = 7 ∨ inp = 15
            then (t.outsAt c (u + 1) fun o e => entSrc e == 7 && (bitN ln o && decide (o < 5)) == (inp == 15)) == []
            else !t.names c inp (u + 1))
      | _ => false
    two || lost
  ((List.range 40).filterMap fun q =>
    if imageLanes i = [] ∧ imageLinks i = [] ∧ imageSlots i = [] then none
    else match (List.range (2 ^ t.devicePeriod)).find? (hot q) with
      | some u => some (5, (Config.laneDetail (q / 5) (q % 5) u))
      | none => none).head?

/-- Reason 6 (R187): a core, code or slot entries at a hole. -/
def State.holeCheck (t : State) (i : Image) : Option LoadErr :=
  let code := i.store.filterMap fun e => match place e.1.toNat with
    | .core c _ => some c
    | _ => none
  (firstCore ((i.cores.map ImgCore.pos ++ (imageSlots i).map SlotE.core ++ (imageLanes i).map SlotE.core ++ code).filter t.isHole)).map
    fun c => (6, c.pos)

/-- Reason 7 (R19, R23, R259): Relief with more than 16 stages, Even with more or fewer entries than one, Relief with a core in a stage that the table
does not name. -/
def stageCheck (i : Image) : Option LoadErr :=
  let n := i.table.entries.length
  let bad := if i.table.even then n != 1 else decide (16 < i.stages) || i.cores.any fun x => decide (min n 16 ≤ x.stage)
  if bad then some (7, i.stages) else none

/-- Reason 8 (R245). -/
def State.cellarCheck (t : State) (k : CtxId) (i : Image) : Option LoadErr :=
  let cs := List.range i.cores.length
  let bad (c : Nat) : Bool :=
    let a := imageSlice i c
    let pageOk (v : Nat) : Bool :=
      let e := t.pte k.val (v * 2 ^ 21)
      bitN e 63 && bitN e 62 && bitN e 61 && !bitN e 60
    decide (a.1 < a.2) && (decide (952 * 2 ^ 18 < a.2)
      || !((List.range ((a.2 + 511) / 512 - a.1 / 512)).all fun j => pageOk (a.1 / 512 + j))
      || cs.any fun d => d != c && (let b := imageSlice i d; decide (max a.1 b.1 < min a.2 b.2)))
  (firstCore ((cs.filter bad).filterMap fun n => (i.cores[n]?).map ImgCore.pos)).map fun c => (8, c.pos)

/-- Reason 9 (R227): SYNC_RT that the image gives a core names a router that is no link router, also on a core that another context holds. -/
def routeCheck (i : Image) : Option LoadErr :=
  let rts := i.regs.reverse.filterMap fun e => match place e.1.toNat with
    | .core c 0x204198 => some (c, match regDesc (rSyncRt c) with
      | some d => d.write 0 0 (2 ^ 64 - 1) e.2.toNat 0
      | none => e.2)
    | _ => none
  let bad (c : CoreId) : Bool := match rts.lookup c with
    | none => false
    | some w => match edgeAttach (fSyncRtHall.get w) (fSyncRtRouter.get w) with
      | some (2, _, _) => false
      | _ => true
  (firstCore ((rts.map Prod.fst).filter bad)).map fun c => (9, c.pos)

/-- Reason 10 (R273, R289): egress shares above 512 beats, or a forward mask that names a link in Nuore-compatible mode (log entry 117, DEDUCED). -/
def State.egressCheck (t : State) (i : Image) : Option LoadErr :=
  let bad (n : Nat) : Bool :=
    decide (512 < ((List.range 64).map fun f => t.fget (rLinkFlow n f) fLinkFlowEgBeats).sum)
      || (List.range 64).any fun f => (t.fwdMask n f).any fun m => t.flag (rLinkCtl m) fLinkCtlMode
  ((imageLinks i).find? bad).map fun n => (10, n)

/-- Reason 11 (R362). -/
def State.ckptCheck (t : State) (k : CtxId) : Option LoadErr :=
  let bad (g : Nat) : Bool :=
    (t.ckptLinks g).any (fun n => t.fget (rLinkStatus n) fLinkStatusPeerId != t.ringDev g 0 false)
      || decide (t.fget (rRsCkpt g) fRsCkptGenGib * 2 ^ 30 < (t.ownedTags g).length * (t.fget (rRsState g) fRsStateSlotKib * 1024) + 4096)
  ((t.groupsOf k.val).find? bad).map fun g => (11, g)

/-! ### Installation -/

/-- A core with its context loaded: present, stopped until START, with its slice of the Cellar (R245). -/
def State.installOn (s : State) (k : CtxId) (x : ImgCore) (slice : Nat × Nat) : State :=
  let c := x.pos
  let s0 := ((s.settle c).setReg (rCelBase c) (Fd.put fCelBaseBase 0 slice.1)).setReg (rCelLimit c) (Fd.put fCelLimitLimit 0 slice.2)
  let s1 := s0.setReg (rCoreStatus c) (Fd.put fCoreStatusStopped (Fd.put fCoreStatusCtx 0 k.val) 1)
  ((s1.setReg (rPc c) (Fd.put fPcBundle 0 x.entry.toNat)).cellarEmpty c).modCore c fun y =>
    { y.clearOps with present := true, fetchIdx := x.entry.toNat, stopCause := none, attempt := none, tlb := [] }

/-- The `n`-th core of an image installed. Where another context holds the core, the state stands in a saved image until CONTEXT_RESTORE, since no rule
says what a load does there (log entry 114, DESIGN CHOICE). -/
def State.installCore (s : State) (k : CtxId) (i : Image) (n : Nat) : State :=
  match i.cores[n]? with
  | none => s
  | some x =>
    let c := x.pos
    if s.heldByOther c k.val then
      let t := (i.regs.filter fun e => ctxReg c e.1.toNat).foldl (fun s e => s.imageReg k.val e) (s.ctxBlank c)
      let im := ((t.installOn k x (imageSlice i n)).ctxImage c)
      s.modCtx k.val fun y => { y with saved := im :: y.saved }
    else s.installOn k x (imageSlice i n)

/-- A group of a context that loads (R355, R356, R359, R366): what it owns, the slots in use and their list, its Miller; no loss and no run time yet. -/
def State.installGroup (s : State) (i : Image) (g : Nat) : State :=
  let owned := s.ownedTags g
  let miller := match i.millers.find? fun m => m.1.toNat == g with
    | some m => m.2.toNat
    | none => 0
  let s0 := s.setGroup g { GroupS.fresh with
    lists := (List.range (s.gMembers g)).map (s.ownedBy g), members := List.range (s.gMembers g), micro := i.microBatches, miller := miller }
  let s1 := ((s0.fput (rRsCnt g) fRsCntLosses 0).setReg (rRsRunS g) 0).trickleBusy g
  let s2 := s1.fput (rRsSlots g) fRsSlotsSlotsUsed owned.length
  if s2.fget (rRsRec g) fRsRecVa = 0 then s2
  else match s2.vWrite 0 (s2.gCtx g).val (s2.fget (rRsRec g) fRsRecVa * 128 + 128) (owned.flatMap fun t => natBytes 2 t) with
    | .ok s3 => s3
    | .error _ => s2

/-- The context installed (log entry 116, DEDUCED). -/
def State.install (s : State) (k : CtxId) (i : Image) (digest : BitVec 512) : State :=
  let s1 := s.setCtx k.val { CtxS.fresh with loaded := true, img := some i, digest := digest }
  let s2 := (List.range i.cores.length).foldl (fun s n => s.installCore k i n) s1
  let s3 := (s2.groupsOf k.val).foldl (fun s g => s.installGroup i g) s2
  (imageLinks i).foldl (fun s n => s.tablesLoaded n) s3

/-- The halls an image names. -/
def imageHalls (i : Image) : Nat := i.cores.foldl (fun m c => m ||| 2 ^ c.pos.hall.val) i.halls.toNat

/-- LOAD on the state: the reason and detail of a refusal, with the state that the attempt leaves, or the state with the context in (log entry 108,
DEDUCED). -/
def State.loadImage (s : State) (pa len : Nat) (k : CtxId) (i : Image) (e : BuildEnv) : Except (LoadErr × State) State :=
  match s.imageBytes pa len with
  | .error r => .error (r, s)
  | .ok b =>
    match i.badAt with
    | some o => .error ((2, o.toNat), s)
    | none =>
      if (s.ctx k.val).loaded ∨ i.ctx ≠ k then .error ((3, k.val), s)
      else
        let s1 := s.buildHalls e (imageHalls i)
        let t := s1.imageIn k i
        let failed := (s1.unbuilt (imageHalls i)).map fun h => (12, h + s1.fget (rGridStatus h) fGridStatusFail * 256)
        let errs := [failed.head?, s1.slotCheck t k i, t.laneCheck i, t.holeCheck i, stageCheck i, t.cellarCheck k i, routeCheck i, t.egressCheck i,
          t.ckptCheck k]
        match errs.filterMap id with
        | r :: _ => .error (r, s1)
        | [] => .ok (t.install k i (Config.sha512 b))

/-- The records of a refused load (R376, R426). -/
def State.loadRefused (s : State) (k : CtxId) (r : LoadErr) : State :=
  let s1 := if r.1 = 1 then s.emit (evr 0x9001 0x15 0) else s
  s1.emit ((evr 0xF001 0x11 0 0 0 r.1 r.2).ofCtx k false)

end Sys2Proof.Machine
end

