-- ==== Sys2Proof/Machine/Wire.lean ====
section
/-! DEFINITION. Sys2Proof/Machine/Wire.lean: what leaves the device as octets: THP packets (R369, R5) and where packets go (R368), and a link's codewords on its
lanes (R267). RoCEv2 headers are those of the InfiniBand specification, which the spec names and does not give: those packets stay in fields (log entry 192,
DESIGN CHOICE), as Ethernet, IPv6 and UDP headers do (log entry 220, DESIGN CHOICE). -/

namespace Sys2Proof.Machine

/-- STATUS BUSY (R371). -/
def stBusy : Nat := 1

/-! ### THP packets (R369) -/

/-- The fields of a THP header. -/
structure ThpHdr where
  op : Nat
  resp : Bool
  dev : Bool
  session : Nat
  seq : Nat
  status : Nat
  arg0 : Nat
  arg1 : Nat
  payload : Bytes
  deriving DecidableEq, Repr

/-- A THP packet as a UDP payload (R369), least significant byte first (R5). -/
def ThpHdr.bytes (h : ThpHdr) : Bytes :=
  natBytes 1 1 ++ natBytes 1 h.op ++ natBytes 2 (bton h.resp + 2 * bton h.dev) ++ natBytes 4 h.session ++ natBytes 4 h.seq ++ natBytes 2 h.status
    ++ natBytes 2 h.payload.length ++ natBytes 8 h.arg0 ++ natBytes 8 h.arg1 ++ h.payload

/-- A UDP payload read as a THP packet (R369): none where it is dropped without an answer, for VER, LEN or a reserved flag. -/
def thpParse (b : Bytes) : Option ThpHdr :=
  let flags := leAt b 2 2
  if b.length < 32 ∨ leAt b 0 1 ≠ 1 ∨ 4 ≤ flags ∨ b.length ≠ 32 + leAt b 14 2 then none
  else some ⟨leAt b 1 1, bitN flags 0, bitN flags 1, leAt b 4 4, leAt b 8 4, leAt b 12 2, leAt b 16 8, leAt b 24 8, b.drop 32⟩

/-- The THP packet of what the device sends, as octets (R369 to R371). -/
def thpOut : Out → Option Bytes
  | .thp _ r => some (ThpHdr.bytes ⟨r.op, true, false, r.sid.toNat, r.seq.toNat, r.status, r.arg0.toNat, r.arg1.toNat, r.payload⟩)
  | .thpDev _ sid op seq a0 a1 data => some (ThpHdr.bytes ⟨op, false, true, sid.toNat, seq, 0, a0.toNat, a1.toNat, data⟩)
  | .busy _ sid op seq us => some (ThpHdr.bytes ⟨op, true, false, sid.toNat, seq, stBusy, us, 0, []⟩)
  | .roceAck .. => none
  | .roceNak .. => none
  | .cnp .. => none
  | .pfc .. => none
  | .neighborAdv .. => none
  | .linkFrame .. => none

/-- The MAC address that a packet to an IPv6 address goes to (R368): ETH_GW_MAC, or none for a link-local destination, whose address Neighbor Discovery gives. -/
def State.nextHop (s : State) (ip : BitVec 128) : Option (BitVec 48) :=
  if ip.toNat / 2 ^ 64 = 0xFE80 * 2 ^ 48 then none else some ((s.reg rEthGwMac).setWidth 48)

/-- Where a packet to a host goes (R368). -/
def State.dest (s : State) (h : HostAddr) : Dest := ⟨h, s.nextHop h.ip⟩

/-- Does a UDP payload of `n` bytes fit a frame of at most 9,216 bytes (R368)? With it stand 14 bytes of Ethernet header, 40 of IPv6, 8 of UDP and the FCS
of 4 (log entry 220, DESIGN CHOICE). -/
def ethFits (n : Nat) : Bool := decide (n + 66 ≤ 9216)

/-! ### A link's lanes (R1, R267, R269, R289) -/

/-- The lanes a link runs by its latched MODE: all eight, or lanes 0 to 3 of an external link in MODE = 1 (R1, R289). -/
def lanesOf (mode : Bool) : Nat := if mode then 4 else 8

/-- The data bytes of lane `j` of `n` in one period of 200·n: byte i of the period goes to lane i mod n at position i div n. -/
def laneData (n : Nat) (period : Bytes) (j : Nat) : Bytes := (List.range 200).map fun i => period.getD (n * i + j) 0

/-- The codewords of one period, one a lane: 200 data bytes and 24 check bytes each, and nothing on a lane that stands idle. -/
def linkPeriod (n : Nat) (period : Bytes) : List Bytes := (List.range 8).map fun j =>
  if n ≤ j then [] else laneData n period j ++ slice (Config.rsCheck (laneData n period j)) 0 24

/-- The data of a period put together from its codewords. -/
def linkUnperiod (n : Nat) (lanes : List Bytes) : Bytes := (List.range (200 * n)).map fun i => (lanes.getD (i % n) []).getD (i / n) 0

/-- What a link in `mode` puts on its lanes for 25 frames of 512 bytes (R267): 64 periods of 200 bytes a lane make 8 of eight lanes, or 16 of four. -/
def linkCodewords (mode : Bool) (frames : List Bytes) : List (List Bytes) :=
  (List.range (64 / lanesOf mode)).map fun p => linkPeriod (lanesOf mode) (slice (frames.flatMap id) (200 * lanesOf mode * p) (200 * lanesOf mode))

end Sys2Proof.Machine
end

