-- ==== Sys2Proof/Machine/Thp.lean ====
section
/-! DEFINITION. Sys2Proof/Machine/Thp.lean: the THP protocol: sessions and their SEQ order, the commands of R372, responses, notices and the trickle (R369 to R376, R380 to R382, R419, R423, R428, R440). -/

namespace Sys2Proof.Machine

/-! ### Answers and what follows them -/

/-- What the device does once the response has left (R370, R372, R420). -/
inductive After where
  | nothing
  | close
  | warmReset
  | porchExit
  | hostStart
  deriving DecidableEq, Repr

/-- A response in the making: STATUS of R371, arguments, payload. -/
structure Ans where
  status : Nat := 0
  arg0 : Nat := 0
  arg1 : Nat := 0
  payload : Bytes := []
  after : After := .nothing
  deriving DecidableEq, Repr

def stBadOp : Nat := 2
def stBadArg : Nat := 3
def stAccess : Nat := 4
def stPoison : Nat := 5
def stPage : Nat := 6
def stRefused : Nat := 7
def stState : Nat := 8
def stAuth : Nat := 9
def stSeq : Nat := 10
def stFull : Nat := 11

/-- An answer of a bare status. -/
def Ans.of (st : Nat) : Ans := { status := st }

/-- The opcodes of R372. -/
def opOpen : Nat := 0x01
def opClose : Nat := 0x02
def opInfo : Nat := 0x03
def opRead : Nat := 0x10
def opWrite : Nat := 0x11
def opLoad : Nat := 0x20
def opStart : Nat := 0x21
def opStop : Nat := 0x22
def opResume : Nat := 0x23
def opEnd : Nat := 0x24
def opGrid : Nat := 0x30
def opQpCreate : Nat := 0x40
def opQpDestroy : Nat := 0x41
def opMrCreate : Nat := 0x42
def opMrDestroy : Nat := 0x43
def opNotify : Nat := 0x50
def opTrickle : Nat := 0x51
def opWarm : Nat := 0x60
def opFwWrite : Nat := 0x70
def opFwCommit : Nat := 0x71
def opLogRead : Nat := 0x72
def opAttest : Nat := 0x73
def opPorchExit : Nat := 0x74

/-- Largest payload (R383). -/
def State.maxPayload (s : State) : Nat := s.fget rThpCfg fThpCfgMaxPayload

/-! ### The port's priorities (R368) -/

/-- Is it a THP packet, which THP_TX_CNT counts (R383)? -/
def Out.isThp : Out → Bool
  | .thp .. => true
  | .thpDev .. => true
  | .busy .. => true
  | .roceAck .. => false
  | .roceNak .. => false
  | .cnp .. => false
  | .pfc .. => false
  | .neighborAdv .. => false
  | .linkFrame .. => false

/-- A frame leaves the port. -/
def State.txFrame (s : State) (o : Out) : State :=
  let s1 : State := { s with sent := s.sent ++ [o] }
  if o.isThp then s1.count rThpTxCnt 1 else s1

/-- Is a priority paused by the host (R368)? A quantum is 0.32 ns (R346). -/
def State.pausedNow (s : State) (prio : Nat) : Bool :=
  s.host.paused.any fun e => e.1 == prio && decide ((s.now - e.2.2) * 100 < e.2.1 * 32 * unitsNs)

/-- Would a frame of the priority wait: the priority is paused, or an older one of it still waits (R368)? -/
def State.portWaits (s : State) (prio : Nat) : Bool := s.pausedNow prio || s.host.held.any fun e => e.1 == prio

/-- Frames whose priority is no longer paused leave, oldest first (R368). -/
def State.portRelease (s : State) : State :=
  if s.host.held = [] then s
  else
    let (stay, go) := s.host.held.partition fun e => s.pausedNow e.1
    (go.map Prod.snd).foldl State.txFrame { s with host := { s.host with held := stay } }

/-- A frame of a priority leaves, or waits. -/
def State.portSend (s : State) (wait : Bool) (prio : Nat) (o : Out) : State :=
  if wait then { s with host := { s.host with held := s.host.held ++ [(prio, o)] } } else s.txFrame o

/-- A frame of a priority leaves, or waits while the priority is paused (R368) (log entry 191, DESIGN CHOICE). -/
def State.portOut (s : State) (prio : Nat) (o : Out) : State := s.portSend (s.portWaits prio) prio o

/-- A THP packet goes out, on the priority that sessions of its class have. -/
def State.sendOut (s : State) (cls : Nat) (o : Out) : State := s.portOut (Config.thpPrio cls).toNat o

/-! ### Sessions (R370) -/

def State.session (s : State) (sid : BitVec 32) : Option Session := s.host.sessions.find? fun x => x.sid == sid

def State.modSession (s : State) (sid : BitVec 32) (f : Session → Session) : State :=
  { s with host := { s.host with sessions := s.host.sessions.map fun x => if x.sid = sid then f x else x } }

/-- A session closes: its unanswered notices wait again, those past 256 discarded with the record of R375, and an area that it was sent starts again
(R370, R375, R380). -/
def State.closeSession (s : State) (sid : BitVec 32) : State :=
  match s.session sid with
  | none => s
  | some x =>
    let back := (x.devOut.filter fun d => d.op == opNotify).map fun d => (d.a0.toNat, d.a1)
    let all := back ++ s.host.notices
    let s0 : State := { s with host := { s.host with
      sessions := s.host.sessions.filter fun y => y.sid != sid, notices := all.take 256 } }
    let s1 := if all.length ≤ 256 ∨ s.host.noticeDrop then s0
      else ({ s0 with host := { s0.host with noticeDrop := true } } : State).emit (evr 0xF003 0x16 0)
    if x.cls = 2 then s1.modGroup x.group fun y => { y with trickle := y.trickle.map fun t => { t with next := 4096, headerSent := false } } else s1

/-- A device-originated request is sent on a session (R370). -/
def State.sendDev (s : State) (sid : BitVec 32) (op : Nat) (a0 a1 : Word) (data : Bytes) : State :=
  match s.session sid with
  | none => s
  | some x =>
    let d : DevReq := ⟨op, x.devNext, a0, a1, data, 1⟩
    (s.modSession sid fun x => { x with devNext := (x.devNext + 1) % 2 ^ 32, devOut := x.devOut ++ [d] }).sendOut x.cls
      (.thpDev (s.dest x.host) sid op d.seq a0 a1 data)

/-- Waiting notices go to the oldest control session with notices, while it has room (R370, R375). -/
def pumpNotices : Nat → State → State
  | 0, s => s
  | n + 1, s =>
    match s.host.notices, s.host.sessions.find? fun x => x.cls == 0 && x.notices with
    | q :: qs, some x =>
      if 64 ≤ x.devOut.length then s
      else pumpNotices n (({ s with host := { s.host with notices := qs } } : State).sendDev x.sid opNotify (BitVec.ofNat 64 q.1) q.2 [])
    | _, _ => s

/-- One request, or the header's requests, of a group's trickle (R361, R380). -/
def State.trickleOne (s : State) (g : Nat) (t : TrickleS) (x : Session) : State :=
  let va := s.areaAddr g t.gen
  let a1 := BitVec.ofNat 64 (t.step % 2 ^ 32 + t.gen * 2 ^ 32)
  let body := t.next < t.total
  let n := if body then min s.maxPayload (t.total - t.next) else 4096
  match s.vRead 0 (s.gCtx g).val (if body then va + t.next else va) n with
  | .error e => ((s.unitPageFault 0 (s.gCtx g) 0x11 0 e.1 accRead e.2).modGroup g fun y => { y with trickle := none }).trickleNext g
  | .ok none => ((s.faultCtx (s.gCtx g) (evr 0x3004 0x11 0)).modGroup g fun y => { y with trickle := none }).trickleNext g
  | .ok (some b) =>
    if body then
      (s.sendDev x.sid opTrickle (BitVec.ofNat 64 t.next) a1 b).modGroup g fun y => { y with trickle := some { t with next := t.next + n } }
    else
      let m := s.maxPayload
      let s1 := (List.range ((4096 + m - 1) / m)).foldl (fun s i => s.sendDev x.sid opTrickle (BitVec.ofNat 64 (m * i)) a1 ((b.drop (m * i)).take m)) s
      s1.modGroup g fun y => { y with trickle := some { t with headerSent := true } }

/-- The trickle of a group as far as its session has room; it is complete when every request has been answered (R380) (log entry 122, DESIGN CHOICE).
-/
def pumpTrickle : Nat → Nat → State → State
  | 0, _, s => s
  | n + 1, g, s =>
    match (s.group g).trickle, s.host.sessions.find? fun x => x.cls == 2 && x.group == g with
    | some t, some x =>
      if t.headerSent then
        if x.devOut.any fun d => d.op == opTrickle then s
        else pumpTrickle n g ((s.modGroup g fun y => { y with trickle := none, trickleDone := y.trickleDone ++ [t.gen] }).trickleNext g)
      else if 60 < x.devOut.length ∨ s.flag (rRsTrickle g) fRsTrickleEn = false then s
      else pumpTrickle n g (s.trickleOne g t x)
    | _, _ => s

/-- What the device has to send goes out. -/
def State.pump (s : State) : State :=
  let s := s.portRelease
  if s.host.sessions = [] then s
  else (s.groups.map Prod.fst).foldl (fun s g => pumpTrickle 66 g s) (pumpNotices 256 s)

/-! ### BUSY while the device starts (R381) -/

/-- A BUSY answer, within the limits of R381 (log entry 100, DESIGN CHOICE). -/
def State.busyAnswer (s : State) (h : HostAddr) (sid : BitVec 32) (op seq : Nat) : State :=
  let recent := s.host.busyAt.filter fun e => decide (s.now - e.2 < 1000 * unitsMs)
  let s1 : State := { s with host := { s.host with busyAt := recent } }
  if 10000 ≤ recent.length ∨ recent.any (fun e => e.1 == h.ip && decide (s.now - e.2 < unitsMs)) then s1
  else
    let s2 : State := { s1 with free := s.free + 1, host := { s1.host with busyAt := recent ++ [(h.ip, s.now)] } }
    (s2.sendOut 3 (.busy (s.dest h) sid op seq (10000 + Config.busyExtra s.free))).count rThpBusyCnt 1

/-- Is the boot ROM on the port and the Housekeeper not yet (R381)? -/
def State.bootBusy (s : State) : Bool := s.hearth.boot == .failed || s.hearth.boot == .neighbour

/-- Does the device answer packets at all? -/
def State.portUp (s : State) : Bool := s.powerGood

/-- Is the device in Porch (R382, R419, R420)? -/
def State.inPorch (s : State) : Bool := s.hearth.boot == .porch || s.hearth.boot == .hostImage

/-! ### READ and WRITE (R373, R374) -/

/-- See log entry 20, DESIGN CHOICE. -/
def State.ansRead (s : State) (q : ThpReq) : State × Ans :=
  let n := bitsN q.a1.toNat 15 0
  let win := bitsN q.a0.toNat 63 60
  let a := bitsN q.a0.toNat 47 0
  let data (b : Option Bytes) : State × Ans := (s, match b with
    | some b => { payload := b }
    | none => { status := stAccess, payload := zeros n })
  if q.a1.toNat ≠ n ∨ bitsN q.a0.toNat 59 48 ≠ 0 ∨ n = 0 ∨ s.maxPayload < n then (s, Ans.of stBadArg)
  else if win = 0 then
    (if hbmEnd < a + n then (s, Ans.of stBadArg) else if s.poisoned a n then (s, Ans.of stPoison) else data (some (s.rdBytes a n)))
  else if win = 1 then
    match place a with
    | .core c o =>
      if o < 0x200000 then
        (if 0x200000 < o + n then (s, Ans.of stBadArg) else data (if s.coreOpen c o none then some (s.rdBytes a n) else none))
      else ((s.readDone a n), (data (if widthAligned a n then s.busRead a n else none)).2)
    | _ => if a < coreSpace then (s, Ans.of stBadArg) else ((s.readDone a n), (data (if widthAligned a n then s.busRead a n else none)).2)
  else if 8 ≤ win then
    match s.vRead 0 (win - 8) a n with
    | .error e => (s, { status := stPage, arg0 := e.2 })
    | .ok none => (s, Ans.of stPoison)
    | .ok (some b) => data (some b)
  else (s, Ans.of stBadArg)

/-- May an ingest session write there (R379)? -/
def State.ingestMay (s : State) (win a : Nat) : Bool :=
  win == 8 + s.hrCtx || (win == 1 && (List.range 16).any fun k => a / 8 * 8 == rHrRingProd k)

def State.ansWrite (s : State) (cls : Nat) (q : ThpReq) : State × Ans :=
  let n := q.data.length
  let win := bitsN q.a0.toNat 63 60
  let a := bitsN q.a0.toNat 47 0
  let put (t : Option State) : State × Ans := match t with
    | some t => (t, {})
    | none => (s, Ans.of stAccess)
  if bitsN q.a0.toNat 59 48 ≠ 0 ∨ n = 0 ∨ s.maxPayload < n then (s, Ans.of stBadArg)
  else if cls = 1 ∧ !s.ingestMay win a then (s, Ans.of stAccess)
  else if win = 0 then
    (if hbmEnd < a + n then (s, Ans.of stBadArg)
     else if 0xEE04000000 < a + n ∧ a < 0xEE08000000 then (s, Ans.of stAccess) else put (some (s.wrHbm a q.data)))
  else if win = 1 then
    match place a with
    | .core c o =>
      if o < 0x200000 then
        (if 0x200000 < o + n then (s, Ans.of stBadArg) else put (if s.coreOpen c o none then some (s.wrBytes a q.data) else none))
      else put (if widthAligned a n then s.busWrite .host a n (leNat q.data) else none)
    | _ => if a < coreSpace then (s, Ans.of stBadArg) else put (if widthAligned a n then s.busWrite .host a n (leNat q.data) else none)
  else if 8 ≤ win then
    match s.vWrite 0 (win - 8) a q.data with
    | .error e => (s, { status := stPage, arg0 := e.2 })
    | .ok t => (t, {})
  else (s, Ans.of stBadArg)

/-! ### Contexts (R375, R376) -/

/-- The context an argument names, none for a reserved encoding. -/
def argCtx (a : Word) : Option CtxId := if h : a.toNat < 8 then some ⟨a.toNat, h⟩ else none

/-- A core that the context is on starts at its entry point, unless it is halted (R76, R375) (log entry 119, DEDUCED). -/
def State.startCore (k : CtxId) (s : State) (x : ImgCore) : State :=
  let c := x.pos
  if (s.core c).present && (s.coreCtx c).val == k.val then
  let s1 := ((s.settle c).setReg (rPc c) (Fd.put fPcBundle 0 x.entry.toNat)).modCore c fun y => { y with fetchIdx := x.entry.toNat }
  if s1.flag (rCoreCtl c) fCoreCtlHalt then s1 else (s1.fput (rCoreStatus c) fCoreStatusRun 1).fput (rCoreStatus c) fCoreStatusStopped 0
  else s

/-- START: cores issue from the image's entry points; the first step of the context's groups begins (R342, R355, R396). -/
def State.ctxStart (s : State) (k : CtxId) : State :=
  match (s.ctx k.val).img with
  | none => s
  | some i =>
    let s1 := (i.cores.foldl (State.startCore k) s).modCtx k.val fun x => { x with started := true }
    ((s1.groupsOf k.val).foldl (fun s g => (((s.runGoes g true).takeSnap g).startRound g).quernStart g) s1).startClocks

/-- A PREEMPT message to every hall that holds a core of the context (R178, R179). -/
def State.preemptAll (s : State) (k : CtxId) (act : Nat) : State :=
  ((List.range 8).filter fun h => (s.ctxCores k.val).any fun c => c.hall.val == h).foldl (fun s h =>
    s.bellDie h 13 (bellHdr 8 k.val 0 false h 13 15 act) []) s

/-- STOP: pre-emption under R44. A context none of whose cores issues has stopped already (log entry 120, DEDUCED). -/
def State.ctxStop (s : State) (k : CtxId) : State :=
  if (s.activeCores k.val).any s.run then s.preemptAll k 0 else s.ctxStopped k

/-- RESUME: issue resumes under R69, orphans are adopted again (R231), discarded flows flow again (R282) (log entry 121, DEDUCED). -/
def State.ctxResume (s : State) (k : CtxId) : State :=
  let s1 := s.modCtx k.val fun x => { x with stopped := none, cause := 0, stopDone := [] }
  let s1 := (s.ctxGroups k.val).foldl (fun s g => s.runGoes g true) s1
  let s2 := (s1.activeCores k.val).foldl (fun s c => s.fput (rCoreStatus c) fCoreStatusFaulted 0) s1
  (((s2.unorphanCtx k.val).clearDiscard k.val).preemptAll k 1).startClocks

/-- A command on a context, allowed in a state of it. -/
def State.ansCtx (s : State) (a0 : Word) (allowed : CtxId → Bool) (f : CtxId → State) : State × Ans :=
  match argCtx a0 with
  | none => (s, Ans.of stBadArg)
  | some k => if allowed k then (f k, {}) else (s, Ans.of stState)

/-- LOAD (R376). -/
def State.ansLoad (s : State) (q : ThpReq) : State × Ans :=
  let a1 := q.a1.toNat
  match q.img with
  | none => (s, Ans.of stBadArg)
  | some i =>
    if 2 ^ 35 ≤ a1 then (s, Ans.of stBadArg)
    else
      let k : CtxId := ⟨bitsN a1 34 32 % 8, Nat.mod_lt _ (by decide)⟩
      match s.loadImage q.a0.toNat (bitsN a1 31 0) k i q.env with
      | .ok t => (t, {})
      | .error (r, t) => (t.loadRefused k r, { status := if r.1 = 1 then stAuth else stRefused, arg0 := r.1 })

/-- GRID_BUILD (R184, R189). -/
def State.ansGrid (s : State) (q : ThpReq) : State × Ans :=
  if 256 ≤ q.a0.toNat then (s, Ans.of stBadArg)
  else
    let t := s.buildHalls q.env q.a0.toNat
    let failed := t.unbuilt q.a0.toNat
    (t, { status := if failed = [] then 0 else stState
          arg0 := (List.range 8).foldl (fun n h => n + t.fget (rGridStatus h) fGridStatusHoles * 2 ^ (8 * h)) 0
          arg1 := failed.foldl (fun n h => n + 2 ^ h) 0 })

/-! ### Queue pairs and memory regions (R378) -/

/-- See log entry 105, DESIGN CHOICE. -/
def State.ansQpCreate (s : State) (host : HostAddr) (q : ThpReq) : State × Ans :=
  let a := q.a0.toNat
  let qpn := q.id.setWidth 24
  if bitsN a 15 11 ≠ 0 ∨ bitsN a 7 3 ≠ 0 ∨ 2 ^ 16 ≤ q.a1.toNat then (s, Ans.of stBadArg)
  else if 64 ≤ s.host.qps.length ∨ s.host.qps.any (fun x => x.qpn == qpn) then (s, Ans.of stFull)
  else
    let x : QpS := ⟨qpn, BitVec.ofNat 24 (bitsN a 63 40), ⟨host.ip, BitVec.ofNat 16 q.a1.toNat⟩, BitVec.ofNat 3 (bitsN a 10 8),
      ⟨bitsN a 2 0 % 8, Nat.mod_lt _ (by decide)⟩, BitVec.ofNat 24 (bitsN a 39 16), false, false, none, 0, none⟩
    ({ s with host := { s.host with qps := s.host.qps ++ [x] } }, { arg0 := qpn.toNat })

def State.ansQpDestroy (s : State) (q : ThpReq) : State × Ans :=
  if s.host.qps.any fun x => x.qpn.toNat == q.a0.toNat then
    ({ s with host := { s.host with qps := s.host.qps.filter fun x => x.qpn.toNat != q.a0.toNat } }, {})
  else (s, Ans.of stBadArg)

def State.ansMrCreate (s : State) (q : ThpReq) : State × Ans :=
  let a := q.a0.toNat
  let b := q.a1.toNat
  let door := bitN a 63
  if bitsN a 62 3 ≠ 0 ∨ (!door ∧ bitsN b 11 0 ≠ 0) then (s, Ans.of stBadArg)
  else if 256 ≤ s.host.mrs.length ∨ s.host.mrs.any (fun x => x.rkey == q.id) then (s, Ans.of stFull)
  else
    let x : MrS := ⟨q.id, door, ⟨bitsN a 2 0 % 8, Nat.mod_lt _ (by decide)⟩, if door then 0 else bitsN b 63 48, if door then 0 else bitsN b 47 12 * 4096⟩
    ({ s with host := { s.host with mrs := s.host.mrs ++ [x] } }, { arg0 := q.id.toNat })

def State.ansMrDestroy (s : State) (q : ThpReq) : State × Ans :=
  if s.host.mrs.any fun x => x.rkey.toNat == q.a0.toNat then
    ({ s with host := { s.host with mrs := s.host.mrs.filter fun x => x.rkey.toNat != q.a0.toNat } }, {})
  else (s, Ans.of stBadArg)

/-! ### Firmware, log, attestation (R419, R420, R423, R428, R440) -/

/-- Flash bank that an update goes to: the one without the newest valid image, bank A if there is none. -/
def State.inactiveBank (s : State) : Nat := match s.newestBank with
  | some b => 1 - b
  | none => 0

def State.ansFwWrite (s : State) (q : ThpReq) : State × Ans :=
  let o := q.a0.toNat
  if o % 4096 ≠ 0 ∨ 0x1000000 ≤ o ∨ q.data.length ≠ 4096 then (s, Ans.of stBadArg)
  else if s.hearth.boot = .hostImage then ({ s with hearth := { s.hearth with hkMem := hkWrite s.hearth.hkMem o q.data } }, {})
  else
    let base := bankBase s.inactiveBank
    let s1 := if s.hearth.erased then s else s.flashErase base 0x10000
    let s2 : State := { s1 with hearth := { s1.hearth with erased := true } }
    if o = 0 then ({ s2 with hearth := { s2.hearth with heldHdr := some q.data } }, {}) else (s2.fwFlash (base + o) q.data, {})

/-- The header that a commit writes: SEQ and CHECK are the device's. -/
def newHeader (hdr : Bytes) (seq : Nat) : Bytes :=
  let h := slice hdr 0 356 ++ natBytes 8 seq
  h ++ natBytes 4 (crc32c h).toNat ++ slice hdr 368 3728

/-- See log entry 106, DEDUCED. -/
def State.ansFwCommit (s : State) : State × Ans :=
  if s.hearth.boot = .hostImage then
    match s.hkCheck with
    | none => (s, { after := .hostStart })
    | some n => (s.emit (evr 0x9001 0x15 0 0 0 n), Ans.of stAuth)
  else
    let base := bankBase s.inactiveBank
    let hdr := s.hearth.heldHdr.getD []
    let t : State := { s with hearth := { s.hearth with heldHdr := none, erased := false } }
    match s.fwCheck hdr (s.flashBytes (base + 4096) (leAt hdr 12 4)) false with
    | none => ((t.fwFlash base (newHeader hdr s.seqNext)).emit (evr 0x9003 0x15 0), {})
    | some n => (t.emit (evr 0x9001 0x15 0 0 0 n), Ans.of stAuth)

/-- LOG_READ (R440). -/
def State.ansLogRead (s : State) (q : ThpReq) : State × Ans :=
  let n := q.a1.toNat
  if n = 0 ∨ 128 < n then (s, Ans.of stBadArg)
  else
    let l := s.logRead q.a0.toNat (min n (s.maxPayload / 64))
    (s, { arg0 := (l.headD (0, [])).1, arg1 := l.length, payload := l.flatMap Prod.snd })

/-- Program digests of the eight contexts (R428). -/
def State.programDigests (s : State) : Bytes :=
  (List.range 8).flatMap fun k => if (s.ctx k).loaded then digestBytes (s.ctx k).digest else zeros 64

/-- The first 360 bytes of an attestation report (R428). -/
def State.attestBody (s : State) (nonce : Bytes) : Bytes :=
  let f := s.hearth.fuses
  let img := match s.hearth.img with
    | some i => natBytes 8 i.seq ++ natBytes 4 i.svn ++ natBytes 1 i.bank
    | none => zeros 12 ++ natBytes 1 0xFF
  let straps := s.fget rStartStatus fStartStatusBootSrc + 4 * s.fget rStartStatus fStartStatusClkMode
  slice nonce 0 64 ++ slice Config.idPub 0 133 ++ zeros 3 ++ natBytes 6 f.mac.toNat ++ zeros 2 ++ natBytes 3 s.devId ++ zeros 1
    ++ natBytes 4 f.svn ++ img ++ natBytes 1 (s.fget rEthStatus fEthStatusPhase) ++ natBytes 1 (s.fget rStartStatus fStartStatusConsecFail)
    ++ natBytes 1 straps ++ (match s.hearth.img with
      | some i => digestBytes i.digest
      | none => zeros 64)
    ++ digestBytes (Config.sha512 s.programDigests)

def State.ansAttest (s : State) (q : ThpReq) : State × Ans :=
  if q.data.length ≠ 64 then (s, Ans.of stBadArg)
  else
    let b := s.attestBody q.data
    (s, { payload := b ++ slice (Config.idSign (Config.sha512 b)) 0 132 })

/-- The identity block of INFO (R427). -/
def State.identity (s : State) : Bytes :=
  let f := s.hearth.fuses
  natBytes 6 f.mac.toNat ++ zeros 2 ++ natBytes 8 f.serial.toNat ++ natBytes 4 f.romVer.toNat ++ natBytes 4 f.svn
    ++ (digestBytes (Config.sha512 Config.idPub)).take 32 ++ zeros 8

/-! ### Running a request (R370 to R372, R382) -/

/-- Does the opcode run in Porch (R372)? -/
def opPorch (op : Nat) : Bool := [opClose, opWarm, opFwWrite, opFwCommit, opLogRead, opAttest, opPorchExit].contains op

/-- May a session of a class send the opcode (R372, R379)? -/
def opClass (op cls : Nat) : Bool := op == opClose || cls == 0 || (cls == 1 && op == opWrite)

/-- Do the straps keep the device in Porch, or under host boot, against the opcode (R419, R420)? -/
def State.strapBar (s : State) (op : Nat) : Bool :=
  let src := s.fget rStartStatus fStartStatusBootSrc
  (op == opWarm && s.inPorch && src == 3) || (op == opPorchExit && (src == 3 || src == 1 || s.hearth.boot != .porch))

/-- A request's effect and its answer (log entry 102, DEDUCED). -/
def State.runOp (s : State) (x : Session) (q : ThpReq) : State × Ans :=
  if s.inPorch && !opPorch q.op then (s, Ans.of stState)
  else if !opClass q.op x.cls then (s, Ans.of stBadOp)
  else if s.strapBar q.op then (s, Ans.of stState)
  else if q.op = opClose then (s, { after := .close })
  else if q.op = opRead then s.ansRead q
  else if q.op = opWrite then s.ansWrite x.cls q
  else if q.op = opLoad then s.ansLoad q
  else if q.op = opStart then s.ansCtx q.a0 (fun k => (s.ctx k.val).loaded && !(s.ctx k.val).started && !s.ebc.noGear) s.ctxStart
  else if q.op = opStop then s.ansCtx q.a0 (fun k => s.ctxRunning k.val) s.ctxStop
  else if q.op = opResume then s.ansCtx q.a0 (fun k => (s.ctx k.val).stopped.isSome && !(s.ctx k.val).groupHalt) s.ctxResume
  else if q.op = opEnd then s.ansCtx q.a0 (fun k => (s.ctx k.val).loaded) fun k => (s.ctxEnd k.val).clearDiscard k.val
  else if q.op = opGrid then s.ansGrid q
  else if q.op = opQpCreate then s.ansQpCreate x.host q
  else if q.op = opQpDestroy then s.ansQpDestroy q
  else if q.op = opMrCreate then s.ansMrCreate q
  else if q.op = opMrDestroy then s.ansMrDestroy q
  else if q.op = opWarm then (s, { after := .warmReset })
  else if q.op = opFwWrite then s.ansFwWrite q
  else if q.op = opFwCommit then s.ansFwCommit
  else if q.op = opLogRead then s.ansLogRead q
  else if q.op = opAttest then s.ansAttest q
  else if q.op = opPorchExit then (s, { after := .porchExit })
  else (s, Ans.of stBadOp)

/-- What a start does next is the part's: a free value says how its steps come out (R411, R420) (log entry 107, DESIGN CHOICE). -/
def freeEnv (w : Word) : StartEnv :=
  ⟨0, 0, ((List.finRange 6).filter fun p => w.getLsbD (13 + p.val)).map PllDom.stack ++ ((List.finRange 24).filter fun n => w.getLsbD (19 + n.val)).map PllDom.link,
    (List.finRange 12).filter fun i => w.getLsbD i.val, w.getLsbD 12⟩

/-- What follows the response. -/
def State.follow (s : State) (sid : BitVec 32) : After → State
  | .nothing => s
  | .close => s.closeSession sid
  | .warmReset => s.orphanAll.flushAll.applyReset 0x10 true .rails
  | .porchExit => (s.emit (evr 0x0015 0x10 0)).orphanAll.flushAll.applyReset 0x40 false .rails
  | .hostStart =>
    let f := s.fresh
    f.2.bringUp (freeEnv f.1) (fwImg (f.2.hkBytes 0 4096) f.2.seqNext 2)

/-- Run one request of a session: its effect, its response kept and sent, and what follows. -/
def State.runReq (s : State) (sid : BitVec 32) (x : Session) (seq : Nat) (q : ThpReq) : State :=
  let r := s.runOp x q
  let a := r.2
  let resp : ThpResp := ⟨sid, q.op, BitVec.ofNat 32 seq, a.status, BitVec.ofNat 64 a.arg0, BitVec.ofNat 64 a.arg1, a.payload⟩
  let s1 := r.1.modSession sid fun x => { x with expect := (seq + 1) % 2 ^ 32, done := (x.done ++ [resp]).drop (x.done.length + 1 - 1024) }
  let prio := (Config.thpPrio x.cls).toNat
  (s1.portSend (s.portWaits prio) prio (.thp (r.1.dest x.host) resp)).follow sid a.after

/-- The requests that waited for a lower SEQ run as soon as they may. -/
def runWaiting : Nat → BitVec 32 → State → State
  | 0, _, s => s
  | n + 1, sid, s =>
    match s.session sid with
    | none => s
    | some x =>
      match x.waiting.find? fun e => e.1 == x.expect with
      | none => s
      | some e =>
        runWaiting n sid ((s.modSession sid fun x => { x with waiting := x.waiting.filter fun f => f.1 != e.1 }).runReq sid x e.1 e.2)

/-- A response that the device does not keep: the session does not exist, or SEQ lies outside its window. -/
def State.bareAnswer (s : State) (p : ThpFrom) (cls op seq st : Nat) : State :=
  s.sendOut cls (.thp (s.dest p.src) ⟨p.sid, op, BitVec.ofNat 32 seq, st, 0, 0, []⟩)

/-- A THP request on a session arrives (R370, R381), in a frame that the port takes (R368). A session that is not that of the packet's source counts as
not open (log entry 99, DESIGN CHOICE; log entry 103, DEDUCED). -/
def State.thpRequest (s : State) (p : ThpFrom) (seq : BitVec 32) (q : ThpReq) : State :=
  if !s.portUp || !ethFits (32 + q.data.length) then s
  else
    let s1 := s.count rThpRxCnt 1
    if s.bootBusy then s1.busyAnswer p.src p.sid q.op seq.toNat
    else match (s1.session p.sid).filter fun x => x.host == p.src with
      | none => s1.bareAnswer p 3 q.op seq.toNat stBadArg
      | some x =>
        let d := (seq.toNat + 2 ^ 32 - x.expect) % 2 ^ 32
        if d = 0 then (runWaiting 1024 p.sid (s1.runReq p.sid x seq.toNat q)).pump
        else if d ≤ 1023 then
          (if x.waiting.any fun e => e.1 == seq.toNat then s1.count rThpDupCnt 1
           else s1.modSession p.sid fun x => { x with waiting := x.waiting ++ [(seq.toNat, q)] })
        else if 2 ^ 32 - 1024 ≤ d then
          let s2 := s1.count rThpDupCnt 1
          match x.done.find? fun r => r.seq == seq with
          | some r => s2.sendOut x.cls (.thp (s.dest x.host) r)
          | none => s2
        else s1.bareAnswer p x.cls q.op seq.toNat stSeq

/-! ### The commands -/

/-- THP_OPEN (R370): `sid` is the identifier that the device gives. With an entry free, one that is 0 or in use is none that the device gives: nothing
arrives then (log entry 11, DESIGN CHOICE; log entry 101, DEDUCED). -/
def execThpOpen (h : HostAddr) (a0 a1 : Word) (sid : BitVec 32) (s : State) : Res :=
  if !s.portUp then .next s
  else
    let s1 := s.count rThpRxCnt 1
    let cls := bitsN a0.toNat 1 0
    let answer (s : State) (st : Nat) : State :=
      s.sendOut (if st = 0 then cls else 3) (.thp (s.dest h) ⟨if st = 0 then sid else 0, opOpen, 0, st, 0, 0, []⟩)
    if s.bootBusy then .next (s1.busyAnswer h 0 opOpen 0)
    else if cls = 3 ∨ 8 ≤ a0.toNat ∨ (cls = 2 ∧ 1024 ≤ a1.toNat) then .next (answer s1 stBadArg)
    else if 16 ≤ s.host.sessions.length then .next (answer s1 stFull)
    else if sid = 0 ∨ (s.session sid).isSome then .next s
    else
      let x : Session := ⟨sid, h, cls, if cls = 2 then a1.toNat else 0, cls == 0 && bitN a0.toNat 2, 1, [], [], 1, []⟩
      .next (answer { s1 with host := { s1.host with sessions := s1.host.sessions ++ [x] } } 0).pump

/-- THP_CLOSE (R370). -/
def execThpClose (p : ThpFrom) (seq : BitVec 32) (s : State) : Res := .next (s.thpRequest p seq ⟨opClose, 0, 0, [], none, ⟨[], []⟩, 0⟩)

/-- INFO (R372, R381, R427): answered in every phase, outside any session. -/
def execInfo (h : HostAddr) (s : State) : Res :=
  if !s.portUp then .next s
  else .next ((s.count rThpRxCnt 1).sendOut 3 (.thp (s.dest h) ⟨0, opInfo, 0, 0,
    BitVec.ofNat 64 (s.devId + s.fget rEthStatus fEthStatusPhase * 2 ^ 24), 0, s.identity⟩))

/-- READ (R373). -/
def execRead (p : ThpFrom) (seq : BitVec 32) (a0 a1 : Word) (s : State) : Res := .next (s.thpRequest p seq ⟨opRead, a0, a1, [], none, ⟨[], []⟩, 0⟩)

/-- WRITE (R373, R374). -/
def execWrite (p : ThpFrom) (seq : BitVec 32) (a0 : Word) (data : Bytes) (s : State) : Res :=
  .next (s.thpRequest p seq ⟨opWrite, a0, 0, data, none, ⟨[], []⟩, 0⟩)

/-- LOAD (R376). -/
def execLoad (p : ThpFrom) (seq : BitVec 32) (a0 a1 : Word) (img : Image) (env : BuildEnv) (s : State) : Res :=
  .next (s.thpRequest p seq ⟨opLoad, a0, a1, [], some img, env, 0⟩)

/-- THP_START (R375). -/
def execThpStart (p : ThpFrom) (seq : BitVec 32) (a0 : Word) (s : State) : Res := .next (s.thpRequest p seq ⟨opStart, a0, 0, [], none, ⟨[], []⟩, 0⟩)

/-- THP_STOP (R375). -/
def execThpStop (p : ThpFrom) (seq : BitVec 32) (a0 : Word) (s : State) : Res := .next (s.thpRequest p seq ⟨opStop, a0, 0, [], none, ⟨[], []⟩, 0⟩)

/-- RESUME (R375). -/
def execResume (p : ThpFrom) (seq : BitVec 32) (a0 : Word) (s : State) : Res := .next (s.thpRequest p seq ⟨opResume, a0, 0, [], none, ⟨[], []⟩, 0⟩)

/-- END (R375). -/
def execEndCtx (p : ThpFrom) (seq : BitVec 32) (a0 : Word) (s : State) : Res := .next (s.thpRequest p seq ⟨opEnd, a0, 0, [], none, ⟨[], []⟩, 0⟩)

/-- GRID_BUILD (R184, R189). -/
def execGridBuild (p : ThpFrom) (seq : BitVec 32) (a0 : Word) (env : BuildEnv) (s : State) : Res :=
  .next (s.thpRequest p seq ⟨opGrid, a0, 0, [], none, env, 0⟩)

/-- QP_CREATE (R378): `qpn` is the number the device gives. -/
def execQpCreate (p : ThpFrom) (seq : BitVec 32) (a0 a1 : Word) (qpn : BitVec 24) (s : State) : Res :=
  .next (s.thpRequest p seq ⟨opQpCreate, a0, a1, [], none, ⟨[], []⟩, qpn.setWidth 32⟩)

/-- QP_DESTROY (R378). -/
def execQpDestroy (p : ThpFrom) (seq : BitVec 32) (a0 : Word) (s : State) : Res := .next (s.thpRequest p seq ⟨opQpDestroy, a0, 0, [], none, ⟨[], []⟩, 0⟩)

/-- MR_CREATE (R378): `rkey` is the key the device gives. -/
def execMrCreate (p : ThpFrom) (seq : BitVec 32) (a0 a1 : Word) (rkey : BitVec 32) (s : State) : Res :=
  .next (s.thpRequest p seq ⟨opMrCreate, a0, a1, [], none, ⟨[], []⟩, rkey⟩)

/-- MR_DESTROY (R378). -/
def execMrDestroy (p : ThpFrom) (seq : BitVec 32) (a0 : Word) (s : State) : Res := .next (s.thpRequest p seq ⟨opMrDestroy, a0, 0, [], none, ⟨[], []⟩, 0⟩)

/-- WARM_RESET (R405): the response leaves before the reset starts. -/
def execWarmReset (p : ThpFrom) (seq : BitVec 32) (s : State) : Res := .next (s.thpRequest p seq ⟨opWarm, 0, 0, [], none, ⟨[], []⟩, 0⟩)

/-- FW_WRITE (R423). -/
def execFwWrite (p : ThpFrom) (seq : BitVec 32) (a0 : Word) (data : Bytes) (s : State) : Res :=
  .next (s.thpRequest p seq ⟨opFwWrite, a0, 0, data, none, ⟨[], []⟩, 0⟩)

/-- FW_COMMIT (R423). -/
def execFwCommit (p : ThpFrom) (seq : BitVec 32) (a0 : Word) (s : State) : Res := .next (s.thpRequest p seq ⟨opFwCommit, a0, 0, [], none, ⟨[], []⟩, 0⟩)

/-- LOG_READ (R440). -/
def execLogRead (p : ThpFrom) (seq : BitVec 32) (a0 a1 : Word) (s : State) : Res := .next (s.thpRequest p seq ⟨opLogRead, a0, a1, [], none, ⟨[], []⟩, 0⟩)

/-- ATTEST (R428). -/
def execAttest (p : ThpFrom) (seq : BitVec 32) (nonce : Bytes) (s : State) : Res := .next (s.thpRequest p seq ⟨opAttest, 0, 0, nonce, none, ⟨[], []⟩, 0⟩)

/-- PORCH_EXIT (R419): the response leaves before the restart. -/
def execPorchExit (p : ThpFrom) (seq : BitVec 32) (s : State) : Res := .next (s.thpRequest p seq ⟨opPorchExit, 0, 0, [], none, ⟨[], []⟩, 0⟩)

/-- THP_DEVICE_RESPONSE (R370): whatever its STATUS, the request has its answer (log entry 104, DEDUCED). -/
def execThpDeviceResponse (sid seq : BitVec 32) (_status : BitVec 16) (s : State) : Res :=
  if !s.portUp ∨ s.bootBusy then .next s
  else .next (((s.count rThpRxCnt 1).modSession sid fun x => { x with devOut := x.devOut.filter fun d => d.seq != seq.toNat }).pump)

/-- DEVICE_REQUEST_RESEND (R370): after 16 sends the session is lost. -/
def execDeviceRequestResend (sid seq : BitVec 32) (s : State) : Res :=
  match (s.session sid).bind fun x => (x.devOut.find? fun d => d.seq == seq.toNat).map fun d => (x, d) with
  | none => .next s
  | some (x, d) =>
    if 16 ≤ d.sends then .next ((s.closeSession sid).emit (evr 0xF002 0x16 0)).pump
    else .next ((s.modSession sid fun x => { x with devOut := x.devOut.map fun e => if e.seq = d.seq then { e with sends := e.sends + 1 } else e }).sendOut x.cls
      (.thpDev (s.dest x.host) sid d.op d.seq d.a0 d.a1 d.data))

/-- SESSION_IDLE (R370). -/
def execSessionIdle (sid : BitVec 32) (s : State) : Res := .next (s.closeSession sid).pump

end Sys2Proof.Machine
end

