-- ==== Sys2Proof/Machine/Rdma.lean ====
section
/-! DEFINITION. Sys2Proof/Machine/Rdma.lean: the RoCEv2 responder (R377 to R379) and the Ethernet port (R368, R369, R383). -/

namespace Sys2Proof.Machine

/-! ### RoCEv2 -/

/-- NAK codes of this model: sequence error, invalid request, remote access error (R377, R379). -/
def nakSeq : Nat := 0
def nakInvalid : Nat := 1
def nakAccess : Nat := 2

def State.qp (s : State) (qpn : BitVec 24) : Option QpS := s.host.qps.find? fun x => x.qpn == qpn

def State.modQp (s : State) (qpn : BitVec 24) (f : QpS → QpS) : State :=
  { s with host := { s.host with qps := s.host.qps.map fun x => if x.qpn = qpn then f x else x } }

/-- A RoCEv2 packet of a queue pair goes out on its priority (R368, R378). -/
def State.roceOut (s : State) (x : QpS) (o : Out) : State := s.portOut x.prio.toNat o

/-- A NAK that puts the queue pair into its error state, with its record (R379). -/
def State.qpFail (s : State) (x : QpS) (code va : Nat) : State :=
  (((s.roceOut x (.roceNak (s.dest x.host) x.remote x.psn code)).count rRdmaNakCnt 1).modQp x.qpn fun y => { y with error := true, cur := none }).emit
    (evr 0x7009 0x16 0 x.qpn.toNat va)

/-- An ACK for everything received so far (R379). -/
def State.qpAck (s : State) (x : QpS) (psn : BitVec 24) : State := (s.roceOut x (.roceAck (s.dest x.host) x.remote psn)).modQp x.qpn fun y => { y with pendAck := 0 }

/-- A CNP for a packet that met congestion, at most one in 50 us (R379). -/
def State.qpCnp (s : State) (x : QpS) (ce : Bool) : State :=
  let due := match x.cnpAt with
    | some t => decide (50 * unitsUs ≤ s.now - t)
    | none => true
  if ce && due then (s.roceOut x (.cnp (s.dest x.host) x.remote)).modQp x.qpn fun y => { y with cnpAt := some s.now } else s

/-- What a write packet asks for: its key, its address, the bytes that the write still has at it, none where the packet does not fit the
write in progress or its length is not that of its opcode (R377, path MTU 4,096). -/
def rdmaWant (x : QpS) (p : RdmaPkt) : Option (BitVec 32 × Nat × Nat) :=
  let n := p.payload.length
  let d := p.dlen.toNat
  match p.opcode.toNat, x.cur with
  | 0x06, none => if n = 4096 ∧ 4096 < d then some (p.rkey, p.va.toNat, d) else none
  | 0x0A, none => if n = d ∧ d ≤ 4096 then some (p.rkey, p.va.toNat, d) else none
  | 0x07, some (k, va, left) => if n = 4096 ∧ 4096 < left then some (k, va, left) else none
  | 0x08, some (k, va, left) => if n = left ∧ 1 ≤ n ∧ n ≤ 4096 then some (k, va, left) else none
  | _, _ => none

/-- The bytes of a packet put in place through a memory region, none where the region does not take them (R378, R379) (log entry 124, DEDUCED). -/
def State.rdmaPut (s : State) (m : MrS) (va left : Nat) (data : Bytes) : Option State :=
  let n := data.length
  if m.doorbell then
    if left ≠ n ∨ (n ≠ 4 ∧ n ≠ 8) ∨ va % n ≠ 0 ∨ 512 ≤ va then none
    else some (nextOr s (execHrRingProdWrite .rdma ⟨va / 32 % 16, Nat.mod_lt _ (by decide)⟩ (BitVec.ofNat 32 (leNat data)) s))
  else if va < m.va ∨ m.va + 4096 * m.pages < va + left then none
  else match s.vWrite 0 m.ctx.val va data with
    | .ok t => some t
    | .error _ => none

/-- A packet with the expected PSN. -/
def State.rdmaNext (s : State) (x : QpS) (p : RdmaPkt) : State :=
  match rdmaWant x p with
  | none => s.qpFail x nakInvalid p.va.toNat
  | some (key, va, left) =>
    match (s.host.mrs.find? fun m => m.rkey == key).bind fun m => s.rdmaPut m va left p.payload with
    | none => s.qpFail x nakAccess va
    | some t =>
      let n := p.payload.length
      let t1 := t.modQp x.qpn fun y =>
        { y with psn := y.psn + 1, nakSent := false, cur := if left ≤ n then none else some (key, va + n, left - n), pendAck := y.pendAck + 1 }
      if 64 ≤ x.pendAck + 1 then t1.qpAck x x.psn else t1

/-- RDMA_WRITE (R377 to R379): dropped without a response where the ICRC or a checksum fails, outside the run phase, for a queue pair that is not there, or one in its error state (log entry 123, DEDUCED).
-/
def execRdmaWrite (qpn : BitVec 24) (p : RdmaPkt) (s : State) : Res :=
  if s.hearth.boot ≠ .run ∨ !p.intact ∨ !ethFits (32 + p.payload.length) then .next s
  else
    let s1 := s.count rRdmaRxCnt 1
    match s1.qp qpn with
    | none => .next s1
    | some x =>
      if x.error then .next s1
      else
        let s2 := s1.qpCnp x p.ce
        let d := (p.psn - x.psn).toNat
        if d = 0 then .next (s2.rdmaNext x p)
        else if 2 ^ 23 ≤ d then .next (s2.qpAck x (x.psn - 1))
        else if x.nakSent then .next s2
        else .next (((s2.roceOut x (.roceNak (s.dest x.host) x.remote x.psn nakSeq)).count rRdmaNakCnt 1).modQp qpn fun y => { y with nakSent := true })

/-- ACK_COALESCE (R379). -/
def execAckCoalesce (qpn : BitVec 24) (s : State) : Res :=
  match s.qp qpn with
  | some x => .next (if x.pendAck = 0 ∨ x.error then s else s.qpAck x (x.psn - 1))
  | none => .next s

/-! ### The Ethernet port -/

/-- The link-local address: fe80::/64 with the EUI-64 identifier of ETH_MAC (R368) (log entry 125, DEDUCED). -/
def State.linkLocal (s : State) : BitVec 128 :=
  let m := s.hearth.fuses.mac.toNat
  BitVec.ofNat 128 (0xFE80 * 2 ^ 112 + (m / 2 ^ 24 ^^^ 0x020000) * 2 ^ 40 + 0xFFFE * 2 ^ 24 + m % 2 ^ 24)

/-- ETH_IP6, none while the host has written none (R368, R383). -/
def State.globalAddr (s : State) : Option (BitVec 128) :=
  let a := BitVec.ofNat 128 ((s.reg rEthIp6Hi).toNat * 2 ^ 64 + (s.reg rEthIp6Lo).toNat)
  if a = 0 then none else some a

/-- NEIGHBOR_SOLICIT (R368). -/
def execNeighborSolicit (src : HostAddr) (target : BitVec 128) (s : State) : Res :=
  .next (if s.portUp && (target == s.linkLocal || s.globalAddr == some target) then s.portOut (Config.thpPrio 3).toNat (.neighborAdv (s.dest src) target)
    else s)

/-- PFC_RX (R368): a priority is paused for a number of quanta, 0 to resume it; what the port would send on a paused priority waits (log entry 191, DESIGN CHOICE). -/
def execPfcRx (prio : BitVec 3) (quanta : BitVec 16) (s : State) : Res :=
  if !s.portUp then .next s
  else
    let rest := s.host.paused.filter fun e => e.1 != prio.toNat
    .next ({ s with host := { s.host with paused := if quanta = 0 then rest else rest ++ [(prio.toNat, quanta.toNat, s.now)] } } : State).portRelease

/-- PCS_BLOCK_LOCK (R383). -/
def execPcsBlockLock (s : State) : Res := .next (if s.portUp then s.fput rEthStatus fEthStatusPcsUp 1 else s)

/-- PCS_BLOCK_LOCK_LOSS (R383). -/
def execPcsBlockLockLoss (s : State) : Res := .next (s.fput rEthStatus fEthStatusPcsUp 0)

/-- ETH_FRAME_DROP (R368, R369, R377, R383): counted where the spec has a counter for it (log entry 126, DEDUCED). A UDP payload for the THP port is
read by R369 and dropped where that says so. -/
def execEthFrameDrop (why : EthDrop) (s : State) : Res :=
  if !s.portUp then .next s
  else match why with
  | .badFcs => .next (s.count rEthFcsErrCnt 1)
  | .thpMalformed b => .next (if thpParse b = none then s.count rThpDropCnt 1 else s)
  | .badChecksum => .next s
  | .tooLong => .next s
  | .ipv4 => .next s
  | .extHeader => .next s
  | .otherPort => .next s

end Sys2Proof.Machine
end

