-- ==== Sys2Proof/Machine/Dispatch.lean ====
section
/-! DEFINITION. Sys2Proof/Machine/Dispatch.lean: one arm for each command of spec/opcode_table.json. -/

namespace Sys2Proof.Machine

def exec (i : Instr) (s : State) : Host.Outcome State Fault Refusal :=
  match i with
  | .bundleFetch c => Sys2Proof.Machine.execBundleFetch c s
  | .bundleIssue c => Sys2Proof.Machine.execBundleIssue c s
  | .br c cond sa off => Sys2Proof.Machine.execBr c cond sa off s
  | .jmp c target => Sys2Proof.Machine.execJmp c target s
  | .jmpr c sa => Sys2Proof.Machine.execJmpr c sa s
  | .call c target => Sys2Proof.Machine.execCall c target s
  | .callr c sa => Sys2Proof.Machine.execCallr c sa s
  | .loop c src sa icount len => Sys2Proof.Machine.execLoop c src sa icount len s
  | .lbrk c => Sys2Proof.Machine.execLbrk c s
  | .stepend c => Sys2Proof.Machine.execStepend c s
  | .exit c => Sys2Proof.Machine.execExit c s
  | .brkpt c => Sys2Proof.Machine.execBrkpt c s
  | .stependRetire c => Sys2Proof.Machine.execStependRetire c s
  | .contextStepBoundary k => Sys2Proof.Machine.execContextStepBoundary k s
  | .deviceStepBoundary => Sys2Proof.Machine.execDeviceStepBoundary s
  | .joinTimeout k => Sys2Proof.Machine.execJoinTimeout k s
  | .add c sd sa sb => Sys2Proof.Machine.execAdd c sd sa sb s
  | .sub c sd sa sb => Sys2Proof.Machine.execSub c sd sa sb s
  | .and c sd sa sb => Sys2Proof.Machine.execAnd c sd sa sb s
  | .or c sd sa sb => Sys2Proof.Machine.execOr c sd sa sb s
  | .xor c sd sa sb => Sys2Proof.Machine.execXor c sd sa sb s
  | .shl c sd sa sb => Sys2Proof.Machine.execShl c sd sa sb s
  | .shr c sd sa sb => Sys2Proof.Machine.execShr c sd sa sb s
  | .sra c sd sa sb => Sys2Proof.Machine.execSra c sd sa sb s
  | .slt c sd sa sb => Sys2Proof.Machine.execSlt c sd sa sb s
  | .sltu c sd sa sb => Sys2Proof.Machine.execSltu c sd sa sb s
  | .seq c sd sa sb => Sys2Proof.Machine.execSeq c sd sa sb s
  | .min c sd sa sb => Sys2Proof.Machine.execMin c sd sa sb s
  | .max c sd sa sb => Sys2Proof.Machine.execMax c sd sa sb s
  | .addi c sd sa imm => Sys2Proof.Machine.execAddi c sd sa imm s
  | .andi c sd sa imm => Sys2Proof.Machine.execAndi c sd sa imm s
  | .ori c sd sa imm => Sys2Proof.Machine.execOri c sd sa imm s
  | .xori c sd sa imm => Sys2Proof.Machine.execXori c sd sa imm s
  | .shli c sd sa imm => Sys2Proof.Machine.execShli c sd sa imm s
  | .shri c sd sa imm => Sys2Proof.Machine.execShri c sd sa imm s
  | .srai c sd sa imm => Sys2Proof.Machine.execSrai c sd sa imm s
  | .slti c sd sa imm => Sys2Proof.Machine.execSlti c sd sa imm s
  | .movi c sd imm => Sys2Proof.Machine.execMovi c sd imm s
  | .insh c sd k imm => Sys2Proof.Machine.execInsh c sd k imm s
  | .rdsp c sd sel => Sys2Proof.Machine.execRdsp c sd sel s
  | .tcfg c tn sa => Sys2Proof.Machine.execTcfg c tn sa s
  | .mul c sd sa sb => Sys2Proof.Machine.execMul c sd sa sb s
  | .mulh c sd sa sb => Sys2Proof.Machine.execMulh c sd sa sb s
  | .mulhu c sd sa sb => Sys2Proof.Machine.execMulhu c sd sa sb s
  | .div c sd sa sb => Sys2Proof.Machine.execDiv c sd sa sb s
  | .divu c sd sa sb => Sys2Proof.Machine.execDivu c sd sa sb s
  | .rem c sd sa sb => Sys2Proof.Machine.execRem c sd sa sb s
  | .remu c sd sa sb => Sys2Proof.Machine.execRemu c sd sa sb s
  | .fadd c sd sa sb => Sys2Proof.Machine.execFadd c sd sa sb s
  | .fmul c sd sa sb => Sys2Proof.Machine.execFmul c sd sa sb s
  | .ffma c sd sa sb => Sys2Proof.Machine.execFfma c sd sa sb s
  | .fcvti c sd sa => Sys2Proof.Machine.execFcvti c sd sa s
  | .icvtf c sd sa => Sys2Proof.Machine.execIcvtf c sd sa s
  | .tld c t n sb ss off => Sys2Proof.Machine.execTld c t n sb ss off s
  | .tst c t n sb ss off => Sys2Proof.Machine.execTst c t n sb ss off s
  | .tcpy c td n ts => Sys2Proof.Machine.execTcpy c td n ts s
  | .msnd c ts n flow ct => Sys2Proof.Machine.execMsnd c ts n flow ct s
  | .msndComplete c flow => Sys2Proof.Machine.execMsndComplete c flow s
  | .mbind c flow ct sb ss sn => Sys2Proof.Machine.execMbind c flow ct sb ss sn s
  | .slnch c sb off => Sys2Proof.Machine.execSlnch c sb off s
  | .sld c sd sb w sx off => Sys2Proof.Machine.execSld c sd sb w sx off s
  | .sst c sa sb w off => Sys2Proof.Machine.execSst c sa sb w off s
  | .vld c vd sb off => Sys2Proof.Machine.execVld c vd sb off s
  | .vst c va sb off => Sys2Proof.Machine.execVst c va sb off s
  | .pass c ta tw td n rate keep chain => Sys2Proof.Machine.execPass c ta tw td n rate keep chain s
  | .passCheck c upsets => Sys2Proof.Machine.execPassCheck c upsets s
  | .astat c sd => Sys2Proof.Machine.execAstat c sd s
  | .vadd c vd va vb => Sys2Proof.Machine.execVadd c vd va vb s
  | .vsub c vd va vb => Sys2Proof.Machine.execVsub c vd va vb s
  | .vmul c vd va vb => Sys2Proof.Machine.execVmul c vd va vb s
  | .vfma c vd va vb vc => Sys2Proof.Machine.execVfma c vd va vb vc s
  | .vcmp c vd va vb cond => Sys2Proof.Machine.execVcmp c vd va vb cond s
  | .vsel c vd va vb vc => Sys2Proof.Machine.execVsel c vd va vb vc s
  | .vand c vd va vb => Sys2Proof.Machine.execVand c vd va vb s
  | .vor c vd va vb => Sys2Proof.Machine.execVor c vd va vb s
  | .vxor c vd va vb => Sys2Proof.Machine.execVxor c vd va vb s
  | .vmin c vd va vb => Sys2Proof.Machine.execVmin c vd va vb s
  | .vmax c vd va vb => Sys2Proof.Machine.execVmax c vd va vb s
  | .vbcast c vd sx => Sys2Proof.Machine.execVbcast c vd sx s
  | .vext c sx va lane => Sys2Proof.Machine.execVext c sx va lane s
  | .vexp c vd va => Sys2Proof.Machine.execVexp c vd va s
  | .vlog c vd va => Sys2Proof.Machine.execVlog c vd va s
  | .vrcp c vd va => Sys2Proof.Machine.execVrcp c vd va s
  | .vrsq c vd va => Sys2Proof.Machine.execVrsq c vd va s
  | .vtanh c vd va => Sys2Proof.Machine.execVtanh c vd va s
  | .vrsum c vd va => Sys2Proof.Machine.execVrsum c vd va s
  | .vrmax c vd va => Sys2Proof.Machine.execVrmax c vd va s
  | .tvop c td ta n func vb vc bsrc cond => Sys2Proof.Machine.execTvop c td ta n func vb vc bsrc cond s
  | .tred c vd ta n kind vb => Sys2Proof.Machine.execTred c vd ta n kind vb s
  | .post c sc mode imm => Sys2Proof.Machine.execPost c sc mode imm s
  | .wait c sc mode consume imm => Sys2Proof.Machine.execWait c sc mode consume imm s
  | .gpost c sa mode imm => Sys2Proof.Machine.execGpost c sa mode imm s
  | .gwait c sa mode consume imm => Sys2Proof.Machine.execGwait c sa mode consume imm s
  | .gwatch c sa sv sc cond => Sys2Proof.Machine.execGwatch c sa sv sc cond s
  | .syncClockGate c => Sys2Proof.Machine.execSyncClockGate c s
  | .syncTimeout c => Sys2Proof.Machine.execSyncTimeout c s
  | .coreHalt c => Sys2Proof.Machine.execCoreHalt c s
  | .coreResume c => Sys2Proof.Machine.execCoreResume c s
  | .coreStep c => Sys2Proof.Machine.execCoreStep c s
  | .coreStop c => Sys2Proof.Machine.execCoreStop c s
  | .contextSave c => Sys2Proof.Machine.execContextSave c s
  | .contextRestore p => Sys2Proof.Machine.execContextRestore p s
  | .descriptorStart c => Sys2Proof.Machine.execDescriptorStart c s
  | .stagingAcquire c e => Sys2Proof.Machine.execStagingAcquire c e s
  | .stagingPhase2 c e => Sys2Proof.Machine.execStagingPhase2 c e s
  | .stackCacheRequest c e va kind adv a => Sys2Proof.Machine.execStackCacheRequest c e va kind adv a s
  | .missFill k line ecc => Sys2Proof.Machine.execMissFill k line ecc s
  | .hbmSlowBank k bank => Sys2Proof.Machine.execHbmSlowBank k bank s
  | .patrolScrub k line ecc => Sys2Proof.Machine.execPatrolScrub k line ecc s
  | .tableWalk c e va access => Sys2Proof.Machine.execTableWalk c e va access s
  | .descriptorComplete c e => Sys2Proof.Machine.execDescriptorComplete c e s
  | .streamTimeout c e => Sys2Proof.Machine.execStreamTimeout c e s
  | .cellarFillStart c e => Sys2Proof.Machine.execCellarFillStart c e s
  | .cellarDrainStart c e => Sys2Proof.Machine.execCellarDrainStart c e s
  | .cellarTagCheck c e => Sys2Proof.Machine.execCellarTagCheck c e s
  | .meshBeat c inp lane2 data ecc => Sys2Proof.Machine.execMeshBeat c inp lane2 data ecc s
  | .bellHop m errs => Sys2Proof.Machine.execBellHop m errs s
  | .semAdd src k vsem addend => Sys2Proof.Machine.execSemAdd src k vsem addend s
  | .semWait c k mode consume vsem value => Sys2Proof.Machine.execSemWait c k mode consume vsem value s
  | .semWatch c k cond sc vsem value => Sys2Proof.Machine.execSemWatch c k cond sc vsem value s
  | .semValueWrite r p v => Sys2Proof.Machine.execSemValueWrite r p v s
  | .wake c k orphan => Sys2Proof.Machine.execWake c k orphan s
  | .watchFire c k sc orphan => Sys2Proof.Machine.execWatchFire c k sc orphan s
  | .cntPost c k sc count => Sys2Proof.Machine.execCntPost c k sc count s
  | .preempt c k act => Sys2Proof.Machine.execPreempt c k act s
  | .stopDone c k => Sys2Proof.Machine.execStopDone c k s
  | .bellFault src k code pc param => Sys2Proof.Machine.execBellFault src k code pc param s
  | .linkSignalDetect n => Sys2Proof.Machine.execLinkSignalDetect n s
  | .linkTrainDone n => Sys2Proof.Machine.execLinkTrainDone n s
  | .linkTrainTimeout n => Sys2Proof.Machine.execLinkTrainTimeout n s
  | .linkAlignDone n => Sys2Proof.Machine.execLinkAlignDone n s
  | .linkAlignTimeout n => Sys2Proof.Machine.execLinkAlignTimeout n s
  | .linkIdentTimeout n => Sys2Proof.Machine.execLinkIdentTimeout n s
  | .linkDownExpiry n => Sys2Proof.Machine.execLinkDownExpiry n s
  | .linkLossOfSignal n lock => Sys2Proof.Machine.execLinkLossOfSignal n lock s
  | .linkNoCodeword n => Sys2Proof.Machine.execLinkNoCodeword n s
  | .linkCodewordRx n corrected bad => Sys2Proof.Machine.execLinkCodewordRx n corrected bad s
  | .linkFrameTx n => Sys2Proof.Machine.execLinkFrameTx n s
  | .linkFrameRx n frame => Sys2Proof.Machine.execLinkFrameRx n frame s
  | .mgmtIdent n dev plink ready nuore digest => Sys2Proof.Machine.execMgmtIdent n dev plink ready nuore digest s
  | .mgmtProbe n stamp => Sys2Proof.Machine.execMgmtProbe n stamp s
  | .mgmtEcho n stamp => Sys2Proof.Machine.execMgmtEcho n stamp s
  | .mgmtClose n => Sys2Proof.Machine.execMgmtClose n s
  | .mgmtStart n => Sys2Proof.Machine.execMgmtStart n s
  | .linkEgressBeat n lane data => Sys2Proof.Machine.execLinkEgressBeat n lane data s
  | .linkIngressRelease n lane => Sys2Proof.Machine.execLinkIngressRelease n lane s
  | .mcastStall n flow => Sys2Proof.Machine.execMcastStall n flow s
  | .kflSemAdd n dst src group vsem addend => Sys2Proof.Machine.execKflSemAdd n dst src group vsem addend s
  | .kflSemWatch n dst src group vsem rlink rtag cond value => Sys2Proof.Machine.execKflSemWatch n dst src group vsem rlink rtag cond value s
  | .kflWatchFire n dst src rlink rtag orphan => Sys2Proof.Machine.execKflWatchFire n dst src rlink rtag orphan s
  | .linkRouterWatch n c k sc cond dev vsem value => Sys2Proof.Machine.execLinkRouterWatch n c k sc cond dev vsem value s
  | .tagQuarantineEnd n tag => Sys2Proof.Machine.execTagQuarantineEnd n tag s
  | .linkOpen n => Sys2Proof.Machine.execLinkOpen n s
  | .linkClose n => Sys2Proof.Machine.execLinkClose n s
  | .linkRetrain n => Sys2Proof.Machine.execLinkRetrain n s
  | .linkEnable n => Sys2Proof.Machine.execLinkEnable n s
  | .linkDisable n => Sys2Proof.Machine.execLinkDisable n s
  | .quernLocalHeader n hdr tile => Sys2Proof.Machine.execQuernLocalHeader n hdr tile s
  | .quernRetainCommit n tag tile => Sys2Proof.Machine.execQuernRetainCommit n tag tile s
  | .quernRecordRx n hdr data => Sys2Proof.Machine.execQuernRecordRx n hdr data s
  | .ack n m => Sys2Proof.Machine.execAck n m s
  | .retry n m => Sys2Proof.Machine.execRetry n m s
  | .norm n m => Sys2Proof.Machine.execNorm n m s
  | .verdict n m => Sys2Proof.Machine.execVerdict n m s
  | .quernGatherStart n => Sys2Proof.Machine.execQuernGatherStart n s
  | .quernGatherRx n hdr data => Sys2Proof.Machine.execQuernGatherRx n hdr data s
  | .hrRingProdWrite r k v => Sys2Proof.Machine.execHrRingProdWrite r k v s
  | .hrRingEnable r k v => Sys2Proof.Machine.execHrRingEnable r k v s
  | .clipStart => Sys2Proof.Machine.execClipStart s
  | .clipIndexDone k ix => Sys2Proof.Machine.execClipIndexDone k ix s
  | .sampleDispatch ix e => Sys2Proof.Machine.execSampleDispatch ix e s
  | .sampleReady ix e => Sys2Proof.Machine.execSampleReady ix e s
  | .sampleDrop ix e => Sys2Proof.Machine.execSampleDrop ix e s
  | .pfcRepeat => Sys2Proof.Machine.execPfcRepeat s
  | .millpondRelease => Sys2Proof.Machine.execMillpondRelease s
  | .exchangeRecordLand n hdr data => Sys2Proof.Machine.execExchangeRecordLand n hdr data s
  | .voteReady g => Sys2Proof.Machine.execVoteReady g s
  | .vote n m => Sys2Proof.Machine.execVote n m s
  | .commit n m => Sys2Proof.Machine.execCommit n m s
  | .ckptSelfCopyDone g => Sys2Proof.Machine.execCkptSelfCopyDone g s
  | .ckptRecordLand n hdr data => Sys2Proof.Machine.execCkptRecordLand n hdr data s
  | .commitTimeout g => Sys2Proof.Machine.execCommitTimeout g s
  | .groupFault n m => Sys2Proof.Machine.execGroupFault n m s
  | .rollback n m => Sys2Proof.Machine.execRollback n m s
  | .phaseDone n m => Sys2Proof.Machine.execPhaseDone n m s
  | .guardExpiry g => Sys2Proof.Machine.execGuardExpiry g s
  | .phaseGo n m => Sys2Proof.Machine.execPhaseGo n m s
  | .memberLossConfirm g x => Sys2Proof.Machine.execMemberLossConfirm g x s
  | .rebuild n m => Sys2Proof.Machine.execRebuild n m s
  | .seed n m => Sys2Proof.Machine.execSeed n m s
  | .ckptReq r g => Sys2Proof.Machine.execCkptReq r g s
  | .thpDeviceResponse sid seq status => Sys2Proof.Machine.execThpDeviceResponse sid seq status s
  | .deviceRequestResend sid seq => Sys2Proof.Machine.execDeviceRequestResend sid seq s
  | .sessionIdle sid => Sys2Proof.Machine.execSessionIdle sid s
  | .thpOpen h a0 a1 sid => Sys2Proof.Machine.execThpOpen h a0 a1 sid s
  | .thpClose sid seq => Sys2Proof.Machine.execThpClose sid seq s
  | .info h => Sys2Proof.Machine.execInfo h s
  | .read sid seq a0 a1 => Sys2Proof.Machine.execRead sid seq a0 a1 s
  | .write sid seq a0 data => Sys2Proof.Machine.execWrite sid seq a0 data s
  | .load sid seq a0 a1 img env => Sys2Proof.Machine.execLoad sid seq a0 a1 img env s
  | .thpStart sid seq a0 => Sys2Proof.Machine.execThpStart sid seq a0 s
  | .thpStop sid seq a0 => Sys2Proof.Machine.execThpStop sid seq a0 s
  | .resume sid seq a0 => Sys2Proof.Machine.execResume sid seq a0 s
  | .endCtx sid seq a0 => Sys2Proof.Machine.execEndCtx sid seq a0 s
  | .gridBuild sid seq a0 env => Sys2Proof.Machine.execGridBuild sid seq a0 env s
  | .qpCreate sid seq a0 a1 qpn => Sys2Proof.Machine.execQpCreate sid seq a0 a1 qpn s
  | .qpDestroy sid seq a0 => Sys2Proof.Machine.execQpDestroy sid seq a0 s
  | .mrCreate sid seq a0 a1 rkey => Sys2Proof.Machine.execMrCreate sid seq a0 a1 rkey s
  | .mrDestroy sid seq a0 => Sys2Proof.Machine.execMrDestroy sid seq a0 s
  | .warmReset sid seq => Sys2Proof.Machine.execWarmReset sid seq s
  | .fwWrite sid seq a0 data => Sys2Proof.Machine.execFwWrite sid seq a0 data s
  | .fwCommit sid seq a0 => Sys2Proof.Machine.execFwCommit sid seq a0 s
  | .logRead sid seq a0 a1 => Sys2Proof.Machine.execLogRead sid seq a0 a1 s
  | .attest sid seq nonce => Sys2Proof.Machine.execAttest sid seq nonce s
  | .porchExit sid seq => Sys2Proof.Machine.execPorchExit sid seq s
  | .rdmaWrite qpn pkt => Sys2Proof.Machine.execRdmaWrite qpn pkt s
  | .ackCoalesce qpn => Sys2Proof.Machine.execAckCoalesce qpn s
  | .neighborSolicit src target => Sys2Proof.Machine.execNeighborSolicit src target s
  | .pfcRx prio quanta => Sys2Proof.Machine.execPfcRx prio quanta s
  | .trInval r h v => Sys2Proof.Machine.execTrInval r h v s
  | .trInvalDone => Sys2Proof.Machine.execTrInvalDone s
  | .strmEntryWrite r c e second v => Sys2Proof.Machine.execStrmEntryWrite r c e second v s
  | .cntCtlClear r c v => Sys2Proof.Machine.execCntCtlClear r c v s
  | .arrCntClear r c => Sys2Proof.Machine.execArrCntClear r c s
  | .edgeCtlClear r a => Sys2Proof.Machine.execEdgeCtlClear r a s
  | .registerWrite r a wide v => Sys2Proof.Machine.execRegisterWrite r a wide v s
  | .gearSelect => Sys2Proof.Machine.execGearSelect s
  | .pllLock d => Sys2Proof.Machine.execPllLock d s
  | .coreClockStart => Sys2Proof.Machine.execCoreClockStart s
  | .pllLockFail d => Sys2Proof.Machine.execPllLockFail d s
  | .gatingBucket => Sys2Proof.Machine.execGatingBucket s
  | .gateLevelApply h => Sys2Proof.Machine.execGateLevelApply h s
  | .thermalHot ix temp => Sys2Proof.Machine.execThermalHot ix temp s
  | .hotClear => Sys2Proof.Machine.execHotClear s
  | .throttleAssert => Sys2Proof.Machine.execThrottleAssert s
  | .throttleRelease => Sys2Proof.Machine.execThrottleRelease s
  | .clkRefLoss => Sys2Proof.Machine.execClkRefLoss s
  | .refRetry r present => Sys2Proof.Machine.execRefRetry r present s
  | .g0Doze => Sys2Proof.Machine.execG0Doze s
  | .energySample e => Sys2Proof.Machine.execEnergySample e s
  | .inputRange vin iin high => Sys2Proof.Machine.execInputRange vin iin high s
  | .powerTrip cause => Sys2Proof.Machine.execPowerTrip cause s
  | .tripHoldEnd => Sys2Proof.Machine.execTripHoldEnd s
  | .hearthPowerLoss => Sys2Proof.Machine.execHearthPowerLoss s
  | .powerOn => Sys2Proof.Machine.execPowerOn s
  | .powerGood env => Sys2Proof.Machine.execPowerGood env s
  | .startStable => Sys2Proof.Machine.execStartStable s
  | .selfRestart => Sys2Proof.Machine.execSelfRestart s
  | .modResetN => Sys2Proof.Machine.execModResetN s
  | .watchdog => Sys2Proof.Machine.execWatchdog s
  | .wdtKick r => Sys2Proof.Machine.execWdtKick r s
  | .hallRstReq r mask => Sys2Proof.Machine.execHallRstReq r mask s
  | .hallReset h => Sys2Proof.Machine.execHallReset h s
  | .bootReq n => Sys2Proof.Machine.execBootReq n s
  | .bootData idx v => Sys2Proof.Machine.execBootData idx v s
  | .bootEnd refused len env => Sys2Proof.Machine.execBootEnd refused len env s
  | .neighbourBootTimeout => Sys2Proof.Machine.execNeighbourBootTimeout s
  | .evrAccept => Sys2Proof.Machine.execEvrAccept s
  | .flashProgram => Sys2Proof.Machine.execFlashProgram s
  | .calSet r v => Sys2Proof.Machine.execCalSet r v s
  | .evrFlush r => Sys2Proof.Machine.execEvrFlush r s
  | .diagSnapFreeze r on => Sys2Proof.Machine.execDiagSnapFreeze r on s
  | .diagSnapApply => Sys2Proof.Machine.execDiagSnapApply s
  | .dumpReq r => Sys2Proof.Machine.execDumpReq r s
  | .dumpArm r => Sys2Proof.Machine.execDumpArm r s
  | .dumpDone us => Sys2Proof.Machine.execDumpDone us s
  | .pcsBlockLock => Sys2Proof.Machine.execPcsBlockLock s
  | .pcsBlockLockLoss => Sys2Proof.Machine.execPcsBlockLockLoss s
  | .ethFrameDrop why => Sys2Proof.Machine.execEthFrameDrop why s
  | .returnedMessage c k m => Sys2Proof.Machine.execReturnedMessage c k m s
  | .decodeEngineReady => Sys2Proof.Machine.execDecodeEngineReady s
  | .sensorAtG4C ix temp => Sys2Proof.Machine.execSensorAtG4C ix temp s

end Sys2Proof.Machine
end

