-- ==== Sys2Proof/Machine/Step.lean ====
section
/-! DEFINITION. Sys2Proof/Machine/Step.lean: one step of the block: the command at the front of its queue, or, on an empty queue, the passing of time. -/

namespace Sys2Proof.Machine

/-- What the block does when no command waits: the next cycle of the core clock, or of the Hearth while the core clocks stand
(assumption 5), and packets that wait to be sent leave. -/
def State.idle (s : State) : State := s.tick.pump

/-- One step (log entry 5, DESIGN CHOICE; log entry 18, DESIGN CHOICE). -/
def step (s : State) : Host.Outcome State Fault Refusal :=
  match s.pending with
  | [] => .next s.idle
  | c :: rest => exec c { s with pending := rest }

/-- The command that a word spells, put at the front of the queue. No row of the table has bits, so no word spells one (log entry 15, DESIGN CHOICE).
-/
def State.withFetchWord (s : State) (nbits w : Nat) : State :=
  match decodeTableWord nbits w with
  | some c => { s with pending := c :: s.pending }
  | none => s

end Sys2Proof.Machine
end

