-- ==== Sys2Proof/Safety.lean ====
section
/-! DEFINITION. Sys2Proof/Safety.lean: the canonical form of a state, and the words in which the statements say that a command completes, what it leaves as it was, and when a core can issue. -/

namespace Sys2Proof.Machine

/-- Every sparse map of the state is in canonical form: keys strictly rising, and no entry equal to what an unlisted key reads as. A safe
run keeps it, so that equal contents are equal data. -/
def State.canon (s : State) : Prop :=
  swf regReset s.regs = true ∧ Memory.wf s.mem = true ∧ swf (fun _ => (0xFF : Byte)) s.flash = true

/-- The command answers a next state, and `P` holds of it. -/
def Runs (i : Instr) (s : State) (P : State → Prop) : Prop := ∃ t, exec i s = .next t ∧ P t

/-- Every register outside `A` reads as before. -/
def RegsBut (A : Nat → Prop) (s t : State) : Prop := ∀ a, ¬ A a → t.reg a = s.reg a

/-- Every register reads as before. -/
def SameRegs (s t : State) : Prop := ∀ a, t.reg a = s.reg a

/-- Every byte of HBM, core stores and tile files reads as before. -/
def SameMem (s t : State) : Prop := ∀ a, t.rdB a = s.rdB a

/-- Every byte outside the `n` bytes from `lo` reads as before. -/
def MemBut (lo n : Nat) (s t : State) : Prop := ∀ a, (a < lo ∨ lo + n ≤ a) → t.rdB a = s.rdB a

/-- The core can issue (it runs, no stop has been asked for, it holds no step-end marker and waits in no GWAIT), and no operation of
an earlier stop waits there to be restarted. -/
def Ready (s : State) (c : CoreId) : Prop := s.canIssue c = true ∧ (s.core c).restart = []

/-- The register `a` takes the value `v`; every other register and all memory stay as they were. -/
def WritesReg (a : Nat) (v : Word) (s t : State) : Prop := t.reg a = v ∧ RegsBut (· = a) s t ∧ SameMem s t

/-- V`k` of the core takes the value `b`; every other register and all memory stay as they were. -/
def WritesV (c : CoreId) (k : BitVec 4) (b : Bytes) (s t : State) : Prop :=
  t.vreg c k = b ∧ RegsBut (fun a => ∃ m, m < 16 ∧ a = rV c k.toNat m) s t ∧ SameMem s t

/-- Nothing that software can read changes: registers, memory, flash. -/
def Quiet (s t : State) : Prop := SameRegs s t ∧ SameMem s t ∧ t.flash = s.flash

/-- The device answers THP packets, the host pauses no priority, and nothing of the device's own waits to be sent to the host: no notice, no frame of a
paused priority, no trickle. -/
def HostQuiet (s : State) : Prop :=
  s.portUp = true ∧ s.bootBusy = false ∧ s.host.notices = [] ∧ s.host.held = [] ∧ (∀ p, s.pausedNow p = false) ∧ ∀ g, (s.group g).trickle = none

/-- The control session takes the request numbered `seq` now (R370): it is the one the session expects, and no request waits behind it. -/
def Takes (s : State) (x : Session) (seq : BitVec 32) : Prop :=
  HostQuiet s ∧ s.inPorch = false ∧ s.session x.sid = some x ∧ x.cls = 0 ∧ seq.toNat = x.expect ∧ x.waiting = []

/-- The counters of THP packets. -/
def thpCounter (a : Nat) : Prop := a = rThpRxCnt ∨ a = rThpTxCnt

/-- The core whose bundle holds the instruction; none for a command that is not an instruction of a slot. -/
def slotCore : Instr → Option CoreId
  | .br c .. => some c
  | .jmp c .. => some c
  | .jmpr c .. => some c
  | .call c .. => some c
  | .callr c .. => some c
  | .loop c .. => some c
  | .lbrk c => some c
  | .stepend c => some c
  | .exit c => some c
  | .brkpt c => some c
  | .add c .. => some c
  | .sub c .. => some c
  | .and c .. => some c
  | .or c .. => some c
  | .xor c .. => some c
  | .shl c .. => some c
  | .shr c .. => some c
  | .sra c .. => some c
  | .slt c .. => some c
  | .sltu c .. => some c
  | .seq c .. => some c
  | .min c .. => some c
  | .max c .. => some c
  | .addi c .. => some c
  | .andi c .. => some c
  | .ori c .. => some c
  | .xori c .. => some c
  | .shli c .. => some c
  | .shri c .. => some c
  | .srai c .. => some c
  | .slti c .. => some c
  | .movi c .. => some c
  | .insh c .. => some c
  | .rdsp c .. => some c
  | .tcfg c .. => some c
  | .mul c .. => some c
  | .mulh c .. => some c
  | .mulhu c .. => some c
  | .div c .. => some c
  | .divu c .. => some c
  | .rem c .. => some c
  | .remu c .. => some c
  | .fadd c .. => some c
  | .fmul c .. => some c
  | .ffma c .. => some c
  | .fcvti c .. => some c
  | .icvtf c .. => some c
  | .tld c .. => some c
  | .tst c .. => some c
  | .tcpy c .. => some c
  | .msnd c .. => some c
  | .mbind c .. => some c
  | .slnch c .. => some c
  | .sld c .. => some c
  | .sst c .. => some c
  | .vld c .. => some c
  | .vst c .. => some c
  | .pass c .. => some c
  | .astat c .. => some c
  | .vadd c .. => some c
  | .vsub c .. => some c
  | .vmul c .. => some c
  | .vfma c .. => some c
  | .vcmp c .. => some c
  | .vsel c .. => some c
  | .vand c .. => some c
  | .vor c .. => some c
  | .vxor c .. => some c
  | .vmin c .. => some c
  | .vmax c .. => some c
  | .vbcast c .. => some c
  | .vext c .. => some c
  | .vexp c .. => some c
  | .vlog c .. => some c
  | .vrcp c .. => some c
  | .vrsq c .. => some c
  | .vtanh c .. => some c
  | .vrsum c .. => some c
  | .vrmax c .. => some c
  | .tvop c .. => some c
  | .tred c .. => some c
  | .post c .. => some c
  | .wait c .. => some c
  | .gpost c .. => some c
  | .gwait c .. => some c
  | .gwatch c .. => some c
  | _ => none

end Sys2Proof.Machine
end

