-- ==== Sys2Proof/Certificates/Slice0/Obligations.lean ====
section
/-! DEFINITION. Sys2Proof/Certificates/Slice0/Obligations.lean: the statements for the provers. -/

open Sys2Proof Sys2Proof.Machine

/-! ### The block as a whole -/

/-- Step takes the command at the front of the queue and runs exec on the state with the queue's rest; with no command waiting it answers the state
after one idle cycle (log entry 5: that an empty queue lets time pass is the model's choice). Every command completes: no command, whatever its
operands and whatever the state, ends in a fault or a refusal. -/
def Obligations.StepRunsFrontCommand : Prop :=
  (∀ (c : Instr) (rest : List Instr) (s : State), step { s with pending := c :: rest } = exec c { s with pending := rest }) ∧
  (∀ s : State, s.pending = [] → step s = .next s.idle) ∧
  ∀ (i : Instr) (s : State), Runs i s (fun _ => True)

/-- After power-on every register holds its reset value (R10), no memory byte and no line is written or poisoned, no command waits, no core is
running, and every sparse map is in canonical form. What memory that nothing has written reads as is the model's choice (log entry 3). -/
def Obligations.PowerOnHoldsResetValues : Prop :=
  ((∀ a, State.reset.reg a = regReset a) ∧ (∀ a, State.reset.rdB a = 0) ∧ State.reset.poison = [] ∧ State.reset.pending = [] ∧
  ∀ c : CoreId, State.reset.run c = false ∧ State.reset.canIssue c = false) ∧
  (State.reset.canon)

/-- Every step keeps the canonical form of the register file, of memory and of the flash, whatever command it runs and whatever state it starts from. -/
def Obligations.StepsKeepCanonicalForms : Prop := ∀ s t : State, s.canon → step s = .next t → t.canon

/-- An instruction with a reserved encoding, on a core that can issue, raises ILLEGAL_INSTR (R131): CORE_STATUS.FAULT holds 0x100B. An instruction's
row does nothing on a core that cannot issue: one that does not run, has been asked to stop, holds a step-end marker or waits in a GWAIT (R67,
R137, R224). (Log entry 16: an instruction's row takes its whole effect at once.) -/
def Obligations.UnissuedInstructions : Prop :=
  (∀ (i : Instr) (c : CoreId) (s : State), slotCore i = some c → i.wf = false → s.canIssue c = true →
    Runs i s (fun t => t.fget (rCoreStatus c) fCoreStatusFault = 0x100B)) ∧
  (∀ (i : Instr) (c : CoreId) (s : State), slotCore i = some c → s.canIssue c = false → exec i s = .next s)

/-- Decoding undoes encoding in every slot of the bundle (R129, R135 to R146): an instruction whose fields hold assigned encodings comes back from its
slot's bits with every operand, and its bits fit the slot. -/
def Obligations.SlotDecodingUndoesEncoding : Prop :=
  ∀ (i : Instr) (w : Nat), i.wf = true →
    (encCtl i = some w → w < 2 ^ 32 ∧ ∃ c, decCtl c w = some i) ∧
    (encScl i = some w → w < 2 ^ 32 ∧ ∃ c, decScl c w = some i) ∧
    (encMov i = some w → w < 2 ^ 48 ∧ ∃ c, decMov c w = some i) ∧
    (encArr i = some w → w < 2 ^ 48 ∧ ∃ c, decArr c w = some i) ∧
    (encVec i = some w → w < 2 ^ 48 ∧ ∃ c, decVec c w = some i) ∧
    (encSyn i = some w → w < 2 ^ 32 ∧ ∃ c, decSyn c w = some i)

/-- The worked bundle of chapter 6 decodes to its three instructions, in slot order: TLD of T5, PASS of T4 and T8 into T40, POST to SC3. -/
def Obligations.WorkedBundleDecodes : Prop :=
  ∀ c : CoreId, decBundle c (BitVec.ofNat 256 (leNat
      [0x2C, 0x40, 0x00, 0x00, 0x00, 0x00, 0x00, 0x00, 0x00, 0x00, 0x00, 0x10, 0x50, 0x08, 0x58, 0x04,
       0x00, 0x00, 0x80, 0x28, 0x42, 0x04, 0x00, 0x00, 0x00, 0x00, 0x00, 0x00, 0x01, 0x00, 0x30, 0x04])) =
    some [.tld c 5 32 4 5 0x100, .pass c 4 8 40 32 0 false false, .post c 3 0 1]

/-! ### The SCL slot -/

/-- Register forms of the SCL slot (R138, R139): each writes its result to S[SD] and changes no other register and no memory. (Log entry 16: an
instruction's row takes its whole effect at once.) -/
def Obligations.ScalarRegisterForms : Prop :=
  ∀ (s : State) (c : CoreId) (sd sa sb : BitVec 5), Ready s c →
    let a := s.sreg c sa
    let b := s.sreg c sb
    let puts := fun v => WritesReg (rS c sd.toNat) v s
    Runs (.add c sd sa sb) s (puts (a + b)) ∧ Runs (.sub c sd sa sb) s (puts (a - b)) ∧
    Runs (.and c sd sa sb) s (puts (a &&& b)) ∧ Runs (.or c sd sa sb) s (puts (a ||| b)) ∧ Runs (.xor c sd sa sb) s (puts (a ^^^ b)) ∧
    Runs (.shl c sd sa sb) s (puts (a <<< (b.toNat % 64))) ∧ Runs (.shr c sd sa sb) s (puts (a >>> (b.toNat % 64))) ∧
    Runs (.sra c sd sa sb) s (puts (a.sshiftRight (b.toNat % 64))) ∧
    Runs (.slt c sd sa sb) s (puts (if a.toInt < b.toInt then 1 else 0)) ∧
    Runs (.sltu c sd sa sb) s (puts (if a.toNat < b.toNat then 1 else 0)) ∧
    Runs (.seq c sd sa sb) s (puts (if a = b then 1 else 0)) ∧
    Runs (.min c sd sa sb) s (puts (if b.toInt < a.toInt then b else a)) ∧
    Runs (.max c sd sa sb) s (puts (if a.toInt < b.toInt then b else a)) ∧
    Runs (.mul c sd sa sb) s (puts (a * b)) ∧
    Runs (.mulh c sd sa sb) s (puts (BitVec.ofInt 64 (a.toInt * b.toInt / 2 ^ 64))) ∧
    Runs (.mulhu c sd sa sb) s (puts (BitVec.ofNat 64 (a.toNat * b.toNat / 2 ^ 64)))

/-- Immediate and special forms of the SCL slot (R138): each writes its result to S[SD] and changes no other register and no memory. (Log entry 16: an
instruction's row takes its whole effect at once.) -/
def Obligations.ScalarImmediateForms : Prop :=
  ∀ (s : State) (c : CoreId) (sd sa : BitVec 5) (imm : BitVec 16) (k : BitVec 2) (m : BitVec 21), Ready s c →
    let a := s.sreg c sa
    let puts := fun v => WritesReg (rS c sd.toNat) v s
    Runs (.addi c sd sa imm) s (puts (a + imm.signExtend 64)) ∧ Runs (.andi c sd sa imm) s (puts (a &&& imm.setWidth 64)) ∧
    Runs (.ori c sd sa imm) s (puts (a ||| imm.setWidth 64)) ∧ Runs (.xori c sd sa imm) s (puts (a ^^^ imm.setWidth 64)) ∧
    Runs (.slti c sd sa imm) s (puts (if a.toInt < imm.toInt then 1 else 0)) ∧
    Runs (.movi c sd m) s (puts (m.signExtend 64)) ∧
    (∀ n : Nat, n < 64 → imm = BitVec.ofNat 16 n →
      Runs (.shli c sd sa imm) s (puts (a <<< n)) ∧ Runs (.shri c sd sa imm) s (puts (a >>> n)) ∧
      Runs (.srai c sd sa imm) s (puts (a.sshiftRight n))) ∧
    Runs (.insh c sd k imm) s (fun t => RegsBut (· = rS c sd.toNat) s t ∧ SameMem s t ∧
      ∀ j, j < 64 → (t.sreg c sd).getLsbD j =
        if 16 * k.toNat ≤ j ∧ j < 16 * k.toNat + 16 then imm.getLsbD (j - 16 * k.toNat) else (s.sreg c sd).getLsbD j) ∧
    Runs (.rdsp c sd 0) s (puts (BitVec.ofNat 64 (s.slot % 2 ^ 48))) ∧
    Runs (.rdsp c sd 2) s (puts (BitVec.ofNat 64 (s.coreCtx c).val)) ∧
    Runs (.rdsp c sd 3) s (puts (BitVec.ofNat 64 (s.pc c))) ∧
    (s.fget (rLoopCtl c) fLoopCtlDepth = 0 → Runs (.rdsp c sd 4) s (puts 0))

/-- Division and remainder (R139): toward zero, all ones and the dividend for a zero divisor, and -2^63 with remainder 0 for -2^63 over -1. FP32
instructions of the SCL slot (R138, R139) read bits [31:0] of their sources and write a zero-extended result; FCVTI and ICVTF take a whole word on
one side, and a NaN converts to 0. No other register and no memory changes. (Log entry 16: an instruction's row takes its whole effect at once.) -/
def Obligations.ScalarDivisionAndFloat : Prop :=
  (∀ (s : State) (c : CoreId) (sd sa sb : BitVec 5), Ready s c →
    let a := s.sreg c sa
    let b := s.sreg c sb
    let puts := fun v => WritesReg (rS c sd.toNat) v s
    Runs (.div c sd sa sb) s (puts (if b = 0 then BitVec.allOnes 64 else BitVec.ofInt 64 (a.toInt.tdiv b.toInt))) ∧
    Runs (.rem c sd sa sb) s (puts (if b = 0 then a else BitVec.ofInt 64 (a.toInt.tmod b.toInt))) ∧
    Runs (.divu c sd sa sb) s (puts (if b = 0 then BitVec.allOnes 64 else BitVec.ofNat 64 (a.toNat / b.toNat))) ∧
    Runs (.remu c sd sa sb) s (puts (if b = 0 then a else BitVec.ofNat 64 (a.toNat % b.toNat))) ∧
    (a = BitVec.ofNat 64 (2 ^ 63) → b = BitVec.allOnes 64 →
      Runs (.div c sd sa sb) s (puts (BitVec.ofNat 64 (2 ^ 63))) ∧ Runs (.rem c sd sa sb) s (puts 0))) ∧
  (∀ (s : State) (c : CoreId) (sd sa sb : BitVec 5), Ready s c →
    let lo := fun x => (s.sreg c x).setWidth 32
    let puts := fun v => WritesReg (rS c sd.toNat) v s
    Runs (.fadd c sd sa sb) s (puts ((add32 (lo sa) (lo sb)).setWidth 64)) ∧
    Runs (.fmul c sd sa sb) s (puts ((mul32 (lo sa) (lo sb)).setWidth 64)) ∧
    Runs (.ffma c sd sa sb) s (puts ((fma32 (lo sa) (lo sb) (lo sd)).setWidth 64)) ∧
    Runs (.icvtf c sd sa) s (puts ((rn32 (fpOfInt (s.sreg c sa).toInt 0)).setWidth 64)) ∧
    Runs (.fcvti c sd sa) s (puts (BitVec.ofInt 64 (encInt (-(2 ^ 63)) (2 ^ 63 - 1) (f32 (lo sa))))) ∧
    (f32 (lo sa) = .nan → Runs (.fcvti c sd sa) s (puts 0)))

/-- TCFG (R139, R60): with every field in its range it writes TILE_CFG[TN] without the reserved bits; else it raises TILE_SHAPE, and the shape stays
as it was. (Log entry 16: an instruction's row takes its whole effect at once.) -/
def Obligations.TileConfigWrites : Prop :=
  ∀ (s : State) (c : CoreId) (tn : BitVec 6) (sa : BitVec 5), Ready s c →
    (tcfgOk (s.sreg c sa) = true →
      Runs (.tcfg c tn sa) s (WritesReg (rTileCfg c tn.toNat) (s.sreg c sa &&& 0x1FFFF3F) s)) ∧
    (tcfgOk (s.sreg c sa) = false →
      Runs (.tcfg c tn sa) s (fun t => t.fget (rCoreStatus c) fCoreStatusFault = 0x1001 ∧
        t.reg (rTileCfg c tn.toNat) = s.reg (rTileCfg c tn.toNat)))

/-! ### The CTL slot -/

/-- Branches, jumps and calls (R135): the program counter takes the target, a call leaves index + 1 in S31, and a branch whose condition fails changes
no register. Index arithmetic is modulo 65,536. (Log entry 16: an instruction's row takes its whole effect at once.) -/
def Obligations.BranchesAndCalls : Prop :=
  ∀ (s : State) (c : CoreId) (cond : BitVec 3) (sa : BitVec 5) (off : BitVec 18) (target : BitVec 16), Ready s c →
    let a := s.sreg c sa
    let goes := fun (p : Nat) t => State.pc t c = p ∧ RegsBut (· = rPc c) s t ∧ SameMem s t
    let calls := fun (p : Nat) t => State.pc t c = p ∧ t.sreg c 31 = BitVec.ofNat 64 ((s.pc c + 1) % 65536) ∧
      RegsBut (fun x => x = rPc c ∨ x = rS c 31) s t ∧ SameMem s t
    let meets : Prop := (cond = 0 ∧ a = 0) ∨ (cond = 1 ∧ a ≠ 0) ∨ (cond = 2 ∧ a.toInt < 0) ∨ (cond = 3 ∧ 0 ≤ a.toInt) ∨
      (cond = 4 ∧ 0 < a.toInt) ∨ (cond = 5 ∧ a.toInt ≤ 0) ∨ cond = 6
    (meets → Runs (.br c cond sa off) s (goes (((s.pc c : Int) + off.toInt) % 65536).toNat)) ∧
    (cond ≠ 7 → ¬ meets → Runs (.br c cond sa off) s (fun t => SameRegs s t ∧ SameMem s t)) ∧
    Runs (.jmp c target) s (goes target.toNat) ∧ Runs (.jmpr c sa) s (goes (a.toNat % 65536)) ∧
    Runs (.call c target) s (calls target.toNat) ∧ Runs (.callr c sa) s (calls (a.toNat % 65536))

/-- LOOP and LBRK (R136) outside the END bundle of the innermost loop: a count of zero goes past the body, any other count pushes an entry while fewer
than four are active, LBRK pops the innermost entry and goes past its END. With four entries, LOOP raises LOOP_DEPTH, and so does LBRK with none.
(Log entry 16: an instruction's row takes its whole effect at once.) -/
def Obligations.HardwareLoops : Prop :=
  ∀ (s : State) (c : CoreId) (src : Bool) (sa : BitVec 5) (icount : BitVec 8) (len : BitVec 12), Ready s c → len ≠ 0 →
    s.atLoopEnd c = false →
    let n := if src then (s.sreg c sa).toNat % 2 ^ 32 else icount.toNat
    let d := s.loopDep c
    (d < 4 → n = 0 → Runs (.loop c src sa icount len) s (fun t =>
      t.pc c = (s.pc c + len.toNat + 1) % 65536 ∧ RegsBut (· = rPc c) s t ∧ SameMem s t)) ∧
    (d < 4 → n ≠ 0 → Runs (.loop c src sa icount len) s (fun t =>
      t.loopDep c = d + 1 ∧ t.loopFld c d fLoopEntryCount = n ∧ t.loopFld c d fLoopEntryStart = (s.pc c + 1) % 65536 ∧
      t.loopFld c d fLoopEntryEnd = (s.pc c + len.toNat) % 65536 ∧ RegsBut (fun x => x = rLoopCtl c ∨ x = rLoopEntry c d) s t ∧ SameMem s t)) ∧
    (d = 4 → Runs (.loop c src sa icount len) s (fun t => t.fget (rCoreStatus c) fCoreStatusFault = 0x100C)) ∧
    (0 < d → d ≤ 4 → Runs (.lbrk c) s (fun t =>
      t.loopDep c = d - 1 ∧ t.pc c = (s.loopFld c (d - 1) fLoopEntryEnd + 1) % 65536 ∧
      RegsBut (fun x => x = rLoopCtl c ∨ x = rPc c) s t ∧ SameMem s t)) ∧
    (d = 0 → Runs (.lbrk c) s (fun t => t.fget (rCoreStatus c) fCoreStatusFault = 0x100C))

/-- STEPEND, EXIT and BRKPT (R135, R137): a step-end marker with no chain open is held by the core, which then issues nothing; BRKPT sets
CORE_CTL.HALT and asks the core to stop. With a chain open a marker raises ARRAY_CHAIN. (Log entry 16: an instruction's row takes its whole effect
at once.) -/
def Obligations.StepEndsAndBreakpoints : Prop :=
  ∀ (s : State) (c : CoreId), Ready s c →
    ((s.core c).openLen = 0 →
      Runs (.stepend c) s (fun t => (t.core c).marker = .issued false ∧ t.canIssue c = false ∧ SameRegs s t ∧ SameMem s t) ∧
      Runs (.exit c) s (fun t => (t.core c).marker = .issued true ∧ t.canIssue c = false ∧ SameRegs s t ∧ SameMem s t)) ∧
    ((s.core c).openLen ≠ 0 →
      Runs (.stepend c) s (fun t => t.fget (rCoreStatus c) fCoreStatusFault = 0x2003) ∧
      Runs (.exit c) s (fun t => t.fget (rCoreStatus c) fCoreStatusFault = 0x2003)) ∧
    Runs (.brkpt c) s (fun t => t.flag (rCoreCtl c) fCoreCtlHalt = true ∧ (t.core c).stopCause = some .halt ∧
      RegsBut (· = rCoreCtl c) s t ∧ SameMem s t)

/-! ### The SYN slot and the semaphore unit -/

/-- POST (R146, R217): the counter takes the saturated sum, or the value set; a sum outside 0 to 2^32 - 1 sets the counter's SC_SAT bit, and writes
one SEM_SATURATE record when the bit was clear. No other register and no memory changes. (Log entry 16: an instruction's row takes its whole
effect at once.) -/
def Obligations.PostChangesCounters : Prop :=
  ∀ (s : State) (c : CoreId) (sc : BitVec 6) (mode : BitVec 2) (imm : BitVec 16), Ready s c → sc.toNat < 48 →
    (2 ≤ mode.toNat → imm.toNat < 32) →
    let old := s.fget (rSc c sc.toNat) fScValue
    let reg := (s.sreg c (imm.setWidth 5)).setWidth 32
    let addend : Int := if mode = 0 then imm.toInt else reg.toInt
    let bit : Fd := ⟨sc.toNat, sc.toNat⟩
    ((mode = 0 ∨ mode = 2) → Runs (.post c sc mode imm) s (fun t =>
      t.fget (rSc c sc.toNat) fScValue = (min (max (old + addend) 0) (2 ^ 32 - 1)).toNat ∧
      (t.flag (rScSat c) bit = true ↔ s.flag (rScSat c) bit = true ∨ (old + addend < 0 ∨ (2 ^ 32 : Int) ≤ old + addend)) ∧
      t.log.arrivals.length = s.log.arrivals.length +
        (if s.flag (rScSat c) bit = false ∧ (old + addend < 0 ∨ (2 ^ 32 : Int) ≤ old + addend) then 1 else 0) ∧
      RegsBut (fun a => a = rSc c sc.toNat ∨ a = rScSat c) s t ∧ SameMem s t)) ∧
    (mode = 1 → Runs (.post c sc mode imm) s (fun t =>
      t.fget (rSc c sc.toNat) fScValue = imm.toNat ∧ RegsBut (· = rSc c sc.toNat) s t ∧ SameMem s t)) ∧
    (mode = 3 → Runs (.post c sc mode imm) s (fun t =>
      t.fget (rSc c sc.toNat) fScValue = reg.toNat ∧ RegsBut (· = rSc c sc.toNat) s t ∧ SameMem s t))

/-- WAIT (R146, R219): a wait that holds changes nothing without CONSUME, and with it takes the compared value off the counter; a wait that does not
hold changes nothing, and the bundle's row may be given again. (Log entry 16: an instruction's row takes its whole effect at once.) -/
def Obligations.WaitsOnCounters : Prop :=
  ∀ (s : State) (c : CoreId) (sc : BitVec 6) (mode : BitVec 2) (consume : Bool) (imm : BitVec 16), Ready s c → sc.toNat < 48 →
    (mode.getLsbD 0 = true → imm.toNat < 32) →
    let v := s.fget (rSc c sc.toNat) fScValue
    let want := if mode.getLsbD 0 then (s.sreg c (imm.setWidth 5)).toNat % 2 ^ 32 else imm.toNat
    let holds : Prop := if mode.getLsbD 1 then v = want else want ≤ v
    (holds → consume = true → Runs (.wait c sc mode consume imm) s (fun t =>
      t.fget (rSc c sc.toNat) fScValue = v - want ∧ RegsBut (· = rSc c sc.toNat) s t ∧ SameMem s t)) ∧
    ((¬ holds ∨ consume = false) → Runs (.wait c sc mode consume imm) s (fun t => SameRegs s t ∧ SameMem s t))

/-- GPOST, GWAIT and GWATCH (R146, R147, R179): each puts one request of its type on the bell wire at its own router, with the virtual semaphore and
the value, to the front die, or for another device's semaphore to the link router of SYNC_RT with RMT = 1 and the device in front. GWAIT leaves
GWAIT_PEND = 1, GWATCH adds one to WATCHES, and with 8 watches outstanding GWATCH waits. With the core's injection queue full each waits (R182; how
many messages the queue holds is a free value of Config, log entry 13). GWAIT with REMOTE = 1 raises ILLEGAL_INSTR. (Log entry 16: an instruction's
row takes its whole effect at once.) -/
def Obligations.SemaphoreRequests : Prop :=
  ∀ (s : State) (c : CoreId) (sa sv : BitVec 5) (mode cond : BitVec 2) (consume : Bool) (sc : BitVec 6) (imm : BitVec 16), Ready s c →
    sc.toNat < 48 → cond.toNat < 2 →
    let w := s.sreg c sa
    let k := (s.coreCtx c).val
    let vsem := w.toNat % 2 ^ 14
    let low := fun r : BitVec 5 => (s.sreg c r).setWidth 32
    let sends := fun (type : Nat) (p0 p1 : BitVec 32) (t : State) => t.bell = s.bell ++ [
      if s.semRemote w then ⟨bellHdr type k 3 true (s.fget (rSyncRt c) fSyncRtHall) 14 (s.fget (rSyncRt c) fSyncRtRouter) c.pos,
        [BitVec.ofNat 32 (w.toNat / 2 ^ 24 % 2 ^ 24), p0, p1], gx c, gy c, 4, false⟩
      else ⟨bellHdr type k 2 false 0 15 15 c.pos, [p0, p1], gx c, gy c, 4, false⟩]
    let waits := fun t => SameRegs s t ∧ State.bell t = s.bell ∧ SameMem s t
    (mode = 0 → s.bellFull c = false → Runs (.gpost c sa mode imm) s (fun t => sends 1 (BitVec.ofNat 32 vsem) (imm.signExtend 32) t ∧
      RegsBut (· = rBellSentCnt c) s t ∧ SameMem s t)) ∧
    (mode = 2 → imm.toNat < 32 → s.bellFull c = false → Runs (.gpost c sa mode imm) s (fun t => sends 1 (BitVec.ofNat 32 vsem) (low (imm.setWidth 5)) t ∧
      RegsBut (· = rBellSentCnt c) s t ∧ SameMem s t)) ∧
    (w.getLsbD 63 = false → (mode.getLsbD 0 = true → imm.toNat < 32) → s.bellFull c = false → Runs (.gwait c sa mode consume imm) s (fun t =>
      sends 2 (BitVec.ofNat 32 (mode.toNat * 2 ^ 30 + (if consume then 2 ^ 29 else 0) + vsem))
        (if mode.getLsbD 0 then low (imm.setWidth 5) else imm.setWidth 32) t ∧
      t.flag (rSyncStatus c) fSyncStatusGwaitPend = true ∧ t.canIssue c = false ∧
      RegsBut (fun a => a = rBellSentCnt c ∨ a = rSyncStatus c) s t ∧ SameMem s t)) ∧
    (w.getLsbD 63 = true → (mode.getLsbD 0 = true → imm.toNat < 32) → Runs (.gwait c sa mode consume imm) s (fun t =>
      t.fget (rCoreStatus c) fCoreStatusFault = 0x100B)) ∧
    (s.fget (rSyncStatus c) fSyncStatusWatches < 8 → s.bellFull c = false → Runs (.gwatch c sa sv sc cond) s (fun t =>
      sends 3 (BitVec.ofNat 32 (cond.toNat * 2 ^ 30 + sc.toNat * 2 ^ 14 + vsem)) (low sv) t ∧
      t.fget (rSyncStatus c) fSyncStatusWatches = s.fget (rSyncStatus c) fSyncStatusWatches + 1 ∧
      RegsBut (fun a => a = rBellSentCnt c ∨ a = rSyncStatus c) s t ∧ SameMem s t)) ∧
    (8 ≤ s.fget (rSyncStatus c) fSyncStatusWatches ∨ s.bellFull c = true → Runs (.gwatch c sa sv sc cond) s waits) ∧
    (s.bellFull c = true → mode = 0 ∨ (mode = 2 ∧ imm.toNat < 32) → Runs (.gpost c sa mode imm) s waits) ∧
    (s.bellFull c = true → w.getLsbD 63 = false → (mode.getLsbD 0 = true → imm.toNat < 32) → Runs (.gwait c sa mode consume imm) s waits)

/-- SEM_ADD through a valid mapping with POST set to an allocated semaphore that is not orphaned, on which nothing waits (R222, R223): VALUE takes the
saturated sum, and SEM_REQ_CNT counts the request; a request of a core has no older message of its way before it (R180). SEM_WAIT and SEM_WATCH of a core through a valid mapping with WAIT set (R224, R225): a
comparison that holds is answered at once, with a WAKE or a WATCH_FIRE on the bell wire, and any other is registered behind the entries already
there. A Housekeeper write of SEM[p] with nothing waiting stores VALUE as written; a write of another requester changes nothing (R223, R241). -/
def Obligations.SemaphoreOperations : Prop :=
  (∀ (s : State) (src : Option CoreId) (k : CtxId) (vsem : BitVec 14) (addend : BitVec 32) (p : Nat),
    s.semMap k.val vsem.toNat .add false = .ok p → s.flag (rSem p) fSemAlloc = true → s.flag (rSem p) fSemOrphan = false →
    s.sem.entries = [] → (∀ c, src = some c → s.bellFree ⟨1, k, some c.pos, none, some [vsem.setWidth 32, addend]⟩ = true) →
    Runs (.semAdd src k vsem addend) s (fun t =>
      t.fget (rSem p) fSemValue = (min (max ((s.fget (rSem p) fSemValue : Int) + addend.toInt) 0) (2 ^ 32 - 1)).toNat ∧
      t.reg rSemReqCnt = s.reg rSemReqCnt + 1 ∧ SameMem s t)) ∧
  (∀ (s : State) (c : CoreId) (k : CtxId) (mode cond : BitVec 2) (consume : Bool) (sc : BitVec 6) (vsem : BitVec 14) (value : BitVec 32) (p : Nat),
    s.semMap k.val vsem.toNat .wait false = .ok p → s.semMap k.val vsem.toNat .watch false = .ok p →
    s.flag (rSem p) fSemAlloc = true → s.flag (rSem p) fSemOrphan = false →
    s.bellFree ⟨2, k, some c.pos, none, none⟩ = true →
    s.bellFree ⟨3, k, some c.pos, none, some [BitVec.ofNat 32 (cond.toNat * 2 ^ 30 + sc.toNat * 2 ^ 14 + vsem.toNat), value]⟩ = true →
    let v := s.fget (rSem p) fSemValue
    let holds := fun equal : Bool => if equal then v = value.toNat else value.toNat ≤ v
    (¬ holds (decide (2 ≤ mode.toNat)) → Runs (.semWait c k mode consume vsem value) s (fun t =>
      t.sem.entries = s.sem.entries ++ [.wait ⟨p, vsem, c, k, decide (2 ≤ mode.toNat), consume, value⟩] ∧
      t.fget (rSem p) fSemValue = v ∧ SameMem s t)) ∧
    (holds (decide (2 ≤ mode.toNat)) → Runs (.semWait c k mode consume vsem value) s (fun t =>
      t.sem.entries = s.sem.entries ∧ t.fget (rSem p) fSemValue = (if consume then v - value.toNat else v) ∧
      (∃ m ∈ t.bell, bellType m = 4 ∧ bellDst m = c.pos) ∧ SameMem s t)) ∧
    (¬ holds (cond == 1) → Runs (.semWatch c k cond sc vsem value) s (fun t =>
      t.sem.entries = s.sem.entries ++ [.watch ⟨p, k, cond == 1, value, .core c sc⟩] ∧ SameMem s t)) ∧
    (holds (cond == 1) → Runs (.semWatch c k cond sc vsem value) s (fun t =>
      t.sem.entries = s.sem.entries ∧ t.reg rWatchFireCnt = s.reg rWatchFireCnt + 1 ∧
      (∃ m ∈ t.bell, bellType m = 5 ∧ bellDst m = c.pos) ∧ SameMem s t))) ∧
  (∀ (s : State) (p : BitVec 14) (v : Word), s.sem.entries = [] →
    Runs (.semValueWrite .housekeeper p v) s (fun t =>
      t.fget (rSem p.toNat) fSemValue = v.toNat % 2 ^ 32 ∧ RegsBut (· = rSem p.toNat) s t ∧ SameMem s t) ∧
    Runs (.semValueWrite .host p v) s (fun t => SameRegs s t ∧ SameMem s t) ∧
    Runs (.semValueWrite .rdma p v) s (fun t => SameRegs s t ∧ SameMem s t))

/-- WAKE, WATCH_FIRE and CNT_POST, with no older message of their way before them (R180), at a core on which the context is present (R217, R218, R224, R225, R233): a WAKE clears GWAIT_PEND, a WATCH_FIRE adds
one to its counter and takes one off WATCHES, a CNT_POST adds its count, and both saturate; one that says orphaned also sets ORPHAN_WAKE,
ORPHAN_NOTICE where no GWAIT is pending, or the counter's SC_ORPHAN bit, and with ORPHAN_STOP = 1 it stops the context with fault SEM_ORPHAN. At a core
on which the context is absent the message goes back to the front die with the position added (R235). RETURNED_MESSAGE (R235): while the image is held
the message is applied in it and the core's registers stay; once no image is held the message is sent to the core again. -/
def Obligations.SyncMessagesAtCores : Prop :=
  (∀ (s : State) (c : CoreId) (k : CtxId) (sc : BitVec 6) (count : BitVec 32) (o : Bool), s.presentOn c k = true →
    s.bellFree ⟨4, k, some (bton o), some c.pos, none⟩ = true → s.bellFree ⟨5, k, some (bton o * 64 + sc.toNat), some c.pos, none⟩ = true →
    s.bellFree ⟨6, k, some sc.toNat, some c.pos, some [count]⟩ = true →
    let v := s.fget (rSc c sc.toNat) fScValue
    let pend := s.flag (rSyncStatus c) fSyncStatusGwaitPend
    let stop := s.flag (rSyncCtxCfg c.hall.val k.val) fSyncCtxCfgOrphanStop
    let shows := fun t => State.fget t (rCoreStatus c) fCoreStatusFault = 0x4002 ∧
      ∀ d ∈ s.activeCores k.val, State.flag t (rCoreStatus d) fCoreStatusFaulted = true ∧ (State.core t d).stopCause ≠ none
    (pend = true → o = false ∨ stop = false → Runs (.wake c k o) s (fun t =>
      t.flag (rSyncStatus c) fSyncStatusGwaitPend = false ∧ (t.core c).gwait = none ∧
      t.flag (rSyncStatus c) fSyncStatusOrphanWake = (s.flag (rSyncStatus c) fSyncStatusOrphanWake || o) ∧
      RegsBut (· = rSyncStatus c) s t ∧ SameMem s t)) ∧
    (pend = false → o = false ∨ stop = false → Runs (.wake c k o) s (fun t =>
      t.flag (rSyncStatus c) fSyncStatusGwaitPend = false ∧
      t.flag (rSyncStatus c) fSyncStatusOrphanNotice = (s.flag (rSyncStatus c) fSyncStatusOrphanNotice || o) ∧
      RegsBut (· = rSyncStatus c) s t ∧ SameMem s t)) ∧
    (o = true → stop = true → Runs (.wake c k o) s shows) ∧
    (sc.toNat < 48 → o = false ∨ stop = false → Runs (.watchFire c k sc o) s (fun t =>
      t.fget (rSc c sc.toNat) fScValue = min (v + 1) (2 ^ 32 - 1) ∧
      t.fget (rSyncStatus c) fSyncStatusWatches = s.fget (rSyncStatus c) fSyncStatusWatches - 1 ∧
      t.flag (rScOrphan c) ⟨sc.toNat, sc.toNat⟩ = (s.flag (rScOrphan c) ⟨sc.toNat, sc.toNat⟩ || o) ∧
      RegsBut (fun a => a = rSc c sc.toNat ∨ a = rScSat c ∨ a = rScOrphan c ∨ a = rSyncStatus c) s t ∧ SameMem s t)) ∧
    (sc.toNat < 48 → o = true → stop = true → Runs (.watchFire c k sc o) s shows) ∧
    (sc.toNat < 48 → Runs (.cntPost c k sc count) s (fun t =>
      t.fget (rSc c sc.toNat) fScValue = min (v + count.toNat) (2 ^ 32 - 1) ∧
      RegsBut (fun a => a = rSc c sc.toNat ∨ a = rScSat c) s t ∧ SameMem s t)) ∧
    (48 ≤ sc.toNat → Runs (.watchFire c k sc o) s (fun t => SameRegs s t ∧ SameMem s t) ∧
      Runs (.cntPost c k sc count) s (fun t => SameRegs s t ∧ SameMem s t))) ∧
  (∀ (s : State) (c : CoreId) (k : CtxId) (sc : BitVec 6) (count : BitVec 32) (o : Bool), s.presentOn c k = false →
    s.bellFree ⟨4, k, some (bton o), some c.pos, none⟩ = true → s.bellFree ⟨5, k, some (bton o * 64 + sc.toNat), some c.pos, none⟩ = true →
    s.bellFree ⟨6, k, some sc.toNat, some c.pos, some [count]⟩ = true →
    let returns := fun (type arg : Nat) (pay : List (BitVec 32)) t =>
      (∃ m ∈ State.bell t, bellType m = type ∧ bellSrc m = arg ∧ m.pay = pay ++ [BitVec.ofNat 32 c.pos]) ∧ SameRegs s t ∧ SameMem s t
    Runs (.wake c k o) s (returns 4 (if o then 1 else 0) []) ∧
    Runs (.watchFire c k sc o) s (returns 5 ((if o then 64 else 0) + sc.toNat) []) ∧
    Runs (.cntPost c k sc count) s (returns 6 sc.toNat [count])) ∧
  (∀ (s : State) (c : CoreId) (k : CtxId) (sc : BitVec 6) (count : BitVec 32) (i : SavedS) (u : State) (w : Word), s.canon → u.canon →
    s.savedOf k c = some i → i.regs = u.ctxRegs c → (∀ m, s.bellFree (retKey m c k) = true) →
    let holds := fun (a : Nat) (v : Word) t => (∃ j, State.savedOf t k c = some j ∧ j.regs.lookup a = some v) ∧ SameRegs s t ∧ SameMem s t
    (sc.toNat < 48 → i.regs.lookup (rSc c sc.toNat) = some w → Runs (.returnedMessage c k (.post sc count)) s
      (holds (rSc c sc.toNat) (fScValue.put w (min (fScValue.get w + count.toNat) (2 ^ 32 - 1))))) ∧
    (sc.toNat < 48 → i.regs.lookup (rSc c sc.toNat) = some w → Runs (.returnedMessage c k (.fire sc false)) s
      (holds (rSc c sc.toNat) (fScValue.put w (min (fScValue.get w + 1) (2 ^ 32 - 1))))) ∧
    (i.regs.lookup (rSyncStatus c) = some w → fSyncStatusGwaitPend.get w = 1 → Runs (.returnedMessage c k (.wake false)) s
      (holds (rSyncStatus c) (fSyncStatusGwaitPend.put w 0)))) ∧
  (∀ (s : State) (c : CoreId) (k : CtxId) (sc : BitVec 6) (count : BitVec 32) (o : Bool), s.savedOf k c = none → (∀ m, s.bellFree (retKey m c k) = true) →
    let sends := fun (type arg : Nat) (pay : List (BitVec 32)) t =>
      (∃ m ∈ State.bell t, bellType m = type ∧ bellDst m = c.pos ∧ bellSrc m = arg ∧ m.pay = pay) ∧ SameRegs s t ∧ SameMem s t
    Runs (.returnedMessage c k (.wake o)) s (sends 4 (if o then 1 else 0) []) ∧
    Runs (.returnedMessage c k (.fire sc o)) s (sends 5 ((if o then 64 else 0) + sc.toNat) []) ∧
    Runs (.returnedMessage c k (.post sc count)) s (sends 6 sc.toNat [count]))

/-! ### The VEC slot -/

/-- Register forms of the VEC slot (R144, R160 to R163): each writes all 32 lanes of VD, lane by lane from the same lanes of its operands or, for the
reductions, the reduction in every lane; no other register and no memory changes. VEXT writes the lane, zero-extended, to S[SX]. VCMP writes all
ones to a lane whose comparison holds and zero to any other; a comparison with a NaN holds only for NE. (Log entry 16: an instruction's row takes
its whole effect at once.) -/
def Obligations.VectorRegisterForms : Prop :=
  (∀ (s : State) (c : CoreId) (vd va vb vc : BitVec 4) (sx lane : BitVec 5), Ready s c →
    let a := laneOf (s.vreg c va)
    let b := laneOf (s.vreg c vb)
    let d := laneOf (s.vreg c vc)
    let puts := fun f => WritesV c vd (lanes f) s
    Runs (.vadd c vd va vb) s (puts fun l => add32 (a l) (b l)) ∧
    Runs (.vsub c vd va vb) s (puts fun l => rn32 (fpAdd (f32 (a l)) (fpNeg (f32 (b l))))) ∧
    Runs (.vmul c vd va vb) s (puts fun l => mul32 (a l) (b l)) ∧
    Runs (.vfma c vd va vb vc) s (puts fun l => fma32 (a l) (b l) (d l)) ∧
    Runs (.vsel c vd va vb vc) s (puts fun l => if d l = 0 then b l else a l) ∧
    Runs (.vand c vd va vb) s (puts fun l => a l &&& b l) ∧
    Runs (.vor c vd va vb) s (puts fun l => a l ||| b l) ∧
    Runs (.vxor c vd va vb) s (puts fun l => a l ^^^ b l) ∧
    Runs (.vmin c vd va vb) s (puts fun l => vmin32 (a l) (b l)) ∧
    Runs (.vmax c vd va vb) s (puts fun l => vmax32 (a l) (b l)) ∧
    Runs (.vbcast c vd sx) s (puts fun _ => (s.sreg c sx).setWidth 32) ∧
    Runs (.vext c sx va lane) s (WritesReg (rS c sx.toNat) ((a lane.toNat).setWidth 64) s) ∧
    Runs (.vexp c vd va) s (puts fun l => vexp32 (a l)) ∧ Runs (.vlog c vd va) s (puts fun l => vlog32 (a l)) ∧
    Runs (.vrcp c vd va) s (puts fun l => vrcp32 (a l)) ∧ Runs (.vrsq c vd va) s (puts fun l => vrsq32 (a l)) ∧
    Runs (.vtanh c vd va) s (puts fun l => vtanh32 (a l)) ∧
    Runs (.vrsum c vd va) s (puts fun _ => rn32 (exactSum ((List.range 32).map fun l => f32 (a l)))) ∧
    Runs (.vrmax c vd va) s (puts fun _ => ((List.range 32).map a).foldl vmax32 0xFF800000)) ∧
  (∀ (s : State) (c : CoreId) (vd va vb : BitVec 4) (cond : BitVec 3), Ready s c → cond.toNat ≤ 5 →
    let a := laneOf (s.vreg c va)
    let b := laneOf (s.vreg c vb)
    Runs (.vcmp c vd va vb cond) s (WritesV c vd (lanes fun l => if vcmp32 cond.toNat (a l) (b l) then 0xFFFFFFFF else 0) s) ∧
    ∀ l, f32 (a l) = .nan ∨ f32 (b l) = .nan → (vcmp32 cond.toNat (a l) (b l) = true ↔ cond = 1))

/-- TVOP (R145, R164) on rows of TA within the shapes it takes: row i of TD takes the function of row i of TA and VB, VC, for i below N. TRED (R145,
R165, R166) within the shapes it takes: lane i of VD takes the reduction of row i of TA for i below N, and lanes N to 31 are +0. With N = 0
neither changes anything. Every other byte and every other register stays. (Log entry 16: an instruction's row takes its whole effect at once.) -/
def Obligations.TileVectorOperations : Prop :=
  (∀ (s : State) (c : CoreId) (td ta n func : BitVec 6) (vb vc : BitVec 4) (bsrc : BitVec 2) (cond : BitVec 3), Ready s c →
    (Instr.tvop c td ta n func vb vc bsrc cond).wf = true → s.tvopFault c td ta n func = none →
    Runs (.tvop c td ta n func vb vc bsrc cond) s (fun t =>
      (∀ i, i < n.toNat → t.row c td.toNat i = slice (tvopRow (s.tFmt c ta.toNat) (s.tFmt c td.toNat) func.toNat cond.toNat (bsrc == 1) i
        (s.row c ta.toNat i) (s.vreg c vb) (s.vreg c vc)) 0 128) ∧
      MemBut (tileAddr c td.toNat 0) (128 * n.toNat) s t ∧ SameRegs s t)) ∧
  (∀ (s : State) (c : CoreId) (vd : BitVec 4) (ta n : BitVec 6) (kind : BitVec 3) (vb : BitVec 4), Ready s c →
    kind.toNat ≤ 3 → s.tredFault c ta n kind = none →
    (n ≠ 0 → Runs (.tred c vd ta n kind vb) s (WritesV c vd (lanes fun l => if l < n.toNat then
      tredLane (s.tFmt c ta.toNat) (s.tCols c ta.toNat) kind.toNat l (s.row c ta.toNat l) (s.vreg c vb) else 0) s)) ∧
    (n = 0 → Runs (.tred c vd ta n kind vb) s (fun t => SameRegs s t ∧ SameMem s t)))

/-! ### The MOV slot -/

/-- TLD (R64, R65, R473) of a legal shape whose rows lie in the core store: row i of T, for i below N, takes RB bytes from B + iD, then zeros to byte
127. TCPY (R58, R62, R472) within the shapes it takes: row i of TD takes the RB bytes of row i of TS and zeros behind them. Every other byte and
every register stays. (Log entry 16: an instruction's row takes its whole effect at once.) -/
def Obligations.TileLoadsAndCopies : Prop :=
  (∀ (s : State) (c : CoreId) (tl n : BitVec 6) (sb ss : BitVec 5) (off : BitVec 16), Ready s c →
    let b := (s.sreg c sb).toInt + off.toInt
    let d := ((s.sreg c ss).setWidth 32).toInt
    let inStore := fun i : Nat => 0 ≤ b + i * d ∧ b + i * d + s.tRB c tl.toNat ≤ 0x200000
    (n = 0 ∨ s.tileOk c tl.toNat n.toNat = true ∧ ∀ i, i < n.toNat → inStore i) →
      Runs (.tld c tl n sb ss off) s (fun t =>
        (∀ i, i < n.toNat → t.row c tl.toNat i = slice (s.rdStore c (b + i * d).toNat (s.tRB c tl.toNat)) 0 128) ∧
        MemBut (tileAddr c tl.toNat 0) (128 * n.toNat) s t ∧ SameRegs s t)) ∧
  (∀ (s : State) (c : CoreId) (td n ts : BitVec 6), Ready s c → s.tcpyFault c td n ts = none →
    Runs (.tcpy c td n ts) s (fun t =>
      (∀ i, i < n.toNat → t.row c td.toNat i = slice ((s.row c ts.toNat i).take (s.tRB c td.toNat)) 0 128) ∧
      MemBut (tileAddr c td.toNat 0) (128 * n.toNat) s t ∧ SameRegs s t))

/-- TST (R64, R65) of a legal shape whose rows lie in the core store: the last row's RB bytes lie at B + (N - 1)D, and every row's at B + iD when no
two rows overlap; every byte outside the rows, and every register, stays. A tile load or store of a legal shape with its first or last row outside
the core store raises CORE_STORE_RANGE (R65), and an illegal shape raises TILE_SHAPE (R62); both leave memory within the core's window as it was.
(Log entry 16: an instruction's row takes its whole effect at once.) -/
def Obligations.TileStoresAndMoveFaults : Prop :=
  (∀ (s : State) (c : CoreId) (tl n : BitVec 6) (sb ss : BitVec 5) (off : BitVec 16), Ready s c →
    let b := (s.sreg c sb).toInt + off.toInt
    let d := ((s.sreg c ss).setWidth 32).toInt
    let rb := s.tRB c tl.toNat
    (n = 0 ∨ s.tileOk c tl.toNat n.toNat = true ∧ ∀ i, i < n.toNat → 0 ≤ b + i * d ∧ b + i * d + rb ≤ 0x200000) →
      Runs (.tst c tl n sb ss off) s (fun t =>
        (∀ i, i < n.toNat → (i + 1 = n.toNat ∨ (rb : Int) ≤ d ∨ d ≤ -(rb : Int)) →
          t.rdStore c (b + i * d).toNat rb = (s.row c tl.toNat i).take rb) ∧
        (∀ a, (∀ i, i < n.toNat → a < coreBase c + (b + i * d).toNat ∨ coreBase c + (b + i * d).toNat + rb ≤ a) → t.rdB a = s.rdB a) ∧
        SameRegs s t)) ∧
  (∀ (s : State) (c : CoreId) (tl n : BitVec 6) (sb ss : BitVec 5) (off : BitVec 16), Ready s c → n ≠ 0 →
    let b := (s.sreg c sb).toInt + off.toInt
    let d := ((s.sreg c ss).setWidth 32).toInt
    let rb := s.tRB c tl.toNat
    let last := b + (n.toNat - 1) * d
    let faults := fun code t => State.fget t (rCoreStatus c) fCoreStatusFault = code ∧
      ∀ a, coreBase c ≤ a → a < coreBase c + 2 ^ 22 → t.rdB a = s.rdB a
    (s.tileOk c tl.toNat n.toNat = true → (b < 0 ∨ last < 0 ∨ 0x200000 < b + rb ∨ 0x200000 < last + rb) →
      Runs (.tld c tl n sb ss off) s (faults 0x1007) ∧ Runs (.tst c tl n sb ss off) s (faults 0x1007)) ∧
    (s.tileOk c tl.toNat n.toNat = false →
      Runs (.tld c tl n sb ss off) s (faults 0x1001) ∧ Runs (.tst c tl n sb ss off) s (faults 0x1001)))

/-- SLD, SST, VLD and VST (R141) within the core store: W bytes, little-endian, zero- or sign-extended into S[SD], or stored from S[SA]; 128 bytes
into VD or from VA. Outside the store each raises CORE_STORE_RANGE. (Log entry 16: an instruction's row takes its whole effect at once.) -/
def Obligations.RegisterMoves : Prop :=
  ∀ (s : State) (c : CoreId) (r sb : BitVec 5) (v : BitVec 4) (w : BitVec 2) (off : BitVec 16), Ready s c →
    let b := (s.sreg c sb).toInt + off.toInt
    let n := 2 ^ w.toNat
    let data := leNat (s.rdStore c b.toNat n)
    (0 ≤ b → b + n ≤ 0x200000 →
      Runs (.sld c r sb w false off) s (WritesReg (rS c r.toNat) (BitVec.ofNat 64 data) s) ∧
      Runs (.sld c r sb w true off) s (WritesReg (rS c r.toNat) (BitVec.ofInt 64 (sextNat (8 * n) data)) s) ∧
      Runs (.sst c r sb w off) s (fun t => leNat (t.rdStore c b.toNat n) = (s.sreg c r).toNat % 256 ^ n ∧
        MemBut (coreBase c + b.toNat) n s t ∧ SameRegs s t)) ∧
    (0 ≤ b → b + 128 ≤ 0x200000 →
      Runs (.vld c v sb off) s (WritesV c v (s.rdStore c b.toNat 128) s) ∧
      Runs (.vst c v sb off) s (fun t => t.rdStore c b.toNat 128 = s.vreg c v ∧ MemBut (coreBase c + b.toNat) 128 s t ∧ SameRegs s t)) ∧
    ((b < 0 ∨ 0x200000 < b + n) →
      Runs (.sld c r sb w false off) s (fun t => t.fget (rCoreStatus c) fCoreStatusFault = 0x1007) ∧
      Runs (.sst c r sb w off) s (fun t => t.fget (rCoreStatus c) fCoreStatusFault = 0x1007)) ∧
    ((b < 0 ∨ 0x200000 < b + 128) →
      Runs (.vld c v sb off) s (fun t => t.fget (rCoreStatus c) fCoreStatusFault = 0x1007) ∧
      Runs (.vst c v sb off) s (fun t => t.fget (rCoreStatus c) fCoreStatusFault = 0x1007))

/-- An MBIND with a row count of 0 opens and closes in the same cc: it takes no beats, and posts its completion target with a count of 0, so no
register and no memory changes. (Log entry 16: an instruction's row takes its whole effect at once.) -/
def Obligations.EmptyBindingsPostZero : Prop :=
  ∀ (s : State) (c : CoreId) (flow ct : BitVec 6) (sb ss sn : BitVec 5), Ready s c → ctOk ct = true →
    (s.sreg c sn).toNat % 2 ^ 16 = 0 →
    Runs (.mbind c flow ct sb ss sn) s (fun t => t.bindings c flow.toNat = s.bindings c flow.toNat ∧ SameRegs s t ∧ SameMem s t)

/-- MBIND of N rows whose rows lie in the core store, with fewer than four bindings open for the flow (R38, R140, R191): the next binding register of
the flow, the first one behind those open where they stand together, holds base, stride, CT and VALID, and its count N rows, none written; with four open
it waits. MSND of N rows on a free flow with an
injection slot (R37): the send holds the rows as they stand in the tile, with its completion target; while an earlier send of the flow is not complete
it waits, with no rows it sends nothing, and without an injection slot it raises FLOW_UNSLOTTED. MSND_COMPLETE (R37, R218): the flow's oldest send is
taken away, and its completion target's counter gains the row count; with no send of the flow nothing changes. (Log entry 16: an instruction's row takes
its whole effect at once.) -/
def Obligations.BindingsAndSends : Prop :=
  (∀ (s : State) (c : CoreId) (flow ct : BitVec 6) (sb ss sn : BitVec 5), Ready s c → ctOk ct = true →
    let n := (s.sreg c sn).toNat % 2 ^ 16
    let q := s.bindNext c flow.toNat
    n ≠ 0 → s.mbindFault c flow sb ss sn = none →
    ((∀ j, j < s.bindings c flow.toNat → s.flag (rBind c flow.toNat j) fBindValid = true) → s.bindings c flow.toNat < 4 → q = s.bindings c flow.toNat) ∧
    (s.bindings c flow.toNat < 4 → Runs (.mbind c flow ct sb ss sn) s (fun t =>
      t.flag (rBind c flow.toNat q) fBindValid = true ∧ t.fget (rBind c flow.toNat q) fBindCt = ct.toNat ∧
      t.fget (rBindCnt c flow.toNat q) fBindCntRows = n ∧ t.fget (rBindCnt c flow.toNat q) fBindCntWritten = 0 ∧
      RegsBut (fun a => a = rBind c flow.toNat q ∨ a = rBindCnt c flow.toNat q) s t ∧ SameMem s t)) ∧
    (s.bindings c flow.toNat = 4 → Runs (.mbind c flow ct sb ss sn) s (fun t => SameRegs s t ∧ SameMem s t))) ∧
  (∀ (s : State) (c : CoreId) (ts n flow ct : BitVec 6), Ready s c → ctOk ct = true →
    (n ≠ 0 → s.msndFault c ts n flow = none → (∀ x ∈ (s.core c).sends, x.flow ≠ flow) → Runs (.msnd c ts n flow ct) s (fun t =>
      (∃ x, (t.core c).sends = (s.core c).sends ++ [x] ∧ x.flow = flow ∧ x.ct = ct ∧ x.n = n ∧ x.sent = 0 ∧
        x.rows = (List.range n.toNat).map (s.row c ts.toNat)) ∧ SameRegs s t ∧ SameMem s t)) ∧
    (n ≠ 0 → s.msndFault c ts n flow = none → (∃ x ∈ (s.core c).sends, x.flow = flow) → Runs (.msnd c ts n flow ct) s (fun t =>
      (t.core c).sends = (s.core c).sends ∧ SameRegs s t ∧ SameMem s t)) ∧
    (n = 0 → Runs (.msnd c ts n flow ct) s (fun t => (t.core c).sends = (s.core c).sends ∧ SameRegs s t ∧ SameMem s t)) ∧
    (n ≠ 0 → s.slotted c flow.toNat = false → Runs (.msnd c ts n flow ct) s (fun t =>
      t.fget (rCoreStatus c) fCoreStatusFault = 0x1005 ∧ (t.core c).sends = (s.core c).sends))) ∧
  (∀ (s : State) (c : CoreId) (flow : BitVec 6),
    ((∀ x ∈ (s.core c).sends, x.flow ≠ flow) → exec (.msndComplete c flow) s = .next s) ∧
    ∀ x, (s.core c).sends.find? (fun y => y.flow == flow) = some x → (∀ p ∈ (s.core c).posts, s.cc < p.1) → (∀ p ∈ (s.core c).closing, s.cc < p.1) →
      (x.ct.toNat < 48 → Runs (.msndComplete c flow) s (fun t =>
        (t.core c).sends = (s.core c).sends.erase x ∧ (t.core c).posts = (s.core c).posts ∧
        t.fget (rSc c x.ct.toNat) fScValue = min (s.fget (rSc c x.ct.toNat) fScValue + x.n.toNat) (2 ^ 32 - 1) ∧
        RegsBut (fun a => a = rSc c x.ct.toNat ∨ a = rScSat c ∨ ∃ h e, a = rEdgeBeatsOut h e) s t ∧ SameMem s t)) ∧
      (48 ≤ x.ct.toNat → Runs (.msndComplete c flow) s (fun t =>
        (t.core c).sends = (s.core c).sends.erase x ∧ RegsBut (fun a => ∃ h e, a = rEdgeBeatsOut h e) s t ∧ SameMem s t)))

/-- SLNCH of an aligned descriptor within the core store, with fewer than 64 live (R140, R155): the next STRM_ENTRY names it with VALID = 1, its
progress is 0 and DESC_LIVE counts it. With 64 live it waits; a misaligned address raises STREAM_DESC. (Log entry 16: an instruction's row takes
its whole effect at once.) -/
def Obligations.DescriptorLaunches : Prop :=
  ∀ (s : State) (c : CoreId) (sb : BitVec 5) (off : BitVec 16), Ready s c →
    let a := (s.sreg c sb).toInt + off.toInt
    let k := s.fget (rStrmStatus c) fStrmStatusDescLive
    (a % 64 = 0 → 0 ≤ a → a + 64 ≤ 0x200000 → k < 64 → Runs (.slnch c sb off) s (fun t =>
      t.flag (rStrmEntry c k) fStrmEntryValid = true ∧ t.fget (rStrmEntry c k) fStrmEntryDescIdx = (a / 64).toNat ∧
      t.reg (rStrmProgress c k) = 0 ∧ t.fget (rStrmStatus c) fStrmStatusDescLive = k + 1 ∧
      RegsBut (fun x => x = rStrmEntry c k ∨ x = rStrmProgress c k ∨ x = rStrmStatus c) s t ∧ SameMem s t)) ∧
    (a % 64 = 0 → 0 ≤ a → a + 64 ≤ 0x200000 → k = 64 → Runs (.slnch c sb off) s (fun t => SameRegs s t ∧ SameMem s t)) ∧
    (a % 64 ≠ 0 ∨ a < 0 ∨ 0x200000 < a + 64 → Runs (.slnch c sb off) s (fun t => t.fget (rCoreStatus c) fCoreStatusFault = 0x100D))

/-! ### The matrix array -/

/-- PASS with checking off and no chain (R78, R80, R89, R102): row i of TD, for i below N, holds the 32 results of row i of TA against the rows of TW,
each column accumulated through the cells and rounded once a cell; other memory stays; with N = 0 nothing changes. ASTAT (R143): bits [23:0] of
ARR_STATUS as it stands (R101), zero-extended, go to S[SD]. (Log entry 16: an instruction's row takes its whole effect at once.) -/
def Obligations.UncheckedPasses : Prop :=
  (∀ (s : State) (c : CoreId) (ta tw td n : BitVec 6) (rate : BitVec 2), Ready s c → s.passFault c ta tw td n rate false false = none →
    s.checking c = false → (s.core c).runs = [] → (s.core c).chain = [] →
    let k := 32 * 2 ^ rate.toNat
    let dec := fun (tile i : Nat) => decRow (cfgFmt (s.reg (rTileCfg c tile))) k (s.row c tile i)
    let y := fun i => (List.range 32).map fun j => cellSum (2 ^ rate.toNat) 32 (dec ta.toNat i) (dec tw.toNat j) 0
    (n ≠ 0 → Runs (.pass c ta tw td n rate false false) s (fun t =>
      (∀ i, i < n.toNat → t.row c td.toNat i = slice (rowBytes (y i)) 0 128) ∧ MemBut (tileAddr c td.toNat 0) (128 * n.toNat) s t ∧
      RegsBut (fun a => a = rArr c ∨ a = rArrPassCnt c.hall.val (arrIx c) ∨ a = rArrMacCnt c.hall.val (arrIx c)) s t)) ∧
    (n = 0 → Runs (.pass c ta tw td n rate false false) s (fun t => SameRegs s t ∧ SameMem s t))) ∧
  (∀ (s : State) (c : CoreId) (sd : BitVec 5), Ready s c →
    Runs (.astat c sd) s (WritesReg (rS c sd.toNat) (BitVec.ofNat 64 ((s.arrWord c).toNat % 2 ^ 24)) s))

/-- PASS with checking on and no chain (R28, R31, R85): the pass waits in the array for its check and no memory changes; of the registers only
ARR_STATUS may change. PASS_CHECK of a single pass before its own check cc (R86, R90): without a mismatch the destination's rows are written and
the run ends; with one the destination stays and STRIKES rises by one, saturating at 255. (Log entry 16: an instruction's row takes its whole
effect at once.) -/
def Obligations.CheckedPasses : Prop :=
  (∀ (s : State) (c : CoreId) (ta tw td n : BitVec 6) (rate : BitVec 2), Ready s c → s.passFault c ta tw td n rate false false = none →
    n ≠ 0 → s.checking c = true → (s.core c).chain = [] →
    Runs (.pass c ta tw td n rate false false) s (fun t =>
      (∃ r, (t.core c).runs = (s.core c).runs ++ [r] ∧ r.checked = true ∧ r.result = none) ∧ RegsBut (· = rArr c) s t ∧ SameMem s t)) ∧
  (∀ (s : State) (c : CoreId) (r : RunS) (p : PassS) (upsets : List (BitVec 10 × BitVec 32)),
    (s.core c).runs = [r] → r.list = [p] → r.checked = true → r.result = none → r.reexec = false → s.cc < r.check → p.keep = false →
    let y := upset (chainOut [p]) upsets
    let v := checkRun (s.fget (rArrCtxCfg c.hall.val (s.coreCtx c).val) fArrCtxCfgTolFactor) [p] y
    (v.mismatch = false → Runs (.passCheck c upsets) s (fun t => (t.core c).runs = [] ∧
      (∀ i, i < y.length → t.row c p.td.toNat i = slice (rowBytes (y.getD i [])) 0 128) ∧ MemBut (tileAddr c p.td.toNat 0) (128 * y.length) s t ∧
      RegsBut (fun a => a = rArr c ∨ a = rArrPassCnt c.hall.val (arrIx c) ∨ a = rArrMacCnt c.hall.val (arrIx c) ∨
        a = rArrNonfiniteCnt c.hall.val (arrIx c)) s t)) ∧
    (v.mismatch = true → Runs (.passCheck c upsets) s (fun t => SameMem s t ∧
      t.fget (rArr c) fArrStatusStrikes = min 255 (s.fget (rArr c) fArrStatusStrikes + 1) ∧
      RegsBut (fun a => a = rArr c ∨ a = rArrCheckFailCnt c.hall.val (arrIx c) ∨ a = rArrReexecCnt c.hall.val (arrIx c) ∨
        a = rArrNonfiniteCnt c.hall.val (arrIx c)) s t)))

/-! ### Bundles, step ends, halts and stops of cores -/

/-- BUNDLE_FETCH on a running core whose issue queue has room for four bundles (R52): the bundles from the fetch index to the end of its line join the
queue, each with the 32 bytes at 32 times its index, and the index moves to the next line. A second fetch in the same cc reads nothing (R72). -/
def Obligations.BundleFetches : Prop :=
  ∀ (s : State) (c : CoreId),
    let i := (s.core c).fetchIdx
    ((s.core c).fetched = true → exec (.bundleFetch c) s = .next s) ∧
    (s.run c = true → (s.core c).queue.length ≤ 4 → (s.core c).fetched = false → Runs (.bundleFetch c) s (fun t =>
      (t.core c).queue = (s.core c).queue ++ (List.range (4 - i % 4)).map (fun j =>
        ⟨BitVec.ofNat 16 (i + j), BitVec.ofNat 256 (leNat (s.rdStore c (32 * (i + j)) 32))⟩) ∧
      (t.core c).fetchIdx = (i / 4 * 4 + 4) % 65536 ∧ (t.core c).fetched = true ∧ SameRegs s t ∧ SameMem s t))

/-- BUNDLE_ISSUE (R28, R136): a head bundle that passes its checks, is held by nothing and takes no transfer leaves the queue, and PC goes to the next
index while no hardware loop is active; one that something holds stays and changes no register and no memory. -/
def Obligations.BundleIssues : Prop :=
  ∀ (s : State) (c : CoreId) (b : BundleS) (q : List BundleS) (l : List Instr), Ready s c → (s.core c).attempt = none →
    (s.core c).bubble = 0 → (s.core c).queue = b :: q → s.headCheck c b = .ok l →
    (s.bundleHolds c l = [] → s.loopDep c = 0 → (∀ i ∈ l, s.ctlTarget c i = none) →
      Runs (.bundleIssue c) s (fun t => t.pc c = (b.idx.toNat + 1) % 65536 ∧ (t.core c).queue = q ∧ (t.core c).attempt = some none)) ∧
    (s.bundleHolds c l ≠ [] → Runs (.bundleIssue c) s (fun t =>
      (∃ k, (t.core c).attempt = some (some k)) ∧ (t.core c).queue = b :: q ∧ SameRegs s t ∧ SameMem s t))

/-- A fetch raises nothing by itself, wherever it goes: BUNDLE_FETCH changes no register, writes no record and stops no core. A head bundle from
outside CODE_RANGE does not issue and raises FETCH_RANGE (R53): CORE_STATUS.FAULT holds 0x1008, PC and the queue stay, and every core of the
context has FAULTED = 1 and is asked to stop. -/
def Obligations.FetchRangeFaults : Prop :=
  ∀ (s : State) (c : CoreId),
    Runs (.bundleFetch c) s (fun t => SameRegs s t ∧ SameMem s t ∧ t.log = s.log ∧ ∀ d, (t.core d).stopCause = (s.core d).stopCause) ∧
    (∀ (b : BundleS) (q : List BundleS), Ready s c → (s.core c).attempt = none → (s.core c).bubble = 0 → (s.core c).queue = b :: q →
      (b.idx.toNat / 4 < s.fget (rCodeRange c) fCodeRangeBaseLine ∨ s.fget (rCodeRange c) fCodeRangeLimitLine < b.idx.toNat / 4) →
      Runs (.bundleIssue c) s (fun t => t.fget (rCoreStatus c) fCoreStatusFault = 0x1008 ∧ t.pc c = s.pc c ∧ (t.core c).queue = b :: q ∧
        ∀ d ∈ s.activeCores (s.coreCtx c).val, t.flag (rCoreStatus d) fCoreStatusFaulted = true ∧ (t.core d).stopCause ≠ none))

/-- STEPEND_RETIRE, CONTEXT_STEP_BOUNDARY, DEVICE_STEP_BOUNDARY and JOIN_TIMEOUT (R16, R39, R98, R386): a marker retires once the core's sends, passes
and restarts have ended; a context whose cores have all retired theirs is at its boundary; when the contexts that take part are, the step's energy
and duration are reported and the evaluation begins; the end of the join wait releases a context's cores into the next step, unless one of its
groups has not adopted the commit. -/
def Obligations.StepBoundaries : Prop :=
  ∀ (s : State) (c : CoreId) (k : CtxId) (exit : Bool),
    ((s.core c).marker = .issued exit → (s.core c).sends = [] → (s.core c).runs = [] → (s.core c).chain = [] → (s.core c).restart = [] →
      s.beats = [] → Runs (.stependRetire c) s (fun t => (t.core c).marker = .retired exit ∧ SameRegs s t ∧ SameMem s t)) ∧
    (s.ctxRunning k.val = true → (s.ctx k.val).groupHalt = false → (s.ctx k.val).boundary = false → s.liveCores k.val ≠ [] →
      (∀ d ∈ s.liveCores k.val, s.presentOn d k = true ∧ s.coreAtEnd d = true ∧ s.fget (rCelStatus d) fCelStatusFrames = 0) → s.flag rMpCfg fMpCfgEn = false →
      Runs (.contextStepBoundary k) s (fun t => (t.ctx k.val).boundary = true ∧ SameRegs s t ∧ SameMem s t)) ∧
    (s.takesPart k.val = true → (∀ j, j < 8 → s.takesPart j = true → (s.ctx j).boundary = true) → (s.ctx k.val).joined = false →
      s.ebc.evaluating = false → s.ebc.change = none → s.ebc.stepUj / 1000 < 2 ^ 32 → (s.now - s.ebc.stepAt) / unitsUs < 2 ^ 32 →
      Runs .deviceStepBoundary s (fun t => t.ebc.evaluating = true ∧ t.ebc.stepUj = 0 ∧ t.ebc.stepAt = s.now ∧
        t.fget rEbcStepMj fEbcStepMjLastStepMj = s.ebc.stepUj / 1000 ∧
        t.fget rEbcStepUs fEbcStepUsLastStepUs = (s.now - s.ebc.stepAt) / unitsUs ∧
        RegsBut (fun a => a = rEbcStepMj ∨ a = rEbcStepUs ∨ a = rEbcEng) s t ∧ SameMem s t)) ∧
    ((s.ctx k.val).boundary = true → (s.ctx k.val).joined = false → s.takesPart k.val = true → s.ebc.evaluating = false → s.ebc.change = none →
      (∃ j, j < 8 ∧ s.takesPart j = true ∧ (s.ctx j).boundary = false) → (∃ g ∈ s.ctxGroups k.val, (s.group g).committed = false) →
      Runs (.joinTimeout k) s (fun t => (t.ctx k.val).joined = true ∧ SameRegs s t ∧ SameMem s t)) ∧
    ((s.ctx k.val).boundary = true → (s.ctx k.val).joined = false → s.takesPart k.val = true → s.ebc.evaluating = false → s.ebc.change = none →
      (∃ j, j < 8 ∧ s.takesPart j = true ∧ (s.ctx j).boundary = false) → s.ctxGroups k.val = [] →
      (∀ d ∈ s.activeCores k.val, (s.core d).marker = .retired false) → (s.ctx k.val).exited = [] →
      Runs (.joinTimeout k) s (fun t => (∀ d ∈ s.activeCores k.val, (t.core d).marker = .none) ∧ (t.ctx k.val).boundary = false ∧
        SameRegs s t ∧ SameMem s t))

/-- CORE_HALT, CORE_RESUME and CORE_STEP (R67, R69, R76): HALT = 1 asks a running core to stop; HALT = 0 lets a stopped core of a running context
issue again from PC with RUN = 1 and STOPPED = 0; STEP does so for one bundle while HALT stays 1. -/
def Obligations.HaltResumeStep : Prop :=
  ∀ (s : State) (c : CoreId),
    (s.run c = true → (s.core c).stopCause = none → Runs (.coreHalt c) s (fun t => t.flag (rCoreCtl c) fCoreCtlHalt = true ∧
      (t.core c).stopCause = some .halt ∧ t.canIssue c = false ∧ RegsBut (· = rCoreCtl c) s t ∧ SameMem s t)) ∧
    (s.run c = false → Runs (.coreHalt c) s (fun t => t.flag (rCoreCtl c) fCoreCtlHalt = true ∧ RegsBut (· = rCoreCtl c) s t ∧ SameMem s t)) ∧
    (s.run c = false → s.resumable c = true → Runs (.coreResume c) s (fun t => t.flag (rCoreCtl c) fCoreCtlHalt = false ∧
      t.run c = true ∧ t.flag (rCoreStatus c) fCoreStatusStopped = false ∧ (t.core c).fetchIdx = s.pc c ∧ (t.core c).stopCause = none ∧ SameMem s t)) ∧
    (s.run c = false → s.resumable c = true → s.flag (rCoreCtl c) fCoreCtlHalt = true → Runs (.coreStep c) s (fun t =>
      t.flag (rCoreCtl c) fCoreCtlHalt = true ∧ t.run c = true ∧ (t.core c).step = true ∧ SameMem s t))

/-- CORE_STOP of a running core that has been asked to stop (R67, R76, R95, R179): RUN = 0 and STOPPED = 1; the operations that a stop abandons wait to
be restarted, PEND counts them, and unless HALT or a breakpoint stopped the core a STOP_DONE goes to the front die, of a pre-emption once the rows of its
sends are delivered (R44). A group halt keeps none of them.
Without a request, or on a core that does not run, no register changes. -/
def Obligations.CoreStops : Prop :=
  (∀ (s : State) (c : CoreId) (cause : StopCause), s.run c = true → (s.core c).stopCause = some cause →
    Runs (.coreStop c) s (fun t => t.run c = false ∧ t.flag (rCoreStatus c) fCoreStatusStopped = true ∧ (t.core c).stopCause = none ∧
      (t.core c).chain = [] ∧ (t.core c).queue = [] ∧
      t.fget (rCoreStatus c) fCoreStatusPend = min 255 (t.core c).restart.length ∧ (cause = .group → (t.core c).restart = []) ∧
      (cause = .halt → t.bell = s.bell) ∧
      (cause ≠ .halt → (cause = .preempt → s.rowsDone c = true) → ∃ m, t.bell = s.bell ++ [m] ∧ bellType m = 9 ∧ bellSrc m = c.pos) ∧
      (cause = .preempt → s.rowsDone c = false → t.bell = s.bell ∧ (t.core c).tellStop = true) ∧
      RegsBut (fun a => a = rCoreStatus c ∨ a = rArr c ∨ a = rArrDiscardCnt c.hall.val (arrIx c) ∨ a = rBellSentCnt c) s t ∧ SameMem s t)) ∧
  (∀ (s : State) (c : CoreId), (s.core c).stopCause = none → exec (.coreStop c) s = .next s) ∧
  (∀ (s : State) (c : CoreId), s.run c = false → Runs (.coreStop c) s (fun t => (t.core c).stopCause = none ∧ SameRegs s t ∧ SameMem s t))

/-- SYNC_CLOCK_GATE and SYNC_TIMEOUT (R220, R237): a core whose head bundle has waited on a counter for 16 cc gates, and not before; a GWAIT that has
lasted TMO_MS ends with GWAIT_PEND = 0 and the fault SYNC_TIMEOUT. With TMO_MS = 0 nothing ends. -/
def Obligations.SyncWaitsEnd : Prop :=
  ∀ (s : State) (c : CoreId),
    (s.run c = true → (∃ sc mode consume imm, Instr.wait c sc mode consume imm ∈ s.headInstrs c ∧ s.waitOk c sc mode imm = false) →
      16 ≤ (s.core c).waited → Runs (.syncClockGate c) s (fun t => (t.core c).gated = true ∧ SameRegs s t ∧ SameMem s t)) ∧
    ((s.core c).waited < 16 → exec (.syncClockGate c) s = .next s) ∧
    (s.run c = true → s.fget (rSyncCtxCfg c.hall.val (s.coreCtx c).val) fSyncCtxCfgTmoMs ≠ 0 → (s.core c).gwait.isSome →
      s.flag (rSyncStatus c) fSyncStatusGwaitPend = true → Runs (.syncTimeout c) s (fun t => t.fget (rCoreStatus c) fCoreStatusFault = 0x4003 ∧
        t.flag (rSyncStatus c) fSyncStatusGwaitPend = false ∧ (t.core c).gwait = none)) ∧
    (s.fget (rSyncCtxCfg c.hall.val (s.coreCtx c).val) fSyncCtxCfgTmoMs = 0 → exec (.syncTimeout c) s = .next s)

/-- CONTEXT_SAVE and CONTEXT_RESTORE (R76, R100, R235, R475): the context on a stopped core whose operations have ended, with no stream request outstanding
and no row of the context's sends on its way, becomes absent, its context-state registers, its ARR_CTX_CFG and its tile file stand in the saved image, and those registers read as after reset; a restore brings it back, present and stopped, with the
registers and tiles of the image, and no image stays behind. (Log entry 42: that a save moves the image in one step, what it waits for, and what the
registers then read, is the model's choice.) -/
def Obligations.ContextsSaveAndRestore : Prop :=
  (∀ (s : State) (c : CoreId),
    (s.core c).present = true → s.run c = false → (s.core c).flights = [] → (s.core c).runs = [] → (s.core c).sends = [] → (s.core c).posts = [] →
    (∀ d ∈ (s.core c).descs, d.reqs = 0) → s.ctxMoves (s.coreCtx c).val = false →
      let mine := fun a => ctxReg c a = true ∨ a = rCoreStatus c ∨ a ∈ syncRegs c
      Runs (.contextSave c) s (fun t => (t.core c).present = false ∧ t.savedOf (s.coreCtx c) c = some (s.ctxImage c) ∧
        (∀ a, mine a → t.reg a = regReset a) ∧
        RegsBut (fun a => mine a ∨ a = rHaltCnt c ∨ a = rArrNoworkCnt c ∨ a = rVecNoworkCnt c ∨ a = rStrmNoworkCnt c) s t ∧ SameMem s t)) ∧
  (∀ (s u : State) (c : CoreId) (k : CtxId), s.canon → u.canon → (s.core c).present = false → s.savedOf k c = some (u.ctxImage c) →
    let mine := fun a => ctxReg c a = true ∨ a ∈ syncRegs c
    Runs (.contextRestore ⟨c, k⟩) s (fun t => (t.core c).present = true ∧ t.savedOf k c = none ∧
      t.flag (rCoreStatus c) fCoreStatusStopped = true ∧ t.run c = false ∧ (∀ a, mine a → a ≠ rCoreStatus c → t.reg a = u.reg a) ∧
      t.reg (rArrCtxCfg c.hall.val k.val) = u.reg (rArrCtxCfg c.hall.val (u.coreCtx c).val) ∧
      RegsBut (fun a => mine a ∨ a = rCoreStatus c ∨ a = rArrCtxCfg c.hall.val k.val) s t ∧ ∀ a, t.rdB a = if tileCell c a then u.rdB a else s.rdB a)) ∧
  (∀ (s : State) (c : CoreId) (k : CtxId), (s.core c).present = true ∨ s.savedOf k c = none → exec (.contextRestore ⟨c, k⟩) s = .next s)

/-! ### The bell wire -/

/-- BELL_HOP (R175, R178, R183): the first message of its queue, with its output free for it and room in the queue it would enter, moves one router along
X, then along Y, with its flits as they are; at its core it waits to be taken; a flit resent once counts in BELL_RETRY_CNT. A message that its output
does not choose, or that finds no room, waits. A message of a reserved type, for a reserved node, for a hole, or with a second parity error is
discarded, a FAULT message goes to the front die and its context stops. -/
def Obligations.BellWireHops : Prop :=
  ∀ (s : State) (m : BellMsg) (rest : List BellMsg), s.bell = m :: rest → m.out = false → m.x < 48 → m.y < 24 →
    let r := coreAtXY m.x m.y
    let stops := fun t => (∃ f, State.bell t = rest ++ [f] ∧ bellType f = 0xA) ∧ (State.ctx t (bellCtx m).val).cause ≠ 0
    let goes := fun (n : BellMsg) t => State.bell t = rest ++ [n] ∧ SameRegs s t ∧ SameMem s t
    ((bellReserved m = true ∨ bellNode m = none) → Runs (.bellHop m 0) s stops) ∧
    Runs (.bellHop m 2) s stops ∧
    (∀ o, bellWants m = some o → s.bellChosen m o = false ∨ s.bellFits m = false → exec (.bellHop m 0) s = .next s) ∧
    (∀ o, bellWants m = some o → s.bellChosen m o = true → s.bellFits m = true →
      (∀ c : CoreId, bellNode m = some (.core c) →
        (m.x < gx c → Runs (.bellHop m 0) s (goes { m with x := m.x + 1, inp := 3 })) ∧
        (gx c < m.x → Runs (.bellHop m 0) s (goes { m with x := m.x - 1, inp := 1 })) ∧
        (m.x = gx c → m.y < gy c → Runs (.bellHop m 0) s (goes { m with y := m.y + 1, inp := 0 })) ∧
        (m.x = gx c → gy c < m.y → Runs (.bellHop m 0) s (goes { m with y := m.y - 1, inp := 2 })) ∧
        (m.x = gx c → m.y = gy c → s.isHole c = false → Runs (.bellHop m 0) s (goes { m with out := true })) ∧
        (m.x = gx c → m.y = gy c → s.isHole c = true → Runs (.bellHop m 0) s stops)) ∧
      (bellNode m = some .front → (m.x ≠ 0 → Runs (.bellHop m 0) s (goes { m with x := m.x - 1, inp := 1 })) ∧
        (m.x = 0 → Runs (.bellHop m 0) s (goes { m with out := true }))) ∧
      (∀ c : CoreId, bellNode m = some (.core c) → m.x < gx c → s.flag (rCntCtl r) fCntCtlFreeze = false → Runs (.bellHop m 1) s (fun t =>
        t.bell = rest ++ [{ m with x := m.x + 1, inp := 3 }] ∧ t.reg (rBellRetryCnt r) = s.reg (rBellRetryCnt r) + 1 ∧
        RegsBut (· = rBellRetryCnt r) s t ∧ SameMem s t)))

/-- PREEMPT, STOP_DONE and BELL_FAULT (R44, R67, R179, R180), each with no older message of its way before it: ACT = 0 asks a running core of the context to stop, ACT = 1 lets a stopped one issue again;
STOP_DONE of the last running core of a context in no group stops the context; BELL_FAULT marks the reporting core with the code and asks every
core of the context to stop, and one of a hall asks them without a code on any core. With an older message before it, nothing changes. -/
def Obligations.StopMessages : Prop :=
  ∀ (s : State) (c : CoreId) (k : CtxId) (code pc : BitVec 16) (param : BitVec 32),
    let free := fun q => s.bellFree q = true
    (∀ act, s.bellFree ⟨8, k, some act.toNat, some c.pos, none⟩ = false → exec (.preempt c k act) s = .next s) ∧
    (free ⟨8, k, some 0, some c.pos, none⟩ → s.presentOn c k = true → s.run c = true → (s.core c).stopCause = none → Runs (.preempt c k 0) s (fun t =>
      (t.core c).stopCause = some .preempt ∧ t.canIssue c = false ∧ SameRegs s t ∧ SameMem s t)) ∧
    (free ⟨8, k, some 1, some c.pos, none⟩ → s.presentOn c k = true → s.resumable c = true → s.run c = false → s.flag (rCoreCtl c) fCoreCtlHalt = false →
      Runs (.preempt c k 1) s (fun t =>
      t.run c = true ∧ t.flag (rCoreStatus c) fCoreStatusStopped = false ∧ SameMem s t)) ∧
    (free ⟨9, k, some c.pos, none, none⟩ → (s.ctx k.val).started = true → (s.ctx k.val).groupHalt = false → (s.ctx k.val).stopped = none → (s.ctx k.val).cause ≠ 0 →
      s.ctxGroups k.val = [] → (∀ d ∈ s.activeCores k.val, s.run d = false ∧ (s.core d).tellStop = false) → Runs (.stopDone c k) s (fun t =>
      (t.ctx k.val).stopped = some (s.ctx k.val).cause ∧ (t.ctx k.val).stopDone = [] ∧ SameMem s t)) ∧
    (∀ h, free ⟨0xA, k, some (faultPos (.hall h)), none, some [code ++ pc, param]⟩ → Runs (.bellFault (.hall h) k code pc param) s (fun t =>
      (∀ d ∈ s.activeCores k.val, t.flag (rCoreStatus d) fCoreStatusFaulted = true ∧ (t.core d).stopCause ≠ none ∧
        t.fget (rCoreStatus d) fCoreStatusFault = s.fget (rCoreStatus d) fCoreStatusFault) ∧
      RegsBut (fun a => ∃ d, a = rCoreStatus d) s t ∧ SameMem s t)) ∧
    (free ⟨0xA, k, some c.pos, none, some [code ++ pc, param]⟩ → s.presentOn c k = true → c ∈ s.activeCores k.val → Runs (.bellFault (.core c) k code pc param) s (fun t =>
      t.fget (rCoreStatus c) fCoreStatusFault = code.toNat ∧
      (∀ d ∈ s.activeCores k.val, t.flag (rCoreStatus d) fCoreStatusFaulted = true ∧ (t.core d).stopCause ≠ none) ∧
      RegsBut (fun a => ∃ d, a = rCoreStatus d) s t ∧ SameMem s t))


/-! ### The stream engine and the Cellar -/

/-- DESCRIPTOR_START (R150, R151, R152): of a running core's next descriptor in launch order, a zero-length one writes STATUS 0xC000 and leaves the
entry list; one with a reserved field or a hull outside its space raises STREAM_DESC and one with an illegal format STREAM_FORMAT, both in
LAST_FAULT too; one that touches no index table goes on with its 64 bytes taken, and changes no memory: to phase 2 if it is neither refused nor
staged (R121), descending if its overlap asks for that, to phase 1 if it is staged; an overlap that no order makes right raises STREAM_ALIGN. -/
def Obligations.DescriptorStarts : Prop :=
  ∀ (s : State) (c : CoreId) (e : Nat), s.run c = true → s.nextStart c = some e →
    let off := 64 * s.entFld c e fStrmEntryDescIdx
    let b := s.rdStore c off 64
    let d := parseDesc b
    let faults := fun code t => State.fget t (rCoreStatus c) fCoreStatusFault = code ∧ t.fget (rStrmStatus c) fStrmStatusLastFault = code
    (d.descBad = true → Runs (.descriptorStart c) s (faults 0x100D)) ∧
    (d.descBad = false → d.zero = true → Runs (.descriptorStart c) s (fun t =>
      t.rdStore c (off + 62) 2 = natBytes 2 0xC000 ∧ MemBut (coreBase c + off + 62) 2 s t ∧
      t.descLive c = s.descLive c - 1 ∧ (t.core c).descs.length + 1 = (s.core c).descs.length ∧
      RegsBut (fun a => (∃ i, a = rStrmEntry c i ∨ a = rStrmProgress c i) ∨ a = rStrmStatus c ∨ a = rCelStatus c ∨ a = rSc c d.ctId ∨
        a = rBellSentCnt c) s t)) ∧
    (d.descBad = false → d.zero = false → d.formatBad = true → Runs (.descriptorStart c) s (faults 0x1009)) ∧
    (d.descBad = false → d.zero = false → d.formatBad = false → d.cellar = false → d.runKind (coreBase c) = .refuse →
      Runs (.descriptorStart c) s (faults 0x1003)) ∧
    (d.descBad = false → d.zero = false → d.formatBad = false → d.cellar = false → d.idxSide = 0 → d.runKind (coreBase c) ≠ .refuse →
      Runs (.descriptorStart c) s (fun t => t.entFld c e fStrmEntryPhase = (if d.runKind (coreBase c) = .staged then 1 else 2) ∧
        t.entFld c e fStrmEntryDesc = (if d.runKind (coreBase c) = .down then 1 else 0) ∧ (t.desc c e).bind DescS.bytes = some b ∧
        RegsBut (· = rStrmEntry c e) s t ∧ SameMem s t))

/-- CELLAR_FILL_START and CELLAR_DRAIN_START (R249, R250): with no descriptor of the other direction open, a fill pushes a frame of F bytes below
CEL_LIMIT and a drain pops one above CEL_BASE, moving CEL_TOP, FRAMES and DIR and no memory. Without the room, or without the frame, the faults
are CELLAR_FULL and CELLAR_EMPTY. -/
def Obligations.CellarStarts : Prop :=
  ∀ (s : State) (c : CoreId) (e : BitVec 6), s.run c = true → s.nextStart c = some e.toNat →
    let d := parseDesc (s.rdStore c (64 * s.entFld c e.toNat fStrmEntryDescIdx) 64)
    let top := 128 * s.fget (rCelTop c) fCelTopTop
    let n := s.fget (rCelStatus c) fCelStatusFrames
    let f := d.frameLen
    d.descBad = false → d.zero = false → d.formatBad = false → d.cellar = true → s.dirFree c d.isFill = true →
    let moved := fun (top' n' dir : Nat) t => 128 * State.fget t (rCelTop c) fCelTopTop = top' ∧
      t.fget (rCelStatus c) fCelStatusFrames = n' ∧ t.fget (rCelStatus c) fCelStatusDir = dir ∧ t.entFld c e.toNat fStrmEntryPhase = 2 ∧
      RegsBut (fun a => a = rCelTop c ∨ a = rCelStatus c ∨ a = rCelPeak c ∨ a = rStrmEntry c e.toNat) s t ∧ SameMem s t
    (d.isFill = true → top + f ≤ 4096 * s.fget (rCelLimit c) fCelLimitLimit →
      Runs (.cellarFillStart c e) s (moved (top + f) ((n + 1) % 65536) 1)) ∧
    (d.isFill = true → 4096 * s.fget (rCelLimit c) fCelLimitLimit < top + f →
      Runs (.cellarFillStart c e) s (fun t => t.fget (rCoreStatus c) fCoreStatusFault = 0x3007)) ∧
    (d.isFill = false → n ≠ 0 → 4096 * s.fget (rCelBase c) fCelBaseBase + f ≤ top →
      Runs (.cellarDrainStart c e) s (moved (top - f) (n - 1) 2)) ∧
    (d.isFill = false → (n = 0 ∨ top < 4096 * s.fget (rCelBase c) fCelBaseBase + f) →
      Runs (.cellarDrainStart c e) s (fun t => t.fget (rCoreStatus c) fCoreStatusFault = 0x3008))

/-- DESCRIPTOR_COMPLETE, STREAM_TIMEOUT, STAGING_ACQUIRE, STAGING_PHASE2, CELLAR_TAG_CHECK and TABLE_WALK of live descriptor e (R43, R121, R122, R153,
R209, R210, R250): a descriptor that has moved every element, has faulted in none and has no request out writes STATUS 0x8000, leaves the list and posts its count to its
counter; a timeout raises STREAM_TIMEOUT; the first in line takes the staging area; its pages
translated, its lines taken by the stacks and the copy done, phase 2 begins from element 0; a tag line that names the frame, read through a stack that takes
the request, admits the drain; with no permitting entry in the translation cache a walk that finds a permitted entry keeps it for the
page, counted as a walk and, at the stack that holds the entry, as a read; any other raises PAGE_FAULT; with one, or after a fault, no walk is made. (Log
entry 190: that what is left of a descriptor, a staging copy and a tag line are asked for within the command is the model's choice.) -/
def Obligations.DescriptorEvents : Prop :=
  ∀ (s : State) (c : CoreId) (e : BitVec 6) (x : DescS), s.run c = true → s.desc c e.toNat = some x →
    let k := (s.coreCtx c).val
    let off := 64 * s.entFld c e.toNat fStrmEntryDescIdx
    (∀ d : DescP, x.parsed = some d → s.moving c e.toNat x d = true → x.faulted = false → x.reqs = 0 → (∀ o ∈ (s.core c).outq, o.desc ≠ x.id) → d.total ≤ (s.reg (rStrmProgress c e.toNat)).toNat →
      d.isFill = false → d.ctKind = 1 → d.ctId < 48 → s.fget (rSc c d.ctId) fScValue + d.count < 2 ^ 32 →
      Runs (.descriptorComplete c e) s (fun t => t.rdStore c (off + 62) 2 = natBytes 2 0x8000 ∧
        MemBut (coreBase c + off + 62) 2 s t ∧ (t.core c).descs = (s.core c).descs.eraseIdx e.toNat ∧
        t.fget (rSc c d.ctId) fScValue = s.fget (rSc c d.ctId) fScValue + d.count ∧
        RegsBut (fun a => (∃ i, a = rStrmEntry c i ∨ a = rStrmProgress c i) ∨ a = rStrmStatus c ∨ a = rCelStatus c ∨ a = rSc c d.ctId) s t)) ∧
    (x.waiting = false → Runs (.streamTimeout c e) s (fun t => t.fget (rCoreStatus c) fCoreStatusFault = 0x3002 ∧
      t.fget (rStrmStatus c) fStrmStatusLastFault = 0x3002)) ∧
    (∀ a l, x.waiting = true → (s.ctx k).staging = (c, x.id, a) :: l → Runs (.stagingAcquire c e) s (fun t =>
      (t.desc c e.toNat).map DescS.waiting = some false ∧ SameRegs s t ∧ SameMem s t)) ∧
    (∀ (d : DescP) (h : Int × Int) (u v w y : State) (got : List (Nat × Nat × Nat)), x.parsed = some d → x.staged = true → x.waiting = false →
      x.faulted = false → s.entFld c e.toNat fStrmEntryPhase = 1 → s.hasOutSlot c = true → d.srcHull = some h →
      let idx := if x.recheck then s.indices c d else x.idx.getD []
      let pages := got.map fun g => (g.1, g.2.2)
      (s.works c).recheckIdx c e.toNat x d = (v, true) →
      v.pagesOf c [] (vaParts ((d.srcRanges idx).map fun q => (q.1, q.2, accRead))) = (w, got, none) →
      w.linesTouch c x.id (d.stageLines k idx h.1 pages) = .ok y →
      (pages.foldl (fun s p => s.notePage c e.toNat (p.1 * 2 ^ 21)) y).stageCopy c h.1 pages (d.srcRanges idx) = (u, none) →
      Runs (.stagingPhase2 c e) s (fun t => t.entFld c e.toNat fStrmEntryPhase = 2 ∧ t.reg (rStrmProgress c e.toNat) = 0 ∧ SameMem u t)) ∧
    (∀ (d : DescP) (base top n pa : Nat) (u v : State), x.parsed = some d → x.frame = some (base, top, n) → d.cellar = true → d.isFill = false →
      x.tagOk = false → x.faulted = false → s.hasOutSlot c = true → (s.works c).xlat c (base + (d.frameLen - 128)) accRead = (v, .ok pa) →
      v.linesTouch c x.id [(lineOf pa, .read)] = .ok u → u.poisoned pa 128 = false → u.rdBytes pa 128 = tagLine d.frameLen (n - 1) k c.pos →
      Runs (.cellarTagCheck c e) s (fun t => (t.desc c e.toNat).map DescS.tagOk = some true ∧ SameRegs u t ∧ SameMem u t)) ∧
    ∀ (va : BitVec 48) (acc : BitVec 2),
      let bad := pteCheck (s.flag (rTrCtx c.hall.val k) fTrCtxEn) (s.poisoned (pteAddr k va.toNat) 8) (s.pte k va.toNat) acc.toNat
      let page := fun y : Nat × Nat × Word => y.1 == k && y.2.1 == va.toNat / 2 ^ 21
      let cached : Prop := ∃ y ∈ (s.core c).tlb, page y = true ∧ pteCheck true false y.2.2.toNat acc.toNat = none
      (∀ y, (s.core c).tlb.find? page = some y → pteCheck true false y.2.2.toNat acc.toNat = none → s.flag (rTrCtx c.hall.val k) fTrCtxEn = true →
        exec (.tableWalk c e va acc) s = .next s) ∧
      let pte := stackOf (lineOf (pteAddr k va.toNat))
      let reads := fun a => ∃ r ∈ [rStkHitCnt, rStkMissCnt, rStkWbCnt, rStkRefuseCnt], a = r (stackHall pte) (pte % 2)
      (x.faulted = true → exec (.tableWalk c e va acc) s = .next s) ∧
      (x.faulted = false → ¬ cached → bad = none → Runs (.tableWalk c e va acc) s (fun t => (t.core c).tlb.head? = some (k, va.toNat / 2 ^ 21, BitVec.ofNat 64 (s.pte k va.toNat)) ∧
        t.reg (rTrWalkCnt c.hall.val) = s.reg (rTrWalkCnt c.hall.val) + 1 ∧ RegsBut (fun a => a = rTrWalkCnt c.hall.val ∨ reads a) s t ∧
        SameMem s t)) ∧
      (x.faulted = false → ¬ cached → bad ≠ none → Runs (.tableWalk c e va acc) s (fun t => t.fget (rCoreStatus c) fCoreStatusFault = 0x3001 ∧
        t.flag (rTrFault c.hall.val k) fTrFaultValid = true))

/-! ### Stacks and stack caches -/

/-- STACK_CACHE_REQUEST of a demand read that moves no elements yet, MISS_FILL, HBM_SLOW_BANK and PATROL_SCRUB (R42, R199, R200, R202, R203): a request
leaves its core in a reserved outbound slot, behind those that have waited and in the order of the edge core and lane, and waits for one otherwise; at its stack
the data of one that hits are held for a return slot of its core, and it is outstanding until they arrive; one of an absent line takes a miss slot
and counts as outstanding, one of a line with a miss slot merges into it, and with every slot taken it is refused and waits in its core; a fill brings
the line in, frees the slot and holds a read's data for its core, once the write-back buffer has room; a bank whose miss has waited more than SLOW_US becomes slow with one record; a scrub
counts a corrected line, and poisons and records an uncorrectable one. (Log entry 190: that the command stands for one line request is the model's
choice.) -/
def Obligations.StackCaches : Prop :=
  (∀ (s u : State) (c : CoreId) (e : BitVec 6) (va : BitVec 40) (port lane : Fin 4) (x : DescS) (d : DescP) (pa : Nat),
    let l := lineOf pa
    let k := stackOf pa
    let q := u.stack k
    let cnt := fun r : Nat → Nat → Nat => r (stackHall k) (k % 2)
    let used := u.fget (rStrmStatus c) fStrmStatusReqUsed
    let asks := Instr.stackCacheRequest c e va .read 0 ⟨port, lane, .clean⟩
    let now : Prop := (u.core c).outq = [] ∧ u.slotFree c = true ∧ u.leaving = [] ∧ u.arrivesNow k port.val lane.val = true
    s.run c = true → s.desc c e.toNat = some x → (s.core c).descs.findIdx? (fun y => y.id == x.id) = some e.toNat → x.parsed = some d →
      x.faulted = false → x.recheck = false → s.moving c e.toNat x d = true → va.toNat < hbmEnd → d.reqFits .read va.toNat = true →
      s.fget (rStrmStatus c) fStrmStatusReqUsed + (s.core c).outq.length < 64 → s.reqPa c x d .read va.toNat = (u, .ok pa) →
    (¬ now → Runs asks s (fun t =>
      (∃ o, (t.core c).outq = (s.core c).outq ++ [o] ∧ o.desc = x.id ∧ o.line = l ∧ o.refused = false) ∧ SameRegs u t ∧ SameMem s t)) ∧
    (now →
      ((∃ y ∈ q.lines, y.1 = l) → Runs asks s (fun t =>
        t.reg (cnt rStkHitCnt) = u.reg (cnt rStkHitCnt) + 1 ∧ t.fget (rStrmStatus c) fStrmStatusReqUsed = used + 1 ∧
        (∃ b : BackS, (t.stack k).back = q.back ++ [b] ∧ b.line = l ∧ b.req.core = c ∧ b.req.desc = x.id ∧
          b.data = if s.poisoned l 128 then none else some (s.rdBytes l 128)) ∧
        RegsBut (fun a => a = rStrmStatus c ∨ a = cnt rStkHitCnt ∨ a = cnt rStkPfUseCnt ∨ a = cnt rEdgeBeatsOut) u t ∧ SameMem s t)) ∧
      ((∀ y ∈ q.lines, y.1 ≠ l) → (∀ m ∈ q.misses, m.line ≠ l) → q.misses.length < 256 →
        (q.misses.filter fun m => bankOf m.line == bankOf l).length < u.stkCfg k fStkCfgBankSlotMax → Runs asks s (fun t =>
          (∃ r : ReqS, (t.stack k).misses = q.misses ++ [⟨l, [r], s.now⟩] ∧ r.core = c ∧ r.desc = x.id ∧ r.kind = .read) ∧
          t.fget (rStrmStatus c) fStrmStatusReqUsed = used + 1 ∧ t.reg (cnt rStkMissCnt) = u.reg (cnt rStkMissCnt) + 1 ∧
          RegsBut (fun a => a = rStrmStatus c ∨ a = cnt rStkMissCnt ∨ a = cnt rEdgeBeatsOut) u t ∧ SameMem s t)) ∧
      ((∀ y ∈ q.lines, y.1 ≠ l) → (∃ m ∈ q.misses, m.line = l) → Runs asks s (fun t =>
          (∃ r : ReqS, (t.stack k).misses = q.misses.map (fun m => if m.line = l then { m with reqs := m.reqs ++ [r] } else m) ∧
            r.core = c ∧ r.desc = x.id ∧ r.kind = .read) ∧
          t.fget (rStrmStatus c) fStrmStatusReqUsed = used + 1 ∧
          RegsBut (fun a => a = rStrmStatus c ∨ a = cnt rStkMergeCnt ∨ a = cnt rEdgeBeatsOut) u t ∧ SameMem s t)) ∧
      ((∀ y ∈ q.lines, y.1 ≠ l) → (∀ m ∈ q.misses, m.line ≠ l) → 256 ≤ q.misses.length → Runs asks s (fun t =>
          t.reg (cnt rStkRefuseCnt) = u.reg (cnt rStkRefuseCnt) + 1 ∧
          (t.stack k).misses = q.misses ∧ (∃ o, (t.core c).outq = [o] ∧ o.desc = x.id ∧ o.line = l ∧ o.refused = true) ∧
          RegsBut (fun a => a = cnt rStkRefuseCnt ∨ a = cnt rEdgeBeatsOut) u t ∧ SameMem s t)))) ∧
  ∀ (s : State) (k : Fin 12) (line : BitVec 40),
    let l := lineOf line.toNat
    let q := s.stack k.val
    let cnt := fun r : Nat → Nat → Nat => r (stackHall k.val) (k.val % 2)
    let bank := bankOf l
    ((∃ m ∈ q.misses, m.line = l) → (∀ m ∈ q.misses, ∀ r ∈ m.reqs, r.kind = .prefetch) → q.wbRoom l = true → Runs (.missFill k line .clean) s (fun t =>
      (t.stack k.val).misses = q.misses.filter (fun m => m.line != l) ∧ (∃ y ∈ (t.stack k.val).lines, y.1 = l) ∧
      RegsBut (· = cnt rStkWbCnt) s t ∧ SameMem s t)) ∧
    (∀ (r : ReqS) (m : MissS), q.misses.find? (fun m => m.line == l) = some m → m.reqs = [r] → r.kind = .read → q.wbRoom l = true →
      Runs (.missFill k line .clean) s (fun t => (t.stack k.val).misses = q.misses.filter (fun m => m.line != l) ∧
        (t.stack k.val).back = q.back ++ [⟨r, l, if s.poisoned l 128 then none else some (s.rdBytes l 128)⟩] ∧
        RegsBut (· = cnt rStkWbCnt) s t ∧ SameMem s t)) ∧
    (q.wbRoom l = false ∨ (∀ m ∈ q.misses, m.line ≠ l) → exec (.missFill k line .clean) s = .next s) ∧
    ((∃ m ∈ q.misses, bankOf m.line = bank ∧ s.stkCfg k.val fStkCfgSlowUs * unitsUs < s.now - m.since) → q.slowBanks.contains bank = false →
      Runs (.hbmSlowBank k (BitVec.ofNat 12 bank)) s (fun t => (t.stack k.val).slowBanks = q.slowBanks ++ [bank] ∧
        (∃ r, t.log.arrivals = s.log.arrivals ++ [r] ∧ r.code = 0x3005) ∧ SameRegs s t ∧ SameMem s t)) ∧
    ((∀ m ∈ q.misses, bankOf m.line = bank → s.now - m.since ≤ s.stkCfg k.val fStkCfgSlowUs * unitsUs) →
      exec (.hbmSlowBank k (BitVec.ofNat 12 bank)) s = .next s) ∧
    (stackOf l = k.val → l < hbmEnd →
      Runs (.patrolScrub k line .clean) s (fun t => Quiet s t) ∧
      Runs (.patrolScrub k line .corrected) s (fun t => t.reg (cnt rStkCorrCnt) = s.reg (cnt rStkCorrCnt) + 1 ∧
        RegsBut (· = cnt rStkCorrCnt) s t ∧ SameMem s t) ∧
      (s.poison.contains l = false → Runs (.patrolScrub k line .bad) s (fun t => t.poison = l :: s.poison ∧
        t.reg (cnt rStkUncorrCnt) = s.reg (cnt rStkUncorrCnt) + 1 ∧ (∃ r, t.log.arrivals = s.log.arrivals ++ [r] ∧ r.code = 0x3003) ∧
        RegsBut (· = cnt rStkUncorrCnt) s t ∧ SameMem s t)))

/-! ### The mesh -/

/-- MESH_BEAT (R35, R51, R171, R173) of a beat from outside the mesh, which one that enters by an attachment counts in EDGE_BEATS_IN of its router: a correct beat leaves in the next cc through the one output that names its input and lane, toward the neighbour; a
corrected one does the same and counts in MESH_CORR_CNT; one that no output names raises MESH_STRAY; an uncorrectable one stops the owner of the slot, and
CORE_STATUS shows it where that context is on the core. -/
def Obligations.MeshBeats : Prop :=
  ∀ (s : State) (c : CoreId) (inp : BitVec 3) (lane2 : Bool) (data : Bytes), s.beats = [] →
    (inp = 7 ∨ bitsN (s.laneEnt c s.slot) 13 11 ≠ inp.toNat) →
    let outs := s.takers c inp.toNat lane2
    let owner := s.slotOwner c inp.toNat lane2
    let enters := fun a => (inp = 7 ∨ cap3 c = true ∧ offGrid c inp.toNat = true) ∧ ∃ e p, edgeOf c = some (e, p) ∧ a = rEdgeBeatsIn c.hall.val e
    (∀ (o ent i : Nat) (d : CoreId), outs = [(o, ent)] → o < 4 → meshNext c o = some (d, i) → s.isHole d = false →
      Runs (.meshBeat c inp lane2 data .clean) s (fun t =>
        t.beats = [⟨d.idx, i, s.cc + 1, 1152, slice data 0 128⟩] ∧ RegsBut enters s t ∧ SameMem s t) ∧
      (s.flag (rCntCtl c) fCntCtlFreeze = false → Runs (.meshBeat c inp lane2 data .corrected) s (fun t =>
        t.beats = [⟨d.idx, i, s.cc + 1, 1152, slice data 0 128⟩] ∧ t.reg (rMeshCorrCnt c) = s.reg (rMeshCorrCnt c) + 1 ∧
        RegsBut (fun a => a = rMeshCorrCnt c ∨ enters a) s t ∧ SameMem s t))) ∧
    (outs = [] → Runs (.meshBeat c inp lane2 data .clean) s (fun t => t.fget (rCoreStatus c) fCoreStatusFault = 0x1006 ∧ t.beats = [])) ∧
    Runs (.meshBeat c inp lane2 data .bad) s (fun t => (t.ctx owner.val).cause ≠ 0 ∧ t.beats = [] ∧
      (s.presentOn c owner = true → t.fget (rCoreStatus c) fCoreStatusFault = 0x100E))

/-! ### Links -/

/-- Training, loss and retraining of a link (R268, R284, R287, R288, R290): each training event takes the one state that awaits it to the next, a
failure returns to DETECT with one failure more; losing an open link that no ring uses takes it DOWN with LAST_DOWN, LINK_DOWN_CNT and one
LINK_DOWN record; corrected bytes are counted. ENABLE starts detection and DISABLE ends it. Where a link starts afresh, LINK_HOLD_NS takes the time for
which beats of it were held (R292). -/
def Obligations.LinkTraining : Prop :=
  ∀ (s : State) (n : LinkId),
    let st := s.linkState n.val
    let goes := fun (v : Nat) (t : State) => t.linkState n.val = v ∧ SameMem s t
    let only := fun (v : Nat) (t : State) => goes v t ∧ RegsBut (fun a => a = rLinkStatus n.val ∨ a = rLinkHoldNs n.val) s t
    let failed := fun (t : State) => only 1 t ∧ (t.link n.val).fails = (s.link n.val).fails + 1 ∧ (t.link n.val).credits = 256
    let lost := fun (reason : Nat) (t : State) => goes 7 t ∧ t.fget (rLinkStatus n.val) fLinkStatusLastDown = reason ∧
      t.reg (rLinkDownCnt n.val) = s.reg (rLinkDownCnt n.val) + 1 ∧ (t.link n.val).egress = [] ∧ (t.link n.val).ctlOut = [] ∧
      (∃ r, t.log.arrivals = s.log.arrivals ++ [r] ∧ r.code = 0x5001) ∧
      RegsBut (fun a => a = rLinkStatus n.val ∨ a = rLinkDownCnt n.val ∨ a = rLinkHoldNs n.val) s t
    (st = 1 → Runs (.linkSignalDetect n) s (fun t => only 2 t ∧ (t.link n.val).mode = s.flag (rLinkCtl n.val) fLinkCtlMode)) ∧
    (st = 2 → Runs (.linkTrainDone n) s (fun t => goes 3 t ∧ RegsBut (fun a => a = rLinkStatus n.val ∨ a = rEbcStatus) s t)) ∧
    (st = 3 → Runs (.linkAlignDone n) s (fun t => only 4 t ∧
      ∃ b, (t.link n.val).ctlOut = [.mgmt 0 b, .mgmt 1 (BitVec.ofNat 116 s.frameStamp)])) ∧
    (st = 2 → Runs (.linkTrainTimeout n) s failed) ∧ (st = 3 → Runs (.linkAlignTimeout n) s failed) ∧
    (st = 4 → Runs (.linkIdentTimeout n) s failed) ∧ (st = 7 → Runs (.linkDownExpiry n) s (only 1)) ∧
    (st = 6 → s.ringUses n.val = [] →
      (∀ lock, Runs (.linkLossOfSignal n lock) s (lost (if lock then 1 else 0))) ∧ Runs (.linkNoCodeword n) s (lost 3) ∧
      (∀ k, Runs (.linkCodewordRx n k true) s (lost 2)) ∧ Runs (.linkRetrain n) s (lost 6) ∧ Runs (.mgmtClose n) s (lost 4)) ∧
    (3 ≤ st → st ≠ 7 → ∀ k : BitVec 4, Runs (.linkCodewordRx n k false) s (fun t =>
      t.reg (rLinkFecCorrCnt n.val) = s.reg (rLinkFecCorrCnt n.val) + BitVec.ofNat 64 (min 12 k.toNat) ∧
      RegsBut (· = rLinkFecCorrCnt n.val) s t ∧ SameMem s t)) ∧
    (st = 0 → Runs (.linkEnable n) s (fun t => goes 1 t ∧ t.flag (rLinkCtl n.val) fLinkCtlEnable = true ∧
      RegsBut (fun a => a = rLinkStatus n.val ∨ a = rLinkCtl n.val) s t)) ∧
    (st ≠ 6 → Runs (.linkDisable n) s (fun t => goes 0 t ∧ t.flag (rLinkCtl n.val) fLinkCtlEnable = false ∧
      RegsBut (fun a => a = rLinkStatus n.val ∨ a = rLinkCtl n.val ∨ a = rLinkHoldNs n.val) s t))

/-- Shutters and management messages (R270, R271, R277, R284 to R287): OPEN = 1 at both ends opens a shuttered link with START first and 256 credits,
closing an open one sends CLOSE; an IDENT leaves the partner's identifier, link and READY and compares its digest; a PROBE is answered with an
ECHO of its stamp, an ECHO in IDENT measures the latency and, with an IDENT seen, reaches SHUTTERED; START puts the receiver at frame index 0. -/
def Obligations.LinkShutters : Prop :=
  ∀ (s : State) (n : LinkId),
    let st := s.linkState n.val
    let l := s.link n.val
    let flips := fun (v : Nat) (o : Bool) (t : State) => t.linkState n.val = v ∧ t.flag (rLinkCtl n.val) fLinkCtlOpen = o ∧
      RegsBut (fun a => a = rLinkStatus n.val ∨ a = rLinkCtl n.val ∨ a = rLinkHoldNs n.val) s t ∧ SameMem s t
    (st = 5 → s.flag (rLinkStatus n.val) fLinkStatusPeerReady = true → s.ringUses n.val = [] → Runs (.linkOpen n) s (fun t =>
      flips 6 true t ∧ (t.link n.val).credits = 256 ∧ (t.link n.val).ctlOut.head? = some (.mgmt 4 0) ∧
      ∃ r, t.log.arrivals = s.log.arrivals ++ [r] ∧ r.code = 0x5003)) ∧
    (st = 5 → s.flag (rLinkStatus n.val) fLinkStatusPeerReady = false → Runs (.linkOpen n) s (flips 5 true)) ∧
    (st = 6 → Runs (.linkClose n) s (fun t => flips 5 false t ∧ (t.link n.val).egress = [] ∧
      ∃ b, (t.link n.val).ctlOut = [.mgmt 3 0, .mgmt 0 b])) ∧
    (∀ stamp : BitVec 48, 4 ≤ st → Runs (.mgmtProbe n stamp) s (fun t =>
      (t.link n.val).ctlOut = ctlInsert l.ctlOut (.mgmt 2 (stamp.setWidth 116)) ∧ SameRegs s t ∧ SameMem s t)) ∧
    (∀ stamp : BitVec 48, st = 4 → l.identSeen = false → Runs (.mgmtEcho n stamp) s (fun t => t.linkState n.val = 4 ∧
      (t.link n.val).echoSeen = true ∧
      t.reg (rLinkLat n.val) = fLinkLatLatPs.put (s.reg (rLinkLat n.val)) (1280 * ((s.frameStamp + 2 ^ 48 - stamp.toNat) % 2 ^ 48)) ∧
      RegsBut (· = rLinkLat n.val) s t ∧ SameMem s t)) ∧
    (∀ stamp : BitVec 48, st = 4 → l.identSeen = true → s.flag (rLinkCtl n.val) fLinkCtlOpen = false → Runs (.mgmtEcho n stamp) s (fun t =>
      t.linkState n.val = 5 ∧ (t.link n.val).fails = 0 ∧
      RegsBut (fun a => a = rLinkLat n.val ∨ a = rLinkStatus n.val ∨ a = rLinkCtlBadCnt n.val) s t ∧ SameMem s t)) ∧
    (∀ (dev : BitVec 24) (plink : BitVec 5) (ready : Bool) (digest : BitVec 32), st = 5 → s.flag (rLinkCtl n.val) fLinkCtlOpen = false →
      s.flag (rLinkPeerExp n.val) fLinkPeerExpAny = true → Runs (.mgmtIdent n dev plink ready l.mode digest) s (fun t => t.linkState n.val = 5 ∧
        t.fget (rLinkStatus n.val) fLinkStatusPeerId = dev.toNat ∧ t.fget (rLinkStatus n.val) fLinkStatusPeerLink = plink.toNat ∧
        t.flag (rLinkStatus n.val) fLinkStatusPeerReady = ready ∧
        t.flag (rLinkStatus n.val) fLinkStatusTableOk = decide (digest = s.slotDigest n.val (rLinkRxslot n.val)) ∧
        RegsBut (· = rLinkStatus n.val) s t ∧ SameMem s t)) ∧
    (∀ (dev : BitVec 24) (plink : BitVec 5) (ready nuore : Bool) (digest : BitVec 32), st = 6 →
      s.fget (rLinkStatus n.val) fLinkStatusPeerId ≠ dev.toNat → s.ringUses n.val = [] → Runs (.mgmtIdent n dev plink ready nuore digest) s (fun t =>
        t.linkState n.val = 7 ∧ t.fget (rLinkStatus n.val) fLinkStatusLastDown = 5 ∧
        t.fget (rLinkStatus n.val) fLinkStatusPeerId = dev.toNat ∧ SameMem s t)) ∧
    (4 ≤ st → l.rxIdx = none → Runs (.mgmtStart n) s (fun t => (t.link n.val).rxIdx = some 0 ∧ SameRegs s t ∧ SameMem s t))

/-- Frames and bulk on an open link (R269 to R276, R281 to R283): a frame without bulk carries the control message at the head of the queue; one whose
slot's flow has bytes and a credit carries 496 of them and spends the credit; a received frame adds its credits and its bulk, and a KFL message is
kept for its command, or the frame waits while 64 are kept (log entry 82: that it waits is the model's choice). A beat goes to the egress flow of its
lane in the slot in which it was sent, or is discarded and counted; a buffered beat enters the hall; a stall discards the
held flow and stops its context. -/
def Obligations.LinkFrames : Prop :=
  ∀ (s : State) (n : LinkId), s.linkState n.val = 6 →
    let l := s.link n.val
    let tx := s.entry16 (rLinkTxslot n.val) (l.txIdx % s.framePeriod n.val)
    let cr := min 3 l.toReturn
    (∀ m rest, l.ctlOut = m :: rest → l.still = false → l.wireQ = [] → l.gathSent = [] → bitN tx 15 = false → Runs (.linkFrameTx n) s (fun t =>
      t.sent = s.sent ++ [.linkFrame n (frameBytes (ctlKind m) 0 cr (ctlBits m) [])] ∧ (t.link n.val).ctlOut = rest ∧
      (t.link n.val).toReturn = l.toReturn - cr ∧ (t.link n.val).txIdx = l.txIdx + 1 ∧ (t.link n.val).egress = l.egress ∧
      t.reg (rLinkFramesTxCnt n.val) = s.reg (rLinkFramesTxCnt n.val) + 1 ∧ t.reg (rLinkCtlTxCnt n.val) = s.reg (rLinkCtlTxCnt n.val) + 1 ∧
      RegsBut (fun a => a = rLinkFramesTxCnt n.val ∨ a = rLinkCtlTxCnt n.val) s t ∧ SameMem s t)) ∧
    (l.ctlOut = [] → l.serve = none → l.wireQ = [] → l.gathSent = [] → l.still = false → bitN tx 15 = true → s.flag (rLinkStatus n.val) fLinkStatusTableOk = true →
      s.flag (rLinkStatus n.val) fLinkStatusBulkUnreach = false → 496 ≤ (s.egress n.val (tx % 64)).length → 0 < l.credits →
      Runs (.linkFrameTx n) s (fun t => t.sent = s.sent ++ [.linkFrame n (frameBytes 0 7 cr 0 ((s.egress n.val (tx % 64)).take 496))] ∧
        t.egress n.val (tx % 64) = (s.egress n.val (tx % 64)).drop 496 ∧ (t.link n.val).credits = l.credits - 1 ∧
        t.reg (rLinkBulkTxCnt n.val) = s.reg (rLinkBulkTxCnt n.val) + 496 ∧ SameMem s t)) ∧
    (∀ (frame : Bytes) (i : Nat), l.rxIdx = some i → leAt frame 0 1 / 4 = 7 → s.flag (rLinkStatus n.val) fLinkStatusBulkUnreach = false →
      let f := s.entry16 (rLinkRxslot n.val) (i % s.framePeriod n.val) % 64
      bitN (s.entry16 (rLinkRxslot n.val) (i % s.framePeriod n.val)) 15 = true → l.discard.contains f = false →
      Runs (.linkFrameRx n frame) s (fun t => (t.link n.val).ingress = l.ingress ++ [(f, slice frame 16 496)] ∧
        (t.link n.val).rxIdx = some (i + 1) ∧ (t.link n.val).credits = l.credits + leAt frame 0 1 % 4 ∧
        t.reg (rLinkBulkRxCnt n.val) = s.reg (rLinkBulkRxCnt n.val) + 496 ∧ RegsBut (· = rLinkBulkRxCnt n.val) s t ∧ SameMem s t)) ∧
    (∀ frame : Bytes, l.rxIdx = none → l.ctlIn.length < 64 → 1 ≤ leAt frame 0 1 / 32 → leAt frame 0 1 / 32 ≤ 3 → Runs (.linkFrameRx n frame) s (fun t =>
      (t.link n.val).ctlIn = l.ctlIn ++ [ctlOf (leAt frame 0 1 / 32) (leAt frame 1 15)] ∧
      t.reg (rLinkCtlRxCnt n.val) = s.reg (rLinkCtlRxCnt n.val) + 1 ∧ RegsBut (· = rLinkCtlRxCnt n.val) s t ∧ SameMem s t)) ∧
    (∀ frame : Bytes, leAt frame 0 1 / 32 ≠ 0 → 64 ≤ l.ctlIn.length → exec (.linkFrameRx n frame) s = .next s) ∧
    (∀ (lane : Fin 3) (data : Bytes),
      let sentAt := ((s.beats.find? fun b => b.dest == laneKey n.val lane.val).map BeatS.inp).getD s.slot
      let ent := s.laneMapAt n.val lane.val sentAt
      let f := ent / 256 % 64
      let out := rEdgeBeatsOut (linkHall n.val) (linkRouter n.val)
      (bitN ent 15 = false → Runs (.linkEgressBeat n lane data) s (fun t => t.reg (rLinkDiscardCnt n.val) = s.reg (rLinkDiscardCnt n.val) + 1 ∧
        t.reg out = s.reg out + 1 ∧ RegsBut (fun a => a = out ∨ a = rLinkDiscardCnt n.val) s t ∧ SameMem s t)) ∧
      (bitN ent 15 = true → 0 < s.egRoom n.val f → sget (fun _ => 0) l.reserved f = 0 → Runs (.linkEgressBeat n lane data) s (fun t =>
        t.egress n.val f = s.egress n.val f ++ slice data 0 128 ∧ t.reg out = s.reg out + 1 ∧ RegsBut (· = out) s t ∧ SameMem s t)) ∧
      (bitN ent 15 = true → s.egRoom n.val f = 0 → sget (fun _ => 0) l.reserved f = 0 → Runs (.linkEgressBeat n lane data) s (fun t =>
        (t.ctx (s.fget (rLinkFlow n.val f) fLinkFlowCtx % 8)).cause ≠ 0))) ∧
    (∀ lane : Fin 3,
      let f := s.laneMap n.val lane.val % 64
      let buf := (l.ingress.filter fun e => e.1 == f).flatMap Prod.snd
      bitN (s.laneMap n.val lane.val) 7 = true → 128 ≤ buf.length → s.flag (rLinkStatus n.val) fLinkStatusBulkUnreach = false →
      s.fwdLinks n.val f = [] → (∀ e ∈ l.heldAt, e.1 ≠ f) → Runs (.linkIngressRelease n lane) s (fun t =>
        t.beats = s.beats ++ [⟨linkEdge n.val, laneInput n.val lane.val, s.cc + 1, 1152, buf.take 128⟩] ∧
        (((t.link n.val).ingress.filter fun e => e.1 == f).flatMap Prod.snd) = buf.drop 128 ∧
        RegsBut (· = rEdgeBeatsIn (linkHall n.val) (linkRouter n.val)) s t ∧ SameMem s t)) ∧
    ∀ flow : BitVec 6, (∃ e ∈ l.heldAt, e.1 = flow.toNat) → Runs (.mcastStall n flow) s (fun t =>
      (t.link n.val).discard.contains flow.toNat = true ∧ (∀ e ∈ (t.link n.val).ingress, e.1 ≠ flow.toNat) ∧
      (t.ctx (s.fget (rLinkFlow n.val flow.toNat) fLinkFlowCtx % 8)).cause ≠ 0)

/-- Semaphore messages over links (R222, R276, R278, R279, R357): an add for this device reaches its semaphore unit as a remote one, one for another device
goes to the route's link; a watch is registered for the asking device; an answer goes to the core whose tag it names and quarantines the tag, or
counts as stale; a core's remote watch, with no older message of its way before it, takes the first free tag, and a quarantine ends with the tag free. An add for a context that is being cleared is discarded (R357). With 64 messages in the control queue of the
output link a message to be routed on waits; one received on a link that is not open has no effect. -/
def Obligations.LinkSemaphores : Prop :=
  ∀ (s : State) (n : LinkId) (src : BitVec 24) (group : BitVec 10) (vsem : BitVec 14),
    let me := BitVec.ofNat 24 s.devId
    let k := (s.gCtx group.toNat).val
    let opened := s.linkState n.val = 6
    (∀ (addend : BitVec 32) (p : Nat), opened → s.gValid group.toNat = true → s.clearing k = false → s.semMap k vsem.toNat .add true = .ok p → s.flag (rSem p) fSemAlloc = true →
      s.flag (rSem p) fSemOrphan = false → s.sem.entries = [] → Runs (.kflSemAdd n me src group vsem addend) s (fun t =>
        t.fget (rSem p) fSemValue = (min (max ((s.fget (rSem p) fSemValue : Int) + addend.toInt) 0) (2 ^ 32 - 1)).toNat ∧
        t.reg rSemReqCnt = s.reg rSemReqCnt + 1 ∧ t.reg rSemRemoteCnt = s.reg rSemRemoteCnt + 1 ∧
        RegsBut (fun a => a = rSem p ∨ a = rSemReqCnt ∨ a = rSemRemoteCnt) s t ∧ SameMem s t)) ∧
    (∀ addend : BitVec 32, opened → s.gValid group.toNat = true → s.clearing k = true →
      Runs (.kflSemAdd n me src group vsem addend) s (fun t => Quiet s t ∧ t.sem = s.sem)) ∧
    (∀ (dst : BitVec 24) (addend : BitVec 32) (m : Nat), opened → dst ≠ me → s.route dst.toNat = some m → s.linkState m = 6 →
      64 ≤ (s.link m).ctlOut.length → exec (.kflSemAdd n dst src group vsem addend) s = .next s) ∧
    (∀ (dst : BitVec 24) (addend : BitVec 32), ¬ opened → Runs (.kflSemAdd n dst src group vsem addend) s (fun t => Quiet s t ∧ t.sem = s.sem)) ∧
    (∀ (dst : BitVec 24) (addend : BitVec 32) (m : Nat), opened → dst ≠ me → s.route dst.toNat = some m → s.linkState m = 6 →
      (s.link m).ctlOut.length < 64 → Runs (.kflSemAdd n dst src group vsem addend) s (fun t =>
        (t.link m).ctlOut = (s.link m).ctlOut ++ [.semAdd dst src group vsem addend] ∧ SameRegs s t ∧ SameMem s t)) ∧
    (∀ (rlink : BitVec 5) (rtag : BitVec 6) (cond : BitVec 2) (value : BitVec 32) (p : Nat), opened → s.gValid group.toNat = true → s.clearing k = false →
      s.semMap k vsem.toNat .watch true = .ok p → s.flag (rSem p) fSemAlloc = true → s.flag (rSem p) fSemOrphan = false →
      (if cond = 1 then s.fget (rSem p) fSemValue ≠ value.toNat else s.fget (rSem p) fSemValue < value.toNat) → s.remoteWatches < 7168 →
      Runs (.kflSemWatch n me src group vsem rlink rtag cond value) s (fun t =>
        t.sem.entries = s.sem.entries ++ [.watch ⟨p, s.gCtx group.toNat, cond == 1, value, .remote src rlink rtag⟩] ∧
        RegsBut (fun a => a = rSemReqCnt ∨ a = rSemRemoteCnt) s t ∧ SameMem s t)) ∧
    (∀ (r : LinkId) (rtag : BitVec 6) (orphan : Bool),
      opened → (∀ g ∈ (s.link r.val).tags, g.tag ≠ rtag.toNat) → Runs (.kflWatchFire n me src (BitVec.ofNat 5 r.val) rtag orphan) s (fun t =>
        t.reg (rLinkStaleCnt r.val) = s.reg (rLinkStaleCnt r.val) + 1 ∧ t.bell = s.bell ∧ RegsBut (· = rLinkStaleCnt r.val) s t ∧ SameMem s t)) ∧
    (∀ (r : LinkId) (rtag : BitVec 6) (orphan : Bool) (g : TagS), opened → (s.link r.val).tags = [g] → g.tag = rtag.toNat → g.quarantine = false →
      Runs (.kflWatchFire n me src (BitVec.ofNat 5 r.val) rtag orphan) s (fun t => (t.link r.val).tags = [{ g with quarantine := true }] ∧
        (∃ m, t.bell = s.bell ++ [m] ∧ bellType m = 5 ∧ bellDst m = g.core.pos) ∧ SameRegs s t ∧ SameMem s t)) ∧
    (∀ (c : CoreId) (q : CtxId) (sc : BitVec 6) (cond : BitVec 2) (dev : BitVec 24) (value : BitVec 32) (m : Nat), dev ≠ me →
      s.bellFree ⟨3, q, some c.pos, none, some [dev.setWidth 32, BitVec.ofNat 32 (cond.toNat * 2 ^ 30 + sc.toNat * 2 ^ 14 + vsem.toNat), value]⟩ = true →
      (s.link n.val).tags = [] → s.route dev.toNat = some m → s.linkState m = 6 → (s.link m).ctlOut.length < 64 →
      Runs (.linkRouterWatch n c q sc cond dev vsem value) s (fun t => (t.link n.val).tags = [⟨0, c, sc, q, false⟩] ∧
        (∃ g, (t.link m).ctlOut = (s.link m).ctlOut ++ [.semWatch dev me g vsem (BitVec.ofNat 5 n.val) 0 cond value]) ∧ SameRegs s t ∧ SameMem s t)) ∧
    ∀ tag : BitVec 6, Runs (.tagQuarantineEnd n tag) s (fun t =>
      (t.link n.val).tags = (s.link n.val).tags.filter (fun g => !(g.tag == tag.toNat && g.quarantine)) ∧ SameRegs s t ∧ SameMem s t)

/-! ### The Quern -/

/-- Quern records at a station (R299 to R303, R305): a core's contribution on the owner, and a record from upstream, wait in the combine buffer for
their counterpart with the checksums of R300 or those of the record; on the member next after the owner a contribution goes out on the wire flow;
a record of another epoch is stale, and an exchanged or checkpoint record that lands here waits for its own row; a retained record is written and
committed, and leaves the region at once where its ACK has come before; a gathered block is written to COPY_VA and goes on while the station has egress space; a gather
start moves to the next owned bucket, whose gather is done once its last record has gone. -/
def Obligations.QuernRecords : Prop :=
  ∀ (s : State) (n : LinkId) (hdr data : Bytes) (p : PlanE),
    let h := qhdrOf hdr
    let g := h.group
    let k := s.gCtx g
    let own := s.fget (rQst n.val) fQstGroup = g ∧ s.flag (rQst n.val) fQstV = true ∧ s.gValid g = true
    let fits := s.readPlan n.val g h.tag = .ok p ∧ s.isStation n.val g p.ring p.dir = true ∧ h.tile < p.tiles ∧
      s.peerOk n.val g p.ring p.dir = true
    let l := s.link n.val
    let cs := checksums data
    let mine : QRec := ⟨h.tag, h.tile, 0, true, 1, cs.1, cs.2, slice data 0 4096⟩
    let theirs : QRec := ⟨h.tag, h.tile, h.attempt, false, h.hops, BitVec.ofNat 64 (leAt h.mid 0 8), BitVec.ofNat 64 (leAt h.mid 8 8), slice data 0 4096⟩
    own → 1 < s.gMembers g →
    (h.kind = 0 → h.beats = 32 → h.fmt = 0 → leAt hdr 8 2 = g → h.tag < s.fget (rGtPlancnt g) fGtPlancntBuckets → fits →
      (s.group g).buckets = [] → s.openBuckets < 4096 → l.combine = [] → l.wireQ = [] → s.flag (rGtCfg g) fGtCfgRetain = false →
      (p.owner = s.gPos g → Runs (.quernLocalHeader n hdr data) s (fun t => (t.link n.val).combine = [mine] ∧
        (t.bucket g h.tag).map BucketS.local_ = some [h.tile] ∧ t.reg (rQeLocalCnt n.val) = s.reg (rQeLocalCnt n.val) + 1 ∧
        RegsBut (· = rQeLocalCnt n.val) s t ∧ SameMem s t)) ∧
      (p.owner ≠ s.gPos g → ringDist (s.gMembers g) p.owner (s.gPos g) p.dir = 1 → s.linkState n.val = 6 →
        s.fget (rQst n.val) fQstWireFlow ≠ s.fget (rQst n.val) fQstLocalFlow → 33 ≤ s.egRoom n.val (s.fget (rQst n.val) fQstWireFlow) →
        Runs (.quernLocalHeader n hdr data) s (fun t =>
          t.egress n.val (s.fget (rQst n.val) fQstWireFlow) = s.egress n.val (s.fget (rQst n.val) fQstWireFlow) ++
            qhdrBytes (s.recHdr g mine) ++ slice data 0 4096 ∧ (t.link n.val).combine = [] ∧
          t.reg (rQeRecTxCnt n.val) = s.reg (rQeRecTxCnt n.val) + 1 ∧
          RegsBut (fun a => a = rQeLocalCnt n.val ∨ a = rQeRecTxCnt n.val) s t ∧ SameMem s t))) ∧
    (h.kind = 0 → h.epoch = s.gEpoch g → fits → p.owner = s.gPos g → (s.group g).buckets = [] → s.openBuckets < 4096 → l.combine = [] →
      l.wireQ = [] → Runs (.quernRecordRx n hdr data) s (fun t => (t.link n.val).combine = [theirs] ∧
        t.reg (rQeRecRxCnt n.val) = s.reg (rQeRecRxCnt n.val) + 1 ∧ RegsBut (· = rQeRecRxCnt n.val) s t ∧ SameMem s t)) ∧
    (h.kind < 4 → h.epoch ≠ s.gEpoch g → Runs (.quernRecordRx n hdr data) s (fun t =>
      t.reg (rQeStaleCnt n.val) = s.reg (rQeStaleCnt n.val) + 1 ∧ (t.link n.val).combine = l.combine ∧
      RegsBut (fun a => a = rQeRecRxCnt n.val ∨ a = rQeStaleCnt n.val) s t ∧ SameMem s t)) ∧
    (∀ (r : RetS) (u : State), (s.group g).retained = [r] → r.committed = false → r.acked = false → s.vWrite (n.val / 3) k.val r.va r.data = .ok u →
      Runs (.quernRetainCommit n (BitVec.ofNat 16 r.tag) (BitVec.ofNat 16 r.tile)) s (fun t =>
        ((r.tag < 65536 ∧ r.tile < 65536) → (t.group g).retained = [{ r with committed := true, data := [] }] ∧ SameMem u t) ∧ SameRegs s t)) ∧
    (∀ (r : RetS) (u : State), (s.group g).retained = [r] → r.committed = false → r.acked = true → r.tag < 65536 → r.tile < 65536 →
      s.vWrite (n.val / 3) k.val r.va r.data = .ok u →
      Runs (.quernRetainCommit n (BitVec.ofNat 16 r.tag) (BitVec.ofNat 16 r.tile)) s (fun t => (t.group g).retained = [])) ∧
    (∀ u : State, h.kind = 1 → h.epoch = s.gEpoch g → fits → (s.group g).buckets = [] → 1 < p.tiles → l.slotsUsed < 2048 →
      (s.lastFrom g p.owner p.dir = true ∨ s.wireFree n.val = true) →
      s.vWrite (n.val / 3) k.val (p.copyVa + nfmtBytes p.nfmt * h.tile) (slice data 0 (nfmtBytes p.nfmt)) = .ok u →
      Runs (.quernGatherRx n hdr data) s (fun t => (t.bucket g h.tag).map BucketS.gathered = some [h.tile] ∧
        t.reg (rQeGatherCnt n.val) = s.reg (rQeGatherCnt n.val) + 1 ∧
        RegsBut (fun a => a = rQeGatherCnt n.val ∨ a = rQeRecRxCnt n.val ∨ a = rQeRecTxCnt n.val) s t ∧ SameMem u t)) ∧
    (h.kind = 2 ∨ h.kind = 3 → h.epoch = s.gEpoch g → h.lands = true → exec (.quernRecordRx n hdr data) s = .next s) ∧
    (h.kind = 1 → h.epoch = s.gEpoch g → fits → s.lastFrom g p.owner p.dir = false → s.wireFree n.val = false →
      exec (.quernGatherRx n hdr data) s = .next s) ∧
    (∀ (tag : Nat) (b : Bytes), (s.planTags g fun e => e.kind == 0 && e.owner == s.gPos g)[(s.group g).gatherNext]? = some tag →
      (s.group g).status ≠ 2 → s.readPlan n.val g tag = .ok p → s.isStation n.val g p.ring p.dir = true →
      (s.group g).updBase + (s.group g).gatherNext < s.updateValue g →
      s.vRead (n.val / 3) k.val p.copyVa (nfmtBytes p.nfmt * p.tiles) = .ok (some b) → l.gathSent = [] →
      Runs (.quernGatherStart n) s (fun t => (t.group g).gatherNext = (s.group g).gatherNext + 1 ∧
        ((s.linkState n.val ≠ 6 ∨ (l.wireQ = [] ∧ p.tiles * (1 + (nfmtBytes p.nfmt + 127) / 128) ≤ s.egRoom n.val (s.fget (rQst n) fQstWireFlow))) →
          (t.bucket g tag).map BucketS.gathDone = some true)))

/-- Group messages of the Quern (R303, R306, R308): one of another epoch only counts as stale; ACK frees the bucket's retained records (one not yet written
leaves the region once it is), RETRY raises
the attempt and drops records of lower ones, NORM waits until this member's buckets are complete and then travels on with its sum added, and
VERDICT is acted on with G and its status. A link that is not open, or Nuore-compatible, has discarded them all (R284, R289). -/
def Obligations.QuernMessages : Prop :=
  ∀ (s : State) (n : LinkId) (m : GMsg),
    let g := m.group.toNat
    let x := s.group g
    let tag := m.arg.toNat % 65536
    let opened := s.linkState n.val = 6 ∧ (s.link n.val).mode = false
    (¬ opened → ∀ i ∈ [Instr.ack n m, .retry n m, .norm n m, .verdict n m, .vote n m, .commit n m, .groupFault n m, .rollback n m, .phaseDone n m,
      .phaseGo n m, .rebuild n m, .seed n m], Runs i s (fun t => SameRegs s t ∧ SameMem s t ∧ t.group g = x)) ∧
    (opened → s.gValid g = true → s.gEpoch g ≠ m.epoch.toNat → ∀ i ∈ [Instr.ack n m, .retry n m, .norm n m, .verdict n m, .vote n m, .commit n m, .groupFault n m, .phaseDone n m,
        .phaseGo n m, .seed n m], Runs i s (fun t => t.reg (rQeStaleCnt n.val) = s.reg (rQeStaleCnt n.val) + 1 ∧
      RegsBut (· = rQeStaleCnt n.val) s t ∧ SameMem s t)) ∧
    (opened → s.gValid g = true → s.gEpoch g = m.epoch.toNat →
      (∀ p : PlanE, s.readPlan n.val g tag = .ok p → p.kind ≠ 2 → x.verdict = true → (∃ q ∈ x.retained, q.tag ≠ tag) →
        Runs (.ack n m) s (fun t => (t.group g).retained = x.retained.filterMap (fun q => if q.tag ≠ tag then some q else if q.committed then none else some { q with acked := true }) ∧
          (t.bucket g tag).map BucketS.acked = some true ∧ SameMem s t)) ∧
      (∀ (p : PlanE) (st : Nat), s.readPlan n.val g tag = .ok p → s.station g p.ring p.dir = some st → x.buckets = [] →
        (∀ q ∈ x.retained, q.tag ≠ tag) → 0 < m.arg.toNat / 65536 % 16 →
        Runs (.retry n m) s (fun t => (t.bucket g tag).map BucketS.attempt = some (m.arg.toNat / 65536 % 16) ∧
          (t.link st).combine = (s.link st).combine.filter (fun q => !(q.tag == tag && decide (q.attempt < m.arg.toNat / 65536 % 16))) ∧
          t.reg (rQeRetryCnt st) = s.reg (rQeRetryCnt st) + 1 ∧ SameMem s t)) ∧
      (s.clipOn g = true → s.ownComplete g = false → Runs (.norm n m) s (fun t =>
        (t.group g).normIn = some (m.value, m.arg.toNat) ∧ SameRegs s t ∧ SameMem s t)) ∧
      (s.clipOn g = true → s.ownComplete g = true → x.normSent = false → x.verdict = false → (x.stepDone = true ∨ x.retained ≠ []) → 0 < s.gPos g → s.gPos g + 1 < s.gMembers g →
        s.linkState (s.ringLink g 0 false) = 6 → (s.link (s.ringLink g 0 false)).mode = false → Runs (.norm n m) s (fun t =>
          (t.group g).normSent = true ∧ SameRegs s t ∧ SameMem s t ∧
          .group 3 (s.newMsg g (carryBad m.arg.toNat (s.gPos g) (s.partialSum g)) false (add64 m.value (s.partialSum g)).toNat) ∈
            (t.link (s.ringLink g 0 false)).ctlOut)) ∧
      (x.verdict = false → (s.vParts 0 (s.gCtx g).val (s.fget (rGtSteprec g) fGtSteprecRec * 128) 128 accWrite).isOk = true →
        Runs (.verdict n m) s (fun t => (t.group g).verdict = true ∧ (t.group g).gval = m.value ∧ (t.group g).nonfinite = m.arg.toNat ∧
          (t.group g).status = if fpFinite (f64 m.value) then 1 else 2)))

/-! ### Step groups -/

/-- The step commit (R345, R356, R358 to R360, R366): a ready member first on the ring sends its VOTE; the Miller holds the VOTE it receives until it
is ready; a COMMIT adopted moves STEP and the plan on; a checkpoint's self copy is noted once its bytes are
copied, and a landed chunk once its bytes are written; a VOTE that does not come leads to a rollback into the next epoch; SEED gives the Millpond its
seed, and in a recovery a pool whose DRAW begins again (log entry 206: DRAW is a reading of R363 and R364); CKPT_REQ asks for a checkpoint, but not for the host's RDMA. -/
def Obligations.GroupCommit : Prop :=
  ∀ (s : State) (n : LinkId) (g : Fin 1024), s.gValid g.val = true →
    let x := s.group g.val
    let k := (s.gCtx g.val).val
    let ring := s.ringLink g.val 0 false
    let opened := s.linkState n.val = 6 ∧ (s.link n.val).mode = false
    let goes := ∃ c ∈ s.ctxCores k, (s.ctx k).exited.contains c = false ∧ (s.core c).marker ≠ .retired true
    let msg := fun (arg : Nat) (v : Word) => (⟨BitVec.ofNat 10 g.val, BitVec.ofNat 16 (s.gEpoch g.val), BitVec.ofNat 24 arg, false, v⟩ : GMsg)
    (x.stepDone = true → (s.ctx k).boundary = true → s.egressEmpty k = true → x.ready = false → x.voted = false → (s.ctx k).groupHalt = false →
      s.gMiller g.val = false → s.ringFirst g.val = true → s.linkState ring = 6 → (s.link ring).mode = false →
      Runs (.voteReady g) s (fun t => (t.group g.val).ready = true ∧ (t.group g.val).voted = true ∧
        t.fget (rRsStatus g.val) fRsStatusPhase = 1 ∧ RegsBut (· = rRsStatus g.val) s t ∧ SameMem s t ∧
        .group 8 (msg 0 (BitVec.ofNat 64 (s.gStep g.val + bton (s.trickleOk g.val) * 2 ^ 32))) ∈ (t.link ring).ctlOut)) ∧
    (∀ v : Word, opened → v.toNat % 2 ^ 32 = s.gStep g.val → s.gMiller g.val = true → x.ready = false → Runs (.vote n (msg 0 v)) s (fun t =>
      (t.group g.val).voteIn = some (v.getLsbD 32) ∧ SameRegs s t ∧ SameMem s t)) ∧
    (∀ v : Word, opened → v.toNat % 2 ^ 32 = s.gStep g.val → v.getLsbD 32 = false → s.gMiller g.val = false → Runs (.commit n (msg 0 v)) s (fun t =>
      t.gStep g.val = (s.gStep g.val + 1) % 2 ^ 32 ∧ (goes → (t.group g.val).sinceCkpt = x.sinceCkpt + 1) ∧ (t.group g.val).rollbacks = 0 ∧
      t.fget (rGtPlan g.val) fGtPlanPlan = s.fget (rRsPlan g.val ((s.gStep g.val + 1) % 2)) fRsPlanVa)) ∧
    (∀ (st : StillS) (u : State), x.still = some st → st.selfDone = false →
      (s.gCopy g.val (s.slotAddr g.val (s.lastStep g.val % 2) 0) (s.areaAddr g.val st.gen + 4096) st.bytes = (u, true) → st.buddyDone = false →
        s.gMembers g.val ≠ 1 → Runs (.ckptSelfCopyDone g) s (fun t => (t.group g.val).still = some { st with selfDone := true })) ∧
      (s.gCopy g.val (s.slotAddr g.val (s.lastStep g.val % 2) 0) (s.areaAddr g.val st.gen + 4096) st.bytes = (u, false) →
        exec (.ckptSelfCopyDone g) s = .next u)) ∧
    (∀ (hdr data : Bytes) (st : StillS) (u : State),
      let h := qhdrOf hdr
      let off := leAt h.mid 0 8
      let part := slice data 0 (128 * h.beats)
      h.kind = 3 → h.group = g.val → h.epoch = s.gEpoch g.val → (s.flag (rQst n.val) fQstV = true → s.stationPeer n.val = true) → h.lands = true →
      x.still = some st → leAt h.mid 11 1 = st.gen → st.gen < 2 → (crc32c part).toNat = leAt h.mid 12 4 → st.landed = [] → st.selfDone = false →
      s.gPut g.val (s.areaAddr g.val (2 + st.gen) + 4096 + off) part = (u, true) →
      Runs (.ckptRecordLand n hdr data) s (fun t => (t.group g.val).still.map StillS.landed = some [off])) ∧
    (s.gMiller g.val = true → x.ready = true → x.voteIn = none → 1 < s.gMembers g.val → s.dump = none → Runs (.commitTimeout g) s (fun t =>
      t.gEpoch g.val = (s.gEpoch g.val + 1) % 2 ^ 16 ∧ (t.ctx k).groupHalt = true ∧ (t.group g.val).rollbacks = x.rollbacks + 1)) ∧
    (∀ v : Word, opened → s.gMiller g.val = false → s.fget rMpCfg fMpCfgGroup = g.val → x.recover = none → Runs (.seed n (msg 0 v)) s (fun t =>
      t.reg rMpSeed = v ∧ SameMem s t)) ∧
    (∀ v : Word, opened → s.gMiller g.val = false → s.fget rMpCfg fMpCfgGroup = g.val → x.recover ≠ none → s.flag rMpCfg fMpCfgEn = true →
      Runs (.seed n (msg 0 v)) s (fun t => t.reg rMpSeed = v ∧ t.reg rMpDraw = 0)) ∧
    Runs (.ckptReq .host g) s (fun t => (t.group g.val).ckptReq = true ∧ SameRegs s t ∧ SameMem s t) ∧
    Runs (.ckptReq .housekeeper g) s (fun t => (t.group g.val).ckptReq = true ∧ SameRegs s t ∧ SameMem s t) ∧
    Runs (.ckptReq .rdma g) s (fun t => t.group g.val = x ∧ SameRegs s t ∧ SameMem s t)

/-- Faults, rollback and the loss of a member (R357, R358, R363 to R365), with no dump being taken, which would make a ROLLBACK or REBUILD wait (R444): a member holds a fault report, and one that the link is back ends it; a ROLLBACK
halts the context in the new epoch, and one of the step after a ready member's own says that its step stands (log entry 207, a reading of R358); the Miller with PHASE_DONE(0) from the ring and its own phase 0 waits the guard time, at whose end, as on PHASE_GO(1) at a member, the
step-start state is back and phase 1 is reached; a lost member that cannot be replaced leaves the group unrecoverable, one that can leaves one
member less, and REBUILD excludes the position it names. -/
def Obligations.GroupRecovery : Prop :=
  ∀ (s : State) (n : LinkId) (m : GMsg) (g : Fin 1024), s.gValid g.val = true → m.group.toNat = g.val → m.epoch.toNat = s.gEpoch g.val →
    s.dump = none →
    let x := s.group g.val
    let k := (s.gCtx g.val).val
    let opened := s.linkState n.val = 6 ∧ (s.link n.val).mode = false
    let sound := (∀ sn, x.snapshot = some sn → ∀ e ∈ sn.sems, e.1 < 16384) ∧
      ∀ i ∈ (s.ctx k).saved, ∀ e ∈ i.regs, ctxReg i.core e.1 = true ∨ e.1 ∈ rCoreStatus i.core :: syncRegs i.core
    (opened → s.gMiller g.val = false → x.unrecoverable = false → m.value.toNat % 65536 ≠ 0xA005 → m.value.toNat % 65536 ≠ 0xA003 →
      Runs (.groupFault n m) s (fun t => (t.group g.val).faults = (if m.value.getLsbD 40 then
          x.faults.filter fun f => !(f.1 == m.value.toNat % 65536 && f.2.1 == m.arg.toNat && f.2.2.1 == m.value.toNat / 65536 % 2 ^ 24)
        else x.faults ++ [(m.value.toNat % 65536, m.arg.toNat, m.value.toNat / 65536 % 2 ^ 24, s.now)]) ∧ SameMem s t)) ∧
    (opened → x.ready = false ∨ m.value.toNat % 2 ^ 32 ≠ (s.gStep g.val + 1) % 2 ^ 32 → Runs (.rollback n m) s (fun t =>
      t.gEpoch g.val = m.arg.toNat % 2 ^ 16 ∧ (t.ctx k).groupHalt = true ∧ (t.group g.val).rollbacks = x.rollbacks + 1 ∧
      t.gStep g.val = s.gStep g.val)) ∧
    (opened → x.ready = true → m.value.toNat % 2 ^ 32 = (s.gStep g.val + 1) % 2 ^ 32 → Runs (.rollback n m) s (fun t =>
      t.gEpoch g.val = m.arg.toNat % 2 ^ 16 ∧ (t.ctx k).groupHalt = true ∧ (t.group g.val).rollbacks = 1 ∧
      t.gStep g.val = (s.gStep g.val + 1) % 2 ^ 32)) ∧
    (opened → s.gMiller g.val = true → m.arg.toNat % 4 = 0 → x.phaseOwn = [0] → x.phaseSent = [] → x.unrecoverable = false → Runs (.phaseDone n m) s (fun t =>
      (t.group g.val).guard = true ∧ SameRegs s t ∧ SameMem s t)) ∧
    (s.gMiller g.val = true → x.guard = true → x.recover = none → sound → 1 < s.gMembers g.val → x.phaseOwn = [0] → x.phaseIn = [0] → x.unrecoverable = false →
      Runs (.guardExpiry g) s (fun t => (t.group g.val).guard = false ∧ (t.group g.val).phaseOwn = [0, 1] ∧
        t.fget (rRsStatus g.val) fRsStatusPhase = 4)) ∧
    (opened → s.gMiller g.val = false → m.arg.toNat % 4 = 1 → x.recover = none → sound → x.phaseOwn = [0] → x.unrecoverable = false → Runs (.phaseGo n m) s (fun t =>
      (t.group g.val).phaseOwn = [0, 1] ∧ t.fget (rRsStatus g.val) fRsStatusPhase = 4)) ∧
    (∀ y : BitVec 24, s.gMiller g.val = true → s.lossShown g.val y.toNat = true → s.recoverBar g.val y.toNat ≠ 0 →
      Runs (.memberLossConfirm g y) s (fun t => (t.group g.val).unrecoverable = true)) ∧
    (∀ y : BitVec 24, s.gMiller g.val = true → s.lossShown g.val y.toNat = true → s.recoverBar g.val y.toNat = 0 → y.toNat ≠ s.gPos g.val →
      1 < s.gMembers g.val → Runs (.memberLossConfirm g y) s (fun t => t.gMembers g.val = s.gMembers g.val - 1 ∧
        t.gEpoch g.val = (s.gEpoch g.val + 1) % 2 ^ 16)) ∧
    (opened → m.value.toNat % 2 ^ 24 = s.gPos g.val → Runs (.rebuild n m) s (fun t => t.gValid g.val = false ∧ (t.ctx k).cause ≠ 0)) ∧
    (opened → m.value.toNat % 2 ^ 24 ≠ s.gPos g.val → Runs (.rebuild n m) s (fun t => t.gMembers g.val = m.value.toNat / 2 ^ 24 % 2 ^ 24 ∧
      t.gEpoch g.val = m.arg.toNat % 2 ^ 16 ∧ (t.ctx k).groupHalt = true))

/-! ### Headrace and Millpond -/

/-- Rings, clips, samples and releases (R317, R319 to R321, R329, R336 to R339, R341, R343, R344, R346, R350): PROD is kept within the ring, and enabling a
ring zeroes PROD and CONS, which RDMA, allowed to write PROD alone, is refused; the next ring's valid record takes a clip position, and its index lets its samples be dispatched; a clip's next valid sample
takes a FREE slot and the engine, an invalid one is dropped; a decoded sample is written, behind what its
decoding leaves in the scratch area, and its engine freed, a dropped one frees its slot and counts with the pictures decoded for it;
a pause repeats while it lasts and ends with enough FREE slots; a release repeats a held one or takes the drawn ready slot to HELD, and with neither
nothing is released; an exchanged record
that has not come far enough goes on with one hop more once the next hop has room, and one that has lands in a slot of the round or waits for
one. (Which bound PROD takes beyond the ring is the model's choice, log entry
166; that decode steps come as commands, log entry 12; what decoding leaves in the scratch
area, log entry 184.) -/
def Obligations.HeadraceAndMillpond : Prop :=
  ∀ (s : State) (r : Requester) (k : Fin 16) (i e : Fin 8),
    let cons := s.fget (rHrRingCons k.val) fHrRingConsCons
    let size := 2 ^ s.fget (rHrRingCfg k.val) fHrRingCfgLog2
    let cfg := rHrRingCfg k.val
    (∀ v : BitVec 32, Runs (.hrRingProdWrite r k v) s (fun t => RegsBut (· = rHrRingProd k.val) s t ∧ SameMem s t ∧
      let p := t.fget (rHrRingProd k.val) fHrRingProdProd
      if (v.toNat + 2 ^ 32 - cons) % 2 ^ 32 ≤ size then p = v.toNat else p = cons ∨ p = (cons + size) % 2 ^ 32)) ∧
    (∀ v : Word, r ≠ .rdma → Runs (.hrRingEnable r k v) s (fun t => t.flag cfg fHrRingCfgEn = v.getLsbD 63 ∧ SameMem s t ∧
      if s.flag cfg fHrRingCfgEn = false ∧ v.getLsbD 63 = true then
        t.reg (rHrRingProd k.val) = 0 ∧ t.reg (rHrRingCons k.val) = 0 ∧ RegsBut (fun a => a = cfg ∨ a = rHrRingProd k.val ∨ a = rHrRingCons k.val) s t
      else RegsBut (· = cfg) s t)) ∧
    (∀ v : Word, exec (.hrRingEnable .rdma k v) s = .next s) ∧
    (∀ (q : Nat) (b rec : Bytes), s.flag rHrCtl fHrCtlEnable = true → s.nextRing = some q → s.freeClip = some i.val →
      let num := s.pond.started.getD q 0
      s.vRead 0 s.hrCtx (s.fget (rHrRingCfg q) fHrRingCfgBase * 4096 + 64 * (num.toNat % 2 ^ s.fget (rHrRingCfg q) fHrRingCfgLog2)) 64 = .ok (some b) →
      clipBad b = none → leAt b 22 2 ≠ 0 → s.vRead 0 s.hrCtx (s.fget rHrRecipe fHrRecipeVa * 64 + 64 * leAt b 25 1) 64 = .ok (some rec) →
      recipeBad rec = none → s.pond.clips.length = 8 → Runs .clipStart s (fun t =>
        (∃ c, t.clip i.val = some c ∧ c.ring = q ∧ c.num = num ∧ c.id = BitVec.ofNat 32 (leAt b 12 4) ∧ c.nsamp = leAt b 22 2 ∧ c.rbytes = rec ∧
          c.record = b ∧ c.index = none) ∧ t.pond.started = s.pond.started.set q (num + 1) ∧ SameRegs s t ∧ SameMem s t)) ∧
    (s.flag rHrCtl fHrCtlEnable = false ∨ s.nextRing = none ∨ s.freeClip = none → exec .clipStart s = .next s) ∧
    (∀ c : ClipS, s.clip i.val = some c → c.index = none → c.ring = k.val →
      (∀ (b : Bytes) (poison : List (Nat × Nat)), s.clipRead c = .ok (b, poison) → c.left ≠ 0 → Runs (.clipIndexDone k i) s (fun t =>
        t.clip i.val = some { c with index := some (clipIndex c.record b poison) } ∧ SameRegs s t ∧ SameMem s t)) ∧
      (∀ f : Nat × Nat, s.clipRead c = .error f → Runs (.clipIndexDone k i) s (fun t =>
        t.clip i.val = none ∧ t.reg rHrClipCnt = s.reg rHrClipCnt + 1 ∧ SameMem s t))) ∧
    ((∀ c, s.clip i.val = some c → c.index ≠ none ∨ c.ring ≠ k.val) → exec (.clipIndexDone k i) s = .next s) ∧
    (∀ (c : ClipS) (b : Bytes), s.clip i.val = some c → c.index ≠ none → c.next < c.nsamp → s.flag rHrCtl fHrCtlEnable = true →
      s.vRead 0 s.hrCtx (c.sampVa + 32 * c.next) 32 = .ok (some b) →
      (∀ j : Nat, sampBad b (max 1 (leAt c.rbytes 13 1)) = none → s.pond.engines.length = 8 → s.pond.engines.getD e.val none = none →
        e.val < s.fget rHrStatus fHrStatusActive → e.val < s.ebc.ready → s.flag rMpCfg fMpCfgEn = true → s.dispatchSlot = some j →
        Runs (.sampleDispatch i e) s (fun t => t.pond.engines.getD e.val none = some ⟨i.val, c.next, b, j⟩ ∧ t.slotOf j = .filling ∧
          t.clip i.val = some { c with next := c.next + 1 } ∧ RegsBut (fun a => a = rHrStatus ∨ a = rMpFullNs ∨ a = rMpPauseCnt) s t ∧ SameMem s t)) ∧
      (∀ o : Nat, sampBad b (max 1 (leAt c.rbytes 13 1)) = some o → Runs (.sampleDispatch i e) s (fun t =>
        t.reg (rHrDropCnt 5) = s.reg (rHrDropCnt 5) + 1 ∧ t.pond.engines = s.pond.engines ∧ t.pond.slots = s.pond.slots ∧ SameMem s t)) ∧
      (sampBad b (max 1 (leAt c.rbytes 13 1)) = none → s.dispatchSlot = none → Runs (.sampleDispatch i e) s (fun t =>
        Quiet s t ∧ t.pond.engines = s.pond.engines ∧ t.pond.clips = s.pond.clips))) ∧
    (∀ (c : ClipS) (x : EngineS), s.pond.engines.length = 8 → s.pond.engines.getD e.val none = some x → x.clip = i.val → s.clip i.val = some c →
      (∀ (d : SampleData) (v u : State), s.fateOf c e.val x = .ok d → s.scratchWrite c e.val x = .ok v →
        v.vWrite 0 (s.fget rMpCfg fMpCfgCtx) (s.slotVa x.slot) (slotBody c x d s.pondOrigin) = .ok u → Runs (.sampleReady i e) s (fun t =>
          t.pond.engines.getD e.val none = none ∧ t.slotOf x.slot = .ready ∧ t.pond.readyList = s.pond.readyList ++ [x.slot] ∧ SameMem u t ∧
          t.reg rHrSampleCnt = s.reg rHrSampleCnt + 1 ∧ t.reg rMpInCnt = s.reg rMpInCnt + 1)) ∧
      (∀ d : DropInfo, s.fateOf c e.val x = .error d → exec (.sampleReady i e) s = .next s ∧ Runs (.sampleDrop i e) s (fun t =>
        t.pond.engines.getD e.val none = none ∧ t.slotOf x.slot = .free ∧ t.reg (rHrDropCnt d.reason.toNat) = s.reg (rHrDropCnt d.reason.toNat) + 1 ∧
        t.reg rHrDecodeCnt = s.reg rHrDecodeCnt + BitVec.ofNat 64 d.pictures ∧ SameMem s t)) ∧
      (∀ d : SampleData, s.fateOf c e.val x = .ok d → exec (.sampleDrop i e) s = .next s)) ∧
    ((∀ x, s.pond.engines.getD e.val none = some x → x.clip ≠ i.val) → exec (.sampleReady i e) s = .next s ∧ exec (.sampleDrop i e) s = .next s) ∧
    (s.pond.pausing = true → (s.freeSlots < s.fget rHrPfcCfg fHrPfcCfgXonFree → s.flag rHrCtl fHrCtlPfcEn = true → Runs .pfcRepeat s (fun t =>
        t.sent = s.sent ++ [.pfc (s.fget rHrCtl fHrCtlPfcPrio) 0xFFFF] ∧ RegsBut (· = rMpPauseCnt) s t ∧ SameMem s t)) ∧
      (s.fget rHrPfcCfg fHrPfcCfgXonFree ≤ s.freeSlots → Runs .pfcRepeat s (fun t => t.pond.pausing = false ∧ SameRegs s t ∧ SameMem s t))) ∧
    (s.pond.pausing = false → exec .pfcRepeat s = .next s) ∧
    (∀ q p : Nat, s.flag rMpCfg fMpCfgEn = true → s.nextQueue = some (q, p) →
      (s.vParts 0 (s.fget rMpCfg fMpCfgCtx % 8) (s.fget (rMpQCfg q) fMpQCfgRingVa * 32 +
        32 * (s.fget (rMpQSeq q) fMpQSeqSeq % 2 ^ s.fget (rMpQCfg q) fMpQCfgLog2depth)) 32 accWrite).isOk = true → s.fget (rMpQCt q) fMpQCtCtKind = 0 →
      s.sem.entries = [] →
      let gone := fun (slot : Nat) (t : State) => t.slotOf slot = .held ∧
        t.fget (rMpQSeq q) fMpQSeqSeq = (s.fget (rMpQSeq q) fMpQSeqSeq + 1) % 2 ^ 32 ∧ t.reg rMpRelCnt = s.reg rMpRelCnt + 1
      (∀ hdr : Bytes, heldOf s.pond.replay q = [] → s.pond.readyList ≠ [] →
        let draw := (s.reg rMpDraw).toNat
        let j := (philox (s.reg rMpSeed) draw (draw / 2 ^ 32) s.pondPos 0).1 * s.pond.readyList.length / 2 ^ 32
        let slot := s.pond.readyList.getD j 0
        s.vRead 0 (s.fget rMpCfg fMpCfgCtx) (s.slotVa slot) 128 = .ok (some hdr) → Runs .millpondRelease s (fun t => gone slot t ∧
          t.reg rMpDraw = BitVec.ofNat 64 (draw + 1) ∧ t.pond.readyList.length + 1 = s.pond.readyList.length)) ∧
      (∀ (h : HeldS) (rest : List HeldS), heldOf s.pond.replay q = h :: rest → Runs .millpondRelease s (fun t => gone h.slot t ∧
        t.reg rMpDraw = s.reg rMpDraw ∧ t.pond.readyList = s.pond.readyList ∧ heldOf t.pond.replay q = rest))) ∧
    (s.pond.readyList = [] → (∀ q, heldOf s.pond.replay q = []) → exec .millpondRelease s = .next s) ∧
    (s.flag rMpCfg fMpCfgEn = false ∨ s.nextQueue = none → exec .millpondRelease s = .next s) ∧
    (∀ (n : LinkId) (hdr data : Bytes) (p : PlanE),
      let h := qhdrOf hdr
      let wire := s.fget (rQst n.val) fQstWireFlow
      let dist := leAt h.mid 8 3
      let at_ := leAt h.mid 0 2
      let part := slice data 0 (128 * h.beats)
      h.kind = 2 → s.recOk n.val h = true → h.epoch = s.gEpoch h.group → s.stationPeer n.val = true → s.readPlan n.val h.group h.tag = .ok p →
      (dist ≠ h.hops + 1 → s.linkState n.val = 6 → (s.link n.val).wireQ = [] → 128 + data.length ≤ 128 * s.egRoom n.val wire →
        wire ≠ s.fget (rQst n.val) fQstUpFlow → Runs (.exchangeRecordLand n hdr data) s (fun t =>
          t.egress n.val wire = s.egress n.val wire ++ qhdrBytes { h with hops := h.hops + 1 } ++ data ∧
          t.reg (rQeRecTxCnt n.val) = s.reg (rQeRecTxCnt n.val) + 1 ∧
          RegsBut (fun a => a = rQeRecTxCnt n.val ∨ a = rQeRecRxCnt n.val) s t ∧ SameMem s t)) ∧
      (dist ≠ h.hops + 1 → s.wireFree n.val = false → Runs (.exchangeRecordLand n hdr data) s (fun t => Quiet s t ∧ t.link n.val = s.link n.val)) ∧
      (dist = h.hops + 1 → s.landSlot at_ (leAt h.mid 4 4) = none → exec (.exchangeRecordLand n hdr data) s = .next s) ∧
      (∀ (rd : RoundS) (slot : Nat), dist = h.hops + 1 → s.landSlot at_ (leAt h.mid 4 4) = some (rd, slot) → dist = rd.dist →
        (leAt h.mid 4 4 = 0 → Runs (.exchangeRecordLand n hdr data) s (fun t => (∃ y, t.pond.round = some y ∧ at_ ∈ y.handled) ∧
          t.reg (rQeRecRxCnt n.val) = s.reg (rQeRecRxCnt n.val) + 1 ∧ SameMem s t)) ∧
        (∀ u : State, at_ ∉ rd.handled → sget (fun _ => 0) rd.landed at_ + h.beats < leAt h.mid 4 4 →
          s.vWrite 0 (s.fget rMpCfg fMpCfgCtx % 8) (s.slotVa slot + 16384 * h.tile) part = .ok u → Runs (.exchangeRecordLand n hdr data) s (fun t =>
            t.pond.round.map (fun y => sget (fun _ => 0) y.landed at_) = some (sget (fun _ => 0) rd.landed at_ + h.beats) ∧
            RegsBut (· = rQeRecRxCnt n.val) s t ∧ SameMem u t))))

/-! ### The host attachment -/

/-- THP sessions, reads and writes (R370 to R374): OPEN opens a session that expects SEQ 1, or answers FULL with 16 open; CLOSE ends a session; INFO is
answered outside any session; READ of HBM answers its bytes and WRITE stores them, a poisoned read answers POISON; a request behind the one expected
waits, and one in a frame above 9,216 bytes is dropped (log entry 220: which headers count in a frame is the model's choice); a device request's answer
takes it off the list, a resend counts, and an idle session ends. The priority that INFO has is the model's free value (log entry 221). -/
def Obligations.ThpSessions : Prop :=
  ∀ (s : State) (x : Session) (seq sid : BitVec 32),
    (∀ (h : HostAddr) (a0 a1 : Word), HostQuiet s → a0.toNat % 4 ≠ 3 → a0.toNat < 8 → (a0.toNat % 4 = 2 → a1.toNat < 1024) →
      (s.host.sessions.length < 16 → sid ≠ 0 → s.session sid = none → Runs (.thpOpen h a0 a1 sid) s (fun t =>
        (∃ y, t.host.sessions = s.host.sessions ++ [y] ∧ y.sid = sid ∧ y.host = h ∧ y.cls = a0.toNat % 4 ∧ y.expect = 1) ∧
        t.sent = s.sent ++ [.thp (s.dest h) ⟨sid, 1, 0, 0, 0, 0, []⟩] ∧ RegsBut thpCounter s t ∧ SameMem s t)) ∧
      (16 ≤ s.host.sessions.length → Runs (.thpOpen h a0 a1 sid) s (fun t => t.host.sessions = s.host.sessions ∧
        t.sent = s.sent ++ [.thp (s.dest h) ⟨0, 1, 0, 11, 0, 0, []⟩] ∧ RegsBut thpCounter s t ∧ SameMem s t))) ∧
    (∀ h : HostAddr, s.portUp = true → Runs (.info h) s (fun t => (∃ a0,
      let o := .thp (s.dest h) ⟨0, 3, 0, 0, a0, 0, s.identity⟩
      if s.portWaits (Config.thpPrio 3).toNat then t.sent = s.sent ∧ t.host.held = s.host.held ++ [((Config.thpPrio 3).toNat, o)]
      else t.sent = s.sent ++ [o]) ∧ RegsBut thpCounter s t ∧ SameMem s t)) ∧
    (Takes s x seq →
      let tells := fun (op st : Nat) (b : Bytes) (t : State) => .thp (s.dest x.host) ⟨x.sid, op, seq, st, 0, 0, b⟩ ∈ t.sent
      (x.devOut = [] → Runs (.thpClose ⟨x.sid, x.host⟩ seq) s (fun t => t.session x.sid = none ∧ tells 2 0 [] t ∧
        RegsBut thpCounter s t ∧ SameMem s t)) ∧
      (∀ a n : Nat, 0 < n → n ≤ s.maxPayload → n < 65536 → a + n ≤ hbmEnd →
        (s.poisoned a n = false → Runs (.read ⟨x.sid, x.host⟩ seq (BitVec.ofNat 64 a) (BitVec.ofNat 64 n)) s (fun t =>
          tells 0x10 0 (s.rdBytes a n) t ∧ RegsBut thpCounter s t ∧ SameMem s t)) ∧
        (s.poisoned a n = true → Runs (.read ⟨x.sid, x.host⟩ seq (BitVec.ofNat 64 a) (BitVec.ofNat 64 n)) s (fun t =>
          tells 0x10 5 [] t ∧ RegsBut thpCounter s t ∧ SameMem s t))) ∧
      (∀ (a : Nat) (data : Bytes), 0 < data.length → data.length ≤ s.maxPayload → ethFits (32 + data.length) = true → a + data.length ≤ hbmEnd →
        (a + data.length ≤ 0xEE04000000 ∨ 0xEE08000000 ≤ a) → Runs (.write ⟨x.sid, x.host⟩ seq (BitVec.ofNat 64 a) data) s (fun t =>
          t.rdBytes a data.length = data ∧ tells 0x11 0 [] t ∧ MemBut a data.length s t ∧ RegsBut thpCounter s t))) ∧
    (∀ (f : ThpFrom) (a0 : Word) (data : Bytes), ethFits (32 + data.length) = false → Runs (.write f seq a0 data) s (fun t => t = s)) ∧
    (HostQuiet s → s.session x.sid = some x → 1 ≤ (seq.toNat + 2 ^ 32 - x.expect) % 2 ^ 32 → (seq.toNat + 2 ^ 32 - x.expect) % 2 ^ 32 ≤ 1023 → (∀ w ∈ x.waiting, w.1 ≠ seq.toNat) →
      ∀ a0 a1 : Word, Runs (.read ⟨x.sid, x.host⟩ seq a0 a1) s (fun t => t.sent = s.sent ∧
        (t.session x.sid).map (fun y => y.waiting.length) = some (x.waiting.length + 1) ∧ RegsBut thpCounter s t ∧ SameMem s t)) ∧
    (HostQuiet s → s.host.sessions = [x] →
      (∀ status : BitVec 16, Runs (.thpDeviceResponse x.sid seq status) s (fun t =>
        (t.session x.sid).map Session.devOut = some (x.devOut.filter fun d => d.seq != seq.toNat) ∧ RegsBut thpCounter s t ∧ SameMem s t)) ∧
      (∀ d : DevReq, x.devOut = [d] → d.seq = seq.toNat → d.sends < 16 → Runs (.deviceRequestResend x.sid seq) s (fun t =>
        t.sent = s.sent ++ [.thpDev (s.dest x.host) x.sid d.op d.seq d.a0 d.a1 d.data] ∧
        (t.session x.sid).map Session.devOut = some [{ d with sends := d.sends + 1 }] ∧ RegsBut thpCounter s t ∧ SameMem s t)) ∧
      Runs (.sessionIdle x.sid) s (fun t => t.session x.sid = none ∧ SameRegs s t ∧ SameMem s t))

/-- The commands of a control session (R184, R372, R375, R376, R378, R405, R419, R423, R428, R440), each answered: LOAD puts a context in, START
starts the cores that it is on at their entry points, STOP sends PREEMPT, RESUME lets a stopped one go on and END takes it away; GRID_BUILD builds halls; queue
pairs and memory regions come and go; FW_WRITE holds the header and programs the body, FW_COMMIT refuses an image that fails its checks; LOG_READ
and ATTEST only answer; WARM_RESET and PORCH_EXIT start the device again. -/
def Obligations.ThpCommands : Prop :=
  ∀ (s : State) (x : Session) (seq : BitVec 32) (k : CtxId), HostQuiet s → s.session x.sid = some x → x.cls = 0 → seq.toNat = x.expect → x.waiting = [] →
    let c := s.ctx k.val
    let a := BitVec.ofNat 64 k.val
    let ok := fun (op : Nat) (a0 : Word) (t : State) => ∃ d : Dest, d.host = x.host ∧ .thp d ⟨x.sid, op, seq, 0, a0, 0, []⟩ ∈ t.sent
    (s.inPorch = false →
      (∀ (pa : Word) (len : Nat) (img : Image) (env : BuildEnv), len < 2 ^ 32 →
        (∃ u, (s.count rThpRxCnt 1).loadImage pa.toNat len k img env = .ok u) →
        Runs (.load ⟨x.sid, x.host⟩ seq pa (BitVec.ofNat 64 (len + k.val * 2 ^ 32)) img env) s (fun t => ok 0x20 0 t ∧ (t.ctx k.val).loaded = true ∧
          (t.ctx k.val).img = some img)) ∧
      (∀ img, c.loaded = true → c.started = false → s.ebc.noGear = false → c.img = some img → s.groupsOf k.val = [] →
        Runs (.thpStart ⟨x.sid, x.host⟩ seq a) s (fun t => ok 0x21 0 t ∧ (t.ctx k.val).started = true ∧ SameMem s t ∧
          ∀ y ∈ img.cores, s.presentOn y.pos k = true → (s.flag (rCoreCtl y.pos) fCoreCtlHalt = false → t.run y.pos = true) ∧ ∃ z ∈ img.cores, z.pos = y.pos ∧ t.pc y.pos = z.entry.toNat)) ∧
      (s.ctxRunning k.val = true → (∃ d ∈ s.activeCores k.val, s.run d = true) → Runs (.thpStop ⟨x.sid, x.host⟩ seq a) s (fun t => ok 0x22 0 t ∧
        (∃ m ∈ t.bell, bellType m = 8) ∧ RegsBut thpCounter s t ∧ SameMem s t)) ∧
      (c.stopped.isSome = true → c.groupHalt = false → s.activeCores k.val ≠ [] → Runs (.resume ⟨x.sid, x.host⟩ seq a) s (fun t => ok 0x23 0 t ∧
        (t.ctx k.val).stopped = none ∧ (∀ d ∈ s.activeCores k.val, t.flag (rCoreStatus d) fCoreStatusFaulted = false) ∧
        (∃ m ∈ t.bell, bellType m = 8) ∧ SameMem s t)) ∧
      (c.loaded = true → Runs (.endCtx ⟨x.sid, x.host⟩ seq a) s (fun t => ok 0x24 0 t ∧ (t.ctx k.val).loaded = false ∧
        ∀ d ∈ s.activeCores k.val, (t.core d).present = false ∧ t.run d = false)) ∧
      (∀ (mask : BitVec 8) (w : List (BitVec 12)), Runs (.gridBuild ⟨x.sid, x.host⟩ seq (mask.setWidth 64) ⟨[], w⟩) s (fun t =>
        (∃ holes, ok 0x30 holes t) ∧ (∀ h : Fin 8, mask.getLsbD h.val = true → t.built h.val = true) ∧ SameMem s t)) ∧
      (∀ (remote qpn : BitVec 24) (cf : BitVec 3), s.host.qps.length < 64 → (∀ y ∈ s.host.qps, y.qpn ≠ qpn) →
        Runs (.qpCreate ⟨x.sid, x.host⟩ seq (BitVec.ofNat 64 (remote.toNat * 2 ^ 16 + cf.toNat * 2 ^ 8 + k.val)) 0 qpn) s (fun t => ok 0x40 (qpn.setWidth 64) t ∧
          (∃ y, t.host.qps = s.host.qps ++ [y] ∧ y.qpn = qpn ∧ y.ctx = k) ∧ RegsBut thpCounter s t ∧ SameMem s t)) ∧
      (∀ y : QpS, s.host.qps = [y] → Runs (.qpDestroy ⟨x.sid, x.host⟩ seq (y.qpn.setWidth 64)) s (fun t => ok 0x41 0 t ∧ t.host.qps = [] ∧
        RegsBut thpCounter s t ∧ SameMem s t)) ∧
      (∀ rkey : BitVec 32, s.host.mrs.length < 256 → (∀ y ∈ s.host.mrs, y.rkey ≠ rkey) →
        Runs (.mrCreate ⟨x.sid, x.host⟩ seq (BitVec.ofNat 64 (2 ^ 63 + k.val)) 0 rkey) s (fun t => ok 0x42 (rkey.setWidth 64) t ∧
          (∃ y, t.host.mrs = s.host.mrs ++ [y] ∧ y.rkey = rkey ∧ y.doorbell = true) ∧ RegsBut thpCounter s t ∧ SameMem s t)) ∧
      (∀ y : MrS, s.host.mrs = [y] → Runs (.mrDestroy ⟨x.sid, x.host⟩ seq (y.rkey.setWidth 64)) s (fun t => ok 0x43 0 t ∧ t.host.mrs = [] ∧
        RegsBut thpCounter s t ∧ SameMem s t)) ∧
      Runs (.warmReset ⟨x.sid, x.host⟩ seq) s (fun t => t.hearth.boot = .rails ∧ t.powerGood = false ∧ ∀ d : CoreId, t.run d = false)) ∧
    (s.hearth.boot ≠ .hostImage →
      (∀ data : Bytes, data.length = 4096 → Runs (.fwWrite ⟨x.sid, x.host⟩ seq 0 data) s (fun t => ok 0x70 0 t ∧ t.hearth.heldHdr = some data ∧
        RegsBut thpCounter s t ∧ SameMem s t)) ∧
      (∀ (o : Nat) (data : Bytes), 0 < o → o % 4096 = 0 → o < 0x1000000 → data.length = 4096 → Runs (.fwWrite ⟨x.sid, x.host⟩ seq (BitVec.ofNat 64 o) data) s (fun t =>
        ok 0x70 0 t ∧ t.flashBytes (bankBase s.inactiveBank + o) 4096 = data ∧ RegsBut thpCounter s t ∧ SameMem s t)) ∧
      (∀ n, s.fwCheck (s.hearth.heldHdr.getD []) (s.flashBytes (bankBase s.inactiveBank + 4096) (leAt (s.hearth.heldHdr.getD []) 12 4)) false = some n →
        Runs (.fwCommit ⟨x.sid, x.host⟩ seq 0) s (fun t => .thp (s.dest x.host) ⟨x.sid, 0x71, seq, 9, 0, 0, []⟩ ∈ t.sent ∧ t.flash = s.flash ∧ t.hearth.heldHdr = none ∧
          (∃ r, t.log.arrivals = s.log.arrivals ++ [r] ∧ r.code = 0x9001) ∧ RegsBut thpCounter s t ∧ SameMem s t))) ∧
    (∀ (from_ : Word) (n : Nat), 0 < n → n ≤ 128 → Runs (.logRead ⟨x.sid, x.host⟩ seq from_ (BitVec.ofNat 64 n)) s (fun t =>
      (∃ a0 a1 p, .thp (s.dest x.host) ⟨x.sid, 0x72, seq, 0, a0, a1, p⟩ ∈ t.sent ∧ a1.toNat ≤ n) ∧ RegsBut thpCounter s t ∧ SameMem s t)) ∧
    (∀ nonce : Bytes, nonce.length = 64 → Runs (.attest ⟨x.sid, x.host⟩ seq nonce) s (fun t => .thp (s.dest x.host) ⟨x.sid, 0x73, seq, 0, 0, 0,
      s.attestBody nonce ++ slice (Config.idSign (Config.sha512 (s.attestBody nonce))) 0 132⟩ ∈ t.sent ∧ RegsBut thpCounter s t ∧ SameMem s t)) ∧
    (s.hearth.boot = .porch → s.fget rStartStatus fStartStatusBootSrc ≠ 3 → s.fget rStartStatus fStartStatusBootSrc ≠ 1 →
      Runs (.porchExit ⟨x.sid, x.host⟩ seq) s (fun t => t.hearth.boot = .rails ∧ t.powerGood = false))

/-- RDMA writes and the Ethernet port (R368, R369, R377 to R379, R383): the packet with the expected PSN and a region that takes it is stored and
moves PSN on, one ahead is answered with a single NAK and one behind with an ACK; one whose ICRC or checksum fails is dropped; ACK_COALESCE acknowledges;
what the port sends waits while its priority is paused (log entries 191 and 221: that it is held whole, and the priority of Neighbor Discovery, are the
model's choice); a solicitation for the link-local address is answered; a received pause holds the priority; the PCS lock shows in ETH_STATUS; bad frames
and bad THP headers are counted. -/
def Obligations.RdmaAndEthernet : Prop :=
  ∀ (s : State) (y : QpS) (p : RdmaPkt),
    let goes := fun (prio : Nat) (o : Out) (t : State) =>
      if s.portWaits prio then t.host.held = s.host.held ++ [(prio, o)] ∧ t.sent = s.sent else t.sent = s.sent ++ [o]
    (s.hearth.boot = .run → s.qp y.qpn = some y → y.error = false → p.ce = false → p.intact = true → ethFits (32 + p.payload.length) = true →
      let d := (p.psn - y.psn).toNat
      (∀ (m : MrS) (u : State), d = 0 → y.cur = none → p.opcode = 0x0A → p.payload.length = p.dlen.toNat → p.dlen.toNat ≤ 4096 →
        (s.host.mrs.find? fun m => m.rkey == p.rkey) = some m → m.doorbell = false → m.va ≤ p.va.toNat →
        p.va.toNat + p.payload.length ≤ m.va + 4096 * m.pages → s.vWrite 0 m.ctx.val p.va.toNat p.payload = .ok u →
        Runs (.rdmaWrite y.qpn p) s (fun t => (t.qp y.qpn).map QpS.psn = some (y.psn + 1) ∧ SameMem u t ∧ RegsBut (· = rRdmaRxCnt) s t)) ∧
      (0 < d → d < 2 ^ 23 → y.nakSent = false → Runs (.rdmaWrite y.qpn p) s (fun t => goes y.prio.toNat (.roceNak (s.dest y.host) y.remote y.psn 0) t ∧
        (t.qp y.qpn).map QpS.nakSent = some true ∧ RegsBut (fun a => a = rRdmaRxCnt ∨ a = rRdmaNakCnt) s t ∧ SameMem s t)) ∧
      (2 ^ 23 ≤ d → Runs (.rdmaWrite y.qpn p) s (fun t => goes y.prio.toNat (.roceAck (s.dest y.host) y.remote (y.psn - 1)) t ∧
        RegsBut (· = rRdmaRxCnt) s t ∧ SameMem s t))) ∧
    (p.intact = false → Runs (.rdmaWrite y.qpn p) s (fun t => t = s)) ∧
    (s.qp y.qpn = some y → y.error = false → y.pendAck ≠ 0 → Runs (.ackCoalesce y.qpn) s (fun t =>
      goes y.prio.toNat (.roceAck (s.dest y.host) y.remote (y.psn - 1)) t ∧ (t.qp y.qpn).map QpS.pendAck = some 0 ∧ SameRegs s t ∧ SameMem s t)) ∧
    (s.portUp = true →
      (∀ h : HostAddr, Runs (.neighborSolicit h s.linkLocal) s (fun t => goes (Config.thpPrio 3).toNat (.neighborAdv (s.dest h) s.linkLocal) t ∧
        SameRegs s t ∧ SameMem s t)) ∧
      (∀ (prio : BitVec 3) (quanta : BitVec 16), quanta ≠ 0 → Runs (.pfcRx prio quanta) s (fun t => (prio.toNat, quanta.toNat, s.now) ∈ t.host.paused ∧
        RegsBut (· = rThpTxCnt) s t ∧ SameMem s t)) ∧
      (∀ prio : BitVec 3, Runs (.pfcRx prio 0) s (fun t => (∀ e ∈ t.host.paused, e.1 ≠ prio.toNat) ∧ (∀ e ∈ t.host.held, e.1 ≠ prio.toNat) ∧
        RegsBut (· = rThpTxCnt) s t ∧ SameMem s t)) ∧
      Runs .pcsBlockLock s (fun t => t.flag rEthStatus fEthStatusPcsUp = true ∧ RegsBut (· = rEthStatus) s t ∧ SameMem s t) ∧
      Runs .pcsBlockLockLoss s (fun t => t.flag rEthStatus fEthStatusPcsUp = false ∧ RegsBut (· = rEthStatus) s t ∧ SameMem s t) ∧
      Runs (.ethFrameDrop .badFcs) s (fun t => t.reg rEthFcsErrCnt = s.reg rEthFcsErrCnt + 1 ∧ RegsBut (· = rEthFcsErrCnt) s t ∧ SameMem s t) ∧
      (∀ b : Bytes, thpParse b = none → Runs (.ethFrameDrop (.thpMalformed b)) s (fun t =>
        t.reg rThpDropCnt = s.reg rThpDropCnt + 1 ∧ RegsBut (· = rThpDropCnt) s t ∧ SameMem s t)))

/-! ### Registers, power, start, recorder -/

/-- Writes with an effect of their own (R9, R50, R51, R102, R211, R216, R414, R475): an invalidation waits and, once no request translated
before it is left, takes its entries out of every translation cache; a live descriptor's entry is dropped or moved while its core does not run; counters are zeroed; a core store is written through
its window, a plain register too, and a refused write changes nothing; a hall is reset if nothing stands against it. An event whose condition does
not hold changes nothing (log entry 4). -/
def Obligations.RegisterCommands : Prop :=
  ∀ (s : State) (r : Requester) (c : CoreId) (h : Fin 8) (v : Word), mayWrite r = true →
    (Runs (.trInval r h v) s (fun t => t.inval = s.inval ++ [invalOf v] ∧ Quiet s t)) ∧
    (∀ k p rest, s.inval = (k, p) :: rest → s.oldOut k p = true → exec .trInvalDone s = .next s) ∧
    (∀ k p rest, s.inval = (k, p) :: rest → s.oldOut k p = false → Runs .trInvalDone s (fun t => t.inval = rest ∧ Quiet s t ∧
      ∀ d : CoreId, (t.core d).tlb = (s.core d).tlb.filter fun e => !(e.1 == k && (p == none || p == some e.2.1)))) ∧
    (∀ e : BitVec 6, s.built c.hall.val = true → s.isHole c = false → s.run c = false → e.toNat < (s.core c).descs.length →
      Runs (.strmEntryWrite r c e true v) s (WritesReg (rStrmProgress c e.toNat) v s) ∧
      (v.getLsbD 63 = false → Runs (.strmEntryWrite r c e false v) s (fun t =>
        (t.core c).descs = (s.core c).descs.eraseIdx e.toNat ∧
        t.fget (rStrmStatus c) fStrmStatusDescLive = s.fget (rStrmStatus c) fStrmStatusDescLive - 1 ∧ SameMem s t)) ∧
      (v.getLsbD 63 = true → s.fget (rStrmEntry c e.toNat) fStrmEntryPhase = 0 → Runs (.strmEntryWrite r c e false v) s (fun t =>
        t.fget (rStrmEntry c e.toNat) fStrmEntryDescIdx = fStrmEntryDescIdx.get v ∧ t.fget (rStrmEntry c e.toNat) fStrmEntryDesc = bton (v.getLsbD 60) ∧
        t.fget (rStrmEntry c e.toNat) fStrmEntryPhase = min (v.toNat / 2 ^ 61 % 4) 2 ∧ RegsBut (· = rStrmEntry c e.toNat) s t ∧ SameMem s t)) ∧
      (v.getLsbD 63 = true → s.fget (rStrmEntry c e.toNat) fStrmEntryPhase ≠ 0 → exec (.strmEntryWrite r c e false v) s = .next s)) ∧
    (∀ (e : BitVec 6) (second : Bool), (s.core c).descs.length ≤ e.toNat → exec (.strmEntryWrite r c e second v) s = .next s) ∧
    (s.built c.hall.val = true → Runs (.cntCtlClear r c v) s (fun t => t.flag (rCntCtl c) fCntCtlFreeze = v.getLsbD 1 ∧
      (v.getLsbD 0 = true → t.reg (rIssueCnt c) = 0 ∧ t.reg (rHaltCnt c) = 0 ∧ (∀ i < 16, t.reg (rStallCnt c i) = 0) ∧ t.reg (rArrNoworkCnt c) = 0 ∧
        t.reg (rVecNoworkCnt c) = 0 ∧ t.reg (rStrmNoworkCnt c) = 0) ∧
      RegsBut (fun a => rCntCtl c ≤ a ∧ a < coreBase c + 0x300298) s t ∧ SameMem s t)) ∧
    (Runs (.arrCntClear r c) s (fun t => (∀ a, rArrPassCnt c.hall.val (arrIx c) ≤ a → a < rArrCntCtl c.hall.val (arrIx c) → t.reg a = regReset a) ∧
      RegsBut (fun a => rArrPassCnt c.hall.val (arrIx c) ≤ a ∧ a < rArrCntCtl c.hall.val (arrIx c)) s t ∧ SameMem s t)) ∧
    (∀ (a : BitVec 48) (n : Nat), ctlSpan a.toNat = some n → Runs (.edgeCtlClear r a) s (fun t =>
      (∀ b, a.toNat - n ≤ b → b < a.toNat → t.reg b = regReset b) ∧ RegsBut (fun b => a.toNat - n ≤ b ∧ b < a.toNat) s t ∧ SameMem s t)) ∧
    (∀ (a : BitVec 48) (wide : Bool),
      let n := if wide then 8 else 4
      (s.busWrite r a.toNat n v.toNat = none → exec (.registerWrite r a wide v) s = .next s) ∧
      (∀ o, widthAligned a.toNat n = true → place (a.toNat / 8 * 8) = .core c o → o < 0x200000 → s.coreOpen c o (regHere (a.toNat / 8 * 8)) = true →
        Runs (.registerWrite r a wide v) s (fun t => t.rdBytes a.toNat n = natBytes n v.toNat ∧ MemBut a.toNat n s t ∧ SameRegs s t)) ∧
      Runs (.registerWrite r (BitVec.ofNat 48 rMpSeed) true v) s (WritesReg rMpSeed v s)) ∧
    (s.hearth.boot = .run →
      (∀ n, s.hallBusy h.val = some n → Runs (.hallRstReq r (BitVec.ofNat 8 (2 ^ h.val))) s (fun t => t.fget rHallRst fHallRstReason = n ∧
        t.log.arrivals = s.log.arrivals ++ [evr 0x0013 0x10 0 0 0 h.val n] ∧ RegsBut (· = rHallRst) s t ∧ SameMem s t)) ∧
      (s.hallBusy h.val = none → Runs (.hallRstReq r (BitVec.ofNat 8 (2 ^ h.val))) s (fun t => t.flag rHallRst ⟨16 + h.val, 16 + h.val⟩ = true ∧
        t.fget rHallRst fHallRstReason = 0 ∧
        (∀ a, hallScope h.val a = true → isArrStatus a = false → isGridCol a = false → t.reg a = regReset a) ∧
        (∀ a d o, place a = .core d o → d.hall = h → t.rdB a = 0) ∧ ∀ d : CoreId, d.hall = h → t.core d = CoreS.fresh))) ∧
    (s.flag rHallRst ⟨16 + h.val, 16 + h.val⟩ = true → Runs (.hallReset h) s (fun t => t.flag rHallRst ⟨16 + h.val, 16 + h.val⟩ = false ∧
      t.log.arrivals = s.log.arrivals ++ [evr 0x0012 0x10 0] ∧ RegsBut (· = rHallRst) s t ∧ SameMem s t))

/-- Gears and PLLs (R20, R390, R395 to R397): the evaluation ends with a clock change if another gear is selected; a lock is noted once; with every
built hall locked the core clocks start at SLOT 0, and a start from G0 begins a step's energy; a first lock failure is counted and recorded, a second turns to the
previous gear, leaves no gear, or fails a start; G0 with
nothing running switches the hall PLLs off; a lost reference gives way to the internal one and comes back on a retry. An event whose condition
does not hold changes nothing (log entry 4). -/
def Obligations.ClocksAndGears : Prop :=
  ∀ (s : State) (h : Fin 8),
    (s.ebc.evaluating = true → s.runningCtxs ≠ [] → s.ebc.change = none →
      (s.ebc.running = true → s.select.1 = s.gear → Runs .gearSelect s (fun t => t.ebc.evaluating = false ∧ t.ebc.change = none ∧ SameMem s t)) ∧
      (s.ebc.running = true → s.select.1 ≠ s.gear → Runs .gearSelect s (fun t => t.ebc.evaluating = false ∧ t.ebc.running = false ∧
        t.ebc.change = some ⟨s.select.1, s.gear, [], [], false, s.now⟩ ∧ t.fget rEbcStatus fEbcStatusShare = s.select.2 % 16 ∧
        (s.built h.val = true → t.flag (rHallClk h.val) fHallClkPllOn = true ∧ t.flag (rHallClk h.val) fHallClkPllLock = false) ∧
        RegsBut (fun a => a = rEbcStatus ∨ a = rHrStatus ∨ ∃ g : Fin 8, a = rHallClk g.val) s t ∧ SameMem s t))) ∧
    (∀ c, s.ebc.change = some c → s.built h.val = true → h ∉ c.locked → Runs (.pllLock (.hall h)) s (fun t =>
      t.flag (rHallClk h.val) fHallClkPllLock = true ∧ t.ebc.change = some { c with locked := c.locked ++ [h] } ∧
      RegsBut (· = rHallClk h.val) s t ∧ SameMem s t)) ∧
    (∀ c, s.ebc.change = some c → s.builtHalls ≠ [] → (∀ g ∈ s.builtHalls, g ∈ c.locked) → c.target < 8 → Runs .coreClockStart s (fun t =>
      t.ebc.change = none ∧ (c.prev = 0 → t.ebc.running = true ∧ t.slot = 0 ∧ t.gear = c.target ∧
        t.ebc.stepAt = s.now ∧ t.ebc.stepUj = 0 ∧ t.ebc.stepHrUj = 0 ∧
        (s.built h.val = true → t.fget (rHallClk h.val) fHallClkGear = c.target) ∧
        RegsBut (fun a => a = rEbcStatus ∨ ∃ g : Fin 8, a = rHallClk g.val) s t) ∧ SameMem s t)) ∧
    (PllDom.hall h ∉ s.ebc.tried → Runs (.pllLockFail (.hall h)) s (fun t =>
      t.fget (rHallClk h.val) fHallClkLockFails = min 255 (s.fget (rHallClk h.val) fHallClkLockFails + 1) ∧
      (∃ r, t.log.arrivals = s.log.arrivals ++ [r] ∧ r.code = 0x8003) ∧ PllDom.hall h ∈ t.ebc.tried ∧ RegsBut (· = rHallClk h.val) s t ∧ SameMem s t)) ∧
    (∀ c, PllDom.hall h ∈ s.ebc.tried → s.ebc.change = some c → c.prev ≠ 0 → c.fallback = false → Runs (.pllLockFail (.hall h)) s (fun t =>
      t.ebc.change = some ⟨c.prev, c.prev, [], [], true, c.at_⟩ ∧ SameMem s t)) ∧
    (∀ c, PllDom.hall h ∈ s.ebc.tried → s.ebc.change = some c → c.prev = 0 ∨ c.fallback = true → Runs (.pllLockFail (.hall h)) s (fun t =>
      t.ebc.noGear = true ∧ t.ebc.change = none)) ∧
    (∀ d, (∀ g, d ≠ PllDom.hall g) → s.hearth.boot ≠ .neighbour → Runs (.pllLockFail d) s (fun t =>
      (∃ r, t.log.arrivals = s.log.arrivals ++ [r] ∧ r.code = 0x8003) ∧ d ∈ t.ebc.tried ∧ Quiet s t)) ∧
    (∀ d, (∀ g, d ≠ PllDom.hall g) → d ≠ .ether → d ∈ s.ebc.tried → s.hearth.boot = .neighbour → Runs (.pllLockFail d) s (fun t => t.hearth.boot = .failed ∧
      (∃ r, t.log.arrivals = s.log.arrivals ++ [r, evr 0x0010 0x10 0 0 0 3] ∧ r.code = 0x8003) ∧ Quiet s t)) ∧
    (∀ d, (∀ g, d ≠ PllDom.hall g) ∨ s.ebc.change = none → Runs (.pllLock d) s (fun t => d ∉ t.ebc.tried ∧ Quiet s t)) ∧
    (s.ebc.running = false → s.ebc.change = none → s.runningCtxs = [] → Runs .g0Doze s (fun t => t.ebc.doze = true ∧
      t.flag (rHallClk h.val) fHallClkPllOn = false ∧ t.flag (rHallClk h.val) fHallClkPllLock = false ∧
      RegsBut (fun a => ∃ g : Fin 8, a = rHallClk g.val) s t ∧ SameMem s t)) ∧
    (Runs .decodeEngineReady s (fun t => t.ebc.ready = s.fget rEbcStatus fEbcStatusShare ∧ Quiet s t)) ∧
    (s.fget rEbcStatus fEbcStatusRefSrc ≠ 0 → Runs .clkRefLoss s (fun t => t.fget rEbcStatus fEbcStatusRefSrc = 0 ∧
      t.flag rEbcStatus fEbcStatusRefFailover = true ∧ t.log.arrivals = s.log.arrivals ++ [evr 0x8006 0x14 0] ∧ RegsBut (· = rEbcStatus) s t ∧ SameMem s t)) ∧
    (∀ r, mayWrite r = true → s.flag rEbcStatus fEbcStatusRefFailover = true →
      (s.fget rStartStatus fStartStatusClkMode = 1 → Runs (.refRetry r true) s (fun t => t.fget rEbcStatus fEbcStatusRefSrc = 1 ∧
        t.flag rEbcStatus fEbcStatusRefFailover = false ∧ RegsBut (· = rEbcStatus) s t ∧ SameMem s t)) ∧
      exec (.refRetry r false) s = .next s)

/-- Gating, heat and metering (R384, R386, R389, R391 to R393, R458): a bucket enters the window of 100, and L rises by one above 105% of the budget,
falls by one at or below it, and is 15 while HOT or THROTTLE_N holds; a level that has reached a hall is applied in a cc in which a period of 1,024 cc starts (log entry 222); a sensor at its limit sets HOT with one record; a
sample adds to the joule counters, and what no block takes goes to OTHER_J; an excursion of the input is recorded once. An event whose condition
does not hold changes nothing (log entry 4). -/
def Obligations.EnergyAndHeat : Prop :=
  ∀ (s : State) (h : Fin 8) (i : Fin 21) (temp : BitVec 16),
    let uj := ((s.ebc.bucket :: s.ebc.window).take 100).sum
    let l := s.fget rEbcStatus fEbcStatusGateLevel
    let l' := if s.heatHeld then 15 else if s.flag rEbcCtl fEbcCtlGateEn = false then 0 else if 105 * (s.effMw * 10) < 100 * uj then min 15 (l + 1)
      else if uj ≤ s.effMw * 10 then l - 1 else l
    (Runs .gatingBucket s (fun t => t.ebc.window = (s.ebc.bucket :: s.ebc.window).take 100 ∧ t.ebc.bucket = 0 ∧
      t.fget rEbcWin fEbcWinWinMj = uj / 1000 % 2 ^ 32 ∧ t.fget rEbcStatus fEbcStatusGateLevel = l' ∧
      RegsBut (fun a => a = rEbcWin ∨ a = rEbcStatus ∨ a = rGateNs) s t ∧ SameMem s t)) ∧
    (∀ n, s.ebc.gatePend.getD h.val none = some n → s.ebc.gateLvl.length = 8 → s.ebc.gatePend.length = 8 → s.ebc.gateHere.length = 8 →
      Runs (.gateLevelApply h) s (fun t => (if s.slot % 1024 = 0 then t.ebc.gateLvl.getD h.val 0 = n
        else t.ebc.gateHere.getD h.val none = some n ∧ t.ebc.gateLvl = s.ebc.gateLvl) ∧ t.ebc.gatePend.getD h.val none = none ∧ Quiet s t)) ∧
    ((if i.val < 9 then 8 * (s.fget rEbcTempCfg fEbcTempCfgHotC : Int) else 760) ≤ temp.toInt → s.flag rEbcStatus fEbcStatusHot = false →
      Runs (.thermalHot i temp) s (fun t => t.flag rEbcStatus fEbcStatusHot = true ∧ t.fget rEbcStatus fEbcStatusGateLevel = 15 ∧
        t.temp i.val = temp.toInt ∧ t.log.arrivals = s.log.arrivals ++ [evr 0x8002 0x14 0 i.val temp.toNat] ∧
        RegsBut (fun a => a = rEbcTemp i.val ∨ a = rEbcStatus ∨ a = rGateNs) s t ∧ SameMem s t)) ∧
    (s.cool = true → Runs .hotClear s (fun t => t.flag rEbcStatus fEbcStatusHot = false ∧ RegsBut (· = rEbcStatus) s t ∧ SameMem s t)) ∧
    (s.cool = false → exec .hotClear s = .next s) ∧
    (i.val < 9 → 8 * (s.fget rEbcTempCfg fEbcTempCfgG4C : Int) ≤ temp.toInt → Runs (.sensorAtG4C i temp) s (fun t => t.ebc.g4Hot = true ∧ t.g4Ok = false ∧
      t.temp i.val = temp.toInt ∧ RegsBut (· = rEbcTemp i.val) s t ∧ SameMem s t)) ∧
    (Runs .throttleAssert s (fun t => t.flag rModPins fModPinsThrottle = true ∧ t.heatHeld = true ∧ t.fget rEbcStatus fEbcStatusGateLevel = 15 ∧
      RegsBut (fun a => a = rModPins ∨ a = rEbcStatus ∨ a = rGateNs) s t ∧ SameMem s t)) ∧
    (Runs .throttleRelease s (fun t => t.flag rModPins fModPinsThrottle = false ∧ RegsBut (· = rModPins) s t ∧ SameMem s t)) ∧
    (∀ e : EnergySample, e.hallUj.length = 8 → e.stackUj.length = 12 → e.temps.length = 21 → Runs (.energySample e) s (fun t =>
      t.reg rModJ = s.reg rModJ + BitVec.ofNat 64 e.mod ∧ t.reg (rHallJ h.val) = s.reg (rHallJ h.val) + BitVec.ofNat 64 (e.hallUj.getD h.val 0) ∧
      (∀ k : Fin 12, t.reg (rStackJ k.val) = s.reg (rStackJ k.val) + BitVec.ofNat 64 (e.stackUj.getD k.val 0)) ∧
      t.reg rOtherJ + BitVec.ofNat 64 (e.hallUj.sum + e.stackUj.sum + e.links + e.front + e.headrace) = s.reg rOtherJ + BitVec.ofNat 64 e.mod ∧
      t.temp i.val = (e.temps.getD i.val 0).toInt ∧ t.fget rEbcIn fEbcInVinMv = e.vinMv.toNat ∧ t.fget rEbcIn fEbcInIinMa = e.iinMa.toNat ∧
      t.ebc.bucket = s.ebc.bucket + e.mod ∧
      RegsBut (fun a => rModJ ≤ a ∧ a ≤ rOtherJ ∨ a = rEbcIn ∨ ∃ k : Fin 21, a = rEbcTemp k.val) s t ∧ SameMem s t)) ∧
    (∀ (vin : BitVec 16) (iin : BitVec 17) (high : Bool),
      (s.ebc.excursion = false → (if high then 54000 < vin.toNat else vin.toNat < 46000) → Runs (.inputRange vin iin high) s (fun t =>
        t.ebc.excursion = true ∧ t.log.arrivals = s.log.arrivals ++ [evr 0x8004 0x14 0 vin.toNat iin.toNat (bton high)] ∧ Quiet s t)) ∧
      (s.ebc.excursion = true → exec (.inputRange vin iin high) s = .next s))

/-- Resets and starts (R384, R405 to R408, R411, R412, R419, R421, R457, R461, R462): a trip, MOD_RESET_N, a restart after a failure and the watchdog
each give their CAUSE bits, the watchdog alone keeping HBM; a loss of the Hearth's power leaves fuses, and like a trip leaves flash but for the log's
operation in progress, if one may be (log entry 225), and for a firmware write of this Hearth cycle; a start with a good image in
flash reaches the run phase and arms the watchdog, one with a PLL that fails does not, be it the front die's or one that the run phase needs (log entry 223);
of sources in one Hearth cycle the first in the order of R405 is applied; what memory reads after a loss of its contents is the model's choice (log entry 3);
a strapped Porch is entered; a stable start is noted once;
the image that a neighbour serves over link 0 comes in ascending chunks and starts, or the start fails. An event whose condition does not hold changes nothing (log
entry 4). -/
def Obligations.ResetsAndStart : Prop :=
  ∀ (s : State) (env : StartEnv),
    let banks := fun t : State => s.log.entries ≤ 2048 → ∀ a, a < 0x2000000 ∨ 0x2160000 ≤ a → t.flashB a = s.flashB a
    let kept := fun t : State => s.hearth.flashOp = none → (s.log.buffer = [] → t.flash = s.flash) ∧ banks t
    (∀ cause : BitVec 3, s.hearth.up = true → s.hearth.boot ≠ .off → (s.outranked 2 = false → Runs (.powerTrip cause) s (fun t => t.hearth.boot = .tripHold ∧
      t.hearth.trip = cause.toNat ∧ t.fget rRstCause fRstCauseCause = 2 ∧ kept t ∧ ∀ a, t.rdB a = 0)) ∧
      (s.outranked 2 = true → Runs (.powerTrip cause) s (fun t => t.hearth.boot = s.hearth.boot ∧ t.hearth.trip = cause.toNat ∧
        t.fget rRstCause fRstCauseCause = s.fget rRstCause fRstCauseCause ∧ bitN (t.fget rRstCause fRstCausePending) 1 = true ∧
        RegsBut (· = rRstCause) s t ∧ SameMem s t))) ∧
    (s.hearth.boot = .tripHold → Runs .tripHoldEnd s (fun t => t.hearth.boot = .rails ∧ Quiet s t)) ∧
    (Runs .hearthPowerLoss s (fun t => t.hearth.up = false ∧ kept t ∧ t.hearth.fuses = s.hearth.fuses ∧ (∀ a, t.reg a = regReset a) ∧
      ∀ a, t.rdB a = 0)) ∧
    (s.hearth.up = false → Runs .powerOn s (fun t => t.hearth.up = true ∧ t.hearth.boot = .rails ∧ t.now = 0 ∧ t.flash = s.flash ∧
      t.hearth.fuses = s.hearth.fuses ∧ ∀ a, t.reg a = regReset a)) ∧
    (s.powerGood = true → Runs .modResetN s (fun t => t.hearth.boot = .rails ∧ t.hearth.resetLow = true ∧ t.fget rRstCause fRstCauseCause = 4 ∧
      (s.log.buffer = [] → t.flash = s.flash) ∧ banks t ∧ ∀ a, t.rdB a = 0)) ∧
    (s.hearth.boot = .failed → Runs .selfRestart s (fun t => t.hearth.boot = .rails ∧ t.fget rRstCause fRstCauseCause = 0x24)) ∧
    (s.hearth.wdt.isSome = true → Runs .watchdog s (fun t => t.hearth.boot = .rails ∧ t.hearth.wdt = none ∧ t.fget rRstCause fRstCauseCause = 8 ∧
      ∀ a < hbmEnd, t.rdB a = s.rdB a)) ∧
    (s.hearth.wdt.isSome = true → Runs (.wdtKick .housekeeper) s (fun t => t.hearth.wdt = some s.now ∧ Quiet s t) ∧ exec (.wdtKick .host) s = .next s) ∧
    (s.hearth.up = true → s.hearth.boot = .rails → bitN (s.fget rRstCause fRstCauseCause) 3 = false → bitN (s.fget rRstCause fRstCauseCause) 4 = false →
      (.front ∈ env.pllFail → Runs (.powerGood env) s (fun t => t.hearth.boot = .failed ∧
        ∃ pre, t.log.arrivals = pre ++ [evr 0x0010 0x10 0 0 0 3])) ∧
      (env.pllFail = [] → env.bootSrc = 3 → Runs (.powerGood env) s (fun t => t.hearth.boot = .porch ∧ t.fget rEthStatus fEthStatusPhase = 1 ∧
        t.fget rStartStatus fStartStatusBootSrc = 3 ∧ t.fget rStartStatus fStartStatusClkMode = env.clkMode.toNat ∧ ∀ a, t.rdB a = 0)) ∧
      (∀ b, env.pllFail ≠ [] → (∀ d ∈ env.pllFail, PllDom.late d = true ∧ d ≠ .link 0) → env.bootSrc = 0 → s.classify.hearth.consec < 2 → s.newestBank = some b →
        Runs (.powerGood env) s (fun t => t.hearth.boot = .failed ∧ ∃ pre, t.log.arrivals = pre ++ [evr 0x0010 0x11 0 0 0 3])) ∧
      (∀ b, env.pllFail = [] → env.selfTestOk = true → env.trainFail = [] → env.bootSrc = 0 → s.classify.hearth.consec < 2 → s.newestBank = some b →
        Runs (.powerGood env) s (fun t => t.hearth.boot = .run ∧ t.flag rPinCtl fPinCtlRelease = true ∧ t.fget rEthStatus fEthStatusPhase = 2 ∧
          t.fget rStartStatus fStartStatusBank = b ∧ t.hearth.wdt = some s.now ∧ t.flash = s.flash))) ∧
    (s.hearth.boot = .run → s.hearth.stableAt = none → Runs .startStable s (fun t => t.flag rStartStatus fStartStatusStable = true ∧
      t.hearth.stableAt = some s.now ∧ (∃ l, t.log.arrivals = s.log.arrivals ++ evr 0x0002 0x11 0 :: l) ∧ RegsBut (· = rStartStatus) s t ∧ SameMem s t)) ∧
    (s.linkState 0 = lsShuttered → s.hearth.boot = .run →
      (s.flag rSecCfg fSecCfgBootServe = false ∨ s.hearth.img = none → (s.link 0).mode = false → Runs (.bootReq 0) s (fun t =>
        .group 7 { bootMsg with arg := 1 } ∈ (t.link 0).ctlOut ∧ Quiet s t)) ∧
      (∀ i, s.flag rSecCfg fSecCfgBootServe = true → s.hearth.img = some i → Runs (.bootReq 0) s (fun t => (t.link 0).serve = some 0 ∧
        t.bootNext = some (.group 6 { bootMsg with value := BitVec.ofNat 64 (leNat (s.runBytes i 0 8)) }, some 1) ∧ Quiet s t))) ∧
    (∀ n : LinkId, n.val ≠ 0 ∨ s.linkState 0 ≠ lsShuttered ∨ s.hearth.boot ≠ .run → exec (.bootReq n) s = .next s) ∧
    (s.hearth.boot = .neighbour → s.linkState 0 = lsShuttered →
      (∀ (idx : BitVec 24) (v : Word),
        (idx.toNat < 0x200000 → idx.toNat = s.hearth.bootIdx → Runs (.bootData idx v) s (fun t => t.hearth.bootIdx = s.hearth.bootIdx + 1 ∧
          t.hkBytes (8 * idx.toNat) 8 = natBytes 8 v.toNat ∧ Quiet s t)) ∧
        (0x200000 ≤ idx.toNat ∨ idx.toNat ≠ s.hearth.bootIdx → Runs (.bootData idx v) s (fun t => t.hearth.boot = .failed ∧
          t.log.arrivals = s.log.arrivals ++ [evr 0x0010 0x10 0 0 0 4]))) ∧
      (∀ len : Word, Runs (.bootEnd true len env) s (fun t => t.hearth.boot = .failed ∧ t.log.arrivals = s.log.arrivals ++ [evr 0x0010 0x10 0 0 0 4]) ∧
        (len.toNat ≤ 8 * s.hearth.bootIdx → s.hkCheck = none → env.pllFail = [] → env.trainFail = [] → env.selfTestOk = true → Runs (.bootEnd false len env) s (fun t =>
          t.hearth.boot = .run ∧ t.fget rStartStatus fStartStatusBank = 3 ∧ t.hearth.wdt = some s.now)) ∧
        (len.toNat ≤ 8 * s.hearth.bootIdx → s.hkCheck ≠ none → Runs (.bootEnd false len env) s (fun t => t.hearth.boot = .failed ∧
          t.log.arrivals = s.log.arrivals ++ [evr 0x0010 0x10 0 0 0 1])))) ∧
    (s.hearth.boot = .neighbour →
      Runs .neighbourBootTimeout s (fun t => t.hearth.boot = .failed ∧ t.log.arrivals = s.log.arrivals ++ [evr 0x0010 0x10 0 0 0 4] ∧ Quiet s t))

/-- The recorder and the dump (R435 to R438, R443, R444, R447, R449, R450): a record is accepted with the next SEQ, or dropped and counted when the
buffer is full; the oldest buffered record is programmed at its SEQ's place and leaves the buffer; the calendar is set with a record; FREEZE
reaches every built core at a cc with SLOT mod 1,024 = 0; a dump asked for while armed begins, and is skipped with a record else; a finished one
is valid and counted; arming marks the held one read. -/
def Obligations.RecorderAndDumps : Prop :=
  ∀ (s : State) (r : Requester), mayWrite r = true →
    (∀ e : EvRec, s.log.arrivals = [e] → e.code / 4096 ≠ 9 → e.code / 4096 ≠ 10 →
      (s.log.buffer.length < 1008 → Runs .evrAccept s (fun t => t.log.arrivals = [] ∧ t.log.nextSeq = (s.log.nextSeq + 1) % 2 ^ 32 ∧
        t.log.buffer = s.log.buffer ++ [⟨e, s.log.nextSeq, s.time, s.hearth.cal.isNone⟩] ∧ t.reg rEvrAcceptCnt = s.reg rEvrAcceptCnt + 1 ∧
        RegsBut (· = rEvrAcceptCnt) s t ∧ SameMem s t)) ∧
      (1024 ≤ s.log.buffer.length → Runs .evrAccept s (fun t => t.log.arrivals = [] ∧ t.log.buffer = s.log.buffer ∧ t.log.nextSeq = s.log.nextSeq ∧
        t.reg rEvrDropCnt = s.reg rEvrDropCnt + 1 ∧ RegsBut (· = rEvrDropCnt) s t ∧ SameMem s t))) ∧
    (∀ e rest, s.log.buffer = e :: rest → s.log.entries ≤ 2048 → Runs .flashProgram s (fun t => t.log.buffer = rest ∧
      t.flashBytes (recAddr e.seq) 64 = e.bytes ∧ t.reg rEvrFlashCnt = s.reg rEvrFlashCnt + 1 ∧
      RegsBut (fun a => a = rEvrFlashCnt ∨ a = rEvrEraseCnt) s t ∧ SameMem s t)) ∧
    (∀ v : Word, Runs (.calSet r v) s (fun t => t.hearth.cal = some (v.toNat, s.now) ∧ t.time = v.toNat ∧
      t.log.arrivals = s.log.arrivals ++ [evr 0xF004 0x10 0 s.time v.toNat (bton s.hearth.cal.isNone)] ∧ Quiet s t)) ∧
    (s.log.buffer ≠ [] → Runs (.evrFlush r) s (fun t => t.log.flushTo = some s.log.nextSeq ∧ Quiet s t)) ∧
    (∀ on : Bool, Runs (.diagSnapFreeze r on) s (fun t => t.snapPend = some on ∧ t.flag rDiagSnap fDiagSnapFreeze = on ∧ RegsBut (· = rDiagSnap) s t ∧ SameMem s t)) ∧
    (∀ on : Bool, s.snapPend = some on → s.slot % 1024 = 0 → Runs .diagSnapApply s (fun t => t.snapPend = none ∧
      (∀ c : CoreId, s.built c.hall.val = true → t.flag (rCntCtl c) fCntCtlFreeze = on) ∧
      (on = true → t.fget rDiagSnapSlot fDiagSnapSlotSnapSlot = s.slot % 2 ^ 48) ∧ SameMem s t)) ∧
    (s.flag rDumpCfg fDumpCfgArm = true → s.dump = none → Runs (.dumpReq r) s (fun t => t.dump.isSome = true ∧ t.flag rDumpCfg fDumpCfgArm = false ∧
      t.flag rDumpStatus fDumpStatusBusy = true)) ∧
    (s.flag rDumpCfg fDumpCfgArm = false → Runs (.dumpReq r) s (fun t => t.log.arrivals = s.log.arrivals ++ [evr 0xF007 0x11 0] ∧ Quiet s t)) ∧
    (s.flag rDumpStatus fDumpStatusValid = true → Runs (.dumpArm r) s (fun t => t.flag rDumpCfg fDumpCfgArm = true ∧
      t.flag rDumpStatus fDumpStatusValid = false ∧ t.rdB (dumpArea + 52) = 1 ∧ RegsBut (fun a => a = rDumpCfg ∨ a = rDumpStatus) s t ∧
      MemBut dumpArea 4096 s t)) ∧
    (∀ (d : DumpS) (us : BitVec 32), s.dump = some d → d.rolls = [] → (∀ c ∈ d.cores, s.run c = false) → Runs (.dumpDone us) s (fun t => t.dump = none ∧
      t.flag rDumpStatus fDumpStatusBusy = false ∧ t.flag rDumpStatus fDumpStatusValid = true))
end

