-- ==== Sys2Proof/Laws/Sparse.lean ====
section
/-! SUPPORT. Sys2Proof/Laws/Sparse.lean: reading after writing a sparse map, and that writing keeps its canonical form. -/

namespace Sys2Proof.Machine

theorem find_filter_ne {α : Type} (m : List (Nat × α)) (k j : Nat) (h : j ≠ k) :
    (m.filter fun e => e.1 != k).find? (fun e => e.1 == j) = m.find? fun e => e.1 == j := by
  induction m with
  | nil => rfl
  | cons e m ih =>
    by_cases hk : e.1 = k
    · have : ¬ e.1 = j := fun x => h (x.symm.trans hk)
      simp [hk, ih, h.symm]
    · by_cases hj : e.1 = j <;> simp [hk, hj, ih, List.find?_cons]
      all_goals simp_all

theorem find_filter_self {α : Type} (m : List (Nat × α)) (k : Nat) :
    (m.filter fun e => e.1 != k).find? (fun e => e.1 == k) = none := by
  simp

theorem find_sinsert_self {α : Type} (k : Nat) (v : α) (m : List (Nat × α))
    (h : m.find? (fun e => e.1 == k) = none) :
    (sinsert k v m).find? (fun e => e.1 == k) = some (k, v) := by
  induction m with
  | nil => simp [sinsert]
  | cons e m ih =>
    simp only [sinsert]
    split
    · simp
    · have he : ¬ e.1 = k := by
        intro x; simp [x] at h
      have hm : m.find? (fun e => e.1 == k) = none := by simpa [List.find?_cons, he] using h
      simp [he, ih hm]

theorem find_sinsert_other {α : Type} (k j : Nat) (v : α) (m : List (Nat × α)) (h : j ≠ k) :
    (sinsert k v m).find? (fun e => e.1 == j) = m.find? fun e => e.1 == j := by
  induction m with
  | nil => simp [sinsert, h.symm]
  | cons e m ih =>
    simp only [sinsert]
    split
    · simp [List.find?_cons, h.symm]
    · simp [List.find?_cons, ih]

/-- Reading the key just written gives the value written. -/
@[simp] theorem sget_sset_same {α : Type} [DecidableEq α] (d : Nat → α) (m : List (Nat × α)) (k : Nat) (v : α) :
    sget d (sset d m k v) k = v := by
  unfold sget sset
  split_ifs with h
  · rw [find_filter_self]; exact h.symm
  · rw [find_sinsert_self _ _ _ (find_filter_self m k)]

/-- Writing a key leaves every other key as it was. -/
theorem sget_sset_other {α : Type} [DecidableEq α] (d : Nat → α) (m : List (Nat × α)) (k j : Nat) (v : α) (h : j ≠ k) :
    sget d (sset d m k v) j = sget d m j := by
  unfold sget sset
  split_ifs
  · rw [find_filter_ne m k j h]
  · rw [find_sinsert_other _ _ _ _ h, find_filter_ne m k j h]

theorem mem_sinsert {α : Type} (k : Nat) (v : α) (m : List (Nat × α)) (e : Nat × α) :
    e ∈ sinsert k v m ↔ e = (k, v) ∨ e ∈ m := by
  induction m with
  | nil => simp [sinsert]
  | cons x m ih =>
    simp only [sinsert]
    split
    · simp
    · simp [ih]; tauto

theorem pairwise_sinsert {α : Type} (k : Nat) (v : α) (m : List (Nat × α))
    (hm : m.Pairwise fun a b => a.1 < b.1) (hk : ∀ e ∈ m, e.1 ≠ k) :
    (sinsert k v m).Pairwise fun a b => a.1 < b.1 := by
  induction m with
  | nil => simp [sinsert]
  | cons x m ih =>
    simp only [sinsert]
    rw [List.pairwise_cons] at hm
    split
    · rename_i h
      refine List.pairwise_cons.2 ⟨?_, List.pairwise_cons.2 hm⟩
      intro e he
      rcases List.mem_cons.1 he with rfl | he
      · exact h
      · exact lt_trans h (hm.1 e he)
    · rename_i h
      have hx : x.1 ≠ k := hk x (by simp)
      refine List.pairwise_cons.2 ⟨?_, ih hm.2 fun e he => hk e (by simp [he])⟩
      intro e he
      rcases (mem_sinsert k v m e).1 he with rfl | he
      · exact lt_of_le_of_ne (Nat.le_of_not_lt h) hx
      · exact hm.1 e he

/-- Writing keeps the canonical form. -/
theorem swf_sset {α : Type} [DecidableEq α] (d : Nat → α) (m : List (Nat × α)) (k : Nat) (v : α)
    (h : swf d m = true) : swf d (sset d m k v) = true := by
  simp only [swf, Bool.and_eq_true, decide_eq_true_eq, List.all_eq_true] at h ⊢
  obtain ⟨hp, ha⟩ := h
  have hp' := hp.filter (fun e => e.1 != k)
  unfold sset
  split_ifs with hv
  · exact ⟨hp', fun e he => ha e (List.mem_of_mem_filter he)⟩
  · refine ⟨pairwise_sinsert k v _ hp' ?_, ?_⟩
    · intro e he
      simpa using (List.mem_filter.1 he).2
    · intro e he
      rcases (mem_sinsert k v _ e).1 he with rfl | he
      · simpa using hv
      · exact ha e (List.mem_of_mem_filter he)

end Sys2Proof.Machine
end

