-- ==== Sys2Proof/Laws/State.lean ====
section
/-! SUPPORT. Sys2Proof/Laws/State.lean: for each update of State, what every other field reads after it. -/

namespace Sys2Proof.Machine

variable (s : State)

/-! ### setReg -/

@[simp] theorem setReg_pending (a : Nat) (v : Word) : (s.setReg a v).pending = s.pending := (rfl)
@[simp] theorem setReg_mem (a : Nat) (v : Word) : (s.setReg a v).mem = s.mem := (rfl)
@[simp] theorem setReg_poison (a : Nat) (v : Word) : (s.setReg a v).poison = s.poison := (rfl)
@[simp] theorem setReg_flash (a : Nat) (v : Word) : (s.setReg a v).flash = s.flash := (rfl)
@[simp] theorem setReg_now (a : Nat) (v : Word) : (s.setReg a v).now = s.now := (rfl)
@[simp] theorem setReg_cc (a : Nat) (v : Word) : (s.setReg a v).cc = s.cc := (rfl)
@[simp] theorem setReg_slot (a : Nat) (v : Word) : (s.setReg a v).slot = s.slot := (rfl)
@[simp] theorem setReg_cores (a : Nat) (v : Word) : (s.setReg a v).cores = s.cores := (rfl)
@[simp] theorem setReg_ctxs (a : Nat) (v : Word) : (s.setReg a v).ctxs = s.ctxs := (rfl)
@[simp] theorem setReg_hbm (a : Nat) (v : Word) : (s.setReg a v).hbm = s.hbm := (rfl)
@[simp] theorem setReg_links (a : Nat) (v : Word) : (s.setReg a v).links = s.links := (rfl)
@[simp] theorem setReg_groups (a : Nat) (v : Word) : (s.setReg a v).groups = s.groups := (rfl)
@[simp] theorem setReg_sem (a : Nat) (v : Word) : (s.setReg a v).sem = s.sem := (rfl)
@[simp] theorem setReg_bell (a : Nat) (v : Word) : (s.setReg a v).bell = s.bell := (rfl)
@[simp] theorem setReg_bellServed (a : Nat) (v : Word) : (s.setReg a v).bellServed = s.bellServed := (rfl)
@[simp] theorem setReg_beats (a : Nat) (v : Word) : (s.setReg a v).beats = s.beats := (rfl)
@[simp] theorem setReg_pond (a : Nat) (v : Word) : (s.setReg a v).pond = s.pond := (rfl)
@[simp] theorem setReg_host (a : Nat) (v : Word) : (s.setReg a v).host = s.host := (rfl)
@[simp] theorem setReg_ebc (a : Nat) (v : Word) : (s.setReg a v).ebc = s.ebc := (rfl)
@[simp] theorem setReg_hearth (a : Nat) (v : Word) : (s.setReg a v).hearth = s.hearth := (rfl)
@[simp] theorem setReg_log (a : Nat) (v : Word) : (s.setReg a v).log = s.log := (rfl)
@[simp] theorem setReg_dump (a : Nat) (v : Word) : (s.setReg a v).dump = s.dump := (rfl)
@[simp] theorem setReg_snapPend (a : Nat) (v : Word) : (s.setReg a v).snapPend = s.snapPend := (rfl)
@[simp] theorem setReg_inval (a : Nat) (v : Word) : (s.setReg a v).inval = s.inval := (rfl)
@[simp] theorem setReg_sent (a : Nat) (v : Word) : (s.setReg a v).sent = s.sent := (rfl)
@[simp] theorem setReg_free (a : Nat) (v : Word) : (s.setReg a v).free = s.free := (rfl)

/-! ### fput -/

@[simp] theorem fput_pending (a : Nat) (f : Fd) (v : Nat) : (s.fput a f v).pending = s.pending := (rfl)
@[simp] theorem fput_mem (a : Nat) (f : Fd) (v : Nat) : (s.fput a f v).mem = s.mem := (rfl)
@[simp] theorem fput_poison (a : Nat) (f : Fd) (v : Nat) : (s.fput a f v).poison = s.poison := (rfl)
@[simp] theorem fput_flash (a : Nat) (f : Fd) (v : Nat) : (s.fput a f v).flash = s.flash := (rfl)
@[simp] theorem fput_now (a : Nat) (f : Fd) (v : Nat) : (s.fput a f v).now = s.now := (rfl)
@[simp] theorem fput_cc (a : Nat) (f : Fd) (v : Nat) : (s.fput a f v).cc = s.cc := (rfl)
@[simp] theorem fput_slot (a : Nat) (f : Fd) (v : Nat) : (s.fput a f v).slot = s.slot := (rfl)
@[simp] theorem fput_cores (a : Nat) (f : Fd) (v : Nat) : (s.fput a f v).cores = s.cores := (rfl)
@[simp] theorem fput_ctxs (a : Nat) (f : Fd) (v : Nat) : (s.fput a f v).ctxs = s.ctxs := (rfl)
@[simp] theorem fput_hbm (a : Nat) (f : Fd) (v : Nat) : (s.fput a f v).hbm = s.hbm := (rfl)
@[simp] theorem fput_links (a : Nat) (f : Fd) (v : Nat) : (s.fput a f v).links = s.links := (rfl)
@[simp] theorem fput_groups (a : Nat) (f : Fd) (v : Nat) : (s.fput a f v).groups = s.groups := (rfl)
@[simp] theorem fput_sem (a : Nat) (f : Fd) (v : Nat) : (s.fput a f v).sem = s.sem := (rfl)
@[simp] theorem fput_bell (a : Nat) (f : Fd) (v : Nat) : (s.fput a f v).bell = s.bell := (rfl)
@[simp] theorem fput_bellServed (a : Nat) (f : Fd) (v : Nat) : (s.fput a f v).bellServed = s.bellServed := (rfl)
@[simp] theorem fput_beats (a : Nat) (f : Fd) (v : Nat) : (s.fput a f v).beats = s.beats := (rfl)
@[simp] theorem fput_pond (a : Nat) (f : Fd) (v : Nat) : (s.fput a f v).pond = s.pond := (rfl)
@[simp] theorem fput_host (a : Nat) (f : Fd) (v : Nat) : (s.fput a f v).host = s.host := (rfl)
@[simp] theorem fput_ebc (a : Nat) (f : Fd) (v : Nat) : (s.fput a f v).ebc = s.ebc := (rfl)
@[simp] theorem fput_hearth (a : Nat) (f : Fd) (v : Nat) : (s.fput a f v).hearth = s.hearth := (rfl)
@[simp] theorem fput_log (a : Nat) (f : Fd) (v : Nat) : (s.fput a f v).log = s.log := (rfl)
@[simp] theorem fput_dump (a : Nat) (f : Fd) (v : Nat) : (s.fput a f v).dump = s.dump := (rfl)
@[simp] theorem fput_snapPend (a : Nat) (f : Fd) (v : Nat) : (s.fput a f v).snapPend = s.snapPend := (rfl)
@[simp] theorem fput_inval (a : Nat) (f : Fd) (v : Nat) : (s.fput a f v).inval = s.inval := (rfl)
@[simp] theorem fput_sent (a : Nat) (f : Fd) (v : Nat) : (s.fput a f v).sent = s.sent := (rfl)
@[simp] theorem fput_free (a : Nat) (f : Fd) (v : Nat) : (s.fput a f v).free = s.free := (rfl)

/-! ### count -/

@[simp] theorem count_pending (a m : Nat) : (s.count a m).pending = s.pending := (rfl)
@[simp] theorem count_mem (a m : Nat) : (s.count a m).mem = s.mem := (rfl)
@[simp] theorem count_poison (a m : Nat) : (s.count a m).poison = s.poison := (rfl)
@[simp] theorem count_flash (a m : Nat) : (s.count a m).flash = s.flash := (rfl)
@[simp] theorem count_now (a m : Nat) : (s.count a m).now = s.now := (rfl)
@[simp] theorem count_cc (a m : Nat) : (s.count a m).cc = s.cc := (rfl)
@[simp] theorem count_slot (a m : Nat) : (s.count a m).slot = s.slot := (rfl)
@[simp] theorem count_cores (a m : Nat) : (s.count a m).cores = s.cores := (rfl)
@[simp] theorem count_ctxs (a m : Nat) : (s.count a m).ctxs = s.ctxs := (rfl)
@[simp] theorem count_hbm (a m : Nat) : (s.count a m).hbm = s.hbm := (rfl)
@[simp] theorem count_links (a m : Nat) : (s.count a m).links = s.links := (rfl)
@[simp] theorem count_groups (a m : Nat) : (s.count a m).groups = s.groups := (rfl)
@[simp] theorem count_sem (a m : Nat) : (s.count a m).sem = s.sem := (rfl)
@[simp] theorem count_bell (a m : Nat) : (s.count a m).bell = s.bell := (rfl)
@[simp] theorem count_bellServed (a m : Nat) : (s.count a m).bellServed = s.bellServed := (rfl)
@[simp] theorem count_beats (a m : Nat) : (s.count a m).beats = s.beats := (rfl)
@[simp] theorem count_pond (a m : Nat) : (s.count a m).pond = s.pond := (rfl)
@[simp] theorem count_host (a m : Nat) : (s.count a m).host = s.host := (rfl)
@[simp] theorem count_ebc (a m : Nat) : (s.count a m).ebc = s.ebc := (rfl)
@[simp] theorem count_hearth (a m : Nat) : (s.count a m).hearth = s.hearth := (rfl)
@[simp] theorem count_log (a m : Nat) : (s.count a m).log = s.log := (rfl)
@[simp] theorem count_dump (a m : Nat) : (s.count a m).dump = s.dump := (rfl)
@[simp] theorem count_snapPend (a m : Nat) : (s.count a m).snapPend = s.snapPend := (rfl)
@[simp] theorem count_inval (a m : Nat) : (s.count a m).inval = s.inval := (rfl)
@[simp] theorem count_sent (a m : Nat) : (s.count a m).sent = s.sent := (rfl)
@[simp] theorem count_free (a m : Nat) : (s.count a m).free = s.free := (rfl)

/-! ### wrB -/

@[simp] theorem wrB_pending (a : Nat) (b : Byte) : (s.wrB a b).pending = s.pending := (rfl)
@[simp] theorem wrB_regs (a : Nat) (b : Byte) : (s.wrB a b).regs = s.regs := (rfl)
@[simp] theorem wrB_poison (a : Nat) (b : Byte) : (s.wrB a b).poison = s.poison := (rfl)
@[simp] theorem wrB_flash (a : Nat) (b : Byte) : (s.wrB a b).flash = s.flash := (rfl)
@[simp] theorem wrB_now (a : Nat) (b : Byte) : (s.wrB a b).now = s.now := (rfl)
@[simp] theorem wrB_cc (a : Nat) (b : Byte) : (s.wrB a b).cc = s.cc := (rfl)
@[simp] theorem wrB_slot (a : Nat) (b : Byte) : (s.wrB a b).slot = s.slot := (rfl)
@[simp] theorem wrB_cores (a : Nat) (b : Byte) : (s.wrB a b).cores = s.cores := (rfl)
@[simp] theorem wrB_ctxs (a : Nat) (b : Byte) : (s.wrB a b).ctxs = s.ctxs := (rfl)
@[simp] theorem wrB_hbm (a : Nat) (b : Byte) : (s.wrB a b).hbm = s.hbm := (rfl)
@[simp] theorem wrB_links (a : Nat) (b : Byte) : (s.wrB a b).links = s.links := (rfl)
@[simp] theorem wrB_groups (a : Nat) (b : Byte) : (s.wrB a b).groups = s.groups := (rfl)
@[simp] theorem wrB_sem (a : Nat) (b : Byte) : (s.wrB a b).sem = s.sem := (rfl)
@[simp] theorem wrB_bell (a : Nat) (b : Byte) : (s.wrB a b).bell = s.bell := (rfl)
@[simp] theorem wrB_bellServed (a : Nat) (b : Byte) : (s.wrB a b).bellServed = s.bellServed := (rfl)
@[simp] theorem wrB_beats (a : Nat) (b : Byte) : (s.wrB a b).beats = s.beats := (rfl)
@[simp] theorem wrB_pond (a : Nat) (b : Byte) : (s.wrB a b).pond = s.pond := (rfl)
@[simp] theorem wrB_host (a : Nat) (b : Byte) : (s.wrB a b).host = s.host := (rfl)
@[simp] theorem wrB_ebc (a : Nat) (b : Byte) : (s.wrB a b).ebc = s.ebc := (rfl)
@[simp] theorem wrB_hearth (a : Nat) (b : Byte) : (s.wrB a b).hearth = s.hearth := (rfl)
@[simp] theorem wrB_log (a : Nat) (b : Byte) : (s.wrB a b).log = s.log := (rfl)
@[simp] theorem wrB_dump (a : Nat) (b : Byte) : (s.wrB a b).dump = s.dump := (rfl)
@[simp] theorem wrB_snapPend (a : Nat) (b : Byte) : (s.wrB a b).snapPend = s.snapPend := (rfl)
@[simp] theorem wrB_inval (a : Nat) (b : Byte) : (s.wrB a b).inval = s.inval := (rfl)
@[simp] theorem wrB_sent (a : Nat) (b : Byte) : (s.wrB a b).sent = s.sent := (rfl)
@[simp] theorem wrB_free (a : Nat) (b : Byte) : (s.wrB a b).free = s.free := (rfl)

/-! ### setCore -/

@[simp] theorem setCore_pending (c : CoreId) (v : CoreS) : (s.setCore c v).pending = s.pending := (rfl)
@[simp] theorem setCore_regs (c : CoreId) (v : CoreS) : (s.setCore c v).regs = s.regs := (rfl)
@[simp] theorem setCore_mem (c : CoreId) (v : CoreS) : (s.setCore c v).mem = s.mem := (rfl)
@[simp] theorem setCore_poison (c : CoreId) (v : CoreS) : (s.setCore c v).poison = s.poison := (rfl)
@[simp] theorem setCore_flash (c : CoreId) (v : CoreS) : (s.setCore c v).flash = s.flash := (rfl)
@[simp] theorem setCore_now (c : CoreId) (v : CoreS) : (s.setCore c v).now = s.now := (rfl)
@[simp] theorem setCore_cc (c : CoreId) (v : CoreS) : (s.setCore c v).cc = s.cc := (rfl)
@[simp] theorem setCore_slot (c : CoreId) (v : CoreS) : (s.setCore c v).slot = s.slot := (rfl)
@[simp] theorem setCore_ctxs (c : CoreId) (v : CoreS) : (s.setCore c v).ctxs = s.ctxs := (rfl)
@[simp] theorem setCore_hbm (c : CoreId) (v : CoreS) : (s.setCore c v).hbm = s.hbm := (rfl)
@[simp] theorem setCore_links (c : CoreId) (v : CoreS) : (s.setCore c v).links = s.links := (rfl)
@[simp] theorem setCore_groups (c : CoreId) (v : CoreS) : (s.setCore c v).groups = s.groups := (rfl)
@[simp] theorem setCore_sem (c : CoreId) (v : CoreS) : (s.setCore c v).sem = s.sem := (rfl)
@[simp] theorem setCore_bell (c : CoreId) (v : CoreS) : (s.setCore c v).bell = s.bell := (rfl)
@[simp] theorem setCore_bellServed (c : CoreId) (v : CoreS) : (s.setCore c v).bellServed = s.bellServed := (rfl)
@[simp] theorem setCore_beats (c : CoreId) (v : CoreS) : (s.setCore c v).beats = s.beats := (rfl)
@[simp] theorem setCore_pond (c : CoreId) (v : CoreS) : (s.setCore c v).pond = s.pond := (rfl)
@[simp] theorem setCore_host (c : CoreId) (v : CoreS) : (s.setCore c v).host = s.host := (rfl)
@[simp] theorem setCore_ebc (c : CoreId) (v : CoreS) : (s.setCore c v).ebc = s.ebc := (rfl)
@[simp] theorem setCore_hearth (c : CoreId) (v : CoreS) : (s.setCore c v).hearth = s.hearth := (rfl)
@[simp] theorem setCore_log (c : CoreId) (v : CoreS) : (s.setCore c v).log = s.log := (rfl)
@[simp] theorem setCore_dump (c : CoreId) (v : CoreS) : (s.setCore c v).dump = s.dump := (rfl)
@[simp] theorem setCore_snapPend (c : CoreId) (v : CoreS) : (s.setCore c v).snapPend = s.snapPend := (rfl)
@[simp] theorem setCore_inval (c : CoreId) (v : CoreS) : (s.setCore c v).inval = s.inval := (rfl)
@[simp] theorem setCore_sent (c : CoreId) (v : CoreS) : (s.setCore c v).sent = s.sent := (rfl)
@[simp] theorem setCore_free (c : CoreId) (v : CoreS) : (s.setCore c v).free = s.free := (rfl)

/-! ### modCore -/

@[simp] theorem modCore_pending (c : CoreId) (f : CoreS → CoreS) : (s.modCore c f).pending = s.pending := (rfl)
@[simp] theorem modCore_regs (c : CoreId) (f : CoreS → CoreS) : (s.modCore c f).regs = s.regs := (rfl)
@[simp] theorem modCore_mem (c : CoreId) (f : CoreS → CoreS) : (s.modCore c f).mem = s.mem := (rfl)
@[simp] theorem modCore_poison (c : CoreId) (f : CoreS → CoreS) : (s.modCore c f).poison = s.poison := (rfl)
@[simp] theorem modCore_flash (c : CoreId) (f : CoreS → CoreS) : (s.modCore c f).flash = s.flash := (rfl)
@[simp] theorem modCore_now (c : CoreId) (f : CoreS → CoreS) : (s.modCore c f).now = s.now := (rfl)
@[simp] theorem modCore_cc (c : CoreId) (f : CoreS → CoreS) : (s.modCore c f).cc = s.cc := (rfl)
@[simp] theorem modCore_slot (c : CoreId) (f : CoreS → CoreS) : (s.modCore c f).slot = s.slot := (rfl)
@[simp] theorem modCore_ctxs (c : CoreId) (f : CoreS → CoreS) : (s.modCore c f).ctxs = s.ctxs := (rfl)
@[simp] theorem modCore_hbm (c : CoreId) (f : CoreS → CoreS) : (s.modCore c f).hbm = s.hbm := (rfl)
@[simp] theorem modCore_links (c : CoreId) (f : CoreS → CoreS) : (s.modCore c f).links = s.links := (rfl)
@[simp] theorem modCore_groups (c : CoreId) (f : CoreS → CoreS) : (s.modCore c f).groups = s.groups := (rfl)
@[simp] theorem modCore_sem (c : CoreId) (f : CoreS → CoreS) : (s.modCore c f).sem = s.sem := (rfl)
@[simp] theorem modCore_bell (c : CoreId) (f : CoreS → CoreS) : (s.modCore c f).bell = s.bell := (rfl)
@[simp] theorem modCore_bellServed (c : CoreId) (f : CoreS → CoreS) : (s.modCore c f).bellServed = s.bellServed := (rfl)
@[simp] theorem modCore_beats (c : CoreId) (f : CoreS → CoreS) : (s.modCore c f).beats = s.beats := (rfl)
@[simp] theorem modCore_pond (c : CoreId) (f : CoreS → CoreS) : (s.modCore c f).pond = s.pond := (rfl)
@[simp] theorem modCore_host (c : CoreId) (f : CoreS → CoreS) : (s.modCore c f).host = s.host := (rfl)
@[simp] theorem modCore_ebc (c : CoreId) (f : CoreS → CoreS) : (s.modCore c f).ebc = s.ebc := (rfl)
@[simp] theorem modCore_hearth (c : CoreId) (f : CoreS → CoreS) : (s.modCore c f).hearth = s.hearth := (rfl)
@[simp] theorem modCore_log (c : CoreId) (f : CoreS → CoreS) : (s.modCore c f).log = s.log := (rfl)
@[simp] theorem modCore_dump (c : CoreId) (f : CoreS → CoreS) : (s.modCore c f).dump = s.dump := (rfl)
@[simp] theorem modCore_snapPend (c : CoreId) (f : CoreS → CoreS) : (s.modCore c f).snapPend = s.snapPend := (rfl)
@[simp] theorem modCore_inval (c : CoreId) (f : CoreS → CoreS) : (s.modCore c f).inval = s.inval := (rfl)
@[simp] theorem modCore_sent (c : CoreId) (f : CoreS → CoreS) : (s.modCore c f).sent = s.sent := (rfl)
@[simp] theorem modCore_free (c : CoreId) (f : CoreS → CoreS) : (s.modCore c f).free = s.free := (rfl)

/-! ### setCtx -/

@[simp] theorem setCtx_pending (k : Nat) (v : CtxS) : (s.setCtx k v).pending = s.pending := (rfl)
@[simp] theorem setCtx_regs (k : Nat) (v : CtxS) : (s.setCtx k v).regs = s.regs := (rfl)
@[simp] theorem setCtx_mem (k : Nat) (v : CtxS) : (s.setCtx k v).mem = s.mem := (rfl)
@[simp] theorem setCtx_poison (k : Nat) (v : CtxS) : (s.setCtx k v).poison = s.poison := (rfl)
@[simp] theorem setCtx_flash (k : Nat) (v : CtxS) : (s.setCtx k v).flash = s.flash := (rfl)
@[simp] theorem setCtx_now (k : Nat) (v : CtxS) : (s.setCtx k v).now = s.now := (rfl)
@[simp] theorem setCtx_cc (k : Nat) (v : CtxS) : (s.setCtx k v).cc = s.cc := (rfl)
@[simp] theorem setCtx_slot (k : Nat) (v : CtxS) : (s.setCtx k v).slot = s.slot := (rfl)
@[simp] theorem setCtx_cores (k : Nat) (v : CtxS) : (s.setCtx k v).cores = s.cores := (rfl)
@[simp] theorem setCtx_hbm (k : Nat) (v : CtxS) : (s.setCtx k v).hbm = s.hbm := (rfl)
@[simp] theorem setCtx_links (k : Nat) (v : CtxS) : (s.setCtx k v).links = s.links := (rfl)
@[simp] theorem setCtx_groups (k : Nat) (v : CtxS) : (s.setCtx k v).groups = s.groups := (rfl)
@[simp] theorem setCtx_sem (k : Nat) (v : CtxS) : (s.setCtx k v).sem = s.sem := (rfl)
@[simp] theorem setCtx_bell (k : Nat) (v : CtxS) : (s.setCtx k v).bell = s.bell := (rfl)
@[simp] theorem setCtx_bellServed (k : Nat) (v : CtxS) : (s.setCtx k v).bellServed = s.bellServed := (rfl)
@[simp] theorem setCtx_beats (k : Nat) (v : CtxS) : (s.setCtx k v).beats = s.beats := (rfl)
@[simp] theorem setCtx_pond (k : Nat) (v : CtxS) : (s.setCtx k v).pond = s.pond := (rfl)
@[simp] theorem setCtx_host (k : Nat) (v : CtxS) : (s.setCtx k v).host = s.host := (rfl)
@[simp] theorem setCtx_ebc (k : Nat) (v : CtxS) : (s.setCtx k v).ebc = s.ebc := (rfl)
@[simp] theorem setCtx_hearth (k : Nat) (v : CtxS) : (s.setCtx k v).hearth = s.hearth := (rfl)
@[simp] theorem setCtx_log (k : Nat) (v : CtxS) : (s.setCtx k v).log = s.log := (rfl)
@[simp] theorem setCtx_dump (k : Nat) (v : CtxS) : (s.setCtx k v).dump = s.dump := (rfl)
@[simp] theorem setCtx_snapPend (k : Nat) (v : CtxS) : (s.setCtx k v).snapPend = s.snapPend := (rfl)
@[simp] theorem setCtx_inval (k : Nat) (v : CtxS) : (s.setCtx k v).inval = s.inval := (rfl)
@[simp] theorem setCtx_sent (k : Nat) (v : CtxS) : (s.setCtx k v).sent = s.sent := (rfl)
@[simp] theorem setCtx_free (k : Nat) (v : CtxS) : (s.setCtx k v).free = s.free := (rfl)

/-! ### modCtx -/

@[simp] theorem modCtx_pending (k : Nat) (f : CtxS → CtxS) : (s.modCtx k f).pending = s.pending := (rfl)
@[simp] theorem modCtx_regs (k : Nat) (f : CtxS → CtxS) : (s.modCtx k f).regs = s.regs := (rfl)
@[simp] theorem modCtx_mem (k : Nat) (f : CtxS → CtxS) : (s.modCtx k f).mem = s.mem := (rfl)
@[simp] theorem modCtx_poison (k : Nat) (f : CtxS → CtxS) : (s.modCtx k f).poison = s.poison := (rfl)
@[simp] theorem modCtx_flash (k : Nat) (f : CtxS → CtxS) : (s.modCtx k f).flash = s.flash := (rfl)
@[simp] theorem modCtx_now (k : Nat) (f : CtxS → CtxS) : (s.modCtx k f).now = s.now := (rfl)
@[simp] theorem modCtx_cc (k : Nat) (f : CtxS → CtxS) : (s.modCtx k f).cc = s.cc := (rfl)
@[simp] theorem modCtx_slot (k : Nat) (f : CtxS → CtxS) : (s.modCtx k f).slot = s.slot := (rfl)
@[simp] theorem modCtx_cores (k : Nat) (f : CtxS → CtxS) : (s.modCtx k f).cores = s.cores := (rfl)
@[simp] theorem modCtx_hbm (k : Nat) (f : CtxS → CtxS) : (s.modCtx k f).hbm = s.hbm := (rfl)
@[simp] theorem modCtx_links (k : Nat) (f : CtxS → CtxS) : (s.modCtx k f).links = s.links := (rfl)
@[simp] theorem modCtx_groups (k : Nat) (f : CtxS → CtxS) : (s.modCtx k f).groups = s.groups := (rfl)
@[simp] theorem modCtx_sem (k : Nat) (f : CtxS → CtxS) : (s.modCtx k f).sem = s.sem := (rfl)
@[simp] theorem modCtx_bell (k : Nat) (f : CtxS → CtxS) : (s.modCtx k f).bell = s.bell := (rfl)
@[simp] theorem modCtx_bellServed (k : Nat) (f : CtxS → CtxS) : (s.modCtx k f).bellServed = s.bellServed := (rfl)
@[simp] theorem modCtx_beats (k : Nat) (f : CtxS → CtxS) : (s.modCtx k f).beats = s.beats := (rfl)
@[simp] theorem modCtx_pond (k : Nat) (f : CtxS → CtxS) : (s.modCtx k f).pond = s.pond := (rfl)
@[simp] theorem modCtx_host (k : Nat) (f : CtxS → CtxS) : (s.modCtx k f).host = s.host := (rfl)
@[simp] theorem modCtx_ebc (k : Nat) (f : CtxS → CtxS) : (s.modCtx k f).ebc = s.ebc := (rfl)
@[simp] theorem modCtx_hearth (k : Nat) (f : CtxS → CtxS) : (s.modCtx k f).hearth = s.hearth := (rfl)
@[simp] theorem modCtx_log (k : Nat) (f : CtxS → CtxS) : (s.modCtx k f).log = s.log := (rfl)
@[simp] theorem modCtx_dump (k : Nat) (f : CtxS → CtxS) : (s.modCtx k f).dump = s.dump := (rfl)
@[simp] theorem modCtx_snapPend (k : Nat) (f : CtxS → CtxS) : (s.modCtx k f).snapPend = s.snapPend := (rfl)
@[simp] theorem modCtx_inval (k : Nat) (f : CtxS → CtxS) : (s.modCtx k f).inval = s.inval := (rfl)
@[simp] theorem modCtx_sent (k : Nat) (f : CtxS → CtxS) : (s.modCtx k f).sent = s.sent := (rfl)
@[simp] theorem modCtx_free (k : Nat) (f : CtxS → CtxS) : (s.modCtx k f).free = s.free := (rfl)

/-! ### setLink -/

@[simp] theorem setLink_pending (m : Nat) (v : LinkS) : (s.setLink m v).pending = s.pending := (rfl)
@[simp] theorem setLink_regs (m : Nat) (v : LinkS) : (s.setLink m v).regs = s.regs := (rfl)
@[simp] theorem setLink_mem (m : Nat) (v : LinkS) : (s.setLink m v).mem = s.mem := (rfl)
@[simp] theorem setLink_poison (m : Nat) (v : LinkS) : (s.setLink m v).poison = s.poison := (rfl)
@[simp] theorem setLink_flash (m : Nat) (v : LinkS) : (s.setLink m v).flash = s.flash := (rfl)
@[simp] theorem setLink_now (m : Nat) (v : LinkS) : (s.setLink m v).now = s.now := (rfl)
@[simp] theorem setLink_cc (m : Nat) (v : LinkS) : (s.setLink m v).cc = s.cc := (rfl)
@[simp] theorem setLink_slot (m : Nat) (v : LinkS) : (s.setLink m v).slot = s.slot := (rfl)
@[simp] theorem setLink_cores (m : Nat) (v : LinkS) : (s.setLink m v).cores = s.cores := (rfl)
@[simp] theorem setLink_ctxs (m : Nat) (v : LinkS) : (s.setLink m v).ctxs = s.ctxs := (rfl)
@[simp] theorem setLink_hbm (m : Nat) (v : LinkS) : (s.setLink m v).hbm = s.hbm := (rfl)
@[simp] theorem setLink_groups (m : Nat) (v : LinkS) : (s.setLink m v).groups = s.groups := (rfl)
@[simp] theorem setLink_sem (m : Nat) (v : LinkS) : (s.setLink m v).sem = s.sem := (rfl)
@[simp] theorem setLink_bell (m : Nat) (v : LinkS) : (s.setLink m v).bell = s.bell := (rfl)
@[simp] theorem setLink_bellServed (m : Nat) (v : LinkS) : (s.setLink m v).bellServed = s.bellServed := (rfl)
@[simp] theorem setLink_beats (m : Nat) (v : LinkS) : (s.setLink m v).beats = s.beats := (rfl)
@[simp] theorem setLink_pond (m : Nat) (v : LinkS) : (s.setLink m v).pond = s.pond := (rfl)
@[simp] theorem setLink_host (m : Nat) (v : LinkS) : (s.setLink m v).host = s.host := (rfl)
@[simp] theorem setLink_ebc (m : Nat) (v : LinkS) : (s.setLink m v).ebc = s.ebc := (rfl)
@[simp] theorem setLink_hearth (m : Nat) (v : LinkS) : (s.setLink m v).hearth = s.hearth := (rfl)
@[simp] theorem setLink_log (m : Nat) (v : LinkS) : (s.setLink m v).log = s.log := (rfl)
@[simp] theorem setLink_dump (m : Nat) (v : LinkS) : (s.setLink m v).dump = s.dump := (rfl)
@[simp] theorem setLink_snapPend (m : Nat) (v : LinkS) : (s.setLink m v).snapPend = s.snapPend := (rfl)
@[simp] theorem setLink_inval (m : Nat) (v : LinkS) : (s.setLink m v).inval = s.inval := (rfl)
@[simp] theorem setLink_sent (m : Nat) (v : LinkS) : (s.setLink m v).sent = s.sent := (rfl)
@[simp] theorem setLink_free (m : Nat) (v : LinkS) : (s.setLink m v).free = s.free := (rfl)

/-! ### modLink -/

@[simp] theorem modLink_pending (m : Nat) (f : LinkS → LinkS) : (s.modLink m f).pending = s.pending := (rfl)
@[simp] theorem modLink_regs (m : Nat) (f : LinkS → LinkS) : (s.modLink m f).regs = s.regs := (rfl)
@[simp] theorem modLink_mem (m : Nat) (f : LinkS → LinkS) : (s.modLink m f).mem = s.mem := (rfl)
@[simp] theorem modLink_poison (m : Nat) (f : LinkS → LinkS) : (s.modLink m f).poison = s.poison := (rfl)
@[simp] theorem modLink_flash (m : Nat) (f : LinkS → LinkS) : (s.modLink m f).flash = s.flash := (rfl)
@[simp] theorem modLink_now (m : Nat) (f : LinkS → LinkS) : (s.modLink m f).now = s.now := (rfl)
@[simp] theorem modLink_cc (m : Nat) (f : LinkS → LinkS) : (s.modLink m f).cc = s.cc := (rfl)
@[simp] theorem modLink_slot (m : Nat) (f : LinkS → LinkS) : (s.modLink m f).slot = s.slot := (rfl)
@[simp] theorem modLink_cores (m : Nat) (f : LinkS → LinkS) : (s.modLink m f).cores = s.cores := (rfl)
@[simp] theorem modLink_ctxs (m : Nat) (f : LinkS → LinkS) : (s.modLink m f).ctxs = s.ctxs := (rfl)
@[simp] theorem modLink_hbm (m : Nat) (f : LinkS → LinkS) : (s.modLink m f).hbm = s.hbm := (rfl)
@[simp] theorem modLink_groups (m : Nat) (f : LinkS → LinkS) : (s.modLink m f).groups = s.groups := (rfl)
@[simp] theorem modLink_sem (m : Nat) (f : LinkS → LinkS) : (s.modLink m f).sem = s.sem := (rfl)
@[simp] theorem modLink_bell (m : Nat) (f : LinkS → LinkS) : (s.modLink m f).bell = s.bell := (rfl)
@[simp] theorem modLink_bellServed (m : Nat) (f : LinkS → LinkS) : (s.modLink m f).bellServed = s.bellServed := (rfl)
@[simp] theorem modLink_beats (m : Nat) (f : LinkS → LinkS) : (s.modLink m f).beats = s.beats := (rfl)
@[simp] theorem modLink_pond (m : Nat) (f : LinkS → LinkS) : (s.modLink m f).pond = s.pond := (rfl)
@[simp] theorem modLink_host (m : Nat) (f : LinkS → LinkS) : (s.modLink m f).host = s.host := (rfl)
@[simp] theorem modLink_ebc (m : Nat) (f : LinkS → LinkS) : (s.modLink m f).ebc = s.ebc := (rfl)
@[simp] theorem modLink_hearth (m : Nat) (f : LinkS → LinkS) : (s.modLink m f).hearth = s.hearth := (rfl)
@[simp] theorem modLink_log (m : Nat) (f : LinkS → LinkS) : (s.modLink m f).log = s.log := (rfl)
@[simp] theorem modLink_dump (m : Nat) (f : LinkS → LinkS) : (s.modLink m f).dump = s.dump := (rfl)
@[simp] theorem modLink_snapPend (m : Nat) (f : LinkS → LinkS) : (s.modLink m f).snapPend = s.snapPend := (rfl)
@[simp] theorem modLink_inval (m : Nat) (f : LinkS → LinkS) : (s.modLink m f).inval = s.inval := (rfl)
@[simp] theorem modLink_sent (m : Nat) (f : LinkS → LinkS) : (s.modLink m f).sent = s.sent := (rfl)
@[simp] theorem modLink_free (m : Nat) (f : LinkS → LinkS) : (s.modLink m f).free = s.free := (rfl)

/-! ### setGroup -/

@[simp] theorem setGroup_pending (g : Nat) (v : GroupS) : (s.setGroup g v).pending = s.pending := (rfl)
@[simp] theorem setGroup_regs (g : Nat) (v : GroupS) : (s.setGroup g v).regs = s.regs := (rfl)
@[simp] theorem setGroup_mem (g : Nat) (v : GroupS) : (s.setGroup g v).mem = s.mem := (rfl)
@[simp] theorem setGroup_poison (g : Nat) (v : GroupS) : (s.setGroup g v).poison = s.poison := (rfl)
@[simp] theorem setGroup_flash (g : Nat) (v : GroupS) : (s.setGroup g v).flash = s.flash := (rfl)
@[simp] theorem setGroup_now (g : Nat) (v : GroupS) : (s.setGroup g v).now = s.now := (rfl)
@[simp] theorem setGroup_cc (g : Nat) (v : GroupS) : (s.setGroup g v).cc = s.cc := (rfl)
@[simp] theorem setGroup_slot (g : Nat) (v : GroupS) : (s.setGroup g v).slot = s.slot := (rfl)
@[simp] theorem setGroup_cores (g : Nat) (v : GroupS) : (s.setGroup g v).cores = s.cores := (rfl)
@[simp] theorem setGroup_ctxs (g : Nat) (v : GroupS) : (s.setGroup g v).ctxs = s.ctxs := (rfl)
@[simp] theorem setGroup_hbm (g : Nat) (v : GroupS) : (s.setGroup g v).hbm = s.hbm := (rfl)
@[simp] theorem setGroup_links (g : Nat) (v : GroupS) : (s.setGroup g v).links = s.links := (rfl)
@[simp] theorem setGroup_sem (g : Nat) (v : GroupS) : (s.setGroup g v).sem = s.sem := (rfl)
@[simp] theorem setGroup_bell (g : Nat) (v : GroupS) : (s.setGroup g v).bell = s.bell := (rfl)
@[simp] theorem setGroup_bellServed (g : Nat) (v : GroupS) : (s.setGroup g v).bellServed = s.bellServed := (rfl)
@[simp] theorem setGroup_beats (g : Nat) (v : GroupS) : (s.setGroup g v).beats = s.beats := (rfl)
@[simp] theorem setGroup_pond (g : Nat) (v : GroupS) : (s.setGroup g v).pond = s.pond := (rfl)
@[simp] theorem setGroup_host (g : Nat) (v : GroupS) : (s.setGroup g v).host = s.host := (rfl)
@[simp] theorem setGroup_ebc (g : Nat) (v : GroupS) : (s.setGroup g v).ebc = s.ebc := (rfl)
@[simp] theorem setGroup_hearth (g : Nat) (v : GroupS) : (s.setGroup g v).hearth = s.hearth := (rfl)
@[simp] theorem setGroup_log (g : Nat) (v : GroupS) : (s.setGroup g v).log = s.log := (rfl)
@[simp] theorem setGroup_dump (g : Nat) (v : GroupS) : (s.setGroup g v).dump = s.dump := (rfl)
@[simp] theorem setGroup_snapPend (g : Nat) (v : GroupS) : (s.setGroup g v).snapPend = s.snapPend := (rfl)
@[simp] theorem setGroup_inval (g : Nat) (v : GroupS) : (s.setGroup g v).inval = s.inval := (rfl)
@[simp] theorem setGroup_sent (g : Nat) (v : GroupS) : (s.setGroup g v).sent = s.sent := (rfl)
@[simp] theorem setGroup_free (g : Nat) (v : GroupS) : (s.setGroup g v).free = s.free := (rfl)

/-! ### modGroup -/

@[simp] theorem modGroup_pending (g : Nat) (f : GroupS → GroupS) : (s.modGroup g f).pending = s.pending := (rfl)
@[simp] theorem modGroup_regs (g : Nat) (f : GroupS → GroupS) : (s.modGroup g f).regs = s.regs := (rfl)
@[simp] theorem modGroup_mem (g : Nat) (f : GroupS → GroupS) : (s.modGroup g f).mem = s.mem := (rfl)
@[simp] theorem modGroup_poison (g : Nat) (f : GroupS → GroupS) : (s.modGroup g f).poison = s.poison := (rfl)
@[simp] theorem modGroup_flash (g : Nat) (f : GroupS → GroupS) : (s.modGroup g f).flash = s.flash := (rfl)
@[simp] theorem modGroup_now (g : Nat) (f : GroupS → GroupS) : (s.modGroup g f).now = s.now := (rfl)
@[simp] theorem modGroup_cc (g : Nat) (f : GroupS → GroupS) : (s.modGroup g f).cc = s.cc := (rfl)
@[simp] theorem modGroup_slot (g : Nat) (f : GroupS → GroupS) : (s.modGroup g f).slot = s.slot := (rfl)
@[simp] theorem modGroup_cores (g : Nat) (f : GroupS → GroupS) : (s.modGroup g f).cores = s.cores := (rfl)
@[simp] theorem modGroup_ctxs (g : Nat) (f : GroupS → GroupS) : (s.modGroup g f).ctxs = s.ctxs := (rfl)
@[simp] theorem modGroup_hbm (g : Nat) (f : GroupS → GroupS) : (s.modGroup g f).hbm = s.hbm := (rfl)
@[simp] theorem modGroup_links (g : Nat) (f : GroupS → GroupS) : (s.modGroup g f).links = s.links := (rfl)
@[simp] theorem modGroup_sem (g : Nat) (f : GroupS → GroupS) : (s.modGroup g f).sem = s.sem := (rfl)
@[simp] theorem modGroup_bell (g : Nat) (f : GroupS → GroupS) : (s.modGroup g f).bell = s.bell := (rfl)
@[simp] theorem modGroup_bellServed (g : Nat) (f : GroupS → GroupS) : (s.modGroup g f).bellServed = s.bellServed := (rfl)
@[simp] theorem modGroup_beats (g : Nat) (f : GroupS → GroupS) : (s.modGroup g f).beats = s.beats := (rfl)
@[simp] theorem modGroup_pond (g : Nat) (f : GroupS → GroupS) : (s.modGroup g f).pond = s.pond := (rfl)
@[simp] theorem modGroup_host (g : Nat) (f : GroupS → GroupS) : (s.modGroup g f).host = s.host := (rfl)
@[simp] theorem modGroup_ebc (g : Nat) (f : GroupS → GroupS) : (s.modGroup g f).ebc = s.ebc := (rfl)
@[simp] theorem modGroup_hearth (g : Nat) (f : GroupS → GroupS) : (s.modGroup g f).hearth = s.hearth := (rfl)
@[simp] theorem modGroup_log (g : Nat) (f : GroupS → GroupS) : (s.modGroup g f).log = s.log := (rfl)
@[simp] theorem modGroup_dump (g : Nat) (f : GroupS → GroupS) : (s.modGroup g f).dump = s.dump := (rfl)
@[simp] theorem modGroup_snapPend (g : Nat) (f : GroupS → GroupS) : (s.modGroup g f).snapPend = s.snapPend := (rfl)
@[simp] theorem modGroup_inval (g : Nat) (f : GroupS → GroupS) : (s.modGroup g f).inval = s.inval := (rfl)
@[simp] theorem modGroup_sent (g : Nat) (f : GroupS → GroupS) : (s.modGroup g f).sent = s.sent := (rfl)
@[simp] theorem modGroup_free (g : Nat) (f : GroupS → GroupS) : (s.modGroup g f).free = s.free := (rfl)

/-! ### setStack -/

@[simp] theorem setStack_pending (k : Nat) (v : StackS) : (s.setStack k v).pending = s.pending := (rfl)
@[simp] theorem setStack_regs (k : Nat) (v : StackS) : (s.setStack k v).regs = s.regs := (rfl)
@[simp] theorem setStack_mem (k : Nat) (v : StackS) : (s.setStack k v).mem = s.mem := (rfl)
@[simp] theorem setStack_poison (k : Nat) (v : StackS) : (s.setStack k v).poison = s.poison := (rfl)
@[simp] theorem setStack_flash (k : Nat) (v : StackS) : (s.setStack k v).flash = s.flash := (rfl)
@[simp] theorem setStack_now (k : Nat) (v : StackS) : (s.setStack k v).now = s.now := (rfl)
@[simp] theorem setStack_cc (k : Nat) (v : StackS) : (s.setStack k v).cc = s.cc := (rfl)
@[simp] theorem setStack_slot (k : Nat) (v : StackS) : (s.setStack k v).slot = s.slot := (rfl)
@[simp] theorem setStack_cores (k : Nat) (v : StackS) : (s.setStack k v).cores = s.cores := (rfl)
@[simp] theorem setStack_ctxs (k : Nat) (v : StackS) : (s.setStack k v).ctxs = s.ctxs := (rfl)
@[simp] theorem setStack_links (k : Nat) (v : StackS) : (s.setStack k v).links = s.links := (rfl)
@[simp] theorem setStack_groups (k : Nat) (v : StackS) : (s.setStack k v).groups = s.groups := (rfl)
@[simp] theorem setStack_sem (k : Nat) (v : StackS) : (s.setStack k v).sem = s.sem := (rfl)
@[simp] theorem setStack_bell (k : Nat) (v : StackS) : (s.setStack k v).bell = s.bell := (rfl)
@[simp] theorem setStack_bellServed (k : Nat) (v : StackS) : (s.setStack k v).bellServed = s.bellServed := (rfl)
@[simp] theorem setStack_beats (k : Nat) (v : StackS) : (s.setStack k v).beats = s.beats := (rfl)
@[simp] theorem setStack_pond (k : Nat) (v : StackS) : (s.setStack k v).pond = s.pond := (rfl)
@[simp] theorem setStack_host (k : Nat) (v : StackS) : (s.setStack k v).host = s.host := (rfl)
@[simp] theorem setStack_ebc (k : Nat) (v : StackS) : (s.setStack k v).ebc = s.ebc := (rfl)
@[simp] theorem setStack_hearth (k : Nat) (v : StackS) : (s.setStack k v).hearth = s.hearth := (rfl)
@[simp] theorem setStack_log (k : Nat) (v : StackS) : (s.setStack k v).log = s.log := (rfl)
@[simp] theorem setStack_dump (k : Nat) (v : StackS) : (s.setStack k v).dump = s.dump := (rfl)
@[simp] theorem setStack_snapPend (k : Nat) (v : StackS) : (s.setStack k v).snapPend = s.snapPend := (rfl)
@[simp] theorem setStack_inval (k : Nat) (v : StackS) : (s.setStack k v).inval = s.inval := (rfl)
@[simp] theorem setStack_sent (k : Nat) (v : StackS) : (s.setStack k v).sent = s.sent := (rfl)
@[simp] theorem setStack_free (k : Nat) (v : StackS) : (s.setStack k v).free = s.free := (rfl)

/-! ### modStack -/

@[simp] theorem modStack_pending (k : Nat) (f : StackS → StackS) : (s.modStack k f).pending = s.pending := (rfl)
@[simp] theorem modStack_regs (k : Nat) (f : StackS → StackS) : (s.modStack k f).regs = s.regs := (rfl)
@[simp] theorem modStack_mem (k : Nat) (f : StackS → StackS) : (s.modStack k f).mem = s.mem := (rfl)
@[simp] theorem modStack_poison (k : Nat) (f : StackS → StackS) : (s.modStack k f).poison = s.poison := (rfl)
@[simp] theorem modStack_flash (k : Nat) (f : StackS → StackS) : (s.modStack k f).flash = s.flash := (rfl)
@[simp] theorem modStack_now (k : Nat) (f : StackS → StackS) : (s.modStack k f).now = s.now := (rfl)
@[simp] theorem modStack_cc (k : Nat) (f : StackS → StackS) : (s.modStack k f).cc = s.cc := (rfl)
@[simp] theorem modStack_slot (k : Nat) (f : StackS → StackS) : (s.modStack k f).slot = s.slot := (rfl)
@[simp] theorem modStack_cores (k : Nat) (f : StackS → StackS) : (s.modStack k f).cores = s.cores := (rfl)
@[simp] theorem modStack_ctxs (k : Nat) (f : StackS → StackS) : (s.modStack k f).ctxs = s.ctxs := (rfl)
@[simp] theorem modStack_links (k : Nat) (f : StackS → StackS) : (s.modStack k f).links = s.links := (rfl)
@[simp] theorem modStack_groups (k : Nat) (f : StackS → StackS) : (s.modStack k f).groups = s.groups := (rfl)
@[simp] theorem modStack_sem (k : Nat) (f : StackS → StackS) : (s.modStack k f).sem = s.sem := (rfl)
@[simp] theorem modStack_bell (k : Nat) (f : StackS → StackS) : (s.modStack k f).bell = s.bell := (rfl)
@[simp] theorem modStack_bellServed (k : Nat) (f : StackS → StackS) : (s.modStack k f).bellServed = s.bellServed := (rfl)
@[simp] theorem modStack_beats (k : Nat) (f : StackS → StackS) : (s.modStack k f).beats = s.beats := (rfl)
@[simp] theorem modStack_pond (k : Nat) (f : StackS → StackS) : (s.modStack k f).pond = s.pond := (rfl)
@[simp] theorem modStack_host (k : Nat) (f : StackS → StackS) : (s.modStack k f).host = s.host := (rfl)
@[simp] theorem modStack_ebc (k : Nat) (f : StackS → StackS) : (s.modStack k f).ebc = s.ebc := (rfl)
@[simp] theorem modStack_hearth (k : Nat) (f : StackS → StackS) : (s.modStack k f).hearth = s.hearth := (rfl)
@[simp] theorem modStack_log (k : Nat) (f : StackS → StackS) : (s.modStack k f).log = s.log := (rfl)
@[simp] theorem modStack_dump (k : Nat) (f : StackS → StackS) : (s.modStack k f).dump = s.dump := (rfl)
@[simp] theorem modStack_snapPend (k : Nat) (f : StackS → StackS) : (s.modStack k f).snapPend = s.snapPend := (rfl)
@[simp] theorem modStack_inval (k : Nat) (f : StackS → StackS) : (s.modStack k f).inval = s.inval := (rfl)
@[simp] theorem modStack_sent (k : Nat) (f : StackS → StackS) : (s.modStack k f).sent = s.sent := (rfl)
@[simp] theorem modStack_free (k : Nat) (f : StackS → StackS) : (s.modStack k f).free = s.free := (rfl)

/-! ### emit -/

@[simp] theorem emit_pending (r : EvRec) : (s.emit r).pending = s.pending := (rfl)
@[simp] theorem emit_regs (r : EvRec) : (s.emit r).regs = s.regs := (rfl)
@[simp] theorem emit_mem (r : EvRec) : (s.emit r).mem = s.mem := (rfl)
@[simp] theorem emit_poison (r : EvRec) : (s.emit r).poison = s.poison := (rfl)
@[simp] theorem emit_flash (r : EvRec) : (s.emit r).flash = s.flash := (rfl)
@[simp] theorem emit_now (r : EvRec) : (s.emit r).now = s.now := (rfl)
@[simp] theorem emit_cc (r : EvRec) : (s.emit r).cc = s.cc := (rfl)
@[simp] theorem emit_slot (r : EvRec) : (s.emit r).slot = s.slot := (rfl)
@[simp] theorem emit_cores (r : EvRec) : (s.emit r).cores = s.cores := (rfl)
@[simp] theorem emit_ctxs (r : EvRec) : (s.emit r).ctxs = s.ctxs := (rfl)
@[simp] theorem emit_hbm (r : EvRec) : (s.emit r).hbm = s.hbm := (rfl)
@[simp] theorem emit_links (r : EvRec) : (s.emit r).links = s.links := (rfl)
@[simp] theorem emit_groups (r : EvRec) : (s.emit r).groups = s.groups := (rfl)
@[simp] theorem emit_sem (r : EvRec) : (s.emit r).sem = s.sem := (rfl)
@[simp] theorem emit_bell (r : EvRec) : (s.emit r).bell = s.bell := (rfl)
@[simp] theorem emit_bellServed (r : EvRec) : (s.emit r).bellServed = s.bellServed := (rfl)
@[simp] theorem emit_beats (r : EvRec) : (s.emit r).beats = s.beats := (rfl)
@[simp] theorem emit_pond (r : EvRec) : (s.emit r).pond = s.pond := (rfl)
@[simp] theorem emit_host (r : EvRec) : (s.emit r).host = s.host := (rfl)
@[simp] theorem emit_ebc (r : EvRec) : (s.emit r).ebc = s.ebc := (rfl)
@[simp] theorem emit_hearth (r : EvRec) : (s.emit r).hearth = s.hearth := (rfl)
@[simp] theorem emit_dump (r : EvRec) : (s.emit r).dump = s.dump := (rfl)
@[simp] theorem emit_snapPend (r : EvRec) : (s.emit r).snapPend = s.snapPend := (rfl)
@[simp] theorem emit_inval (r : EvRec) : (s.emit r).inval = s.inval := (rfl)
@[simp] theorem emit_sent (r : EvRec) : (s.emit r).sent = s.sent := (rfl)
@[simp] theorem emit_free (r : EvRec) : (s.emit r).free = s.free := (rfl)

/-! ### bellAt -/

@[simp] theorem bellAt_pending (x y i : Nat) (hdr : BitVec 32) (pay : List (BitVec 32)) : (s.bellAt x y i hdr pay).pending = s.pending := (rfl)
@[simp] theorem bellAt_regs (x y i : Nat) (hdr : BitVec 32) (pay : List (BitVec 32)) : (s.bellAt x y i hdr pay).regs = s.regs := (rfl)
@[simp] theorem bellAt_mem (x y i : Nat) (hdr : BitVec 32) (pay : List (BitVec 32)) : (s.bellAt x y i hdr pay).mem = s.mem := (rfl)
@[simp] theorem bellAt_poison (x y i : Nat) (hdr : BitVec 32) (pay : List (BitVec 32)) : (s.bellAt x y i hdr pay).poison = s.poison := (rfl)
@[simp] theorem bellAt_flash (x y i : Nat) (hdr : BitVec 32) (pay : List (BitVec 32)) : (s.bellAt x y i hdr pay).flash = s.flash := (rfl)
@[simp] theorem bellAt_now (x y i : Nat) (hdr : BitVec 32) (pay : List (BitVec 32)) : (s.bellAt x y i hdr pay).now = s.now := (rfl)
@[simp] theorem bellAt_cc (x y i : Nat) (hdr : BitVec 32) (pay : List (BitVec 32)) : (s.bellAt x y i hdr pay).cc = s.cc := (rfl)
@[simp] theorem bellAt_slot (x y i : Nat) (hdr : BitVec 32) (pay : List (BitVec 32)) : (s.bellAt x y i hdr pay).slot = s.slot := (rfl)
@[simp] theorem bellAt_cores (x y i : Nat) (hdr : BitVec 32) (pay : List (BitVec 32)) : (s.bellAt x y i hdr pay).cores = s.cores := (rfl)
@[simp] theorem bellAt_ctxs (x y i : Nat) (hdr : BitVec 32) (pay : List (BitVec 32)) : (s.bellAt x y i hdr pay).ctxs = s.ctxs := (rfl)
@[simp] theorem bellAt_hbm (x y i : Nat) (hdr : BitVec 32) (pay : List (BitVec 32)) : (s.bellAt x y i hdr pay).hbm = s.hbm := (rfl)
@[simp] theorem bellAt_links (x y i : Nat) (hdr : BitVec 32) (pay : List (BitVec 32)) : (s.bellAt x y i hdr pay).links = s.links := (rfl)
@[simp] theorem bellAt_groups (x y i : Nat) (hdr : BitVec 32) (pay : List (BitVec 32)) : (s.bellAt x y i hdr pay).groups = s.groups := (rfl)
@[simp] theorem bellAt_sem (x y i : Nat) (hdr : BitVec 32) (pay : List (BitVec 32)) : (s.bellAt x y i hdr pay).sem = s.sem := (rfl)
@[simp] theorem bellAt_bellServed (x y i : Nat) (hdr : BitVec 32) (pay : List (BitVec 32)) : (s.bellAt x y i hdr pay).bellServed = s.bellServed := (rfl)
@[simp] theorem bellAt_beats (x y i : Nat) (hdr : BitVec 32) (pay : List (BitVec 32)) : (s.bellAt x y i hdr pay).beats = s.beats := (rfl)
@[simp] theorem bellAt_pond (x y i : Nat) (hdr : BitVec 32) (pay : List (BitVec 32)) : (s.bellAt x y i hdr pay).pond = s.pond := (rfl)
@[simp] theorem bellAt_host (x y i : Nat) (hdr : BitVec 32) (pay : List (BitVec 32)) : (s.bellAt x y i hdr pay).host = s.host := (rfl)
@[simp] theorem bellAt_ebc (x y i : Nat) (hdr : BitVec 32) (pay : List (BitVec 32)) : (s.bellAt x y i hdr pay).ebc = s.ebc := (rfl)
@[simp] theorem bellAt_hearth (x y i : Nat) (hdr : BitVec 32) (pay : List (BitVec 32)) : (s.bellAt x y i hdr pay).hearth = s.hearth := (rfl)
@[simp] theorem bellAt_log (x y i : Nat) (hdr : BitVec 32) (pay : List (BitVec 32)) : (s.bellAt x y i hdr pay).log = s.log := (rfl)
@[simp] theorem bellAt_dump (x y i : Nat) (hdr : BitVec 32) (pay : List (BitVec 32)) : (s.bellAt x y i hdr pay).dump = s.dump := (rfl)
@[simp] theorem bellAt_snapPend (x y i : Nat) (hdr : BitVec 32) (pay : List (BitVec 32)) : (s.bellAt x y i hdr pay).snapPend = s.snapPend := (rfl)
@[simp] theorem bellAt_inval (x y i : Nat) (hdr : BitVec 32) (pay : List (BitVec 32)) : (s.bellAt x y i hdr pay).inval = s.inval := (rfl)
@[simp] theorem bellAt_sent (x y i : Nat) (hdr : BitVec 32) (pay : List (BitVec 32)) : (s.bellAt x y i hdr pay).sent = s.sent := (rfl)
@[simp] theorem bellAt_free (x y i : Nat) (hdr : BitVec 32) (pay : List (BitVec 32)) : (s.bellAt x y i hdr pay).free = s.free := (rfl)

/-! ### bellTake -/

@[simp] theorem bellTake_pending (p : BellMsg → Bool) : (s.bellTake p).pending = s.pending := (rfl)
@[simp] theorem bellTake_regs (p : BellMsg → Bool) : (s.bellTake p).regs = s.regs := (rfl)
@[simp] theorem bellTake_mem (p : BellMsg → Bool) : (s.bellTake p).mem = s.mem := (rfl)
@[simp] theorem bellTake_poison (p : BellMsg → Bool) : (s.bellTake p).poison = s.poison := (rfl)
@[simp] theorem bellTake_flash (p : BellMsg → Bool) : (s.bellTake p).flash = s.flash := (rfl)
@[simp] theorem bellTake_now (p : BellMsg → Bool) : (s.bellTake p).now = s.now := (rfl)
@[simp] theorem bellTake_cc (p : BellMsg → Bool) : (s.bellTake p).cc = s.cc := (rfl)
@[simp] theorem bellTake_slot (p : BellMsg → Bool) : (s.bellTake p).slot = s.slot := (rfl)
@[simp] theorem bellTake_cores (p : BellMsg → Bool) : (s.bellTake p).cores = s.cores := (rfl)
@[simp] theorem bellTake_ctxs (p : BellMsg → Bool) : (s.bellTake p).ctxs = s.ctxs := (rfl)
@[simp] theorem bellTake_hbm (p : BellMsg → Bool) : (s.bellTake p).hbm = s.hbm := (rfl)
@[simp] theorem bellTake_links (p : BellMsg → Bool) : (s.bellTake p).links = s.links := (rfl)
@[simp] theorem bellTake_groups (p : BellMsg → Bool) : (s.bellTake p).groups = s.groups := (rfl)
@[simp] theorem bellTake_sem (p : BellMsg → Bool) : (s.bellTake p).sem = s.sem := (rfl)
@[simp] theorem bellTake_bellServed (p : BellMsg → Bool) : (s.bellTake p).bellServed = s.bellServed := (rfl)
@[simp] theorem bellTake_beats (p : BellMsg → Bool) : (s.bellTake p).beats = s.beats := (rfl)
@[simp] theorem bellTake_pond (p : BellMsg → Bool) : (s.bellTake p).pond = s.pond := (rfl)
@[simp] theorem bellTake_host (p : BellMsg → Bool) : (s.bellTake p).host = s.host := (rfl)
@[simp] theorem bellTake_ebc (p : BellMsg → Bool) : (s.bellTake p).ebc = s.ebc := (rfl)
@[simp] theorem bellTake_hearth (p : BellMsg → Bool) : (s.bellTake p).hearth = s.hearth := (rfl)
@[simp] theorem bellTake_log (p : BellMsg → Bool) : (s.bellTake p).log = s.log := (rfl)
@[simp] theorem bellTake_dump (p : BellMsg → Bool) : (s.bellTake p).dump = s.dump := (rfl)
@[simp] theorem bellTake_snapPend (p : BellMsg → Bool) : (s.bellTake p).snapPend = s.snapPend := (rfl)
@[simp] theorem bellTake_inval (p : BellMsg → Bool) : (s.bellTake p).inval = s.inval := (rfl)
@[simp] theorem bellTake_sent (p : BellMsg → Bool) : (s.bellTake p).sent = s.sent := (rfl)
@[simp] theorem bellTake_free (p : BellMsg → Bool) : (s.bellTake p).free = s.free := (rfl)

/-! ### resetRegs -/

@[simp] theorem resetRegs_pending (keep : Nat → Bool) : (s.resetRegs keep).pending = s.pending := (rfl)
@[simp] theorem resetRegs_mem (keep : Nat → Bool) : (s.resetRegs keep).mem = s.mem := (rfl)
@[simp] theorem resetRegs_poison (keep : Nat → Bool) : (s.resetRegs keep).poison = s.poison := (rfl)
@[simp] theorem resetRegs_flash (keep : Nat → Bool) : (s.resetRegs keep).flash = s.flash := (rfl)
@[simp] theorem resetRegs_now (keep : Nat → Bool) : (s.resetRegs keep).now = s.now := (rfl)
@[simp] theorem resetRegs_cc (keep : Nat → Bool) : (s.resetRegs keep).cc = s.cc := (rfl)
@[simp] theorem resetRegs_slot (keep : Nat → Bool) : (s.resetRegs keep).slot = s.slot := (rfl)
@[simp] theorem resetRegs_cores (keep : Nat → Bool) : (s.resetRegs keep).cores = s.cores := (rfl)
@[simp] theorem resetRegs_ctxs (keep : Nat → Bool) : (s.resetRegs keep).ctxs = s.ctxs := (rfl)
@[simp] theorem resetRegs_hbm (keep : Nat → Bool) : (s.resetRegs keep).hbm = s.hbm := (rfl)
@[simp] theorem resetRegs_links (keep : Nat → Bool) : (s.resetRegs keep).links = s.links := (rfl)
@[simp] theorem resetRegs_groups (keep : Nat → Bool) : (s.resetRegs keep).groups = s.groups := (rfl)
@[simp] theorem resetRegs_sem (keep : Nat → Bool) : (s.resetRegs keep).sem = s.sem := (rfl)
@[simp] theorem resetRegs_bell (keep : Nat → Bool) : (s.resetRegs keep).bell = s.bell := (rfl)
@[simp] theorem resetRegs_bellServed (keep : Nat → Bool) : (s.resetRegs keep).bellServed = s.bellServed := (rfl)
@[simp] theorem resetRegs_beats (keep : Nat → Bool) : (s.resetRegs keep).beats = s.beats := (rfl)
@[simp] theorem resetRegs_pond (keep : Nat → Bool) : (s.resetRegs keep).pond = s.pond := (rfl)
@[simp] theorem resetRegs_host (keep : Nat → Bool) : (s.resetRegs keep).host = s.host := (rfl)
@[simp] theorem resetRegs_ebc (keep : Nat → Bool) : (s.resetRegs keep).ebc = s.ebc := (rfl)
@[simp] theorem resetRegs_hearth (keep : Nat → Bool) : (s.resetRegs keep).hearth = s.hearth := (rfl)
@[simp] theorem resetRegs_log (keep : Nat → Bool) : (s.resetRegs keep).log = s.log := (rfl)
@[simp] theorem resetRegs_dump (keep : Nat → Bool) : (s.resetRegs keep).dump = s.dump := (rfl)
@[simp] theorem resetRegs_snapPend (keep : Nat → Bool) : (s.resetRegs keep).snapPend = s.snapPend := (rfl)
@[simp] theorem resetRegs_inval (keep : Nat → Bool) : (s.resetRegs keep).inval = s.inval := (rfl)
@[simp] theorem resetRegs_sent (keep : Nat → Bool) : (s.resetRegs keep).sent = s.sent := (rfl)
@[simp] theorem resetRegs_free (keep : Nat → Bool) : (s.resetRegs keep).free = s.free := (rfl)

/-! ### flashErase -/

@[simp] theorem flashErase_pending (a m : Nat) : (s.flashErase a m).pending = s.pending := (rfl)
@[simp] theorem flashErase_regs (a m : Nat) : (s.flashErase a m).regs = s.regs := (rfl)
@[simp] theorem flashErase_mem (a m : Nat) : (s.flashErase a m).mem = s.mem := (rfl)
@[simp] theorem flashErase_poison (a m : Nat) : (s.flashErase a m).poison = s.poison := (rfl)
@[simp] theorem flashErase_now (a m : Nat) : (s.flashErase a m).now = s.now := (rfl)
@[simp] theorem flashErase_cc (a m : Nat) : (s.flashErase a m).cc = s.cc := (rfl)
@[simp] theorem flashErase_slot (a m : Nat) : (s.flashErase a m).slot = s.slot := (rfl)
@[simp] theorem flashErase_cores (a m : Nat) : (s.flashErase a m).cores = s.cores := (rfl)
@[simp] theorem flashErase_ctxs (a m : Nat) : (s.flashErase a m).ctxs = s.ctxs := (rfl)
@[simp] theorem flashErase_hbm (a m : Nat) : (s.flashErase a m).hbm = s.hbm := (rfl)
@[simp] theorem flashErase_links (a m : Nat) : (s.flashErase a m).links = s.links := (rfl)
@[simp] theorem flashErase_groups (a m : Nat) : (s.flashErase a m).groups = s.groups := (rfl)
@[simp] theorem flashErase_sem (a m : Nat) : (s.flashErase a m).sem = s.sem := (rfl)
@[simp] theorem flashErase_bell (a m : Nat) : (s.flashErase a m).bell = s.bell := (rfl)
@[simp] theorem flashErase_bellServed (a m : Nat) : (s.flashErase a m).bellServed = s.bellServed := (rfl)
@[simp] theorem flashErase_beats (a m : Nat) : (s.flashErase a m).beats = s.beats := (rfl)
@[simp] theorem flashErase_pond (a m : Nat) : (s.flashErase a m).pond = s.pond := (rfl)
@[simp] theorem flashErase_host (a m : Nat) : (s.flashErase a m).host = s.host := (rfl)
@[simp] theorem flashErase_ebc (a m : Nat) : (s.flashErase a m).ebc = s.ebc := (rfl)
@[simp] theorem flashErase_hearth (a m : Nat) : (s.flashErase a m).hearth = s.hearth := (rfl)
@[simp] theorem flashErase_log (a m : Nat) : (s.flashErase a m).log = s.log := (rfl)
@[simp] theorem flashErase_dump (a m : Nat) : (s.flashErase a m).dump = s.dump := (rfl)
@[simp] theorem flashErase_snapPend (a m : Nat) : (s.flashErase a m).snapPend = s.snapPend := (rfl)
@[simp] theorem flashErase_inval (a m : Nat) : (s.flashErase a m).inval = s.inval := (rfl)
@[simp] theorem flashErase_sent (a m : Nat) : (s.flashErase a m).sent = s.sent := (rfl)
@[simp] theorem flashErase_free (a m : Nat) : (s.flashErase a m).free = s.free := (rfl)

/-! ### Reads through the named operations -/

@[simp] theorem setReg_rdBytes (a : Nat) (v : Word) (z l : Nat) : (s.setReg a v).rdBytes z l = s.rdBytes z l := (rfl)
@[simp] theorem setReg_rdB (a : Nat) (v : Word) (z : Nat) : (s.setReg a v).rdB z = s.rdB z := (rfl)
@[simp] theorem setReg_flashB (a : Nat) (v : Word) (z : Nat) : (s.setReg a v).flashB z = s.flashB z := (rfl)
@[simp] theorem setReg_core (a : Nat) (v : Word) (z : CoreId) : (s.setReg a v).core z = s.core z := (rfl)
@[simp] theorem setReg_ctx (a : Nat) (v : Word) (z : Nat) : (s.setReg a v).ctx z = s.ctx z := (rfl)
@[simp] theorem setReg_link (a : Nat) (v : Word) (z : Nat) : (s.setReg a v).link z = s.link z := (rfl)
@[simp] theorem setReg_group (a : Nat) (v : Word) (z : Nat) : (s.setReg a v).group z = s.group z := (rfl)
@[simp] theorem setReg_stack (a : Nat) (v : Word) (z : Nat) : (s.setReg a v).stack z = s.stack z := (rfl)
@[simp] theorem fput_rdBytes (a : Nat) (f : Fd) (v : Nat) (z l : Nat) : (s.fput a f v).rdBytes z l = s.rdBytes z l := (rfl)
@[simp] theorem fput_rdB (a : Nat) (f : Fd) (v : Nat) (z : Nat) : (s.fput a f v).rdB z = s.rdB z := (rfl)
@[simp] theorem fput_flashB (a : Nat) (f : Fd) (v : Nat) (z : Nat) : (s.fput a f v).flashB z = s.flashB z := (rfl)
@[simp] theorem fput_core (a : Nat) (f : Fd) (v : Nat) (z : CoreId) : (s.fput a f v).core z = s.core z := (rfl)
@[simp] theorem fput_ctx (a : Nat) (f : Fd) (v : Nat) (z : Nat) : (s.fput a f v).ctx z = s.ctx z := (rfl)
@[simp] theorem fput_link (a : Nat) (f : Fd) (v : Nat) (z : Nat) : (s.fput a f v).link z = s.link z := (rfl)
@[simp] theorem fput_group (a : Nat) (f : Fd) (v : Nat) (z : Nat) : (s.fput a f v).group z = s.group z := (rfl)
@[simp] theorem fput_stack (a : Nat) (f : Fd) (v : Nat) (z : Nat) : (s.fput a f v).stack z = s.stack z := (rfl)
@[simp] theorem count_rdBytes (a m : Nat) (z l : Nat) : (s.count a m).rdBytes z l = s.rdBytes z l := (rfl)
@[simp] theorem count_rdB (a m : Nat) (z : Nat) : (s.count a m).rdB z = s.rdB z := (rfl)
@[simp] theorem count_flashB (a m : Nat) (z : Nat) : (s.count a m).flashB z = s.flashB z := (rfl)
@[simp] theorem count_core (a m : Nat) (z : CoreId) : (s.count a m).core z = s.core z := (rfl)
@[simp] theorem count_ctx (a m : Nat) (z : Nat) : (s.count a m).ctx z = s.ctx z := (rfl)
@[simp] theorem count_link (a m : Nat) (z : Nat) : (s.count a m).link z = s.link z := (rfl)
@[simp] theorem count_group (a m : Nat) (z : Nat) : (s.count a m).group z = s.group z := (rfl)
@[simp] theorem count_stack (a m : Nat) (z : Nat) : (s.count a m).stack z = s.stack z := (rfl)
@[simp] theorem wrB_reg (a : Nat) (b : Byte) (z : Nat) : (s.wrB a b).reg z = s.reg z := (rfl)
@[simp] theorem wrB_fget (a : Nat) (b : Byte) (z : Nat) (fd : Fd) : (s.wrB a b).fget z fd = s.fget z fd := (rfl)
@[simp] theorem wrB_flag (a : Nat) (b : Byte) (z : Nat) (fd : Fd) : (s.wrB a b).flag z fd = s.flag z fd := (rfl)
@[simp] theorem wrB_run (a : Nat) (b : Byte) (z : CoreId) : (s.wrB a b).run z = s.run z := (rfl)
@[simp] theorem wrB_coreCtx (a : Nat) (b : Byte) (z : CoreId) : (s.wrB a b).coreCtx z = s.coreCtx z := (rfl)
@[simp] theorem wrB_flashB (a : Nat) (b : Byte) (z : Nat) : (s.wrB a b).flashB z = s.flashB z := (rfl)
@[simp] theorem wrB_core (a : Nat) (b : Byte) (z : CoreId) : (s.wrB a b).core z = s.core z := (rfl)
@[simp] theorem wrB_ctx (a : Nat) (b : Byte) (z : Nat) : (s.wrB a b).ctx z = s.ctx z := (rfl)
@[simp] theorem wrB_link (a : Nat) (b : Byte) (z : Nat) : (s.wrB a b).link z = s.link z := (rfl)
@[simp] theorem wrB_group (a : Nat) (b : Byte) (z : Nat) : (s.wrB a b).group z = s.group z := (rfl)
@[simp] theorem wrB_stack (a : Nat) (b : Byte) (z : Nat) : (s.wrB a b).stack z = s.stack z := (rfl)
@[simp] theorem setCore_reg (c : CoreId) (v : CoreS) (z : Nat) : (s.setCore c v).reg z = s.reg z := (rfl)
@[simp] theorem setCore_fget (c : CoreId) (v : CoreS) (z : Nat) (fd : Fd) : (s.setCore c v).fget z fd = s.fget z fd := (rfl)
@[simp] theorem setCore_flag (c : CoreId) (v : CoreS) (z : Nat) (fd : Fd) : (s.setCore c v).flag z fd = s.flag z fd := (rfl)
@[simp] theorem setCore_run (c : CoreId) (v : CoreS) (z : CoreId) : (s.setCore c v).run z = s.run z := (rfl)
@[simp] theorem setCore_coreCtx (c : CoreId) (v : CoreS) (z : CoreId) : (s.setCore c v).coreCtx z = s.coreCtx z := (rfl)
@[simp] theorem setCore_rdBytes (c : CoreId) (v : CoreS) (z l : Nat) : (s.setCore c v).rdBytes z l = s.rdBytes z l := (rfl)
@[simp] theorem setCore_rdB (c : CoreId) (v : CoreS) (z : Nat) : (s.setCore c v).rdB z = s.rdB z := (rfl)
@[simp] theorem setCore_flashB (c : CoreId) (v : CoreS) (z : Nat) : (s.setCore c v).flashB z = s.flashB z := (rfl)
@[simp] theorem setCore_ctx (c : CoreId) (v : CoreS) (z : Nat) : (s.setCore c v).ctx z = s.ctx z := (rfl)
@[simp] theorem setCore_link (c : CoreId) (v : CoreS) (z : Nat) : (s.setCore c v).link z = s.link z := (rfl)
@[simp] theorem setCore_group (c : CoreId) (v : CoreS) (z : Nat) : (s.setCore c v).group z = s.group z := (rfl)
@[simp] theorem setCore_stack (c : CoreId) (v : CoreS) (z : Nat) : (s.setCore c v).stack z = s.stack z := (rfl)
@[simp] theorem modCore_reg (c : CoreId) (f : CoreS → CoreS) (z : Nat) : (s.modCore c f).reg z = s.reg z := (rfl)
@[simp] theorem modCore_fget (c : CoreId) (f : CoreS → CoreS) (z : Nat) (fd : Fd) : (s.modCore c f).fget z fd = s.fget z fd := (rfl)
@[simp] theorem modCore_flag (c : CoreId) (f : CoreS → CoreS) (z : Nat) (fd : Fd) : (s.modCore c f).flag z fd = s.flag z fd := (rfl)
@[simp] theorem modCore_run (c : CoreId) (f : CoreS → CoreS) (z : CoreId) : (s.modCore c f).run z = s.run z := (rfl)
@[simp] theorem modCore_coreCtx (c : CoreId) (f : CoreS → CoreS) (z : CoreId) : (s.modCore c f).coreCtx z = s.coreCtx z := (rfl)
@[simp] theorem modCore_rdBytes (c : CoreId) (f : CoreS → CoreS) (z l : Nat) : (s.modCore c f).rdBytes z l = s.rdBytes z l := (rfl)
@[simp] theorem modCore_rdB (c : CoreId) (f : CoreS → CoreS) (z : Nat) : (s.modCore c f).rdB z = s.rdB z := (rfl)
@[simp] theorem modCore_flashB (c : CoreId) (f : CoreS → CoreS) (z : Nat) : (s.modCore c f).flashB z = s.flashB z := (rfl)
@[simp] theorem modCore_ctx (c : CoreId) (f : CoreS → CoreS) (z : Nat) : (s.modCore c f).ctx z = s.ctx z := (rfl)
@[simp] theorem modCore_link (c : CoreId) (f : CoreS → CoreS) (z : Nat) : (s.modCore c f).link z = s.link z := (rfl)
@[simp] theorem modCore_group (c : CoreId) (f : CoreS → CoreS) (z : Nat) : (s.modCore c f).group z = s.group z := (rfl)
@[simp] theorem modCore_stack (c : CoreId) (f : CoreS → CoreS) (z : Nat) : (s.modCore c f).stack z = s.stack z := (rfl)
@[simp] theorem setCtx_reg (k : Nat) (v : CtxS) (z : Nat) : (s.setCtx k v).reg z = s.reg z := (rfl)
@[simp] theorem setCtx_fget (k : Nat) (v : CtxS) (z : Nat) (fd : Fd) : (s.setCtx k v).fget z fd = s.fget z fd := (rfl)
@[simp] theorem setCtx_flag (k : Nat) (v : CtxS) (z : Nat) (fd : Fd) : (s.setCtx k v).flag z fd = s.flag z fd := (rfl)
@[simp] theorem setCtx_run (k : Nat) (v : CtxS) (z : CoreId) : (s.setCtx k v).run z = s.run z := (rfl)
@[simp] theorem setCtx_coreCtx (k : Nat) (v : CtxS) (z : CoreId) : (s.setCtx k v).coreCtx z = s.coreCtx z := (rfl)
@[simp] theorem setCtx_rdBytes (k : Nat) (v : CtxS) (z l : Nat) : (s.setCtx k v).rdBytes z l = s.rdBytes z l := (rfl)
@[simp] theorem setCtx_rdB (k : Nat) (v : CtxS) (z : Nat) : (s.setCtx k v).rdB z = s.rdB z := (rfl)
@[simp] theorem setCtx_flashB (k : Nat) (v : CtxS) (z : Nat) : (s.setCtx k v).flashB z = s.flashB z := (rfl)
@[simp] theorem setCtx_core (k : Nat) (v : CtxS) (z : CoreId) : (s.setCtx k v).core z = s.core z := (rfl)
@[simp] theorem setCtx_link (k : Nat) (v : CtxS) (z : Nat) : (s.setCtx k v).link z = s.link z := (rfl)
@[simp] theorem setCtx_group (k : Nat) (v : CtxS) (z : Nat) : (s.setCtx k v).group z = s.group z := (rfl)
@[simp] theorem setCtx_stack (k : Nat) (v : CtxS) (z : Nat) : (s.setCtx k v).stack z = s.stack z := (rfl)
@[simp] theorem modCtx_reg (k : Nat) (f : CtxS → CtxS) (z : Nat) : (s.modCtx k f).reg z = s.reg z := (rfl)
@[simp] theorem modCtx_fget (k : Nat) (f : CtxS → CtxS) (z : Nat) (fd : Fd) : (s.modCtx k f).fget z fd = s.fget z fd := (rfl)
@[simp] theorem modCtx_flag (k : Nat) (f : CtxS → CtxS) (z : Nat) (fd : Fd) : (s.modCtx k f).flag z fd = s.flag z fd := (rfl)
@[simp] theorem modCtx_run (k : Nat) (f : CtxS → CtxS) (z : CoreId) : (s.modCtx k f).run z = s.run z := (rfl)
@[simp] theorem modCtx_coreCtx (k : Nat) (f : CtxS → CtxS) (z : CoreId) : (s.modCtx k f).coreCtx z = s.coreCtx z := (rfl)
@[simp] theorem modCtx_rdBytes (k : Nat) (f : CtxS → CtxS) (z l : Nat) : (s.modCtx k f).rdBytes z l = s.rdBytes z l := (rfl)
@[simp] theorem modCtx_rdB (k : Nat) (f : CtxS → CtxS) (z : Nat) : (s.modCtx k f).rdB z = s.rdB z := (rfl)
@[simp] theorem modCtx_flashB (k : Nat) (f : CtxS → CtxS) (z : Nat) : (s.modCtx k f).flashB z = s.flashB z := (rfl)
@[simp] theorem modCtx_core (k : Nat) (f : CtxS → CtxS) (z : CoreId) : (s.modCtx k f).core z = s.core z := (rfl)
@[simp] theorem modCtx_link (k : Nat) (f : CtxS → CtxS) (z : Nat) : (s.modCtx k f).link z = s.link z := (rfl)
@[simp] theorem modCtx_group (k : Nat) (f : CtxS → CtxS) (z : Nat) : (s.modCtx k f).group z = s.group z := (rfl)
@[simp] theorem modCtx_stack (k : Nat) (f : CtxS → CtxS) (z : Nat) : (s.modCtx k f).stack z = s.stack z := (rfl)
@[simp] theorem setLink_reg (m : Nat) (v : LinkS) (z : Nat) : (s.setLink m v).reg z = s.reg z := (rfl)
@[simp] theorem setLink_fget (m : Nat) (v : LinkS) (z : Nat) (fd : Fd) : (s.setLink m v).fget z fd = s.fget z fd := (rfl)
@[simp] theorem setLink_flag (m : Nat) (v : LinkS) (z : Nat) (fd : Fd) : (s.setLink m v).flag z fd = s.flag z fd := (rfl)
@[simp] theorem setLink_run (m : Nat) (v : LinkS) (z : CoreId) : (s.setLink m v).run z = s.run z := (rfl)
@[simp] theorem setLink_coreCtx (m : Nat) (v : LinkS) (z : CoreId) : (s.setLink m v).coreCtx z = s.coreCtx z := (rfl)
@[simp] theorem setLink_rdBytes (m : Nat) (v : LinkS) (z l : Nat) : (s.setLink m v).rdBytes z l = s.rdBytes z l := (rfl)
@[simp] theorem setLink_rdB (m : Nat) (v : LinkS) (z : Nat) : (s.setLink m v).rdB z = s.rdB z := (rfl)
@[simp] theorem setLink_flashB (m : Nat) (v : LinkS) (z : Nat) : (s.setLink m v).flashB z = s.flashB z := (rfl)
@[simp] theorem setLink_core (m : Nat) (v : LinkS) (z : CoreId) : (s.setLink m v).core z = s.core z := (rfl)
@[simp] theorem setLink_ctx (m : Nat) (v : LinkS) (z : Nat) : (s.setLink m v).ctx z = s.ctx z := (rfl)
@[simp] theorem setLink_group (m : Nat) (v : LinkS) (z : Nat) : (s.setLink m v).group z = s.group z := (rfl)
@[simp] theorem setLink_stack (m : Nat) (v : LinkS) (z : Nat) : (s.setLink m v).stack z = s.stack z := (rfl)
@[simp] theorem modLink_reg (m : Nat) (f : LinkS → LinkS) (z : Nat) : (s.modLink m f).reg z = s.reg z := (rfl)
@[simp] theorem modLink_fget (m : Nat) (f : LinkS → LinkS) (z : Nat) (fd : Fd) : (s.modLink m f).fget z fd = s.fget z fd := (rfl)
@[simp] theorem modLink_flag (m : Nat) (f : LinkS → LinkS) (z : Nat) (fd : Fd) : (s.modLink m f).flag z fd = s.flag z fd := (rfl)
@[simp] theorem modLink_run (m : Nat) (f : LinkS → LinkS) (z : CoreId) : (s.modLink m f).run z = s.run z := (rfl)
@[simp] theorem modLink_coreCtx (m : Nat) (f : LinkS → LinkS) (z : CoreId) : (s.modLink m f).coreCtx z = s.coreCtx z := (rfl)
@[simp] theorem modLink_rdBytes (m : Nat) (f : LinkS → LinkS) (z l : Nat) : (s.modLink m f).rdBytes z l = s.rdBytes z l := (rfl)
@[simp] theorem modLink_rdB (m : Nat) (f : LinkS → LinkS) (z : Nat) : (s.modLink m f).rdB z = s.rdB z := (rfl)
@[simp] theorem modLink_flashB (m : Nat) (f : LinkS → LinkS) (z : Nat) : (s.modLink m f).flashB z = s.flashB z := (rfl)
@[simp] theorem modLink_core (m : Nat) (f : LinkS → LinkS) (z : CoreId) : (s.modLink m f).core z = s.core z := (rfl)
@[simp] theorem modLink_ctx (m : Nat) (f : LinkS → LinkS) (z : Nat) : (s.modLink m f).ctx z = s.ctx z := (rfl)
@[simp] theorem modLink_group (m : Nat) (f : LinkS → LinkS) (z : Nat) : (s.modLink m f).group z = s.group z := (rfl)
@[simp] theorem modLink_stack (m : Nat) (f : LinkS → LinkS) (z : Nat) : (s.modLink m f).stack z = s.stack z := (rfl)
@[simp] theorem setGroup_reg (g : Nat) (v : GroupS) (z : Nat) : (s.setGroup g v).reg z = s.reg z := (rfl)
@[simp] theorem setGroup_fget (g : Nat) (v : GroupS) (z : Nat) (fd : Fd) : (s.setGroup g v).fget z fd = s.fget z fd := (rfl)
@[simp] theorem setGroup_flag (g : Nat) (v : GroupS) (z : Nat) (fd : Fd) : (s.setGroup g v).flag z fd = s.flag z fd := (rfl)
@[simp] theorem setGroup_run (g : Nat) (v : GroupS) (z : CoreId) : (s.setGroup g v).run z = s.run z := (rfl)
@[simp] theorem setGroup_coreCtx (g : Nat) (v : GroupS) (z : CoreId) : (s.setGroup g v).coreCtx z = s.coreCtx z := (rfl)
@[simp] theorem setGroup_rdBytes (g : Nat) (v : GroupS) (z l : Nat) : (s.setGroup g v).rdBytes z l = s.rdBytes z l := (rfl)
@[simp] theorem setGroup_rdB (g : Nat) (v : GroupS) (z : Nat) : (s.setGroup g v).rdB z = s.rdB z := (rfl)
@[simp] theorem setGroup_flashB (g : Nat) (v : GroupS) (z : Nat) : (s.setGroup g v).flashB z = s.flashB z := (rfl)
@[simp] theorem setGroup_core (g : Nat) (v : GroupS) (z : CoreId) : (s.setGroup g v).core z = s.core z := (rfl)
@[simp] theorem setGroup_ctx (g : Nat) (v : GroupS) (z : Nat) : (s.setGroup g v).ctx z = s.ctx z := (rfl)
@[simp] theorem setGroup_link (g : Nat) (v : GroupS) (z : Nat) : (s.setGroup g v).link z = s.link z := (rfl)
@[simp] theorem setGroup_stack (g : Nat) (v : GroupS) (z : Nat) : (s.setGroup g v).stack z = s.stack z := (rfl)
@[simp] theorem modGroup_reg (g : Nat) (f : GroupS → GroupS) (z : Nat) : (s.modGroup g f).reg z = s.reg z := (rfl)
@[simp] theorem modGroup_fget (g : Nat) (f : GroupS → GroupS) (z : Nat) (fd : Fd) : (s.modGroup g f).fget z fd = s.fget z fd := (rfl)
@[simp] theorem modGroup_flag (g : Nat) (f : GroupS → GroupS) (z : Nat) (fd : Fd) : (s.modGroup g f).flag z fd = s.flag z fd := (rfl)
@[simp] theorem modGroup_run (g : Nat) (f : GroupS → GroupS) (z : CoreId) : (s.modGroup g f).run z = s.run z := (rfl)
@[simp] theorem modGroup_coreCtx (g : Nat) (f : GroupS → GroupS) (z : CoreId) : (s.modGroup g f).coreCtx z = s.coreCtx z := (rfl)
@[simp] theorem modGroup_rdBytes (g : Nat) (f : GroupS → GroupS) (z l : Nat) : (s.modGroup g f).rdBytes z l = s.rdBytes z l := (rfl)
@[simp] theorem modGroup_rdB (g : Nat) (f : GroupS → GroupS) (z : Nat) : (s.modGroup g f).rdB z = s.rdB z := (rfl)
@[simp] theorem modGroup_flashB (g : Nat) (f : GroupS → GroupS) (z : Nat) : (s.modGroup g f).flashB z = s.flashB z := (rfl)
@[simp] theorem modGroup_core (g : Nat) (f : GroupS → GroupS) (z : CoreId) : (s.modGroup g f).core z = s.core z := (rfl)
@[simp] theorem modGroup_ctx (g : Nat) (f : GroupS → GroupS) (z : Nat) : (s.modGroup g f).ctx z = s.ctx z := (rfl)
@[simp] theorem modGroup_link (g : Nat) (f : GroupS → GroupS) (z : Nat) : (s.modGroup g f).link z = s.link z := (rfl)
@[simp] theorem modGroup_stack (g : Nat) (f : GroupS → GroupS) (z : Nat) : (s.modGroup g f).stack z = s.stack z := (rfl)
@[simp] theorem setStack_reg (k : Nat) (v : StackS) (z : Nat) : (s.setStack k v).reg z = s.reg z := (rfl)
@[simp] theorem setStack_fget (k : Nat) (v : StackS) (z : Nat) (fd : Fd) : (s.setStack k v).fget z fd = s.fget z fd := (rfl)
@[simp] theorem setStack_flag (k : Nat) (v : StackS) (z : Nat) (fd : Fd) : (s.setStack k v).flag z fd = s.flag z fd := (rfl)
@[simp] theorem setStack_run (k : Nat) (v : StackS) (z : CoreId) : (s.setStack k v).run z = s.run z := (rfl)
@[simp] theorem setStack_coreCtx (k : Nat) (v : StackS) (z : CoreId) : (s.setStack k v).coreCtx z = s.coreCtx z := (rfl)
@[simp] theorem setStack_rdBytes (k : Nat) (v : StackS) (z l : Nat) : (s.setStack k v).rdBytes z l = s.rdBytes z l := (rfl)
@[simp] theorem setStack_rdB (k : Nat) (v : StackS) (z : Nat) : (s.setStack k v).rdB z = s.rdB z := (rfl)
@[simp] theorem setStack_flashB (k : Nat) (v : StackS) (z : Nat) : (s.setStack k v).flashB z = s.flashB z := (rfl)
@[simp] theorem setStack_core (k : Nat) (v : StackS) (z : CoreId) : (s.setStack k v).core z = s.core z := (rfl)
@[simp] theorem setStack_ctx (k : Nat) (v : StackS) (z : Nat) : (s.setStack k v).ctx z = s.ctx z := (rfl)
@[simp] theorem setStack_link (k : Nat) (v : StackS) (z : Nat) : (s.setStack k v).link z = s.link z := (rfl)
@[simp] theorem setStack_group (k : Nat) (v : StackS) (z : Nat) : (s.setStack k v).group z = s.group z := (rfl)
@[simp] theorem modStack_reg (k : Nat) (f : StackS → StackS) (z : Nat) : (s.modStack k f).reg z = s.reg z := (rfl)
@[simp] theorem modStack_fget (k : Nat) (f : StackS → StackS) (z : Nat) (fd : Fd) : (s.modStack k f).fget z fd = s.fget z fd := (rfl)
@[simp] theorem modStack_flag (k : Nat) (f : StackS → StackS) (z : Nat) (fd : Fd) : (s.modStack k f).flag z fd = s.flag z fd := (rfl)
@[simp] theorem modStack_run (k : Nat) (f : StackS → StackS) (z : CoreId) : (s.modStack k f).run z = s.run z := (rfl)
@[simp] theorem modStack_coreCtx (k : Nat) (f : StackS → StackS) (z : CoreId) : (s.modStack k f).coreCtx z = s.coreCtx z := (rfl)
@[simp] theorem modStack_rdBytes (k : Nat) (f : StackS → StackS) (z l : Nat) : (s.modStack k f).rdBytes z l = s.rdBytes z l := (rfl)
@[simp] theorem modStack_rdB (k : Nat) (f : StackS → StackS) (z : Nat) : (s.modStack k f).rdB z = s.rdB z := (rfl)
@[simp] theorem modStack_flashB (k : Nat) (f : StackS → StackS) (z : Nat) : (s.modStack k f).flashB z = s.flashB z := (rfl)
@[simp] theorem modStack_core (k : Nat) (f : StackS → StackS) (z : CoreId) : (s.modStack k f).core z = s.core z := (rfl)
@[simp] theorem modStack_ctx (k : Nat) (f : StackS → StackS) (z : Nat) : (s.modStack k f).ctx z = s.ctx z := (rfl)
@[simp] theorem modStack_link (k : Nat) (f : StackS → StackS) (z : Nat) : (s.modStack k f).link z = s.link z := (rfl)
@[simp] theorem modStack_group (k : Nat) (f : StackS → StackS) (z : Nat) : (s.modStack k f).group z = s.group z := (rfl)
@[simp] theorem emit_reg (r : EvRec) (z : Nat) : (s.emit r).reg z = s.reg z := (rfl)
@[simp] theorem emit_fget (r : EvRec) (z : Nat) (fd : Fd) : (s.emit r).fget z fd = s.fget z fd := (rfl)
@[simp] theorem emit_flag (r : EvRec) (z : Nat) (fd : Fd) : (s.emit r).flag z fd = s.flag z fd := (rfl)
@[simp] theorem emit_run (r : EvRec) (z : CoreId) : (s.emit r).run z = s.run z := (rfl)
@[simp] theorem emit_coreCtx (r : EvRec) (z : CoreId) : (s.emit r).coreCtx z = s.coreCtx z := (rfl)
@[simp] theorem emit_rdBytes (r : EvRec) (z l : Nat) : (s.emit r).rdBytes z l = s.rdBytes z l := (rfl)
@[simp] theorem emit_rdB (r : EvRec) (z : Nat) : (s.emit r).rdB z = s.rdB z := (rfl)
@[simp] theorem emit_flashB (r : EvRec) (z : Nat) : (s.emit r).flashB z = s.flashB z := (rfl)
@[simp] theorem emit_core (r : EvRec) (z : CoreId) : (s.emit r).core z = s.core z := (rfl)
@[simp] theorem emit_ctx (r : EvRec) (z : Nat) : (s.emit r).ctx z = s.ctx z := (rfl)
@[simp] theorem emit_link (r : EvRec) (z : Nat) : (s.emit r).link z = s.link z := (rfl)
@[simp] theorem emit_group (r : EvRec) (z : Nat) : (s.emit r).group z = s.group z := (rfl)
@[simp] theorem emit_stack (r : EvRec) (z : Nat) : (s.emit r).stack z = s.stack z := (rfl)
@[simp] theorem bellAt_reg (x y i : Nat) (hdr : BitVec 32) (pay : List (BitVec 32)) (z : Nat) : (s.bellAt x y i hdr pay).reg z = s.reg z := (rfl)
@[simp] theorem bellAt_fget (x y i : Nat) (hdr : BitVec 32) (pay : List (BitVec 32)) (z : Nat) (fd : Fd) : (s.bellAt x y i hdr pay).fget z fd = s.fget z fd := (rfl)
@[simp] theorem bellAt_flag (x y i : Nat) (hdr : BitVec 32) (pay : List (BitVec 32)) (z : Nat) (fd : Fd) : (s.bellAt x y i hdr pay).flag z fd = s.flag z fd := (rfl)
@[simp] theorem bellAt_run (x y i : Nat) (hdr : BitVec 32) (pay : List (BitVec 32)) (z : CoreId) : (s.bellAt x y i hdr pay).run z = s.run z := (rfl)
@[simp] theorem bellAt_coreCtx (x y i : Nat) (hdr : BitVec 32) (pay : List (BitVec 32)) (z : CoreId) : (s.bellAt x y i hdr pay).coreCtx z = s.coreCtx z := (rfl)
@[simp] theorem bellAt_rdBytes (x y i : Nat) (hdr : BitVec 32) (pay : List (BitVec 32)) (z l : Nat) : (s.bellAt x y i hdr pay).rdBytes z l = s.rdBytes z l := (rfl)
@[simp] theorem bellAt_rdB (x y i : Nat) (hdr : BitVec 32) (pay : List (BitVec 32)) (z : Nat) : (s.bellAt x y i hdr pay).rdB z = s.rdB z := (rfl)
@[simp] theorem bellAt_flashB (x y i : Nat) (hdr : BitVec 32) (pay : List (BitVec 32)) (z : Nat) : (s.bellAt x y i hdr pay).flashB z = s.flashB z := (rfl)
@[simp] theorem bellAt_core (x y i : Nat) (hdr : BitVec 32) (pay : List (BitVec 32)) (z : CoreId) : (s.bellAt x y i hdr pay).core z = s.core z := (rfl)
@[simp] theorem bellAt_ctx (x y i : Nat) (hdr : BitVec 32) (pay : List (BitVec 32)) (z : Nat) : (s.bellAt x y i hdr pay).ctx z = s.ctx z := (rfl)
@[simp] theorem bellAt_link (x y i : Nat) (hdr : BitVec 32) (pay : List (BitVec 32)) (z : Nat) : (s.bellAt x y i hdr pay).link z = s.link z := (rfl)
@[simp] theorem bellAt_group (x y i : Nat) (hdr : BitVec 32) (pay : List (BitVec 32)) (z : Nat) : (s.bellAt x y i hdr pay).group z = s.group z := (rfl)
@[simp] theorem bellAt_stack (x y i : Nat) (hdr : BitVec 32) (pay : List (BitVec 32)) (z : Nat) : (s.bellAt x y i hdr pay).stack z = s.stack z := (rfl)
@[simp] theorem bellTake_reg (p : BellMsg → Bool) (z : Nat) : (s.bellTake p).reg z = s.reg z := (rfl)
@[simp] theorem bellTake_fget (p : BellMsg → Bool) (z : Nat) (fd : Fd) : (s.bellTake p).fget z fd = s.fget z fd := (rfl)
@[simp] theorem bellTake_flag (p : BellMsg → Bool) (z : Nat) (fd : Fd) : (s.bellTake p).flag z fd = s.flag z fd := (rfl)
@[simp] theorem bellTake_run (p : BellMsg → Bool) (z : CoreId) : (s.bellTake p).run z = s.run z := (rfl)
@[simp] theorem bellTake_coreCtx (p : BellMsg → Bool) (z : CoreId) : (s.bellTake p).coreCtx z = s.coreCtx z := (rfl)
@[simp] theorem bellTake_rdBytes (p : BellMsg → Bool) (z l : Nat) : (s.bellTake p).rdBytes z l = s.rdBytes z l := (rfl)
@[simp] theorem bellTake_rdB (p : BellMsg → Bool) (z : Nat) : (s.bellTake p).rdB z = s.rdB z := (rfl)
@[simp] theorem bellTake_flashB (p : BellMsg → Bool) (z : Nat) : (s.bellTake p).flashB z = s.flashB z := (rfl)
@[simp] theorem bellTake_core (p : BellMsg → Bool) (z : CoreId) : (s.bellTake p).core z = s.core z := (rfl)
@[simp] theorem bellTake_ctx (p : BellMsg → Bool) (z : Nat) : (s.bellTake p).ctx z = s.ctx z := (rfl)
@[simp] theorem bellTake_link (p : BellMsg → Bool) (z : Nat) : (s.bellTake p).link z = s.link z := (rfl)
@[simp] theorem bellTake_group (p : BellMsg → Bool) (z : Nat) : (s.bellTake p).group z = s.group z := (rfl)
@[simp] theorem bellTake_stack (p : BellMsg → Bool) (z : Nat) : (s.bellTake p).stack z = s.stack z := (rfl)
@[simp] theorem resetRegs_rdBytes (keep : Nat → Bool) (z l : Nat) : (s.resetRegs keep).rdBytes z l = s.rdBytes z l := (rfl)
@[simp] theorem resetRegs_rdB (keep : Nat → Bool) (z : Nat) : (s.resetRegs keep).rdB z = s.rdB z := (rfl)
@[simp] theorem resetRegs_flashB (keep : Nat → Bool) (z : Nat) : (s.resetRegs keep).flashB z = s.flashB z := (rfl)
@[simp] theorem resetRegs_core (keep : Nat → Bool) (z : CoreId) : (s.resetRegs keep).core z = s.core z := (rfl)
@[simp] theorem resetRegs_ctx (keep : Nat → Bool) (z : Nat) : (s.resetRegs keep).ctx z = s.ctx z := (rfl)
@[simp] theorem resetRegs_link (keep : Nat → Bool) (z : Nat) : (s.resetRegs keep).link z = s.link z := (rfl)
@[simp] theorem resetRegs_group (keep : Nat → Bool) (z : Nat) : (s.resetRegs keep).group z = s.group z := (rfl)
@[simp] theorem resetRegs_stack (keep : Nat → Bool) (z : Nat) : (s.resetRegs keep).stack z = s.stack z := (rfl)
@[simp] theorem flashErase_reg (a m : Nat) (z : Nat) : (s.flashErase a m).reg z = s.reg z := (rfl)
@[simp] theorem flashErase_fget (a m : Nat) (z : Nat) (fd : Fd) : (s.flashErase a m).fget z fd = s.fget z fd := (rfl)
@[simp] theorem flashErase_flag (a m : Nat) (z : Nat) (fd : Fd) : (s.flashErase a m).flag z fd = s.flag z fd := (rfl)
@[simp] theorem flashErase_run (a m : Nat) (z : CoreId) : (s.flashErase a m).run z = s.run z := (rfl)
@[simp] theorem flashErase_coreCtx (a m : Nat) (z : CoreId) : (s.flashErase a m).coreCtx z = s.coreCtx z := (rfl)
@[simp] theorem flashErase_rdBytes (a m : Nat) (z l : Nat) : (s.flashErase a m).rdBytes z l = s.rdBytes z l := (rfl)
@[simp] theorem flashErase_rdB (a m : Nat) (z : Nat) : (s.flashErase a m).rdB z = s.rdB z := (rfl)
@[simp] theorem flashErase_core (a m : Nat) (z : CoreId) : (s.flashErase a m).core z = s.core z := (rfl)
@[simp] theorem flashErase_ctx (a m : Nat) (z : Nat) : (s.flashErase a m).ctx z = s.ctx z := (rfl)
@[simp] theorem flashErase_link (a m : Nat) (z : Nat) : (s.flashErase a m).link z = s.link z := (rfl)
@[simp] theorem flashErase_group (a m : Nat) (z : Nat) : (s.flashErase a m).group z = s.group z := (rfl)
@[simp] theorem flashErase_stack (a m : Nat) (z : Nat) : (s.flashErase a m).stack z = s.stack z := (rfl)

end Sys2Proof.Machine
end

