-- ==== Sys2Proof/Laws/Ops.lean ====
section
/-! SUPPORT. Sys2Proof/Laws/Ops.lean: what the named operations over registers, memory and structured state do, said once for each. -/

namespace Sys2Proof.Machine

/-! ### Bit fields (R6) -/

/-- A field reads what was put into it, modulo its size. -/
theorem Fd.get_put (f : Fd) (w : Word) (v : Nat) (h1 : f.lo ≤ f.hi) (h2 : f.hi < 64) : f.get (f.put w v) = v % f.size := by
  have hs : f.size * 2 ^ f.lo ≤ 2 ^ 64 := by
    rw [Fd.size, ← pow_add]; exact Nat.pow_le_pow_right (by decide) (by omega)
  have hp : 0 < 2 ^ f.lo := Nat.pos_of_ne_zero (by positivity)
  have hz : 0 < f.size := Nat.pos_of_ne_zero (by unfold Fd.size; positivity)
  have hw := w.isLt
  unfold Fd.put Fd.get
  set n := w.toNat
  set p := 2 ^ f.lo
  set z := f.size
  set r := v % z with hr
  have hrz : r < z := Nat.mod_lt _ hz
  obtain ⟨hi, mid, lo, hn, hlo, hmid⟩ : ∃ hi mid lo, n = (hi * z + mid) * p + lo ∧ lo < p ∧ mid < z :=
    ⟨n / p / z, n / p % z, n % p, by rw [Nat.div_add_mod' (n / p) z, Nat.div_add_mod'], Nat.mod_lt _ hp, Nat.mod_lt _ hz⟩
  have hdiv : n / p = hi * z + mid := by
    rw [hn, Nat.add_comm, Nat.add_mul_div_right _ _ hp, Nat.div_eq_of_lt hlo, Nat.zero_add]
  have hget : n / p % z = mid := by
    rw [hdiv, Nat.add_comm, Nat.add_mul_mod_self_right, Nat.mod_eq_of_lt hmid]
  rw [hget]
  have e : n - mid * p + r * p = (hi * z + r) * p + lo := by
    rw [hn, Nat.add_mul, Nat.add_mul]; omega
  rw [e, BitVec.toNat_ofNat]
  have hb : (hi * z + r) * p + lo < 2 ^ 64 := by
    obtain ⟨q, hq⟩ : ∃ q, 2 ^ 64 = q * (z * p) := by
      refine ⟨2 ^ (64 - (f.hi + 1)), ?_⟩
      show 2 ^ 64 = 2 ^ (64 - (f.hi + 1)) * (2 ^ (f.hi + 1 - f.lo) * 2 ^ f.lo)
      rw [← pow_add, ← pow_add]; congr 1; omega
    have hhi : hi < q := by
      by_contra hc
      have : q * (z * p) ≤ hi * (z * p) := Nat.mul_le_mul_right _ (Nat.le_of_not_lt hc)
      have : n ≥ hi * (z * p) := by rw [hn, Nat.add_mul, Nat.mul_assoc]; omega
      omega
    have h3 : (r + 1) * p ≤ z * p := Nat.mul_le_mul_right _ hrz
    have h4 : (hi + 1) * (z * p) ≤ q * (z * p) := Nat.mul_le_mul_right _ hhi
    rw [Nat.add_mul, Nat.one_mul] at h3 h4
    rw [Nat.add_mul, Nat.mul_assoc]
    omega
  rw [Nat.mod_eq_of_lt hb, Nat.add_comm, Nat.add_mul_div_right _ _ hp, Nat.div_eq_of_lt hlo, Nat.zero_add, Nat.add_comm,
    Nat.add_mul_mod_self_right, Nat.mod_eq_of_lt hrz]

/-! ### Registers -/

variable (s : State)

@[simp] theorem reg_setReg_same (a : Nat) (v : Word) : (s.setReg a v).reg a = v := sget_sset_same _ _ _ _

theorem reg_setReg_other {a b : Nat} (v : Word) (h : b ≠ a) : (s.setReg a v).reg b = s.reg b := sget_sset_other _ _ _ _ _ h

theorem reg_setReg (a b : Nat) (v : Word) : (s.setReg a v).reg b = if b = a then v else s.reg b := by
  split_ifs with h
  · rw [h, reg_setReg_same]
  · exact reg_setReg_other s v h

@[simp] theorem reg_fput_same (a : Nat) (f : Fd) (v : Nat) : (s.fput a f v).reg a = f.put (s.reg a) v := reg_setReg_same s _ _

theorem reg_fput_other {a b : Nat} (f : Fd) (v : Nat) (h : b ≠ a) : (s.fput a f v).reg b = s.reg b := reg_setReg_other s _ h

@[simp] theorem reg_count_same (a n : Nat) : (s.count a n).reg a = s.reg a + BitVec.ofNat 64 n := reg_setReg_same s _ _

theorem reg_count_other {a b : Nat} (n : Nat) (h : b ≠ a) : (s.count a n).reg b = s.reg b := reg_setReg_other s _ h

theorem fget_fput_same (a : Nat) (f : Fd) (v : Nat) (h1 : f.lo ≤ f.hi) (h2 : f.hi < 64) :
    (s.fput a f v).fget a f = v % f.size := by
  rw [State.fget, reg_fput_same, Fd.get_put f _ v h1 h2]

theorem fget_fput_other {a b : Nat} (f g : Fd) (v : Nat) (h : b ≠ a) : (s.fput a f v).fget b g = s.fget b g := by
  rw [State.fget, reg_fput_other s f v h, State.fget]

/-! ### Structured state by number -/

theorem CoreId.idx_inj {c d : CoreId} (h : c.idx = d.idx) : c = d := by
  obtain ⟨⟨h1, p1⟩, ⟨r1, q1⟩, ⟨k1, t1⟩⟩ := c
  obtain ⟨⟨h2, p2⟩, ⟨r2, q2⟩, ⟨k2, t2⟩⟩ := d
  simp only [CoreId.idx] at h
  have hh : h1 = h2 := by omega
  have hr : r1 = r2 := by omega
  have hk : k1 = k2 := by omega
  subst hh hr hk
  rfl

@[simp] theorem core_setCore_same (c : CoreId) (v : CoreS) : (s.setCore c v).core c = v := sget_sset_same _ _ _ _

theorem core_setCore_other {c d : CoreId} (v : CoreS) (h : d ≠ c) : (s.setCore c v).core d = s.core d :=
  sget_sset_other _ _ _ _ _ fun e => h (CoreId.idx_inj e)

@[simp] theorem core_modCore_same (c : CoreId) (f : CoreS → CoreS) : (s.modCore c f).core c = f (s.core c) :=
  core_setCore_same s c _

theorem core_modCore_other {c d : CoreId} (f : CoreS → CoreS) (h : d ≠ c) : (s.modCore c f).core d = s.core d :=
  core_setCore_other s _ h

@[simp] theorem ctx_setCtx_same (k : Nat) (v : CtxS) : (s.setCtx k v).ctx k = v := sget_sset_same _ _ _ _

theorem ctx_setCtx_other {k j : Nat} (v : CtxS) (h : j ≠ k) : (s.setCtx k v).ctx j = s.ctx j := sget_sset_other _ _ _ _ _ h

@[simp] theorem ctx_modCtx_same (k : Nat) (f : CtxS → CtxS) : (s.modCtx k f).ctx k = f (s.ctx k) := ctx_setCtx_same s k _

theorem ctx_modCtx_other {k j : Nat} (f : CtxS → CtxS) (h : j ≠ k) : (s.modCtx k f).ctx j = s.ctx j := ctx_setCtx_other s _ h

@[simp] theorem link_setLink_same (n : Nat) (v : LinkS) : (s.setLink n v).link n = v := sget_sset_same _ _ _ _

theorem link_setLink_other {n m : Nat} (v : LinkS) (h : m ≠ n) : (s.setLink n v).link m = s.link m := sget_sset_other _ _ _ _ _ h

@[simp] theorem link_modLink_same (n : Nat) (f : LinkS → LinkS) : (s.modLink n f).link n = f (s.link n) := link_setLink_same s n _

theorem link_modLink_other {n m : Nat} (f : LinkS → LinkS) (h : m ≠ n) : (s.modLink n f).link m = s.link m :=
  link_setLink_other s _ h

@[simp] theorem group_setGroup_same (g : Nat) (v : GroupS) : (s.setGroup g v).group g = v := sget_sset_same _ _ _ _

theorem group_setGroup_other {g j : Nat} (v : GroupS) (h : j ≠ g) : (s.setGroup g v).group j = s.group j :=
  sget_sset_other _ _ _ _ _ h

@[simp] theorem group_modGroup_same (g : Nat) (f : GroupS → GroupS) : (s.modGroup g f).group g = f (s.group g) :=
  group_setGroup_same s g _

theorem group_modGroup_other {g j : Nat} (f : GroupS → GroupS) (h : j ≠ g) : (s.modGroup g f).group j = s.group j :=
  group_setGroup_other s _ h

@[simp] theorem stack_setStack_same (k : Nat) (v : StackS) : (s.setStack k v).stack k = v := sget_sset_same _ _ _ _

theorem stack_setStack_other {k j : Nat} (v : StackS) (h : j ≠ k) : (s.setStack k v).stack j = s.stack j :=
  sget_sset_other _ _ _ _ _ h

@[simp] theorem stack_modStack_same (k : Nat) (f : StackS → StackS) : (s.modStack k f).stack k = f (s.stack k) :=
  stack_setStack_same s k _

/-! ### Memory -/

@[simp] theorem rdB_wrB_same (a : Nat) (b : Byte) : (s.wrB a b).rdB a = b := sget_sset_same _ _ _ _

theorem rdB_wrB_other {a x : Nat} (b : Byte) (h : x ≠ a) : (s.wrB a b).rdB x = s.rdB x := sget_sset_other _ _ _ _ _ h

/-- A run of bytes leaves every byte outside it as it was. -/
theorem rdB_wrBytes_other (b : Bytes) : ∀ (s : State) (a x : Nat), (x < a ∨ a + b.length ≤ x) → (s.wrBytes a b).rdB x = s.rdB x := by
  induction b with
  | nil => intro s a x _; rfl
  | cons y b ih =>
    intro s a x h
    rw [List.length_cons] at h
    show ((s.wrB a y).wrBytes (a + 1) b).rdB x = s.rdB x
    rw [ih _ _ _ (by omega), rdB_wrB_other s y (by omega)]

/-- A run of bytes reads back. -/
theorem rdB_wrBytes_in (b : Bytes) :
    ∀ (s : State) (a i : Nat) (h : i < b.length), (s.wrBytes a b).rdB (a + i) = b[i] := by
  induction b with
  | nil => intro s a i h; simp at h
  | cons y b ih =>
    intro s a i h
    show ((s.wrB a y).wrBytes (a + 1) b).rdB (a + i) = _
    cases i with
    | zero => rw [rdB_wrBytes_other _ _ _ _ (by omega)]; simp
    | succ i =>
      have : a + (i + 1) = a + 1 + i := by omega
      rw [this, ih _ _ _ (by simpa using h)]; simp

theorem rdBytes_wrBytes (s : State) (a : Nat) (b : Bytes) : (s.wrBytes a b).rdBytes a b.length = b := by
  refine List.ext_getElem (by simp [State.rdBytes]) fun i h1 h2 => ?_
  simp only [State.rdBytes, List.getElem_map, List.getElem_range]
  exact rdB_wrBytes_in b s a i h2

theorem rdBytes_wrBytes_other (s : State) (a x n : Nat) (b : Bytes) (h : x + n ≤ a ∨ a + b.length ≤ x) :
    (s.wrBytes a b).rdBytes x n = s.rdBytes x n := by
  refine List.map_congr_left fun i hi => ?_
  have : i < n := List.mem_range.1 hi
  exact rdB_wrBytes_other _ _ _ _ (by omega)

/-! A run of bytes is a change of memory alone. -/

theorem wrBytes_eq (b : Bytes) : ∀ (s : State) (a : Nat), s.wrBytes a b = { s with mem := (s.wrBytes a b).mem } := by
  induction b with
  | nil => intro s a; rfl
  | cons y b ih => intro s a; show (s.wrB a y).wrBytes (a + 1) b = _; rw [ih]; rfl

@[simp] theorem wrBytes_regs (a : Nat) (b : Bytes) : (s.wrBytes a b).regs = s.regs := by rw [wrBytes_eq]
@[simp] theorem wrBytes_reg (a : Nat) (b : Bytes) (z : Nat) : (s.wrBytes a b).reg z = s.reg z := by rw [wrBytes_eq]; rfl
@[simp] theorem wrBytes_cores (a : Nat) (b : Bytes) : (s.wrBytes a b).cores = s.cores := by rw [wrBytes_eq]
@[simp] theorem wrBytes_core (a : Nat) (b : Bytes) (z : CoreId) : (s.wrBytes a b).core z = s.core z := by rw [wrBytes_eq]; rfl
@[simp] theorem wrBytes_poison (a : Nat) (b : Bytes) : (s.wrBytes a b).poison = s.poison := by rw [wrBytes_eq]
@[simp] theorem wrBytes_flash (a : Nat) (b : Bytes) : (s.wrBytes a b).flash = s.flash := by rw [wrBytes_eq]
@[simp] theorem wrBytes_pending (a : Nat) (b : Bytes) : (s.wrBytes a b).pending = s.pending := by rw [wrBytes_eq]

/-! ### Every operation on memory keeps its canonical form -/

theorem wf_wrB (a : Nat) (b : Byte) (h : Memory.wf s.mem = true) : Memory.wf (s.wrB a b).mem = true := swf_sset _ _ _ _ h

theorem wf_wrBytes (b : Bytes) : ∀ (s : State) (a : Nat), Memory.wf s.mem = true → Memory.wf (s.wrBytes a b).mem = true := by
  induction b with
  | nil => intro s a h; exact h
  | cons y b ih => intro s a h; exact ih _ _ (wf_wrB s a y h)

theorem wf_wrHbm (a : Nat) (b : Bytes) (h : Memory.wf s.mem = true) : Memory.wf (s.wrHbm a b).mem = true := wf_wrBytes b s a h

/-- Taking entries away keeps a canonical form. -/
theorem swf_filter {α : Type} [DecidableEq α] (d : Nat → α) (m : List (Nat × α)) (p : Nat × α → Bool) (h : swf d m = true) :
    swf d (m.filter p) = true := by
  simp only [swf, Bool.and_eq_true, decide_eq_true_eq, List.all_eq_true] at h ⊢
  exact ⟨h.1.filter p, fun e he => h.2 e (List.mem_of_mem_filter he)⟩

theorem swf_nil {α : Type} [DecidableEq α] (d : Nat → α) : swf d [] = true := rfl

/-- The flash keeps its canonical form under programming and erasing. -/
theorem swf_flashWr (b : Bytes) : ∀ (s : State) (a : Nat), swf (fun _ => (0xFF : Byte)) s.flash = true →
    swf (fun _ => (0xFF : Byte)) (s.flashWr a b).flash = true := by
  induction b with
  | nil => intro s a h; exact h
  | cons y b ih => intro s a h; exact ih _ _ (swf_sset _ _ _ _ h)

theorem swf_flashErase (a n : Nat) (h : swf (fun _ => (0xFF : Byte)) s.flash = true) :
    swf (fun _ => (0xFF : Byte)) (s.flashErase a n).flash = true := swf_filter _ _ _ h

end Sys2Proof.Machine
end

