-- ==== Sys2Proof/Laws/Core.lean ====
section
/-! SUPPORT. Sys2Proof/Laws/Core.lean: what the shared operations of a core's instructions do. -/

-- One proof at a time: proofs that wait for one equation of a definition would each keep a thread and its stack.
set_option Elab.async false

namespace Sys2Proof.Machine

variable (s : State)

/-! ### Asking a core to stop, and a single step, change the cores' structured state alone -/

@[simp] theorem askStop_pending (c : CoreId) (k : StopCause) : (s.askStop c k).pending = s.pending := (rfl)
@[simp] theorem askStop_regs (c : CoreId) (k : StopCause) : (s.askStop c k).regs = s.regs := (rfl)
@[simp] theorem askStop_mem (c : CoreId) (k : StopCause) : (s.askStop c k).mem = s.mem := (rfl)
@[simp] theorem askStop_poison (c : CoreId) (k : StopCause) : (s.askStop c k).poison = s.poison := (rfl)
@[simp] theorem askStop_flash (c : CoreId) (k : StopCause) : (s.askStop c k).flash = s.flash := (rfl)
@[simp] theorem askStop_now (c : CoreId) (k : StopCause) : (s.askStop c k).now = s.now := (rfl)
@[simp] theorem askStop_cc (c : CoreId) (k : StopCause) : (s.askStop c k).cc = s.cc := (rfl)
@[simp] theorem askStop_slot (c : CoreId) (k : StopCause) : (s.askStop c k).slot = s.slot := (rfl)
@[simp] theorem askStop_ctxs (c : CoreId) (k : StopCause) : (s.askStop c k).ctxs = s.ctxs := (rfl)
@[simp] theorem askStop_hbm (c : CoreId) (k : StopCause) : (s.askStop c k).hbm = s.hbm := (rfl)
@[simp] theorem askStop_links (c : CoreId) (k : StopCause) : (s.askStop c k).links = s.links := (rfl)
@[simp] theorem askStop_groups (c : CoreId) (k : StopCause) : (s.askStop c k).groups = s.groups := (rfl)
@[simp] theorem askStop_sem (c : CoreId) (k : StopCause) : (s.askStop c k).sem = s.sem := (rfl)
@[simp] theorem askStop_bell (c : CoreId) (k : StopCause) : (s.askStop c k).bell = s.bell := (rfl)
@[simp] theorem askStop_bellServed (c : CoreId) (k : StopCause) : (s.askStop c k).bellServed = s.bellServed := (rfl)
@[simp] theorem askStop_beats (c : CoreId) (k : StopCause) : (s.askStop c k).beats = s.beats := (rfl)
@[simp] theorem askStop_pond (c : CoreId) (k : StopCause) : (s.askStop c k).pond = s.pond := (rfl)
@[simp] theorem askStop_host (c : CoreId) (k : StopCause) : (s.askStop c k).host = s.host := (rfl)
@[simp] theorem askStop_ebc (c : CoreId) (k : StopCause) : (s.askStop c k).ebc = s.ebc := (rfl)
@[simp] theorem askStop_hearth (c : CoreId) (k : StopCause) : (s.askStop c k).hearth = s.hearth := (rfl)
@[simp] theorem askStop_log (c : CoreId) (k : StopCause) : (s.askStop c k).log = s.log := (rfl)
@[simp] theorem askStop_dump (c : CoreId) (k : StopCause) : (s.askStop c k).dump = s.dump := (rfl)
@[simp] theorem askStop_snapPend (c : CoreId) (k : StopCause) : (s.askStop c k).snapPend = s.snapPend := (rfl)
@[simp] theorem askStop_inval (c : CoreId) (k : StopCause) : (s.askStop c k).inval = s.inval := (rfl)
@[simp] theorem askStop_sent (c : CoreId) (k : StopCause) : (s.askStop c k).sent = s.sent := (rfl)
@[simp] theorem askStop_free (c : CoreId) (k : StopCause) : (s.askStop c k).free = s.free := (rfl)
@[simp] theorem askStop_reg (c : CoreId) (k : StopCause) (z : Nat) : (s.askStop c k).reg z = s.reg z := (rfl)
@[simp] theorem askStop_fget (c : CoreId) (k : StopCause) (z : Nat) (fd : Fd) : (s.askStop c k).fget z fd = s.fget z fd := (rfl)
@[simp] theorem askStop_flag (c : CoreId) (k : StopCause) (z : Nat) (fd : Fd) : (s.askStop c k).flag z fd = s.flag z fd := (rfl)
@[simp] theorem askStop_run (c : CoreId) (k : StopCause) (z : CoreId) : (s.askStop c k).run z = s.run z := (rfl)
@[simp] theorem askStop_coreCtx (c : CoreId) (k : StopCause) (z : CoreId) : (s.askStop c k).coreCtx z = s.coreCtx z := (rfl)
@[simp] theorem askStop_rdBytes (c : CoreId) (k : StopCause) (z l : Nat) : (s.askStop c k).rdBytes z l = s.rdBytes z l := (rfl)
@[simp] theorem askStop_rdB (c : CoreId) (k : StopCause) (z : Nat) : (s.askStop c k).rdB z = s.rdB z := (rfl)
@[simp] theorem askStop_ctx (c : CoreId) (k : StopCause) (z : Nat) : (s.askStop c k).ctx z = s.ctx z := (rfl)
@[simp] theorem askStop_link (c : CoreId) (k : StopCause) (z : Nat) : (s.askStop c k).link z = s.link z := (rfl)
@[simp] theorem askStop_group (c : CoreId) (k : StopCause) (z : Nat) : (s.askStop c k).group z = s.group z := (rfl)
@[simp] theorem stepped_pending (c : CoreId) : (s.stepped c).pending = s.pending := by unfold State.stepped; split <;> simp
@[simp] theorem stepped_regs (c : CoreId) : (s.stepped c).regs = s.regs := by unfold State.stepped; split <;> simp
@[simp] theorem stepped_mem (c : CoreId) : (s.stepped c).mem = s.mem := by unfold State.stepped; split <;> simp
@[simp] theorem stepped_poison (c : CoreId) : (s.stepped c).poison = s.poison := by unfold State.stepped; split <;> simp
@[simp] theorem stepped_flash (c : CoreId) : (s.stepped c).flash = s.flash := by unfold State.stepped; split <;> simp
@[simp] theorem stepped_now (c : CoreId) : (s.stepped c).now = s.now := by unfold State.stepped; split <;> simp
@[simp] theorem stepped_cc (c : CoreId) : (s.stepped c).cc = s.cc := by unfold State.stepped; split <;> simp
@[simp] theorem stepped_slot (c : CoreId) : (s.stepped c).slot = s.slot := by unfold State.stepped; split <;> simp
@[simp] theorem stepped_ctxs (c : CoreId) : (s.stepped c).ctxs = s.ctxs := by unfold State.stepped; split <;> simp
@[simp] theorem stepped_hbm (c : CoreId) : (s.stepped c).hbm = s.hbm := by unfold State.stepped; split <;> simp
@[simp] theorem stepped_links (c : CoreId) : (s.stepped c).links = s.links := by unfold State.stepped; split <;> simp
@[simp] theorem stepped_groups (c : CoreId) : (s.stepped c).groups = s.groups := by unfold State.stepped; split <;> simp
@[simp] theorem stepped_sem (c : CoreId) : (s.stepped c).sem = s.sem := by unfold State.stepped; split <;> simp
@[simp] theorem stepped_bell (c : CoreId) : (s.stepped c).bell = s.bell := by unfold State.stepped; split <;> simp
@[simp] theorem stepped_bellServed (c : CoreId) : (s.stepped c).bellServed = s.bellServed := by unfold State.stepped; split <;> simp
@[simp] theorem stepped_beats (c : CoreId) : (s.stepped c).beats = s.beats := by unfold State.stepped; split <;> simp
@[simp] theorem stepped_pond (c : CoreId) : (s.stepped c).pond = s.pond := by unfold State.stepped; split <;> simp
@[simp] theorem stepped_host (c : CoreId) : (s.stepped c).host = s.host := by unfold State.stepped; split <;> simp
@[simp] theorem stepped_ebc (c : CoreId) : (s.stepped c).ebc = s.ebc := by unfold State.stepped; split <;> simp
@[simp] theorem stepped_hearth (c : CoreId) : (s.stepped c).hearth = s.hearth := by unfold State.stepped; split <;> simp
@[simp] theorem stepped_log (c : CoreId) : (s.stepped c).log = s.log := by unfold State.stepped; split <;> simp
@[simp] theorem stepped_dump (c : CoreId) : (s.stepped c).dump = s.dump := by unfold State.stepped; split <;> simp
@[simp] theorem stepped_snapPend (c : CoreId) : (s.stepped c).snapPend = s.snapPend := by unfold State.stepped; split <;> simp
@[simp] theorem stepped_inval (c : CoreId) : (s.stepped c).inval = s.inval := by unfold State.stepped; split <;> simp
@[simp] theorem stepped_sent (c : CoreId) : (s.stepped c).sent = s.sent := by unfold State.stepped; split <;> simp
@[simp] theorem stepped_free (c : CoreId) : (s.stepped c).free = s.free := by unfold State.stepped; split <;> simp
@[simp] theorem stepped_reg (c : CoreId) (z : Nat) : (s.stepped c).reg z = s.reg z := by unfold State.stepped; split <;> simp
@[simp] theorem stepped_fget (c : CoreId) (z : Nat) (fd : Fd) : (s.stepped c).fget z fd = s.fget z fd := by unfold State.stepped; split <;> simp
@[simp] theorem stepped_flag (c : CoreId) (z : Nat) (fd : Fd) : (s.stepped c).flag z fd = s.flag z fd := by unfold State.stepped; split <;> simp
@[simp] theorem stepped_run (c : CoreId) (z : CoreId) : (s.stepped c).run z = s.run z := by unfold State.stepped; split <;> simp
@[simp] theorem stepped_coreCtx (c : CoreId) (z : CoreId) : (s.stepped c).coreCtx z = s.coreCtx z := by unfold State.stepped; split <;> simp
@[simp] theorem stepped_rdBytes (c : CoreId) (z l : Nat) : (s.stepped c).rdBytes z l = s.rdBytes z l := by unfold State.stepped; split <;> simp
@[simp] theorem stepped_rdB (c : CoreId) (z : Nat) : (s.stepped c).rdB z = s.rdB z := by unfold State.stepped; split <;> simp
@[simp] theorem stepped_ctx (c : CoreId) (z : Nat) : (s.stepped c).ctx z = s.ctx z := by unfold State.stepped; split <;> simp
@[simp] theorem stepped_link (c : CoreId) (z : Nat) : (s.stepped c).link z = s.link z := by unfold State.stepped; split <;> simp
@[simp] theorem stepped_group (c : CoreId) (z : Nat) : (s.stepped c).group z = s.group z := by unfold State.stepped; split <;> simp

/-! ### An instruction's row -/

/-- A row acts with its whole effect when the core can issue, nothing waits to be restarted, the encoding is assigned and no fault is met. -/
theorem issueOne_acts {s : State} {c : CoreId} {i : Instr} {fault : State → Option EvRec} {eff : State → State} (hr : Ready s c)
    (hw : i.wf = true) (hf : fault s = none) : s.issueOne c i fault eff = (eff s).stepped c := by
  have hfl : s.flushRestart c = s := by rw [State.flushRestart, hr.2]; rfl
  simp [State.issueOne, hr.1, hw, hfl, hf]

/-- A row whose operands meet a fault raises it and has no other effect. -/
theorem issueOne_faults {s : State} {c : CoreId} {i : Instr} {fault : State → Option EvRec} {eff : State → State} {r : EvRec}
    (hr : Ready s c) (hw : i.wf = true) (hf : fault s = some r) : s.issueOne c i fault eff = s.faultCore c r := by
  have hfl : s.flushRestart c = s := by rw [State.flushRestart, hr.2]; rfl
  simp [State.issueOne, hr.1, hw, hfl, hf]

/-- A row with a reserved encoding raises ILLEGAL_INSTR and has no other effect. -/
theorem issueOne_illegal {s : State} {c : CoreId} {i : Instr} {fault : State → Option EvRec} {eff : State → State} (hr : Ready s c)
    (hw : i.wf = false) : s.issueOne c i fault eff = s.faultCore c (s.illegal c) := by
  simp [State.issueOne, hr.1, hw]

/-- A row does nothing on a core that cannot issue. -/
theorem issueOne_idle {s : State} {c : CoreId} {i : Instr} {fault : State → Option EvRec} {eff : State → State}
    (h : s.canIssue c = false) : s.issueOne c i fault eff = s := by
  simp [State.issueOne, h]

/-! ### Register writes as frames -/

theorem writesReg_setReg (a : Nat) (v : Word) : WritesReg a v s (s.setReg a v) :=
  ⟨reg_setReg_same s a v, fun _ h => reg_setReg_other s v h, fun _ => rfl⟩

theorem writesReg_stepped {s t : State} {a : Nat} {v : Word} (c : CoreId) (h : WritesReg a v s t) : WritesReg a v s (t.stepped c) :=
  ⟨by simpa using h.1, fun b hb => by simpa using h.2.1 b hb, fun b => by simpa using h.2.2 b⟩

/-! ### Rows as statements -/

variable {s} {c : CoreId} {i : Instr} {fault : State → Option EvRec} {eff : State → State} {P : State → Prop}

/-- A row that acts: what holds of its effect holds of the next state. -/
theorem runs_acts (hx : exec i s = .next (s.issueOne c i fault eff)) (hr : Ready s c) (hw : i.wf = true) (hf : fault s = none)
    (he : P ((eff s).stepped c)) : Runs i s P := ⟨_, hx, by rw [issueOne_acts hr hw hf]; exact he⟩

/-- A row that writes one register. -/
theorem runs_writes {a : Nat} {v : Word} (hx : exec i s = .next (s.issueOne c i fault eff)) (hr : Ready s c) (hw : i.wf = true)
    (hf : fault s = none) (he : eff s = s.setReg a v) : Runs i s (WritesReg a v s) :=
  runs_acts hx hr hw hf (he ▸ writesReg_stepped c (writesReg_setReg s a v))

/-- A row that faults. -/
theorem runs_faults {r : EvRec} (hx : exec i s = .next (s.issueOne c i fault eff)) (hr : Ready s c) (hw : i.wf = true)
    (hf : fault s = some r) (he : P (s.faultCore c r)) : Runs i s P := ⟨_, hx, by rw [issueOne_faults hr hw hf]; exact he⟩

variable (s)

/-! ### Vector registers -/

theorem rV_inj {c : CoreId} {k m n : Nat} (h : rV c k m = rV c k n) : m = n := by unfold rV at h; omega

/-- Writing the parts of a vector register writes nothing else. -/
theorem reg_setVParts_other (c : CoreId) (k : Nat) (b : Bytes) :
    ∀ (l : List Nat) (s : State) (a : Nat), (∀ m ∈ l, a ≠ rV c k m) → (s.setVParts c k b l).reg a = s.reg a := by
  intro l
  induction l with
  | nil => intro s a _; rfl
  | cons m l ih =>
    intro s a h
    rw [State.setVParts, ih _ _ fun n hn => h n (List.mem_cons_of_mem _ hn), reg_setReg_other s _ (h m List.mem_cons_self)]

/-- Every part of a vector register is written. -/
theorem reg_setVParts_in (c : CoreId) (k : Nat) (b : Bytes) :
    ∀ (l : List Nat) (s : State) (m : Nat), m ∈ l → (s.setVParts c k b l).reg (rV c k m) = BitVec.ofNat 64 (leAt b (8 * m) 8) := by
  intro l
  induction l with
  | nil => intro s m h; simp at h
  | cons n l ih =>
    intro s m h
    rw [State.setVParts]
    by_cases hm : m ∈ l
    · exact ih _ m hm
    · have : m = n := by simpa [hm] using h
      subst this
      rw [reg_setVParts_other _ _ _ _ _ _ fun j hj e => hm (by rw [rV_inj e]; exact hj), reg_setReg_same]

@[simp] theorem setVParts_pending (c : CoreId) (k : Nat) (b : Bytes) (l : List Nat) : ∀ s : State, (s.setVParts c k b l).pending = s.pending := by
  induction l with
  | nil => intro s; rfl
  | cons m l ih => intro s; rw [State.setVParts, ih, setReg_pending]

@[simp] theorem setVParts_mem (c : CoreId) (k : Nat) (b : Bytes) (l : List Nat) : ∀ s : State, (s.setVParts c k b l).mem = s.mem := by
  induction l with
  | nil => intro s; rfl
  | cons m l ih => intro s; rw [State.setVParts, ih, setReg_mem]

@[simp] theorem setVParts_poison (c : CoreId) (k : Nat) (b : Bytes) (l : List Nat) : ∀ s : State, (s.setVParts c k b l).poison = s.poison := by
  induction l with
  | nil => intro s; rfl
  | cons m l ih => intro s; rw [State.setVParts, ih, setReg_poison]

@[simp] theorem setVParts_flash (c : CoreId) (k : Nat) (b : Bytes) (l : List Nat) : ∀ s : State, (s.setVParts c k b l).flash = s.flash := by
  induction l with
  | nil => intro s; rfl
  | cons m l ih => intro s; rw [State.setVParts, ih, setReg_flash]

@[simp] theorem setVParts_now (c : CoreId) (k : Nat) (b : Bytes) (l : List Nat) : ∀ s : State, (s.setVParts c k b l).now = s.now := by
  induction l with
  | nil => intro s; rfl
  | cons m l ih => intro s; rw [State.setVParts, ih, setReg_now]

@[simp] theorem setVParts_cc (c : CoreId) (k : Nat) (b : Bytes) (l : List Nat) : ∀ s : State, (s.setVParts c k b l).cc = s.cc := by
  induction l with
  | nil => intro s; rfl
  | cons m l ih => intro s; rw [State.setVParts, ih, setReg_cc]

@[simp] theorem setVParts_slot (c : CoreId) (k : Nat) (b : Bytes) (l : List Nat) : ∀ s : State, (s.setVParts c k b l).slot = s.slot := by
  induction l with
  | nil => intro s; rfl
  | cons m l ih => intro s; rw [State.setVParts, ih, setReg_slot]

@[simp] theorem setVParts_cores (c : CoreId) (k : Nat) (b : Bytes) (l : List Nat) : ∀ s : State, (s.setVParts c k b l).cores = s.cores := by
  induction l with
  | nil => intro s; rfl
  | cons m l ih => intro s; rw [State.setVParts, ih, setReg_cores]

@[simp] theorem setVParts_ctxs (c : CoreId) (k : Nat) (b : Bytes) (l : List Nat) : ∀ s : State, (s.setVParts c k b l).ctxs = s.ctxs := by
  induction l with
  | nil => intro s; rfl
  | cons m l ih => intro s; rw [State.setVParts, ih, setReg_ctxs]

@[simp] theorem setVParts_hbm (c : CoreId) (k : Nat) (b : Bytes) (l : List Nat) : ∀ s : State, (s.setVParts c k b l).hbm = s.hbm := by
  induction l with
  | nil => intro s; rfl
  | cons m l ih => intro s; rw [State.setVParts, ih, setReg_hbm]

@[simp] theorem setVParts_links (c : CoreId) (k : Nat) (b : Bytes) (l : List Nat) : ∀ s : State, (s.setVParts c k b l).links = s.links := by
  induction l with
  | nil => intro s; rfl
  | cons m l ih => intro s; rw [State.setVParts, ih, setReg_links]

@[simp] theorem setVParts_groups (c : CoreId) (k : Nat) (b : Bytes) (l : List Nat) : ∀ s : State, (s.setVParts c k b l).groups = s.groups := by
  induction l with
  | nil => intro s; rfl
  | cons m l ih => intro s; rw [State.setVParts, ih, setReg_groups]

@[simp] theorem setVParts_sem (c : CoreId) (k : Nat) (b : Bytes) (l : List Nat) : ∀ s : State, (s.setVParts c k b l).sem = s.sem := by
  induction l with
  | nil => intro s; rfl
  | cons m l ih => intro s; rw [State.setVParts, ih, setReg_sem]

@[simp] theorem setVParts_bell (c : CoreId) (k : Nat) (b : Bytes) (l : List Nat) : ∀ s : State, (s.setVParts c k b l).bell = s.bell := by
  induction l with
  | nil => intro s; rfl
  | cons m l ih => intro s; rw [State.setVParts, ih, setReg_bell]

@[simp] theorem setVParts_beats (c : CoreId) (k : Nat) (b : Bytes) (l : List Nat) : ∀ s : State, (s.setVParts c k b l).beats = s.beats := by
  induction l with
  | nil => intro s; rfl
  | cons m l ih => intro s; rw [State.setVParts, ih, setReg_beats]

@[simp] theorem setVParts_pond (c : CoreId) (k : Nat) (b : Bytes) (l : List Nat) : ∀ s : State, (s.setVParts c k b l).pond = s.pond := by
  induction l with
  | nil => intro s; rfl
  | cons m l ih => intro s; rw [State.setVParts, ih, setReg_pond]

@[simp] theorem setVParts_host (c : CoreId) (k : Nat) (b : Bytes) (l : List Nat) : ∀ s : State, (s.setVParts c k b l).host = s.host := by
  induction l with
  | nil => intro s; rfl
  | cons m l ih => intro s; rw [State.setVParts, ih, setReg_host]

@[simp] theorem setVParts_ebc (c : CoreId) (k : Nat) (b : Bytes) (l : List Nat) : ∀ s : State, (s.setVParts c k b l).ebc = s.ebc := by
  induction l with
  | nil => intro s; rfl
  | cons m l ih => intro s; rw [State.setVParts, ih, setReg_ebc]

@[simp] theorem setVParts_hearth (c : CoreId) (k : Nat) (b : Bytes) (l : List Nat) : ∀ s : State, (s.setVParts c k b l).hearth = s.hearth := by
  induction l with
  | nil => intro s; rfl
  | cons m l ih => intro s; rw [State.setVParts, ih, setReg_hearth]

@[simp] theorem setVParts_log (c : CoreId) (k : Nat) (b : Bytes) (l : List Nat) : ∀ s : State, (s.setVParts c k b l).log = s.log := by
  induction l with
  | nil => intro s; rfl
  | cons m l ih => intro s; rw [State.setVParts, ih, setReg_log]

@[simp] theorem setVParts_dump (c : CoreId) (k : Nat) (b : Bytes) (l : List Nat) : ∀ s : State, (s.setVParts c k b l).dump = s.dump := by
  induction l with
  | nil => intro s; rfl
  | cons m l ih => intro s; rw [State.setVParts, ih, setReg_dump]

@[simp] theorem setVParts_snapPend (c : CoreId) (k : Nat) (b : Bytes) (l : List Nat) : ∀ s : State, (s.setVParts c k b l).snapPend = s.snapPend := by
  induction l with
  | nil => intro s; rfl
  | cons m l ih => intro s; rw [State.setVParts, ih, setReg_snapPend]

@[simp] theorem setVParts_inval (c : CoreId) (k : Nat) (b : Bytes) (l : List Nat) : ∀ s : State, (s.setVParts c k b l).inval = s.inval := by
  induction l with
  | nil => intro s; rfl
  | cons m l ih => intro s; rw [State.setVParts, ih, setReg_inval]

@[simp] theorem setVParts_sent (c : CoreId) (k : Nat) (b : Bytes) (l : List Nat) : ∀ s : State, (s.setVParts c k b l).sent = s.sent := by
  induction l with
  | nil => intro s; rfl
  | cons m l ih => intro s; rw [State.setVParts, ih, setReg_sent]

@[simp] theorem setVParts_free (c : CoreId) (k : Nat) (b : Bytes) (l : List Nat) : ∀ s : State, (s.setVParts c k b l).free = s.free := by
  induction l with
  | nil => intro s; rfl
  | cons m l ih => intro s; rw [State.setVParts, ih, setReg_free]

@[simp] theorem setV_pending (c : CoreId) (k : BitVec 4) (b : Bytes) : (s.setV c k b).pending = s.pending := setVParts_pending _ _ _ _ s
@[simp] theorem setV_mem (c : CoreId) (k : BitVec 4) (b : Bytes) : (s.setV c k b).mem = s.mem := setVParts_mem _ _ _ _ s
@[simp] theorem setV_poison (c : CoreId) (k : BitVec 4) (b : Bytes) : (s.setV c k b).poison = s.poison := setVParts_poison _ _ _ _ s
@[simp] theorem setV_flash (c : CoreId) (k : BitVec 4) (b : Bytes) : (s.setV c k b).flash = s.flash := setVParts_flash _ _ _ _ s
@[simp] theorem setV_now (c : CoreId) (k : BitVec 4) (b : Bytes) : (s.setV c k b).now = s.now := setVParts_now _ _ _ _ s
@[simp] theorem setV_cc (c : CoreId) (k : BitVec 4) (b : Bytes) : (s.setV c k b).cc = s.cc := setVParts_cc _ _ _ _ s
@[simp] theorem setV_slot (c : CoreId) (k : BitVec 4) (b : Bytes) : (s.setV c k b).slot = s.slot := setVParts_slot _ _ _ _ s
@[simp] theorem setV_cores (c : CoreId) (k : BitVec 4) (b : Bytes) : (s.setV c k b).cores = s.cores := setVParts_cores _ _ _ _ s
@[simp] theorem setV_ctxs (c : CoreId) (k : BitVec 4) (b : Bytes) : (s.setV c k b).ctxs = s.ctxs := setVParts_ctxs _ _ _ _ s
@[simp] theorem setV_hbm (c : CoreId) (k : BitVec 4) (b : Bytes) : (s.setV c k b).hbm = s.hbm := setVParts_hbm _ _ _ _ s
@[simp] theorem setV_links (c : CoreId) (k : BitVec 4) (b : Bytes) : (s.setV c k b).links = s.links := setVParts_links _ _ _ _ s
@[simp] theorem setV_groups (c : CoreId) (k : BitVec 4) (b : Bytes) : (s.setV c k b).groups = s.groups := setVParts_groups _ _ _ _ s
@[simp] theorem setV_sem (c : CoreId) (k : BitVec 4) (b : Bytes) : (s.setV c k b).sem = s.sem := setVParts_sem _ _ _ _ s
@[simp] theorem setV_bell (c : CoreId) (k : BitVec 4) (b : Bytes) : (s.setV c k b).bell = s.bell := setVParts_bell _ _ _ _ s
@[simp] theorem setV_beats (c : CoreId) (k : BitVec 4) (b : Bytes) : (s.setV c k b).beats = s.beats := setVParts_beats _ _ _ _ s
@[simp] theorem setV_pond (c : CoreId) (k : BitVec 4) (b : Bytes) : (s.setV c k b).pond = s.pond := setVParts_pond _ _ _ _ s
@[simp] theorem setV_host (c : CoreId) (k : BitVec 4) (b : Bytes) : (s.setV c k b).host = s.host := setVParts_host _ _ _ _ s
@[simp] theorem setV_ebc (c : CoreId) (k : BitVec 4) (b : Bytes) : (s.setV c k b).ebc = s.ebc := setVParts_ebc _ _ _ _ s
@[simp] theorem setV_hearth (c : CoreId) (k : BitVec 4) (b : Bytes) : (s.setV c k b).hearth = s.hearth := setVParts_hearth _ _ _ _ s
@[simp] theorem setV_log (c : CoreId) (k : BitVec 4) (b : Bytes) : (s.setV c k b).log = s.log := setVParts_log _ _ _ _ s
@[simp] theorem setV_dump (c : CoreId) (k : BitVec 4) (b : Bytes) : (s.setV c k b).dump = s.dump := setVParts_dump _ _ _ _ s
@[simp] theorem setV_snapPend (c : CoreId) (k : BitVec 4) (b : Bytes) : (s.setV c k b).snapPend = s.snapPend := setVParts_snapPend _ _ _ _ s
@[simp] theorem setV_inval (c : CoreId) (k : BitVec 4) (b : Bytes) : (s.setV c k b).inval = s.inval := setVParts_inval _ _ _ _ s
@[simp] theorem setV_sent (c : CoreId) (k : BitVec 4) (b : Bytes) : (s.setV c k b).sent = s.sent := setVParts_sent _ _ _ _ s
@[simp] theorem setV_free (c : CoreId) (k : BitVec 4) (b : Bytes) : (s.setV c k b).free = s.free := setVParts_free _ _ _ _ s

@[simp] theorem setV_rdB (c : CoreId) (k : BitVec 4) (b : Bytes) (a : Nat) : (s.setV c k b).rdB a = s.rdB a := by
  show sget _ _ _ = sget _ _ _; rw [setV_mem]

theorem leNat_lt : ∀ b : Bytes, leNat b < 256 ^ b.length
  | [] => by simp [leNat]
  | x :: b => by
    have := leNat_lt b
    have hx := x.isLt
    simp only [leNat, List.length_cons, pow_succ]
    omega

/-- The bytes of a number of bytes are those bytes. -/
theorem natBytes_leNat : ∀ b : Bytes, natBytes b.length (leNat b) = b
  | [] => rfl
  | x :: b => by
    have hx := x.isLt
    have h1 : (x.toNat + 256 * leNat b) / 256 = leNat b := by omega
    have h2 : BitVec.ofNat 8 (x.toNat + 256 * leNat b) = x := by
      apply BitVec.eq_of_toNat_eq; rw [BitVec.toNat_ofNat]; omega
    simp only [List.length_cons, leNat, natBytes]
    rw [h1, h2, natBytes_leNat b]

theorem flatMap_parts (f : Nat → Byte) (k : Nat) :
    ((List.range k).flatMap fun m => (List.range 8).map fun i => f (8 * m + i)) = (List.range (8 * k)).map f := by
  induction k with
  | zero => rfl
  | succ k ih =>
    rw [List.range_succ (n := k), List.flatMap_append, ih, Nat.mul_succ, List.range_add, List.map_append]
    simp [Function.comp_def]

/-- A vector register reads the 128 bytes written to it. -/
theorem vreg_setV (c : CoreId) (k : BitVec 4) (b : Bytes) (h : b.length = 128) : (s.setV c k b).vreg c k = b := by
  have hp : ∀ m, m < 16 → natBytes 8 ((s.setV c k b).reg (rV c k.toNat m)).toNat = (List.range 8).map fun i => b.getD (8 * m + i) 0 := by
    intro m hm
    have hl : (slice b (8 * m) 8).length = 8 := by simp [slice]
    have hlt : leAt b (8 * m) 8 < 2 ^ 64 := by
      have := leNat_lt (slice b (8 * m) 8)
      rw [hl] at this
      exact this
    rw [State.setV, reg_setVParts_in _ _ _ _ _ _ (List.mem_range.2 hm), BitVec.toNat_ofNat, Nat.mod_eq_of_lt hlt]
    have := natBytes_leNat (slice b (8 * m) 8)
    rw [hl] at this
    exact this
  have e : ((List.range 16).map fun m => natBytes 8 ((s.setV c k b).reg (rV c k.toNat m)).toNat)
      = (List.range 16).map fun m => (List.range 8).map fun i => b.getD (8 * m + i) 0 :=
    List.map_congr_left fun m hm => hp m (List.mem_range.1 hm)
  have e2 : (s.setV c k b).vreg c k = (List.range (8 * 16)).map fun i => b.getD i 0 := by
    rw [State.vreg, List.flatMap_def, e, ← List.flatMap_def, flatMap_parts (fun i => b.getD i 0) 16]
  rw [e2]
  refine List.ext_getElem (by simp [h]) fun i h1 h2 => ?_
  simp [h2]

theorem writesV_setV (c : CoreId) (k : BitVec 4) (b : Bytes) (h : b.length = 128) : WritesV c k b s (s.setV c k b) :=
  ⟨vreg_setV s c k b h,
    fun _ ha => reg_setVParts_other _ _ _ _ _ _ fun m hm e => ha ⟨m, List.mem_range.1 hm, e⟩, fun _ => setV_rdB s c k b _⟩

end Sys2Proof.Machine
end

