-- ==== Sys2Proof/Laws/Fault.lean ====
section
/-! SUPPORT. Sys2Proof/Laws/Fault.lean: what raising a fault of a core can change, and what it always leaves. -/

namespace Sys2Proof.Machine

/-! ### Fields of one register -/

/-- A register in parts around a field: above it, the field, below it; and what a put leaves of them. -/
theorem Fd.put_parts (f : Fd) (w : Word) (v : Nat) (h1 : f.lo ≤ f.hi) (h2 : f.hi < 64) :
    ∃ hi lo, lo < 2 ^ f.lo ∧ w.toNat = hi * (f.size * 2 ^ f.lo) + f.get w * 2 ^ f.lo + lo ∧
      (f.put w v).toNat = hi * (f.size * 2 ^ f.lo) + v % f.size * 2 ^ f.lo + lo := by
  have hp : 0 < 2 ^ f.lo := Nat.pos_of_ne_zero (by positivity)
  have hz : 0 < f.size := Nat.pos_of_ne_zero (by unfold Fd.size; positivity)
  have hw := w.isLt
  have hr : v % f.size < f.size := Nat.mod_lt _ hz
  unfold Fd.put Fd.get
  set n := w.toNat
  set p := 2 ^ f.lo
  set z := f.size
  set r := v % z
  have hn : n = n / p / z * (z * p) + n / p % z * p + n % p := by
    have e1 := Nat.div_add_mod' n p
    have e2 := Nat.div_add_mod' (n / p) z
    calc n = (n / p / z * z + n / p % z) * p + n % p := by rw [e2, e1]
      _ = _ := by ring
  refine ⟨n / p / z, n % p, Nat.mod_lt _ hp, hn, ?_⟩
  have e : n - n / p % z * p + r * p = n / p / z * (z * p) + r * p + n % p := by omega
  rw [e, BitVec.toNat_ofNat, Nat.mod_eq_of_lt]
  obtain ⟨q, hq⟩ : ∃ q, 2 ^ 64 = q * (z * p) := by
    refine ⟨2 ^ (64 - (f.hi + 1)), ?_⟩
    show 2 ^ 64 = 2 ^ (64 - (f.hi + 1)) * (2 ^ (f.hi + 1 - f.lo) * 2 ^ f.lo)
    rw [← pow_add, ← pow_add]; congr 1; omega
  have hhi : n / p / z < q := by
    by_contra hc
    have : q * (z * p) ≤ n / p / z * (z * p) := Nat.mul_le_mul_right _ (Nat.le_of_not_lt hc)
    omega
  have h3 : (r + 1) * p ≤ z * p := Nat.mul_le_mul_right _ hr
  have h4 : (n / p / z + 1) * (z * p) ≤ q * (z * p) := Nat.mul_le_mul_right _ hhi
  have h5 : n % p < p := Nat.mod_lt _ hp
  rw [Nat.add_mul, Nat.one_mul] at h3 h4
  omega

/-- A field keeps its value when a field below it is put. -/
theorem Fd.get_put_above (f g : Fd) (w : Word) (v : Nat) (h1 : f.lo ≤ f.hi) (h2 : f.hi < g.lo) (h3 : g.lo ≤ g.hi) (h4 : g.hi < 64) :
    g.get (f.put w v) = g.get w := by
  obtain ⟨hi, lo, hlo, e1, e2⟩ := f.put_parts w v h1 (by omega)
  have hp : 0 < 2 ^ f.lo := Nat.pos_of_ne_zero (by positivity)
  have hz : 0 < f.size := Nat.pos_of_ne_zero (by unfold Fd.size; positivity)
  have hm : v % f.size < f.size := Nat.mod_lt _ hz
  have hg : f.get w < f.size := Nat.mod_lt _ hz
  obtain ⟨q, hq⟩ : ∃ q, 2 ^ g.lo = f.size * 2 ^ f.lo * q := by
    refine ⟨2 ^ (g.lo - (f.hi + 1)), ?_⟩
    rw [Fd.size, ← pow_add, ← pow_add]; congr 1; omega
  have key : ∀ x, x < f.size → (hi * (f.size * 2 ^ f.lo) + x * 2 ^ f.lo + lo) / (f.size * 2 ^ f.lo) = hi := by
    intro x hx
    have : (x + 1) * 2 ^ f.lo ≤ f.size * 2 ^ f.lo := Nat.mul_le_mul_right _ hx
    rw [Nat.add_mul, Nat.one_mul] at this
    rw [Nat.add_assoc, Nat.add_comm, Nat.add_mul_div_right _ _ (Nat.mul_pos hz hp), Nat.div_eq_of_lt (by omega), Nat.zero_add]
  unfold Fd.get
  rw [hq, ← Nat.div_div_eq_div_mul _ (f.size * 2 ^ f.lo), ← Nat.div_div_eq_div_mul _ (f.size * 2 ^ f.lo), e2, key _ hm, e1, key _ hg]

/-- A field keeps its value when a field above it is put. -/
theorem Fd.get_put_below (f g : Fd) (w : Word) (v : Nat) (h1 : g.lo ≤ g.hi) (h2 : g.hi < f.lo) (h3 : f.lo ≤ f.hi) (h4 : f.hi < 64) :
    g.get (f.put w v) = g.get w := by
  obtain ⟨hi, lo, hlo, e1, e2⟩ := f.put_parts w v h3 h4
  obtain ⟨q, hq⟩ : ∃ q, 2 ^ f.lo = 2 ^ g.lo * g.size * q := by
    refine ⟨2 ^ (f.lo - (g.hi + 1)), ?_⟩
    rw [Fd.size, ← pow_add, ← pow_add]; congr 1; omega
  have key : ∀ x, (hi * (f.size * 2 ^ f.lo) + x * 2 ^ f.lo + lo) % (2 ^ g.lo * g.size) = lo % (2 ^ g.lo * g.size) := by
    intro x
    have : hi * (f.size * 2 ^ f.lo) + x * 2 ^ f.lo + lo = lo + 2 ^ g.lo * g.size * (q * (hi * f.size + x)) := by rw [hq]; ring
    rw [this, Nat.add_mul_mod_self_left]
  unfold Fd.get
  rw [← Nat.mod_mul_right_div_self, ← Nat.mod_mul_right_div_self, e2, key, e1, key]

/-! ### Addresses in core windows -/

/-- Different offsets in core windows are different addresses. -/
theorem core_addr_ne {c d : CoreId} {o p : Nat} (ho : o < 2 ^ 22) (hp : p < 2 ^ 22) (h : o ≠ p) : coreBase c + o ≠ coreBase d + p := by
  unfold coreBase coreSpace
  omega

/-! ### Registers that a fault of a core can change -/

/-- The registers that raising a fault of a core can change: those of the dump, of the cores' status and of the counters that a dump
settles, and the bell-wire counter. -/
def FaultReg (a : Nat) : Prop :=
  a = rDumpCfg ∨ a = rDumpStatus ∨ ∃ d : CoreId, a = rCoreStatus d ∨ a = rBellSentCnt d ∨ a = rCntCtl d ∨ a = rCoreCtl d ∨
    a = rHaltCnt d ∨ a = rArrNoworkCnt d ∨ a = rVecNoworkCnt d ∨ a = rStrmNoworkCnt d

/-- What every change of a fold leaves as it was, the fold leaves as it was. -/
theorem foldl_same {α β : Type} (φ : State → β) (f : State → α → State) (hf : ∀ s x, φ (f s x) = φ s) :
    ∀ (l : List α) (s : State), φ (l.foldl f s) = φ s
  | [], _ => rfl
  | x :: l, s => (foldl_same φ f hf l (f s x)).trans (hf s x)

@[simp] theorem wrHbm_reg (s : State) (pa z : Nat) (b : Bytes) : (s.wrHbm pa b).reg z = s.reg z := wrBytes_reg s pa b z

variable {a : Nat}

theorem reg_settle_other (s : State) (c : CoreId) (h : ¬ FaultReg a) : (s.settle c).reg a = s.reg a := by
  unfold FaultReg at h; push Not at h
  obtain ⟨-, -, h⟩ := h
  have := h c
  unfold State.settle
  extract_lets n s1
  split
  · rfl
  · split
    · rfl
    · rw [reg_count_other _ _ this.2.2.2.2.2.2.2, reg_count_other _ _ this.2.2.2.2.2.2.1, reg_count_other _ _ this.2.2.2.2.2.1,
        reg_count_other _ _ this.2.2.2.2.1]; rfl

theorem reg_dumpCores_other (s : State) (l : List CoreId) (h : ¬ FaultReg a) :
    (l.foldl (fun s c => (s.settle c).fput (rCntCtl c) fCntCtlFreeze 1) s).reg a = s.reg a := by
  have h' := h
  unfold FaultReg at h'; push Not at h'
  refine foldl_same (fun t => t.reg a) _ (fun t c => ?_) l s
  rw [reg_fput_other _ _ _ (h'.2.2 c).2.2.1, reg_settle_other _ _ h]

theorem reg_dumpHalts_other (s : State) (l : List CoreId) (h : ¬ FaultReg a) :
    (l.foldl (fun s c => (s.fput (rCoreCtl c) fCoreCtlHalt 1).askStop c .halt) s).reg a = s.reg a := by
  unfold FaultReg at h; push Not at h
  refine foldl_same (fun t => t.reg a) _ (fun t c => ?_) l s
  rw [askStop_reg, reg_fput_other _ _ _ (h.2.2 c).2.2.2.1]

theorem reg_dump (s : State) (d : Option DumpS) : State.reg { s with dump := d } a = s.reg a := rfl

theorem reg_dumpStart_other (s : State) (tr : Nat) (k : Option CtxId) (q : Bool) (h : ¬ FaultReg a) :
    (s.dumpStart tr k q).reg a = s.reg a := by
  have h' := h
  unfold FaultReg at h'; push Not at h'
  obtain ⟨h1, h2, -⟩ := h'
  unfold State.dumpStart
  rw [reg_dump, wrHbm_reg, reg_fput_other _ _ _ h2, reg_dumpHalts_other _ _ h, reg_dumpCores_other _ _ h, reg_fput_other _ _ _ h2,
    reg_fput_other _ _ _ h2, reg_fput_other _ _ _ h1]

theorem reg_emitTrig_other (s : State) (en : Fd) (r : EvRec) (h : ¬ FaultReg a) : (s.emitTrig en r).reg a = s.reg a := by
  unfold State.emitTrig
  split
  · rfl
  · split
    · rw [reg_dumpStart_other _ _ _ _ h]; rfl
    · rfl

theorem reg_emitFault_other (s : State) (k : CtxId) (r : EvRec) (h : ¬ FaultReg a) : (s.emitFault k r).reg a = s.reg a := by
  unfold State.emitFault
  split
  · rfl
  · exact reg_emitTrig_other _ _ _ h

theorem reg_stopCtx_other (s : State) (k code : Nat) (h : ¬ FaultReg a) : (s.stopCtx k code).reg a = s.reg a := by
  unfold FaultReg at h; push Not at h
  unfold State.stopCtx
  rw [foldl_same (fun t => t.reg a) _ fun t c => by rw [askStop_reg, reg_fput_other _ _ _ (h.2.2 c).1]]
  exact modCtx_reg s k _ a

theorem reg_bellFrom_other (s : State) (c : CoreId) (hdr : BitVec 32) (pay : List (BitVec 32)) (h : ¬ FaultReg a) :
    (s.bellFrom c hdr pay).reg a = s.reg a := by
  unfold FaultReg at h; push Not at h
  unfold State.bellFrom
  rw [reg_count_other _ _ (h.2.2 c).2.1, bellAt_reg]

/-- A fault of a core changes no other register than those of FaultReg. -/
theorem reg_faultCore_other (s : State) (c : CoreId) (r : EvRec) (h : ¬ FaultReg a) : (s.faultCore c r).reg a = s.reg a := by
  have h' := h
  unfold FaultReg at h'; push Not at h'
  unfold State.faultCore
  rw [reg_stopCtx_other _ _ _ h, reg_bellFrom_other _ _ _ _ h, reg_fput_other _ _ _ (h'.2.2 c).1, reg_emitFault_other _ _ _ h]

/-! ### The fault code -/

theorem rBellSentCnt_ne (c d : CoreId) : rCoreStatus c ≠ rBellSentCnt d :=
  core_addr_ne (by decide) (by decide) (by decide)

/-- The stop of a context leaves FAULT of every core. -/
theorem fault_stopCtx (s : State) (k code : Nat) (c : CoreId) :
    (s.stopCtx k code).fget (rCoreStatus c) fCoreStatusFault = s.fget (rCoreStatus c) fCoreStatusFault := by
  unfold State.stopCtx
  have hf : ∀ (t : State) (d : CoreId), ((t.fput (rCoreStatus d) fCoreStatusFaulted 1).askStop d (.fault code)).fget (rCoreStatus c)
      fCoreStatusFault = t.fget (rCoreStatus c) fCoreStatusFault := by
    intro t d
    unfold State.fget
    rw [askStop_reg]
    by_cases hd : rCoreStatus c = rCoreStatus d
    · rw [← hd, reg_fput_same, Fd.get_put_above _ _ _ _ (by decide) (by decide) (by decide) (by decide)]
    · rw [reg_fput_other _ _ _ hd]
  rw [foldl_same (fun t => t.fget (rCoreStatus c) fCoreStatusFault) _ hf]
  unfold State.fget
  rw [modCtx_reg]

/-- A fault of a core leaves its code in CORE_STATUS.FAULT. -/
theorem fault_faultCore (s : State) (c : CoreId) (r : EvRec) (h : r.code < 2 ^ 16) :
    (s.faultCore c r).fget (rCoreStatus c) fCoreStatusFault = r.code := by
  unfold State.faultCore
  rw [fault_stopCtx]
  unfold State.bellFrom State.fget
  rw [reg_count_other _ _ (rBellSentCnt_ne c c), bellAt_reg]
  have := fget_fput_same (s.emitFault (s.coreCtx c) r) (rCoreStatus c) fCoreStatusFault r.code (by decide) (by decide)
  unfold State.fget at this
  rw [this]
  exact Nat.mod_eq_of_lt h

end Sys2Proof.Machine
end

