-- ==== Sys2Proof/Laws/Sync.lean ====
section
/-! SUPPORT. Sys2Proof/Laws/Sync.lean: what the shared operations of counters, semaphores, messages, branches and loops leave as it was. -/

namespace Sys2Proof.Machine

variable (s : State)

/-! #### setS -/

@[simp] theorem setS_pending (c : CoreId) (i : BitVec 5) (v : Word) : (s.setS c i v).pending = s.pending := by unfold State.setS; simp
@[simp] theorem setS_mem (c : CoreId) (i : BitVec 5) (v : Word) : (s.setS c i v).mem = s.mem := by unfold State.setS; simp
@[simp] theorem setS_poison (c : CoreId) (i : BitVec 5) (v : Word) : (s.setS c i v).poison = s.poison := by unfold State.setS; simp
@[simp] theorem setS_flash (c : CoreId) (i : BitVec 5) (v : Word) : (s.setS c i v).flash = s.flash := by unfold State.setS; simp
@[simp] theorem setS_now (c : CoreId) (i : BitVec 5) (v : Word) : (s.setS c i v).now = s.now := by unfold State.setS; simp
@[simp] theorem setS_cc (c : CoreId) (i : BitVec 5) (v : Word) : (s.setS c i v).cc = s.cc := by unfold State.setS; simp
@[simp] theorem setS_slot (c : CoreId) (i : BitVec 5) (v : Word) : (s.setS c i v).slot = s.slot := by unfold State.setS; simp
@[simp] theorem setS_cores (c : CoreId) (i : BitVec 5) (v : Word) : (s.setS c i v).cores = s.cores := by unfold State.setS; simp
@[simp] theorem setS_ctxs (c : CoreId) (i : BitVec 5) (v : Word) : (s.setS c i v).ctxs = s.ctxs := by unfold State.setS; simp
@[simp] theorem setS_hbm (c : CoreId) (i : BitVec 5) (v : Word) : (s.setS c i v).hbm = s.hbm := by unfold State.setS; simp
@[simp] theorem setS_links (c : CoreId) (i : BitVec 5) (v : Word) : (s.setS c i v).links = s.links := by unfold State.setS; simp
@[simp] theorem setS_groups (c : CoreId) (i : BitVec 5) (v : Word) : (s.setS c i v).groups = s.groups := by unfold State.setS; simp
@[simp] theorem setS_sem (c : CoreId) (i : BitVec 5) (v : Word) : (s.setS c i v).sem = s.sem := by unfold State.setS; simp
@[simp] theorem setS_bell (c : CoreId) (i : BitVec 5) (v : Word) : (s.setS c i v).bell = s.bell := by unfold State.setS; simp
@[simp] theorem setS_bellServed (c : CoreId) (i : BitVec 5) (v : Word) : (s.setS c i v).bellServed = s.bellServed := by unfold State.setS; simp
@[simp] theorem setS_beats (c : CoreId) (i : BitVec 5) (v : Word) : (s.setS c i v).beats = s.beats := by unfold State.setS; simp
@[simp] theorem setS_pond (c : CoreId) (i : BitVec 5) (v : Word) : (s.setS c i v).pond = s.pond := by unfold State.setS; simp
@[simp] theorem setS_host (c : CoreId) (i : BitVec 5) (v : Word) : (s.setS c i v).host = s.host := by unfold State.setS; simp
@[simp] theorem setS_ebc (c : CoreId) (i : BitVec 5) (v : Word) : (s.setS c i v).ebc = s.ebc := by unfold State.setS; simp
@[simp] theorem setS_hearth (c : CoreId) (i : BitVec 5) (v : Word) : (s.setS c i v).hearth = s.hearth := by unfold State.setS; simp
@[simp] theorem setS_log (c : CoreId) (i : BitVec 5) (v : Word) : (s.setS c i v).log = s.log := by unfold State.setS; simp
@[simp] theorem setS_dump (c : CoreId) (i : BitVec 5) (v : Word) : (s.setS c i v).dump = s.dump := by unfold State.setS; simp
@[simp] theorem setS_snapPend (c : CoreId) (i : BitVec 5) (v : Word) : (s.setS c i v).snapPend = s.snapPend := by unfold State.setS; simp
@[simp] theorem setS_inval (c : CoreId) (i : BitVec 5) (v : Word) : (s.setS c i v).inval = s.inval := by unfold State.setS; simp
@[simp] theorem setS_sent (c : CoreId) (i : BitVec 5) (v : Word) : (s.setS c i v).sent = s.sent := by unfold State.setS; simp
@[simp] theorem setS_free (c : CoreId) (i : BitVec 5) (v : Word) : (s.setS c i v).free = s.free := by unfold State.setS; simp
@[simp] theorem setS_rdB (c : CoreId) (i : BitVec 5) (v : Word) (z : Nat) : (s.setS c i v).rdB z = s.rdB z := by unfold State.rdB; rw [setS_mem]
@[simp] theorem setS_core (c : CoreId) (i : BitVec 5) (v : Word) (z : CoreId) : (s.setS c i v).core z = s.core z := by unfold State.core; rw [setS_cores]
@[simp] theorem setS_ctx (c : CoreId) (i : BitVec 5) (v : Word) (z : Nat) : (s.setS c i v).ctx z = s.ctx z := by unfold State.ctx; rw [setS_ctxs]
@[simp] theorem setS_link (c : CoreId) (i : BitVec 5) (v : Word) (z : Nat) : (s.setS c i v).link z = s.link z := by unfold State.link; rw [setS_links]
@[simp] theorem setS_group (c : CoreId) (i : BitVec 5) (v : Word) (z : Nat) : (s.setS c i v).group z = s.group z := by unfold State.group; rw [setS_groups]
@[simp] theorem setS_stack (c : CoreId) (i : BitVec 5) (v : Word) (z : Nat) : (s.setS c i v).stack z = s.stack z := by unfold State.stack; rw [setS_hbm]

/-! #### setPc -/

@[simp] theorem setPc_pending (c : CoreId) (v : Nat) : (s.setPc c v).pending = s.pending := by unfold State.setPc; simp
@[simp] theorem setPc_mem (c : CoreId) (v : Nat) : (s.setPc c v).mem = s.mem := by unfold State.setPc; simp
@[simp] theorem setPc_poison (c : CoreId) (v : Nat) : (s.setPc c v).poison = s.poison := by unfold State.setPc; simp
@[simp] theorem setPc_flash (c : CoreId) (v : Nat) : (s.setPc c v).flash = s.flash := by unfold State.setPc; simp
@[simp] theorem setPc_now (c : CoreId) (v : Nat) : (s.setPc c v).now = s.now := by unfold State.setPc; simp
@[simp] theorem setPc_cc (c : CoreId) (v : Nat) : (s.setPc c v).cc = s.cc := by unfold State.setPc; simp
@[simp] theorem setPc_slot (c : CoreId) (v : Nat) : (s.setPc c v).slot = s.slot := by unfold State.setPc; simp
@[simp] theorem setPc_cores (c : CoreId) (v : Nat) : (s.setPc c v).cores = s.cores := by unfold State.setPc; simp
@[simp] theorem setPc_ctxs (c : CoreId) (v : Nat) : (s.setPc c v).ctxs = s.ctxs := by unfold State.setPc; simp
@[simp] theorem setPc_hbm (c : CoreId) (v : Nat) : (s.setPc c v).hbm = s.hbm := by unfold State.setPc; simp
@[simp] theorem setPc_links (c : CoreId) (v : Nat) : (s.setPc c v).links = s.links := by unfold State.setPc; simp
@[simp] theorem setPc_groups (c : CoreId) (v : Nat) : (s.setPc c v).groups = s.groups := by unfold State.setPc; simp
@[simp] theorem setPc_sem (c : CoreId) (v : Nat) : (s.setPc c v).sem = s.sem := by unfold State.setPc; simp
@[simp] theorem setPc_bell (c : CoreId) (v : Nat) : (s.setPc c v).bell = s.bell := by unfold State.setPc; simp
@[simp] theorem setPc_bellServed (c : CoreId) (v : Nat) : (s.setPc c v).bellServed = s.bellServed := by unfold State.setPc; simp
@[simp] theorem setPc_beats (c : CoreId) (v : Nat) : (s.setPc c v).beats = s.beats := by unfold State.setPc; simp
@[simp] theorem setPc_pond (c : CoreId) (v : Nat) : (s.setPc c v).pond = s.pond := by unfold State.setPc; simp
@[simp] theorem setPc_host (c : CoreId) (v : Nat) : (s.setPc c v).host = s.host := by unfold State.setPc; simp
@[simp] theorem setPc_ebc (c : CoreId) (v : Nat) : (s.setPc c v).ebc = s.ebc := by unfold State.setPc; simp
@[simp] theorem setPc_hearth (c : CoreId) (v : Nat) : (s.setPc c v).hearth = s.hearth := by unfold State.setPc; simp
@[simp] theorem setPc_log (c : CoreId) (v : Nat) : (s.setPc c v).log = s.log := by unfold State.setPc; simp
@[simp] theorem setPc_dump (c : CoreId) (v : Nat) : (s.setPc c v).dump = s.dump := by unfold State.setPc; simp
@[simp] theorem setPc_snapPend (c : CoreId) (v : Nat) : (s.setPc c v).snapPend = s.snapPend := by unfold State.setPc; simp
@[simp] theorem setPc_inval (c : CoreId) (v : Nat) : (s.setPc c v).inval = s.inval := by unfold State.setPc; simp
@[simp] theorem setPc_sent (c : CoreId) (v : Nat) : (s.setPc c v).sent = s.sent := by unfold State.setPc; simp
@[simp] theorem setPc_free (c : CoreId) (v : Nat) : (s.setPc c v).free = s.free := by unfold State.setPc; simp
@[simp] theorem setPc_rdB (c : CoreId) (v : Nat) (z : Nat) : (s.setPc c v).rdB z = s.rdB z := by unfold State.rdB; rw [setPc_mem]
@[simp] theorem setPc_core (c : CoreId) (v : Nat) (z : CoreId) : (s.setPc c v).core z = s.core z := by unfold State.core; rw [setPc_cores]
@[simp] theorem setPc_ctx (c : CoreId) (v : Nat) (z : Nat) : (s.setPc c v).ctx z = s.ctx z := by unfold State.ctx; rw [setPc_ctxs]
@[simp] theorem setPc_link (c : CoreId) (v : Nat) (z : Nat) : (s.setPc c v).link z = s.link z := by unfold State.link; rw [setPc_links]
@[simp] theorem setPc_group (c : CoreId) (v : Nat) (z : Nat) : (s.setPc c v).group z = s.group z := by unfold State.group; rw [setPc_groups]
@[simp] theorem setPc_stack (c : CoreId) (v : Nat) (z : Nat) : (s.setPc c v).stack z = s.stack z := by unfold State.stack; rw [setPc_hbm]

/-! #### jump -/

@[simp] theorem jump_pending (c : CoreId) (t : Nat) : (s.jump c t).pending = s.pending := by unfold State.jump; simp
@[simp] theorem jump_mem (c : CoreId) (t : Nat) : (s.jump c t).mem = s.mem := by unfold State.jump; simp
@[simp] theorem jump_poison (c : CoreId) (t : Nat) : (s.jump c t).poison = s.poison := by unfold State.jump; simp
@[simp] theorem jump_flash (c : CoreId) (t : Nat) : (s.jump c t).flash = s.flash := by unfold State.jump; simp
@[simp] theorem jump_now (c : CoreId) (t : Nat) : (s.jump c t).now = s.now := by unfold State.jump; simp
@[simp] theorem jump_cc (c : CoreId) (t : Nat) : (s.jump c t).cc = s.cc := by unfold State.jump; simp
@[simp] theorem jump_slot (c : CoreId) (t : Nat) : (s.jump c t).slot = s.slot := by unfold State.jump; simp
@[simp] theorem jump_ctxs (c : CoreId) (t : Nat) : (s.jump c t).ctxs = s.ctxs := by unfold State.jump; simp
@[simp] theorem jump_hbm (c : CoreId) (t : Nat) : (s.jump c t).hbm = s.hbm := by unfold State.jump; simp
@[simp] theorem jump_links (c : CoreId) (t : Nat) : (s.jump c t).links = s.links := by unfold State.jump; simp
@[simp] theorem jump_groups (c : CoreId) (t : Nat) : (s.jump c t).groups = s.groups := by unfold State.jump; simp
@[simp] theorem jump_sem (c : CoreId) (t : Nat) : (s.jump c t).sem = s.sem := by unfold State.jump; simp
@[simp] theorem jump_bell (c : CoreId) (t : Nat) : (s.jump c t).bell = s.bell := by unfold State.jump; simp
@[simp] theorem jump_bellServed (c : CoreId) (t : Nat) : (s.jump c t).bellServed = s.bellServed := by unfold State.jump; simp
@[simp] theorem jump_beats (c : CoreId) (t : Nat) : (s.jump c t).beats = s.beats := by unfold State.jump; simp
@[simp] theorem jump_pond (c : CoreId) (t : Nat) : (s.jump c t).pond = s.pond := by unfold State.jump; simp
@[simp] theorem jump_host (c : CoreId) (t : Nat) : (s.jump c t).host = s.host := by unfold State.jump; simp
@[simp] theorem jump_ebc (c : CoreId) (t : Nat) : (s.jump c t).ebc = s.ebc := by unfold State.jump; simp
@[simp] theorem jump_hearth (c : CoreId) (t : Nat) : (s.jump c t).hearth = s.hearth := by unfold State.jump; simp
@[simp] theorem jump_log (c : CoreId) (t : Nat) : (s.jump c t).log = s.log := by unfold State.jump; simp
@[simp] theorem jump_dump (c : CoreId) (t : Nat) : (s.jump c t).dump = s.dump := by unfold State.jump; simp
@[simp] theorem jump_snapPend (c : CoreId) (t : Nat) : (s.jump c t).snapPend = s.snapPend := by unfold State.jump; simp
@[simp] theorem jump_inval (c : CoreId) (t : Nat) : (s.jump c t).inval = s.inval := by unfold State.jump; simp
@[simp] theorem jump_sent (c : CoreId) (t : Nat) : (s.jump c t).sent = s.sent := by unfold State.jump; simp
@[simp] theorem jump_free (c : CoreId) (t : Nat) : (s.jump c t).free = s.free := by unfold State.jump; simp
@[simp] theorem jump_rdB (c : CoreId) (t : Nat) (z : Nat) : (s.jump c t).rdB z = s.rdB z := by unfold State.rdB; rw [jump_mem]
@[simp] theorem jump_ctx (c : CoreId) (t : Nat) (z : Nat) : (s.jump c t).ctx z = s.ctx z := by unfold State.ctx; rw [jump_ctxs]
@[simp] theorem jump_link (c : CoreId) (t : Nat) (z : Nat) : (s.jump c t).link z = s.link z := by unfold State.link; rw [jump_links]
@[simp] theorem jump_group (c : CoreId) (t : Nat) (z : Nat) : (s.jump c t).group z = s.group z := by unfold State.group; rw [jump_groups]
@[simp] theorem jump_stack (c : CoreId) (t : Nat) (z : Nat) : (s.jump c t).stack z = s.stack z := by unfold State.stack; rw [jump_hbm]

/-! #### loopPush -/

@[simp] theorem loopPush_pending (c : CoreId) (x y w : Nat) : (s.loopPush c x y w).pending = s.pending := by unfold State.loopPush; simp
@[simp] theorem loopPush_mem (c : CoreId) (x y w : Nat) : (s.loopPush c x y w).mem = s.mem := by unfold State.loopPush; simp
@[simp] theorem loopPush_poison (c : CoreId) (x y w : Nat) : (s.loopPush c x y w).poison = s.poison := by unfold State.loopPush; simp
@[simp] theorem loopPush_flash (c : CoreId) (x y w : Nat) : (s.loopPush c x y w).flash = s.flash := by unfold State.loopPush; simp
@[simp] theorem loopPush_now (c : CoreId) (x y w : Nat) : (s.loopPush c x y w).now = s.now := by unfold State.loopPush; simp
@[simp] theorem loopPush_cc (c : CoreId) (x y w : Nat) : (s.loopPush c x y w).cc = s.cc := by unfold State.loopPush; simp
@[simp] theorem loopPush_slot (c : CoreId) (x y w : Nat) : (s.loopPush c x y w).slot = s.slot := by unfold State.loopPush; simp
@[simp] theorem loopPush_cores (c : CoreId) (x y w : Nat) : (s.loopPush c x y w).cores = s.cores := by unfold State.loopPush; simp
@[simp] theorem loopPush_ctxs (c : CoreId) (x y w : Nat) : (s.loopPush c x y w).ctxs = s.ctxs := by unfold State.loopPush; simp
@[simp] theorem loopPush_hbm (c : CoreId) (x y w : Nat) : (s.loopPush c x y w).hbm = s.hbm := by unfold State.loopPush; simp
@[simp] theorem loopPush_links (c : CoreId) (x y w : Nat) : (s.loopPush c x y w).links = s.links := by unfold State.loopPush; simp
@[simp] theorem loopPush_groups (c : CoreId) (x y w : Nat) : (s.loopPush c x y w).groups = s.groups := by unfold State.loopPush; simp
@[simp] theorem loopPush_sem (c : CoreId) (x y w : Nat) : (s.loopPush c x y w).sem = s.sem := by unfold State.loopPush; simp
@[simp] theorem loopPush_bell (c : CoreId) (x y w : Nat) : (s.loopPush c x y w).bell = s.bell := by unfold State.loopPush; simp
@[simp] theorem loopPush_bellServed (c : CoreId) (x y w : Nat) : (s.loopPush c x y w).bellServed = s.bellServed := by unfold State.loopPush; simp
@[simp] theorem loopPush_beats (c : CoreId) (x y w : Nat) : (s.loopPush c x y w).beats = s.beats := by unfold State.loopPush; simp
@[simp] theorem loopPush_pond (c : CoreId) (x y w : Nat) : (s.loopPush c x y w).pond = s.pond := by unfold State.loopPush; simp
@[simp] theorem loopPush_host (c : CoreId) (x y w : Nat) : (s.loopPush c x y w).host = s.host := by unfold State.loopPush; simp
@[simp] theorem loopPush_ebc (c : CoreId) (x y w : Nat) : (s.loopPush c x y w).ebc = s.ebc := by unfold State.loopPush; simp
@[simp] theorem loopPush_hearth (c : CoreId) (x y w : Nat) : (s.loopPush c x y w).hearth = s.hearth := by unfold State.loopPush; simp
@[simp] theorem loopPush_log (c : CoreId) (x y w : Nat) : (s.loopPush c x y w).log = s.log := by unfold State.loopPush; simp
@[simp] theorem loopPush_dump (c : CoreId) (x y w : Nat) : (s.loopPush c x y w).dump = s.dump := by unfold State.loopPush; simp
@[simp] theorem loopPush_snapPend (c : CoreId) (x y w : Nat) : (s.loopPush c x y w).snapPend = s.snapPend := by unfold State.loopPush; simp
@[simp] theorem loopPush_inval (c : CoreId) (x y w : Nat) : (s.loopPush c x y w).inval = s.inval := by unfold State.loopPush; simp
@[simp] theorem loopPush_sent (c : CoreId) (x y w : Nat) : (s.loopPush c x y w).sent = s.sent := by unfold State.loopPush; simp
@[simp] theorem loopPush_free (c : CoreId) (x y w : Nat) : (s.loopPush c x y w).free = s.free := by unfold State.loopPush; simp
@[simp] theorem loopPush_rdB (c : CoreId) (x y w : Nat) (z : Nat) : (s.loopPush c x y w).rdB z = s.rdB z := by unfold State.rdB; rw [loopPush_mem]
@[simp] theorem loopPush_core (c : CoreId) (x y w : Nat) (z : CoreId) : (s.loopPush c x y w).core z = s.core z := by unfold State.core; rw [loopPush_cores]
@[simp] theorem loopPush_ctx (c : CoreId) (x y w : Nat) (z : Nat) : (s.loopPush c x y w).ctx z = s.ctx z := by unfold State.ctx; rw [loopPush_ctxs]
@[simp] theorem loopPush_link (c : CoreId) (x y w : Nat) (z : Nat) : (s.loopPush c x y w).link z = s.link z := by unfold State.link; rw [loopPush_links]
@[simp] theorem loopPush_group (c : CoreId) (x y w : Nat) (z : Nat) : (s.loopPush c x y w).group z = s.group z := by unfold State.group; rw [loopPush_groups]
@[simp] theorem loopPush_stack (c : CoreId) (x y w : Nat) (z : Nat) : (s.loopPush c x y w).stack z = s.stack z := by unfold State.stack; rw [loopPush_hbm]

/-! #### bellFrom -/

@[simp] theorem bellFrom_pending (c : CoreId) (h : BitVec 32) (l : List (BitVec 32)) : (s.bellFrom c h l).pending = s.pending := by unfold State.bellFrom; simp
@[simp] theorem bellFrom_mem (c : CoreId) (h : BitVec 32) (l : List (BitVec 32)) : (s.bellFrom c h l).mem = s.mem := by unfold State.bellFrom; simp
@[simp] theorem bellFrom_poison (c : CoreId) (h : BitVec 32) (l : List (BitVec 32)) : (s.bellFrom c h l).poison = s.poison := by unfold State.bellFrom; simp
@[simp] theorem bellFrom_flash (c : CoreId) (h : BitVec 32) (l : List (BitVec 32)) : (s.bellFrom c h l).flash = s.flash := by unfold State.bellFrom; simp
@[simp] theorem bellFrom_now (c : CoreId) (h : BitVec 32) (l : List (BitVec 32)) : (s.bellFrom c h l).now = s.now := by unfold State.bellFrom; simp
@[simp] theorem bellFrom_cc (c : CoreId) (h : BitVec 32) (l : List (BitVec 32)) : (s.bellFrom c h l).cc = s.cc := by unfold State.bellFrom; simp
@[simp] theorem bellFrom_slot (c : CoreId) (h : BitVec 32) (l : List (BitVec 32)) : (s.bellFrom c h l).slot = s.slot := by unfold State.bellFrom; simp
@[simp] theorem bellFrom_cores (c : CoreId) (h : BitVec 32) (l : List (BitVec 32)) : (s.bellFrom c h l).cores = s.cores := by unfold State.bellFrom; simp
@[simp] theorem bellFrom_ctxs (c : CoreId) (h : BitVec 32) (l : List (BitVec 32)) : (s.bellFrom c h l).ctxs = s.ctxs := by unfold State.bellFrom; simp
@[simp] theorem bellFrom_hbm (c : CoreId) (h : BitVec 32) (l : List (BitVec 32)) : (s.bellFrom c h l).hbm = s.hbm := by unfold State.bellFrom; simp
@[simp] theorem bellFrom_links (c : CoreId) (h : BitVec 32) (l : List (BitVec 32)) : (s.bellFrom c h l).links = s.links := by unfold State.bellFrom; simp
@[simp] theorem bellFrom_groups (c : CoreId) (h : BitVec 32) (l : List (BitVec 32)) : (s.bellFrom c h l).groups = s.groups := by unfold State.bellFrom; simp
@[simp] theorem bellFrom_sem (c : CoreId) (h : BitVec 32) (l : List (BitVec 32)) : (s.bellFrom c h l).sem = s.sem := by unfold State.bellFrom; simp
@[simp] theorem bellFrom_bellServed (c : CoreId) (h : BitVec 32) (l : List (BitVec 32)) : (s.bellFrom c h l).bellServed = s.bellServed := by unfold State.bellFrom; simp
@[simp] theorem bellFrom_beats (c : CoreId) (h : BitVec 32) (l : List (BitVec 32)) : (s.bellFrom c h l).beats = s.beats := by unfold State.bellFrom; simp
@[simp] theorem bellFrom_pond (c : CoreId) (h : BitVec 32) (l : List (BitVec 32)) : (s.bellFrom c h l).pond = s.pond := by unfold State.bellFrom; simp
@[simp] theorem bellFrom_host (c : CoreId) (h : BitVec 32) (l : List (BitVec 32)) : (s.bellFrom c h l).host = s.host := by unfold State.bellFrom; simp
@[simp] theorem bellFrom_ebc (c : CoreId) (h : BitVec 32) (l : List (BitVec 32)) : (s.bellFrom c h l).ebc = s.ebc := by unfold State.bellFrom; simp
@[simp] theorem bellFrom_hearth (c : CoreId) (h : BitVec 32) (l : List (BitVec 32)) : (s.bellFrom c h l).hearth = s.hearth := by unfold State.bellFrom; simp
@[simp] theorem bellFrom_log (c : CoreId) (h : BitVec 32) (l : List (BitVec 32)) : (s.bellFrom c h l).log = s.log := by unfold State.bellFrom; simp
@[simp] theorem bellFrom_dump (c : CoreId) (h : BitVec 32) (l : List (BitVec 32)) : (s.bellFrom c h l).dump = s.dump := by unfold State.bellFrom; simp
@[simp] theorem bellFrom_snapPend (c : CoreId) (h : BitVec 32) (l : List (BitVec 32)) : (s.bellFrom c h l).snapPend = s.snapPend := by unfold State.bellFrom; simp
@[simp] theorem bellFrom_inval (c : CoreId) (h : BitVec 32) (l : List (BitVec 32)) : (s.bellFrom c h l).inval = s.inval := by unfold State.bellFrom; simp
@[simp] theorem bellFrom_sent (c : CoreId) (h : BitVec 32) (l : List (BitVec 32)) : (s.bellFrom c h l).sent = s.sent := by unfold State.bellFrom; simp
@[simp] theorem bellFrom_free (c : CoreId) (h : BitVec 32) (l : List (BitVec 32)) : (s.bellFrom c h l).free = s.free := by unfold State.bellFrom; simp
@[simp] theorem bellFrom_rdB (c : CoreId) (h : BitVec 32) (l : List (BitVec 32)) (z : Nat) : (s.bellFrom c h l).rdB z = s.rdB z := by unfold State.rdB; rw [bellFrom_mem]
@[simp] theorem bellFrom_core (c : CoreId) (h : BitVec 32) (l : List (BitVec 32)) (z : CoreId) : (s.bellFrom c h l).core z = s.core z := by unfold State.core; rw [bellFrom_cores]
@[simp] theorem bellFrom_ctx (c : CoreId) (h : BitVec 32) (l : List (BitVec 32)) (z : Nat) : (s.bellFrom c h l).ctx z = s.ctx z := by unfold State.ctx; rw [bellFrom_ctxs]
@[simp] theorem bellFrom_link (c : CoreId) (h : BitVec 32) (l : List (BitVec 32)) (z : Nat) : (s.bellFrom c h l).link z = s.link z := by unfold State.link; rw [bellFrom_links]
@[simp] theorem bellFrom_group (c : CoreId) (h : BitVec 32) (l : List (BitVec 32)) (z : Nat) : (s.bellFrom c h l).group z = s.group z := by unfold State.group; rw [bellFrom_groups]
@[simp] theorem bellFrom_stack (c : CoreId) (h : BitVec 32) (l : List (BitVec 32)) (z : Nat) : (s.bellFrom c h l).stack z = s.stack z := by unfold State.stack; rw [bellFrom_hbm]

/-! #### bellTaken -/

@[simp] theorem bellTaken_pending (q : MsgKey) : (s.bellTaken q).pending = s.pending := by unfold State.bellTaken; split <;> simp
@[simp] theorem bellTaken_regs (q : MsgKey) : (s.bellTaken q).regs = s.regs := by unfold State.bellTaken; split <;> simp
@[simp] theorem bellTaken_mem (q : MsgKey) : (s.bellTaken q).mem = s.mem := by unfold State.bellTaken; split <;> simp
@[simp] theorem bellTaken_poison (q : MsgKey) : (s.bellTaken q).poison = s.poison := by unfold State.bellTaken; split <;> simp
@[simp] theorem bellTaken_flash (q : MsgKey) : (s.bellTaken q).flash = s.flash := by unfold State.bellTaken; split <;> simp
@[simp] theorem bellTaken_now (q : MsgKey) : (s.bellTaken q).now = s.now := by unfold State.bellTaken; split <;> simp
@[simp] theorem bellTaken_cc (q : MsgKey) : (s.bellTaken q).cc = s.cc := by unfold State.bellTaken; split <;> simp
@[simp] theorem bellTaken_slot (q : MsgKey) : (s.bellTaken q).slot = s.slot := by unfold State.bellTaken; split <;> simp
@[simp] theorem bellTaken_cores (q : MsgKey) : (s.bellTaken q).cores = s.cores := by unfold State.bellTaken; split <;> simp
@[simp] theorem bellTaken_ctxs (q : MsgKey) : (s.bellTaken q).ctxs = s.ctxs := by unfold State.bellTaken; split <;> simp
@[simp] theorem bellTaken_hbm (q : MsgKey) : (s.bellTaken q).hbm = s.hbm := by unfold State.bellTaken; split <;> simp
@[simp] theorem bellTaken_links (q : MsgKey) : (s.bellTaken q).links = s.links := by unfold State.bellTaken; split <;> simp
@[simp] theorem bellTaken_groups (q : MsgKey) : (s.bellTaken q).groups = s.groups := by unfold State.bellTaken; split <;> simp
@[simp] theorem bellTaken_sem (q : MsgKey) : (s.bellTaken q).sem = s.sem := by unfold State.bellTaken; split <;> simp
@[simp] theorem bellTaken_bellServed (q : MsgKey) : (s.bellTaken q).bellServed = s.bellServed := by unfold State.bellTaken; split <;> simp
@[simp] theorem bellTaken_beats (q : MsgKey) : (s.bellTaken q).beats = s.beats := by unfold State.bellTaken; split <;> simp
@[simp] theorem bellTaken_pond (q : MsgKey) : (s.bellTaken q).pond = s.pond := by unfold State.bellTaken; split <;> simp
@[simp] theorem bellTaken_host (q : MsgKey) : (s.bellTaken q).host = s.host := by unfold State.bellTaken; split <;> simp
@[simp] theorem bellTaken_ebc (q : MsgKey) : (s.bellTaken q).ebc = s.ebc := by unfold State.bellTaken; split <;> simp
@[simp] theorem bellTaken_hearth (q : MsgKey) : (s.bellTaken q).hearth = s.hearth := by unfold State.bellTaken; split <;> simp
@[simp] theorem bellTaken_log (q : MsgKey) : (s.bellTaken q).log = s.log := by unfold State.bellTaken; split <;> simp
@[simp] theorem bellTaken_dump (q : MsgKey) : (s.bellTaken q).dump = s.dump := by unfold State.bellTaken; split <;> simp
@[simp] theorem bellTaken_snapPend (q : MsgKey) : (s.bellTaken q).snapPend = s.snapPend := by unfold State.bellTaken; split <;> simp
@[simp] theorem bellTaken_inval (q : MsgKey) : (s.bellTaken q).inval = s.inval := by unfold State.bellTaken; split <;> simp
@[simp] theorem bellTaken_sent (q : MsgKey) : (s.bellTaken q).sent = s.sent := by unfold State.bellTaken; split <;> simp
@[simp] theorem bellTaken_free (q : MsgKey) : (s.bellTaken q).free = s.free := by unfold State.bellTaken; split <;> simp
@[simp] theorem bellTaken_reg (q : MsgKey) (z : Nat) : (s.bellTaken q).reg z = s.reg z := by unfold State.reg; rw [bellTaken_regs]
@[simp] theorem bellTaken_fget (q : MsgKey) (z : Nat) (fd : Fd) : (s.bellTaken q).fget z fd = s.fget z fd := by unfold State.fget State.reg; rw [bellTaken_regs]
@[simp] theorem bellTaken_flag (q : MsgKey) (z : Nat) (fd : Fd) : (s.bellTaken q).flag z fd = s.flag z fd := by unfold State.flag State.fget State.reg; rw [bellTaken_regs]
@[simp] theorem bellTaken_run (q : MsgKey) (z : CoreId) : (s.bellTaken q).run z = s.run z := by unfold State.run State.flag State.fget State.reg; rw [bellTaken_regs]
@[simp] theorem bellTaken_coreCtx (q : MsgKey) (z : CoreId) : (s.bellTaken q).coreCtx z = s.coreCtx z := by simp only [State.coreCtx, State.fget, State.reg, bellTaken_regs]
@[simp] theorem bellTaken_rdB (q : MsgKey) (z : Nat) : (s.bellTaken q).rdB z = s.rdB z := by unfold State.rdB; rw [bellTaken_mem]
@[simp] theorem bellTaken_core (q : MsgKey) (z : CoreId) : (s.bellTaken q).core z = s.core z := by unfold State.core; rw [bellTaken_cores]
@[simp] theorem bellTaken_ctx (q : MsgKey) (z : Nat) : (s.bellTaken q).ctx z = s.ctx z := by unfold State.ctx; rw [bellTaken_ctxs]
@[simp] theorem bellTaken_link (q : MsgKey) (z : Nat) : (s.bellTaken q).link z = s.link z := by unfold State.link; rw [bellTaken_links]
@[simp] theorem bellTaken_group (q : MsgKey) (z : Nat) : (s.bellTaken q).group z = s.group z := by unfold State.group; rw [bellTaken_groups]
@[simp] theorem bellTaken_stack (q : MsgKey) (z : Nat) : (s.bellTaken q).stack z = s.stack z := by unfold State.stack; rw [bellTaken_hbm]

/-! #### bellDie -/

@[simp] theorem bellDie_pending (h r : Nat) (d : BitVec 32) (l : List (BitVec 32)) : (s.bellDie h r d l).pending = s.pending := by unfold State.bellDie; simp
@[simp] theorem bellDie_regs (h r : Nat) (d : BitVec 32) (l : List (BitVec 32)) : (s.bellDie h r d l).regs = s.regs := by unfold State.bellDie; simp
@[simp] theorem bellDie_mem (h r : Nat) (d : BitVec 32) (l : List (BitVec 32)) : (s.bellDie h r d l).mem = s.mem := by unfold State.bellDie; simp
@[simp] theorem bellDie_poison (h r : Nat) (d : BitVec 32) (l : List (BitVec 32)) : (s.bellDie h r d l).poison = s.poison := by unfold State.bellDie; simp
@[simp] theorem bellDie_flash (h r : Nat) (d : BitVec 32) (l : List (BitVec 32)) : (s.bellDie h r d l).flash = s.flash := by unfold State.bellDie; simp
@[simp] theorem bellDie_now (h r : Nat) (d : BitVec 32) (l : List (BitVec 32)) : (s.bellDie h r d l).now = s.now := by unfold State.bellDie; simp
@[simp] theorem bellDie_cc (h r : Nat) (d : BitVec 32) (l : List (BitVec 32)) : (s.bellDie h r d l).cc = s.cc := by unfold State.bellDie; simp
@[simp] theorem bellDie_slot (h r : Nat) (d : BitVec 32) (l : List (BitVec 32)) : (s.bellDie h r d l).slot = s.slot := by unfold State.bellDie; simp
@[simp] theorem bellDie_cores (h r : Nat) (d : BitVec 32) (l : List (BitVec 32)) : (s.bellDie h r d l).cores = s.cores := by unfold State.bellDie; simp
@[simp] theorem bellDie_ctxs (h r : Nat) (d : BitVec 32) (l : List (BitVec 32)) : (s.bellDie h r d l).ctxs = s.ctxs := by unfold State.bellDie; simp
@[simp] theorem bellDie_hbm (h r : Nat) (d : BitVec 32) (l : List (BitVec 32)) : (s.bellDie h r d l).hbm = s.hbm := by unfold State.bellDie; simp
@[simp] theorem bellDie_links (h r : Nat) (d : BitVec 32) (l : List (BitVec 32)) : (s.bellDie h r d l).links = s.links := by unfold State.bellDie; simp
@[simp] theorem bellDie_groups (h r : Nat) (d : BitVec 32) (l : List (BitVec 32)) : (s.bellDie h r d l).groups = s.groups := by unfold State.bellDie; simp
@[simp] theorem bellDie_sem (h r : Nat) (d : BitVec 32) (l : List (BitVec 32)) : (s.bellDie h r d l).sem = s.sem := by unfold State.bellDie; simp
@[simp] theorem bellDie_bellServed (h r : Nat) (d : BitVec 32) (l : List (BitVec 32)) : (s.bellDie h r d l).bellServed = s.bellServed := by unfold State.bellDie; simp
@[simp] theorem bellDie_beats (h r : Nat) (d : BitVec 32) (l : List (BitVec 32)) : (s.bellDie h r d l).beats = s.beats := by unfold State.bellDie; simp
@[simp] theorem bellDie_pond (h r : Nat) (d : BitVec 32) (l : List (BitVec 32)) : (s.bellDie h r d l).pond = s.pond := by unfold State.bellDie; simp
@[simp] theorem bellDie_host (h r : Nat) (d : BitVec 32) (l : List (BitVec 32)) : (s.bellDie h r d l).host = s.host := by unfold State.bellDie; simp
@[simp] theorem bellDie_ebc (h r : Nat) (d : BitVec 32) (l : List (BitVec 32)) : (s.bellDie h r d l).ebc = s.ebc := by unfold State.bellDie; simp
@[simp] theorem bellDie_hearth (h r : Nat) (d : BitVec 32) (l : List (BitVec 32)) : (s.bellDie h r d l).hearth = s.hearth := by unfold State.bellDie; simp
@[simp] theorem bellDie_log (h r : Nat) (d : BitVec 32) (l : List (BitVec 32)) : (s.bellDie h r d l).log = s.log := by unfold State.bellDie; simp
@[simp] theorem bellDie_dump (h r : Nat) (d : BitVec 32) (l : List (BitVec 32)) : (s.bellDie h r d l).dump = s.dump := by unfold State.bellDie; simp
@[simp] theorem bellDie_snapPend (h r : Nat) (d : BitVec 32) (l : List (BitVec 32)) : (s.bellDie h r d l).snapPend = s.snapPend := by unfold State.bellDie; simp
@[simp] theorem bellDie_inval (h r : Nat) (d : BitVec 32) (l : List (BitVec 32)) : (s.bellDie h r d l).inval = s.inval := by unfold State.bellDie; simp
@[simp] theorem bellDie_sent (h r : Nat) (d : BitVec 32) (l : List (BitVec 32)) : (s.bellDie h r d l).sent = s.sent := by unfold State.bellDie; simp
@[simp] theorem bellDie_free (h r : Nat) (d : BitVec 32) (l : List (BitVec 32)) : (s.bellDie h r d l).free = s.free := by unfold State.bellDie; simp
@[simp] theorem bellDie_reg (h r : Nat) (d : BitVec 32) (l : List (BitVec 32)) (z : Nat) : (s.bellDie h r d l).reg z = s.reg z := by unfold State.reg; rw [bellDie_regs]
@[simp] theorem bellDie_fget (h r : Nat) (d : BitVec 32) (l : List (BitVec 32)) (z : Nat) (fd : Fd) : (s.bellDie h r d l).fget z fd = s.fget z fd := by unfold State.fget State.reg; rw [bellDie_regs]
@[simp] theorem bellDie_flag (h r : Nat) (d : BitVec 32) (l : List (BitVec 32)) (z : Nat) (fd : Fd) : (s.bellDie h r d l).flag z fd = s.flag z fd := by unfold State.flag State.fget State.reg; rw [bellDie_regs]
@[simp] theorem bellDie_run (h r : Nat) (d : BitVec 32) (l : List (BitVec 32)) (z : CoreId) : (s.bellDie h r d l).run z = s.run z := by unfold State.run State.flag State.fget State.reg; rw [bellDie_regs]
@[simp] theorem bellDie_coreCtx (h r : Nat) (d : BitVec 32) (l : List (BitVec 32)) (z : CoreId) : (s.bellDie h r d l).coreCtx z = s.coreCtx z := by simp only [State.coreCtx, State.fget, State.reg, bellDie_regs]
@[simp] theorem bellDie_rdB (h r : Nat) (d : BitVec 32) (l : List (BitVec 32)) (z : Nat) : (s.bellDie h r d l).rdB z = s.rdB z := by unfold State.rdB; rw [bellDie_mem]
@[simp] theorem bellDie_core (h r : Nat) (d : BitVec 32) (l : List (BitVec 32)) (z : CoreId) : (s.bellDie h r d l).core z = s.core z := by unfold State.core; rw [bellDie_cores]
@[simp] theorem bellDie_ctx (h r : Nat) (d : BitVec 32) (l : List (BitVec 32)) (z : Nat) : (s.bellDie h r d l).ctx z = s.ctx z := by unfold State.ctx; rw [bellDie_ctxs]
@[simp] theorem bellDie_link (h r : Nat) (d : BitVec 32) (l : List (BitVec 32)) (z : Nat) : (s.bellDie h r d l).link z = s.link z := by unfold State.link; rw [bellDie_links]
@[simp] theorem bellDie_group (h r : Nat) (d : BitVec 32) (l : List (BitVec 32)) (z : Nat) : (s.bellDie h r d l).group z = s.group z := by unfold State.group; rw [bellDie_groups]
@[simp] theorem bellDie_stack (h r : Nat) (d : BitVec 32) (l : List (BitVec 32)) (z : Nat) : (s.bellDie h r d l).stack z = s.stack z := by unfold State.stack; rw [bellDie_hbm]

/-! #### bellToCore -/

@[simp] theorem bellToCore_pending (t k : Nat) (c : CoreId) (x : Nat) (l : List (BitVec 32)) : (s.bellToCore t k c x l).pending = s.pending := by unfold State.bellToCore; simp
@[simp] theorem bellToCore_regs (t k : Nat) (c : CoreId) (x : Nat) (l : List (BitVec 32)) : (s.bellToCore t k c x l).regs = s.regs := by unfold State.bellToCore; simp
@[simp] theorem bellToCore_mem (t k : Nat) (c : CoreId) (x : Nat) (l : List (BitVec 32)) : (s.bellToCore t k c x l).mem = s.mem := by unfold State.bellToCore; simp
@[simp] theorem bellToCore_poison (t k : Nat) (c : CoreId) (x : Nat) (l : List (BitVec 32)) : (s.bellToCore t k c x l).poison = s.poison := by unfold State.bellToCore; simp
@[simp] theorem bellToCore_flash (t k : Nat) (c : CoreId) (x : Nat) (l : List (BitVec 32)) : (s.bellToCore t k c x l).flash = s.flash := by unfold State.bellToCore; simp
@[simp] theorem bellToCore_now (t k : Nat) (c : CoreId) (x : Nat) (l : List (BitVec 32)) : (s.bellToCore t k c x l).now = s.now := by unfold State.bellToCore; simp
@[simp] theorem bellToCore_cc (t k : Nat) (c : CoreId) (x : Nat) (l : List (BitVec 32)) : (s.bellToCore t k c x l).cc = s.cc := by unfold State.bellToCore; simp
@[simp] theorem bellToCore_slot (t k : Nat) (c : CoreId) (x : Nat) (l : List (BitVec 32)) : (s.bellToCore t k c x l).slot = s.slot := by unfold State.bellToCore; simp
@[simp] theorem bellToCore_cores (t k : Nat) (c : CoreId) (x : Nat) (l : List (BitVec 32)) : (s.bellToCore t k c x l).cores = s.cores := by unfold State.bellToCore; simp
@[simp] theorem bellToCore_ctxs (t k : Nat) (c : CoreId) (x : Nat) (l : List (BitVec 32)) : (s.bellToCore t k c x l).ctxs = s.ctxs := by unfold State.bellToCore; simp
@[simp] theorem bellToCore_hbm (t k : Nat) (c : CoreId) (x : Nat) (l : List (BitVec 32)) : (s.bellToCore t k c x l).hbm = s.hbm := by unfold State.bellToCore; simp
@[simp] theorem bellToCore_links (t k : Nat) (c : CoreId) (x : Nat) (l : List (BitVec 32)) : (s.bellToCore t k c x l).links = s.links := by unfold State.bellToCore; simp
@[simp] theorem bellToCore_groups (t k : Nat) (c : CoreId) (x : Nat) (l : List (BitVec 32)) : (s.bellToCore t k c x l).groups = s.groups := by unfold State.bellToCore; simp
@[simp] theorem bellToCore_sem (t k : Nat) (c : CoreId) (x : Nat) (l : List (BitVec 32)) : (s.bellToCore t k c x l).sem = s.sem := by unfold State.bellToCore; simp
@[simp] theorem bellToCore_bellServed (t k : Nat) (c : CoreId) (x : Nat) (l : List (BitVec 32)) : (s.bellToCore t k c x l).bellServed = s.bellServed := by unfold State.bellToCore; simp
@[simp] theorem bellToCore_beats (t k : Nat) (c : CoreId) (x : Nat) (l : List (BitVec 32)) : (s.bellToCore t k c x l).beats = s.beats := by unfold State.bellToCore; simp
@[simp] theorem bellToCore_pond (t k : Nat) (c : CoreId) (x : Nat) (l : List (BitVec 32)) : (s.bellToCore t k c x l).pond = s.pond := by unfold State.bellToCore; simp
@[simp] theorem bellToCore_host (t k : Nat) (c : CoreId) (x : Nat) (l : List (BitVec 32)) : (s.bellToCore t k c x l).host = s.host := by unfold State.bellToCore; simp
@[simp] theorem bellToCore_ebc (t k : Nat) (c : CoreId) (x : Nat) (l : List (BitVec 32)) : (s.bellToCore t k c x l).ebc = s.ebc := by unfold State.bellToCore; simp
@[simp] theorem bellToCore_hearth (t k : Nat) (c : CoreId) (x : Nat) (l : List (BitVec 32)) : (s.bellToCore t k c x l).hearth = s.hearth := by unfold State.bellToCore; simp
@[simp] theorem bellToCore_log (t k : Nat) (c : CoreId) (x : Nat) (l : List (BitVec 32)) : (s.bellToCore t k c x l).log = s.log := by unfold State.bellToCore; simp
@[simp] theorem bellToCore_dump (t k : Nat) (c : CoreId) (x : Nat) (l : List (BitVec 32)) : (s.bellToCore t k c x l).dump = s.dump := by unfold State.bellToCore; simp
@[simp] theorem bellToCore_snapPend (t k : Nat) (c : CoreId) (x : Nat) (l : List (BitVec 32)) : (s.bellToCore t k c x l).snapPend = s.snapPend := by unfold State.bellToCore; simp
@[simp] theorem bellToCore_inval (t k : Nat) (c : CoreId) (x : Nat) (l : List (BitVec 32)) : (s.bellToCore t k c x l).inval = s.inval := by unfold State.bellToCore; simp
@[simp] theorem bellToCore_sent (t k : Nat) (c : CoreId) (x : Nat) (l : List (BitVec 32)) : (s.bellToCore t k c x l).sent = s.sent := by unfold State.bellToCore; simp
@[simp] theorem bellToCore_free (t k : Nat) (c : CoreId) (x : Nat) (l : List (BitVec 32)) : (s.bellToCore t k c x l).free = s.free := by unfold State.bellToCore; simp
@[simp] theorem bellToCore_reg (t k : Nat) (c : CoreId) (x : Nat) (l : List (BitVec 32)) (z : Nat) : (s.bellToCore t k c x l).reg z = s.reg z := by unfold State.reg; rw [bellToCore_regs]
@[simp] theorem bellToCore_fget (t k : Nat) (c : CoreId) (x : Nat) (l : List (BitVec 32)) (z : Nat) (fd : Fd) : (s.bellToCore t k c x l).fget z fd = s.fget z fd := by unfold State.fget State.reg; rw [bellToCore_regs]
@[simp] theorem bellToCore_flag (t k : Nat) (c : CoreId) (x : Nat) (l : List (BitVec 32)) (z : Nat) (fd : Fd) : (s.bellToCore t k c x l).flag z fd = s.flag z fd := by unfold State.flag State.fget State.reg; rw [bellToCore_regs]
@[simp] theorem bellToCore_run (t k : Nat) (c : CoreId) (x : Nat) (l : List (BitVec 32)) (z : CoreId) : (s.bellToCore t k c x l).run z = s.run z := by unfold State.run State.flag State.fget State.reg; rw [bellToCore_regs]
@[simp] theorem bellToCore_coreCtx (t k : Nat) (c : CoreId) (x : Nat) (l : List (BitVec 32)) (z : CoreId) : (s.bellToCore t k c x l).coreCtx z = s.coreCtx z := by simp only [State.coreCtx, State.fget, State.reg, bellToCore_regs]
@[simp] theorem bellToCore_rdB (t k : Nat) (c : CoreId) (x : Nat) (l : List (BitVec 32)) (z : Nat) : (s.bellToCore t k c x l).rdB z = s.rdB z := by unfold State.rdB; rw [bellToCore_mem]
@[simp] theorem bellToCore_core (t k : Nat) (c : CoreId) (x : Nat) (l : List (BitVec 32)) (z : CoreId) : (s.bellToCore t k c x l).core z = s.core z := by unfold State.core; rw [bellToCore_cores]
@[simp] theorem bellToCore_ctx (t k : Nat) (c : CoreId) (x : Nat) (l : List (BitVec 32)) (z : Nat) : (s.bellToCore t k c x l).ctx z = s.ctx z := by unfold State.ctx; rw [bellToCore_ctxs]
@[simp] theorem bellToCore_link (t k : Nat) (c : CoreId) (x : Nat) (l : List (BitVec 32)) (z : Nat) : (s.bellToCore t k c x l).link z = s.link z := by unfold State.link; rw [bellToCore_links]
@[simp] theorem bellToCore_group (t k : Nat) (c : CoreId) (x : Nat) (l : List (BitVec 32)) (z : Nat) : (s.bellToCore t k c x l).group z = s.group z := by unfold State.group; rw [bellToCore_groups]
@[simp] theorem bellToCore_stack (t k : Nat) (c : CoreId) (x : Nat) (l : List (BitVec 32)) (z : Nat) : (s.bellToCore t k c x l).stack z = s.stack z := by unfold State.stack; rw [bellToCore_hbm]

/-! #### bellReturn -/

@[simp] theorem bellReturn_pending (c : CoreId) (t : Nat) (k : CtxId) (x : Nat) (l : List (BitVec 32)) : (s.bellReturn c t k x l).pending = s.pending := by unfold State.bellReturn; simp
@[simp] theorem bellReturn_regs (c : CoreId) (t : Nat) (k : CtxId) (x : Nat) (l : List (BitVec 32)) : (s.bellReturn c t k x l).regs = s.regs := by unfold State.bellReturn; simp
@[simp] theorem bellReturn_mem (c : CoreId) (t : Nat) (k : CtxId) (x : Nat) (l : List (BitVec 32)) : (s.bellReturn c t k x l).mem = s.mem := by unfold State.bellReturn; simp
@[simp] theorem bellReturn_poison (c : CoreId) (t : Nat) (k : CtxId) (x : Nat) (l : List (BitVec 32)) : (s.bellReturn c t k x l).poison = s.poison := by unfold State.bellReturn; simp
@[simp] theorem bellReturn_flash (c : CoreId) (t : Nat) (k : CtxId) (x : Nat) (l : List (BitVec 32)) : (s.bellReturn c t k x l).flash = s.flash := by unfold State.bellReturn; simp
@[simp] theorem bellReturn_now (c : CoreId) (t : Nat) (k : CtxId) (x : Nat) (l : List (BitVec 32)) : (s.bellReturn c t k x l).now = s.now := by unfold State.bellReturn; simp
@[simp] theorem bellReturn_cc (c : CoreId) (t : Nat) (k : CtxId) (x : Nat) (l : List (BitVec 32)) : (s.bellReturn c t k x l).cc = s.cc := by unfold State.bellReturn; simp
@[simp] theorem bellReturn_slot (c : CoreId) (t : Nat) (k : CtxId) (x : Nat) (l : List (BitVec 32)) : (s.bellReturn c t k x l).slot = s.slot := by unfold State.bellReturn; simp
@[simp] theorem bellReturn_cores (c : CoreId) (t : Nat) (k : CtxId) (x : Nat) (l : List (BitVec 32)) : (s.bellReturn c t k x l).cores = s.cores := by unfold State.bellReturn; simp
@[simp] theorem bellReturn_ctxs (c : CoreId) (t : Nat) (k : CtxId) (x : Nat) (l : List (BitVec 32)) : (s.bellReturn c t k x l).ctxs = s.ctxs := by unfold State.bellReturn; simp
@[simp] theorem bellReturn_hbm (c : CoreId) (t : Nat) (k : CtxId) (x : Nat) (l : List (BitVec 32)) : (s.bellReturn c t k x l).hbm = s.hbm := by unfold State.bellReturn; simp
@[simp] theorem bellReturn_links (c : CoreId) (t : Nat) (k : CtxId) (x : Nat) (l : List (BitVec 32)) : (s.bellReturn c t k x l).links = s.links := by unfold State.bellReturn; simp
@[simp] theorem bellReturn_groups (c : CoreId) (t : Nat) (k : CtxId) (x : Nat) (l : List (BitVec 32)) : (s.bellReturn c t k x l).groups = s.groups := by unfold State.bellReturn; simp
@[simp] theorem bellReturn_sem (c : CoreId) (t : Nat) (k : CtxId) (x : Nat) (l : List (BitVec 32)) : (s.bellReturn c t k x l).sem = s.sem := by unfold State.bellReturn; simp
@[simp] theorem bellReturn_bellServed (c : CoreId) (t : Nat) (k : CtxId) (x : Nat) (l : List (BitVec 32)) : (s.bellReturn c t k x l).bellServed = s.bellServed := by unfold State.bellReturn; simp
@[simp] theorem bellReturn_beats (c : CoreId) (t : Nat) (k : CtxId) (x : Nat) (l : List (BitVec 32)) : (s.bellReturn c t k x l).beats = s.beats := by unfold State.bellReturn; simp
@[simp] theorem bellReturn_pond (c : CoreId) (t : Nat) (k : CtxId) (x : Nat) (l : List (BitVec 32)) : (s.bellReturn c t k x l).pond = s.pond := by unfold State.bellReturn; simp
@[simp] theorem bellReturn_host (c : CoreId) (t : Nat) (k : CtxId) (x : Nat) (l : List (BitVec 32)) : (s.bellReturn c t k x l).host = s.host := by unfold State.bellReturn; simp
@[simp] theorem bellReturn_ebc (c : CoreId) (t : Nat) (k : CtxId) (x : Nat) (l : List (BitVec 32)) : (s.bellReturn c t k x l).ebc = s.ebc := by unfold State.bellReturn; simp
@[simp] theorem bellReturn_hearth (c : CoreId) (t : Nat) (k : CtxId) (x : Nat) (l : List (BitVec 32)) : (s.bellReturn c t k x l).hearth = s.hearth := by unfold State.bellReturn; simp
@[simp] theorem bellReturn_log (c : CoreId) (t : Nat) (k : CtxId) (x : Nat) (l : List (BitVec 32)) : (s.bellReturn c t k x l).log = s.log := by unfold State.bellReturn; simp
@[simp] theorem bellReturn_dump (c : CoreId) (t : Nat) (k : CtxId) (x : Nat) (l : List (BitVec 32)) : (s.bellReturn c t k x l).dump = s.dump := by unfold State.bellReturn; simp
@[simp] theorem bellReturn_snapPend (c : CoreId) (t : Nat) (k : CtxId) (x : Nat) (l : List (BitVec 32)) : (s.bellReturn c t k x l).snapPend = s.snapPend := by unfold State.bellReturn; simp
@[simp] theorem bellReturn_inval (c : CoreId) (t : Nat) (k : CtxId) (x : Nat) (l : List (BitVec 32)) : (s.bellReturn c t k x l).inval = s.inval := by unfold State.bellReturn; simp
@[simp] theorem bellReturn_sent (c : CoreId) (t : Nat) (k : CtxId) (x : Nat) (l : List (BitVec 32)) : (s.bellReturn c t k x l).sent = s.sent := by unfold State.bellReturn; simp
@[simp] theorem bellReturn_free (c : CoreId) (t : Nat) (k : CtxId) (x : Nat) (l : List (BitVec 32)) : (s.bellReturn c t k x l).free = s.free := by unfold State.bellReturn; simp
@[simp] theorem bellReturn_reg (c : CoreId) (t : Nat) (k : CtxId) (x : Nat) (l : List (BitVec 32)) (z : Nat) : (s.bellReturn c t k x l).reg z = s.reg z := by unfold State.reg; rw [bellReturn_regs]
@[simp] theorem bellReturn_fget (c : CoreId) (t : Nat) (k : CtxId) (x : Nat) (l : List (BitVec 32)) (z : Nat) (fd : Fd) : (s.bellReturn c t k x l).fget z fd = s.fget z fd := by unfold State.fget State.reg; rw [bellReturn_regs]
@[simp] theorem bellReturn_flag (c : CoreId) (t : Nat) (k : CtxId) (x : Nat) (l : List (BitVec 32)) (z : Nat) (fd : Fd) : (s.bellReturn c t k x l).flag z fd = s.flag z fd := by unfold State.flag State.fget State.reg; rw [bellReturn_regs]
@[simp] theorem bellReturn_run (c : CoreId) (t : Nat) (k : CtxId) (x : Nat) (l : List (BitVec 32)) (z : CoreId) : (s.bellReturn c t k x l).run z = s.run z := by unfold State.run State.flag State.fget State.reg; rw [bellReturn_regs]
@[simp] theorem bellReturn_coreCtx (c : CoreId) (t : Nat) (k : CtxId) (x : Nat) (l : List (BitVec 32)) (z : CoreId) : (s.bellReturn c t k x l).coreCtx z = s.coreCtx z := by simp only [State.coreCtx, State.fget, State.reg, bellReturn_regs]
@[simp] theorem bellReturn_rdB (c : CoreId) (t : Nat) (k : CtxId) (x : Nat) (l : List (BitVec 32)) (z : Nat) : (s.bellReturn c t k x l).rdB z = s.rdB z := by unfold State.rdB; rw [bellReturn_mem]
@[simp] theorem bellReturn_core (c : CoreId) (t : Nat) (k : CtxId) (x : Nat) (l : List (BitVec 32)) (z : CoreId) : (s.bellReturn c t k x l).core z = s.core z := by unfold State.core; rw [bellReturn_cores]
@[simp] theorem bellReturn_ctx (c : CoreId) (t : Nat) (k : CtxId) (x : Nat) (l : List (BitVec 32)) (z : Nat) : (s.bellReturn c t k x l).ctx z = s.ctx z := by unfold State.ctx; rw [bellReturn_ctxs]
@[simp] theorem bellReturn_link (c : CoreId) (t : Nat) (k : CtxId) (x : Nat) (l : List (BitVec 32)) (z : Nat) : (s.bellReturn c t k x l).link z = s.link z := by unfold State.link; rw [bellReturn_links]
@[simp] theorem bellReturn_group (c : CoreId) (t : Nat) (k : CtxId) (x : Nat) (l : List (BitVec 32)) (z : Nat) : (s.bellReturn c t k x l).group z = s.group z := by unfold State.group; rw [bellReturn_groups]
@[simp] theorem bellReturn_stack (c : CoreId) (t : Nat) (k : CtxId) (x : Nat) (l : List (BitVec 32)) (z : Nat) : (s.bellReturn c t k x l).stack z = s.stack z := by unfold State.stack; rw [bellReturn_hbm]

/-! #### sendWake -/

@[simp] theorem sendWake_pending (c : CoreId) (k : CtxId) (b : Bool) : (s.sendWake c k b).pending = s.pending := by unfold State.sendWake; simp
@[simp] theorem sendWake_regs (c : CoreId) (k : CtxId) (b : Bool) : (s.sendWake c k b).regs = s.regs := by unfold State.sendWake; simp
@[simp] theorem sendWake_mem (c : CoreId) (k : CtxId) (b : Bool) : (s.sendWake c k b).mem = s.mem := by unfold State.sendWake; simp
@[simp] theorem sendWake_poison (c : CoreId) (k : CtxId) (b : Bool) : (s.sendWake c k b).poison = s.poison := by unfold State.sendWake; simp
@[simp] theorem sendWake_flash (c : CoreId) (k : CtxId) (b : Bool) : (s.sendWake c k b).flash = s.flash := by unfold State.sendWake; simp
@[simp] theorem sendWake_now (c : CoreId) (k : CtxId) (b : Bool) : (s.sendWake c k b).now = s.now := by unfold State.sendWake; simp
@[simp] theorem sendWake_cc (c : CoreId) (k : CtxId) (b : Bool) : (s.sendWake c k b).cc = s.cc := by unfold State.sendWake; simp
@[simp] theorem sendWake_slot (c : CoreId) (k : CtxId) (b : Bool) : (s.sendWake c k b).slot = s.slot := by unfold State.sendWake; simp
@[simp] theorem sendWake_cores (c : CoreId) (k : CtxId) (b : Bool) : (s.sendWake c k b).cores = s.cores := by unfold State.sendWake; simp
@[simp] theorem sendWake_ctxs (c : CoreId) (k : CtxId) (b : Bool) : (s.sendWake c k b).ctxs = s.ctxs := by unfold State.sendWake; simp
@[simp] theorem sendWake_hbm (c : CoreId) (k : CtxId) (b : Bool) : (s.sendWake c k b).hbm = s.hbm := by unfold State.sendWake; simp
@[simp] theorem sendWake_links (c : CoreId) (k : CtxId) (b : Bool) : (s.sendWake c k b).links = s.links := by unfold State.sendWake; simp
@[simp] theorem sendWake_groups (c : CoreId) (k : CtxId) (b : Bool) : (s.sendWake c k b).groups = s.groups := by unfold State.sendWake; simp
@[simp] theorem sendWake_sem (c : CoreId) (k : CtxId) (b : Bool) : (s.sendWake c k b).sem = s.sem := by unfold State.sendWake; simp
@[simp] theorem sendWake_bellServed (c : CoreId) (k : CtxId) (b : Bool) : (s.sendWake c k b).bellServed = s.bellServed := by unfold State.sendWake; simp
@[simp] theorem sendWake_beats (c : CoreId) (k : CtxId) (b : Bool) : (s.sendWake c k b).beats = s.beats := by unfold State.sendWake; simp
@[simp] theorem sendWake_pond (c : CoreId) (k : CtxId) (b : Bool) : (s.sendWake c k b).pond = s.pond := by unfold State.sendWake; simp
@[simp] theorem sendWake_host (c : CoreId) (k : CtxId) (b : Bool) : (s.sendWake c k b).host = s.host := by unfold State.sendWake; simp
@[simp] theorem sendWake_ebc (c : CoreId) (k : CtxId) (b : Bool) : (s.sendWake c k b).ebc = s.ebc := by unfold State.sendWake; simp
@[simp] theorem sendWake_hearth (c : CoreId) (k : CtxId) (b : Bool) : (s.sendWake c k b).hearth = s.hearth := by unfold State.sendWake; simp
@[simp] theorem sendWake_log (c : CoreId) (k : CtxId) (b : Bool) : (s.sendWake c k b).log = s.log := by unfold State.sendWake; simp
@[simp] theorem sendWake_dump (c : CoreId) (k : CtxId) (b : Bool) : (s.sendWake c k b).dump = s.dump := by unfold State.sendWake; simp
@[simp] theorem sendWake_snapPend (c : CoreId) (k : CtxId) (b : Bool) : (s.sendWake c k b).snapPend = s.snapPend := by unfold State.sendWake; simp
@[simp] theorem sendWake_inval (c : CoreId) (k : CtxId) (b : Bool) : (s.sendWake c k b).inval = s.inval := by unfold State.sendWake; simp
@[simp] theorem sendWake_sent (c : CoreId) (k : CtxId) (b : Bool) : (s.sendWake c k b).sent = s.sent := by unfold State.sendWake; simp
@[simp] theorem sendWake_free (c : CoreId) (k : CtxId) (b : Bool) : (s.sendWake c k b).free = s.free := by unfold State.sendWake; simp
@[simp] theorem sendWake_reg (c : CoreId) (k : CtxId) (b : Bool) (z : Nat) : (s.sendWake c k b).reg z = s.reg z := by unfold State.reg; rw [sendWake_regs]
@[simp] theorem sendWake_fget (c : CoreId) (k : CtxId) (b : Bool) (z : Nat) (fd : Fd) : (s.sendWake c k b).fget z fd = s.fget z fd := by unfold State.fget State.reg; rw [sendWake_regs]
@[simp] theorem sendWake_flag (c : CoreId) (k : CtxId) (b : Bool) (z : Nat) (fd : Fd) : (s.sendWake c k b).flag z fd = s.flag z fd := by unfold State.flag State.fget State.reg; rw [sendWake_regs]
@[simp] theorem sendWake_run (c : CoreId) (k : CtxId) (b : Bool) (z : CoreId) : (s.sendWake c k b).run z = s.run z := by unfold State.run State.flag State.fget State.reg; rw [sendWake_regs]
@[simp] theorem sendWake_coreCtx (c : CoreId) (k : CtxId) (b : Bool) (z : CoreId) : (s.sendWake c k b).coreCtx z = s.coreCtx z := by simp only [State.coreCtx, State.fget, State.reg, sendWake_regs]
@[simp] theorem sendWake_rdB (c : CoreId) (k : CtxId) (b : Bool) (z : Nat) : (s.sendWake c k b).rdB z = s.rdB z := by unfold State.rdB; rw [sendWake_mem]
@[simp] theorem sendWake_core (c : CoreId) (k : CtxId) (b : Bool) (z : CoreId) : (s.sendWake c k b).core z = s.core z := by unfold State.core; rw [sendWake_cores]
@[simp] theorem sendWake_ctx (c : CoreId) (k : CtxId) (b : Bool) (z : Nat) : (s.sendWake c k b).ctx z = s.ctx z := by unfold State.ctx; rw [sendWake_ctxs]
@[simp] theorem sendWake_link (c : CoreId) (k : CtxId) (b : Bool) (z : Nat) : (s.sendWake c k b).link z = s.link z := by unfold State.link; rw [sendWake_links]
@[simp] theorem sendWake_group (c : CoreId) (k : CtxId) (b : Bool) (z : Nat) : (s.sendWake c k b).group z = s.group z := by unfold State.group; rw [sendWake_groups]
@[simp] theorem sendWake_stack (c : CoreId) (k : CtxId) (b : Bool) (z : Nat) : (s.sendWake c k b).stack z = s.stack z := by unfold State.stack; rw [sendWake_hbm]

/-! #### scAdd -/

@[simp] theorem scAdd_pending (c : CoreId) (k : Nat) (d : Int) : (s.scAdd c k d).pending = s.pending := by unfold State.scAdd; dsimp only; split <;> simp
@[simp] theorem scAdd_mem (c : CoreId) (k : Nat) (d : Int) : (s.scAdd c k d).mem = s.mem := by unfold State.scAdd; dsimp only; split <;> simp
@[simp] theorem scAdd_poison (c : CoreId) (k : Nat) (d : Int) : (s.scAdd c k d).poison = s.poison := by unfold State.scAdd; dsimp only; split <;> simp
@[simp] theorem scAdd_flash (c : CoreId) (k : Nat) (d : Int) : (s.scAdd c k d).flash = s.flash := by unfold State.scAdd; dsimp only; split <;> simp
@[simp] theorem scAdd_now (c : CoreId) (k : Nat) (d : Int) : (s.scAdd c k d).now = s.now := by unfold State.scAdd; dsimp only; split <;> simp
@[simp] theorem scAdd_cc (c : CoreId) (k : Nat) (d : Int) : (s.scAdd c k d).cc = s.cc := by unfold State.scAdd; dsimp only; split <;> simp
@[simp] theorem scAdd_slot (c : CoreId) (k : Nat) (d : Int) : (s.scAdd c k d).slot = s.slot := by unfold State.scAdd; dsimp only; split <;> simp
@[simp] theorem scAdd_ctxs (c : CoreId) (k : Nat) (d : Int) : (s.scAdd c k d).ctxs = s.ctxs := by unfold State.scAdd; dsimp only; split <;> simp
@[simp] theorem scAdd_hbm (c : CoreId) (k : Nat) (d : Int) : (s.scAdd c k d).hbm = s.hbm := by unfold State.scAdd; dsimp only; split <;> simp
@[simp] theorem scAdd_links (c : CoreId) (k : Nat) (d : Int) : (s.scAdd c k d).links = s.links := by unfold State.scAdd; dsimp only; split <;> simp
@[simp] theorem scAdd_groups (c : CoreId) (k : Nat) (d : Int) : (s.scAdd c k d).groups = s.groups := by unfold State.scAdd; dsimp only; split <;> simp
@[simp] theorem scAdd_sem (c : CoreId) (k : Nat) (d : Int) : (s.scAdd c k d).sem = s.sem := by unfold State.scAdd; dsimp only; split <;> simp
@[simp] theorem scAdd_bell (c : CoreId) (k : Nat) (d : Int) : (s.scAdd c k d).bell = s.bell := by unfold State.scAdd; dsimp only; split <;> simp
@[simp] theorem scAdd_bellServed (c : CoreId) (k : Nat) (d : Int) : (s.scAdd c k d).bellServed = s.bellServed := by unfold State.scAdd; dsimp only; split <;> simp
@[simp] theorem scAdd_beats (c : CoreId) (k : Nat) (d : Int) : (s.scAdd c k d).beats = s.beats := by unfold State.scAdd; dsimp only; split <;> simp
@[simp] theorem scAdd_pond (c : CoreId) (k : Nat) (d : Int) : (s.scAdd c k d).pond = s.pond := by unfold State.scAdd; dsimp only; split <;> simp
@[simp] theorem scAdd_host (c : CoreId) (k : Nat) (d : Int) : (s.scAdd c k d).host = s.host := by unfold State.scAdd; dsimp only; split <;> simp
@[simp] theorem scAdd_ebc (c : CoreId) (k : Nat) (d : Int) : (s.scAdd c k d).ebc = s.ebc := by unfold State.scAdd; dsimp only; split <;> simp
@[simp] theorem scAdd_hearth (c : CoreId) (k : Nat) (d : Int) : (s.scAdd c k d).hearth = s.hearth := by unfold State.scAdd; dsimp only; split <;> simp
@[simp] theorem scAdd_dump (c : CoreId) (k : Nat) (d : Int) : (s.scAdd c k d).dump = s.dump := by unfold State.scAdd; dsimp only; split <;> simp
@[simp] theorem scAdd_snapPend (c : CoreId) (k : Nat) (d : Int) : (s.scAdd c k d).snapPend = s.snapPend := by unfold State.scAdd; dsimp only; split <;> simp
@[simp] theorem scAdd_inval (c : CoreId) (k : Nat) (d : Int) : (s.scAdd c k d).inval = s.inval := by unfold State.scAdd; dsimp only; split <;> simp
@[simp] theorem scAdd_sent (c : CoreId) (k : Nat) (d : Int) : (s.scAdd c k d).sent = s.sent := by unfold State.scAdd; dsimp only; split <;> simp
@[simp] theorem scAdd_free (c : CoreId) (k : Nat) (d : Int) : (s.scAdd c k d).free = s.free := by unfold State.scAdd; dsimp only; split <;> simp
@[simp] theorem scAdd_rdB (c : CoreId) (k : Nat) (d : Int) (z : Nat) : (s.scAdd c k d).rdB z = s.rdB z := by unfold State.rdB; rw [scAdd_mem]
@[simp] theorem scAdd_ctx (c : CoreId) (k : Nat) (d : Int) (z : Nat) : (s.scAdd c k d).ctx z = s.ctx z := by unfold State.ctx; rw [scAdd_ctxs]
@[simp] theorem scAdd_link (c : CoreId) (k : Nat) (d : Int) (z : Nat) : (s.scAdd c k d).link z = s.link z := by unfold State.link; rw [scAdd_links]
@[simp] theorem scAdd_group (c : CoreId) (k : Nat) (d : Int) (z : Nat) : (s.scAdd c k d).group z = s.group z := by unfold State.group; rw [scAdd_groups]
@[simp] theorem scAdd_stack (c : CoreId) (k : Nat) (d : Int) (z : Nat) : (s.scAdd c k d).stack z = s.stack z := by unfold State.stack; rw [scAdd_hbm]

/-! #### scSet -/

@[simp] theorem scSet_pending (c : CoreId) (k v : Nat) : (s.scSet c k v).pending = s.pending := by unfold State.scSet; simp
@[simp] theorem scSet_mem (c : CoreId) (k v : Nat) : (s.scSet c k v).mem = s.mem := by unfold State.scSet; simp
@[simp] theorem scSet_poison (c : CoreId) (k v : Nat) : (s.scSet c k v).poison = s.poison := by unfold State.scSet; simp
@[simp] theorem scSet_flash (c : CoreId) (k v : Nat) : (s.scSet c k v).flash = s.flash := by unfold State.scSet; simp
@[simp] theorem scSet_now (c : CoreId) (k v : Nat) : (s.scSet c k v).now = s.now := by unfold State.scSet; simp
@[simp] theorem scSet_cc (c : CoreId) (k v : Nat) : (s.scSet c k v).cc = s.cc := by unfold State.scSet; simp
@[simp] theorem scSet_slot (c : CoreId) (k v : Nat) : (s.scSet c k v).slot = s.slot := by unfold State.scSet; simp
@[simp] theorem scSet_ctxs (c : CoreId) (k v : Nat) : (s.scSet c k v).ctxs = s.ctxs := by unfold State.scSet; simp
@[simp] theorem scSet_hbm (c : CoreId) (k v : Nat) : (s.scSet c k v).hbm = s.hbm := by unfold State.scSet; simp
@[simp] theorem scSet_links (c : CoreId) (k v : Nat) : (s.scSet c k v).links = s.links := by unfold State.scSet; simp
@[simp] theorem scSet_groups (c : CoreId) (k v : Nat) : (s.scSet c k v).groups = s.groups := by unfold State.scSet; simp
@[simp] theorem scSet_sem (c : CoreId) (k v : Nat) : (s.scSet c k v).sem = s.sem := by unfold State.scSet; simp
@[simp] theorem scSet_bell (c : CoreId) (k v : Nat) : (s.scSet c k v).bell = s.bell := by unfold State.scSet; simp
@[simp] theorem scSet_bellServed (c : CoreId) (k v : Nat) : (s.scSet c k v).bellServed = s.bellServed := by unfold State.scSet; simp
@[simp] theorem scSet_beats (c : CoreId) (k v : Nat) : (s.scSet c k v).beats = s.beats := by unfold State.scSet; simp
@[simp] theorem scSet_pond (c : CoreId) (k v : Nat) : (s.scSet c k v).pond = s.pond := by unfold State.scSet; simp
@[simp] theorem scSet_host (c : CoreId) (k v : Nat) : (s.scSet c k v).host = s.host := by unfold State.scSet; simp
@[simp] theorem scSet_ebc (c : CoreId) (k v : Nat) : (s.scSet c k v).ebc = s.ebc := by unfold State.scSet; simp
@[simp] theorem scSet_hearth (c : CoreId) (k v : Nat) : (s.scSet c k v).hearth = s.hearth := by unfold State.scSet; simp
@[simp] theorem scSet_log (c : CoreId) (k v : Nat) : (s.scSet c k v).log = s.log := by unfold State.scSet; simp
@[simp] theorem scSet_dump (c : CoreId) (k v : Nat) : (s.scSet c k v).dump = s.dump := by unfold State.scSet; simp
@[simp] theorem scSet_snapPend (c : CoreId) (k v : Nat) : (s.scSet c k v).snapPend = s.snapPend := by unfold State.scSet; simp
@[simp] theorem scSet_inval (c : CoreId) (k v : Nat) : (s.scSet c k v).inval = s.inval := by unfold State.scSet; simp
@[simp] theorem scSet_sent (c : CoreId) (k v : Nat) : (s.scSet c k v).sent = s.sent := by unfold State.scSet; simp
@[simp] theorem scSet_free (c : CoreId) (k v : Nat) : (s.scSet c k v).free = s.free := by unfold State.scSet; simp
@[simp] theorem scSet_rdB (c : CoreId) (k v : Nat) (z : Nat) : (s.scSet c k v).rdB z = s.rdB z := by unfold State.rdB; rw [scSet_mem]
@[simp] theorem scSet_ctx (c : CoreId) (k v : Nat) (z : Nat) : (s.scSet c k v).ctx z = s.ctx z := by unfold State.ctx; rw [scSet_ctxs]
@[simp] theorem scSet_link (c : CoreId) (k v : Nat) (z : Nat) : (s.scSet c k v).link z = s.link z := by unfold State.link; rw [scSet_links]
@[simp] theorem scSet_group (c : CoreId) (k v : Nat) (z : Nat) : (s.scSet c k v).group z = s.group z := by unfold State.group; rw [scSet_groups]
@[simp] theorem scSet_stack (c : CoreId) (k v : Nat) (z : Nat) : (s.scSet c k v).stack z = s.stack z := by unfold State.stack; rw [scSet_hbm]

/-! #### ctPost -/

@[simp] theorem ctPost_pending (c : CoreId) (k n : Nat) : (s.ctPost c k n).pending = s.pending := by unfold State.ctPost; split <;> simp
@[simp] theorem ctPost_mem (c : CoreId) (k n : Nat) : (s.ctPost c k n).mem = s.mem := by unfold State.ctPost; split <;> simp
@[simp] theorem ctPost_poison (c : CoreId) (k n : Nat) : (s.ctPost c k n).poison = s.poison := by unfold State.ctPost; split <;> simp
@[simp] theorem ctPost_flash (c : CoreId) (k n : Nat) : (s.ctPost c k n).flash = s.flash := by unfold State.ctPost; split <;> simp
@[simp] theorem ctPost_now (c : CoreId) (k n : Nat) : (s.ctPost c k n).now = s.now := by unfold State.ctPost; split <;> simp
@[simp] theorem ctPost_cc (c : CoreId) (k n : Nat) : (s.ctPost c k n).cc = s.cc := by unfold State.ctPost; split <;> simp
@[simp] theorem ctPost_slot (c : CoreId) (k n : Nat) : (s.ctPost c k n).slot = s.slot := by unfold State.ctPost; split <;> simp
@[simp] theorem ctPost_ctxs (c : CoreId) (k n : Nat) : (s.ctPost c k n).ctxs = s.ctxs := by unfold State.ctPost; split <;> simp
@[simp] theorem ctPost_hbm (c : CoreId) (k n : Nat) : (s.ctPost c k n).hbm = s.hbm := by unfold State.ctPost; split <;> simp
@[simp] theorem ctPost_links (c : CoreId) (k n : Nat) : (s.ctPost c k n).links = s.links := by unfold State.ctPost; split <;> simp
@[simp] theorem ctPost_groups (c : CoreId) (k n : Nat) : (s.ctPost c k n).groups = s.groups := by unfold State.ctPost; split <;> simp
@[simp] theorem ctPost_sem (c : CoreId) (k n : Nat) : (s.ctPost c k n).sem = s.sem := by unfold State.ctPost; split <;> simp
@[simp] theorem ctPost_bell (c : CoreId) (k n : Nat) : (s.ctPost c k n).bell = s.bell := by unfold State.ctPost; split <;> simp
@[simp] theorem ctPost_bellServed (c : CoreId) (k n : Nat) : (s.ctPost c k n).bellServed = s.bellServed := by unfold State.ctPost; split <;> simp
@[simp] theorem ctPost_beats (c : CoreId) (k n : Nat) : (s.ctPost c k n).beats = s.beats := by unfold State.ctPost; split <;> simp
@[simp] theorem ctPost_pond (c : CoreId) (k n : Nat) : (s.ctPost c k n).pond = s.pond := by unfold State.ctPost; split <;> simp
@[simp] theorem ctPost_host (c : CoreId) (k n : Nat) : (s.ctPost c k n).host = s.host := by unfold State.ctPost; split <;> simp
@[simp] theorem ctPost_ebc (c : CoreId) (k n : Nat) : (s.ctPost c k n).ebc = s.ebc := by unfold State.ctPost; split <;> simp
@[simp] theorem ctPost_hearth (c : CoreId) (k n : Nat) : (s.ctPost c k n).hearth = s.hearth := by unfold State.ctPost; split <;> simp
@[simp] theorem ctPost_dump (c : CoreId) (k n : Nat) : (s.ctPost c k n).dump = s.dump := by unfold State.ctPost; split <;> simp
@[simp] theorem ctPost_snapPend (c : CoreId) (k n : Nat) : (s.ctPost c k n).snapPend = s.snapPend := by unfold State.ctPost; split <;> simp
@[simp] theorem ctPost_inval (c : CoreId) (k n : Nat) : (s.ctPost c k n).inval = s.inval := by unfold State.ctPost; split <;> simp
@[simp] theorem ctPost_sent (c : CoreId) (k n : Nat) : (s.ctPost c k n).sent = s.sent := by unfold State.ctPost; split <;> simp
@[simp] theorem ctPost_free (c : CoreId) (k n : Nat) : (s.ctPost c k n).free = s.free := by unfold State.ctPost; split <;> simp
@[simp] theorem ctPost_rdB (c : CoreId) (k n : Nat) (z : Nat) : (s.ctPost c k n).rdB z = s.rdB z := by unfold State.rdB; rw [ctPost_mem]
@[simp] theorem ctPost_ctx (c : CoreId) (k n : Nat) (z : Nat) : (s.ctPost c k n).ctx z = s.ctx z := by unfold State.ctx; rw [ctPost_ctxs]
@[simp] theorem ctPost_link (c : CoreId) (k n : Nat) (z : Nat) : (s.ctPost c k n).link z = s.link z := by unfold State.link; rw [ctPost_links]
@[simp] theorem ctPost_group (c : CoreId) (k n : Nat) (z : Nat) : (s.ctPost c k n).group z = s.group z := by unfold State.group; rw [ctPost_groups]
@[simp] theorem ctPost_stack (c : CoreId) (k n : Nat) (z : Nat) : (s.ctPost c k n).stack z = s.stack z := by unfold State.stack; rw [ctPost_hbm]

/-! #### semSend -/

@[simp] theorem semSend_pending (c : CoreId) (t : Nat) (w : Word) (x y : BitVec 32) : (s.semSend c t w x y).pending = s.pending := by unfold State.semSend; dsimp only; split <;> simp
@[simp] theorem semSend_mem (c : CoreId) (t : Nat) (w : Word) (x y : BitVec 32) : (s.semSend c t w x y).mem = s.mem := by unfold State.semSend; dsimp only; split <;> simp
@[simp] theorem semSend_poison (c : CoreId) (t : Nat) (w : Word) (x y : BitVec 32) : (s.semSend c t w x y).poison = s.poison := by unfold State.semSend; dsimp only; split <;> simp
@[simp] theorem semSend_flash (c : CoreId) (t : Nat) (w : Word) (x y : BitVec 32) : (s.semSend c t w x y).flash = s.flash := by unfold State.semSend; dsimp only; split <;> simp
@[simp] theorem semSend_now (c : CoreId) (t : Nat) (w : Word) (x y : BitVec 32) : (s.semSend c t w x y).now = s.now := by unfold State.semSend; dsimp only; split <;> simp
@[simp] theorem semSend_cc (c : CoreId) (t : Nat) (w : Word) (x y : BitVec 32) : (s.semSend c t w x y).cc = s.cc := by unfold State.semSend; dsimp only; split <;> simp
@[simp] theorem semSend_slot (c : CoreId) (t : Nat) (w : Word) (x y : BitVec 32) : (s.semSend c t w x y).slot = s.slot := by unfold State.semSend; dsimp only; split <;> simp
@[simp] theorem semSend_cores (c : CoreId) (t : Nat) (w : Word) (x y : BitVec 32) : (s.semSend c t w x y).cores = s.cores := by unfold State.semSend; dsimp only; split <;> simp
@[simp] theorem semSend_ctxs (c : CoreId) (t : Nat) (w : Word) (x y : BitVec 32) : (s.semSend c t w x y).ctxs = s.ctxs := by unfold State.semSend; dsimp only; split <;> simp
@[simp] theorem semSend_hbm (c : CoreId) (t : Nat) (w : Word) (x y : BitVec 32) : (s.semSend c t w x y).hbm = s.hbm := by unfold State.semSend; dsimp only; split <;> simp
@[simp] theorem semSend_links (c : CoreId) (t : Nat) (w : Word) (x y : BitVec 32) : (s.semSend c t w x y).links = s.links := by unfold State.semSend; dsimp only; split <;> simp
@[simp] theorem semSend_groups (c : CoreId) (t : Nat) (w : Word) (x y : BitVec 32) : (s.semSend c t w x y).groups = s.groups := by unfold State.semSend; dsimp only; split <;> simp
@[simp] theorem semSend_sem (c : CoreId) (t : Nat) (w : Word) (x y : BitVec 32) : (s.semSend c t w x y).sem = s.sem := by unfold State.semSend; dsimp only; split <;> simp
@[simp] theorem semSend_bellServed (c : CoreId) (t : Nat) (w : Word) (x y : BitVec 32) : (s.semSend c t w x y).bellServed = s.bellServed := by unfold State.semSend; dsimp only; split <;> simp
@[simp] theorem semSend_beats (c : CoreId) (t : Nat) (w : Word) (x y : BitVec 32) : (s.semSend c t w x y).beats = s.beats := by unfold State.semSend; dsimp only; split <;> simp
@[simp] theorem semSend_pond (c : CoreId) (t : Nat) (w : Word) (x y : BitVec 32) : (s.semSend c t w x y).pond = s.pond := by unfold State.semSend; dsimp only; split <;> simp
@[simp] theorem semSend_host (c : CoreId) (t : Nat) (w : Word) (x y : BitVec 32) : (s.semSend c t w x y).host = s.host := by unfold State.semSend; dsimp only; split <;> simp
@[simp] theorem semSend_ebc (c : CoreId) (t : Nat) (w : Word) (x y : BitVec 32) : (s.semSend c t w x y).ebc = s.ebc := by unfold State.semSend; dsimp only; split <;> simp
@[simp] theorem semSend_hearth (c : CoreId) (t : Nat) (w : Word) (x y : BitVec 32) : (s.semSend c t w x y).hearth = s.hearth := by unfold State.semSend; dsimp only; split <;> simp
@[simp] theorem semSend_log (c : CoreId) (t : Nat) (w : Word) (x y : BitVec 32) : (s.semSend c t w x y).log = s.log := by unfold State.semSend; dsimp only; split <;> simp
@[simp] theorem semSend_dump (c : CoreId) (t : Nat) (w : Word) (x y : BitVec 32) : (s.semSend c t w x y).dump = s.dump := by unfold State.semSend; dsimp only; split <;> simp
@[simp] theorem semSend_snapPend (c : CoreId) (t : Nat) (w : Word) (x y : BitVec 32) : (s.semSend c t w x y).snapPend = s.snapPend := by unfold State.semSend; dsimp only; split <;> simp
@[simp] theorem semSend_inval (c : CoreId) (t : Nat) (w : Word) (x y : BitVec 32) : (s.semSend c t w x y).inval = s.inval := by unfold State.semSend; dsimp only; split <;> simp
@[simp] theorem semSend_sent (c : CoreId) (t : Nat) (w : Word) (x y : BitVec 32) : (s.semSend c t w x y).sent = s.sent := by unfold State.semSend; dsimp only; split <;> simp
@[simp] theorem semSend_free (c : CoreId) (t : Nat) (w : Word) (x y : BitVec 32) : (s.semSend c t w x y).free = s.free := by unfold State.semSend; dsimp only; split <;> simp
@[simp] theorem semSend_rdB (c : CoreId) (t : Nat) (w : Word) (x y : BitVec 32) (z : Nat) : (s.semSend c t w x y).rdB z = s.rdB z := by unfold State.rdB; rw [semSend_mem]
@[simp] theorem semSend_core (c : CoreId) (t : Nat) (w : Word) (x y : BitVec 32) (z : CoreId) : (s.semSend c t w x y).core z = s.core z := by unfold State.core; rw [semSend_cores]
@[simp] theorem semSend_ctx (c : CoreId) (t : Nat) (w : Word) (x y : BitVec 32) (z : Nat) : (s.semSend c t w x y).ctx z = s.ctx z := by unfold State.ctx; rw [semSend_ctxs]
@[simp] theorem semSend_link (c : CoreId) (t : Nat) (w : Word) (x y : BitVec 32) (z : Nat) : (s.semSend c t w x y).link z = s.link z := by unfold State.link; rw [semSend_links]
@[simp] theorem semSend_group (c : CoreId) (t : Nat) (w : Word) (x y : BitVec 32) (z : Nat) : (s.semSend c t w x y).group z = s.group z := by unfold State.group; rw [semSend_groups]
@[simp] theorem semSend_stack (c : CoreId) (t : Nat) (w : Word) (x y : BitVec 32) (z : Nat) : (s.semSend c t w x y).stack z = s.stack z := by unfold State.stack; rw [semSend_hbm]

/-! #### semRegister -/

@[simp] theorem semRegister_pending (e : SemEntry) : (s.semRegister e).pending = s.pending := by exact (rfl)
@[simp] theorem semRegister_regs (e : SemEntry) : (s.semRegister e).regs = s.regs := by exact (rfl)
@[simp] theorem semRegister_mem (e : SemEntry) : (s.semRegister e).mem = s.mem := by exact (rfl)
@[simp] theorem semRegister_poison (e : SemEntry) : (s.semRegister e).poison = s.poison := by exact (rfl)
@[simp] theorem semRegister_flash (e : SemEntry) : (s.semRegister e).flash = s.flash := by exact (rfl)
@[simp] theorem semRegister_now (e : SemEntry) : (s.semRegister e).now = s.now := by exact (rfl)
@[simp] theorem semRegister_cc (e : SemEntry) : (s.semRegister e).cc = s.cc := by exact (rfl)
@[simp] theorem semRegister_slot (e : SemEntry) : (s.semRegister e).slot = s.slot := by exact (rfl)
@[simp] theorem semRegister_cores (e : SemEntry) : (s.semRegister e).cores = s.cores := by exact (rfl)
@[simp] theorem semRegister_ctxs (e : SemEntry) : (s.semRegister e).ctxs = s.ctxs := by exact (rfl)
@[simp] theorem semRegister_hbm (e : SemEntry) : (s.semRegister e).hbm = s.hbm := by exact (rfl)
@[simp] theorem semRegister_links (e : SemEntry) : (s.semRegister e).links = s.links := by exact (rfl)
@[simp] theorem semRegister_groups (e : SemEntry) : (s.semRegister e).groups = s.groups := by exact (rfl)
@[simp] theorem semRegister_bell (e : SemEntry) : (s.semRegister e).bell = s.bell := by exact (rfl)
@[simp] theorem semRegister_bellServed (e : SemEntry) : (s.semRegister e).bellServed = s.bellServed := by exact (rfl)
@[simp] theorem semRegister_beats (e : SemEntry) : (s.semRegister e).beats = s.beats := by exact (rfl)
@[simp] theorem semRegister_pond (e : SemEntry) : (s.semRegister e).pond = s.pond := by exact (rfl)
@[simp] theorem semRegister_host (e : SemEntry) : (s.semRegister e).host = s.host := by exact (rfl)
@[simp] theorem semRegister_ebc (e : SemEntry) : (s.semRegister e).ebc = s.ebc := by exact (rfl)
@[simp] theorem semRegister_hearth (e : SemEntry) : (s.semRegister e).hearth = s.hearth := by exact (rfl)
@[simp] theorem semRegister_log (e : SemEntry) : (s.semRegister e).log = s.log := by exact (rfl)
@[simp] theorem semRegister_dump (e : SemEntry) : (s.semRegister e).dump = s.dump := by exact (rfl)
@[simp] theorem semRegister_snapPend (e : SemEntry) : (s.semRegister e).snapPend = s.snapPend := by exact (rfl)
@[simp] theorem semRegister_inval (e : SemEntry) : (s.semRegister e).inval = s.inval := by exact (rfl)
@[simp] theorem semRegister_sent (e : SemEntry) : (s.semRegister e).sent = s.sent := by exact (rfl)
@[simp] theorem semRegister_free (e : SemEntry) : (s.semRegister e).free = s.free := by exact (rfl)
@[simp] theorem semRegister_reg (e : SemEntry) (z : Nat) : (s.semRegister e).reg z = s.reg z := by unfold State.reg; rw [semRegister_regs]
@[simp] theorem semRegister_fget (e : SemEntry) (z : Nat) (fd : Fd) : (s.semRegister e).fget z fd = s.fget z fd := by unfold State.fget State.reg; rw [semRegister_regs]
@[simp] theorem semRegister_flag (e : SemEntry) (z : Nat) (fd : Fd) : (s.semRegister e).flag z fd = s.flag z fd := by unfold State.flag State.fget State.reg; rw [semRegister_regs]
@[simp] theorem semRegister_run (e : SemEntry) (z : CoreId) : (s.semRegister e).run z = s.run z := by unfold State.run State.flag State.fget State.reg; rw [semRegister_regs]
@[simp] theorem semRegister_coreCtx (e : SemEntry) (z : CoreId) : (s.semRegister e).coreCtx z = s.coreCtx z := by simp only [State.coreCtx, State.fget, State.reg, semRegister_regs]
@[simp] theorem semRegister_rdB (e : SemEntry) (z : Nat) : (s.semRegister e).rdB z = s.rdB z := by unfold State.rdB; rw [semRegister_mem]
@[simp] theorem semRegister_core (e : SemEntry) (z : CoreId) : (s.semRegister e).core z = s.core z := by unfold State.core; rw [semRegister_cores]
@[simp] theorem semRegister_ctx (e : SemEntry) (z : Nat) : (s.semRegister e).ctx z = s.ctx z := by unfold State.ctx; rw [semRegister_ctxs]
@[simp] theorem semRegister_link (e : SemEntry) (z : Nat) : (s.semRegister e).link z = s.link z := by unfold State.link; rw [semRegister_links]
@[simp] theorem semRegister_group (e : SemEntry) (z : Nat) : (s.semRegister e).group z = s.group z := by unfold State.group; rw [semRegister_groups]
@[simp] theorem semRegister_stack (e : SemEntry) (z : Nat) : (s.semRegister e).stack z = s.stack z := by unfold State.stack; rw [semRegister_hbm]

/-! ### Deliveries (R180) -/

/-- A delivery takes its message and has its effect, or waits behind an older message and changes nothing. -/
theorem delivered_cases (q : MsgKey) (f : State → State) :
    (s.bellFree q = true ∧ s.delivered q f = .next (f (s.bellTaken q))) ∨ (s.bellFree q = false ∧ s.delivered q f = .next s) := by
  unfold State.delivered
  cases h : s.bellFree q <;> simp

/-! ### Jumps (R135) -/

theorem jump_reg_other (c : CoreId) (t : Nat) {a : Nat} (h : a ≠ rPc c) : (s.jump c t).reg a = s.reg a := by
  unfold State.jump State.setPc
  rw [modCore_reg, reg_fput_other _ _ _ h]

theorem jump_pc (c : CoreId) (t : Nat) (h : t < 65536) : (s.jump c t).pc c = t := by
  unfold State.jump State.setPc State.pc
  rw [modCore_fget, fget_fput_same _ _ _ _ (by decide) (by decide)]
  exact Nat.mod_eq_of_lt h

/-! ### Counters (R217) -/

/-- Saturation is clipping to the range of a counter. -/
theorem sat32_eq (i : Int) : sat32 i = (min (max i 0) (2 ^ 32 - 1)).toNat := by
  unfold sat32; split_ifs <;> omega

theorem sat32_lt (i : Int) : sat32 i < 2 ^ 32 := by
  unfold sat32; split_ifs <;> omega

theorem rSc_ne_rScSat (c : CoreId) {k : Nat} (h : k < 48) : rSc c k ≠ rScSat c := by unfold rSc rScSat; omega

/-- An addition stores the saturated sum. -/
theorem scAdd_value (c : CoreId) {k : Nat} (d : Int) (h : k < 48) :
    (s.scAdd c k d).fget (rSc c k) fScValue = sat32 ((s.fget (rSc c k) fScValue : Int) + d) := by
  unfold State.scAdd
  extract_lets sum s1 bit
  have h1 : s1.fget (rSc c k) fScValue = sat32 sum := by
    simp only [s1, modCore_fget]
    rw [fget_fput_same _ _ _ _ (by decide) (by decide)]
    exact Nat.mod_eq_of_lt (sat32_lt sum)
  split
  · rw [emit_fget, fget_fput_other _ _ _ _ (rSc_ne_rScSat c h), h1]
  · exact h1

/-- An addition writes no other register than the counter and SC_SAT. -/
theorem scAdd_reg_other (c : CoreId) (k : Nat) (d : Int) {a : Nat} (h1 : a ≠ rSc c k) (h2 : a ≠ rScSat c) :
    (s.scAdd c k d).reg a = s.reg a := by
  unfold State.scAdd
  extract_lets sum s1 bit
  have e : s1.reg a = s.reg a := by simp only [s1, modCore_reg]; exact reg_fput_other _ _ _ h1
  split
  · rw [emit_reg, reg_fput_other _ _ _ h2, e]
  · exact e

/-- An addition within the range writes the counter alone. -/
theorem scAdd_reg_inRange (c : CoreId) (k : Nat) (d : Int) {a : Nat} (h1 : a ≠ rSc c k)
    (h : satOut ((s.fget (rSc c k) fScValue : Int) + d) = false) : (s.scAdd c k d).reg a = s.reg a := by
  unfold State.scAdd
  extract_lets sum s1 bit
  have e : s1.reg a = s.reg a := by simp only [s1, modCore_reg]; exact reg_fput_other _ _ _ h1
  split
  · rename_i hs
    rw [show satOut sum = false from h] at hs
    simp at hs
  · exact e

end Sys2Proof.Machine
end

