-- ==== Sys2Proof/Tests/Slice0.lean ====
section
/-! SUPPORT. Sys2Proof/Tests/Slice0.lean: ill-formed commands that WellFormed refuses, slot words written out from the encodings of chapter 6,
results on small states, and for each statement with hypotheses a state and operands that meet them. -/

-- One proof at a time: see Laws/Core.lean.
set_option Elab.async false

namespace Sys2Proof.Tests

open Sys2Proof Sys2Proof.Machine

/-- Core (0, 0) of hall 0. -/
def c0 : CoreId := ⟨0, 0, 0⟩

/-- The reset state with some registers written. -/
def w (l : List (Nat × Word)) : State := { State.reset with regs := l }

/-- The same with core 0 issuing. -/
def wr (l : List (Nat × Word)) : State := w ((rCoreStatus c0, 1) :: l)

/-- The state with core 0's own structured state replaced. -/
def wc (s : State) (x : CoreS) : State := { s with cores := [(c0.idx, x)] }

/-- The state with context 0's structured state replaced. -/
def wx (s : State) (x : CtxS) : State := { s with ctxs := [(0, x)] }

/-- With no message on the wire every delivery may be made. -/
theorem free_empty (s : State) (h : s.bell = []) (q : MsgKey) : s.bellFree q = true := by
  unfold State.bellFree State.bellNow
  rw [h]
  rfl

/-! ### Instructions -/

/-- Core 0 can issue. -/
theorem test_w_Ready : Ready (wr []) c0 := ⟨by decide, by decide⟩

theorem test_w_UnissuedInstructions : slotCore (.br c0 7 0 0) = some c0 ∧ (Instr.br c0 7 0 0).wf = false ∧ (wr []).canIssue c0 = true ∧
    (w []).canIssue c0 = false := by decide

theorem test_w_SlotDecodingUndoesEncoding : (Instr.jmp c0 5).wf = true ∧ (encCtl (.jmp c0 5)).isSome ∧ (encScl (.add c0 1 2 3)).isSome ∧
    (encMov (.tcpy c0 1 2 3)).isSome ∧ (encArr (.astat c0 1)).isSome ∧ (encVec (.vadd c0 1 2 3)).isSome ∧ (encSyn (.post c0 1 0 1)).isSome := by decide

theorem test_w_ScalarImmediateForms : Ready (wr []) c0 ∧ (wr []).fget (rLoopCtl c0) fLoopCtlDepth = 0 ∧ (63 : Nat) < 64 :=
  ⟨⟨by decide, by decide⟩, by decide, by decide⟩

/-- S0 = -2^63, S1 = -1, S2 a NaN. -/
def wDiv : State := wr [(rS c0 0, BitVec.ofNat 64 (2 ^ 63)), (rS c0 1, BitVec.allOnes 64), (rS c0 2, 0x7FC00000)]

theorem test_w_ScalarDivisionAndFloat : Ready wDiv c0 ∧ wDiv.sreg c0 0 = BitVec.ofNat 64 (2 ^ 63) ∧ wDiv.sreg c0 1 = BitVec.allOnes 64 ∧
    f32 ((wDiv.sreg c0 2).setWidth 32) = .nan := ⟨⟨by decide, by decide⟩, by decide, by decide, by decide⟩

/-- S0 = 0; S1 holds one row of one column of FP32. -/
def wTcfg : State := wr [(rS c0 1, BitVec.ofNat 64 (2 ^ 22 + 2 ^ 14 + 2 ^ 8))]

theorem test_w_TileConfigWrites : Ready wTcfg c0 ∧ tcfgOk (wTcfg.sreg c0 0) = false := ⟨⟨by decide, by decide⟩, by decide⟩

/-- PC = 5 with no loop, and with four. -/
def wLoop (d : Nat) : State := wr [(rPc c0, 5), (rLoopCtl c0, Fd.put fLoopCtlDepth 0 d)]

theorem test_w_HardwareLoops : Ready (wLoop 0) c0 ∧ (wLoop 0).atLoopEnd c0 = false ∧ (wLoop 0).loopDep c0 = 0 ∧ Ready (wLoop 4) c0 ∧
    (wLoop 4).atLoopEnd c0 = false ∧ (wLoop 4).loopDep c0 = 4 :=
  ⟨⟨by decide, by decide⟩, by decide, by decide, ⟨by decide, by decide⟩, by decide, by decide⟩

/-- One pass held in an array. -/
def wPass : PassS := ⟨0, 8, 16, 1, 0, false, false, [zeros 128], List.replicate 32 (zeros 128), 0, 0, 0, 0, 0, 0, false⟩

theorem test_w_StepEndsAndBreakpoints : ((wr []).core c0).openLen = 0 ∧ Ready (wc (wr []) { chain := [wPass] }) c0 ∧
    ((wc (wr []) { chain := [wPass] }).core c0).openLen ≠ 0 := ⟨by decide, ⟨by decide, by decide⟩, by decide⟩

/-- SC0 = 7 and S1 = 3. -/
def wSc : State := wr [(rSc c0 0, 7), (rS c0 1, 3), (rS c0 2, BitVec.ofNat 64 (2 ^ 63))]

/-- A saturating POST, one that does not saturate, a register form; a WAIT that holds at its boundary, and one that does not. -/
theorem test_w_PostAndWait : Ready wSc c0 ∧ (47 : Nat) < 48 ∧ wSc.fget (rSc c0 0) fScValue = 7 ∧ ((7 : Int) + (-8) < 0) ∧
    (wSc.sreg c0 1).toNat = 3 ∧ ¬ (8 ≤ wSc.fget (rSc c0 0) fScValue) := ⟨⟨by decide, by decide⟩, by decide, by decide, by decide, by decide, by decide⟩

/-- Eight watches outstanding. -/
def wWatch : State := wr [(rSyncStatus c0, Fd.put fSyncStatusWatches 0 8), (rS c0 2, BitVec.ofNat 64 (2 ^ 63))]

/-- Messages of core 0 that wait at its router, as many as fill its injection queue and none. -/
def wInjected (n : Nat) : State := { wSc with bell := List.replicate n ⟨bellHdr 1 0 2 false 0 15 15 c0.pos, [0, 0], gx c0, gy c0, 4, false⟩ }

theorem injected_full : (wInjected (Config.bellQueueExtra + 1)).bellFull c0 = true := by
  have h : (wInjected (Config.bellQueueExtra + 1)).injected c0 = Config.bellQueueExtra + 1 := by
    unfold State.injected wInjected
    rw [List.filter_replicate_of_pos (by decide), List.length_replicate]
  unfold State.bellFull
  rw [h]
  exact decide_eq_true (Nat.lt_succ_self _)

theorem test_w_SemaphoreRequests_queue : (∃ n, Ready (wInjected n) c0 ∧ (wInjected n).bellFull c0 = true) ∧ Ready (wInjected 0) c0 ∧ (wInjected 0).bellFull c0 = false :=
  ⟨⟨_, ⟨rfl, rfl⟩, injected_full⟩, ⟨by decide, by decide⟩, decide_eq_false (Nat.not_lt_zero _)⟩

theorem test_w_SemaphoreRequests : Ready wSc c0 ∧ (wSc.sreg c0 1).getLsbD 63 = false ∧ (wSc.sreg c0 2).getLsbD 63 = true ∧
    wSc.fget (rSyncStatus c0) fSyncStatusWatches < 8 ∧ Ready wWatch c0 ∧ 8 ≤ wWatch.fget (rSyncStatus c0) fSyncStatusWatches :=
  ⟨⟨by decide, by decide⟩, by decide, by decide, by decide, ⟨by decide, by decide⟩, by decide⟩

/-- Virtual semaphore 1 of context 0 is semaphore 5, allocated, with VALUE 4; group 3 is valid on this device. -/
def wSem : State := w [(rSemMap 0 1, Fd.put fSemMapValid (Fd.put fSemMapPost (Fd.put fSemMapWait (Fd.put fSemMapRemote (Fd.put fSemMapPsem 0 5) 1) 1) 1) 1),
  (rSem 5, Fd.put fSemAlloc 4 1), (rGtCfg 3, Fd.put fGtCfgValid 0 1)]

theorem test_w_SemaphoreOperations : wSem.semMap 0 1 .add false = .ok 5 ∧ wSem.semMap 0 1 .wait false = .ok 5 ∧ wSem.semMap 0 1 .watch false = .ok 5 ∧
    wSem.flag (rSem 5) fSemAlloc = true ∧ wSem.flag (rSem 5) fSemOrphan = false ∧ wSem.sem.entries = [] ∧ wSem.fget (rSem 5) fSemValue = 4 := by decide

theorem test_w_SemaphoreOperations_free : ∀ q, wSem.bellFree q = true := free_empty _ rfl

/-- The flash as shipped is in canonical form. -/
theorem flash_canon : swf (fun _ => (0xFF : Byte)) State.reset.flash = true := by
  have h : ∀ (l : List (Nat × Byte)) (m : List Host.Cell), swf (fun _ => (0xFF : Byte)) m = true →
      swf (fun _ => (0xFF : Byte)) (l.foldl (fun m e => sset (fun _ => 0xFF) m e.1 e.2) m) = true := by
    intro l
    induction l with
    | nil => exact fun _ h => h
    | cons e l ih => exact fun m hm => ih _ (swf_sset _ _ _ _ hm)
  exact h _ [] rfl

/-- Context 0 present on core 0, with a GWAIT outstanding or without, and with ORPHAN_STOP or without; and the image of a saved context. -/
def wHere (pend stop : Nat) : State := wc (w [(rSyncStatus c0, Fd.put fSyncStatusGwaitPend 0 pend), (rSyncCtxCfg 0 0, Fd.put fSyncCtxCfgOrphanStop 0 stop)]) { present := true }
def wOld : State := w [(rSyncStatus c0, Fd.put fSyncStatusGwaitPend 0 1)]
def wSaved : State := wx (w []) { saved := [wOld.ctxImage c0] }

set_option maxRecDepth 20000 in
theorem test_w_SyncMessagesAtCores : (∀ p < 2, ∀ o < 2, (wHere p o).presentOn c0 0 = true ∧ (wHere p o).flag (rSyncStatus c0) fSyncStatusGwaitPend = (p == 1) ∧
    (wHere p o).flag (rSyncCtxCfg c0.hall.val (0 : CtxId).val) fSyncCtxCfgOrphanStop = (o == 1)) ∧ (47 : BitVec 6).toNat < 48 ∧ 48 ≤ (48 : BitVec 6).toNat ∧
    (w []).presentOn c0 0 = false ∧ wOld.canon ∧ wSaved.canon ∧ wSaved.savedOf 0 c0 = some (wOld.ctxImage c0) ∧
    (wOld.ctxImage c0).regs = wOld.ctxRegs c0 ∧ (wOld.ctxImage c0).regs.lookup (rSc c0 47) = some 0 ∧
    ((wOld.ctxImage c0).regs.lookup (rSyncStatus c0)).map fSyncStatusGwaitPend.get = some 1 ∧ (w []).savedOf 0 c0 = none :=
  ⟨by decide +kernel, by decide, by decide, by decide, ⟨by decide +kernel, by decide, flash_canon⟩, ⟨by decide, by decide, flash_canon⟩, by decide +kernel, rfl,
    by decide +kernel, by decide +kernel, by decide⟩

theorem test_w_SyncMessagesAtCores_free : (∀ q, (wHere 0 0).bellFree q = true) ∧ (∀ q, (w []).bellFree q = true) ∧ ∀ q, wSaved.bellFree q = true :=
  ⟨free_empty _ rfl, free_empty _ rfl, free_empty _ rfl⟩

/-- V0 holds a NaN in every lane. -/
def wVec : State := wr ((List.range 16).map fun m => (rV c0 0 m, 0x7FC000007FC00000))

theorem test_w_VectorRegisterForms : Ready wVec c0 ∧ (5 : Nat) ≤ 5 ∧ f32 (laneOf (wVec.vreg c0 0) 31) = .nan := ⟨⟨by decide, by decide⟩, by decide, by decide⟩

theorem test_w_TileVectorOperations : (Instr.tvop c0 1 0 32 1 0 0 0 0).wf = true ∧ (wr []).tvopFault c0 1 0 32 1 = none ∧
    (3 : BitVec 3).toNat ≤ 3 ∧ (wr []).tredFault c0 0 32 3 = none := by decide

/-- S1 = 128 and S2 = 0x1FF080: from there 32 rows of 128 bytes run past the end, one row does not. -/
def wTile : State := wr [(rS c0 1, 128), (rS c0 2, 0x1FF080), (rTileCfg c0 3, BitVec.ofNat 64 (8 * 2 ^ 20 + 6 * 2 ^ 16 + 1 * 2 ^ 8 + 32))]

/-- The rows of a whole tile in the core store, its last row at the end of it; a tile past the end; and formats with no legal column count. -/
theorem test_w_TileLoadsAndStores : Ready wTile c0 ∧ wTile.tileOk c0 0 32 = true ∧
    (∀ i < 32, 0 ≤ (wTile.sreg c0 1).toInt + (i : Nat) * ((wTile.sreg c0 1).setWidth 32).toInt ∧
      (wTile.sreg c0 1).toInt + (i : Nat) * ((wTile.sreg c0 1).setWidth 32).toInt + wTile.tRB c0 0 ≤ 0x200000) ∧
    0x200000 < (wTile.sreg c0 2).toInt + (32 - 1) * ((wTile.sreg c0 1).setWidth 32).toInt + wTile.tRB c0 0 ∧
    wTile.tileOk c0 3 33 = false ∧ wTile.tcpyFault c0 2 32 0 = none := ⟨⟨by decide, by decide⟩, by decide, by decide, by decide, by decide, by decide⟩

theorem test_w_RegisterMoves : 0 ≤ (wTile.sreg c0 1).toInt + (-128) ∧ (wTile.sreg c0 2).toInt + 0xF00 + 128 ≤ 0x200000 ∧
    0x200000 < (wTile.sreg c0 2).toInt + 0xF80 + 1 ∧ (wTile.sreg c0 0).toInt + (-1) < 0 := by decide

/-- S1 = 0 rows or 2 rows; four bindings open for flow 1. -/
def wBind : State := wr ((rS c0 1, 2) :: (List.range 4).map fun q => (rBind c0 1 q, Fd.put fBindValid 0 1))

theorem test_w_Bindings : Ready wBind c0 ∧ ctOk 63 = true ∧ (wBind.sreg c0 0).toNat % 2 ^ 16 = 0 ∧ (wBind.sreg c0 1).toNat % 2 ^ 16 = 2 ∧
    wBind.mbindFault c0 0 0 0 1 = none ∧ wBind.bindings c0 0 < 4 ∧ wBind.bindings c0 1 = 4 := ⟨⟨by decide, by decide⟩, by decide, by decide, by decide, by decide, by decide, by decide⟩

/-- Slot 0 injects flow 5 to the north. -/
def wInj : State := wr [(rPortSlot c0 0 0, BitVec.ofNat 64 (5 * 2 ^ 10 + 5))]
def wSend : SendS := ⟨5, 0, 1, [zeros 128], 1, [0], 0⟩

theorem test_w_Sends : wInj.msndFault c0 0 1 5 = none ∧ ((wInj.core c0).sends.all fun x => x.flow != 5) ∧ ctOk 0 = true ∧
    ((wc wInj { sends := [wSend] }).core c0).sends = [wSend] ∧ wSend.sent = wSend.rows.length := by decide

theorem test_w_DescriptorLaunches : (wTile.sreg c0 1).toInt % 64 = 0 ∧ wTile.fget (rStrmStatus c0) fStrmStatusDescLive < 64 ∧
    (wr [(rStrmStatus c0, Fd.put fStrmStatusDescLive 0 64)]).fget (rStrmStatus c0) fStrmStatusDescLive = 64 ∧ ((wTile.sreg c0 0).toInt + 1) % 64 ≠ 0 := by decide

/-! ### Arrays, bundles, contexts -/

/-- T0 and T8 hold BF16; T16 FP32 as at reset. Checking is on at reset, and off in the second. -/
def wBf : List (Nat × Word) := [0, 8].map fun k => (rTileCfg c0 k, BitVec.ofNat 64 (8 * 2 ^ 20 + 2 ^ 16 + 32 * 2 ^ 8 + 32))
def wChk : State := wr wBf
def wFree : State := wr ((rArrCtxCfg 0 0, 0x40) :: wBf)

theorem test_w_Passes : Ready wFree c0 ∧ wFree.passFault c0 0 8 16 32 0 false false = none ∧ wFree.checking c0 = false ∧
    (wFree.core c0).runs = [] ∧ (wFree.core c0).chain = [] ∧ Ready wChk c0 ∧ wChk.passFault c0 0 8 16 1 0 false false = none ∧
    wChk.checking c0 = true := ⟨⟨by decide, by decide⟩, by decide, by decide, by decide, by decide, ⟨by decide, by decide⟩, by decide, by decide⟩

/-- The pass in its array, before its check cc. -/
def wRun : RunS := ⟨[wPass], true, 9, 12, false, none⟩

/-- A pass of zeros checks; one upset of a result does not. -/
theorem test_w_CheckedPasses : ((wc wChk { runs := [wRun] }).core c0).runs = [wRun] ∧ (wc wChk { runs := [wRun] }).cc < wRun.check ∧
    wPass.keep = false := by decide

/-- Bundle 0 of the core store is in the queue: a POST to SC3. -/
def wPostBits : BitVec 256 := BitVec.ofNat 256 (leNat ([0x20, 0x40] ++ zeros 26 ++ [0x01, 0x00, 0x30, 0x04]))
def wQueue (b : BitVec 256) (l : List (Nat × Word)) : State := wc (wr l) { queue := [⟨0, b⟩] }

/-- A WAIT for 1 on SC0, which holds 0. -/
def wWaitBits : BitVec 256 := BitVec.ofNat 256 (leNat ([0x20, 0x40] ++ zeros 26 ++ [0x01, 0x00, 0x00, 0x08]))

theorem test_w_BundleIssues : Ready (wQueue wPostBits []) c0 ∧ (wQueue wPostBits []).headCheck c0 ⟨0, wPostBits⟩ = .ok [.post c0 3 0 1] ∧
    (wQueue wPostBits []).bundleHolds c0 [.post c0 3 0 1] = [] ∧ (wQueue wPostBits []).ctlTarget c0 (.post c0 3 0 1) = none ∧
    (wQueue wWaitBits []).headCheck c0 ⟨0, wWaitBits⟩ = .ok [.wait c0 0 0 false 1] ∧
    (wQueue wWaitBits []).bundleHolds c0 [.wait c0 0 0 false 1] ≠ [] ∧ (wr []).run c0 = true ∧ ((wr []).core c0).queue.length ≤ 4 :=
  ⟨⟨by decide, by decide⟩, by decide, by decide, by decide, by decide, by decide, by decide, by decide⟩

/-- Outside CODE_RANGE on either side. -/
theorem test_w_FetchRangeFaults : (let s := wQueue wPostBits [(rCodeRange c0, BitVec.ofNat 64 (2 ^ 64 - 1))]
      Ready s c0 ∧ (s.core c0).attempt = none ∧ (s.core c0).bubble = 0 ∧ (∃ b, (s.core c0).queue = [b] ∧ b.idx.toNat / 4 < s.fget (rCodeRange c0) fCodeRangeBaseLine)) ∧
    ((wQueue wPostBits []).fget (rCodeRange c0) fCodeRangeLimitLine < 4 / 4) :=
  ⟨⟨⟨by decide, by decide⟩, by decide, by decide, _, rfl, by decide⟩, by decide⟩

/-- Context 0 with core 0 in its image, started. -/
def wImg : Image := ⟨none, 0, [⟨c0, 7, 0, 0⟩], 1, 1, ⟨true, 0, []⟩, 1, [], [], []⟩
def wCtx : CtxS := { loaded := true, started := true, img := some wImg }
def wAt (x : CoreS) (y : CtxS) (l : List (Nat × Word)) : State := wx (wc (wr l) { x with present := true }) y

/-- A second context of one core, whose boundary is still to come. -/
def c1 : CoreId := ⟨0, 0, 1⟩
def wTwo : State := { State.reset with
  regs := [(rCoreStatus c0, 1), (rCoreStatus c1, Fd.put fCoreStatusCtx 1 1)]
  cores := [(c0.idx, { present := true, marker := .retired false }), (c1.idx, { present := true })]
  ctxs := [(0, { wCtx with boundary := true }), (1, { wCtx with img := some { wImg with cores := [⟨c1, 0, 0, 0⟩] } })] }

theorem test_w_StepBoundaries :
    ((wAt { marker := .issued false } wCtx []).core c0).marker = .issued false ∧ (wAt { marker := .issued true } wCtx []).beats = [] ∧
    ((wAt { marker := .issued true } wCtx []).core c0).restart = [] ∧
    (let s := wAt { marker := .retired false } wCtx [];
      s.ctxRunning 0 = true ∧ (s.ctx 0).groupHalt = false ∧ (s.ctx 0).boundary = false ∧ s.liveCores 0 ≠ [] ∧ s.flag rMpCfg fMpCfgEn = false ∧
      ∀ d ∈ s.liveCores 0, s.presentOn d 0 = true ∧ s.coreAtEnd d = true ∧ s.fget (rCelStatus d) fCelStatusFrames = 0) ∧
    (let s := wAt {} { wCtx with boundary := true } [];
      s.takesPart 0 = true ∧ (s.ctx 0).joined = false ∧ s.ebc.evaluating = false ∧ s.ebc.change = none ∧ s.ebc.stepUj / 1000 < 2 ^ 32 ∧
      (s.now - s.ebc.stepAt) / unitsUs < 2 ^ 32 ∧ ∀ j < 8, s.takesPart j = true → (s.ctx j).boundary = true) := by decide

theorem test_w_JoinTimeout : (wTwo.ctx 0).boundary = true ∧ (wTwo.ctx 0).joined = false ∧ wTwo.takesPart 0 = true ∧ wTwo.ebc.evaluating = false ∧
    wTwo.ebc.change = none ∧ (∃ j < 8, wTwo.takesPart j = true ∧ (wTwo.ctx j).boundary = false) ∧ wTwo.ctxGroups 0 = [] ∧ wTwo.activeCores 0 ≠ [] ∧
    (∀ d ∈ wTwo.activeCores 0, (wTwo.core d).marker = .retired false) ∧ (wTwo.ctx 0).exited = [] := by decide

/-- The same with group 3 valid for context 0 and not yet committed. -/
def wJoin : State := { wTwo with regs := (rGtCfg 3, Fd.put fGtCfgValid 0 1) :: wTwo.regs }

theorem test_w_JoinTimeoutGroup : (wJoin.ctx 0).boundary = true ∧ (wJoin.ctx 0).joined = false ∧ wJoin.takesPart 0 = true ∧
    (∃ j < 8, wJoin.takesPart j = true ∧ (wJoin.ctx j).boundary = false) ∧ (∃ g ∈ wJoin.ctxGroups 0, (wJoin.group g).committed = false) := by decide

/-- A stopped core of a started context. -/
def wStop : State := wx (wc (w [(rCoreStatus c0, Fd.put fCoreStatusStopped 0 1), (rCoreCtl c0, 1)]) { present := true }) wCtx

theorem test_w_HaltResumeStep : (wr []).run c0 = true ∧ ((wr []).core c0).stopCause = none ∧ wStop.run c0 = false ∧ wStop.resumable c0 = true ∧
    wStop.flag (rCoreCtl c0) fCoreCtlHalt = true := by decide

theorem test_w_CoreStops : (wc (wr []) { stopCause := some .halt }).run c0 = true ∧ ((wc (wr []) { stopCause := some .halt }).core c0).stopCause = some .halt ∧
    (wc (wr []) { stopCause := some .group }).run c0 = true ∧ ((wc (wr []) { stopCause := some .group }).core c0).stopCause = some .group ∧
    ((wr []).core c0).stopCause = none ∧ (w []).run c0 = false ∧ (wr []).rowsDone c0 = true ∧
    (wc (wr []) { stopCause := some .preempt, sends := [⟨5, 0, 1, [zeros 128], 1, [0], 0⟩] }).rowsDone c0 = false := by decide

/-- The head bundle waits on a counter, for 16 cc and for 15. -/
def wWaits (n : Nat) : State := wc (wr []) { queue := [⟨0, wWaitBits⟩], waited := n }

/-- A GWAIT outstanding. -/
def wGwait (l : List (Nat × Word)) : State := wc (wr ((rSyncStatus c0, Fd.put fSyncStatusGwaitPend 0 1) :: l)) { gwait := some ⟨0, 0, 0⟩ }

theorem test_w_SyncWaitsEnd : (wWaits 16).run c0 = true ∧ Instr.wait c0 0 0 false 1 ∈ (wWaits 16).headInstrs c0 ∧ (wWaits 16).waitOk c0 0 0 1 = false ∧
    16 ≤ ((wWaits 16).core c0).waited ∧ ((wWaits 15).core c0).waited < 16 ∧ (wGwait []).run c0 = true ∧
    (wGwait []).fget (rSyncCtxCfg c0.hall.val ((wGwait []).coreCtx c0).val) fSyncCtxCfgTmoMs ≠ 0 ∧ ((wGwait []).core c0).gwait.isSome ∧
    (wGwait []).flag (rSyncStatus c0) fSyncStatusGwaitPend = true ∧
    (wGwait [(rSyncCtxCfg 0 0, 0)]).fget (rSyncCtxCfg c0.hall.val ((wGwait [(rSyncCtxCfg 0 0, 0)]).coreCtx c0).val) fSyncCtxCfgTmoMs = 0 := by decide

theorem test_w_ContextsSaveAndRestore : (wStop.core c0).present = true ∧ wStop.run c0 = false ∧ (wStop.core c0).flights = [] ∧ (wStop.core c0).runs = [] ∧
    (wStop.core c0).sends = [] ∧ (wStop.core c0).posts = [] ∧ ((wStop.core c0).descs = [] ∧ wStop.ctxMoves (wStop.coreCtx c0).val = false) ∧ wSaved.canon ∧ wOld.canon ∧ (wSaved.core c0).present = false ∧
    wSaved.savedOf 0 c0 = some (wOld.ctxImage c0) ∧ (w []).savedOf 0 c0 = none :=
  ⟨by decide, by decide, by decide, by decide, by decide, by decide, ⟨by decide, by decide⟩, ⟨by decide, by decide, flash_canon⟩, ⟨by decide, by decide, flash_canon⟩, by decide, rfl, by decide⟩

/-- A message of a type for core 0 or the front die, at router (x, y), having come in there from the core; and the state in which it alone is on the wire. -/
def wMsg (type x y : Nat) : BellMsg := ⟨bellHdr type 0 0 false 0 0 0 c0.pos, [], x, y, 4, false⟩
def wFront (x : Nat) : BellMsg := ⟨bellHdr 9 0 0 false 0 15 15 c0.pos, [], x, 3, 4, false⟩
def wWire (l : List (Nat × Word)) (m : BellMsg) (rest : List BellMsg) : State := { w l with bell := m :: rest }

/-- Does a message alone on the wire move on? -/
def moves (m : BellMsg) : Bool :=
  match bellWants m with
  | some o => (wWire [] m []).bellChosen m o && (wWire [] m []).bellFits m
  | none => false

/-- The far core of the grid, and a message for it at (0, 0). -/
def cFar : CoreId := ⟨7, 11, 11⟩
def wFar : BellMsg := ⟨bellHdr 4 0 0 false 7 11 11 0, [], 0, 0, 4, false⟩

/-- The messages that a router may send, in the geometry of each clause. -/
theorem test_w_BellWireHops : bellReserved (wMsg 15 0 0) = true ∧ (wMsg 15 0 0).out = false ∧ bellNode ⟨bellHdr 4 0 0 false 0 12 0 0, [], 0, 0, 4, false⟩ = none ∧
    (∀ p ∈ [(47, 23), (0, 23), (0, 0)], bellNode (wMsg 4 p.1 p.2) = some (.core c0) ∧ moves (wMsg 4 p.1 p.2) = true) ∧
    bellNode wFar = some (.core cFar) ∧ wFar.x < gx cFar ∧ wFar.y < gy cFar ∧ moves wFar = true ∧ moves { wFar with x := gx cFar } = true ∧
    (wWire [] wFar []).flag (rCntCtl (coreAtXY wFar.x wFar.y)) fCntCtlFreeze = false ∧
    (w []).isHole c0 = false ∧ (wWire [(rGridCol 0 0, Fd.put fGridColBypass (Fd.put fGridColExcluded 0 1) 15)] (wMsg 4 0 0) []).isHole c0 = true ∧
    (∀ x ∈ [0, 5], bellNode (wFront x) = some .front ∧ moves (wFront x) = true) := by decide

/-- An ordinary message behind an urgent one for the same output waits; so does one whose next queue is full. -/
theorem test_w_BellWireHops_waits : (∃ o, bellWants (wMsg 4 5 0) = some o ∧ (wWire [] (wMsg 4 5 0) [wMsg 9 5 0]).bellChosen (wMsg 4 5 0) o = false) ∧
    (wWire [] (wMsg 4 5 0) (List.replicate 8 { wMsg 4 4 0 with inp := 1 })).bellFits (wMsg 4 5 0) = false := by decide

theorem test_w_StopMessages : (wAt {} wCtx []).presentOn c0 0 = true ∧ wStop.presentOn c0 0 = true ∧
    ({ wStop with regs := [(rCoreStatus c0, Fd.put fCoreStatusStopped 0 1)] } : State).resumable c0 = true ∧
    (wx (wc (w []) { present := true }) { wCtx with cause := 0x1001 }).ctxGroups 0 = [] ∧ c0 ∈ (wAt {} wCtx []).activeCores 0 ∧
    (∀ d ∈ (wx (wc (w []) { present := true }) { wCtx with cause := 0x1001 }).activeCores 0, (w []).run d = false) ∧
    (wAt {} wCtx []).run c0 = true ∧ ((wAt {} wCtx []).core c0).stopCause = none ∧ wStop.run c0 = false := by decide

/-- A PREEMPT that asks to resume core 0 and, behind it on its way, one that asks it to stop. -/
def wTwice : State := { wStop with bell := [⟨bellHdr 8 0 0 false 0 0 0 1, [], 0, 0, 4, true⟩, ⟨bellHdr 8 0 0 false 0 0 0 0, [], 0, 0, 4, false⟩] }

theorem test_w_StopMessages_waits : (∀ q, wStop.bellFree q = true) ∧ (∀ q, (wAt {} wCtx []).bellFree q = true) ∧
    wTwice.bellFree ⟨8, 0, some (0 : BitVec 1).toNat, some c0.pos, none⟩ = false ∧ (wStop.core c0).tellStop = false ∧
    wStop.flag (rCoreCtl c0) fCoreCtlHalt = true ∧ ({ wStop with regs := [(rCoreStatus c0, Fd.put fCoreStatusStopped 0 1)] } : State).flag (rCoreCtl c0) fCoreCtlHalt = false :=
  ⟨free_empty _ rfl, free_empty _ rfl, by decide, by decide, by decide, by decide⟩


/-! ### Streams, stacks, mesh -/

/-- Memory cells holding bytes from an address. -/
def cells (a : Nat) (b : Bytes) : List Host.Cell := b.mapIdx fun i x => ⟨a + i, x⟩

/-- A descriptor of one row of `e0` elements, by the layout of chapter 7: formats, view and flags, CTRL, CT, count. -/
def dsc (src dst e0 fa fb ctrl ct n : Nat) : Bytes :=
  natBytes 6 src ++ natBytes 6 dst ++ natBytes 2 e0 ++ natBytes 2 1 ++ natBytes 2 1 ++ natBytes 2 1 ++ zeros 32
    ++ natBytes 2 fa ++ natBytes 2 fb ++ zeros 1 ++ natBytes 1 ctrl ++ natBytes 2 ct ++ natBytes 2 n ++ zeros 2

/-- A live descriptor before its start. -/
def wLive : DescS := { pc := 0, bytes := none, staged := false, waiting := false, frame := none, tagOk := false, reqs := 0, pages := [], id := 0, idx := none }

/-- Core 0 runs with one live descriptor, at the start of its core store. -/
def wDesc (b : Bytes) (x : DescS) (l : List (Nat × Word)) : State :=
  { wc (wr l) { descs := [x] } with mem := cells (coreBase c0) b }

/-- A descriptor that is illegal, of length zero, of an illegal format, and a plain copy of 32 FP32 elements; one whose overlap runs downwards, one that is
staged and one that no order makes right; a Cellar fill and drain. -/
def dBad : Bytes := dsc 0 0x10000 32 0 15 3 0 0
def dZero : Bytes := dsc 0 0x10000 0 0 15 0 0 0
def dFmt : Bytes := dsc 0 0x10000 1 0x6 15 0 0 0
def dCopy : Bytes := dsc 0 0x10000 32 0 15 0 0x4000 5
def dDown : Bytes := dsc 0 64 32 0 15 0 0 0
def dStaged : Bytes := dsc 0 0 32 0x10 15 0 0 0
def dRefuse : Bytes := natBytes 6 0 ++ natBytes 6 0 ++ natBytes 2 32 ++ natBytes 2 2 ++ natBytes 2 1 ++ natBytes 2 1 ++ natBytes 4 0x800000 ++ zeros 28
    ++ natBytes 2 0x10 ++ natBytes 2 15 ++ zeros 8
def dFill : Bytes := dsc (coreBase c0) 0 32 0 15 4 0 0
def dDrain : Bytes := dsc 0 (coreBase c0) 32 0 15 4 0 0

set_option maxRecDepth 20000 in
theorem test_w_DescriptorStarts : (wDesc dCopy wLive []).run c0 = true ∧ (wDesc dCopy wLive []).nextStart c0 = some 0 ∧
    (wDesc dCopy wLive []).rdStore c0 0 64 = dCopy ∧ (parseDesc dBad).descBad = true ∧ (parseDesc dZero).descBad = false ∧ (parseDesc dZero).zero = true ∧
    (parseDesc dFmt).descBad = false ∧ (parseDesc dFmt).zero = false ∧ (parseDesc dFmt).formatBad = true ∧ (parseDesc dCopy).descBad = false ∧
    (parseDesc dCopy).zero = false ∧ (parseDesc dCopy).formatBad = false ∧ (parseDesc dCopy).cellar = false ∧ (parseDesc dCopy).idxSide = 0 ∧
    (parseDesc dCopy).runKind (coreBase c0) = .normal ∧ (parseDesc dDown).runKind (coreBase c0) = .down ∧ (parseDesc dStaged).runKind (coreBase c0) = .staged ∧
    (parseDesc dRefuse).runKind (coreBase c0) = .refuse ∧ (∀ b ∈ [dDown, dStaged, dRefuse], (parseDesc b).descBad = false ∧ (parseDesc b).zero = false ∧
      (parseDesc b).formatBad = false ∧ (parseDesc b).cellar = false ∧ (parseDesc b).idxSide = 0) := by decide +kernel

/-- CEL_LIMIT = 1 takes a frame of 256 bytes from 0; CEL_TOP = 2 and FRAMES = 1 give one back; without them neither. -/
theorem test_w_CellarStarts : (wDesc dFill wLive []).nextStart c0 = some 0 ∧ (parseDesc dFill).descBad = false ∧ (parseDesc dFill).zero = false ∧
    (parseDesc dFill).formatBad = false ∧ (parseDesc dFill).cellar = true ∧ (wDesc dFill wLive []).dirFree c0 true = true ∧
    (parseDesc dFill).isFill = true ∧ (parseDesc dFill).frameLen = 256 ∧ 256 ≤ 4096 * (wDesc dFill wLive [(rCelLimit c0, Fd.put fCelLimitLimit 0 1)]).fget (rCelLimit c0) fCelLimitLimit ∧
    4096 * (wDesc dFill wLive []).fget (rCelLimit c0) fCelLimitLimit < 256 ∧ (parseDesc dDrain).descBad = false ∧ (parseDesc dDrain).formatBad = false ∧
    (parseDesc dDrain).zero = false ∧ (parseDesc dDrain).cellar = true ∧ (wDesc dDrain wLive []).dirFree c0 false = true ∧ (parseDesc dDrain).isFill = false ∧
    256 ≤ 128 * (wDesc dDrain wLive [(rCelTop c0, Fd.put fCelTopTop 0 2)]).fget (rCelTop c0) fCelTopTop ∧
    (wDesc dDrain wLive [(rCelStatus c0, Fd.put fCelStatusFrames 0 1)]).fget (rCelStatus c0) fCelStatusFrames ≠ 0 ∧
    (wDesc dDrain wLive []).fget (rCelStatus c0) fCelStatusFrames = 0 := by decide

/-- The copy with every element moved. -/
def xCopy : DescS := { wLive with bytes := some dCopy }
def wCopy : State := wDesc dCopy xCopy [(rStrmEntry c0 0, Fd.put fStrmEntryPhase 0 2), (rStrmProgress c0 0, 32)]

theorem test_w_DescriptorComplete : wCopy.run c0 = true ∧ wCopy.desc c0 0 = some xCopy ∧ xCopy.parsed = some (parseDesc dCopy) ∧
    wCopy.moving c0 0 xCopy (parseDesc dCopy) = true ∧ xCopy.reqs = 0 ∧ (wCopy.core c0).outq = [] ∧
    (parseDesc dCopy).total ≤ (wCopy.reg (rStrmProgress c0 0)).toNat ∧
    (parseDesc dCopy).isFill = false ∧ (parseDesc dCopy).ctKind = 1 ∧ (parseDesc dCopy).ctId < 48 ∧
    wCopy.fget (rSc c0 (parseDesc dCopy).ctId) fScValue + (parseDesc dCopy).count < 2 ^ 32 ∧ xCopy.waiting = false := by decide +kernel

/-- Page 0 of context 0 is mapped to itself, and lets reads and writes pass. -/
def wPage (b : Bytes) (x : DescS) (m : List Host.Cell) (l : List (Nat × Word)) : State :=
  let s := wDesc b x ((rTrCtx 0 0, Fd.put fTrCtxEn 0 1) :: l)
  { s with mem := m ++ cells 0xEE00000000 (natBytes 8 (7 * 2 ^ 61)) ++ s.mem, ctxs := [(0, { staging := [(c0, 0, 0)] })] }

/-- An outbound slot in every cc. -/
def wOut : Nat × Word := (rPortSlot c0 0 0, BitVec.ofNat 64 (6 * 2 ^ 10))

/-- A staged copy whose 128 bytes are ready to be copied. -/
def xStage : DescS := { xCopy with staged := true, idx := some [] }
def wStage : State := wPage dCopy xStage [] [(rStrmEntry c0 0, Fd.put fStrmEntryPhase 0 1), wOut]

/-- Does the staging copy of descriptor 0 go through, its indices checked, its pages translated and its lines taken? -/
def stages (s : State) (x : DescS) (d : DescP) : Bool :=
  match (s.works c0).recheckIdx c0 0 x d with
  | (v, true) =>
    match v.pagesOf c0 [] (vaParts ((d.srcRanges []).map fun q => (q.1, q.2, accRead))) with
    | (w, got, none) =>
      let pages := got.map fun g => (g.1, g.2.2)
      match w.linesTouch c0 x.id (d.stageLines 0 [] 0 pages) with
      | .ok y => ((pages.foldl (fun s p => s.notePage c0 0 (p.1 * 2 ^ 21)) y).stageCopy c0 0 pages (d.srcRanges [])).2 == none
      | .error _ => false
    | _ => false
  | _ => false

set_option maxRecDepth 20000 in
theorem test_w_Staging : ((wPage dCopy { xStage with waiting := true } [] []).ctx 0).staging = [(c0, xStage.id, 0)] ∧ wStage.desc c0 0 = some xStage ∧
    xStage.parsed = some (parseDesc dCopy) ∧ wStage.entFld c0 0 fStrmEntryPhase = 1 ∧ (parseDesc dCopy).srcHull = some (0, 128) ∧ xStage.staged = true ∧
    xStage.waiting = false ∧ xStage.faulted = false ∧ wStage.hasOutSlot c0 = true ∧ xStage.recheck = false ∧ xStage.idx.getD [] = [] ∧
    stages wStage xStage (parseDesc dCopy) = true := by decide +kernel

/-- A drain whose frame of 256 bytes at 0x1000 ends in its tag line. -/
def xDrain : DescS := { wLive with bytes := some dDrain, frame := some (0x1000, 2, 1) }
def wDrain : State := wPage dDrain xDrain (cells 0x1080 (tagLine 256 0 0 c0.pos)) [wOut]

set_option maxRecDepth 20000 in
theorem test_w_CellarTagCheck : wDrain.desc c0 0 = some xDrain ∧ xDrain.tagOk = false ∧ xDrain.faulted = false ∧ wDrain.hasOutSlot c0 = true ∧
    (match xDrain.parsed with
      | some d => d.cellar && !d.isFill && d.frameLen == 256
      | none => false) = true ∧
    (match (wDrain.works c0).xlat c0 (0x1000 + (256 - 128)) accRead with
      | (v, .ok pa) => match v.linesTouch c0 xDrain.id [(lineOf pa, .read)] with
        | .ok u => !u.poisoned pa 128 && u.rdBytes pa 128 == tagLine 256 (1 - 1) 0 c0.pos
        | .error _ => false
      | _ => false) = true := by decide +kernel

/-- The page of 0 in the translation cache, with an entry that permits. -/
def wCached : State := { wStage with cores := [(c0.idx, { descs := [xStage], tlb := [(0, 0, BitVec.ofNat 64 (7 * 2 ^ 61))] })] }

theorem test_w_TableWalk : pteCheck (wStage.flag (rTrCtx 0 0) fTrCtxEn) (wStage.poisoned (pteAddr 0 0) 8) (wStage.pte 0 0) 0 = none ∧
    pteCheck (wCopy.flag (rTrCtx 0 0) fTrCtxEn) (wCopy.poisoned (pteAddr 0 0) 8) (wCopy.pte 0 0) 0 ≠ none ∧ (wStage.core c0).tlb = [] ∧
    wCached.run c0 = true ∧ wCached.desc c0 0 = some xStage ∧
    (wCached.core c0).tlb.find? (fun y => y.1 == 0 && y.2.1 == 0 / 2 ^ 21) = some (0, 0, BitVec.ofNat 64 (7 * 2 ^ 61)) ∧
    pteCheck true false (BitVec.ofNat 64 (7 * 2 ^ 61)).toNat 0 = none ∧ wCached.flag (rTrCtx 0 0) fTrCtxEn = true ∧
    ({ xStage with faulted := true } : DescS).faulted = true := by decide +kernel

/-- Core 0's copy asks stack 0 for the line of address 0: with an outbound slot or without, with lines present and in miss slots, and the time. -/
def wStk (ent : Nat) (lines : List (Nat × Bool)) (l : List MissS) : State :=
  { wPage dCopy xCopy [] [(rStrmEntry c0 0, Fd.put fStrmEntryPhase 0 2), (rPortSlot c0 0 0, BitVec.ofNat 64 ent)] with
    hbm := [(0, { lines := lines, misses := l })], now := 2 ^ 40 }

/-- A full set of dirty lines and a full write-back buffer: the line 0 cannot come in. -/
def wNoRoom : StackS := { lines := (List.range 16).map fun i => (12 * 2 ^ 21 * (i + 1), true), misses := [⟨0, [], 0⟩], wb := List.replicate 64 128 }

set_option maxRecDepth 20000 in
theorem test_w_StackCaches : (let s := wStk (6 * 2 ^ 10) [] [];
      s.run c0 = true ∧ s.desc c0 0 = some xCopy ∧ (s.core c0).descs.findIdx? (fun y => y.id == xCopy.id) = some 0 ∧ xCopy.parsed = some (parseDesc dCopy) ∧
      s.moving c0 0 xCopy (parseDesc dCopy) = true ∧ xCopy.faulted = false ∧ xCopy.recheck = false ∧ 0 < hbmEnd ∧
      (parseDesc dCopy).reqFits .read 0 = true ∧ s.fget (rStrmStatus c0) fStrmStatusReqUsed + (s.core c0).outq.length < 64 ∧
      (match s.reqPa c0 xCopy (parseDesc dCopy) .read 0 with
        | (u, .ok pa) => pa == 0 && (u.core c0).outq == [] && u.slotFree c0 && u.leaving == [] && u.arrivesNow 0 0 0
        | _ => false) = true) ∧
    (wStk 0 [] []).slotFree c0 = false ∧ (wStk (6 * 2 ^ 10) [] []).slotFree c0 = true ∧ ((wStk 0 [] []).core c0).outq = [] ∧
    (∃ y ∈ ((wStk 0 [(0, false)] []).stack 0).lines, y.1 = 0) ∧ (wStk 0 [(0, false)] []).poisoned 0 128 = false ∧
    stackOf (lineOf 0) = 0 ∧ ((wStk 0 [] []).stack 0).misses.length < 256 ∧ ((wStk 0 [] []).stack 0).lines = [] ∧
    (((wStk 0 [] []).stack 0).misses.filter fun m => bankOf m.line == bankOf 0).length < (wStk 0 [] []).stkCfg 0 fStkCfgBankSlotMax ∧
    (∃ m ∈ ((wStk 0 [] [⟨0, [], 0⟩]).stack 0).misses, m.line = 0) ∧
    (∀ m ∈ ((wStk 0 [] (List.replicate 256 ⟨128, [], 0⟩)).stack 0).misses, m.line ≠ 0) ∧
    256 ≤ ((wStk 0 [] (List.replicate 256 ⟨128, [], 0⟩)).stack 0).misses.length := by decide +kernel

theorem test_w_StackCaches_fills : (∀ m ∈ ((wStk 0 [] [⟨0, [], 0⟩]).stack 0).misses, ∀ r ∈ m.reqs, r.kind = .prefetch) ∧
    ((wStk 0 [] [⟨0, [⟨c0, 0, 0, 0, .read, 0, 0, []⟩], 0⟩]).stack 0).misses.find? (fun m => m.line == 0) = some ⟨0, [⟨c0, 0, 0, 0, .read, 0, 0, []⟩], 0⟩ ∧
    ((wStk 0 [] [⟨0, [], 0⟩]).stack 0).wbRoom 0 = true ∧ wNoRoom.wbRoom 0 = false ∧ (∀ m ∈ ((wStk 0 [] []).stack 0).misses, m.line ≠ 0) ∧
    (∃ m ∈ ((wStk 0 [] [⟨0, [], 0⟩]).stack 0).misses, bankOf m.line = bankOf 0 ∧
      (wStk 0 [] [⟨0, [], 0⟩]).stkCfg 0 fStkCfgSlowUs * unitsUs < (wStk 0 [] [⟨0, [], 0⟩]).now - m.since) ∧
    ((wStk 0 [] [⟨0, [], 0⟩]).stack 0).slowBanks.contains (bankOf 0) = false ∧
    (∀ m ∈ ((wStk 0 [] [⟨0, [], 2 ^ 40⟩]).stack 0).misses, (wStk 0 [] []).now - m.since ≤ (wStk 0 [] []).stkCfg 0 fStkCfgSlowUs * unitsUs) ∧
    lineOf 0 < hbmEnd ∧ (wStk 0 [] []).poison.contains 0 = false := by decide +kernel

/-- Core (1, 1) sends what comes from the west (input 4) to the east in slot 0. -/
def c11 : CoreId := ⟨0, 1, 1⟩
def wHop : State := w [(rPortSlot c11 1 0, BitVec.ofNat 64 (4 * 2 ^ 10))]

theorem test_w_MeshBeats : wHop.beats = [] ∧ wHop.isHole ⟨0, 1, 2⟩ = false ∧ bitsN (wHop.laneEnt c11 wHop.slot) 13 11 ≠ 4 ∧ wHop.takers c11 4 false = [(1, 4 * 2 ^ 10)] ∧
    meshNext c11 1 = some (⟨0, 1, 2⟩, 4) ∧ wHop.flag (rCntCtl c11) fCntCtlFreeze = false ∧ wHop.takers c11 3 false = [] ∧
    (wAt {} wCtx []).presentOn c0 ((wAt {} wCtx []).slotOwner c0 3 false) = true := by decide

/-! ### Links -/

/-- Link 0 in a state, with registers and its own structured state. -/
def wl (st : Nat) (l : List (Nat × Word)) (x : LinkS) : State :=
  { w ((rLinkStatus 0, Fd.put fLinkStatusState 0 st) :: l) with links := [(0, x)] }

theorem test_w_LinkTraining : (∀ st < 8, (wl st [] {}).linkState 0 = st) ∧ (wl 6 [] {}).ringUses 0 = [] := by decide

/-- A shuttered link whose partner is ready. -/
def wShut : State := { w [(rLinkStatus 0, Fd.put fLinkStatusPeerReady (Fd.put fLinkStatusState 0 5) 1), (rLinkPeerExp 0, Fd.put fLinkPeerExpAny 0 1)] with
  links := [(0, { identSeen := true })] }

theorem test_w_LinkShutters : wShut.linkState 0 = 5 ∧ wShut.flag (rLinkStatus 0) fLinkStatusPeerReady = true ∧ wShut.ringUses 0 = [] ∧
    (wl 5 [] {}).flag (rLinkStatus 0) fLinkStatusPeerReady = false ∧ ((wl 4 [] {}).link 0).identSeen = false ∧
    ((wl 4 [] { identSeen := true }).link 0).identSeen = true ∧ (wl 4 [] {}).flag (rLinkCtl 0) fLinkCtlOpen = false ∧
    wShut.flag (rLinkPeerExp 0) fLinkPeerExpAny = true ∧ (wl 6 [] {}).fget (rLinkStatus 0) fLinkStatusPeerId ≠ 1 ∧ ((wl 6 [] {}).link 0).rxIdx = none := by decide

/-- Slot 0 of both directions belongs to flow 1, with 4 frames' bytes waiting and 16 egress beats. -/
def wBulk (x : LinkS) : State := { w [(rLinkStatus 0, Fd.put fLinkStatusTableOk (Fd.put fLinkStatusState 0 6) 1), (rLinkTxslot 0 0, 0x8001), (rLinkRxslot 0 0, 0x8001),
  (rLinkLaneMap 0 0, 0x8181), (rLinkFlow 0 1, Fd.put fLinkFlowEgBeats 0 16)] with links := [(0, x)] }

set_option maxRecDepth 20000 in
theorem test_w_LinkFrames : (wBulk {}).linkState 0 = 6 ∧ bitN ((wBulk {}).entry16 (rLinkTxslot 0) (0 % (wBulk {}).framePeriod 0)) 15 = true ∧
    bitN ((wl 6 [] {}).entry16 (rLinkTxslot 0) (0 % (wl 6 [] {}).framePeriod 0)) 15 = false ∧
    ((wl 6 [] { ctlOut := [.mgmt 3 0] }).link 0).ctlOut = [.mgmt 3 0] ∧ ((wBulk {}).link 0).still = false ∧
    (wBulk {}).flag (rLinkStatus 0) fLinkStatusTableOk = true ∧ (wBulk {}).flag (rLinkStatus 0) fLinkStatusBulkUnreach = false ∧
    496 ≤ ((wBulk { egress := [(1, zeros 496)] }).egress 0 1).length ∧ 0 < ((wBulk {}).link 0).credits ∧
    ((wBulk { rxIdx := some 0 }).link 0).rxIdx = some 0 ∧ leAt [0x1C] 0 1 / 4 = 7 ∧ leAt [0x20] 0 1 / 32 = 1 ∧ leAt [0x7F] 0 1 / 32 = 3 ∧
    bitN ((wBulk {}).laneMap 0 0) 15 = true ∧ bitN ((wBulk {}).laneMap 0 1) 15 = false ∧ 0 < (wBulk {}).egRoom 0 1 ∧
    (wBulk { egress := [(1, zeros 2048)] }).egRoom 0 1 = 0 ∧ bitN ((wBulk {}).laneMap 0 0) 7 = true ∧
    128 ≤ ((((wBulk { ingress := [(1, zeros 128)] }).link 0).ingress.filter fun e => e.1 == 1).flatMap Prod.snd).length ∧
    (wBulk {}).fwdLinks 0 1 = [] ∧ (∃ e ∈ ((wBulk { heldAt := [(1, 0)] }).link 0).heldAt, e.1 = 1) ∧
    ((wBulk {}).link 0).wireQ = [] ∧ ((wBulk {}).link 0).gathSent = [] ∧ ((wBulk {}).link 0).serve = none ∧ ((wBulk {}).link 0).discard.contains 1 = false ∧
    ((wBulk {}).link 0).ctlIn.length < 64 ∧ 64 ≤ ((wBulk { ctlIn := List.replicate 64 (.mgmt 3 0) }).link 0).ctlIn.length ∧
    leAt [0x20] 0 1 / 32 ≠ 0 ∧ sget (fun _ => 0) ((wBulk {}).link 0).reserved 1 = 0 ∧ (wBulk {}).beats = [] ∧ bitN ((wBulk {}).laneMapAt 0 0 0) 15 = true ∧
    (wBulk {}).laneMapAt 0 0 0 / 256 % 64 = 1 ∧ bitN ((wBulk {}).laneMapAt 0 1 0) 15 = false ∧ (wBulk {}).laneMap 0 0 % 64 = 1 := by decide

/-- Group 3 on context 0, and a route to device 9 over the open link 0. -/
def wKfl (x : LinkS) : State := { w ([(rLinkStatus 0, Fd.put fLinkStatusState 0 6), (rKflRoute 0, BitVec.ofNat 64 (2 ^ 63 + 9 * 2 ^ 24 + 9))] ++ wSem.regs) with
  links := [(0, x)] }

theorem test_w_LinkSemaphores : (wKfl {}).gValid 3 = true ∧ (wKfl {}).semMap 0 1 .add true = .ok 5 ∧ (wKfl {}).semMap 0 1 .watch true = .ok 5 ∧
    (wKfl {}).flag (rSem 5) fSemAlloc = true ∧ (wKfl {}).flag (rSem 5) fSemOrphan = false ∧ (wKfl {}).sem.entries = [] ∧ (9 : BitVec 24) ≠ BitVec.ofNat 24 (wKfl {}).devId ∧
    (wKfl {}).route 9 = some 0 ∧ (wKfl {}).linkState 0 = 6 ∧ (wKfl {}).fget (rSem 5) fSemValue < 5 ∧ (wKfl {}).fget (rSem 5) fSemValue ≠ 5 ∧ (wKfl {}).remoteWatches < 7168 ∧
    ((wKfl {}).link 0).tags = [] ∧ ((wKfl { tags := [⟨7, c0, 1, 0, false⟩] }).link 0).tags = [⟨7, c0, 1, 0, false⟩] ∧
    ((wKfl {}).link 0).ctlOut.length < 64 ∧ 64 ≤ ((wKfl { ctlOut := List.replicate 64 (.mgmt 3 0) }).link 0).ctlOut.length ∧ (wl 5 [] {}).linkState 0 ≠ 6 := by decide

/-- Context 0, group 3's, is halted and not yet cleared. -/
def wClearing : State := { wKfl {} with ctxs := [(0, { groupHalt := true })] }

theorem test_w_LinkSemaphores_clearing : (wKfl {}).clearing ((wKfl {}).gCtx 3).val = false ∧ wClearing.clearing (wClearing.gCtx 3).val = true ∧
    wClearing.gValid 3 = true ∧ ((wKfl { tags := [⟨7, c0, 1, 0, false⟩] }).link 0).tags.all (fun g => !g.quarantine) = true ∧
    ∀ q, (wKfl {}).bellFree q = true := by
  refine ⟨by decide, ?_, by decide, by decide, free_empty _ rfl⟩
  unfold State.clearing
  rw [Bool.and_eq_true]
  refine ⟨by decide, ?_⟩
  have h : ∀ g, (wClearing.group g).phaseOwn = [] := fun _ => rfl
  simp [h]

/-! ### Groups -/

/-- Bucket plan entry `t` of ring 0, owner `o`, BF16, 2 tiles, its gradients at 0x4000 and its working copy at 0x8000. -/
def planEntry (t o : Nat) : Bytes := natBytes 2 t ++ zeros 2 ++ natBytes 3 o ++ [1] ++ natBytes 2 2 ++ zeros 6 ++ natBytes 6 0x4000 ++ natBytes 6 0x8000 ++ zeros 36

/-- Group 3 of context 0, 4 members on ring 0, this device at position `pos`; link 0 is its station and open, and the plan of one
bucket that position `o` owns lies at 0x1000 of a mapped page. -/
def wg (pos o : Nat) (miller : Nat) (x : GroupS) (l : List (Nat × Word)) : State :=
  { w (l ++ [(rGtCfg 3, Fd.put fGtCfgValid (Fd.put fGtCfgMiller (Fd.put fGtCfgRings (Fd.put fGtCfgMembers (Fd.put fGtCfgPos 0 pos) 4) 1) miller) 1),
    (rGtRing 3 0, Fd.put fGtRingV 0 1), (rGtPlan 3, Fd.put fGtPlanPlan 0 0x40), (rGtPlancnt 3, Fd.put fGtPlancntBuckets 0 1),
    (rQst 0, Fd.put fQstV (Fd.put fQstGroup (Fd.put fQstLocalFlow (Fd.put fQstUpFlow (Fd.put fQstWireFlow 0 3) 2) 1) 3) 1),
    (rLinkStatus 0, Fd.put fLinkStatusState 0 6), (rTrCtx 0 0, Fd.put fTrCtxEn 0 1), (rGtSteprec 3, Fd.put fGtSteprecRec 0 0x20)]) with
    groups := [(3, x)], mem := cells 0xEE00000000 (natBytes 8 (7 * 2 ^ 61)) ++ cells 0x1000 (planEntry 0 o), ctxs := [(0, wCtx)] }

/-- A record of KIND `kind` in epoch `e`, tile 1 of bucket 0. -/
def wHdr (kind e : Nat) : Bytes := qhdrBytes ⟨0, 1, kind, 0, 32, 0, 3, e, 1, zeros 16⟩

/-- The plan entry as read. -/
def wPlan (o : Nat) : PlanE := ⟨0, 0, false, o, 1, 2, 0, 0, 0x4000, 0x8000⟩

set_option maxRecDepth 20000 in
theorem test_w_QuernRecords : (wg 1 1 0 {} []).fget (rQst 0) fQstGroup = 3 ∧ (wg 1 1 0 {} []).flag (rQst 0) fQstV = true ∧ (wg 1 1 0 {} []).gValid 3 = true ∧
    1 < (wg 1 1 0 {} []).gMembers 3 ∧ (wg 1 1 0 {} []).readPlan 0 3 0 = .ok (wPlan 1) ∧ (wg 1 1 0 {} []).isStation 0 3 0 false = true ∧
    (wg 1 1 0 {} []).peerOk 0 3 0 false = true ∧ (qhdrOf (wHdr 0 0)).kind = 0 ∧ (qhdrOf (wHdr 0 0)).beats = 32 ∧ (qhdrOf (wHdr 0 0)).group = 3 ∧
    leAt (wHdr 0 0) 8 2 = 3 ∧ (qhdrOf (wHdr 0 0)).tile < (wPlan 1).tiles ∧ (qhdrOf (wHdr 0 0)).tag < (wg 1 1 0 {} []).fget (rGtPlancnt 3) fGtPlancntBuckets ∧
    (wg 1 1 0 {} []).openBuckets < 4096 ∧ (wg 1 1 0 {} []).flag (rGtCfg 3) fGtCfgRetain = false ∧ (wPlan 1).owner = (wg 1 1 0 {} []).gPos 3 ∧
    (wg 1 0 0 {} []).readPlan 0 3 0 = .ok (wPlan 0) ∧ ringDist 4 0 1 false = 1 ∧ (wg 1 1 0 {} []).linkState 0 = 6 ∧
    (wg 1 1 0 {} []).fget (rQst 0) fQstWireFlow ≠ (wg 1 1 0 {} []).fget (rQst 0) fQstLocalFlow ∧ (qhdrOf (wHdr 0 0)).epoch = (wg 1 1 0 {} []).gEpoch 3 ∧
    (qhdrOf (wHdr 0 9)).epoch ≠ (wg 1 1 0 {} []).gEpoch 3 := by decide

/-- The same with 512 beats of egress for the wire flow, and with none. -/
def wRoom (beats : Nat) (x : GroupS) : State := wg 1 1 0 x [(rLinkFlow 0 3, Fd.put fLinkFlowEgBeats 0 beats)]

/-- A record finds the station's queues empty and room behind them, or no room; the gathers of position 2 end here. -/
theorem test_w_QuernRecords_wire : ((wRoom 512 {}).group 3).buckets = [] ∧ ((wRoom 512 {}).link 0).combine = [] ∧ ((wRoom 512 {}).link 0).wireQ = [] ∧
    ((wRoom 512 {}).link 0).gathSent = [] ∧ 33 ≤ (wRoom 512 {}).egRoom 0 ((wRoom 512 {}).fget (rQst 0) fQstWireFlow) ∧ (wRoom 512 {}).wireFree 0 = true ∧
    (wRoom 0 {}).wireFree 0 = false ∧ (wRoom 0 {}).lastFrom 3 1 false = false ∧ (wRoom 0 {}).gPos 3 = 1 ∧ 1 < (wPlan 1).tiles ∧
    (wRoom 0 {}).lastFrom 3 2 false = true ∧ (2 : Nat) * (1 + (2048 + 127) / 128) ≤ (wRoom 512 {}).egRoom 0 3 := by decide

/-- A retained record at 0x4000, a gathered block, and a gather that may start: UPDATE stands past the step's base. -/
def wRet : GroupS := { retained := [⟨0, 1, 0x4000, zeros 256, false, false⟩] }
def wUpd : State := wg 1 1 0 {} [(rSem 0, 1), (rGtSem 3, 0)]

set_option maxRecDepth 20000 in
theorem test_w_QuernGathers : ((wg 1 1 0 wRet []).group 3).retained = [⟨0, 1, 0x4000, zeros 256, false, false⟩] ∧
    ((wg 1 1 0 wRet []).vParts 0 0 0x4000 256 accWrite).isOk = true ∧ (qhdrOf (wHdr 1 0)).kind = 1 ∧
    ((wg 1 1 0 {} []).vParts 0 0 (0x8000 + 2048 * 1) 2048 accWrite).isOk = true ∧
    (wUpd.planTags 3 fun e => e.kind == 0 && e.owner == wUpd.gPos 3)[0]? = some 0 ∧ (wUpd.group 3).status ≠ 2 ∧
    (wUpd.group 3).updBase + 0 < wUpd.updateValue 3 ∧ (wUpd.vParts 0 0 0x8000 4096 accRead).isOk = true ∧ wUpd.poison = [] := by decide

/-- A message to group 3 of the present epoch, and one of the next. -/
def wGm (arg : Nat) (v : Word) : GMsg := ⟨3, 0, BitVec.ofNat 24 arg, false, v⟩
def wAck : GroupS := { verdict := true, retained := [⟨7, 0, 0, [], true, false⟩] }

set_option maxRecDepth 20000 in
theorem test_w_QuernMessages : (wg 1 1 0 {} []).gEpoch 3 ≠ ({ wGm 0 0 with epoch := 1 } : GMsg).epoch.toNat ∧
    (wg 1 1 0 {} []).gEpoch 3 = (wGm 0 0).epoch.toNat ∧ (wg 1 1 0 wAck []).readPlan 0 3 0 = .ok (wPlan 1) ∧ (wPlan 1).kind ≠ 2 ∧
    (∃ q ∈ ((wg 1 1 0 wAck []).group 3).retained, q.tag ≠ 0) ∧ (wg 1 1 0 {} []).station 3 0 false = some 0 ∧ 0 < (wGm (2 ^ 16) 0).arg.toNat / 65536 % 16 ∧
    (wg 1 1 0 {} [(rGtClip 3, 0x3F800000)]).clipOn 3 = true ∧ (wg 1 1 0 {} [(rGtClip 3, 0x3F800000)]).ownComplete 3 = false ∧
    (wg 1 0 0 {} [(rGtClip 3, 0x3F800000)]).ownComplete 3 = true ∧ 0 < (wg 1 0 0 {} []).gPos 3 ∧ (wg 1 0 0 {} []).gPos 3 + 1 < (wg 1 0 0 {} []).gMembers 3 ∧
    (wg 1 0 0 {} []).linkState ((wg 1 0 0 {} []).ringLink 3 0 false) = 6 ∧ ((wg 1 0 0 {} []).link 0).mode = false ∧
    ((wg 1 1 0 {} []).vParts 0 0 ((wg 1 1 0 {} []).fget (rGtSteprec 3) fGtSteprecRec * 128) 128 accWrite).isOk = true ∧
    (wg 1 1 0 {} []).linkState 0 = 6 ∧ ((wg 1 1 0 {} []).link 0).mode = false ∧ ((wg 1 1 0 {} []).link 1).mode = false ∧ (wg 1 1 0 {} []).linkState 1 ≠ 6 ∧
    ((wg 1 0 0 { stepDone := true } []).group 3).stepDone = true ∧ ((wg 1 0 0 { stepDone := true } []).group 3).normSent = false ∧
    ((wg 1 0 0 { stepDone := true } []).group 3).verdict = false := by decide

/-- The member after the Miller, at position 1, ready to vote. -/
def wVote : State := { wg 1 1 0 { stepDone := true, miller := 0 } [] with ctxs := [(0, { wCtx with boundary := true })] }
def wStill : StillS := ⟨0, 0, false, [], false, 0⟩
def wCkptHdr : Bytes := qhdrBytes ⟨0, 0, 3, 0, 32, 0, 3, 0, 1, zeros 8 ++ natBytes 3 2 ++ zeros 1 ++ natBytes 4 (crc32c (zeros 4096)).toNat⟩

set_option maxRecDepth 20000 in
theorem test_w_GroupCommit : wVote.gValid 3 = true ∧ (wVote.group 3).stepDone = true ∧ (wVote.ctx 0).boundary = true ∧ wVote.egressEmpty 0 = true ∧
    wVote.gMiller 3 = false ∧ wVote.ringFirst 3 = true ∧ wVote.linkState (wVote.ringLink 3 0 false) = 6 ∧
    (wVote.group 3).ready = false ∧ (wVote.group 3).voted = false ∧ (wVote.ctx 0).groupHalt = false ∧ (wVote.link (wVote.ringLink 3 0 false)).mode = false ∧
    (wVote.gCtx 3).val = 0 ∧ (∃ c ∈ wVote.ctxCores 0, (wVote.ctx 0).exited.contains c = false ∧ (wVote.core c).marker ≠ .retired true) ∧
    wVote.linkState 0 = 6 ∧ (wVote.link 0).mode = false ∧ ((wg 0 1 1 {} []).group 3).ready = false ∧ (0 : Word).getLsbD 32 = false ∧
    wStill.selfDone = false ∧ wStill.buddyDone = false ∧ wStill.landed = [] ∧ 1 < (wg 0 1 1 { ready := true } []).gMembers 3 ∧
    (wg 0 1 1 {} []).gMiller 3 = true ∧ (0 : Word).toNat % 2 ^ 32 = (wg 0 1 1 {} []).gStep 3 ∧
    ((wg 1 1 0 { still := some wStill } []).group 3).still = some wStill ∧ (wg 1 1 0 {} []).gMembers 3 ≠ 1 ∧
    ((wg 0 1 1 { ready := true } []).group 3).voteIn = none ∧ (w [(rGtCfg 3, Fd.put fGtCfgValid 0 1), (rMpCfg, Fd.put fMpCfgGroup 0 3)]).fget rMpCfg fMpCfgGroup = 3 := by decide

set_option maxRecDepth 100000 in
theorem test_w_CkptRecord : (qhdrOf wCkptHdr).kind = 3 ∧ leAt (qhdrOf wCkptHdr).mid 8 3 = (qhdrOf wCkptHdr).hops + 1 ∧ leAt (qhdrOf wCkptHdr).mid 11 1 < 2 := by decide

/-- The Miller with a LINK_DOWN report of both neighbours of position 2. -/
def wLoss (l : List (Nat × Word)) : State :=
  wg 0 1 1 { faults := [(0x5001, 1, 2, 0), (0x5001, 3, 2, 0)], lastCkpt := some 0, ckpts := 1 } l

/-- A member with a snapshot of a semaphore and a saved image of core 0, to go back to. -/
def wBack (miller : Nat) (x : GroupS) : State :=
  { wg (1 - miller) 1 miller { x with snapshot := some ⟨[], [(5, 0)]⟩ } [] with ctxs := [(0, { wCtx with saved := [wOld.ctxImage c0] })] }

/-- Every register of a saved image is one of its core's. -/
theorem test_w_GroupRecovery_sound : (∀ m < 2, let s := wBack m { phaseOwn := [0], phaseIn := [0], guard := true };
    (∀ sn, (s.group 3).snapshot = some sn → ∀ e ∈ sn.sems, e.1 < 16384) ∧
    (∀ i ∈ (s.ctx 0).saved, ∀ e ∈ i.regs, ctxReg i.core e.1 = true ∨ e.1 ∈ rCoreStatus i.core :: syncRegs i.core) ∧
    s.gMiller 3 = (m == 1) ∧ (s.group 3).recover = none ∧ (s.group 3).phaseOwn = [0] ∧ (s.group 3).phaseIn = [0] ∧ (s.group 3).guard = true ∧
    1 < s.gMembers 3 ∧ s.linkState 0 = 6 ∧ (s.link 0).mode = false ∧ s.gEpoch 3 = (wGm 1 1).epoch.toNat ∧ s.dump = none) := by
  intro m hm
  have : m = 0 ∨ m = 1 := by omega
  rcases this with rfl | rfl <;>
  exact ⟨fun sn h => by cases h; decide, by decide +kernel, by decide, rfl, rfl, rfl, rfl, by decide, by decide, by decide, by decide, rfl⟩

set_option maxRecDepth 20000 in
theorem test_w_GroupRecovery : ((wg 1 1 0 {} []).group 3).unrecoverable = false ∧ (wGm 0 0x1001).value.toNat % 65536 ≠ 0xA003 ∧ (wg 1 1 0 {} []).gMiller 3 = false ∧ (wGm 0 0x1001).value.toNat % 65536 ≠ 0xA005 ∧ (wg 1 1 0 {} []).dump = none ∧
    ((wg 0 1 1 { phaseOwn := [0], phaseIn := [0], guard := true } []).group 3).phaseOwn = [0] ∧
    ((wg 0 1 1 { phaseOwn := [0] } []).group 3).phaseSent = [] ∧ ((wg 0 1 1 { phaseOwn := [0] } []).group 3).recover = none ∧
    ((wg 0 1 1 { phaseOwn := [0] } []).group 3).snapshot = none ∧ (wGm 1 0).arg.toNat % 4 = 1 ∧ (wGm 1 1).value.toNat % 2 ^ 24 = (wg 1 1 0 {} []).gPos 3 ∧
    (wGm 1 2).value.toNat % 2 ^ 24 ≠ (wg 1 1 0 {} []).gPos 3 := by decide

/-- With RECOVER_EN, a map and no slot to gain the member can be replaced; without, it cannot. -/
def wMend : State := wLoss [(rRsCfg 3, Fd.put fRsCfgRecoverEn (Fd.put fRsCfgCkptEn 0 1) 1), (rRsMap 3, Fd.put fRsMapVa 0 0x100), (rRsSlots 3, Fd.put fRsSlotsSlotsMax 0 9)]

set_option maxRecDepth 20000 in
theorem test_w_MemberLoss : (wLoss []).gMiller 3 = true ∧ (wLoss []).lossShown 3 2 = true ∧ (wLoss []).recoverBar 3 2 ≠ 0 ∧ wMend.lossShown 3 2 = true ∧
    wMend.recoverBar 3 2 = 0 ∧ (2 : Nat) ≠ wMend.gPos 3 ∧ 1 < wMend.gMembers 3 := by decide

/-- A retained record whose ACK has come before it was written, at a station with slots free. -/
theorem test_w_QuernRecords_acked : ((wg 1 1 0 { retained := [⟨0, 1, 0x4000, zeros 256, false, true⟩] } []).group 3).retained.map RetS.acked = [true] ∧
    ((wg 1 1 0 {} []).link 0).slotsUsed < 2048 ∧ (wg 1 1 0 {} []).stationPeer 0 = true := by decide

/-- The bank of the step just left and the areas are mapped, and they are not. -/
def wArea (va : Nat) : State := wg 1 1 0 { still := some { wStill with bytes := 128 } } [(rRsState 3, Fd.put fRsStateVa 0 va), (rRsSlots 3, 0), (rRsCkpt 3, 0)]

set_option maxRecDepth 20000 in
theorem test_w_GroupCommit_copies : ((wArea 0).gCopy 3 ((wArea 0).slotAddr 3 ((wArea 0).lastStep 3 % 2) 0) ((wArea 0).areaAddr 3 0 + 4096) 128).2 = true ∧
    ((wArea 0x200).gCopy 3 ((wArea 0x200).slotAddr 3 ((wArea 0x200).lastStep 3 % 2) 0) ((wArea 0x200).areaAddr 3 0 + 4096) 128).2 = false ∧
    ((wArea 0).vParts 0 0 ((wArea 0).areaAddr 3 2 + 4096) 4096 accWrite).isOk = true := by decide +kernel

/-- A recovery for checkpoint 0 in progress, in the group of the Millpond; and a member ready for step 1's rollback. -/
theorem test_w_GroupCommit_seeds : (let s := wg 1 1 0 { recover := some ⟨2, 4, 0, 0, 0, false, []⟩ } [(rMpCfg, Fd.put fMpCfgGroup (Fd.put fMpCfgEn 0 1) 3)];
      (s.group 3).recover ≠ none ∧ s.fget rMpCfg fMpCfgGroup = 3 ∧ s.flag rMpCfg fMpCfgEn = true ∧ s.gMiller 3 = false) ∧
    ((wg 1 1 0 { ready := true } []).group 3).ready = true ∧ (wGm 0 1).value.toNat % 2 ^ 32 = ((wg 1 1 0 { ready := true } []).gStep 3 + 1) % 2 ^ 32 ∧
    (wg 1 1 0 {} []).dump = none := by decide

/-! ### Headrace, Millpond, host -/

/-- Legal recipe, clip record of one sample and sample index of one picture. -/
def bRecipe : Bytes := zeros 8 ++ natBytes 2 16 ++ natBytes 2 16 ++ [8, 1] ++ zeros 26 ++ [1] ++ zeros 4 ++ [1, 64, 0] ++ zeros 16
def bClip : Bytes := zeros 8 ++ natBytes 4 188 ++ zeros 4 ++ natBytes 6 0x3000 ++ natBytes 2 1 ++ zeros 40
def bSamp : Bytes := zeros 8 ++ natBytes 2 1 ++ [1] ++ zeros 21

/-- Ring 0 with one record at 0x1000, the recipe at 0x2000 and the sample index at 0x3000 of a mapped page; two engines and four slots of
13 pages from 0x10000; queue 0 asks by semaphore 5 for a slot, and its ring lies at 0x8000. -/
def wHr (p : PondS) : State := { w ([(rHrCtl, Fd.put fHrCtlEnable 0 1), (rHrRingCfg 0, Fd.put fHrRingCfgEn (Fd.put fHrRingCfgBase 0 1) 1), (rHrRingProd 0, 1),
    (rHrRecipe, Fd.put fHrRecipeVa 0 0x80), (rHrStatus, Fd.put fHrStatusActive 0 2), (rMpCfg, Fd.put fMpCfgEn (Fd.put fMpCfgSlots 0 4) 1),
    (rMpPool, Fd.put fMpPoolSlotSize (Fd.put fMpPoolBase 0 0x10) 13), (rTrCtx 0 0, Fd.put fTrCtxEn 0 1), (rMpQCfg 0, Fd.put fMpQCfgEn (Fd.put fMpQCfgRingVa 0 0x400) 1),
    (rMpQCt 0, Fd.put fMpQCtReqVsem 0 1)] ++ wSem.regs) with
  ebc := { (State.reset).ebc with ready := 2 }, mem := cells 0xEE00000000 (natBytes 8 (7 * 2 ^ 61)) ++ cells 0x1000 bClip ++ cells 0x2000 bRecipe ++ cells 0x3000 bSamp, pond := p }

/-- The index of a clip of one H.264 picture of 16 x 16 pixels, a random access point at time `t`. -/
def wIx (t : Int) : ClipIx := ⟨false, none, false, .h264, [], ⟨[0], [⟨0, 1, some t, none⟩], [(0, 1, 0)], []⟩,
  ⟨[⟨.main, 40, false, 1, 8, 16, 16, 0, 0, 0, 0, none, false, 0, 0, 3000⟩],
   [⟨0, 1, 0, 0, 0, .i, .frame, .none, false, false, true, none, false, false, true, [], none, true⟩]⟩, false, .layer2, [], esNone, ⟨false, 0, 0, []⟩⟩

/-- The clip in position 0, with or without its index; and the same with its sample in engine 0. -/
def wClip (ix : Option ClipIx) (left : Nat) : ClipS := ⟨0, 0, 0, 0, 0, 0x3000, 1, bRecipe, bClip, ix, 0, left, [], false⟩
def wClips (c : ClipS) : List (Option ClipS) := some c :: List.replicate 7 none
def xEngine : EngineS := ⟨0, 0, bSamp, 1⟩
def wEngine : List (Option EngineS) := some xEngine :: List.replicate 7 none

set_option maxRecDepth 20000 in
theorem test_w_Clips : (wHr {}).flag rHrCtl fHrCtlEnable = true ∧ (wHr {}).nextRing = some 0 ∧ (wHr {}).freeClip = some 0 ∧ (wHr {}).hrCtx = 0 ∧
    (wHr {}).vRead 0 0 0x1000 64 = .ok (some bClip) ∧ clipBad bClip = none ∧
    leAt bClip 22 2 ≠ 0 ∧ (wHr {}).vRead 0 0 0x2000 64 = .ok (some bRecipe) ∧ recipeBad bRecipe = none ∧ (wHr {}).pond.clips.length = 8 ∧
    (wHr {}).pond.started.getD 0 0 = 0 ∧ (wHr {}).fget (rHrRingCfg 0) fHrRingCfgBase * 4096 = 0x1000 ∧ (wHr {}).fget rHrRecipe fHrRecipeVa * 64 = 0x2000 ∧
    (w []).flag rHrCtl fHrCtlEnable = false ∧ (w []).nextRing = none ∧ (wHr { clips := List.replicate 8 (some (wClip none 1)) }).freeClip = none ∧
    (w []).flag (rHrRingCfg 1) fHrRingCfgEn = false ∧
    ((1 : BitVec 32).toNat + 2 ^ 32 - (w []).fget (rHrRingCons 1) fHrRingConsCons) % 2 ^ 32 ≤ 2 ^ (w []).fget (rHrRingCfg 1) fHrRingCfgLog2 := by decide +kernel

/-- A clip whose bytes can be read, and one whose page is not mapped. -/
theorem test_w_ClipIndexDone : (wHr { clips := wClips (wClip none 1) }).clip 0 = some (wClip none 1) ∧ (wClip none 1).index = none ∧ (wClip none 1).ring = 0 ∧ (wClip none 1).left ≠ 0 ∧
    (match (wHr {}).clipRead (wClip none 1) with
      | .ok b => b.2 == []
      | .error _ => false) = true ∧
    (match (wHr {}).clipRead { wClip none 1 with record := [0, 0, 0, 0, 1] ++ bClip.drop 5 } with
      | .ok _ => false
      | .error _ => true) = true ∧ (wClip (some (wIx 0)) 1).index ≠ none ∧ ((wHr {}).pond.engines.getD 0 none).isNone = true := by decide +kernel

theorem test_w_SampleDispatch : (let s := wHr { clips := wClips (wClip (some (wIx 0)) 1) };
      s.clip 0 = some (wClip (some (wIx 0)) 1) ∧ (0 : Nat) < (wClip none 1).nsamp ∧ s.flag rHrCtl fHrCtlEnable = true ∧
      s.vRead 0 s.hrCtx 0x3000 32 = .ok (some bSamp) ∧ sampBad bSamp 1 = none ∧ max 1 (leAt bRecipe 13 1) = 1 ∧ s.pond.engines.length = 8 ∧
      s.pond.engines.getD 1 none = none ∧ 1 < s.fget rHrStatus fHrStatusActive ∧ 1 < s.ebc.ready ∧ s.flag rMpCfg fMpCfgEn = true ∧ s.dispatchSlot = some 0) ∧
    (sampBad (zeros 32) 1).isSome = true ∧ (wHr { slots := [(0, .ready), (1, .ready), (2, .ready), (3, .held)] }).dispatchSlot = none := by decide +kernel

theorem natBytes_len : ∀ n v : Nat, (natBytes n v).length = n
  | 0, _ => rfl
  | n + 1, v => congrArg (· + 1) (natBytes_len n (v / 256))

theorem foldl_len {α : Type} (f : Bytes → α → Bytes) (n : Nat) : ∀ (l : List α) (b : Bytes), b.length = n →
    (∀ x ∈ l, ∀ b : Bytes, b.length = n → (f b x).length = n) → (l.foldl f b).length = n
  | [], _, hb, _ => hb
  | x :: l, b, hb, h => foldl_len f n l (f b x) (h x (.head _) b hb) fun y hy => h y (.tail _ hy)

/-- A block of 16-bit elements has 2,048 bytes, whatever its values. -/
theorem encBlock_len (sat : Bool) (v : List (List Fp)) : (encBlock (recipeFmt 1) sat v).length = 2048 := by
  unfold encBlock
  refine foldl_len _ _ _ _ (by decide +kernel) fun r hr b hb => ?_
  have hm : fmtMx (recipeFmt 1).fmt = false := rfl
  simp only [hm, Bool.false_eq_true, if_false]
  refine foldl_len _ _ _ _ hb fun c hc b hb => ?_
  rw [List.mem_range] at hr hc
  show (putBytes b (64 * r + 2 * c) (natBytes 2 _)).length = 2048
  simp only [putBytes, List.length_append, List.length_take, List.length_drop, natBytes_len, hb]
  omega

/-- What a sample that is not dropped has as its video. -/
theorem fate_video (ix : ClipIx) (r desc : Bytes) (n : Nat) (d : SampleData) (h : sampleFate ix r desc n = .ok d) :
    ∃ ps, d.video = videoMatrix ps r (leAt desc 10 1) := by
  unfold sampleFate at h
  simp only at h
  repeat' split at h
  all_goals first
    | (cases h; exact ⟨_, rfl⟩)
    | cases h

/-- With the scratch area mapped a sample fares as its syntax says. -/
theorem fateOf_some (s v : State) (c : ClipS) (e : Nat) (x : EngineS) (ix : ClipIx) (h : c.index = some ix) (hv : s.scratchWrite c e x = .ok v) :
    s.fateOf c e x = sampleFate ix c.rbytes x.desc (s.fget rMpPool fMpPoolSlotSize * 4096) := by
  unfold State.fateOf
  simp only [h, hv]
  cases sampleFate ix c.rbytes x.desc (s.fget rMpPool fMpPoolSlotSize * 4096) <;> rfl

/-- The first GiB of context 0 lies in the first 2 MiB of memory. -/
def Low (s : State) : Prop := ∀ va < 2 ^ 30, ∀ acc < 3, s.translate 0 0 va acc = .ok (va % 2 ^ 21)

/-- A run there has its parts below 2 MiB. -/
theorem low_parts (s : State) (h : Low s) (acc : Nat) (ha : acc < 3) : ∀ fuel va n, va + n ≤ 2 ^ 30 →
    ∃ ps, (pageParts fuel va n).mapM (fun q => match s.translate 0 0 q.1 acc with
      | .ok pa => Except.ok (ε := Nat × Nat) (pa, q.2)
      | .error e => .error (q.1, e)) = .ok ps ∧ ∀ q ∈ ps, q.1 + q.2 ≤ 2 ^ 21
  | 0, _, _, _ => ⟨[], rfl, by simp⟩
  | fuel + 1, va, n, hn => by
    unfold pageParts
    dsimp only
    split
    · exact ⟨[], rfl, by simp⟩
    · rename_i h0
      have hva : va < 2 ^ 30 := by omega
      split
      · refine ⟨[(va % 2 ^ 21, n)], ?_, by simp; omega⟩
        simp only [List.mapM_cons, List.mapM_nil, h va hva acc ha]
        rfl
      · obtain ⟨ps, hp, hq⟩ := low_parts s h acc ha fuel (va + (2 ^ 21 - va % 2 ^ 21)) (n - (2 ^ 21 - va % 2 ^ 21)) (by omega)
        refine ⟨(va % 2 ^ 21, 2 ^ 21 - va % 2 ^ 21) :: ps, ?_, ?_⟩
        · simp only [List.mapM_cons, h va hva acc ha, hp]
          rfl
        · intro q hm
          rcases List.mem_cons.1 hm with rfl | hm
          · simp only; omega
          · exact hq q hm

/-- Parts below 2 MiB leave what lies above, and a memory without poison stays without. -/
theorem low_wrParts : ∀ (ps : List (Nat × Nat)) (b : Bytes) (s : State), (∀ q ∈ ps, q.1 + q.2 ≤ 2 ^ 21) → s.poison = [] →
    (s.wrParts ps b).regs = s.regs ∧ (s.wrParts ps b).poison = [] ∧ ∀ x, 2 ^ 21 ≤ x → (s.wrParts ps b).rdB x = s.rdB x
  | [], _, _, _, hp => ⟨rfl, hp, fun _ _ => rfl⟩
  | q :: ps, b, s, h, hp => by
    have hz : (s.wrHbm q.1 (b.take q.2)).poison = [] := by
      unfold State.wrHbm
      simp [wrBytes_poison, hp]
    obtain ⟨h1, h2, h3⟩ := low_wrParts ps (b.drop q.2) (s.wrHbm q.1 (b.take q.2)) (fun r hr => h r (.tail _ hr)) hz
    have hq := h q (.head _)
    refine ⟨?_, h2, fun x hx => ?_⟩
    · show ((s.wrHbm q.1 (b.take q.2)).wrParts ps (b.drop q.2)).regs = s.regs
      rw [h1]
      exact wrBytes_regs s _ _
    · show ((s.wrHbm q.1 (b.take q.2)).wrParts ps (b.drop q.2)).rdB x = s.rdB x
      rw [h3 x hx]
      refine rdB_wrBytes_other _ _ _ _ (.inr ?_)
      rw [List.length_take]
      omega

/-- A write there is made, and what it leaves is again mapped so. -/
theorem low_vWrite (s : State) (h : Low s) (hp : s.poison = []) (va : Nat) (b : Bytes) (hn : va + b.length ≤ 2 ^ 30) :
    ∃ u, s.vWrite 0 0 va b = .ok u ∧ Low u ∧ u.poison = [] := by
  obtain ⟨ps, hps, hq⟩ := low_parts s h accWrite (by decide) (b.length / 2 ^ 21 + 2) va b.length hn
  obtain ⟨h1, h2, h3⟩ := low_wrParts ps b s hq hp
  refine ⟨s.wrParts ps b, ?_, fun va hva acc ha => ?_, h2⟩
  · have hv : s.vParts 0 0 va b.length accWrite = .ok ps := hps
    unfold State.vWrite
    rw [hv]
  · have he : (s.wrParts ps b).translate 0 0 va acc = s.translate 0 0 va acc := by
      have hpte : (s.wrParts ps b).pte 0 va = s.pte 0 va := by
        unfold State.pte State.rdBytes
        have : ∀ i, (s.wrParts ps b).rdB (pteAddr 0 va + i) = s.rdB (pteAddr 0 va + i) := fun i => h3 _ (by unfold pteAddr; omega)
        simp only [this]
      unfold State.translate State.flag State.fget State.reg State.poisoned
      rw [hpte, h1, h2, hp]
    rw [he]
    exact h va hva acc ha

theorem video_len (ps : List (PrepS × FrameS)) : (videoMatrix ps bRecipe 1).length = 12288 := by
  have h1 : videoShape bRecipe 1 = (4, 192) := by decide +kernel
  have h2 : recipeFmt (leAt bRecipe 40 1) = recipeFmt 1 := by decide +kernel
  unfold videoMatrix
  rw [h1, h2]
  simp only [blockedMatrix, List.length_flatMap, encBlock_len]
  decide

/-- The sample in engine 0 is decoded and fills 16,384 bytes of its slot, which is mapped; a sample that asks for a frame the clip does not have is dropped. -/
def wFate (l : List Nat) (t : Int) : State := { wHr { clips := wClips (wClip (some (wIx t)) 1), engines := wEngine } with
  mem := l.map fun i => ⟨0xEE00000007 + 8 * i, 0xE0⟩ }

/-- A byte of the page table: the highest of each entry alone is not zero. -/
theorem wFate_rdB (l : List Nat) (hl : ∀ i < 512, i ∈ l) (t : Int) (i j : Nat) (hi : i < 512) (hj : j < 8) :
    (wFate l t).rdB (0xEE00000000 + 8 * i + j) = if j = 7 then 0xE0 else 0 := by
  unfold State.rdB sget
  have hm : (wFate l t).mem = l.map fun i => ((0xEE00000007 + 8 * i, 0xE0) : Nat × Byte) := rfl
  rw [hm]
  cases h : (l.map fun i => ((0xEE00000007 + 8 * i, 0xE0) : Nat × Byte)).find? (fun e => e.1 == 0xEE00000000 + 8 * i + j) with
  | none =>
    by_cases h7 : j = 7
    · have := List.find?_eq_none.1 h (0xEE00000007 + 8 * i, 0xE0) (List.mem_map.2 ⟨i, hl i hi, rfl⟩)
      subst h7
      exact absurd (by simp; omega) this
    · rw [if_neg h7]
      unfold memDefault
      rfl
  | some e =>
    obtain ⟨x, -, rfl⟩ := List.mem_map.1 (List.mem_of_find?_eq_some h)
    have := List.find?_some h
    simp only [beq_iff_eq] at this
    rw [if_pos (by omega)]

theorem wFate_low (l : List Nat) (hl : ∀ i < 512, i ∈ l) (t : Int) : Low (wFate l t) := by
  intro va hva acc ha
  have hb : ∀ j < 8, (wFate l t).rdB (pteAddr 0 va + j) = if j = 7 then 0xE0 else 0 := by
    intro j hj
    have := wFate_rdB l hl t (va / 2 ^ 21) j (by omega) hj
    have he : pteAddr 0 va + j = 0xEE00000000 + 8 * (va / 2 ^ 21) + j := by unfold pteAddr; omega
    rw [he]
    exact this
  have hp : (wFate l t).pte 0 va = 7 * 2 ^ 61 := by
    unfold State.pte
    rw [if_pos (by omega)]
    have : (wFate l t).rdBytes (pteAddr 0 va) 8 = [0, 0, 0, 0, 0, 0, 0, 0xE0] := by
      unfold State.rdBytes
      rw [show List.range 8 = [0, 1, 2, 3, 4, 5, 6, 7] from rfl]
      simp only [List.map_cons, List.map_nil, hb 0 (by decide), hb 1 (by decide), hb 2 (by decide), hb 3 (by decide), hb 4 (by decide), hb 5 (by decide),
        hb 6 (by decide), hb 7 (by decide)]
      rfl
    rw [this]
    decide
  have hen : (wFate l t).flag (rTrCtx 0 0) fTrCtxEn = true := by
    show (wHr {}).flag (rTrCtx 0 0) fTrCtxEn = true
    decide +kernel
  have hpo : (wFate l t).poisoned (pteAddr 0 va) 8 = false := rfl
  have hc : pteCheck true false (7 * 2 ^ 61) acc = none := by
    rcases (show acc = 0 ∨ acc = 1 ∨ acc = 2 by omega) with rfl | rfl | rfl <;> decide
  have hz : bitsN (7 * 2 ^ 61) 39 21 = 0 := by decide
  unfold State.translate
  simp only [hp, hen, hpo, hc, hz, Nat.zero_mul, Nat.zero_add]

theorem sample_len (d : SampleData) (h : d.video.length = 12288) (o : Nat) : (slotBody (wClip (some (wIx 0)) 1) xEngine d o).length = 16384 := by
  have hb : videoBytes (wClip (some (wIx 0)) 1).rbytes (sampleFrames xEngine) = 12288 := by decide +kernel
  have ha : audioOffset (wClip (some (wIx 0)) 1).rbytes 12288 = 0 := by decide +kernel
  unfold slotBody
  simp only [hb, ha, if_true, List.length_append, List.length_nil, h, sampleHeader, natBytes_len, zeros, List.length_replicate]

theorem test_w_SampleFates : (wFate [] 0).pond.engines.length = 8 ∧ (wFate [] 0).pond.engines.getD 0 none = some xEngine ∧ xEngine.clip = 0 ∧
    (wFate [] 0).clip 0 = some (wClip (some (wIx 0)) 1) ∧
    (match (wFate [] (-1)).fateOf (wClip (some (wIx (-1))) 1) 0 xEngine with
      | .ok _ => false
      | .error d => d.reason == 3) = true := by decide +kernel

/-- With the table of 512 pages what decoding leaves in the scratch area finds its pages whatever it is, and the sample its slot. -/
theorem sampleReady_of (l : List Nat) (hl : ∀ i < 512, i ∈ l) : ∃ d v u, (wFate l 0).fateOf (wClip (some (wIx 0)) 1) 0 xEngine = .ok d ∧
    (wFate l 0).scratchWrite (wClip (some (wIx 0)) 1) 0 xEngine = .ok v ∧
    v.vWrite 0 ((wFate l 0).fget rMpCfg fMpCfgCtx) ((wFate l 0).slotVa xEngine.slot) (slotBody (wClip (some (wIx 0)) 1) xEngine d (wFate l 0).pondOrigin) = .ok u := by
  have h0 : (wFate l 0).scratchVa 0 = 0 := by
    show (wHr {}).scratchVa 0 = 0
    decide +kernel
  have hc : (wFate l 0).fget rMpCfg fMpCfgCtx = 0 := by
    show (wHr {}).fget rMpCfg fMpCfgCtx = 0
    decide +kernel
  have hs : (wFate l 0).slotVa xEngine.slot + 16384 ≤ 2 ^ 30 := by
    show (wHr {}).slotVa xEngine.slot + 16384 ≤ 2 ^ 30
    decide +kernel
  have hx : (wFate l 0).hrCtx = 0 := by
    show (wHr {}).hrCtx = 0
    decide +kernel
  have hb : (scratchBytes (wClip (some (wIx 0)) 1) xEngine).length ≤ 2 ^ 30 := List.length_take_le _ _
  obtain ⟨v, hv, hl1, hp⟩ := low_vWrite (wFate l 0) (wFate_low l hl 0) rfl 0 (scratchBytes (wClip (some (wIx 0)) 1) xEngine) (by rw [Nat.zero_add]; exact hb)
  have hw : (wFate l 0).scratchWrite (wClip (some (wIx 0)) 1) 0 xEngine = .ok v := by
    unfold State.scratchWrite
    rw [h0, hx, hv]
  have hk : (sampleFate (wIx 0) bRecipe bSamp ((wHr {}).fget rMpPool fMpPoolSlotSize * 4096)).isOk = true := by decide +kernel
  have hf := fateOf_some (wFate l 0) v (wClip (some (wIx 0)) 1) 0 xEngine (wIx 0) rfl hw
  cases hd : sampleFate (wIx 0) bRecipe bSamp ((wHr {}).fget rMpPool fMpPoolSlotSize * 4096) with
  | error e => rw [hd] at hk; cases hk
  | ok d =>
    obtain ⟨ps, hvid⟩ := fate_video _ _ _ _ d hd
    rw [show leAt bSamp 10 1 = 1 by decide +kernel] at hvid
    have hn := sample_len d (hvid ▸ video_len ps) (wFate l 0).pondOrigin
    obtain ⟨u, hu, -, -⟩ := low_vWrite v hl1 hp ((wFate l 0).slotVa xEngine.slot) (slotBody (wClip (some (wIx 0)) 1) xEngine d (wFate l 0).pondOrigin) (by
      rw [hn]; exact hs)
    exact ⟨d, v, u, hf.trans hd, hw, by rw [hc]; exact hu⟩

theorem test_w_SampleReady : ∃ l d v u, (wFate l 0).fateOf (wClip (some (wIx 0)) 1) 0 xEngine = .ok d ∧
    (wFate l 0).scratchWrite (wClip (some (wIx 0)) 1) 0 xEngine = .ok v ∧
    v.vWrite 0 ((wFate l 0).fget rMpCfg fMpCfgCtx) ((wFate l 0).slotVa xEngine.slot) (slotBody (wClip (some (wIx 0)) 1) xEngine d (wFate l 0).pondOrigin) = .ok u :=
  ⟨List.range 512, sampleReady_of (List.range 512) fun _ h => List.mem_range.2 h⟩

/-- A pause in force with too few FREE slots, and a queue with a request while slot 2 is READY. -/
def wPause : State := { w [(rMpCfg, 0), (rHrPfcCfg, Fd.put fHrPfcCfgXonFree 0 1), (rHrCtl, Fd.put fHrCtlPfcEn 0 1)] with pond := { pausing := true } }
def wPauseEnd : State := { w [(rMpCfg, Fd.put fMpCfgSlots 0 4), (rHrPfcCfg, Fd.put fHrPfcCfgXonFree 0 1)] with pond := { pausing := true, pool := true } }
def wRel : State := wHr { readyList := [2] }

set_option maxRecDepth 20000 in
theorem test_w_Releases : wPause.pond.pausing = true ∧ wPause.freeSlots < wPause.fget rHrPfcCfg fHrPfcCfgXonFree ∧ wPause.flag rHrCtl fHrCtlPfcEn = true ∧
    wPauseEnd.pond.pausing = true ∧ wPauseEnd.fget rHrPfcCfg fHrPfcCfgXonFree ≤ wPauseEnd.freeSlots ∧ (w []).pond.pausing = false ∧ wRel.flag rMpCfg fMpCfgEn = true ∧ wRel.nextQueue = some (0, 5) ∧
    heldOf wRel.pond.replay 0 = [] ∧ wRel.pond.readyList ≠ [] ∧ wRel.sem.entries = [] ∧
    (wRel.vParts 0 0 0x8000 32 accWrite).isOk = true ∧ wRel.fget (rMpQCt 0) fMpQCtCtKind = 0 ∧
    (let draw := (wRel.reg rMpDraw).toNat;
      let j := (philox (wRel.reg rMpSeed) draw (draw / 2 ^ 32) wRel.pondPos 0).1 * wRel.pond.readyList.length / 2 ^ 32;
      match wRel.vRead 0 (wRel.fget rMpCfg fMpCfgCtx) (wRel.slotVa (wRel.pond.readyList.getD j 0)) 128 with
      | .ok (some _) => true
      | _ => false) = true ∧
    heldOf (wHr { replay := [(0, [⟨2, 0, 0⟩])] }).pond.replay 0 = [⟨2, 0, 0⟩] ∧ (wHr { replay := [(0, [⟨2, 0, 0⟩])] }).nextQueue = some (0, 5) ∧
    (wHr {}).pond.readyList = [] ∧ (wHr {}).pond.replay = [] ∧ (w []).nextQueue = none := by decide +kernel

/-- A KIND 2 record of one hop at distance 3 still has two hops to go; at distance 2 it lands. -/
def wXch (dist : Nat) : Bytes := qhdrBytes ⟨0, 0, 2, 0, 8, 0, 3, 0, 1, zeros 8 ++ natBytes 3 dist ++ zeros 5⟩

set_option maxRecDepth 20000 in
theorem test_w_ExchangeRecords : (∀ d ∈ [2, 3], (qhdrOf (wXch d)).kind = 2 ∧ (wg 1 1 0 {} []).recOk 0 (qhdrOf (wXch d)) = true ∧
      (qhdrOf (wXch d)).epoch = (wg 1 1 0 {} []).gEpoch 3 ∧
      (wg 1 1 0 {} []).readPlan 0 (qhdrOf (wXch d)).group (qhdrOf (wXch d)).tag = .ok (wPlan 1) ∧ leAt (qhdrOf (wXch d)).mid 8 3 = d) ∧
    leAt (qhdrOf (wXch 3)).mid 8 3 ≠ (qhdrOf (wXch 3)).hops + 1 ∧ leAt (qhdrOf (wXch 2)).mid 8 3 = (qhdrOf (wXch 2)).hops + 1 ∧
    (wRoom 512 {}).linkState 0 = 6 ∧ ((wRoom 512 {}).link 0).wireQ = [] ∧ 128 + 1024 ≤ 128 * (wRoom 512 {}).egRoom 0 ((wRoom 512 {}).fget (rQst 0) fQstWireFlow) ∧
    (wRoom 512 {}).fget (rQst 0) fQstWireFlow ≠ (wRoom 512 {}).fget (rQst 0) fQstUpFlow ∧ (wRoom 0 {}).wireFree 0 = false ∧
    (wg 1 1 0 {} []).landSlot (leAt (qhdrOf (wXch 2)).mid 0 2) (leAt (qhdrOf (wXch 2)).mid 4 4) = none ∧ leAt (qhdrOf (wXch 2)).mid 4 4 = 0 ∧
    ({ wg 1 1 0 {} [] with pond := { round := some ⟨0, 2, [], [], [], 0, false⟩ } } : State).landSlot (leAt (qhdrOf (wXch 2)).mid 0 2)
      (leAt (qhdrOf (wXch 2)).mid 4 4) = some (⟨0, 2, [], [], [], 0, false⟩, 0) := by decide +kernel

/-- The run phase with control session 1, which expects SEQ 1. -/
def wSess : Session := ⟨1, ⟨0, 0⟩, 0, 0, false, 1, [], [], 0, []⟩
def wHost (l : List (Nat × Word)) (x : CtxS) : State := { w l with
  hearth := { (State.reset).hearth with boot := .run }, host := { sessions := [wSess] }, ctxs := [(0, x)] }

theorem test_w_Takes : Takes (wHost [] {}) wSess 1 :=
  ⟨⟨by decide, by decide, by decide, by decide, fun _ => rfl, fun _ => rfl⟩, by decide, by decide, by decide, by decide, by decide⟩

set_option maxRecDepth 20000 in
theorem test_w_ThpSessions : (wHost [] {}).session 2 = none ∧ 4096 ≤ (wHost [] {}).maxPayload ∧ (wHost [] {}).poisoned 0 128 = false ∧
    ({ wHost [] {} with poison := [0] } : State).poisoned 0 128 = true ∧ 0xEE04000000 - 128 + 128 ≤ 0xEE04000000 ∧
    ((3 : BitVec 32).toNat + 2 ^ 32 - wSess.expect) % 2 ^ 32 ≤ 1023 ∧ (wHost [] {}).host.sessions.length < 16 := by decide

/-- Context 0 loaded; started; and stopped by STOP. -/
def wLoaded : CtxS := { wCtx with started := false }
def wCores (l : List (Nat × Word)) (x : CtxS) : State := { wHost l x with cores := [(c0.idx, { present := true })] }

set_option maxRecDepth 20000 in
theorem test_w_ThpCommands : (wCores [] wLoaded).inPorch = false ∧ ((wCores [] wLoaded).ctx 0).started = false ∧ (wCores [] wLoaded).ebc.noGear = false ∧
    ((wCores [] wLoaded).ctx 0).img = some wImg ∧ ((wCores [] wLoaded).ctx 0).loaded = true ∧ (wCores [] wLoaded).presentOn c0 0 = true ∧
    (wCores [] wLoaded).flag (rCoreCtl c0) fCoreCtlHalt = false ∧ ((wCores [] { wCtx with stopped := some 0 }).ctx 0).groupHalt = false ∧ (wCores [(rCoreStatus c0, 1)] wCtx).ctxRunning 0 = true ∧
    (∃ d ∈ (wCores [(rCoreStatus c0, 1)] wCtx).activeCores 0, (wCores [(rCoreStatus c0, 1)] wCtx).run d = true) ∧
    ((wCores [] { wCtx with stopped := some 0 }).ctx 0).stopped.isSome = true ∧ (wCores [] { wCtx with stopped := some 0 }).activeCores 0 ≠ [] ∧
    (wHost [] {}).host.qps.length < 64 ∧ (wHost [] {}).host.mrs.length < 256 ∧ (wHost [] {}).hearth.boot ≠ .hostImage := by decide

/-- An entry listed as 0 reads 0. -/
theorem zero_entry (f : Nat → Nat) (l : List Nat) (g : Nat) (hg : g ∈ l) : sget regReset (l.map fun x => (f x, (0 : Word))) (f g) = 0 := by
  unfold sget
  cases h : (l.map fun x => (f x, (0 : Word))).find? (fun e => e.1 == f g) with
  | none => exact absurd (List.find?_eq_none.1 h (f g, 0) (List.mem_map.2 ⟨g, hg, rfl⟩)) (by simp)
  | some e =>
    obtain ⟨x, -, rfl⟩ := List.mem_map.1 (List.mem_of_find?_eq_some h)
    rfl

/-- With every entry of the group table written as invalid the context is in no group. -/
theorem no_groups_of (l : List Nat) (hl : ∀ g ∈ List.range 1024, g ∈ l) (s : State)
    (hs : s.regs = l.map fun g => (rGtCfg g, (0 : Word))) : s.groupsOf 0 = [] := by
  unfold State.groupsOf
  rw [List.filter_eq_nil_iff]
  intro g hg
  have h0 : s.reg (rGtCfg g) = 0 := by
    unfold State.reg
    rw [hs]
    exact zero_entry rGtCfg l g (hl g hg)
  have hv : s.gValid g = false := by
    unfold State.gValid State.flag State.fget
    rw [h0]
    decide
  rw [hv]
  simp

def wNoGroups (l : List Nat) : State := { wCores [] wLoaded with regs := l.map fun g => (rGtCfg g, 0) }

theorem wNoGroups_ok (l : List Nat) (hl : ∀ g ∈ List.range 1024, g ∈ l) : ((wNoGroups l).ctx 0).img = some wImg ∧ (wNoGroups l).groupsOf 0 = [] :=
  ⟨rfl, no_groups_of l hl _ rfl⟩

theorem test_w_ThpStartGroups : ∃ l : List Nat, ((wNoGroups l).ctx 0).img = some wImg ∧ (wNoGroups l).groupsOf 0 = [] :=
  ⟨_, wNoGroups_ok (List.range 1024) (fun _ h => h)⟩

/-- No header held: the first check of R424 fails. -/
theorem test_w_FwCheck : (wHost [] {}).fwCheck [] [] false = some 1 := by
  unfold State.fwCheck
  rw [if_pos (Or.inl (by decide))]

/-- In Porch by its strap; a start from the host goes another way. -/
def wPorch : State := { wHost [(rStartStatus, Fd.put fStartStatusBootSrc 0 0)] {} with hearth := { (State.reset).hearth with boot := .porch } }

theorem test_w_Porch : wPorch.portUp = true ∧ wPorch.bootBusy = false ∧ wPorch.fget rStartStatus fStartStatusBootSrc ≠ 3 ∧
    wPorch.fget rStartStatus fStartStatusBootSrc ≠ 1 := by decide

/-- A queue pair that expects PSN 5, and a region of one page at 0x4000. -/
def wQp : QpS := ⟨7, 9, ⟨0, 0⟩, 0, 0, 5, false, false, none, 1, none⟩
def wRdma : State := { wPage [] wLive [] [] with
  hearth := { (State.reset).hearth with boot := .run }, host := { qps := [wQp], mrs := [⟨3, false, 0, 1, 0x4000⟩] } }
def wPkt (psn : BitVec 24) : RdmaPkt := ⟨0x0A, psn, 0x4000, 3, 128, zeros 128, false, false, true⟩

set_option maxRecDepth 20000 in
theorem test_w_RdmaAndEthernet : wRdma.qp 7 = some wQp ∧ ((wPkt 5).psn - wQp.psn).toNat = 0 ∧ (wPkt 5).payload.length = (wPkt 5).dlen.toNat ∧
    (wRdma.host.mrs.find? fun m => m.rkey == 3) = some ⟨3, false, 0, 1, 0x4000⟩ ∧ (wRdma.vParts 0 0 0x4000 128 accWrite).isOk = true ∧
    0 < ((wPkt 6).psn - wQp.psn).toNat ∧ ((wPkt 6).psn - wQp.psn).toNat < 2 ^ 23 ∧ 2 ^ 23 ≤ ((wPkt 4).psn - wQp.psn).toNat ∧ wQp.pendAck ≠ 0 ∧
    wRdma.portUp = true ∧ wRdma.hearth.boot = .run ∧ wQp.error = false ∧ wQp.cur = none ∧ wQp.nakSent = false ∧ (∀ n, (wPkt n).ce = false) ∧
    (wPkt 5).opcode = 0x0A ∧ (wPkt 5).dlen.toNat ≤ 4096 ∧ 0x4000 ≤ (wPkt 5).va.toNat ∧ (wPkt 5).va.toNat + (wPkt 5).payload.length ≤ 0x4000 + 4096 * 1 ∧
    wRdma.pausedNow wQp.prio.toNat = false ∧ ({ wRdma with host := { wRdma.host with paused := [(0, 65535, 0)] } } : State).pausedNow wQp.prio.toNat = true :=
  ⟨by decide, by decide, by decide, by decide, by decide +kernel, by decide, by decide, by decide, by decide, by decide, by decide, by decide, by decide, by decide,
    fun _ => rfl, by decide, by decide, by decide, by decide, by decide, by decide⟩

/-- Sixteen sessions open; and every priority of the port paused. -/
def wFull : State := { wHost [] {} with host := { sessions := List.replicate 16 wSess } }
def wPaused : State := { wRdma with host := { wRdma.host with paused := (List.range 8).map fun p => (p, 65535, 0) } }

set_option maxRecDepth 20000 in
theorem test_w_HostLimits : HostQuiet wFull ∧ 16 ≤ wFull.host.sessions.length ∧ ethFits (32 + 4096) = true ∧ ethFits (32 + 9118) = true ∧
    ethFits (32 + 9119) = false ∧ (wPkt 5).intact = true ∧ ({ wPkt 5 with intact := false } : RdmaPkt).intact = false ∧
    ethFits (32 + (wPkt 5).payload.length) = true ∧ wPaused.portUp = true ∧ (∀ p : BitVec 3, wPaused.portWaits p.toNat = true) ∧ (∀ p, wRdma.portWaits p = false) ∧
    thpParse [] = none :=
  ⟨⟨by decide, by decide, by decide, by decide, fun _ => rfl, fun _ => rfl⟩, by decide, by decide, by decide, by decide, by decide, by decide, by decide,
    by decide, by decide, fun _ => rfl, by decide⟩

/-- A chunk of 8 beats of a sample of 129 lands in slot 5, at distance 2; the station's peer is the one that GT_RING names. -/
def wChunk : Bytes := qhdrBytes ⟨0, 0, 2, 0, 8, 0, 3, 0, 1, zeros 4 ++ natBytes 4 129 ++ natBytes 3 2 ++ zeros 5⟩
def wLand : State := { wg 1 1 0 {} [(rMpPool, Fd.put fMpPoolSlotSize (Fd.put fMpPoolBase 0 0x10) 13)] with pond := { round := some ⟨0, 2, [], [], [5], 0, false⟩ } }

set_option maxRecDepth 20000 in
theorem test_w_LandingChunk : (qhdrOf wChunk).kind = 2 ∧ wLand.recOk 0 (qhdrOf wChunk) = true ∧ (qhdrOf wChunk).epoch = wLand.gEpoch 3 ∧ wLand.stationPeer 0 = true ∧
    wLand.readPlan 0 3 0 = .ok (wPlan 1) ∧ leAt (qhdrOf wChunk).mid 8 3 = (qhdrOf wChunk).hops + 1 ∧
    wLand.landSlot (leAt (qhdrOf wChunk).mid 0 2) (leAt (qhdrOf wChunk).mid 4 4) = some (⟨0, 2, [], [], [5], 0, false⟩, 5) ∧
    sget (fun _ => 0) ([] : List (Nat × Nat)) 0 + (qhdrOf wChunk).beats < leAt (qhdrOf wChunk).mid 4 4 ∧
    (wLand.vParts 0 0 (wLand.slotVa 5) 1024 accWrite).isOk = true ∧ (wg 1 1 0 {} []).stationPeer 0 = true := by decide +kernel

/-! ### Registers, power, start, recorder -/

/-- A hall 0 whose grid is built. -/
def wBuilt (l : List (Nat × Word)) : State := w ((rGridStatus 0, Fd.put fGridStatusBuilt 0 1) :: l)

/-- The same in the run phase. -/
def wPhase (l : List (Nat × Word)) : State := { wBuilt l with hearth := { (State.reset).hearth with boot := .run } }

/-- Core 0's first descriptor is live, its entry not yet staged; an invalidation of context 2's space 3 waits. -/
def wEntry : State := wc { wBuilt [(rStrmStatus c0, Fd.put fStrmStatusDescLive 0 1)] with inval := [(2, some 3)] } { descs := [wLive] }

/-- The same with the entry in phase 2; and with a request of context 2 for page 3 in stack 0, translated before the invalidation. -/
def wEntry2 : State := { wEntry with regs := (rStrmEntry c0 0, Fd.put fStrmEntryPhase 0 2) :: wEntry.regs }
def wOldReq : State := { wEntry with
  cores := [(c0.idx, { present := true, descs := [wLive] })], regs := (rCoreStatus c0, Fd.put fCoreStatusCtx 0 2) :: wEntry.regs,
  hbm := [(0, { misses := [⟨0, [⟨c0, 2, 0, 3 * 2 ^ 21, .read, 0, 0, []⟩], 0⟩] })] }

set_option maxRecDepth 20000 in
theorem test_w_RegisterCommands : mayWrite .host = true ∧ wEntry.inval = [(2, some 3)] ∧ wEntry.built c0.hall.val = true ∧ wEntry.run c0 = false ∧
    (0 : BitVec 6).toNat < (wEntry.core c0).descs.length ∧ (BitVec.ofNat 64 (2 ^ 63)).getLsbD 63 = true ∧ (0 : Word).getLsbD 63 = false ∧
    wEntry.isHole c0 = false ∧ wEntry.fget (rStrmEntry c0 0) fStrmEntryPhase = 0 ∧ wEntry2.run c0 = false ∧
    wEntry2.fget (rStrmEntry c0 0) fStrmEntryPhase ≠ 0 ∧ (wEntry.core c0).descs.length ≤ (1 : BitVec 6).toNat ∧ wEntry.oldOut 2 (some 3) = false ∧
    wOldReq.inval = [(2, some 3)] ∧ wOldReq.oldOut 2 (some 3) = true ∧ ctlSpan (hallSpace + 0x510038) = some 0x30 ∧
    (w []).busWrite .host 1 8 0 = none ∧ (w []).busWrite .rdma (coreBase c0) 8 0 = none ∧
    widthAligned (coreBase c0 + 0x1FFFF8) 8 = true ∧ place ((coreBase c0 + 0x1FFFF8) / 8 * 8) = .core c0 0x1FFFF8 ∧
    (wBuilt []).coreOpen c0 0x1FFFF8 (regHere ((coreBase c0 + 0x1FFFF8) / 8 * 8)) = true := by decide

set_option maxRecDepth 20000 in
theorem test_w_HallReset : (wPhase []).hearth.boot = .run ∧ (wPhase []).hallBusy 0 = none ∧ (wPhase [(rCoreStatus c0, 1)]).hallBusy 0 = some 1 ∧
    (wPhase [(rHallRst, Fd.put ⟨16, 16⟩ 0 1)]).flag rHallRst ⟨16 + 0, 16 + 0⟩ = true := by decide

/-- Context 0 runs at gear `g` and the evaluation is on; the estimates are zero, so that the selection is gear 1. -/
def wGear (g : Nat) (e : EbcS) (l : List (Nat × Word)) : State :=
  { wBuilt ((rEbcStatus, Fd.put fEbcStatusGear 0 g) :: l) with ebc := e, ctxs := [(0, wCtx)] }

def wChg (l : List (Fin 8)) : GearChg := ⟨2, 0, l, [], false, 0⟩

set_option maxRecDepth 20000 in
theorem test_w_ClocksAndGears : (wGear 1 { evaluating := true, running := true } []).runningCtxs ≠ [] ∧
    (wGear 1 { evaluating := true, running := true } []).select.1 = (wGear 1 { evaluating := true, running := true } []).gear ∧
    (wGear 2 { evaluating := true, running := true } []).select.1 ≠ (wGear 2 { evaluating := true, running := true } []).gear ∧
    (wGear 1 {} []).built 0 = true ∧ (0 : Fin 8) ∉ (wChg []).locked ∧ (wGear 1 {} []).builtHalls ≠ [] ∧
    (∀ g ∈ (wGear 1 {} []).builtHalls, g ∈ (wChg [0]).locked) ∧ (wChg [0]).target < 8 ∧ PllDom.hall 0 ∉ (wGear 1 {} []).ebc.tried ∧
    PllDom.hall 0 ∈ (wGear 1 { tried := [.hall 0] } []).ebc.tried ∧ (wGear 1 { change := some (wChg []) } []).ebc.change = some (wChg []) ∧
    ({ wChg [] with prev := 1 } : GearChg).prev ≠ 0 ∧ (wChg []).prev = 0 ∧ (wChg []).fallback = false ∧ ({ wChg [] with fallback := true } : GearChg).fallback = true ∧
    (wGear 1 {} []).hearth.boot ≠ .neighbour ∧ (wGear 1 { evaluating := true, running := true } []).ebc.change = none ∧
    (wBuilt []).ebc.running = false ∧ (wBuilt []).ebc.change = none ∧ (wBuilt []).runningCtxs = [] ∧
    (w [(rEbcStatus, Fd.put fEbcStatusRefSrc 0 1)]).fget rEbcStatus fEbcStatusRefSrc ≠ 0 ∧
    (w [(rEbcStatus, Fd.put fEbcStatusRefFailover 0 1)]).flag rEbcStatus fEbcStatusRefFailover = true ∧
    (w [(rStartStatus, Fd.put fStartStatusClkMode 0 1)]).fget rStartStatus fStartStatusClkMode = 1 := by decide

/-- Every sensor of a hall or the front die, and of a stack, one sixteenth below and one at its clearing limit; one at its own limit. -/
def wHot (k : Nat) : State := w ((List.range 21).map fun i => (rEbcTemp i, Fd.put fEbcTempTemp 0 ((if i < 9 then 8 * ((State.reset).fget rEbcTempCfg fEbcTempCfgHotC - 5) else 720) - k)))

set_option maxRecDepth 20000 in
theorem test_w_EnergyAndHeat : (wHot 1).cool = true ∧ (wHot 0).cool = false ∧
    ({ gatePend := some 3 :: List.replicate 7 none } : EbcS).gatePend.getD (0 : Fin 8).val none = some 3 ∧ (State.reset).ebc.gateLvl.length = 8 ∧
    8 * ((State.reset).fget rEbcTempCfg fEbcTempCfgHotC : Int) ≤ (32767 : BitVec 16).toInt ∧ (760 : Int) ≤ (760 : BitVec 16).toInt ∧
    (State.reset).flag rEbcStatus fEbcStatusHot = false ∧ 8 * ((State.reset).fget rEbcTempCfg fEbcTempCfgG4C : Int) ≤ (32767 : BitVec 16).toInt ∧
    (State.reset).ebc.excursion = false ∧ 54000 < (54001 : BitVec 16).toNat ∧ (45999 : BitVec 16).toNat < 46000 ∧ ({ excursion := true } : EbcS).excursion = true := by decide

/-- The state after reset with the Hearth's start at a point. -/
def wBoot (h : HearthS) (l : List (Nat × Word)) : State := { w l with hearth := h }

set_option maxRecDepth 20000 in
theorem test_w_ResetsAndStart : (State.reset).hearth.up = true ∧ (State.reset).hearth.boot = .rails ∧
    (wBoot { boot := .tripHold } []).hearth.boot ≠ .off ∧ (wBoot { up := false } []).hearth.up = false ∧ (wBoot { boot := .run } []).powerGood = true ∧
    (wBoot { boot := .run, wdt := some 0 } []).hearth.wdt.isSome = true ∧
    bitN ((State.reset).fget rRstCause fRstCauseCause) 3 = false ∧ bitN ((State.reset).fget rRstCause fRstCauseCause) 4 = false ∧
    (wBoot { boot := .run } []).hearth.stableAt = none ∧ (wBoot { boot := .run } [(rLinkStatus 0, Fd.put fLinkStatusState 0 lsShuttered)]).linkState 0 = lsShuttered ∧
    (State.reset).flag rSecCfg fSecCfgBootServe = false ∧ (w [(rSecCfg, Fd.put fSecCfgBootServe 0 1)]).flag rSecCfg fSecCfgBootServe = true ∧
    (wBoot { boot := .neighbour, bootIdx := 5 } []).hearth.bootIdx = 5 ∧ (0x1FFFFF : BitVec 24).toNat < 0x200000 ∧ (40 : Word).toNat ≤ 8 * 5 ∧
    0x200000 ≤ (0x200000 : BitVec 24).toNat ∧ (5 : BitVec 24).toNat = (wBoot { boot := .neighbour, bootIdx := 5 } []).hearth.bootIdx ∧
    (4 : BitVec 24).toNat ≠ (wBoot { boot := .neighbour, bootIdx := 5 } []).hearth.bootIdx ∧
    (wBoot { boot := .neighbour, bootIdx := 5 } [(rLinkStatus 0, Fd.put fLinkStatusState 0 lsShuttered)]).hearth.boot = .neighbour ∧
    (wBoot { boot := .neighbour, bootIdx := 5 } [(rLinkStatus 0, Fd.put fLinkStatusState 0 lsShuttered)]).linkState 0 = lsShuttered ∧
    (wBoot { boot := .run } []).hearth.img = none ∧ ((wBoot { boot := .run } []).link 0).mode = false ∧ (wBoot { boot := .run } []).linkState 0 ≠ lsShuttered ∧
    (wBoot { boot := .failed } []).hearth.boot = .failed := by decide

/-- An image runs that the link may serve. -/
def wServe : State := wBoot { boot := .run, img := some ⟨0, 0, 4096, false, 0, 0, 0, 0⟩ }
  [(rSecCfg, Fd.put fSecCfgBootServe 0 1), (rLinkStatus 0, Fd.put fLinkStatusState 0 lsShuttered)]

theorem test_w_BootServe : wServe.hearth.boot = .run ∧ wServe.linkState 0 = lsShuttered ∧ wServe.flag rSecCfg fSecCfgBootServe = true ∧
    wServe.hearth.img.isSome = true := by decide

/-- With no image in the Housekeeper's memory its check fails. -/
theorem test_w_BootEnd : (wBoot { boot := .neighbour } []).hkCheck ≠ none := by decide +kernel

/-- A valid bank is all that the clause of a start from flash needs; whether a bank is valid is for the opaque signature check to say. -/
theorem bank_of_seq (s : State) (a : Nat) (h : s.bankSeq 0 = some a) : ∃ b, s.newestBank = some b := by
  unfold State.newestBank
  rw [h]
  cases s.bankSeq 1 with
  | none => exact ⟨0, rfl⟩
  | some b => exact ⟨_, rfl⟩

/-- A record that waits to be accepted; a full buffer; and one record in the buffer. -/
def wRec : EvRec := evr 0x0002 0x11 0
def wBuf (n : Nat) : State := { State.reset with log := { (State.reset).log with arrivals := [wRec], buffer := List.replicate n ⟨wRec, 0, 0, true⟩ } }

set_option maxRecDepth 20000 in
theorem test_w_RecorderAndDumps : (wBuf 1007).log.arrivals = [wRec] ∧ wRec.code / 4096 ≠ 9 ∧ wRec.code / 4096 ≠ 10 ∧ (wBuf 1007).log.buffer.length < 1008 ∧
    1024 ≤ (wBuf 1024).log.buffer.length ∧ (wBuf 1).log.buffer = ⟨wRec, 0, 0, true⟩ :: [] ∧ (wBuf 1).log.entries ≤ 2048 ∧
    (w []).slot % 1024 = 0 ∧ ({ w [] with snapPend := some true } : State).snapPend = some true ∧
    (w [(rDumpCfg, Fd.put fDumpCfgArm 0 1)]).flag rDumpCfg fDumpCfgArm = true ∧ (w []).dump = none ∧ (w [(rDumpCfg, 0)]).flag rDumpCfg fDumpCfgArm = false ∧
    (w [(rDumpStatus, Fd.put fDumpStatusValid 0 1)]).flag rDumpStatus fDumpStatusValid = true ∧
    (∀ c ∈ (⟨0, none, false, none, [c0], [], [], 0, false, []⟩ : DumpS).cores, (w []).run c = false) := by decide

set_option maxRecDepth 40000 in
/-- A pass whose result its check's row sums confirm, and the same with one bit of an accumulator turned. -/
theorem test_w_CheckedPasses_verdicts : (checkRun 0 [wPass] (upset (chainOut [wPass]) [])).mismatch = false ∧
    (checkRun 0 [wPass] (upset (chainOut [wPass]) [(0, 0x3F800000)])).mismatch = true := by decide +kernel

/-- A change of clocks that waits for nothing but its start; a warm reset in this Hearth cycle, which a trip follows, and a reset of a
later one. -/
def wClk : State := wGear 1 { change := some (wChg [0]) } []
def wRst (cause t : Nat) : State := wBoot { boot := .rails, resetAt := some t } [(rRstCause, Fd.put fRstCauseCause 0 cause)]

set_option maxRecDepth 20000 in
theorem test_w_StartsAndLevels : ({ gateHere := List.replicate 8 none, gatePend := some 3 :: List.replicate 7 none } : EbcS).gateHere.length = 8 ∧
    ({ gatePend := some 3 :: List.replicate 7 none } : EbcS).gatePend.length = 8 ∧ (State.reset).ebc.gateHere.length = 8 ∧ (State.reset).slot % 1024 = 0 ∧
    ({ State.reset with slot := 5 } : State).slot % 1024 ≠ 0 ∧ wClk.ebc.change = some (wChg [0]) ∧ wClk.builtHalls ≠ [] ∧
    (∀ g ∈ wClk.builtHalls, g ∈ (wChg [0]).locked) ∧ (∀ g, PllDom.front ≠ PllDom.hall g) ∧ PllDom.front ≠ PllDom.ether ∧
    PllDom.front ∈ (wBoot { boot := .neighbour } []).ebc.tried ++ [PllDom.front] ∧
    ({ wBoot { boot := .neighbour } [] with ebc := { tried := [.front] } } : State).ebc.tried = [.front] ∧
    (wRst 4 0).outranked 2 = false ∧ (wRst 1 0).outranked 2 = true ∧ (wRst 1 7).outranked 2 = false ∧ (wRst 1 0).hearth.up = true ∧ (wRst 1 0).hearth.boot ≠ .off ∧
    PllDom.front ∈ (⟨0, 0, [.front], [], true⟩ : StartEnv).pllFail ∧ (∀ d ∈ (⟨0, 0, [.stack 0, .link 3], [], true⟩ : StartEnv).pllFail, PllDom.late d = true ∧ d ≠ .link 0) ∧
    (⟨0, 0, [.stack 0, .link 3], [], true⟩ : StartEnv).pllFail ≠ [] ∧ (⟨0, 0, [], [], true⟩ : StartEnv).pllFail = [] ∧
    (wRst 1 7).hearth.flashOp = none ∧ (wRst 1 7).log.buffer = [] ∧ (wBuf 1).log.buffer ≠ [] ∧ (wBuf 1).log.entries ≤ 2048 ∧ (wBuf 1).hearth.flashOp = none ∧
    ({ wBuf 1 with hearth := { (wBuf 1).hearth with boot := .run } } : State).powerGood = true := by decide

/-! ### Words written out from chapter 6, and commands that WellFormed refuses -/

/-- CTL words, field by field: OP, COND, SA, OFF; OP, zeros, TARGET; OP, SRC, SA, ICOUNT, LEN. COND 7, LEN 0 and a reserved bit are refused (R135, R136). -/
theorem test_decode_ctl : decCtl c0 0b000001_001_00101_111111111111111111 = some (.br c0 1 5 0x3FFFF) ∧
    decCtl c0 0b000100_0000000000_0000000000000111 = some (.call c0 7) ∧ decCtl c0 0b001000_1_00011_00000000_000000000010 = some (.loop c0 true 3 0 2) ∧
    decCtl c0 0b001001_00000000000000000000000000 = some (.lbrk c0) ∧ decCtl c0 0b000001_111_00101_000000000000000001 = none ∧
    decCtl c0 0b001000_1_00011_00000000_000000000000 = none ∧ decCtl c0 0b001001_00000000000000000000000001 = none ∧ decCtl c0 0 = none := by decide

/-- SCL words: R form OP, SD, SA, SB; I form OP, SD, SA, IMM; MOVI; INSH; TCFG (R138). A shift of 64 is refused. -/
theorem test_decode_scl : decScl c0 0b000010_00001_00010_00011_00000000000 = some (.sub c0 1 2 3) ∧
    decScl c0 0b010001_00001_00010_1111111111111111 = some (.addi c0 1 2 0xFFFF) ∧ decScl c0 0b011100_00100_100000000000000000000 = some (.movi c0 4 0x100000) ∧
    decScl c0 0b011101_00100_000_10_0000000000000101 = some (.insh c0 4 2 5) ∧ decScl c0 0b011111_111111_00010_000000000000000 = some (.tcfg c0 63 2) ∧
    decScl c0 0b100100_00001_00010_00011_00000000000 = some (.div c0 1 2 3) ∧ decScl c0 0b010110_00001_00010_0000000000111111 = some (.shli c0 1 2 63) ∧
    decScl c0 0b010110_00001_00010_0000000001000000 = none := by decide

/-- MOV words: TCPY and SST field by field; MSND with CT 63 and with the reserved 48 (R140). -/
theorem test_decode_mov : decMov c0 0b000011_000101_100000_000110_000000000000000000000000 = some (.tcpy c0 5 32 6) ∧
    decMov c0 0b001001_00111_00010_10_0_1111111111111100_0000000000000 = some (.sst c0 7 2 2 0xFFFC) ∧
    decMov c0 0b000100_000001_100000_000010_111111_000000000000000000 = some (.msnd c0 1 32 2 63) ∧
    decMov c0 0b000100_000001_100000_000010_110000_000000000000000000 = none := by decide

/-- ARR words: OP, TA, TW, TD, N, RATE, KEEP, CHAIN; and ASTAT (R143). -/
theorem test_decode_arr : decArr c0 0b000001_000100_001000_101000_100000_01_1_0_00000000000000 = some (.pass c0 4 8 40 32 1 true false) ∧
    decArr c0 0b000010_01001_0000000000000000000000000000000000000 = some (.astat c0 9) := by decide

/-- VEC words: VFMA and VEXT in the register form, TVOP and TRED (R144, R145); a field that VADD does not use must be zero. -/
theorem test_decode_vec : decVec c0 0b000100_0001_0010_0011_0100_00000_00000_000_0000000000000 = some (.vfma c0 1 2 3 4) ∧
    decVec c0 0b010000_0000_0010_0000_0000_00110_11111_000_0000000000000 = some (.vext c0 6 2 31) ∧
    decVec c0 0b101000_000001_000010_100000_001000_0011_0000_01_101_00000 = some (.tvop c0 1 2 32 8 3 0 1 5) ∧
    decVec c0 0b110000_0001_000010_100000_011_0100_0000000000000000000 = some (.tred c0 1 2 32 3 4) ∧
    decVec c0 0b000001_0001_0010_0011_0100_00000_00000_000_0000000000000 = none := by decide

/-- SYN words: POST, WAIT that consumes, GWATCH (R146); SC 48 is refused. -/
theorem test_decode_syn : decSyn c0 0b000001_000011_00_00_0000000000000001 = some (.post c0 3 0 1) ∧
    decSyn c0 0b000010_101111_10_1_0_0000000000000100 = some (.wait c0 47 2 true 4) ∧
    decSyn c0 0b001010_00001_00010_000011_01_00000000 = some (.gwatch c0 1 2 3 1) ∧
    decSyn c0 0b000001_110000_00_00_0000000000000001 = none := by decide

/-- One ill-formed command for each check, refused; each differs in one field from a well-formed one. -/
theorem test_wf_refuses : (Instr.br c0 7 0 0).wf = false ∧ (Instr.loop c0 false 0 1 0).wf = false ∧ (Instr.shli c0 0 0 64).wf = false ∧
    (Instr.shri c0 0 0 64).wf = false ∧ (Instr.srai c0 0 0 64).wf = false ∧ (Instr.rdsp c0 0 5).wf = false ∧ (Instr.msnd c0 0 0 0 48).wf = false ∧
    (Instr.mbind c0 0 62 0 0 0).wf = false ∧ (Instr.vcmp c0 0 0 0 6).wf = false ∧ (Instr.tvop c0 0 0 0 0x0F 0 0 0 0).wf = false ∧
    (Instr.tvop c0 0 0 0 1 0 0 2 0).wf = false ∧ (Instr.tvop c0 0 0 0 8 0 0 0 6).wf = false ∧ (Instr.tvop c0 0 0 0 1 0 0 0 1).wf = false ∧
    (Instr.tred c0 0 0 0 4 0).wf = false ∧ (Instr.post c0 48 0 0).wf = false ∧ (Instr.post c0 0 2 32).wf = false ∧ (Instr.wait c0 48 0 false 0).wf = false ∧
    (Instr.wait c0 0 1 false 32).wf = false ∧ (Instr.gpost c0 0 1 0).wf = false ∧ (Instr.gpost c0 0 2 32).wf = false ∧ (Instr.gwait c0 0 3 false 32).wf = false ∧
    (Instr.gwatch c0 0 0 48 0).wf = false ∧ (Instr.gwatch c0 0 0 0 2).wf = false ∧ (Instr.meshBeat c0 0 false (zeros 128) .clean).wf = false ∧
    (Instr.meshBeat c0 1 true (zeros 128) .clean).wf = false ∧ (Instr.meshBeat c0 1 false [0] .clean).wf = false ∧ (Instr.linkEgressBeat 0 0 [0]).wf = false := by decide

/-! ### One step -/

/-- The next state of an outcome, the reset state for another. -/
def after : Host.Outcome State Fault Refusal → State
  | .next t => t
  | _ => State.reset

/-- S1 = -7 and S2 = 2. -/
def wArith : State := wr [(rS c0 1, BitVec.ofInt 64 (-7)), (rS c0 2, 2)]

/-- DIV rounds toward zero and REM takes the dividend's sign; the upper half of -7 times 2, unsigned and signed; a division by zero (R138, R139). -/
theorem test_scalar_results : ((after (exec (.div c0 3 1 2) wArith)).sreg c0 3).toInt = -3 ∧ ((after (exec (.rem c0 3 1 2) wArith)).sreg c0 3).toInt = -1 ∧
    (after (exec (.mulhu c0 3 1 2) wArith)).sreg c0 3 = 1 ∧ ((after (exec (.mulh c0 3 1 2) wArith)).sreg c0 3).toInt = -1 ∧
    (after (exec (.div c0 3 1 4) wArith)).sreg c0 3 = BitVec.allOnes 64 := by decide +kernel

/-- FP32: 1 + 2^-24 is a tie and goes to the even 1; infinity minus infinity is the one NaN (R139). -/
theorem test_fadd_rounds : (after (exec (.fadd c0 3 1 2) (wr [(rS c0 1, 0x3F800000), (rS c0 2, 0x33800000)]))).sreg c0 3 = 0x3F800000 ∧
    (after (exec (.fadd c0 3 1 2) (wr [(rS c0 1, 0x7F800000), (rS c0 2, 0xFF800000)]))).sreg c0 3 = 0x7FC00000 := by decide +kernel

/-- SST of a halfword stores its low byte first; SLD of it with SX extends the sign (R5, R141). -/
def wStored : State := after (exec (.sst c0 1 0 1 16) (wr [(rS c0 1, 0x8001)]))
theorem test_store_load : wStored.rdStore c0 16 3 = [0x01, 0x80, 0] ∧ ((after (exec (.sld c0 3 0 1 true 16) wStored)).sreg c0 3).toInt = -32767 := by
  decide +kernel

/-- CALL from index 5 leaves 6 in S31 and goes to its target (R135). -/
theorem test_call : (after (exec (.call c0 9) (wr [(rPc c0, 5)]))).sreg c0 31 = 6 ∧ (after (exec (.call c0 9) (wr [(rPc c0, 5)]))).reg (rPc c0) = 9 := by
  decide +kernel

/-- A step takes the first of two waiting commands. -/
theorem test_step_takes_front : ∃ t, step { wArith with pending := [.sub c0 4 2 1, .exit c0] } = .next t ∧ t.sreg c0 4 = 9 ∧ t.pending = [.exit c0] :=
  ⟨_, rfl, by decide +kernel, rfl⟩

/-! ### Worked examples of the spec -/

/-- The window base of the core at hall 3, row 5, column 7 (chapter 0), and where an address in it lies. -/
theorem test_window_base : coreBase ⟨3, 5, 7⟩ = 0xA000D5C00000 ∧ place 0xA000D5C00040 = .core ⟨3, 5, 7⟩ 0x40 := by decide

/-- A host write of BUDGET_W stores the nearest value of 600 to 3,200 (chapter 0). -/
theorem test_budget_clamp : (after (exec (.registerWrite .host (BitVec.ofNat 48 rEbcBudget) true 4000) (w []))).fget rEbcBudget fEbcBudgetBudgetW = 3200 ∧
    (after (exec (.registerWrite .host (BitVec.ofNat 48 rEbcBudget) true 250) (w []))).fget rEbcBudget fEbcBudgetBudgetW = 600 ∧
    (after (exec (.registerWrite .host (BitVec.ofNat 48 rEbcBudget) true 2750) (w []))).fget rEbcBudget fEbcBudgetBudgetW = 2750 := by decide +kernel

/-- Estimates of 3,020, 2,590, 2,330 and 1,880 W with three engines of 22 W, decode from 3 to 8 engines (chapter 1): with a budget of 2,400 W
the step runs at G2 with 6 engines, with 2,650 W at G3 with 5. -/
def wWatts (budget : Nat) : State :=
  { w ((rEbcBudget, Fd.put fEbcBudgetBudgetW 0 budget) :: (rHrShare 0, Fd.put fHrShareMax (Fd.put fHrShareMin 0 3) 8) ::
      (rEbcEng, Fd.put fEbcEngEngInitW 0 22) ::
      [(1, 1814), (2, 2264), (3, 2524), (4, 2954)].map fun g => (rEbcEst 0 (g.1 - 1), Fd.put fEbcEstTUs (Fd.put fEbcEstEMj 0 g.2) 1000)) with
    ctxs := [(0, wCtx)] }

theorem test_gear_selection : (wWatts 2400).select = (2, 6) ∧ (wWatts 2650).select = (3, 5) := by decide +kernel

/-- A group of MXFP8 E4M3 (chapter 5): 60.0, 37.5, -3.3125 and 0.01, the rest zero; scale 0x7C. -/
theorem test_mx_group : let g := encMx 6 ([0x42700000, 0x42160000, 0xC0540000, 0x3C23D70A].map f32 ++ List.replicate 28 (f32 0))
    g.1 = 0x7C ∧ g.2.take 5 = [0x7E, 0x79, 0xDD, 0x1A, 0] := by decide +kernel

/-- The entry address and the stack of the first block of chapter 9's tile: context 2, PA 0x2_4688_2000. -/
theorem test_translation : pteAddr 2 0x40082000 = 0xEE00801000 ∧ stackOf 0x246882000 = 3 ∧ stackHall 3 = 2 ∧ stackOf (0x246882000 + 0x40000) = 0 := by decide

/-- Excluded rows 3 and 7 of a column (chapter 8): row 3 is bypassed and logical row 6 is the one hole. -/
theorem test_column_map : bypassOf 0x88 = 3 ∧ colHoles 0x88 = [6] := by decide

/-- The GOPs of chapter 14: I0 P3 B1 B2 P6 B4 B5 P9 B7 B8 I12 B10 B11 P15 B13 B14 P18 B16 B17 in decode order, 40 ms apart in display order. TIME on frame 5,
STRIDE 4 and NFRAMES 4 name frames 5, 9, 13 and 17; the chain is I0 P3 P6 B5 P9 I12 P15 B13 P18 B17. -/
def gopPics : List (PicType × Nat) := [(.i, 0), (.p, 3), (.b, 1), (.b, 2), (.p, 6), (.b, 4), (.b, 5), (.p, 9), (.b, 7), (.b, 8), (.i, 12), (.b, 10), (.b, 11),
  (.p, 15), (.b, 13), (.b, 14), (.p, 18), (.b, 16), (.b, 17)]

def gopIx : ClipIx := ⟨false, none, false, .mpeg2, [], ⟨zeros 19, gopPics.zipIdx.map fun x => ⟨x.2, 1, some (3600 * x.1.2), none⟩, [(0, 19, 0)], []⟩,
  ⟨[], gopPics.zipIdx.map fun x => ⟨x.2, 1, 0, 0, x.1.2, x.1.1, .frame, .none, x.1.1 == .i, false, false, none, false, false, x.1.1 != .b, [], none, true⟩⟩,
  false, .layer2, [], esNone, ⟨false, 0, 0, []⟩⟩

theorem test_gop_chain : targetsOf (displayOrder (framesOf gopIx)) 18000 4 4 = .ok [5, 9, 13, 17] ∧
    chainOf gopIx (displayOrder (framesOf gopIx)) [5, 9, 13, 17] = .ok [0, 1, 4, 6, 7, 10, 13, 14, 16, 18] := by decide +kernel

/-- The WRITE of chapter 16 that maps a page: session 3, SEQ 0x104, WIN 0 and PA 0xEE_0080_1000, and the entry as its payload. -/
theorem test_thp_write : thpParse [0x01, 0x11, 0, 0, 3, 0, 0, 0, 4, 1, 0, 0, 0, 0, 8, 0, 0, 0x10, 0x80, 0, 0xEE, 0, 0, 0, 0, 0, 0, 0, 0, 0, 0, 0,
    0, 0, 0x80, 0x46, 2, 0, 0, 0xE0] =
    some ⟨0x11, false, false, 3, 0x104, 0, 0xEE00801000, 0, natBytes 8 0xE000000246800000⟩ := by decide +kernel

/-- S1 is negative: LTZ holds, GEZ does not; ALWAYS reads no register. -/
theorem test_w_BranchesAndCalls : Ready wArith c0 ∧ (wArith.sreg c0 1).toInt < 0 ∧ ¬ 0 ≤ (wArith.sreg c0 1).toInt ∧ (wArith.sreg c0 0) = 0 :=
  ⟨⟨by decide, by decide⟩, by decide, by decide, by decide⟩

/-- A step of the reset state with a command in front answers a next state. -/
theorem test_w_StepsKeepCanonicalForms : Memory.wf State.reset.mem = true ∧ ∃ t, step { State.reset with pending := [.powerOn] } = .next t :=
  ⟨by decide, _, rfl⟩

end Sys2Proof.Tests
end

/-! A fault of a core reaches every core of its context, and a head bundle from outside CODE_RANGE raises one (R53, R67). -/

namespace Sys2Proof.Machine

/-! ### What an update of one core leaves of every core -/

/-- What an update of one core leaves of that core, it leaves of every core. -/
theorem core_setCore_keeps {β : Type} (φ : CoreS → β) (s : State) (c d : CoreId) (v : CoreS) (h : φ v = φ (s.core c)) :
    φ ((s.setCore c v).core d) = φ (s.core d) := by
  by_cases hd : d = c
  · rw [hd, core_setCore_same, h]
  · rw [core_setCore_other s v hd]

theorem core_modCore_keeps {β : Type} (φ : CoreS → β) (s : State) (c d : CoreId) (f : CoreS → CoreS) (h : φ (f (s.core c)) = φ (s.core c)) :
    φ ((s.modCore c f).core d) = φ (s.core d) := core_setCore_keeps φ s c d _ h

theorem core_askStop_keeps {β : Type} (φ : CoreS → β) (h : ∀ x k, φ { x with stopCause := k } = φ x) (s : State) (c d : CoreId)
    (k : StopCause) : φ ((s.askStop c k).core d) = φ (s.core d) := by
  refine core_setCore_keeps φ s c d _ ?_
  dsimp only
  split
  · exact h _ _
  · rfl

/-! ### Which cores a context has

The stop of R67 goes to the cores on which the context is present once the record is written, which may have begun a dump. Nothing before the
stop changes which cores these are. -/

/-- What decides which cores a context has, and the issue queue of every core. -/
def State.placing (s : State) : (CoreId → CtxId) × (Nat → List CoreId) × (CoreId → Bool × List BundleS) :=
  (s.coreCtx, s.ctxCores, fun d => ((s.core d).present, (s.core d).queue))

theorem activeCores_congr {s t : State} (h : t.placing = s.placing) (k : Nat) : t.activeCores k = s.activeCores k := by
  have hctx : t.coreCtx = s.coreCtx := congrArg Prod.fst h
  have hcores : t.ctxCores = s.ctxCores := congrArg (fun p => p.2.1) h
  have hp : ∀ d, (t.core d).present = (s.core d).present := fun d => congrArg (fun p => (p.2.2 d).1) h
  simp only [State.activeCores, hp, hctx, hcores]

theorem queue_congr {s t : State} (h : t.placing = s.placing) (d : CoreId) : (t.core d).queue = (s.core d).queue :=
  congrArg (fun p => (p.2.2 d).2) h

theorem placing_setCore (s : State) (c : CoreId) (v : CoreS) (hp : v.present = (s.core c).present) (hq : v.queue = (s.core c).queue) :
    (s.setCore c v).placing = s.placing := by
  have h := fun d => core_setCore_keeps (fun x => (x.present, x.queue)) s c d v (Prod.ext hp hq)
  exact congrArg (fun g => (s.coreCtx, s.ctxCores, g)) (funext h)

theorem placing_askStop (s : State) (c : CoreId) (k : StopCause) : (s.askStop c k).placing = s.placing := by
  have h := fun d => core_askStop_keeps (fun x => (x.present, x.queue)) (fun _ _ => rfl) s c d k
  exact congrArg (fun g => (s.coreCtx, s.ctxCores, g)) (funext h)

theorem placing_of_ctxField (s : State) (a : Nat) (v : Word)
    (h : ∀ d, (s.setReg a v).fget (rCoreStatus d) fCoreStatusCtx = s.fget (rCoreStatus d) fCoreStatusCtx) :
    (s.setReg a v).placing = s.placing := by
  have e : (s.setReg a v).coreCtx = s.coreCtx := funext fun d => by simp only [State.coreCtx, h d]
  exact congrArg (fun g => (g, s.ctxCores, fun d => ((s.core d).present, (s.core d).queue))) e

theorem placing_setReg (s : State) (a : Nat) (v : Word) (h : ∀ d, rCoreStatus d ≠ a) : (s.setReg a v).placing = s.placing :=
  placing_of_ctxField s a v fun d => congrArg fCoreStatusCtx.get (reg_setReg_other s v (h d))

/-- A field of CORE_STATUS below CTX decides nothing. -/
theorem placing_fput_status (s : State) (c : CoreId) (f : Fd) (v : Nat) (h1 : f.lo ≤ f.hi) (h2 : f.hi < 32) :
    (s.fput (rCoreStatus c) f v).placing = s.placing := by
  refine placing_of_ctxField s _ _ fun d => ?_
  by_cases hd : rCoreStatus d = rCoreStatus c
  · rw [State.fget, hd, reg_setReg_same, Fd.get_put_above f _ _ _ h1 h2 (by decide) (by decide), State.fget]
  · rw [State.fget, reg_setReg_other s _ hd, State.fget]

/-- A register of a core's window other than CORE_STATUS decides nothing. -/
theorem placing_setReg_window (s : State) (c : CoreId) (o : Nat) (v : Word) (ho : o < 2 ^ 22) (h : 0x200010 ≠ o) :
    (s.setReg (coreBase c + o) v).placing = s.placing :=
  placing_setReg s _ v fun _ => core_addr_ne (by decide) ho h

/-- A register of the die decides nothing. -/
theorem placing_setReg_die (s : State) (o : Nat) (v : Word) : (s.setReg (dieSpace + o) v).placing = s.placing :=
  placing_setReg s _ v fun d => by
    have := d.hall.isLt; have := d.row.isLt; have := d.col.isLt
    unfold rCoreStatus coreBase coreSpace dieSpace
    omega

theorem placing_modCtx (s : State) (k : Nat) (f : CtxS → CtxS) (h : (f (s.ctx k)).img = (s.ctx k).img) :
    (s.modCtx k f).placing = s.placing := by
  have e : (s.modCtx k f).ctxCores = s.ctxCores := by
    funext j
    unfold State.ctxCores
    by_cases hj : j = k
    · rw [hj, ctx_modCtx_same, h]
    · rw [ctx_modCtx_other s f hj]
  exact congrArg (fun g => (s.coreCtx, g, fun d => ((s.core d).present, (s.core d).queue))) e

theorem placing_wrHbm (s : State) (pa : Nat) (b : Bytes) : (s.wrHbm pa b).placing = s.placing := by
  unfold State.wrHbm
  rw [wrBytes_eq]
  rfl

/-! ### A fault leaves which cores a context has, and every issue queue -/

theorem placing_settle (s : State) (c : CoreId) : (s.settle c).placing = s.placing := by
  unfold State.settle
  extract_lets n s1
  have h1 : s1.placing = s.placing := placing_setCore s c _ rfl rfl
  split
  · rfl
  · split
    · exact h1
    · calc _ = _ := placing_setReg_window _ c 0x300290 _ (by decide) (by decide)
        _ = _ := placing_setReg_window _ c 0x300288 _ (by decide) (by decide)
        _ = _ := placing_setReg_window _ c 0x300280 _ (by decide) (by decide)
        _ = s1.placing := placing_setReg_window _ c 0x300010 _ (by decide) (by decide)
        _ = s.placing := h1

theorem placing_dumpStart (s : State) (tr : Nat) (k : Option CtxId) (q : Bool) : (s.dumpStart tr k q).placing = s.placing := by
  have hset : ∀ (t : State) (c : CoreId), ((t.settle c).fput (rCntCtl c) fCntCtlFreeze 1).placing = t.placing := fun t c =>
    (placing_setReg_window _ c 0x300000 _ (by decide) (by decide)).trans (placing_settle t c)
  have hhalt : ∀ (t : State) (c : CoreId), ((t.fput (rCoreCtl c) fCoreCtlHalt 1).askStop c .halt).placing = t.placing := fun t c =>
    (placing_askStop _ c _).trans (placing_setReg_window t c 0x200008 _ (by decide) (by decide))
  have hdie : ∀ (t : State) (o : Nat) (f : Fd) (v : Nat), (t.fput (dieSpace + o) f v).placing = t.placing := fun t o _ _ =>
    placing_setReg_die t o _
  have hdump : ∀ (t : State) (d : Option DumpS), State.placing { t with dump := d } = t.placing := fun _ _ => rfl
  unfold State.dumpStart rDumpCfg rDumpStatus
  extract_lets s1 scope cores halted d s2 s3 s4
  calc _ = s4.placing := (hdump _ _).trans (placing_wrHbm _ _ _)
    _ = s3.placing := hdie _ _ _ _
    _ = s2.placing := foldl_same State.placing _ hhalt _ _
    _ = s1.placing := foldl_same State.placing _ hset _ _
    _ = s.placing := by rw [hdie, hdie, hdie]

theorem placing_emit (s : State) (r : EvRec) : (s.emit r).placing = s.placing := rfl

theorem placing_emitFault (s : State) (k : CtxId) (r : EvRec) : (s.emitFault k r).placing = s.placing := by
  unfold State.emitFault State.emitTrig
  split
  · exact placing_emit _ _
  · split
    · exact placing_emit _ _
    · split
      · exact (placing_dumpStart _ _ _ _).trans (placing_emit _ _)
      · exact (placing_emit _ _).trans (placing_emit _ _)

theorem placing_bellFrom (s : State) (c : CoreId) (hdr : BitVec 32) (pay : List (BitVec 32)) : (s.bellFrom c hdr pay).placing = s.placing :=
  placing_setReg_window (s.bellAt _ _ _ _ _) c 0x221010 _ (by decide) (by decide)

theorem placing_stopCtx (s : State) (k code : Nat) : (s.stopCtx k code).placing = s.placing := by
  have hmark : ∀ (t : State) (c : CoreId), ((t.fput (rCoreStatus c) fCoreStatusFaulted 1).askStop c (.fault code)).placing = t.placing :=
    fun t c => (placing_askStop _ c _).trans (placing_fput_status t c _ _ (by decide) (by decide))
  exact (foldl_same State.placing _ hmark _ _).trans (placing_modCtx s k _ rfl)

/-- A fault of a core ends with the stop of its context, in a state (record written, code shown, message sent) whose contexts have the cores they had. -/
theorem faultCore_eq_stopCtx (s : State) (c : CoreId) (r : EvRec) :
    ∃ t : State, t.placing = s.placing ∧ s.faultCore c r = t.stopCtx (s.coreCtx c).val r.code :=
  ⟨_, (placing_bellFrom _ _ _ _).trans ((placing_fput_status _ c _ _ (by decide) (by decide)).trans (placing_emitFault s _ r)), rfl⟩

theorem placing_faultCore (s : State) (c : CoreId) (r : EvRec) : (s.faultCore c r).placing = s.placing := by
  obtain ⟨t, ht, e⟩ := faultCore_eq_stopCtx s c r
  rw [e, placing_stopCtx, ht]

/-! ### The stop of a context reaches each of its cores (R67) -/

/-- What the stop of a context does to one of its cores. -/
def State.markFaulted (code : Nat) (s : State) (c : CoreId) : State :=
  (s.fput (rCoreStatus c) fCoreStatusFaulted 1).askStop c (.fault code)

theorem stopCtx_eq (s : State) (k code : Nat) : s.stopCtx k code =
    (s.activeCores k).foldl (State.markFaulted code) (s.modCtx k fun x => { x with cause := if x.cause = 0 then code else x.cause }) := rfl

/-- The core has FAULTED = 1 and is asked to stop. -/
def State.isMarked (s : State) (d : CoreId) : Prop :=
  s.flag (rCoreStatus d) fCoreStatusFaulted = true ∧ (s.core d).stopCause ≠ none

theorem faulted_fput_same (s : State) (a : Nat) : (s.fput a fCoreStatusFaulted 1).flag a fCoreStatusFaulted = true := by
  rw [State.flag, fget_fput_same _ _ _ _ (by decide) (by decide)]
  rfl

theorem isMarked_markFaulted_same (s : State) (c : CoreId) (code : Nat) : (s.markFaulted code c).isMarked c := by
  unfold State.isMarked State.markFaulted
  rw [askStop_flag, State.askStop, core_modCore_same]
  refine ⟨faulted_fput_same s _, ?_⟩
  split
  · exact Option.some_ne_none _
  · next h => rw [h]; exact Option.some_ne_none _

/-- Marking another core leaves a marked core marked. -/
theorem isMarked_markFaulted_other (s : State) {c d : CoreId} (code : Nat) (hd : d ≠ c) (h : s.isMarked d) :
    (s.markFaulted code c).isMarked d := by
  obtain ⟨hflag, hstop⟩ := h
  unfold State.isMarked State.markFaulted
  rw [askStop_flag, State.askStop, core_modCore_other _ _ hd, fput_core]
  refine ⟨?_, hstop⟩
  by_cases ha : rCoreStatus d = rCoreStatus c
  · rw [ha]; exact faulted_fput_same s _
  · rw [State.flag, fget_fput_other s _ _ _ ha]; exact hflag

theorem isMarked_foldl (code : Nat) (d : CoreId) (l : List CoreId) :
    ∀ s : State, s.isMarked d ∨ d ∈ l → (l.foldl (State.markFaulted code) s).isMarked d := by
  induction l with
  | nil => exact fun s h => h.resolve_right List.not_mem_nil
  | cons c l ih =>
    intro s h
    rw [List.foldl_cons]
    refine ih _ ?_
    by_cases hd : d = c
    · subst hd; exact .inl (isMarked_markFaulted_same s d code)
    · exact h.imp (isMarked_markFaulted_other s code hd) fun hm => (List.mem_cons.1 hm).resolve_left hd

theorem isMarked_stopCtx (s : State) (k code : Nat) {d : CoreId} (h : d ∈ s.activeCores k) : (s.stopCtx k code).isMarked d := by
  rw [stopCtx_eq]
  exact isMarked_foldl code d _ _ (.inr h)

/-- A fault of a core stops every core of its context. -/
theorem isMarked_faultCore (s : State) (c : CoreId) (r : EvRec) {d : CoreId} (h : d ∈ s.activeCores (s.coreCtx c).val) :
    (s.faultCore c r).isMarked d := by
  obtain ⟨t, ht, e⟩ := faultCore_eq_stopCtx s c r
  rw [e]
  exact isMarked_stopCtx t _ _ (by rwa [activeCores_congr ht])

/-! ### PC under a fault -/

theorem not_faultReg_rPc (c : CoreId) : ¬ FaultReg (rPc c) := by
  have ne (d : CoreId) (p : Nat) (hp : p < 2 ^ 22) (h : 0x200020 ≠ p) : rPc c ≠ coreBase d + p := core_addr_ne (by decide) hp h
  have := c.hall.isLt; have := c.row.isLt; have := c.col.isLt
  rintro (h | h | ⟨d, h | h | h | h | h | h | h | h⟩)
  · unfold rPc rDumpCfg coreBase coreSpace dieSpace at h; omega
  · unfold rPc rDumpStatus coreBase coreSpace dieSpace at h; omega
  all_goals exact ne d _ (by decide) (by decide) h

/-- A fault of a core leaves PC of every core. -/
theorem pc_faultCore (s : State) (c d : CoreId) (r : EvRec) : (s.faultCore c r).pc d = s.pc d :=
  congrArg fPcBundle.get (reg_faultCore_other s c r (not_faultReg_rPc d))

/-! ### Fetch and the head bundle -/

/-- A fetch does nothing, or changes the fetching core's queue, fetch index and fetched mark alone. -/
theorem fetch_cases (s : State) (c : CoreId) : s.fetch c = s ∨ ∃ q i,
    s.fetch c = s.setCore c { s.core c with queue := q, fetchIdx := i, fetched := true } := by
  unfold State.fetch
  extract_lets x
  split
  · exact .inr ⟨_, _, rfl⟩
  · exact .inl rfl

/-- The head bundle of a core that can issue and meets a fault raises it, and the cc is charged to index 2. -/
theorem tryIssue_faults {s : State} {c : CoreId} {b : BundleS} {q : List BundleS} {r : EvRec} (hr : Ready s c)
    (ha : (s.core c).attempt = none) (hb : (s.core c).bubble = 0) (hq : (s.core c).queue = b :: q) (hf : s.headCheck c b = .error r) :
    s.tryIssue c = (s.faultCore c r).stall c 2 false := by
  obtain ⟨hi, hrestart⟩ := hr
  simp only [State.canIssue, Bool.and_eq_true, Option.isNone_iff_eq_none, beq_iff_eq, Bool.not_eq_true'] at hi
  obtain ⟨⟨⟨hrun, hstop⟩, hmarker⟩, hwait⟩ := hi
  have hw : s.coreWaits c = [] := by simp [State.coreWaits, hwait, hmarker]
  simp [State.tryIssue, hrun, ha, hstop, hrestart, hw, hb, hq, hf]

theorem headCheck_outOfRange {s : State} {c : CoreId} {b : BundleS} (h : s.inRange c b.idx.toNat = false) :
    s.headCheck c b = .error (coreRec c 0x1008 (s.p1 c) (s.pc c)) := by
  simp [State.headCheck, h]

theorem inRange_eq_false {s : State} {c : CoreId} {i : Nat}
    (h : i / 4 < s.fget (rCodeRange c) fCodeRangeBaseLine ∨ s.fget (rCodeRange c) fCodeRangeLimitLine < i / 4) : s.inRange c i = false := by
  simp only [State.inRange, Bool.and_eq_false_iff, decide_eq_false_iff_not, Nat.not_le]
  exact h

theorem stopCause_stall (s : State) (c d : CoreId) (i : Nat) (w : Bool) : ((s.stall c i w).core d).stopCause = (s.core d).stopCause :=
  core_modCore_keeps CoreS.stopCause s c d _ rfl

theorem queue_stall (s : State) (c d : CoreId) (i : Nat) (w : Bool) : ((s.stall c i w).core d).queue = (s.core d).queue :=
  core_modCore_keeps CoreS.queue s c d _ rfl

theorem isMarked_stall {s : State} {d : CoreId} (c : CoreId) (i : Nat) (w : Bool) (h : s.isMarked d) :
    (s.stall c i w).isMarked d :=
  ⟨h.1, fun e => h.2 ((stopCause_stall s c d i w).symm.trans e)⟩

/-- BUNDLE_FETCH raises nothing (R53). -/
theorem bundleFetch_raises_nothing (s : State) (c : CoreId) : Runs (.bundleFetch c) s fun t =>
    SameRegs s t ∧ SameMem s t ∧ t.log = s.log ∧ ∀ d, (t.core d).stopCause = (s.core d).stopCause := by
  refine ⟨s.fetch c, rfl, ?_⟩
  rcases fetch_cases s c with e | ⟨q, i, e⟩ <;> rw [e]
  · exact ⟨fun _ => rfl, fun _ => rfl, rfl, fun _ => rfl⟩
  · exact ⟨setCore_reg s c _, setCore_rdB s c _, setCore_log s c _, fun d => core_setCore_keeps CoreS.stopCause s c d _ rfl⟩

/-- Settles O31: the fault of the head bundle is the one branch of the attempt that is left, and a fault of a core reaches every core of its
context because no part of it changes which cores these are. -/
theorem fetchRangeFaults : Obligations.FetchRangeFaults := by
  intro s c
  refine ⟨bundleFetch_raises_nothing s c, fun b q hr ha hb hq hout => ?_⟩
  set r := coreRec c 0x1008 (s.p1 c) (s.pc c)
  refine ⟨(s.faultCore c r).stall c 2 false, ?_, ?_, ?_, ?_, fun d hd => ?_⟩
  · exact congrArg _ (tryIssue_faults hr ha hb hq (headCheck_outOfRange (inRange_eq_false hout)))
  · exact fault_faultCore s c r (show 0x1008 < 2 ^ 16 by decide)
  · exact pc_faultCore s c c r
  · rw [queue_stall, queue_congr (placing_faultCore s c r), hq]
  · exact isMarked_stall c 2 false (isMarked_faultCore s c r hd)

end Sys2Proof.Machine

/-! An addition of 0 to a counter is seen nowhere, and with it an MBIND of no rows (R38, R142). -/

namespace Sys2Proof.Machine

/-! ### A field written with the value it holds -/

/-- A register whose field is put to the value it has does not change. -/
theorem Fd.put_get (f : Fd) (w : Word) : f.put w (f.get w) = w := by
  have hsize : f.get w % f.size = f.get w := Nat.mod_mod _ _
  have hle : f.get w * 2 ^ f.lo ≤ w.toNat :=
    (Nat.mul_le_mul_right _ (Nat.mod_le _ _)).trans (Nat.div_mul_le_self _ _)
  rw [Fd.put, hsize, Nat.sub_add_cancel hle, BitVec.ofNat_toNat, BitVec.setWidth_eq]

theorem sameRegs_fput_fget (s : State) (a : Nat) (f : Fd) : SameRegs s (s.fput a f (s.fget a f)) := by
  intro b
  by_cases hb : b = a
  · rw [hb, reg_fput_same, State.fget, Fd.put_get]
  · exact reg_fput_other s f _ hb

/-! ### Nothing posted to a counter (R217) -/

theorem scValue_lt (s : State) (c : CoreId) (k : Nat) : s.fget (rSc c k) fScValue < 2 ^ 32 :=
  Nat.mod_lt _ (by decide)

theorem sat32_natCast {n : Nat} (h : n < 2 ^ 32) : sat32 n = n := by
  unfold sat32; split_ifs <;> omega

theorem satOut_natCast {n : Nat} (h : n < 2 ^ 32) : satOut n = false := by
  simp only [satOut, Bool.or_eq_false_iff, decide_eq_false_iff_not]
  omega

/-- An addition within the range stores the sum, and its only other effect is on the core's waiting. -/
theorem scAdd_inRange {s : State} {c : CoreId} {k : Nat} {d : Int} (h : satOut ((s.fget (rSc c k) fScValue : Int) + d) = false) :
    s.scAdd c k d = (s.fput (rSc c k) fScValue (sat32 ((s.fget (rSc c k) fScValue : Int) + d))).modCore c CoreS.ungate := by
  simp [State.scAdd, h]

theorem sameRegs_scAdd_zero (s : State) (c : CoreId) (k : Nat) : SameRegs s (s.scAdd c k 0) := by
  intro a
  have hv := scValue_lt s c k
  rw [scAdd_inRange (by rw [Int.add_zero]; exact satOut_natCast hv), Int.add_zero, sat32_natCast hv, modCore_reg]
  exact sameRegs_fput_fget s _ _ a

theorem sameRegs_ctPost_zero (s : State) (c : CoreId) (ct : Nat) : SameRegs s (s.ctPost c ct 0) := by
  unfold State.ctPost
  split
  · exact sameRegs_scAdd_zero s c ct
  · exact fun _ => rfl

/-! ### MBIND of no rows -/

/-- How many bindings a flow has is a matter of registers. -/
theorem bindings_of_sameRegs {s t : State} (h : SameRegs s t) (c : CoreId) (f : Nat) : t.bindings c f = s.bindings c f := by
  have hflag : ∀ a fd, t.flag a fd = s.flag a fd := fun a fd => by rw [State.flag, State.fget, h a, State.flag, State.fget]
  simp only [State.bindings, hflag]

/-- Settles O24: with no rows there is no range to fault and no binding to open; what is left is the post of 0, which no register shows. -/
theorem emptyBindingsPostZero : Obligations.EmptyBindingsPostZero := by
  intro s c flow ct sb ss sn hr hct hn
  have hrows : s.bindRows c sn = 0 := hn
  refine runs_acts rfl hr hct (by simp [State.mbindFault, storeOk, hrows]) ?_
  have heff : effMbind s c flow ct sb ss sn s = s.ctPost c ct.toNat 0 := if_pos hrows
  rw [if_neg fun h => h.1 hrows, heff]
  have hregs : SameRegs s ((s.ctPost c ct.toNat 0).stepped c) := fun a =>
    (stepped_reg _ c a).trans (sameRegs_ctPost_zero s c _ a)
  exact ⟨bindings_of_sameRegs hregs c _, hregs, fun a => (stepped_rdB _ c a).trans (ctPost_rdB s c _ _ a)⟩

end Sys2Proof.Machine

/-! What GPOST, GWAIT and GWATCH put on the bell wire and write, and when they wait (R146, R147, R179, R182). -/

namespace Sys2Proof.Machine

/-! ### A request to the semaphore unit (R147, R179) -/

/-- A core's request of a type for the semaphore that `w` names, as it stands on the bell wire: on its way to the link router of SYNC_RT for another
device's semaphore, else to the front die. -/
def State.semRequest (s : State) (c : CoreId) (type : Nat) (w : Word) (p0 p1 : BitVec 32) : BellMsg :=
  let k := (s.coreCtx c).val
  if s.semRemote w then ⟨bellHdr type k 3 true (s.fget (rSyncRt c) fSyncRtHall) 14 (s.fget (rSyncRt c) fSyncRtRouter) c.pos,
    [BitVec.ofNat 32 (w.toNat / 2 ^ 24 % 2 ^ 24), p0, p1], gx c, gy c, 4, false⟩
  else ⟨bellHdr type k 2 false 0 15 15 c.pos, [p0, p1], gx c, gy c, 4, false⟩

theorem bellFrom_bell (s : State) (c : CoreId) (hdr : BitVec 32) (pay : List (BitVec 32)) :
    (s.bellFrom c hdr pay).bell = s.bell ++ [⟨hdr, pay, gx c, gy c, 4, false⟩] := rfl

theorem regsBut_bellFrom (s : State) (c : CoreId) (hdr : BitVec 32) (pay : List (BitVec 32)) :
    RegsBut (· = rBellSentCnt c) s (s.bellFrom c hdr pay) := fun _ h => reg_count_other _ _ h

theorem semSend_bell (s : State) (c : CoreId) (type : Nat) (w : Word) (p0 p1 : BitVec 32) :
    (s.semSend c type w p0 p1).bell = s.bell ++ [s.semRequest c type w p0 p1] := by
  unfold State.semSend State.semRequest
  dsimp only
  split <;> exact bellFrom_bell s c _ _

theorem regsBut_semSend (s : State) (c : CoreId) (type : Nat) (w : Word) (p0 p1 : BitVec 32) :
    RegsBut (· = rBellSentCnt c) s (s.semSend c type w p0 p1) := by
  unfold State.semSend
  dsimp only
  split <;> exact regsBut_bellFrom s c _ _

/-! ### The value of a request (R146) -/

/-- Reading a number's low bits as signed does not change them. -/
theorem ofInt_sextNat (n v : Nat) : BitVec.ofInt n (sextNat n v) = BitVec.ofNat n v := by
  apply BitVec.eq_of_toNat_eq
  unfold sextNat
  rw [BitVec.toNat_ofInt, BitVec.toNat_ofNat]
  split
  · have hcast : (v : Int) % 2 ^ n = (v % 2 ^ n : Nat) := by push_cast; rfl
    rw [hcast, ← Int.natCast_mod, Nat.mod_mod]; rfl
  · rw [Int.sub_emod_right, ← Int.natCast_mod, Nat.mod_mod]; rfl

theorem ofNat_synVal (s : State) (c : CoreId) (isReg : Bool) (imm : BitVec 16) :
    BitVec.ofNat 32 (s.synVal c isReg imm) = if isReg then (s.sreg c (imm.setWidth 5)).setWidth 32 else imm.setWidth 32 := by
  cases isReg
  · exact BitVec.ofNat_toNat 32 imm
  · apply BitVec.eq_of_toNat_eq
    simp [State.synVal]

theorem ofInt_synInt (s : State) (c : CoreId) (isReg : Bool) (imm : BitVec 16) :
    BitVec.ofInt 32 (s.synInt c isReg imm) = if isReg then (s.sreg c (imm.setWidth 5)).setWidth 32 else imm.signExtend 32 := by
  cases isReg
  · rfl
  · exact (ofInt_sextNat 32 _).trans (ofNat_synVal s c true imm)

theorem semVsem_eq (w : Word) : semVsem w = w.toNat % 2 ^ 14 := by
  simp [semVsem, bitsN]

theorem bton_mul (b : Bool) (n : Nat) : bton b * n = if b then n else 0 := by
  cases b <;> simp [bton]

/-! ### The rows -/

/-- A row whose effect is to wait leaves registers, the bell wire and memory. -/
theorem runs_waits {s : State} {c : CoreId} {i : Instr} {fault : State → Option EvRec} {eff : State → State}
    (hx : exec i s = .next (s.issueOne c i fault eff)) (hr : Ready s c) (hw : i.wf = true) (hf : fault s = none) (he : eff s = s) :
    Runs i s fun t => SameRegs s t ∧ t.bell = s.bell ∧ SameMem s t :=
  runs_acts hx hr hw hf (by rw [he]; exact ⟨stepped_reg s c, stepped_bell s c, stepped_rdB s c⟩)

theorem runs_gpost {s : State} {c : CoreId} (hr : Ready s c) (hfree : s.bellFull c = false) (sa : BitVec 5) {mode : BitVec 2}
    {imm : BitVec 16} (hw : (Instr.gpost c sa mode imm).wf = true) : Runs (.gpost c sa mode imm) s fun t =>
      t.bell = s.bell ++ [s.semRequest c 1 (s.sreg c sa) (BitVec.ofNat 32 ((s.sreg c sa).toNat % 2 ^ 14))
        (if mode == 2 then (s.sreg c (imm.setWidth 5)).setWidth 32 else imm.signExtend 32)] ∧
      RegsBut (· = rBellSentCnt c) s t ∧ SameMem s t := by
  refine runs_acts rfl hr hw rfl ?_
  rw [if_neg (by simp [hfree]), effGpost]
  refine ⟨?_, fun a ha => ?_, fun a => ?_⟩
  · rw [stepped_bell, semSend_bell, semVsem_eq, ofInt_synInt]
  · rw [stepped_reg, regsBut_semSend s c _ _ _ _ a ha]
  · rw [stepped_rdB, semSend_rdB]

theorem gwaitFault_local {s : State} {c : CoreId} {sa : BitVec 5} (h : (s.sreg c sa).getLsbD 63 = false) : s.gwaitFault c sa = none :=
  if_neg (Bool.eq_false_iff.1 h)

theorem canIssue_of_gwaitPend {s : State} {c : CoreId} (h : s.flag (rSyncStatus c) fSyncStatusGwaitPend = true) :
    s.canIssue c = false := by
  simp [State.canIssue, h]

theorem runs_gwait {s : State} {c : CoreId} (hr : Ready s c) (hfree : s.bellFull c = false) {sa : BitVec 5} {mode : BitVec 2}
    (consume : Bool) {imm : BitVec 16} (hlocal : (s.sreg c sa).getLsbD 63 = false) (hw : immOk (mode.getLsbD 0) imm = true) :
    Runs (.gwait c sa mode consume imm) s fun t =>
      t.bell = s.bell ++ [s.semRequest c 2 (s.sreg c sa)
        (BitVec.ofNat 32 (mode.toNat * 2 ^ 30 + (if consume then 2 ^ 29 else 0) + (s.sreg c sa).toNat % 2 ^ 14))
        (if mode.getLsbD 0 then (s.sreg c (imm.setWidth 5)).setWidth 32 else imm.setWidth 32)] ∧
      t.flag (rSyncStatus c) fSyncStatusGwaitPend = true ∧ t.canIssue c = false ∧
      RegsBut (fun a => a = rBellSentCnt c ∨ a = rSyncStatus c) s t ∧ SameMem s t := by
  refine runs_acts rfl hr hw (gwaitFault_local hlocal) ?_
  rw [if_neg (by simp [hfree]), effGwait]
  have hpend : ∀ t : State, (t.fput (rSyncStatus c) fSyncStatusGwaitPend 1).flag (rSyncStatus c) fSyncStatusGwaitPend = true := fun t => by
    rw [State.flag, fget_fput_same _ _ _ _ (by decide) (by decide)]; rfl
  refine ⟨?_, ?_, canIssue_of_gwaitPend ?_, fun a ha => ?_, fun a => ?_⟩
  · rw [stepped_bell, modCore_bell, fput_bell, semSend_bell, semVsem_eq, bton_mul, ofNat_synVal]
  · rw [stepped_flag, modCore_flag, hpend]
  · rw [stepped_flag, modCore_flag, hpend]
  · obtain ⟨hsent, hstatus⟩ := not_or.1 ha
    rw [stepped_reg, modCore_reg, reg_fput_other _ _ _ hstatus, regsBut_semSend s c _ _ _ _ a hsent]
  · rw [stepped_rdB, modCore_rdB, fput_rdB, semSend_rdB]

/-- GWAIT on another device's semaphore (R147). -/
theorem runs_gwait_remote {s : State} {c : CoreId} (hr : Ready s c) {sa : BitVec 5} {mode : BitVec 2} (consume : Bool)
    {imm : BitVec 16} (hremote : (s.sreg c sa).getLsbD 63 = true) (hw : immOk (mode.getLsbD 0) imm = true) :
    Runs (.gwait c sa mode consume imm) s fun t => t.fget (rCoreStatus c) fCoreStatusFault = 0x100B :=
  runs_faults rfl hr hw (if_pos hremote) (fault_faultCore s c (s.illegal c) (show 0x100B < 2 ^ 16 by decide))

theorem runs_gwatch {s : State} {c : CoreId} (hr : Ready s c) (hfree : s.bellFull c = false)
    (hroom : s.fget (rSyncStatus c) fSyncStatusWatches < 8) (sa sv : BitVec 5) {sc : BitVec 6} {cond : BitVec 2}
    (hw : (Instr.gwatch c sa sv sc cond).wf = true) : Runs (.gwatch c sa sv sc cond) s fun t =>
      t.bell = s.bell ++ [s.semRequest c 3 (s.sreg c sa)
        (BitVec.ofNat 32 (cond.toNat * 2 ^ 30 + sc.toNat * 2 ^ 14 + (s.sreg c sa).toNat % 2 ^ 14)) ((s.sreg c sv).setWidth 32)] ∧
      t.fget (rSyncStatus c) fSyncStatusWatches = s.fget (rSyncStatus c) fSyncStatusWatches + 1 ∧
      RegsBut (fun a => a = rBellSentCnt c ∨ a = rSyncStatus c) s t ∧ SameMem s t := by
  refine runs_acts rfl hr hw rfl ?_
  rw [if_neg (by simp [hfree, hroom]), effGwatch]
  refine ⟨?_, ?_, fun a ha => ?_, fun a => ?_⟩
  · rw [stepped_bell, fput_bell, semSend_bell, semVsem_eq, lo32]
  · rw [stepped_fget, fget_fput_same _ _ _ _ (by decide) (by decide)]
    exact Nat.mod_eq_of_lt (show _ < 16 by omega)
  · obtain ⟨hsent, hstatus⟩ := not_or.1 ha
    rw [stepped_reg, reg_fput_other _ _ _ hstatus, regsBut_semSend s c _ _ _ _ a hsent]
  · rw [stepped_rdB, fput_rdB, semSend_rdB]

/-! ### The encodings that the rows assume -/

theorem immOk_of_lt {isReg : Bool} {imm : BitVec 16} (h : isReg = true → imm.toNat < 32) : immOk isReg imm = true := by
  cases isReg
  · rfl
  · exact decide_eq_true (h rfl)

/-- Settles O16: each row by what its request is, and by its wait where the queue or the watches leave no room. -/
theorem semaphoreRequests : Obligations.SemaphoreRequests := by
  intro s c sa sv mode cond consume sc imm hr hsc hcond
  have hwatch : (Instr.gwatch c sa sv sc cond).wf = true := by
    simp only [Instr.wf, Bool.and_eq_true, decide_eq_true_eq]; omega
  have hpost : mode = 0 ∨ (mode = 2 ∧ imm.toNat < 32) → (Instr.gpost c sa mode imm).wf = true := by
    rintro (rfl | ⟨rfl, h⟩)
    · rfl
    · exact decide_eq_true h
  refine ⟨fun hm hfree => ?_, fun hm himm hfree => ?_, fun hlocal himm hfree => ?_, fun hremote himm => ?_, fun hroom hfree => ?_,
    fun hfull => ?_, fun hfull hm => ?_, fun hfull hlocal himm => ?_⟩
  · subst hm
    exact runs_gpost hr hfree sa (hpost (.inl rfl))
  · subst hm
    exact runs_gpost hr hfree sa (hpost (.inr ⟨rfl, himm⟩))
  · exact runs_gwait hr hfree consume hlocal (immOk_of_lt himm)
  · exact runs_gwait_remote hr consume hremote (immOk_of_lt himm)
  · exact runs_gwatch hr hfree hroom sa sv hwatch
  · exact runs_waits rfl hr hwatch rfl (if_pos hfull)
  · exact runs_waits rfl hr (hpost hm) rfl (if_pos hfull)
  · exact runs_waits rfl hr (immOk_of_lt himm) (gwaitFault_local hlocal) (if_pos hfull)

end Sys2Proof.Machine

/-! Decoding undoes encoding in every slot of the bundle (R129, R135 to R146). -/

namespace Sys2Proof.Machine

/-! ### Fields of a slot -/

/-- The opcode field of a word reads what stands above the operands. -/
theorem sf_top {op rest k n : Nat} (h : rest < 2 ^ k) (hop : op < 2 ^ (n + 1 - k)) : sf (op * 2 ^ k + rest) n k = op := by
  rw [sf, bitsN, Nat.add_comm, Nat.add_mul_div_right _ _ (by positivity), Nat.div_eq_of_lt h, Nat.zero_add, Nat.mod_eq_of_lt hop]

theorem sf_top_alone {op k n : Nat} (hop : op < 2 ^ (n + 1 - k)) : sf (op * 2 ^ k) n k = op := sf_top (rest := 0) (by positivity) hop

/-- An operand comes back from its field. -/
theorem ofNat_sf_iff {n w hi lo : Nat} {x : BitVec n} (h : w / 2 ^ lo % 2 ^ (hi + 1 - lo) = x.toNat) :
    BitVec.ofNat n (sf w hi lo) = x ↔ True := by
  rw [sf, bitsN, h, BitVec.ofNat_toNat, BitVec.setWidth_eq, eq_self_iff_true]

/-- A flag of an instruction is a number of one bit. -/
theorem bton_eq_toNat (b : Bool) : bton b = (BitVec.ofBool b).toNat := by cases b <;> rfl

theorem bitN_iff {w k : Nat} {b : Bool} (h : w / 2 ^ k % 2 = (BitVec.ofBool b).toNat) : bitN w k = b ↔ True := by
  rw [bitN, h]; cases b <;> decide

/-! ### The slots, instruction by instruction -/

/-- The bits of an instruction fit its slot, and its opcode and its operands read back. -/
def ReadsBack (enc : Instr → Option Nat) (raw : CoreId → Nat → Option Instr) (bits : Nat) : Prop :=
  ∀ (i : Instr) (w : Nat), enc i = some w → w < 2 ^ bits ∧ ∃ c, raw c w = some i

theorem readsBack_ctl : ReadsBack encCtl rawCtl 32 := by
  intro i w h
  cases i <;> simp only [encCtl, bton_eq_toNat, Option.some.injEq, reduceCtorEq] at h
  all_goals
    subst h
    refine ⟨by omega, by assumption, ?_⟩
    simp (disch := omega) only [rawCtl, Nat.add_assoc, sf_top, sf_top_alone]
  all_goals
    refine congrArg some ?_
    congr 1
  all_goals simp (disch := omega) only [ofNat_sf_iff, bitN_iff]

theorem readsBack_scl : ReadsBack encScl rawScl 32 := by
  intro i w h
  cases i <;> simp only [encScl, Option.some.injEq, reduceCtorEq] at h
  all_goals
    subst h
    refine ⟨by omega, by assumption, ?_⟩
    simp (disch := omega) only [rawScl, Nat.add_assoc, sf_top]
  all_goals
    refine congrArg some ?_
    congr 1
  all_goals simp (disch := omega) only [ofNat_sf_iff]

theorem readsBack_mov : ReadsBack encMov rawMov 48 := by
  intro i w h
  cases i <;> simp only [encMov, bton_eq_toNat, Option.some.injEq, reduceCtorEq] at h
  all_goals
    subst h
    refine ⟨by omega, by assumption, ?_⟩
    simp (disch := omega) only [rawMov, Nat.add_assoc, sf_top]
  all_goals
    refine congrArg some ?_
    congr 1
  all_goals simp (disch := omega) only [ofNat_sf_iff, bitN_iff]

theorem readsBack_arr : ReadsBack encArr rawArr 48 := by
  intro i w h
  cases i <;> simp only [encArr, bton_eq_toNat, Option.some.injEq, reduceCtorEq] at h
  all_goals
    subst h
    refine ⟨by omega, by assumption, ?_⟩
    simp (disch := omega) only [rawArr, Nat.add_assoc, sf_top]
  all_goals
    refine congrArg some ?_
    congr 1
  all_goals simp (disch := omega) only [ofNat_sf_iff, bitN_iff]

theorem readsBack_vec : ReadsBack encVec rawVec 48 := by
  intro i w h
  cases i <;> simp only [encVec, Option.some.injEq, reduceCtorEq] at h
  all_goals
    subst h
    refine ⟨by omega, by assumption, ?_⟩
    simp (disch := omega) only [rawVec, Nat.add_assoc, sf_top]
  all_goals
    refine congrArg some ?_
    congr 1
  all_goals simp (disch := omega) only [ofNat_sf_iff]

theorem readsBack_syn : ReadsBack encSyn rawSyn 32 := by
  intro i w h
  cases i <;> simp only [encSyn, bton_eq_toNat, Option.some.injEq, reduceCtorEq] at h
  all_goals
    subst h
    refine ⟨by omega, by assumption, ?_⟩
    simp (disch := omega) only [rawSyn, Nat.add_assoc, sf_top]
  all_goals
    refine congrArg some ?_
    congr 1
  all_goals simp (disch := omega) only [ofNat_sf_iff, bitN_iff]

/-! ### Decoding -/

/-- What a decoder checks of the instruction that it has read holds of one that has assigned encodings and these bits. -/
theorem decodes {enc : Instr → Option Nat} {raw dec : CoreId → Nat → Option Instr} {n : Nat} (hrb : ReadsBack enc raw n)
    (hdec : ∀ c w, dec c w = match raw c w with
      | some i => if i.wf && enc i == some w then some i else none
      | none => none) {i : Instr} {w : Nat} (hw : i.wf = true) (h : enc i = some w) : w < 2 ^ n ∧ ∃ c, dec c w = some i := by
  obtain ⟨hlt, c, hc⟩ := hrb i w h
  exact ⟨hlt, c, by simp [hdec, hc, hw, h]⟩

/-- Settles O5: each slot's fields read back what its encoder put there, and the decoder's checks hold of it. -/
theorem slotDecodingUndoesEncoding : Obligations.SlotDecodingUndoesEncoding := fun _ _ hw =>
  ⟨decodes readsBack_ctl (fun _ _ => rfl) hw, decodes readsBack_scl (fun _ _ => rfl) hw, decodes readsBack_mov (fun _ _ => rfl) hw,
    decodes readsBack_arr (fun _ _ => rfl) hw, decodes readsBack_vec (fun _ _ => rfl) hw, decodes readsBack_syn (fun _ _ => rfl) hw⟩

end Sys2Proof.Machine

/-! Rows of instructions that do not issue (R67, R131, R137, R224), and the worked bundle of chapter 6. -/

namespace Sys2Proof.Machine

/-- Settles O6: the six slots of the bundle decoded. -/
theorem workedBundleDecodes : Obligations.WorkedBundleDecodes := fun _ => rfl

/-! ### The row of an instruction of a slot -/

/-- Every instruction of a slot has the same row: the checks of its issue, its fault and its effect. -/
theorem exec_of_slotCore {i : Instr} {c : CoreId} (h : slotCore i = some c) :
    ∃ fault eff, ∀ s, exec i s = .next (s.issueOne c i fault eff) := by
  cases i <;> simp only [slotCore, Option.some.injEq, reduceCtorEq] at h <;> subst h <;> exact ⟨_, _, fun _ => rfl⟩

/-- A row with a reserved encoding, on a core that can issue, raises ILLEGAL_INSTR. -/
theorem issueOne_reserved {s : State} {c : CoreId} {i : Instr} {fault : State → Option EvRec} {eff : State → State}
    (hc : s.canIssue c = true) (hw : i.wf = false) : s.issueOne c i fault eff = s.faultCore c (s.illegal c) := by
  simp [State.issueOne, hc, hw]

/-- Settles O4: by the one row that all instructions of the slots share. -/
theorem unissuedInstructions : Obligations.UnissuedInstructions := by
  refine ⟨fun i c s hi hw hc => ?_, fun i c s hi hc => ?_⟩ <;> obtain ⟨fault, eff, hx⟩ := exec_of_slotCore hi
  · exact ⟨_, hx s, by rw [issueOne_reserved hc hw]; exact fault_faultCore s c (s.illegal c) (show 0x100B < 2 ^ 16 by decide)⟩
  · rw [hx, issueOne_idle hc]

end Sys2Proof.Machine

/-! The SCL slot: each row writes one register (R138, R139). -/

namespace Sys2Proof.Machine

/-! ### One register written -/

/-- An SCL row that writes the value `w` to S`sd`. -/
theorem runs_scl {s : State} {c : CoreId} {i : Instr} {sd : BitVec 5} {v w : Word} (hr : Ready s c) (hw : i.wf = true)
    (hx : exec i s = .next (s.issueOne c i noFault fun s => effScl s c i s)) (he : effScl s c i s = s.setS c sd v) (hv : v = w) :
    Runs i s (WritesReg (rS c sd.toNat) w s) := runs_writes hx hr hw rfl (he.trans (by rw [hv]; rfl))

theorem flagW_eq {p : Prop} [Decidable p] {b : Bool} (h : b = true ↔ p) : flagW b = if p then 1 else 0 := by
  unfold flagW; simp only [h]

theorem slt_iff (a b : Word) : a.slt b = true ↔ a.toInt < b.toInt := BitVec.slt_iff_toInt_lt

theorem ult_iff (a b : Word) : a.ult b = true ↔ a.toNat < b.toNat := by simp [BitVec.ult]

/-- Settles O7: the value of each form, by the row that all share. -/
theorem scalarRegisterForms : Obligations.ScalarRegisterForms := by
  intro s c sd sa sb hr
  refine ⟨runs_scl hr rfl rfl rfl rfl, runs_scl hr rfl rfl rfl rfl, runs_scl hr rfl rfl rfl rfl, runs_scl hr rfl rfl rfl rfl,
    runs_scl hr rfl rfl rfl rfl, runs_scl hr rfl rfl rfl rfl, runs_scl hr rfl rfl rfl rfl, runs_scl hr rfl rfl rfl rfl,
    runs_scl hr rfl rfl rfl (flagW_eq (slt_iff _ _)), runs_scl hr rfl rfl rfl (flagW_eq (ult_iff _ _)),
    runs_scl hr rfl rfl rfl (flagW_eq beq_iff_eq), runs_scl hr rfl rfl rfl ?_, runs_scl hr rfl rfl rfl ?_,
    runs_scl hr rfl rfl rfl rfl, runs_scl hr rfl rfl rfl rfl, runs_scl hr rfl rfl rfl rfl⟩
  all_goals simp only [slt_iff]

/-! ### A field put, bit by bit -/

/-- The bits of a number in two parts. -/
theorem testBit_parts {n a b : Nat} (h : b < 2 ^ n) (j : Nat) : (a * 2 ^ n + b).testBit j = if j < n then b.testBit j else a.testBit (j - n) := by
  rw [Nat.mul_comm, Nat.testBit_two_pow_mul_add _ h]

theorem Fd.size_pos (f : Fd) : 0 < f.size := by unfold Fd.size; positivity

/-- A put field holds the bits of its value; every other bit stays. -/
theorem Fd.getLsbD_put (f : Fd) (w : Word) (v : Nat) (h1 : f.lo ≤ f.hi) (h2 : f.hi < 64) (j : Nat) :
    (f.put w v).getLsbD j = if f.lo ≤ j ∧ j ≤ f.hi then v.testBit (j - f.lo) else w.getLsbD j := by
  obtain ⟨hi, lo, hlo, e1, e2⟩ := f.put_parts w v h1 h2
  have split : ∀ x, hi * (f.size * 2 ^ f.lo) + x * 2 ^ f.lo + lo = (hi * 2 ^ (f.hi + 1 - f.lo) + x) * 2 ^ f.lo + lo := fun x => by
    rw [Fd.size]; ring
  rw [BitVec.getLsbD, BitVec.getLsbD, e1, e2, split, split, testBit_parts hlo, testBit_parts hlo,
    testBit_parts (show v % f.size < _ from Nat.mod_lt _ f.size_pos), testBit_parts (show f.get w < _ from Nat.mod_lt _ f.size_pos),
    Fd.size, Nat.testBit_mod_two_pow]
  by_cases hl : j < f.lo
  · simp [hl, show ¬ f.lo ≤ j by omega]
  · by_cases hh : j - f.lo < f.hi + 1 - f.lo
    · simp [hl, hh, show f.lo ≤ j ∧ j ≤ f.hi by omega]
    · simp [hl, hh, show ¬ (f.lo ≤ j ∧ j ≤ f.hi) by omega]

theorem getLsbD_insh (d : Word) (k : BitVec 2) (v : BitVec 16) (j : Nat) :
    (insh d k.toNat v).getLsbD j = if 16 * k.toNat ≤ j ∧ j < 16 * k.toNat + 16 then v.getLsbD (j - 16 * k.toNat) else d.getLsbD j := by
  have hk := k.isLt
  rw [insh, Fd.getLsbD_put _ _ _ (by simp) (by simp; omega)]
  simp only [show j ≤ 16 * k.toNat + 15 ↔ j < 16 * k.toNat + 16 by omega]
  rfl

/-! ### Immediate forms -/

theorem shift_amount {n : Nat} (h : n < 64) : (BitVec.ofNat 16 n).toNat % 64 = n := by
  rw [BitVec.toNat_ofNat]; omega

/-- Settles O8: the value of each form; INSH bit by bit. -/
theorem scalarImmediateForms : Obligations.ScalarImmediateForms := by
  intro s c sd sa imm k m hr
  refine ⟨runs_scl hr rfl rfl rfl rfl, runs_scl hr rfl rfl rfl rfl, runs_scl hr rfl rfl rfl rfl, runs_scl hr rfl rfl rfl rfl,
    runs_scl hr rfl rfl rfl (flagW_eq ?_), runs_scl hr rfl rfl rfl rfl, fun n hn himm => ?_, ?_, runs_scl hr rfl rfl rfl rfl,
    runs_scl hr rfl rfl rfl rfl, runs_scl hr rfl rfl rfl rfl, fun hd => runs_scl hr rfl rfl rfl (if_pos hd)⟩
  · rw [slt_iff, BitVec.toInt_signExtend_of_le (by decide)]
  · subst himm
    have hw : decide ((BitVec.ofNat 16 n).toNat < 64) = true := by simp; omega
    exact ⟨runs_scl hr hw rfl rfl (by rw [shift_amount hn]), runs_scl hr hw rfl rfl (by rw [shift_amount hn]),
      runs_scl hr hw rfl rfl (by rw [shift_amount hn])⟩
  · obtain ⟨t, hx, hv, hregs, hmem⟩ := runs_scl (i := .insh c sd k imm) hr rfl rfl rfl rfl
    refine ⟨t, hx, hregs, hmem, fun j _ => ?_⟩
    rw [State.sreg, hv]
    exact getLsbD_insh _ k imm j

/-! ### Division and FP32 -/

/-- -2^63 over -1: the one quotient that does not fit. -/
theorem divS_overflow : divS (BitVec.ofNat 64 (2 ^ 63)) (BitVec.allOnes 64) = BitVec.ofNat 64 (2 ^ 63) ∧
    remS (BitVec.ofNat 64 (2 ^ 63)) (BitVec.allOnes 64) = 0 := by decide

/-- A NaN converts to 0. -/
theorem fcvti_nan {a : Word} (h : f32 (lo32 a) = .nan) : fcvti a = 0 := by rw [fcvti, h]; rfl

/-- Settles O9: the value of each form, and the two corner cases by their values. -/
theorem scalarDivisionAndFloat : Obligations.ScalarDivisionAndFloat := by
  refine ⟨fun s c sd sa sb hr => ?_, fun s c sd sa sb hr => ?_⟩
  · refine ⟨runs_scl hr rfl rfl rfl rfl, runs_scl hr rfl rfl rfl rfl, runs_scl hr rfl rfl rfl rfl, runs_scl hr rfl rfl rfl rfl,
      fun ha hb => ⟨runs_scl hr rfl rfl rfl ((congrArg₂ divS ha hb).trans divS_overflow.1),
        runs_scl hr rfl rfl rfl ((congrArg₂ remS ha hb).trans divS_overflow.2)⟩⟩
  · exact ⟨runs_scl hr rfl rfl rfl rfl, runs_scl hr rfl rfl rfl rfl, runs_scl hr rfl rfl rfl rfl, runs_scl hr rfl rfl rfl rfl,
      runs_scl hr rfl rfl rfl rfl, fun hn => runs_scl hr rfl rfl rfl (fcvti_nan hn)⟩

/-! ### TCFG -/

/-- A register of a core's window that is none of those that a fault of a core can change. -/
theorem not_faultReg_core (c : CoreId) {o : Nat} (ho : o < 2 ^ 22)
    (h : o ∉ [0x200010, 0x221010, 0x300000, 0x200008, 0x300010, 0x300280, 0x300288, 0x300290]) : ¬ FaultReg (coreBase c + o) := by
  have ne (d : CoreId) (p : Nat) (hp : p < 2 ^ 22) (hop : o ≠ p) : coreBase c + o ≠ coreBase d + p := core_addr_ne ho hp hop
  have := c.hall.isLt; have := c.row.isLt; have := c.col.isLt
  simp only [List.mem_cons, List.not_mem_nil, or_false, not_or] at h
  obtain ⟨h1, h2, h3, h4, h5, h6, h7, h8⟩ := h
  rintro (e | e | ⟨d, e | e | e | e | e | e | e | e⟩)
  · unfold rDumpCfg coreBase coreSpace dieSpace at e; omega
  · unfold rDumpStatus coreBase coreSpace dieSpace at e; omega
  · exact ne d _ (by decide) h1 e
  · exact ne d _ (by decide) h2 e
  · exact ne d _ (by decide) h3 e
  · exact ne d _ (by decide) h4 e
  · exact ne d _ (by decide) h5 e
  · exact ne d _ (by decide) h6 e
  · exact ne d _ (by decide) h7 e
  · exact ne d _ (by decide) h8 e

theorem not_faultReg_rTileCfg (c : CoreId) (tn : BitVec 6) : ¬ FaultReg (rTileCfg c tn.toNat) := by
  have htn := tn.isLt
  rw [rTileCfg, Nat.add_assoc]
  refine not_faultReg_core c (by omega) ?_
  simp only [List.mem_cons, List.not_mem_nil, or_false, not_or]
  omega

/-- Settles O10: a legal shape is the one register written, any other is TILE_SHAPE. -/
theorem tileConfigWrites : Obligations.TileConfigWrites := by
  intro s c tn sa hr
  refine ⟨fun hok => runs_writes rfl hr rfl (if_pos hok) rfl, fun hok => runs_faults rfl hr rfl (if_neg (by rw [hok]; decide)) ⟨?_, ?_⟩⟩
  · exact fault_faultCore s c (s.tileShape c [tn.toNat]) (show 0x1001 < 2 ^ 16 by decide)
  · exact reg_faultCore_other s c _ (not_faultReg_rTileCfg c tn)

end Sys2Proof.Machine

/-! The CTL slot: transfers, hardware loops, step-end markers and breakpoints (R84, R135 to R137). -/

namespace Sys2Proof.Machine

/-! ### A CTL instruction at once -/

theorem ctlNow_taken {s : State} {c : CoreId} {i : Instr} {t : Nat} (h : s.ctlTarget c i = some t) :
    s.ctlNow c i = (effCtl s c i s).jump c t := by simp [State.ctlNow, h]

theorem ctlNow_next {s : State} {c : CoreId} {i : Instr} (h : s.ctlTarget c i = none) : s.ctlNow c i = effCtl s c i s := by
  simp [State.ctlNow, h]

@[simp] theorem stepped_pc (s : State) (c d : CoreId) : (s.stepped c).pc d = s.pc d := stepped_fget s c _ _

@[simp] theorem stepped_loopDep (s : State) (c d : CoreId) : (s.stepped c).loopDep d = s.loopDep d := stepped_fget s c _ _

@[simp] theorem stepped_loopFld (s : State) (c d : CoreId) (k : Nat) (f : Fd) : (s.stepped c).loopFld d k f = s.loopFld d k f :=
  stepped_fget s c _ _

/-- A row that takes a transfer goes to its target; registers and memory are otherwise as its effect leaves them. -/
theorem runs_jumps {s : State} {c : CoreId} {i : Instr} {fault : State → Option EvRec} {t : Nat} {A : Nat → Prop}
    (hx : exec i s = .next (s.issueOne c i fault fun s => s.ctlNow c i)) (hr : Ready s c) (hw : i.wf = true) (hf : fault s = none)
    (ht : s.ctlTarget c i = some t) (hlt : t < 65536) (hregs : RegsBut A s (effCtl s c i s)) (hmem : SameMem s (effCtl s c i s)) {P : State → Prop}
    (hP : ∀ u, u.pc c = t → (∀ a, a ≠ rPc c → u.reg a = (effCtl s c i s).reg a) → RegsBut (fun a => A a ∨ a = rPc c) s u → SameMem s u → P u) :
    Runs i s P := by
  refine runs_acts hx hr hw hf (hP _ ?_ (fun a ha => ?_) (fun a ha => ?_) fun a => ?_) <;> rw [ctlNow_taken ht]
  · rw [stepped_pc, jump_pc _ _ _ hlt]
  · rw [stepped_reg, jump_reg_other _ _ _ ha]
  · obtain ⟨hA, hpc⟩ := not_or.1 ha
    rw [stepped_reg, jump_reg_other _ _ _ hpc, hregs a hA]
  · rw [stepped_rdB, jump_rdB, hmem a]

/-- A row with no other effect than its transfer. -/
theorem runs_goes {s : State} {c : CoreId} {i : Instr} {fault : State → Option EvRec} {t : Nat}
    (hx : exec i s = .next (s.issueOne c i fault fun s => s.ctlNow c i)) (hr : Ready s c) (hw : i.wf = true) (hf : fault s = none)
    (ht : s.ctlTarget c i = some t) (hlt : t < 65536) (he : effCtl s c i s = s) :
    Runs i s fun u => u.pc c = t ∧ RegsBut (· = rPc c) s u ∧ SameMem s u :=
  runs_jumps hx hr hw hf ht hlt (A := fun _ => False) (fun _ _ => by rw [he]) (fun _ => by rw [he])
    fun _ hpc _ hregs hmem => ⟨hpc, fun a ha => hregs a (by simp [ha]), hmem⟩

/-! ### Branches, jumps and calls -/

theorem toInt_eq_zero_iff (v : Word) : v.toInt = 0 ↔ v = 0 := by rw [← BitVec.toInt_inj]; rfl

theorem cond_cases (cond : BitVec 3) : cond = 0 ∨ cond = 1 ∨ cond = 2 ∨ cond = 3 ∨ cond = 4 ∨ cond = 5 ∨ cond = 6 ∨ cond = 7 := by
  revert cond; decide

/-- The conditions of R135, by the sign of the operand. -/
theorem brTaken_iff {cond : BitVec 3} (h7 : cond ≠ 7) (a : Word) : brTaken cond a = true ↔
    (cond = 0 ∧ a = 0) ∨ (cond = 1 ∧ a ≠ 0) ∨ (cond = 2 ∧ a.toInt < 0) ∨ (cond = 3 ∧ 0 ≤ a.toInt) ∨
      (cond = 4 ∧ 0 < a.toInt) ∨ (cond = 5 ∧ a.toInt ≤ 0) ∨ cond = 6 := by
  have hneg : a.slt 0#64 = true ↔ a.toInt < 0 := slt_iff a 0
  have hnonneg : a.slt 0#64 = false ↔ 0 ≤ a.toInt := by rw [← Bool.not_eq_true, hneg, Int.not_lt]
  have hzero : a.toInt = 0 ↔ a = 0#64 := toInt_eq_zero_iff a
  rcases cond_cases cond with h | h | h | h | h | h | h | h
  case inr.inr.inr.inr.inr.inr.inr => exact absurd h h7
  all_goals subst h; simp [brTaken, hneg, hnonneg]
  all_goals rw [← hzero]; omega

theorem branch_target_lt (i : Int) : (i % 65536).toNat < 65536 := by omega

/-- A call leaves the index of the next bundle in S31. -/
theorem runs_calls {s : State} {c : CoreId} {i : Instr} {t : Nat}
    (hx : exec i s = .next (s.issueOne c i noFault fun s => s.ctlNow c i)) (hr : Ready s c) (hw : i.wf = true)
    (ht : s.ctlTarget c i = some t) (hlt : t < 65536) (he : effCtl s c i s = s.setS c 31 (BitVec.ofNat 64 ((s.pc c + 1) % 65536))) :
    Runs i s fun u => u.pc c = t ∧ u.sreg c 31 = BitVec.ofNat 64 ((s.pc c + 1) % 65536) ∧
      RegsBut (fun x => x = rPc c ∨ x = rS c 31) s u ∧ SameMem s u := by
  refine runs_jumps hx hr hw rfl ht hlt (A := (· = rS c 31)) (fun a ha => ?_) (fun a => ?_) fun u hpc heff hregs hmem =>
    ⟨hpc, ?_, fun a ha => hregs a (mt Or.symm ha), hmem⟩
  · rw [he]; exact reg_setReg_other s _ ha
  · rw [he, setS_rdB]
  · have hne : rS c 31 ≠ rPc c := core_addr_ne (o := 0x2010F8) (by decide) (by decide) (by decide)
    exact (heff _ hne).trans (by rw [he]; exact reg_setReg_same s _ _)

/-- Settles O11: each row by its target. -/
theorem branchesAndCalls : Obligations.BranchesAndCalls := by
  intro s c cond sa off target hr
  refine ⟨fun hm => ?_, fun h7 hm => ?_, runs_goes rfl hr rfl rfl rfl target.isLt rfl, runs_goes rfl hr rfl rfl rfl (Nat.mod_lt _ (by decide)) rfl,
    runs_calls rfl hr rfl rfl target.isLt rfl, runs_calls rfl hr rfl rfl (Nat.mod_lt _ (by decide)) rfl⟩
  · have h7 : cond ≠ 7 := by rintro rfl; simp at hm
    exact runs_goes rfl hr (bne_iff_ne.2 h7) rfl (if_pos ((brTaken_iff h7 _).2 hm)) (branch_target_lt _) rfl
  · have ht : s.ctlTarget c (.br c cond sa off) = none := if_neg (mt (brTaken_iff h7 _).1 hm)
    refine runs_acts rfl hr (bne_iff_ne.2 h7) rfl ?_
    rw [ctlNow_next ht]
    exact ⟨fun a => stepped_reg s c a, fun a => stepped_rdB s c a⟩

/-! ### Hardware loops -/

theorem rLoopEntry_ne_rLoopCtl (c : CoreId) (d : Nat) : rLoopEntry c d ≠ rLoopCtl c := by unfold rLoopEntry rLoopCtl; omega

theorem loopPush_dep (s : State) (c : CoreId) (b e n : Nat) (h : s.loopDep c < 4) : (s.loopPush c b e n).loopDep c = s.loopDep c + 1 := by
  rw [State.loopDep, State.loopPush, State.fget, reg_setReg_other _ _ (rLoopEntry_ne_rLoopCtl c _).symm]
  exact (fget_fput_same _ _ _ _ (by decide) (by decide)).trans (Nat.mod_eq_of_lt (show _ < 8 by omega))

/-- The entry pushed, field by field. -/
theorem loopPush_entry (s : State) (c : CoreId) {b e n : Nat} (hb : b < 65536) (he : e < 65536) (hn : n < 2 ^ 32) :
    (s.loopPush c b e n).loopFld c (s.loopDep c) fLoopEntryCount = n ∧ (s.loopPush c b e n).loopFld c (s.loopDep c) fLoopEntryStart = b ∧
      (s.loopPush c b e n).loopFld c (s.loopDep c) fLoopEntryEnd = e := by
  simp only [State.loopFld, State.loopPush, State.fget, reg_setReg_same]
  refine ⟨?_, ?_, ?_⟩
  · rw [Fd.get_put _ _ _ (by decide) (by decide)]; exact Nat.mod_eq_of_lt hn
  · rw [Fd.get_put_below _ _ _ _ (by decide) (by decide) (by decide) (by decide),
      Fd.get_put_below _ _ _ _ (by decide) (by decide) (by decide) (by decide), Fd.get_put _ _ _ (by decide) (by decide)]
    exact Nat.mod_eq_of_lt hb
  · rw [Fd.get_put_below _ _ _ _ (by decide) (by decide) (by decide) (by decide), Fd.get_put _ _ _ (by decide) (by decide)]
    exact Nat.mod_eq_of_lt he

theorem regsBut_loopPush (s : State) (c : CoreId) (b e n : Nat) :
    RegsBut (fun x => x = rLoopCtl c ∨ x = rLoopEntry c (s.loopDep c)) s (s.loopPush c b e n) := fun a ha => by
  obtain ⟨hctl, hentry⟩ := not_or.1 ha
  rw [State.loopPush, reg_setReg_other _ _ hentry, reg_fput_other _ _ _ hctl]

theorem fault_loopDepth {s : State} {c : CoreId} : (s.faultCore c (s.loopDepth c)).fget (rCoreStatus c) fCoreStatusFault = 0x100C :=
  fault_faultCore s c (s.loopDepth c) (show 0x100C < 2 ^ 16 by decide)

/-- Settles O12: LOOP by its count, LBRK by its depth. -/
theorem hardwareLoops : Obligations.HardwareLoops := by
  intro s c src sa icount len hr hlen hend
  have hw : len != 0 := bne_iff_ne.2 hlen
  have hcount : s.loopCount c src sa icount < 2 ^ 32 := by
    have := icount.isLt
    unfold State.loopCount; split <;> omega
  have hroom : s.loopDep c < 4 → s.loopFault c = none := fun hd => by
    simp [State.loopFault, hend, show s.loopDep c ≠ 4 by omega]
  refine ⟨fun hd hn => ?_, fun hd hn => ?_, fun hd => ?_, fun hd _ => ?_, fun hd => ?_⟩
  · exact runs_goes rfl hr hw (hroom hd) (if_pos hn) (Nat.mod_lt _ (by decide)) (if_pos hn)
  · have ht : s.ctlTarget c (.loop c src sa icount len) = none := if_neg hn
    have he : effCtl s c (.loop c src sa icount len) s =
        s.loopPush c ((s.pc c + 1) % 65536) ((s.pc c + len.toNat) % 65536) (s.loopCount c src sa icount) := if_neg hn
    obtain ⟨hc, hb, hl⟩ := loopPush_entry s c (Nat.mod_lt (s.pc c + 1) (by decide)) (Nat.mod_lt (s.pc c + len.toNat) (by decide)) hcount
    refine runs_acts rfl hr hw (hroom hd) ?_
    rw [ctlNow_next ht, he]
    refine ⟨?_, ?_, ?_, ?_, fun a ha => ?_, fun a => ?_⟩
    · rw [stepped_loopDep, loopPush_dep s c _ _ _ hd]
    · rw [stepped_loopFld]; exact hc
    · rw [stepped_loopFld]; exact hb
    · rw [stepped_loopFld]; exact hl
    · rw [stepped_reg]; exact regsBut_loopPush s c _ _ _ a ha
    · rw [stepped_rdB, loopPush_rdB]
  · exact runs_faults rfl hr hw (by simp [State.loopFault, hend, hd]) fault_loopDepth
  · have hdep : s.loopDep c - 1 < 8 := by have : s.loopDep c < 8 := Nat.mod_lt _ (by decide); omega
    have he : effCtl s c (.lbrk c) s = s.fput (rLoopCtl c) fLoopCtlDepth (s.loopDep c - 1) := rfl
    refine runs_jumps rfl hr rfl (by simp [State.lbrkFault, hend, show s.loopDep c ≠ 0 by omega]) rfl (Nat.mod_lt _ (by decide))
      (A := (· = rLoopCtl c)) (fun a ha => ?_) (fun a => ?_) fun u hpc heff hregs hmem => ⟨?_, hpc, hregs, hmem⟩
    · rw [he, reg_fput_other s _ _ ha]
    · rw [he, fput_rdB]
    have hne : rLoopCtl c ≠ rPc c := core_addr_ne (by decide) (by decide) (by decide)
    rw [he] at heff
    exact (congrArg fLoopCtlDepth.get (heff _ hne)).trans ((fget_fput_same s _ _ _ (by decide) (by decide)).trans (Nat.mod_eq_of_lt hdep))
  · exact runs_faults rfl hr rfl (by simp [State.lbrkFault, hend, hd]) fault_loopDepth

/-! ### Step-end markers and breakpoints -/

theorem canIssue_of_marker {s : State} {c : CoreId} (h : (s.core c).marker ≠ .none) : s.canIssue c = false := by
  simp [State.canIssue, h]

theorem marker_stepped (s : State) (c d : CoreId) : ((s.stepped c).core d).marker = (s.core d).marker := by
  unfold State.stepped
  split
  · rw [core_askStop_keeps CoreS.marker (fun _ _ => rfl)]
    exact core_modCore_keeps CoreS.marker s c d _ rfl
  · rfl

/-- A marker that the core takes at issue. -/
theorem runs_marks {s : State} {c : CoreId} {i : Instr} {m : MarkerS} (hx : exec i s = .next (s.issueOne c i (fun s => s.markerFault c) fun s => s.ctlNow c i))
    (hr : Ready s c) (hw : i.wf = true) (ht : s.ctlTarget c i = none) (he : effCtl s c i s = s.modCore c fun x => { x with marker := m })
    (hm : m ≠ .none) (hopen : (s.core c).openLen = 0) :
    Runs i s fun t => (t.core c).marker = m ∧ t.canIssue c = false ∧ SameRegs s t ∧ SameMem s t := by
  refine runs_acts hx hr hw (if_pos hopen) ?_
  rw [ctlNow_next ht, he]
  have hmark : (((s.modCore c fun x => { x with marker := m }).stepped c).core c).marker = m := by rw [marker_stepped, core_modCore_same]
  exact ⟨hmark, canIssue_of_marker (by rw [hmark]; exact hm), fun a => by simp, fun a => by simp⟩

/-- A marker while a chain is open. -/
theorem runs_chainOpen {s : State} {c : CoreId} {i : Instr} (hx : exec i s = .next (s.issueOne c i (fun s => s.markerFault c) fun s => s.ctlNow c i))
    (hr : Ready s c) (hw : i.wf = true) (hopen : (s.core c).openLen ≠ 0) : Runs i s fun t => t.fget (rCoreStatus c) fCoreStatusFault = 0x2003 :=
  runs_faults hx hr hw (if_neg hopen) (fault_faultCore s c (s.arrayChain c) (show 0x2003 < 2 ^ 16 by decide))

/-- A core asked to stop that has not been asked before. -/
theorem stopCause_askStop {s : State} {c : CoreId} (h : (s.core c).stopCause = none) (k : StopCause) :
    ((s.askStop c k).core c).stopCause = some k := by
  rw [State.askStop, core_modCore_same, h]

/-- The stop that a single step asks for comes after one asked for already. -/
theorem stopCause_stepped {s : State} {c : CoreId} {k : StopCause} (h : (s.core c).stopCause = some k) :
    ((s.stepped c).core c).stopCause = some k := by
  unfold State.stepped
  split
  · rw [State.askStop, core_modCore_same, core_modCore_same, h]
  · exact h

theorem stopCause_of_ready {s : State} {c : CoreId} (hr : Ready s c) : (s.core c).stopCause = none := by
  have h := hr.1
  simp only [State.canIssue, Bool.and_eq_true, Option.isNone_iff_eq_none] at h
  exact h.1.1.2

/-- Settles O13: the two markers alike, and BRKPT by the stop it asks for. -/
theorem stepEndsAndBreakpoints : Obligations.StepEndsAndBreakpoints := by
  intro s c hr
  refine ⟨fun h => ⟨runs_marks rfl hr rfl rfl rfl (by decide) h, runs_marks rfl hr rfl rfl rfl (by decide) h⟩,
    fun h => ⟨runs_chainOpen rfl hr rfl h, runs_chainOpen rfl hr rfl h⟩, runs_acts rfl hr rfl rfl ?_⟩
  rw [ctlNow_next rfl, effCtl]
  refine ⟨?_, stopCause_stepped (stopCause_askStop ?_ _), fun a ha => ?_, fun a => by simp⟩
  · rw [stepped_flag, askStop_flag, State.flag, fget_fput_same _ _ _ _ (by decide) (by decide)]; rfl
  · rw [fput_core]; exact stopCause_of_ready hr
  · rw [stepped_reg, askStop_reg, reg_fput_other _ _ _ ha]

end Sys2Proof.Machine

/-! POST and WAIT on the core's local counters (R146, R217, R219). -/

namespace Sys2Proof.Machine

/-! ### A saturating addition -/

theorem satOut_iff (i : Int) : satOut i = true ↔ i < 0 ∨ (2 ^ 32 : Int) ≤ i := by
  simp only [satOut, Bool.or_eq_true, decide_eq_true_eq]; omega

/-- A sum out of range whose SC_SAT bit was clear sets the bit and writes a record. -/
theorem scAdd_firstSat {s : State} {c : CoreId} {k : Nat} {d : Int} (h : satOut ((s.fget (rSc c k) fScValue : Int) + d) = true)
    (hbit : s.flag (rScSat c) ⟨k, k⟩ = false) : ∃ r, s.scAdd c k d =
      ((((s.fput (rSc c k) fScValue (sat32 ((s.fget (rSc c k) fScValue : Int) + d))).modCore c CoreS.ungate).fput (rScSat c) ⟨k, k⟩ 1).emit r) := by
  unfold State.scAdd
  rw [if_pos (by rw [h, hbit]; rfl)]
  exact ⟨_, rfl⟩

/-- Any other addition writes the counter alone. -/
theorem scAdd_quiet {s : State} {c : CoreId} {k : Nat} {d : Int}
    (h : satOut ((s.fget (rSc c k) fScValue : Int) + d) = false ∨ s.flag (rScSat c) ⟨k, k⟩ = true) : s.scAdd c k d =
      (s.fput (rSc c k) fScValue (sat32 ((s.fget (rSc c k) fScValue : Int) + d))).modCore c CoreS.ungate := by
  unfold State.scAdd
  refine if_neg ?_
  rcases h with h | h <;> simp [h]

theorem flag_fput_one (s : State) (a k : Nat) (h : k < 64) : (s.fput a ⟨k, k⟩ 1).flag a ⟨k, k⟩ = true := by
  have hsize : Fd.size ⟨k, k⟩ = 2 := by simp [Fd.size]
  rw [State.flag, fget_fput_same _ _ _ _ le_rfl h, hsize]; rfl

/-- The SC_SAT bit after an addition: set before, or set by a sum out of range. -/
theorem scAdd_sat (s : State) (c : CoreId) {k : Nat} (d : Int) (h : k < 48) : (s.scAdd c k d).flag (rScSat c) ⟨k, k⟩ = true ↔
    s.flag (rScSat c) ⟨k, k⟩ = true ∨ satOut ((s.fget (rSc c k) fScValue : Int) + d) = true := by
  have hne := (rSc_ne_rScSat c h).symm
  by_cases hs : satOut ((s.fget (rSc c k) fScValue : Int) + d) = false ∨ s.flag (rScSat c) ⟨k, k⟩ = true
  · rw [scAdd_quiet hs, modCore_flag, State.flag, fget_fput_other _ _ _ _ hne, ← State.flag]
    rcases hs with hs | hs <;> simp [hs]
  · simp only [not_or, Bool.not_eq_false, Bool.not_eq_true] at hs
    obtain ⟨hout, hbit⟩ := hs
    obtain ⟨r, e⟩ := scAdd_firstSat hout hbit
    rw [e, emit_flag, flag_fput_one _ _ k (by omega)]
    simp [hout]

/-- The records of an addition: one, where the sum is out of range and the SC_SAT bit was clear. -/
theorem scAdd_arrivals (s : State) (c : CoreId) (k : Nat) (d : Int) : (s.scAdd c k d).log.arrivals.length = s.log.arrivals.length +
    if s.flag (rScSat c) ⟨k, k⟩ = false ∧ satOut ((s.fget (rSc c k) fScValue : Int) + d) = true then 1 else 0 := by
  by_cases hs : satOut ((s.fget (rSc c k) fScValue : Int) + d) = false ∨ s.flag (rScSat c) ⟨k, k⟩ = true
  · rw [scAdd_quiet hs, modCore_log, fput_log]
    rcases hs with hs | hs <;> simp [hs]
  · simp only [not_or, Bool.not_eq_false, Bool.not_eq_true] at hs
    obtain ⟨hout, hbit⟩ := hs
    obtain ⟨r, e⟩ := scAdd_firstSat hout hbit
    simp [e, hout, hbit, State.emit]

/-! ### POST -/

theorem sextNat_mod (v : Nat) : sextNat 32 (v % 2 ^ 32) = sextNat 32 v := by
  unfold sextNat; split_ifs <;> omega

/-- Bits [31:0] of a word as a signed number. -/
theorem sextNat_toNat (w : Word) : sextNat 32 w.toNat = (w.setWidth 32).toInt := by
  rw [sextNat, BitVec.toInt_eq_toNat_cond, BitVec.toNat_setWidth]
  split_ifs <;> omega

/-- POST that adds (MODE 0 and 2). -/
theorem runs_post_add {s : State} {c : CoreId} {sc : BitVec 6} {mode : BitVec 2} {imm : BitVec 16} {d : Int} (hr : Ready s c) (hsc : sc.toNat < 48)
    (hw : (Instr.post c sc mode imm).wf = true) (he : effPost s c sc mode imm s = s.scAdd c sc.toNat d) :
    Runs (.post c sc mode imm) s fun t =>
      t.fget (rSc c sc.toNat) fScValue = (min (max ((s.fget (rSc c sc.toNat) fScValue : Int) + d) 0) (2 ^ 32 - 1)).toNat ∧
      (t.flag (rScSat c) ⟨sc.toNat, sc.toNat⟩ = true ↔ s.flag (rScSat c) ⟨sc.toNat, sc.toNat⟩ = true ∨
        ((s.fget (rSc c sc.toNat) fScValue : Int) + d < 0 ∨ (2 ^ 32 : Int) ≤ (s.fget (rSc c sc.toNat) fScValue : Int) + d)) ∧
      t.log.arrivals.length = s.log.arrivals.length + (if s.flag (rScSat c) ⟨sc.toNat, sc.toNat⟩ = false ∧
        ((s.fget (rSc c sc.toNat) fScValue : Int) + d < 0 ∨ (2 ^ 32 : Int) ≤ (s.fget (rSc c sc.toNat) fScValue : Int) + d) then 1 else 0) ∧
      RegsBut (fun a => a = rSc c sc.toNat ∨ a = rScSat c) s t ∧ SameMem s t := by
  refine runs_acts rfl hr hw rfl ?_
  simp only [he, ← satOut_iff]
  refine ⟨?_, ?_, ?_, fun a ha => ?_, fun a => ?_⟩
  · rw [stepped_fget, scAdd_value s c d hsc, sat32_eq]
  · rw [stepped_flag, scAdd_sat s c d hsc]
  · rw [stepped_log, scAdd_arrivals]
  · obtain ⟨hsc', hsat⟩ := not_or.1 ha
    rw [stepped_reg, scAdd_reg_other s c _ d hsc' hsat]
  · rw [stepped_rdB, scAdd_rdB]

/-- POST that sets (MODE 1 and 3). -/
theorem runs_post_set {s : State} {c : CoreId} {sc : BitVec 6} {mode : BitVec 2} {imm : BitVec 16} {v : Nat} (hr : Ready s c)
    (hw : (Instr.post c sc mode imm).wf = true) (he : effPost s c sc mode imm s = s.scSet c sc.toNat v) (hv : v < 2 ^ 32) :
    Runs (.post c sc mode imm) s fun t => t.fget (rSc c sc.toNat) fScValue = v ∧ RegsBut (· = rSc c sc.toNat) s t ∧ SameMem s t := by
  refine runs_acts rfl hr hw rfl ?_
  rw [he, State.scSet]
  refine ⟨?_, fun a ha => ?_, fun a => ?_⟩
  · rw [stepped_fget, modCore_fget, fget_fput_same _ _ _ _ (by decide) (by decide)]
    exact Nat.mod_eq_of_lt hv
  · rw [stepped_reg, modCore_reg, reg_fput_other _ _ _ ha]
  · rw [stepped_rdB, modCore_rdB, fput_rdB]

/-- Settles O14: modes 0 and 2 add, modes 1 and 3 set. -/
theorem postChangesCounters : Obligations.PostChangesCounters := by
  intro s c sc mode imm hr hsc himm
  have hw : (Instr.post c sc mode imm).wf = true := by
    simp only [Instr.wf, Bool.and_eq_true, decide_eq_true_eq]
    exact ⟨hsc, immOk_of_lt fun h => himm (of_decide_eq_true h)⟩
  have hreg : s.synVal c true imm = ((s.sreg c (imm.setWidth 5)).setWidth 32).toNat := (BitVec.toNat_setWidth 32 _).symm
  refine ⟨?_, ?_, ?_⟩
  · rintro (rfl | rfl)
    · exact runs_post_add hr hsc hw (congrArg (s.scAdd c sc.toNat) (if_pos rfl).symm)
    · have hint : s.synInt c true imm = ((s.sreg c (imm.setWidth 5)).setWidth 32).toInt := (sextNat_mod _).trans (sextNat_toNat _)
      exact runs_post_add hr hsc hw (congrArg (s.scAdd c sc.toNat) (hint.trans (if_neg (by decide)).symm))
  · rintro rfl
    exact runs_post_set hr hw rfl (lt_trans imm.isLt (by decide))
  · rintro rfl
    exact runs_post_set hr hw (congrArg (s.scSet c sc.toNat) hreg) (BitVec.isLt _)

/-! ### WAIT -/

theorem semHolds_iff (equal : Bool) (v want : Nat) : semHolds equal v want = true ↔ if equal then v = want else want ≤ v := by
  cases equal <;> simp [semHolds]

/-- What a wait that holds consumes is there. -/
theorem le_of_semHolds {equal : Bool} {v want : Nat} (h : semHolds equal v want = true) : want ≤ v := by
  rw [semHolds_iff] at h
  split_ifs at h
  · exact h.ge
  · exact h

/-- Settles O15: by whether the comparison holds. -/
theorem waitsOnCounters : Obligations.WaitsOnCounters := by
  intro s c sc mode consume imm hr hsc himm
  have hw : (Instr.wait c sc mode consume imm).wf = true := by
    simp only [Instr.wf, Bool.and_eq_true, decide_eq_true_eq]
    exact ⟨hsc, immOk_of_lt himm⟩
  have hok : s.waitOk c sc mode imm = true ↔ _ := semHolds_iff _ _ _
  refine ⟨fun hh hcons => runs_acts rfl hr hw rfl ?_, fun hh => runs_acts rfl hr hw rfl ?_⟩
  · subst hcons
    have hle := le_of_semHolds (hok.2 hh)
    have hv := scValue_lt s c sc.toNat
    rw [if_pos (hok.2 hh), effWait, if_pos rfl]
    have hsum : (s.fget (rSc c sc.toNat) fScValue : Int) + -(s.synVal c (mode.getLsbD 0) imm : Int) =
        ((s.fget (rSc c sc.toNat) fScValue - s.synVal c (mode.getLsbD 0) imm : Nat) : Int) := by omega
    rw [scAdd_quiet (.inl (by rw [hsum]; exact satOut_natCast (by omega))), hsum, sat32_natCast (by omega)]
    refine ⟨?_, fun a ha => ?_, fun a => ?_⟩
    · rw [stepped_fget, modCore_fget, fget_fput_same _ _ _ _ (by decide) (by decide)]
      exact Nat.mod_eq_of_lt (show _ < 2 ^ 32 by omega)
    · rw [stepped_reg, modCore_reg, reg_fput_other _ _ _ ha]
    · rw [stepped_rdB, modCore_rdB, fput_rdB]
  · have he : (if s.waitOk c sc mode imm then effWait s c sc mode consume imm s else s) = s := by
      rcases hh with hh | rfl
      · exact if_neg (mt hok.1 hh)
      · exact ite_self s
    rw [he]
    exact ⟨fun a => stepped_reg s c a, fun a => stepped_rdB s c a⟩

end Sys2Proof.Machine

/-! The VEC slot, and the tile and register moves of the MOV slot (R62 to R65, R141, R144, R145, R158 to R167, R472, R473). -/

namespace Sys2Proof.Machine

/-! ### Runs of bytes -/

@[simp] theorem length_natBytes (n v : Nat) : (natBytes n v).length = n := by
  induction n generalizing v with
  | zero => rfl
  | succ n ih => simp [natBytes, ih]

@[simp] theorem length_slice (b : Bytes) (o n : Nat) : (slice b o n).length = n := by simp [slice]

@[simp] theorem length_rdBytes (s : State) (a n : Nat) : (s.rdBytes a n).length = n := by simp [State.rdBytes]

@[simp] theorem length_row (s : State) (c : CoreId) (n i : Nat) : (s.row c n i).length = 128 := length_rdBytes s _ _

@[simp] theorem length_lanes (f : Nat → BitVec 32) : (lanes f).length = 128 := by simp [lanes, List.length_flatMap]

@[simp] theorem length_vreg (s : State) (c : CoreId) (k : BitVec 4) : (s.vreg c k).length = 128 := by
  simp [State.vreg, List.length_flatMap]

/-- The bytes of a number are that number, modulo what they hold. -/
theorem leNat_natBytes (n v : Nat) : leNat (natBytes n v) = v % 256 ^ n := by
  induction n generalizing v with
  | zero => simp [natBytes, leNat, Nat.mod_one]
  | succ n ih =>
    rw [natBytes, leNat, ih, BitVec.toNat_ofNat, show 256 ^ (n + 1) = 256 * 256 ^ n from Nat.pow_succ', Nat.mod_mul]

/-! ### Register forms of the VEC slot -/

theorem writesV_stepped {s t : State} {c : CoreId} {k : BitVec 4} {b : Bytes} (h : WritesV c k b s t) : WritesV c k b s (t.stepped c) := by
  obtain ⟨hval, hregs, hmem⟩ := h
  exact ⟨by simpa [State.vreg] using hval, fun a ha => (stepped_reg t c a).trans (hregs a ha), fun a => (stepped_rdB t c a).trans (hmem a)⟩

/-- A VEC row that writes the lanes `f` to V`vd`. -/
theorem runs_vec {s : State} {c : CoreId} {i : Instr} {vd : BitVec 4} {f g : Nat → BitVec 32} (hr : Ready s c) (hw : i.wf = true)
    (hx : exec i s = .next (s.issueOne c i noFault fun s => effVec s c i s)) (he : effVec s c i s = s.setV c vd (lanes f))
    (hv : ∀ l, f l = g l) : Runs i s (WritesV c vd (lanes g) s) := by
  refine runs_acts hx hr hw rfl ?_
  rw [he, funext hv]
  exact writesV_stepped (writesV_setV s c vd _ (length_lanes g))

/-- A NaN compares with nothing. -/
theorem fpCmp_nan {x y : Fp} (h : x = .nan ∨ y = .nan) : fpCmp x y = none := by
  rcases h with rfl | rfl
  · rfl
  · cases x <;> rfl

theorem vcmp32_nan {a b : BitVec 32} (h : f32 a = .nan ∨ f32 b = .nan) (cond : BitVec 3) : vcmp32 cond.toNat a b = true ↔ cond = 1 := by
  rw [vcmp32, fpCmp_nan h, beq_iff_eq, ← BitVec.toNat_inj]; rfl

/-- Settles O19: the lane function of each form, by the row that all share; a NaN by the comparison it does not have. -/
theorem vectorRegisterForms : Obligations.VectorRegisterForms := by
  refine ⟨fun s c vd va vb vc sx lane hr => ?_, fun s c vd va vb cond hr hc => ⟨?_, fun l h => vcmp32_nan h cond⟩⟩
  · have row {i : Instr} {f g : Nat → BitVec 32} (hw : i.wf = true) (hx : exec i s = .next (s.issueOne c i noFault fun s => effVec s c i s))
        (he : effVec s c i s = s.setV c vd (lanes f)) (hv : ∀ l, f l = g l) := runs_vec hr hw hx he hv
    exact ⟨row rfl rfl rfl fun _ => rfl, row rfl rfl rfl fun _ => rfl, row rfl rfl rfl fun _ => rfl, row rfl rfl rfl fun _ => rfl,
      row rfl rfl rfl fun _ => rfl, row rfl rfl rfl fun _ => rfl, row rfl rfl rfl fun _ => rfl, row rfl rfl rfl fun _ => rfl,
      row rfl rfl rfl fun _ => rfl, row rfl rfl rfl fun _ => rfl, row rfl rfl rfl fun _ => rfl, runs_writes rfl hr rfl rfl rfl,
      row rfl rfl rfl fun _ => rfl, row rfl rfl rfl fun _ => rfl, row rfl rfl rfl fun _ => rfl, row rfl rfl rfl fun _ => rfl,
      row rfl rfl rfl fun _ => rfl, row rfl rfl rfl fun _ => rfl, row rfl rfl rfl fun _ => rfl⟩
  · exact runs_vec hr (decide_eq_true hc) rfl rfl fun _ => rfl

/-! ### Rows of tiles -/

theorem setRow_reg (s : State) (c : CoreId) (n i : Nat) (b : Bytes) : SameRegs s (s.setRow c n i b) := fun a => wrBytes_reg s _ _ a

theorem setRow_rdB_other (s : State) (c : CoreId) (n i : Nat) (b : Bytes) {a : Nat} (h : a < tileAddr c n i ∨ tileAddr c n i + 128 ≤ a) :
    (s.setRow c n i b).rdB a = s.rdB a := rdB_wrBytes_other _ _ _ _ (by rwa [length_slice])

/-- Rows of tiles lie apart. -/
theorem tileAddr_apart (c : CoreId) {n m i j : Nat} (hi : i < 32) (hj : j < 32) (h : n ≠ m ∨ i ≠ j) :
    tileAddr c n i + 128 ≤ tileAddr c m j ∨ tileAddr c m j + 128 ≤ tileAddr c n i := by
  unfold tileAddr; omega

theorem row_setRow_same (s : State) (c : CoreId) (n i : Nat) (b : Bytes) : (s.setRow c n i b).row c n i = slice b 0 128 := by
  have h := rdBytes_wrBytes s (tileAddr c n i) (slice b 0 128)
  rwa [length_slice] at h

theorem row_setRow_other (s : State) (c : CoreId) {n m i j : Nat} (b : Bytes) (hi : i < 32) (hj : j < 32) (h : n ≠ m ∨ i ≠ j) :
    (s.setRow c n i b).row c m j = s.row c m j := by
  refine rdBytes_wrBytes_other s _ _ _ _ ?_
  rw [length_slice]
  exact (tileAddr_apart c hi hj h).symm

theorem rdBytes_congr {s t : State} {a n : Nat} (h : ∀ x, a ≤ x → x < a + n → t.rdB x = s.rdB x) : t.rdBytes a n = s.rdBytes a n :=
  List.map_congr_left fun i hi => h _ (by omega) (by have := List.mem_range.1 hi; omega)

/-- The core store lies below the tile file of its core. -/
theorem rdStore_setRow (s : State) (c : CoreId) (n i : Nat) (b : Bytes) {o k : Nat} (h : o + k ≤ 0x200000) :
    (s.setRow c n i b).rdStore c o k = s.rdStore c o k :=
  rdBytes_congr fun x _ hx => setRow_rdB_other s c n i b (by unfold tileAddr; omega)

theorem sameRegs_fget {s t : State} (h : SameRegs s t) (a : Nat) (f : Fd) : t.fget a f = s.fget a f := congrArg f.get (h a)

theorem sameRegs_flag {s t : State} (h : SameRegs s t) (a : Nat) (f : Fd) : t.flag a f = s.flag a f := by
  rw [State.flag, sameRegs_fget h, State.flag]

theorem sameRegs_tFmt {s t : State} (h : SameRegs s t) (c : CoreId) (n : Nat) : t.tFmt c n = s.tFmt c n := by
  simp only [State.tFmt, sameRegs_fget h, sameRegs_flag h]

theorem sameRegs_tRB {s t : State} (h : SameRegs s t) (c : CoreId) (n : Nat) : t.tRB c n = s.tRB c n := by
  rw [State.tRB, sameRegs_tFmt h, State.tCols, sameRegs_fget h, State.tRB, State.tCols]

/-- An operation that writes row after row of one tile, each from what no earlier write changes: every row is written from the state before. -/
theorem runRows_setRow {s₀ : State} {c : CoreId} {f : FlightS} {n : Nat} (g : State → Nat → Bytes)
    (hstep : ∀ (u : State) i, u.flightWrite c f i (u.flightRead c f i) = u.setRow c n i (g u i))
    {N : Nat} (hN : N ≤ 32) (hg : ∀ (u : State) i j b, SameRegs s₀ u → j < i → i < N → g (u.setRow c n j b) i = g u i) (k : Nat) :
    ∀ s : State, ∀ i, SameRegs s₀ s → i + k = N → (∀ j, i ≤ j → j < N → (s.runRows c f k i).row c n j = slice (g s j) 0 128) ∧
      MemBut (tileAddr c n i) (128 * k) s (s.runRows c f k i) ∧ SameRegs s (s.runRows c f k i) := by
  induction k with
  | zero => exact fun s i _ h => ⟨fun j hij hj => by omega, fun _ _ => rfl, fun _ => rfl⟩
  | succ k ih =>
    intro s i hs h
    rw [State.runRows, hstep]
    obtain ⟨hrows, hmem, hregs⟩ := ih (s.setRow c n i (g s i)) (i + 1) (fun a => (setRow_reg s c n i _ a).trans (hs a)) (by omega)
    have hnext : tileAddr c n (i + 1) = tileAddr c n i + 128 := by unfold tileAddr; omega
    refine ⟨fun j hij hj => ?_, fun a ha => ?_, fun a => (hregs a).trans (setRow_reg s c n i _ a)⟩
    · by_cases hji : j = i
      · subst hji
        have hrow : ((s.setRow c n j (g s j)).runRows c f k (j + 1)).row c n j = (s.setRow c n j (g s j)).row c n j :=
          rdBytes_congr fun x _ hx => hmem x (by omega)
        rw [hrow, row_setRow_same]
      · rw [hrows j (by omega) hj, hg _ _ _ _ hs (by omega) hj]
    · rw [hmem a (by omega), setRow_rdB_other s c n i _ (by omega)]

/-- The row of a tile operation that writes a tile. -/
theorem runs_rows {s : State} {c : CoreId} {i : Instr} {fault : State → Option EvRec} {n N : Nat} {f : FlightS} (g : State → Nat → Bytes)
    (hx : exec i s = .next (s.issueOne c i fault fun s => s.runFlight c (s.flightOf c s.cc i))) (hr : Ready s c) (hw : i.wf = true)
    (hf : fault s = none) (hfl : s.flightOf c s.cc i = f) (he : s.runFlight c f = s.runRows c f N 0)
    (hstep : ∀ (u : State) i, u.flightWrite c f i (u.flightRead c f i) = u.setRow c n i (g u i)) (hN : N ≤ 32)
    (hg : ∀ (u : State) i j b, SameRegs s u → j < i → i < N → g (u.setRow c n j b) i = g u i) :
    Runs i s fun t => (∀ j, j < N → t.row c n j = slice (g s j) 0 128) ∧ MemBut (tileAddr c n 0) (128 * N) s t ∧ SameRegs s t := by
  obtain ⟨hrows, hmem, hregs⟩ := runRows_setRow g hstep hN hg N s 0 (fun _ => rfl) (Nat.zero_add N)
  refine runs_acts hx hr hw hf ?_
  rw [hfl, he]
  refine ⟨fun j hj => ?_, fun a ha => (stepped_rdB _ c a).trans (hmem a ha), fun a => (stepped_reg _ c a).trans (hregs a)⟩
  exact (rdBytes_congr fun x _ _ => stepped_rdB _ c x).trans (hrows j (Nat.zero_le j) hj)

/-- A tile operation of no rows changes nothing. -/
theorem runs_noRows {s : State} {c : CoreId} {i : Instr} {fault : State → Option EvRec}
    (hx : exec i s = .next (s.issueOne c i fault fun s => s.runFlight c (s.flightOf c s.cc i))) (hr : Ready s c) (hw : i.wf = true)
    (hf : fault s = none) (he : s.runFlight c (s.flightOf c s.cc i) = s) : Runs i s fun t => SameRegs s t ∧ SameMem s t := by
  refine runs_acts hx hr hw hf ?_
  rw [he]
  exact ⟨fun a => stepped_reg s c a, fun a => stepped_rdB s c a⟩

/-- What no rows leaves, in the words of the rows. -/
theorem runs_tile_noRows {i : Instr} {s : State} {c : CoreId} {n : Nat} {N : BitVec 6} {g : Nat → Bytes} (hN : N = 0)
    (h : Runs i s fun t => SameRegs s t ∧ SameMem s t) :
    Runs i s fun t => (∀ j, j < N.toNat → t.row c n j = g j) ∧ MemBut (tileAddr c n 0) (128 * N.toNat) s t ∧ SameRegs s t := by
  subst hN
  obtain ⟨t, hx, hregs, hmem⟩ := h
  exact ⟨t, hx, fun j hj => absurd hj (Nat.not_lt_zero j), fun a _ => hmem a, hregs⟩

theorem tileOk_le {s : State} {c : CoreId} {t n : Nat} (h : s.tileOk c t n = true) : n ≤ 32 := by
  simp only [State.tileOk, Bool.and_eq_true, decide_eq_true_eq] at h
  exact h.2

theorem toNat_ne_zero {n : BitVec 6} (h : n ≠ 0) : n.toNat ≠ 0 := fun e => h (BitVec.eq_of_toNat_eq e)

/-! ### TVOP and TRED -/

theorem rows_of_tvopFault {s : State} {c : CoreId} {td ta n func : BitVec 6} (hn : n ≠ 0) (h : s.tvopFault c td ta n func = none) :
    n.toNat ≤ 32 := by
  refine tileOk_le (s := s) (c := c) (t := td.toNat) ?_
  by_contra hbad
  exact hn (by simpa [State.tvopFault, hbad] using h)

theorem rows_of_tredFault {s : State} {c : CoreId} {ta n : BitVec 6} {kind : BitVec 3} (hn : n ≠ 0) (h : s.tredFault c ta n kind = none) :
    n.toNat ≤ 32 := by
  refine tileOk_le (s := s) (c := c) (t := ta.toNat) ?_
  by_contra hbad
  exact hn (by simpa [State.tredFault, hbad] using h)

/-- Settles O20: TVOP row by row, TRED by its one vector. -/
theorem tileVectorOperations : Obligations.TileVectorOperations := by
  refine ⟨fun s c td ta n func vb vc bsrc cond hr hw hf => ?_, fun s c vd ta n kind vb hr hk hf => ⟨fun hn => ?_, fun hn => ?_⟩⟩
  · by_cases hn : n = 0
    · exact runs_tile_noRows hn (runs_noRows rfl hr hw hf (by subst hn; rfl))
    · have hfl : s.flightOf c s.cc (.tvop c td ta n func vb vc bsrc cond) = _ := if_neg (toNat_ne_zero hn)
      have h32 := rows_of_tvopFault hn hf
      refine runs_rows (fun u i => tvopRow (u.tFmt c ta.toNat) (u.tFmt c td.toNat) func.toNat cond.toNat (bsrc == 1) i (u.row c ta.toNat i)
        (s.vreg c vb) (s.vreg c vc)) rfl hr hw hf hfl rfl (fun _ _ => rfl) h32 fun u i j b _ hj hi => ?_
      rw [sameRegs_tFmt (setRow_reg u c _ _ _), sameRegs_tFmt (setRow_reg u c _ _ _), row_setRow_other u c b (by omega) (by omega) (.inr (by omega))]
  · have hfl : s.flightOf c s.cc (.tred c vd ta n kind vb) = _ := if_neg (toNat_ne_zero hn)
    have he : s.runFlight c (s.flightOf c s.cc (.tred c vd ta n kind vb)) = s.setV c vd (lanes fun l => if l < n.toNat then
        tredLane (s.tFmt c ta.toNat) (s.tCols c ta.toNat) kind.toNat l (s.row c ta.toNat l) (s.vreg c vb) else 0) := by
      rw [hfl]
      refine (if_neg (toNat_ne_zero hn)).trans (congrArg (s.setV c vd) (congrArg lanes (funext fun l => ?_)))
      by_cases hl : l < n.toNat
      · simp [hl, State.flightRead, flight0]
      · simp [hl]
    refine runs_acts rfl hr (decide_eq_true hk) hf ?_
    rw [he]
    exact writesV_stepped (writesV_setV s c vd _ (length_lanes _))
  · exact runs_noRows rfl hr (decide_eq_true hk) hf (by subst hn; rfl)

/-! ### TLD and TCPY -/

theorem storeAddr_eq (s : State) (c : CoreId) (sb : BitVec 5) (off : BitVec 16) : s.storeAddr c sb off = (s.sreg c sb).toInt + off.toInt := rfl

theorem stride_eq (s : State) (c : CoreId) (ss : BitVec 5) : s.stride c ss = ((s.sreg c ss).setWidth 32).toInt := sextNat_toNat _

/-- A tile load or store of no rows, or of a legal shape with every row in the core store, meets no fault. -/
theorem tldFault_none {s : State} {c : CoreId} {tl n : BitVec 6} {b d : Int}
    (h : n = 0 ∨ s.tileOk c tl.toNat n.toNat = true ∧ ∀ i : Nat, i < n.toNat → 0 ≤ b + i * d ∧ b + i * d + s.tRB c tl.toNat ≤ 0x200000) :
    s.tldFault c tl n b d = none := by
  unfold State.tldFault
  by_cases hn : n = 0
  · exact if_pos hn
  · obtain ⟨hok, hin⟩ := h.resolve_left hn
    have hpos := toNat_ne_zero hn
    have first := hin 0 (by omega)
    have last := hin (n.toNat - 1) (by omega)
    rw [Nat.cast_sub (by omega)] at last
    simp only [Nat.cast_zero, zero_mul, add_zero, Nat.cast_one] at first last
    have hst : storeOk b d n.toNat (s.tRB c tl.toNat) = true := by
      simp only [storeOk, Bool.or_eq_true, Bool.and_eq_true, decide_eq_true_eq]
      exact .inr ⟨⟨⟨first.1, last.1⟩, first.2⟩, last.2⟩
    simp [hok, hst]

theorem rows_of_tcpyFault {s : State} {c : CoreId} {td n ts : BitVec 6} (hn : n ≠ 0) (h : s.tcpyFault c td n ts = none) : n.toNat ≤ 32 := by
  refine tileOk_le (s := s) (c := c) (t := td.toNat) ?_
  by_contra hbad
  exact hn (by simpa [State.tcpyFault, hbad] using h)

/-- Settles O21: both write a tile row by row. -/
theorem tileLoadsAndCopies : Obligations.TileLoadsAndCopies := by
  refine ⟨fun s c tl n sb ss off hr => ?_, fun s c td n ts hr hf => ?_⟩
  · rw [← storeAddr_eq, ← stride_eq]
    intro b d inStore h
    have hf := tldFault_none h
    by_cases hn : n = 0
    · exact runs_tile_noRows hn (runs_noRows rfl hr rfl hf (by subst hn; rfl))
    · obtain ⟨hok, hin⟩ := h.resolve_left hn
      have hfl : s.flightOf c s.cc (.tld c tl n sb ss off) = _ := if_neg (toNat_ne_zero hn)
      refine runs_rows (fun u i => u.loadRow c tl.toNat b d i) rfl hr rfl hf hfl rfl (fun _ _ => rfl) (tileOk_le hok)
        fun u i j b' hu hj hi => ?_
      dsimp only [State.loadRow]
      have hrb : u.tRB c tl.toNat = s.tRB c tl.toNat := sameRegs_tRB hu c _
      have := hin i hi
      rw [sameRegs_tRB (setRow_reg u c _ _ _), rdStore_setRow u c _ _ _ (by omega)]
  · by_cases hn : n = 0
    · exact runs_tile_noRows hn (runs_noRows rfl hr rfl hf (by subst hn; rfl))
    · have hfl : s.flightOf c s.cc (.tcpy c td n ts) = _ := if_neg (toNat_ne_zero hn)
      have h32 := rows_of_tcpyFault hn hf
      refine runs_rows (fun u i => (u.row c ts.toNat i).take (u.tRB c td.toNat)) rfl hr rfl hf hfl rfl (fun _ _ => rfl) h32
        fun u i j b _ hj hi => ?_
      rw [sameRegs_tRB (setRow_reg u c _ _ _), row_setRow_other u c b (by omega) (by omega) (.inr (by omega))]

end Sys2Proof.Machine

/-! Tile stores, register moves, and what a fault of a core leaves of memory (R62 to R65, R141, R444). -/

namespace Sys2Proof.Machine

/-! ### Memory under a fault of a core: a dump writes its area in HBM, and nothing else is written -/

@[simp] theorem settle_mem (s : State) (c : CoreId) : (s.settle c).mem = s.mem := by
  unfold State.settle
  extract_lets n s1
  have h1 : s1.mem = s.mem := modCore_mem s c _
  split
  · rfl
  · split
    · exact h1
    · rw [count_mem, count_mem, count_mem, count_mem, h1]

@[simp] theorem length_dumpHeader (s : State) (d : DumpS) (state count read : Nat) : (s.dumpHeader d state count read).length = 4096 := by
  have hascii : (ascii "KTZ-DMP1").length = 8 := by decide
  simp only [State.dumpHeader, List.length_append, length_natBytes, zeros, List.length_replicate, hascii]

theorem wrHbm_rdB_other (s : State) (pa : Nat) (b : Bytes) {a : Nat} (h : a < pa ∨ pa + b.length ≤ a) : (s.wrHbm pa b).rdB a = s.rdB a :=
  rdB_wrBytes_other b s pa a h

theorem rdB_dump (s : State) (d : Option DumpS) (a : Nat) : State.rdB { s with dump := d } a = s.rdB a := rfl

theorem dumpStart_rdB_other (s : State) (tr : Nat) (k : Option CtxId) (q : Bool) {a : Nat} (h : a < dumpArea ∨ dumpArea + 4096 ≤ a) :
    (s.dumpStart tr k q).rdB a = s.rdB a := by
  have hfreeze : ∀ (l : List CoreId) (t : State), (l.foldl (fun s c => (s.settle c).fput (rCntCtl c) fCntCtlFreeze 1) t).mem = t.mem :=
    foldl_same State.mem _ fun t c => by rw [fput_mem, settle_mem]
  have hhalt : ∀ (l : List CoreId) (t : State), (l.foldl (fun s c => (s.fput (rCoreCtl c) fCoreCtlHalt 1).askStop c .halt) t).mem = t.mem :=
    foldl_same State.mem _ fun t c => by rw [askStop_mem, fput_mem]
  unfold State.dumpStart
  rw [rdB_dump, wrHbm_rdB_other _ _ _ (by rwa [length_dumpHeader]), State.rdB, fput_mem, hhalt, hfreeze, fput_mem, fput_mem, fput_mem, State.rdB]

theorem emitFault_rdB_other (s : State) (k : CtxId) (r : EvRec) {a : Nat} (h : a < dumpArea ∨ dumpArea + 4096 ≤ a) :
    (s.emitFault k r).rdB a = s.rdB a := by
  unfold State.emitFault State.emitTrig
  split
  · rw [emit_rdB]
  · split
    · rw [emit_rdB]
    · split
      · rw [dumpStart_rdB_other _ _ _ _ h, emit_rdB]
      · rw [emit_rdB, emit_rdB]

theorem stopCtx_mem (s : State) (k code : Nat) : (s.stopCtx k code).mem = s.mem := by
  rw [State.stopCtx, foldl_same State.mem _ fun t c => by rw [askStop_mem, fput_mem], modCtx_mem]

/-- A fault of a core changes no byte outside the dump's header. -/
theorem faultCore_rdB_other (s : State) (c : CoreId) (r : EvRec) {a : Nat} (h : a < dumpArea ∨ dumpArea + 4096 ≤ a) :
    (s.faultCore c r).rdB a = s.rdB a := by
  refine (congrArg (fun m => sget memDefault m a) (stopCtx_mem _ _ _)).trans (Eq.trans ?_ (emitFault_rdB_other s (s.coreCtx c) r h))
  exact (bellFrom_rdB _ c _ _ a).trans (fput_rdB _ _ _ _ a)

/-- The window of a core lies above HBM. -/
theorem faultCore_window (s : State) (c d : CoreId) (r : EvRec) {a : Nat} (h : coreBase d ≤ a) : (s.faultCore c r).rdB a = s.rdB a :=
  faultCore_rdB_other s c r (.inr (by unfold coreBase coreSpace at h; unfold dumpArea; omega))

/-! ### Rows written to the core store -/

/-- An operation that writes row after row of `w` bytes at `at_ i`, each from what no write changes: bytes outside the rows stay, and a row reads
back where no later row meets it. -/
theorem runRows_store {c : CoreId} {f : FlightS} {at_ : Nat → Nat} {w N : Nat} (g : State → Nat → Bytes) {Ok : State → Prop}
    (hstep : ∀ (u : State) i, u.flightWrite c f i (u.flightRead c f i) = u.wrBytes (at_ i) (g u i))
    (hlen : ∀ u i, Ok u → (g u i).length = w)
    (hg : ∀ u i, Ok u → i < N → Ok (u.wrBytes (at_ i) (g u i)) ∧ ∀ j, g (u.wrBytes (at_ i) (g u i)) j = g u j) (k : Nat) :
    ∀ s i, Ok s → i + k = N →
      (∀ a, (∀ j, i ≤ j → j < N → a < at_ j ∨ at_ j + w ≤ a) → (s.runRows c f k i).rdB a = s.rdB a) ∧
      (∀ j, i ≤ j → j < N → (∀ l, j < l → l < N → at_ j + w ≤ at_ l ∨ at_ l + w ≤ at_ j) → (s.runRows c f k i).rdBytes (at_ j) w = g s j) ∧
      SameRegs s (s.runRows c f k i) := by
  induction k with
  | zero => exact fun s i _ h => ⟨fun _ _ => rfl, fun j hij hj => by omega, fun _ => rfl⟩
  | succ k ih =>
    intro s i hs h
    rw [State.runRows, hstep]
    obtain ⟨hok, hsame⟩ := hg s i hs (by omega)
    obtain ⟨hout, hrow, hregs⟩ := ih _ (i + 1) hok (by omega)
    refine ⟨fun a ha => ?_, fun j hij hj hapart => ?_, fun a => (hregs a).trans (wrBytes_reg s _ _ a)⟩
    · rw [hout a fun j hij hj => ha j (by omega) hj]
      refine rdB_wrBytes_other _ _ _ _ ?_
      rw [hlen s i hs]
      exact ha i le_rfl (by omega)
    · by_cases hji : j = i
      · subst hji
        refine (rdBytes_congr fun x h1 h2 => hout x fun l hl hlN => ?_).trans ?_
        · rcases hapart l (by omega) hlN with h | h <;> omega
        · have hback := rdBytes_wrBytes s (at_ j) (g s j)
          rwa [hlen s j hs] at hback
      · rw [hrow j (by omega) hj hapart, hsame]

/-- Rows of a stride of at least their length, up or down, lie apart. -/
theorem rows_apart {b d : Int} {w i j : Nat} (hd : (w : Int) ≤ d ∨ d ≤ -(w : Int)) (hij : i < j) (hi : 0 ≤ b + i * d) (hj : 0 ≤ b + j * d) :
    (b + i * d).toNat + w ≤ (b + j * d).toNat ∨ (b + j * d).toNat + w ≤ (b + i * d).toNat := by
  obtain ⟨m, rfl⟩ : ∃ m, j = i + 1 + m := ⟨j - (i + 1), by omega⟩
  have e : b + ((i + 1 + m : Nat) : Int) * d = b + i * d + (d + m * d) := by push_cast; ring
  rw [e] at hj ⊢
  rcases hd with hd | hd
  · have : 0 ≤ (m : Int) * d := mul_nonneg (by omega) (by omega)
    omega
  · have : (m : Int) * d ≤ 0 := mul_nonpos_of_nonneg_of_nonpos (by omega) (by omega)
    omega

theorem fmtRB_le {f : EFmt} {cols : Nat} (hpw : f.pw ≤ 8) (h : fmtColsOk f.fmt cols = true) : fmtRB f cols ≤ 128 := by
  unfold fmtColsOk at h
  unfold fmtRB
  split at h <;> simp_all <;> try omega
  have : f.pw * cols ≤ 8 * 128 := Nat.mul_le_mul hpw h.2
  omega

/-- A row of a legal shape fits in 128 bytes. -/
theorem tRB_le {s : State} {c : CoreId} {t n : Nat} (h : s.tileOk c t n = true) : s.tRB c t ≤ 128 := by
  simp only [State.tileOk, Bool.and_eq_true] at h
  exact fmtRB_le (min_le_left 8 _) h.1.1

theorem row_wrStore (s : State) (c : CoreId) (o t i : Nat) (b : Bytes) (h : o + b.length ≤ 0x200000) :
    (s.wrStore c o b).row c t i = s.row c t i :=
  rdBytes_wrBytes_other s _ _ _ _ (.inr (by unfold tileAddr; omega))

/-! ### Tile stores and the faults of tile moves -/

theorem fault_storeRange (s : State) (c : CoreId) (b d : Int) (n : Nat) :
    (s.faultCore c (s.storeRange c b d n)).fget (rCoreStatus c) fCoreStatusFault = 0x1007 :=
  fault_faultCore s c (s.storeRange c b d n) (show 0x1007 < 2 ^ 16 by decide)

theorem fault_tileShape (s : State) (c : CoreId) (ts : List Nat) :
    (s.faultCore c (s.tileShape c ts)).fget (rCoreStatus c) fCoreStatusFault = 0x1001 :=
  fault_faultCore s c (s.tileShape c ts) (show 0x1001 < 2 ^ 16 by decide)

theorem tldFault_range {s : State} {c : CoreId} {tl n : BitVec 6} {b d : Int} (hn : n ≠ 0) (hok : s.tileOk c tl.toNat n.toNat = true)
    (h : b < 0 ∨ b + (n.toNat - 1) * d < 0 ∨ 0x200000 < b + s.tRB c tl.toNat ∨ 0x200000 < b + (n.toNat - 1) * d + s.tRB c tl.toNat) :
    s.tldFault c tl n b d = some (s.storeRange c b d n.toNat) := by
  have hst : storeOk b d n.toNat (s.tRB c tl.toNat) = false := by
    rw [← Bool.not_eq_true]
    simp only [storeOk, Bool.or_eq_true, Bool.and_eq_true, decide_eq_true_eq]
    have := toNat_ne_zero hn
    omega
  unfold State.tldFault
  rw [if_neg hn, if_neg (by simp [hok]), if_pos (by simp [hst])]

theorem tldFault_shape {s : State} {c : CoreId} {tl n : BitVec 6} {b d : Int} (hn : n ≠ 0) (hok : s.tileOk c tl.toNat n.toNat = false) :
    s.tldFault c tl n b d = some (s.tileShape c [tl.toNat]) := by
  unfold State.tldFault
  rw [if_neg hn, if_pos (by simp [hok])]

/-- TST of a legal shape within the core store. -/
theorem runs_tst {s : State} {c : CoreId} {tl n : BitVec 6} {sb ss : BitVec 5} {off : BitVec 16} (hr : Ready s c) (hn : n ≠ 0)
    (hok : s.tileOk c tl.toNat n.toNat = true) (hin : ∀ i : Nat, i < n.toNat →
      0 ≤ s.storeAddr c sb off + i * s.stride c ss ∧ s.storeAddr c sb off + i * s.stride c ss + s.tRB c tl.toNat ≤ 0x200000) :
    Runs (.tst c tl n sb ss off) s fun t =>
      (∀ i : Nat, i < n.toNat → (i + 1 = n.toNat ∨ (s.tRB c tl.toNat : Int) ≤ s.stride c ss ∨ s.stride c ss ≤ -(s.tRB c tl.toNat : Int)) →
        t.rdStore c (s.storeAddr c sb off + i * s.stride c ss).toNat (s.tRB c tl.toNat) = (s.row c tl.toNat i).take (s.tRB c tl.toNat)) ∧
      (∀ a, (∀ i : Nat, i < n.toNat → a < coreBase c + (s.storeAddr c sb off + i * s.stride c ss).toNat ∨
        coreBase c + (s.storeAddr c sb off + i * s.stride c ss).toNat + s.tRB c tl.toNat ≤ a) → t.rdB a = s.rdB a) ∧
      SameRegs s t := by
  have hfl : s.flightOf c s.cc (.tst c tl n sb ss off) = _ := if_neg (toNat_ne_zero hn)
  have hrb := tRB_le hok
  have hlen : ∀ (u : State) i, SameRegs s u → (u.storeRow c tl.toNat i).length = s.tRB c tl.toNat := fun u i hu => by
    rw [State.storeRow, List.length_take, length_row, sameRegs_tRB hu, min_eq_left hrb]
  obtain ⟨hout, hrow, hregs⟩ := runRows_store (f := s.flightOf c s.cc (.tst c tl n sb ss off)) (c := c)
    (at_ := fun i => coreBase c + (s.storeAddr c sb off + i * s.stride c ss).toNat) (N := n.toNat) (fun u i => u.storeRow c tl.toNat i)
    (Ok := fun u => SameRegs s u) (fun u i => by rw [hfl]; rfl) hlen (fun u i hu hi => by
      have hregs : SameRegs u (u.wrStore c (s.storeAddr c sb off + i * s.stride c ss).toNat (u.storeRow c tl.toNat i)) := fun a => wrBytes_reg u _ _ a
      refine ⟨fun a => (hregs a).trans (hu a), fun j => ?_⟩
      have := hin i hi
      exact congrArg₂ List.take (sameRegs_tRB hregs c _) (row_wrStore u c _ _ _ _ (by rw [hlen u i hu]; omega)))
    n.toNat s 0 (fun _ => rfl) (Nat.zero_add _)
  refine runs_acts rfl hr rfl (tldFault_none (.inr ⟨hok, hin⟩)) ?_
  have he : s.runFlight c (s.flightOf c s.cc (.tst c tl n sb ss off)) = s.runRows c (s.flightOf c s.cc (.tst c tl n sb ss off)) n.toNat 0 := by
    rw [hfl]; rfl
  rw [he]
  refine ⟨fun i hi happ => ?_, fun a ha => (stepped_rdB _ c a).trans (hout a fun j _ hj => ha j hj), fun a => (stepped_reg _ c a).trans (hregs a)⟩
  refine (rdBytes_congr fun x _ _ => stepped_rdB _ c x).trans (hrow i (Nat.zero_le i) hi fun l hl hlN => ?_)
  rcases rows_apart (happ.resolve_left (by omega)) hl (hin i hi).1 (hin l hlN).1 with h | h <;> omega

/-- Settles O22: stores by their rows, faults by the check that fails. -/
theorem tileStoresAndMoveFaults : Obligations.TileStoresAndMoveFaults := by
  refine ⟨fun s c tl n sb ss off hr => ?_, fun s c tl n sb ss off hr hn => ?_⟩ <;> rw [← storeAddr_eq, ← stride_eq] <;> intro b d rb
  · intro h
    by_cases hn : n = 0
    · subst hn
      obtain ⟨t, hx, hregs, hmem⟩ := runs_noRows (i := .tst c tl 0 sb ss off) rfl hr rfl (tldFault_none (.inl rfl)) rfl
      exact ⟨t, hx, fun i hi => absurd hi (Nat.not_lt_zero i), fun a _ => hmem a, hregs⟩
    · obtain ⟨hok, hin⟩ := h.resolve_left hn
      exact runs_tst hr hn hok hin
  · intro last faults
    refine ⟨fun hok h => ?_, fun hok => ?_⟩
    · have hf := tldFault_range hn hok h
      have after : faults 0x1007 (s.faultCore c (s.storeRange c b d n.toNat)) := ⟨fault_storeRange s c b d _, fun a ha _ => faultCore_window s c c _ ha⟩
      exact ⟨runs_faults rfl hr rfl hf after, runs_faults rfl hr rfl hf after⟩
    · have hf := tldFault_shape (b := b) (d := d) hn hok
      have after : faults 0x1001 (s.faultCore c (s.tileShape c [tl.toNat])) := ⟨fault_tileShape s c _, fun a ha _ => faultCore_window s c c _ ha⟩
      exact ⟨runs_faults rfl hr rfl hf after, runs_faults rfl hr rfl hf after⟩

/-! ### Register moves -/

theorem moveFault_eq (s : State) (c : CoreId) (sb : BitVec 5) (off : BitVec 16) {w : Nat} (_ : 0 < w) : s.moveFault c sb off w =
    if 0 ≤ s.storeAddr c sb off ∧ s.storeAddr c sb off + w ≤ 0x200000 then none else some (s.storeRange c (s.storeAddr c sb off) 0 1) := by
  have h : storeOk (s.storeAddr c sb off) 0 1 w = true ↔ 0 ≤ s.storeAddr c sb off ∧ s.storeAddr c sb off + w ≤ 0x200000 := by
    simp only [storeOk, Bool.or_eq_true, Bool.and_eq_true, decide_eq_true_eq]
    omega
  unfold State.moveFault
  simp only [h]

/-- A store of a run of bytes within the core store. -/
theorem runs_stores {s : State} {c : CoreId} {i : Instr} {fault : State → Option EvRec} {eff : State → State} (o : Nat) (b : Bytes)
    {P : State → Prop} (hx : exec i s = .next (s.issueOne c i fault eff)) (hr : Ready s c) (hwf : i.wf = true) (hf : fault s = none)
    (he : eff s = s.wrStore c o b) (hP : ∀ t : State, t.rdStore c o b.length = b → MemBut (coreBase c + o) b.length s t → SameRegs s t → P t) :
    Runs i s P := by
  refine runs_acts hx hr hwf hf ?_
  rw [he]
  refine hP _ ?_ (fun a ha => ?_) fun a => ?_
  · exact (rdBytes_congr fun x _ _ => stepped_rdB _ c x).trans (rdBytes_wrBytes s _ b)
  · rw [stepped_rdB]; exact rdB_wrBytes_other b s _ a ha
  · rw [stepped_reg]; exact wrBytes_reg s _ b a

/-- Settles O23: loads write one register, stores one run of bytes, and a move that leaves the store faults. -/
theorem registerMoves : Obligations.RegisterMoves := by
  intro s c r sb v w off hr
  rw [← storeAddr_eq]
  intro b n data
  have hn : 0 < n := by positivity
  have ok {k : Nat} (hk : 0 < k) (h0 : 0 ≤ b) (h1 : b + k ≤ 0x200000) : s.moveFault c sb off k = none := by
    rw [moveFault_eq s c sb off hk, if_pos ⟨h0, h1⟩]
  have bad {k : Nat} (hk : 0 < k) (h : b < 0 ∨ 0x200000 < b + k) : s.moveFault c sb off k = some (s.storeRange c b 0 1) := by
    rw [moveFault_eq s c sb off hk, if_neg (by omega)]
  refine ⟨fun h0 h1 => ⟨?_, ?_, ?_⟩, fun h0 h1 => ⟨?_, ?_⟩, fun h => ⟨?_, ?_⟩, fun h => ⟨?_, ?_⟩⟩
  · exact runs_writes rfl hr rfl (ok hn (by omega) (by exact_mod_cast h1)) rfl
  · exact runs_writes rfl hr rfl (ok hn (by omega) (by exact_mod_cast h1)) rfl
  · refine runs_stores b.toNat (natBytes n (s.sreg c r).toNat) rfl hr rfl (ok hn (by omega) (by exact_mod_cast h1)) rfl fun t hback hmem hregs => ?_
    rw [length_natBytes] at hback hmem
    exact ⟨by rw [hback, leNat_natBytes], hmem, hregs⟩
  · have he : s.runFlight c (s.flightOf c s.cc (.vld c v sb off)) = s.setV c v (s.rdStore c b.toNat 128) := rfl
    refine runs_acts rfl hr rfl (ok (by decide) h0 h1) ?_
    rw [he]
    exact writesV_stepped (writesV_setV s c v _ (length_rdBytes _ _ _))
  · refine runs_stores b.toNat (s.vreg c v) rfl hr rfl (ok (by decide) h0 h1) rfl fun t hback hmem hregs => ?_
    rw [length_vreg] at hback hmem
    exact ⟨hback, hmem, hregs⟩
  · exact runs_faults rfl hr rfl (bad hn (by exact_mod_cast h)) (fault_storeRange s c b 0 1)
  · exact runs_faults rfl hr rfl (bad hn (by exact_mod_cast h)) (fault_storeRange s c b 0 1)
  · exact runs_faults rfl hr rfl (bad (by decide) h) (fault_storeRange s c b 0 1)
  · exact runs_faults rfl hr rfl (bad (by decide) h) (fault_storeRange s c b 0 1)

end Sys2Proof.Machine

/-! Bindings, mesh sends and descriptor launches (R37, R38, R140, R155, R191, R218). -/

namespace Sys2Proof.Machine

/-! ### What a fault of a core leaves of every core's structured state -/

theorem core_settle_keeps {β : Type} (φ : CoreS → β) (h : ∀ x n, φ { x with haltAt := n } = φ x) (s : State) (c d : CoreId) :
    φ ((s.settle c).core d) = φ (s.core d) := by
  unfold State.settle
  extract_lets n s1
  have h1 : φ (s1.core d) = φ (s.core d) := core_modCore_keeps φ s c d _ (h _ _)
  split
  · rfl
  · split
    · exact h1
    · rw [count_core, count_core, count_core, count_core, h1]

theorem core_emitFault_keeps {β : Type} (φ : CoreS → β) (hstop : ∀ x k, φ { x with stopCause := k } = φ x)
    (hhalt : ∀ x n, φ { x with haltAt := n } = φ x) (s : State) (k : CtxId) (r : EvRec) (d : CoreId) :
    φ ((s.emitFault k r).core d) = φ (s.core d) := by
  have hfreeze : ∀ (l : List CoreId) (t : State),
      φ ((l.foldl (fun s c => (s.settle c).fput (rCntCtl c) fCntCtlFreeze 1) t).core d) = φ (t.core d) :=
    foldl_same (fun t => φ (t.core d)) _ fun t c => by rw [fput_core, core_settle_keeps φ hhalt]
  have hhalts : ∀ (l : List CoreId) (t : State),
      φ ((l.foldl (fun s c => (s.fput (rCoreCtl c) fCoreCtlHalt 1).askStop c .halt) t).core d) = φ (t.core d) :=
    foldl_same (fun t => φ (t.core d)) _ fun t c => by rw [core_askStop_keeps φ hstop, fput_core]
  have hdump : ∀ (t : State) (x : Option DumpS) (pa : Nat) (b : Bytes), State.core { t.wrHbm pa b with dump := x } d = t.core d := fun t x pa b =>
    wrBytes_core t pa b d
  unfold State.emitFault State.emitTrig
  split
  · rw [emit_core]
  · split
    · rw [emit_core]
    · split
      · unfold State.dumpStart
        rw [hdump, fput_core, hhalts, hfreeze, fput_core, fput_core, fput_core, emit_core]
      · rw [emit_core, emit_core]

/-- A fault of a core changes of any core only why it stops and the cc to which its halt is counted. -/
theorem core_faultCore_keeps {β : Type} (φ : CoreS → β) (hstop : ∀ x k, φ { x with stopCause := k } = φ x)
    (hhalt : ∀ x n, φ { x with haltAt := n } = φ x) (s : State) (c : CoreId) (r : EvRec) (d : CoreId) :
    φ ((s.faultCore c r).core d) = φ (s.core d) := by
  unfold State.faultCore State.stopCtx
  rw [foldl_same (fun t => φ (t.core d)) _ fun t c => by rw [core_askStop_keeps φ hstop, fput_core]]
  rw [modCtx_core, bellFrom_core, fput_core, core_emitFault_keeps φ hstop hhalt]

/-- A single step changes of any core only its mark of a step and why it stops. -/
theorem core_stepped_keeps {β : Type} (φ : CoreS → β) (hstop : ∀ x k, φ { x with stopCause := k } = φ x)
    (hstep : ∀ x b, φ { x with step := b } = φ x) (s : State) (c d : CoreId) : φ ((s.stepped c).core d) = φ (s.core d) := by
  unfold State.stepped
  split
  · rw [core_askStop_keeps φ hstop]
    exact core_modCore_keeps φ s c d _ (hstep _ _)
  · rfl

/-- An addition to a counter changes of any core only its gating. -/
theorem core_scAdd_keeps {β : Type} (φ : CoreS → β) (h : ∀ x : CoreS, φ x.ungate = φ x) (s : State) (c d : CoreId) (k : Nat) (v : Int) :
    φ ((s.scAdd c k v).core d) = φ (s.core d) := by
  have h1 : ∀ t : State, φ ((t.modCore c CoreS.ungate).core d) = φ (t.core d) := fun t => core_modCore_keeps φ t c d _ (h _)
  unfold State.scAdd
  dsimp only
  split
  · rw [emit_core, fput_core, h1, fput_core]
  · rw [h1, fput_core]

theorem core_ctPost_keeps {β : Type} (φ : CoreS → β) (h : ∀ x : CoreS, φ x.ungate = φ x) (s : State) (c d : CoreId) (ct n : Nat) :
    φ ((s.ctPost c ct n).core d) = φ (s.core d) := by
  unfold State.ctPost
  split
  · exact core_scAdd_keeps φ h s c d _ _
  · rfl

/-! ### MBIND -/

theorem rBind_ne_rBindCnt (c : CoreId) (i j k l : Nat) : rBind c i j ≠ rBindCnt c k l := by unfold rBind rBindCnt; omega

/-- Bindings that stand together from the first register on: the next one stands behind them. -/
theorem bindNext_eq {s : State} {c : CoreId} {f : Nat} (h : ∀ j, j < s.bindings c f → s.flag (rBind c f j) fBindValid = true)
    (h4 : s.bindings c f < 4) : s.bindNext c f = s.bindings c f := by
  have hr4 : List.range 4 = [0, 1, 2, 3] := rfl
  have hr3 : List.range 3 = [0, 1, 2] := rfl
  have hr2 : List.range 2 = [0, 1] := rfl
  have hr1 : List.range 1 = [0] := rfl
  have h0 := h 0; have h1 := h 1; have h2 := h 2
  clear h
  simp only [State.bindings, State.bindNext, hr4, hr3, hr2, hr1, List.find?_cons, List.find?_nil, List.all_cons, List.all_nil, List.filter_cons, List.filter_nil,
    Nat.add_zero, Nat.zero_add, Nat.reduceAdd, Nat.reduceSub, Nat.sub_zero] at h0 h1 h2 h4 ⊢
  generalize s.flag (rBind c f 0) fBindValid = b0 at *
  generalize s.flag (rBind c f 1) fBindValid = b1 at *
  generalize s.flag (rBind c f 2) fBindValid = b2 at *
  generalize s.flag (rBind c f 3) fBindValid = b3 at *
  revert b0 b1 b2 b3
  decide

/-- The binding that an MBIND opens, field by field. -/
theorem bindOpen_fields (s : State) (c : CoreId) (f : Nat) {ct n : Nat} (base stride : Nat) (hct : ct < 64) (hn : n < 2 ^ 16) :
    (s.bindOpen c f ct base stride n).flag (rBind c f (s.bindNext c f)) fBindValid = true ∧
    (s.bindOpen c f ct base stride n).fget (rBind c f (s.bindNext c f)) fBindCt = ct ∧
    (s.bindOpen c f ct base stride n).fget (rBindCnt c f (s.bindNext c f)) fBindCntRows = n ∧
    (s.bindOpen c f ct base stride n).fget (rBindCnt c f (s.bindNext c f)) fBindCntWritten = 0 := by
  simp only [State.flag, State.fget, State.bindOpen, reg_setReg_same, reg_setReg_other _ _ (rBind_ne_rBindCnt c f _ f _)]
  refine ⟨?_, ?_, ?_, ?_⟩
  · rw [Fd.get_put _ _ _ (by decide) (by decide)]; rfl
  · rw [Fd.get_put_below _ _ _ _ (by decide) (by decide) (by decide) (by decide), Fd.get_put _ _ _ (by decide) (by decide)]
    exact Nat.mod_eq_of_lt hct
  · rw [Fd.get_put _ _ _ (by decide) (by decide)]; exact Nat.mod_eq_of_lt hn
  · rw [Fd.get_put_above _ _ _ _ (by decide) (by decide) (by decide) (by decide)]; rfl

theorem regsBut_bindOpen (s : State) (c : CoreId) (f ct base stride n : Nat) :
    RegsBut (fun a => a = rBind c f (s.bindNext c f) ∨ a = rBindCnt c f (s.bindNext c f)) s (s.bindOpen c f ct base stride n) := fun a ha => by
  obtain ⟨hb, hc⟩ := not_or.1 ha
  rw [State.bindOpen, reg_setReg_other _ _ hc, reg_setReg_other _ _ hb]

theorem runs_mbind {s : State} {c : CoreId} {flow ct : BitVec 6} {sb ss sn : BitVec 5} (hr : Ready s c) (hct : ctOk ct = true)
    (hn : s.bindRows c sn ≠ 0) (hf : s.mbindFault c flow sb ss sn = none) (h4 : s.bindings c flow.toNat ≠ 4) :
    Runs (.mbind c flow ct sb ss sn) s fun t =>
      t.flag (rBind c flow.toNat (s.bindNext c flow.toNat)) fBindValid = true ∧ t.fget (rBind c flow.toNat (s.bindNext c flow.toNat)) fBindCt = ct.toNat ∧
      t.fget (rBindCnt c flow.toNat (s.bindNext c flow.toNat)) fBindCntRows = s.bindRows c sn ∧
      t.fget (rBindCnt c flow.toNat (s.bindNext c flow.toNat)) fBindCntWritten = 0 ∧
      RegsBut (fun a => a = rBind c flow.toNat (s.bindNext c flow.toNat) ∨ a = rBindCnt c flow.toNat (s.bindNext c flow.toNat)) s t ∧ SameMem s t := by
  refine runs_acts rfl hr hct hf ?_
  have hopen := bindOpen_fields s c flow.toNat (s.sreg c sb).toNat ((s.sreg c ss).toNat % 2 ^ 32) ct.isLt (Nat.mod_lt (s.sreg c sn).toNat (by decide))
  obtain ⟨hvalid, hctv, hrows, hwritten⟩ := hopen
  rw [if_neg fun h => h4 h.2, effMbind, if_neg hn]
  refine ⟨?_, ?_, ?_, ?_, fun a ha => ?_, fun a => ?_⟩
  · rw [stepped_flag, modCore_flag]; exact hvalid
  · rw [stepped_fget, modCore_fget]; exact hctv
  · rw [stepped_fget, modCore_fget]; exact hrows
  · rw [stepped_fget, modCore_fget]; exact hwritten
  · rw [stepped_reg, modCore_reg]; exact regsBut_bindOpen s c _ _ _ _ _ a ha
  · rw [stepped_rdB, modCore_rdB, State.bindOpen, setReg_rdB, setReg_rdB]

/-! ### MSND -/

/-- What a row leaves of the core's sends, with registers and memory as they were. -/
def SendsAre (l : List SendS) (c : CoreId) (s t : State) : Prop := (t.core c).sends = l ∧ SameRegs s t ∧ SameMem s t

theorem sends_stepped (s : State) (c d : CoreId) : ((s.stepped c).core d).sends = (s.core d).sends :=
  core_stepped_keeps CoreS.sends (fun _ _ => rfl) (fun _ _ => rfl) s c d

theorem sendsAre_stepped {s t : State} {c : CoreId} {l : List SendS} (h : SendsAre l c s t) : SendsAre l c s (t.stepped c) := by
  obtain ⟨hl, hregs, hmem⟩ := h
  exact ⟨(sends_stepped t c c).trans hl, fun a => (stepped_reg t c a).trans (hregs a), fun a => (stepped_rdB t c a).trans (hmem a)⟩

theorem any_flow_iff {l : List SendS} {flow : BitVec 6} : (l.any fun x => x.flow == flow) = true ↔ ∃ x ∈ l, x.flow = flow := by simp

theorem runs_msnd {s : State} {c : CoreId} {ts n flow ct : BitVec 6} {l : List SendS} (hr : Ready s c) (hct : ctOk ct = true)
    (hf : s.msndFault c ts n flow = none) (he : SendsAre l c s (if n ≠ 0 ∧ ((s.core c).sends.any fun x => x.flow == flow) then s
      else if n = 0 then s.ctPost c ct.toNat 0 else s.sendStart c ts n flow ct)) :
    Runs (.msnd c ts n flow ct) s fun t => (t.core c).sends = l ∧ SameRegs s t ∧ SameMem s t :=
  runs_acts rfl hr hct hf (sendsAre_stepped he)

/-! ### MSND_COMPLETE -/

theorem dropFirst_cons {α : Type} (p : α → Bool) (a : α) (l : List α) : dropFirst p (a :: l) = if p a then l else a :: dropFirst p l := by
  unfold dropFirst
  rw [takeFirst]
  split_ifs
  · rfl
  · cases takeFirst p l <;> rfl

theorem dropFirst_eq_erase {α : Type} [BEq α] (l : List α) (x : α) : dropFirst (· == x) l = l.erase x := by
  induction l with
  | nil => rfl
  | cons y l ih => rw [dropFirst_cons, List.erase_cons, ih]

/-- The rows that are still to leave touch neither cores nor memory, and of the registers only the counters of beats that leave the grid. -/
def LeavesOut (s t : State) : Prop := t.cores = s.cores ∧ t.cc = s.cc ∧ RegsBut (fun a => ∃ h e, a = rEdgeBeatsOut h e) s t ∧ SameMem s t

theorem LeavesOut.refl (s : State) : LeavesOut s s := ⟨rfl, rfl, fun _ _ => rfl, fun _ => rfl⟩

theorem LeavesOut.trans {s t u : State} (h1 : LeavesOut s t) (h2 : LeavesOut t u) : LeavesOut s u := by
  obtain ⟨hc1, hcc1, hr1, hm1⟩ := h1
  obtain ⟨hc2, hcc2, hr2, hm2⟩ := h2
  exact ⟨hc2.trans hc1, hcc2.trans hcc1, fun a ha => (hr2 a ha).trans (hr1 a ha), fun a => (hm2 a).trans (hm1 a)⟩

theorem leavesOut_foldl {α : Type} {f : State → α → State} (hf : ∀ s x, LeavesOut s (f s x)) (l : List α) : ∀ s, LeavesOut s (l.foldl f s) := by
  induction l with
  | nil => exact LeavesOut.refl
  | cons x l ih => exact fun s => (hf s x).trans (ih _)

theorem leavesOut_addBeat (s : State) (dest inp due src : Nat) (data : Bytes) : LeavesOut s (s.addBeat dest inp due src data) :=
  ⟨rfl, rfl, fun _ _ => rfl, fun _ => rfl⟩

theorem leavesOut_laneOut (s : State) (c : CoreId) (l t src : Nat) (data : Bytes) : LeavesOut s (s.laneOut c l t src data) := by
  unfold State.laneOut
  split
  · exact leavesOut_addBeat s _ _ _ _ _
  · split
    · exact ⟨count_cores s _ _, count_cc s _ _, fun a ha => reg_count_other s _ fun h => ha ⟨_, _, h⟩, fun a => count_rdB s _ _ a⟩
    · exact LeavesOut.refl s

theorem leavesOut_beatOut (s : State) (c : CoreId) (o t flow src : Nat) (data : Bytes) : LeavesOut s (s.beatOut c o t flow src data) := by
  unfold State.beatOut
  split
  · exact leavesOut_addBeat s _ _ _ _ _
  · split
    · exact leavesOut_laneOut s c _ _ _ _
    · split
      · split
        · exact LeavesOut.refl s
        · exact leavesOut_addBeat s _ _ _ _ _
      · split
        · exact leavesOut_laneOut s c _ _ _ _
        · exact LeavesOut.refl s

theorem leavesOut_sendRow (s : State) (c : CoreId) (f t : Nat) (data : Bytes) : LeavesOut s (s.sendRow c f t data) := by
  unfold State.sendRow
  extract_lets s1 ln
  have h1 : LeavesOut s s1 := leavesOut_foldl (fun u _ => leavesOut_beatOut u c _ _ _ _ _) _ s
  split
  · exact h1.trans (leavesOut_laneOut s1 c _ _ _ _)
  · exact h1

theorem leavesOut_sendRest (s : State) (c : CoreId) (x : SendS) : LeavesOut s (s.sendRest c x) :=
  leavesOut_foldl (fun u _ => leavesOut_sendRow u c _ _ _) _ s

/-! #### A core updated twice -/

theorem filter_sinsert_self {α : Type} (k : Nat) (v : α) (m : List (Nat × α)) :
    (sinsert k v m).filter (fun e => e.1 != k) = m.filter fun e => e.1 != k := by
  induction m with
  | nil => simp [sinsert]
  | cons e m ih =>
    rw [sinsert]
    split_ifs
    · rw [List.filter_cons_of_neg (by simp)]
    · simp only [List.filter_cons, ih]

theorem sset_sset {α : Type} [DecidableEq α] (d : Nat → α) (m : List (Nat × α)) (k : Nat) (v w : α) :
    sset d (sset d m k v) k w = sset d m k w := by
  have h : (sset d m k v).filter (fun e => e.1 != k) = m.filter fun e => e.1 != k := by
    rw [sset]
    split_ifs
    · simp
    · rw [filter_sinsert_self]; simp
  rw [sset, h, sset]

theorem modCore_modCore (s : State) (c : CoreId) (f g : CoreS → CoreS) : (s.modCore c f).modCore c g = s.modCore c fun x => g (f x) := by
  rw [State.modCore, core_modCore_same]
  simp only [State.modCore, State.setCore, sset_sset]

theorem closings_eq_self {s : State} {c : CoreId} {t : Nat} (h : ∀ p ∈ (s.core c).closing, t < p.1) : s.closings c t = s := by
  have hdue : ((s.core c).closing.filter fun p => decide (p.1 ≤ t)) = [] := by
    rw [List.filter_eq_nil_iff]
    exact fun p hp => by simpa using h p hp
  simp only [State.closings, hdue, List.foldl_nil, if_true]

/-- The post of a send, with no post and no closing of the core due before it, is the one that is applied. -/
theorem posts_of_sendEnd {s : State} {c : CoreId} (x : SendS) (hposts : ∀ p ∈ (s.core c).posts, s.cc < p.1)
    (hclosing : ∀ p ∈ (s.core c).closing, s.cc < p.1) : (s.sendEnd c x s.cc).posts c s.cc =
      (s.modCore c fun y => { y with sends := y.sends.erase x }).ctPost c x.ct.toNat x.n.toNat := by
  have hend : s.sendEnd c x s.cc =
      s.modCore c fun y => { y with sends := y.sends.erase x, posts := y.posts ++ [(s.cc, x.ct.toNat, x.n.toNat)] } := by
    simp only [State.sendEnd, State.addPost, modCore_modCore, dropFirst_eq_erase]
  have hnone : ((s.core c).posts.filter fun p => decide (p.1 ≤ s.cc)) = [] := by
    rw [List.filter_eq_nil_iff]
    exact fun p hp => by simpa using hposts p hp
  have hall : ((s.core c).posts.filter fun p => !decide (p.1 ≤ s.cc)) = (s.core c).posts := by
    rw [List.filter_eq_self]
    exact fun p hp => by simpa using hposts p hp
  have hkept : (s.sendEnd c x s.cc).modCore c (fun y => { y with posts := y.posts.filter fun p => !decide (p.1 ≤ s.cc) }) =
      s.modCore c fun y => { y with sends := y.sends.erase x } := by
    rw [hend, modCore_modCore, State.modCore, State.modCore]
    simp [List.filter_append, hall]
  unfold State.posts
  dsimp only
  rw [hkept, hend, core_modCore_same]
  simp only [List.filter_append, hnone, List.filter_cons, List.filter_nil, Nat.le_refl, decide_true, if_true, List.nil_append, List.foldl_cons,
    List.foldl_nil, reduceCtorEq, if_false]
  refine closings_eq_self fun p hp => hclosing p ?_
  rwa [core_ctPost_keeps CoreS.closing (fun _ => rfl), core_modCore_same] at hp

/-- MSND_COMPLETE of the flow's oldest send. -/
theorem runs_msndComplete {s : State} {c : CoreId} {flow : BitVec 6} {x : SendS} (hx : (s.core c).sends.find? (fun y => y.flow == flow) = some x)
    (hposts : ∀ p ∈ (s.core c).posts, s.cc < p.1) (hclosing : ∀ p ∈ (s.core c).closing, s.cc < p.1) {P : State → Prop}
    (hP : ∀ u : State, LeavesOut s u → P ((u.modCore c fun y => { y with sends := y.sends.erase x }).ctPost c x.ct.toNat x.n.toNat)) :
    Runs (.msndComplete c flow) s P := by
  have hout := leavesOut_sendRest s c x
  obtain ⟨hcores, hcc, -, -⟩ := hout
  have hcore : (s.sendRest c x).core c = s.core c := congrArg (fun m => sget _ m c.idx) hcores
  refine ⟨((s.sendRest c x).sendEnd c x s.cc).posts c s.cc, ?_, ?_⟩
  · show execMsndComplete c flow s = _
    simp only [execMsndComplete, hx]
  · rw [← hcc, posts_of_sendEnd x (by rwa [hcore, hcc]) (by rwa [hcore, hcc])]
    exact hP _ (leavesOut_sendRest s c x)

theorem rSc_ne_rEdgeBeatsOut (c : CoreId) {k : Nat} (hk : k < 48) : ¬ ∃ h e, rSc c k = rEdgeBeatsOut h e := by
  have := c.hall.isLt; have := c.row.isLt; have := c.col.isLt
  rintro ⟨h, e, he⟩
  unfold rSc coreBase coreSpace rEdgeBeatsOut hallBase hallSpace at he
  omega

theorem sat32_add_natCast (v n : Nat) : sat32 ((v : Int) + n) = min (v + n) (2 ^ 32 - 1) := by
  unfold sat32; split_ifs <;> omega

/-- Settles O25: MBIND by the registers it writes, MSND by the send it starts, MSND_COMPLETE by the post that it applies. -/
theorem bindingsAndSends : Obligations.BindingsAndSends := by
  refine ⟨fun s c flow ct sb ss sn hr hct => ?_, fun s c ts n flow ct hr hct => ⟨?_, ?_, ?_, ?_⟩, fun s c flow => ⟨fun hnone => ?_, ?_⟩⟩
  · intro n q hn hf
    refine ⟨fun h h4 => bindNext_eq h h4, fun h4 => runs_mbind hr hct hn hf (by omega), fun h4 => runs_acts rfl hr hct hf ?_⟩
    rw [if_pos ⟨hn, h4⟩]
    exact ⟨fun a => stepped_reg s c a, fun a => stepped_rdB s c a⟩
  · intro hn hf hfree
    obtain ⟨l, hl⟩ : ∃ l, l = (s.core c).sends ++ [⟨flow, ct, n, (List.range n.toNat).map (s.row c ts.toNat), 0,
      (sendSlots s c flow.toNat n.toNat (s.slot + 2)).map fun u => s.cc + (u - s.slot), ts.toNat⟩] := ⟨_, rfl⟩
    have hrow : Runs (.msnd c ts n flow ct) s fun t => (t.core c).sends = l ∧ SameRegs s t ∧ SameMem s t := by
      refine runs_msnd hr hct hf ?_
      rw [if_neg (by simpa using fun _ => hfree), if_neg hn, State.sendStart, if_neg hn]
      exact ⟨by rw [core_modCore_same, hl], fun a => modCore_reg s c _ a, fun a => modCore_rdB s c _ a⟩
    obtain ⟨t, hx, hsends, hregs, hmem⟩ := hrow
    exact ⟨t, hx, ⟨_, hsends.trans hl, rfl, rfl, rfl, rfl, rfl⟩, hregs, hmem⟩
  · intro hn hf hbusy
    refine runs_msnd hr hct hf ?_
    rw [if_pos ⟨hn, any_flow_iff.2 hbusy⟩]
    exact ⟨rfl, fun _ => rfl, fun _ => rfl⟩
  · intro hn
    refine runs_msnd hr hct (if_pos hn) ?_
    rw [if_neg fun h => h.1 hn, if_pos hn]
    exact ⟨core_ctPost_keeps CoreS.sends (fun _ => rfl) s c c _ _, sameRegs_ctPost_zero s c _, fun a => ctPost_rdB s c _ _ a⟩
  · intro hn hslot
    refine runs_faults rfl hr hct (r := coreRec c 0x1005) ((if_neg hn).trans (if_pos (by simp [hslot]))) ⟨?_, ?_⟩
    · exact fault_faultCore s c (coreRec c 0x1005) (show 0x1005 < 2 ^ 16 by decide)
    · exact core_faultCore_keeps CoreS.sends (fun _ _ => rfl) (fun _ _ => rfl) s c _ c
  · have hfind : (s.core c).sends.find? (fun y => y.flow == flow) = none := by
      rw [List.find?_eq_none]
      exact fun x hx => by simpa using hnone x hx
    show execMsndComplete c flow s = _
    simp only [execMsndComplete, hfind]
  · intro x hx hposts hclosing
    refine ⟨fun hct => runs_msndComplete hx hposts hclosing fun u hu => ?_, fun hct => runs_msndComplete hx hposts hclosing fun u hu => ?_⟩ <;>
      obtain ⟨hcores, -, hregs, hmem⟩ := hu <;> have hcore : u.core c = s.core c := congrArg (fun m => sget _ m c.idx) hcores
    · rw [State.ctPost, if_pos hct]
      refine ⟨?_, ?_, ?_, fun a ha => ?_, fun a => ?_⟩
      · rw [core_scAdd_keeps CoreS.sends (fun _ => rfl), core_modCore_same, hcore]
      · rw [core_scAdd_keeps CoreS.posts (fun _ => rfl), core_modCore_same, hcore]
      · rw [scAdd_value _ c _ hct, modCore_fget, State.fget, hregs _ (rSc_ne_rEdgeBeatsOut c hct), sat32_add_natCast, State.fget]
      · obtain ⟨hsc, hsat, hedge⟩ := by simpa only [not_or] using ha
        rw [scAdd_reg_other _ c _ _ hsc hsat, modCore_reg, hregs a hedge]
      · rw [scAdd_rdB, modCore_rdB, hmem]
    · rw [State.ctPost, if_neg (by omega)]
      exact ⟨by rw [core_modCore_same, hcore], fun a ha => (modCore_reg u c _ a).trans (hregs a ha), fun a => (modCore_rdB u c _ a).trans (hmem a)⟩

/-! ### SLNCH -/

theorem rStrmEntry_ne_rStrmProgress (c : CoreId) (j k : Nat) : rStrmEntry c j ≠ rStrmProgress c k := by unfold rStrmEntry rStrmProgress; omega
theorem rStrmEntry_ne_rStrmStatus (c : CoreId) (k : Nat) : rStrmEntry c k ≠ rStrmStatus c := by unfold rStrmEntry rStrmStatus; omega
theorem rStrmProgress_ne_rStrmStatus (c : CoreId) (k : Nat) : rStrmProgress c k ≠ rStrmStatus c := by unfold rStrmProgress rStrmStatus; omega

theorem slnchFault_none {s : State} {c : CoreId} {sb : BitVec 5} {off : BitVec 16} (h : s.storeAddr c sb off % 64 = 0) (h0 : 0 ≤ s.storeAddr c sb off)
    (h1 : s.storeAddr c sb off + 64 ≤ 0x200000) : s.slnchFault c sb off = none := if_pos ⟨h, h0, h1⟩

/-- Settles O26: the entry, its progress and the count of live descriptors are what SLNCH writes. -/
theorem descriptorLaunches : Obligations.DescriptorLaunches := by
  intro s c sb off hr
  rw [← storeAddr_eq]
  intro a k
  refine ⟨fun h h0 h1 hk => runs_acts rfl hr rfl (slnchFault_none h h0 h1) ?_, fun h h0 h1 hk => runs_acts rfl hr rfl (slnchFault_none h h0 h1) ?_,
    fun h => runs_faults rfl hr rfl (if_neg (by omega)) (fault_faultCore s c (s.streamDesc c) (show 0x100D < 2 ^ 16 by decide))⟩
  · have hk64 : s.descLive c ≠ 64 := Nat.ne_of_lt hk
    have hlive : s.descLive c = k := rfl
    rw [if_neg hk64, effSlnch, hlive]
    refine ⟨?_, ?_, ?_, ?_, fun x hx => ?_, fun x => ?_⟩
    · rw [stepped_flag, modCore_flag, State.flag, fget_fput_other _ _ _ _ (rStrmEntry_ne_rStrmStatus c _), State.fget,
        reg_setReg_other _ _ (rStrmEntry_ne_rStrmProgress c _ _), reg_setReg_same, Fd.get_put _ _ _ (by decide) (by decide)]
      rfl
    · rw [stepped_fget, modCore_fget, fget_fput_other _ _ _ _ (rStrmEntry_ne_rStrmStatus c _), State.fget,
        reg_setReg_other _ _ (rStrmEntry_ne_rStrmProgress c _ _), reg_setReg_same,
        Fd.get_put_below _ _ _ _ (by decide) (by decide) (by decide) (by decide), Fd.get_put _ _ _ (by decide) (by decide)]
      have hlt : a.toNat / 64 < 2 ^ 15 := by omega
      have hdiv : a.toNat / 64 = (a / 64).toNat := by omega
      exact (Nat.mod_eq_of_lt hlt).trans hdiv
    · rw [stepped_reg, modCore_reg, reg_fput_other _ _ _ (rStrmProgress_ne_rStrmStatus c _), reg_setReg_same]
    · rw [stepped_fget, modCore_fget, fget_fput_same _ _ _ _ (by decide) (by decide)]
      exact Nat.mod_eq_of_lt (show k + 1 < 2 ^ 7 by omega)
    · obtain ⟨hentry, hprog, hstat⟩ := by simpa only [not_or] using hx
      rw [stepped_reg, modCore_reg, reg_fput_other _ _ _ hstat, reg_setReg_other _ _ hprog, reg_setReg_other _ _ hentry]
    · rw [stepped_rdB, modCore_rdB, fput_rdB, setReg_rdB, setReg_rdB]
  · have hk64 : s.descLive c = 64 := hk
    rw [if_pos hk64]
    exact ⟨fun x => stepped_reg s c x, fun x => stepped_rdB s c x⟩

end Sys2Proof.Machine

/-! ## Every operation keeps the canonical form: the front die, the groups and the links -/

namespace Sys2Proof.Machine

/- Many short proofs: one after another they need far less memory than on many threads. -/
set_option Elab.async false

/-- The canonical form; and where a list of sessions is named, those sessions are open. -/
def State.canonFor (ses : Option (List Session)) (s : State) : Prop := s.canon ∧ ∀ l ∈ ses, s.host.sessions = l

section
variable {ses : Option (List Session)}

/-! ### The canonical form under an update, a choice, a fold and a command -/

theorem canon_update {s : State} {pending poison now cc slot cores ctxs hbm links groups sem bell bellServed beats pond ebc hearth log dump
    snapPend inval sent free} : State.canonFor ses ⟨pending, s.regs, s.mem, poison, s.flash, now, cc, slot, cores, ctxs, hbm, links, groups, sem, bell,
      bellServed, beats, pond, s.host, ebc, hearth, log, dump, snapPend, inval, sent, free⟩ ↔ s.canonFor ses := Iff.rfl

/-- The host's side may change: its sessions must stay only where they are named. -/
theorem canon_host {s : State} {pending poison now cc slot cores ctxs hbm links groups sem bell bellServed beats pond host ebc hearth log dump
    snapPend inval sent free} (hs : s.canonFor ses) (h : ∀ l ∈ ses, s.host.sessions = l → host.sessions = l) : State.canonFor ses
      ⟨pending, s.regs, s.mem, poison, s.flash, now, cc, slot, cores, ctxs, hbm, links, groups, sem, bell, bellServed, beats, pond, host, ebc, hearth,
      log, dump, snapPend, inval, sent, free⟩ := ⟨hs.1, fun l hl => h l hl (hs.2 l hl)⟩

/-- Where no sessions are named, the canonical form is all there is. -/
theorem canonFor_none {s : State} : s.canonFor none ↔ s.canon := and_iff_left fun _ h => (Option.some_ne_none _ h.symm).elim

theorem canon_host_none {s : State} {pending poison now cc slot cores ctxs hbm links groups sem bell bellServed beats pond host ebc hearth log dump
    snapPend inval sent free} : State.canonFor none ⟨pending, s.regs, s.mem, poison, s.flash, now, cc, slot, cores, ctxs, hbm, links, groups, sem, bell,
      bellServed, beats, pond, host, ebc, hearth, log, dump, snapPend, inval, sent, free⟩ ↔ s.canonFor none :=
  ⟨fun h => canonFor_none.2 h.1, fun h => canonFor_none.2 h.1⟩

theorem canon_foldl {α : Type} {f : State → α → State} (hf : ∀ t x, t.canonFor ses → (f t x).canonFor ses) :
    ∀ (l : List α) {s : State}, s.canonFor ses → (l.foldl f s).canonFor ses
  | [], _, h => h
  | x :: l, _, h => canon_foldl hf l (hf _ x h)

/-- The command answers a next state, which is in canonical form if `s` is. -/
def Keeps (ses : Option (List Session)) (s : State) (r : Res) : Prop := ∃ t, r = .next t ∧ (s.canonFor ses → t.canonFor ses)

theorem keeps_next {s t : State} (h : s.canonFor ses → t.canonFor ses) : Keeps ses s (.next t) := ⟨t, rfl, h⟩

theorem canon_ite {p : Prop} [Decidable p] {a b : State} (ha : a.canonFor ses) (hb : b.canonFor ses) : (if p then a else b).canonFor ses := by
  split_ifs
  · exact ha
  · exact hb

theorem canon_fst_ite {α : Type} {p : Prop} [Decidable p] {a b : State × α} (ha : a.1.canonFor ses) (hb : b.1.canonFor ses) :
    (if p then a else b).1.canonFor ses := by
  split_ifs
  · exact ha
  · exact hb

/-! ### Registers, memory, records and stops -/

theorem canon_setReg {s : State} (a : Nat) (v : Word) (hs : s.canonFor ses) : (s.setReg a v).canonFor ses := ⟨⟨swf_sset _ _ _ _ hs.1.1, hs.1.2⟩, hs.2⟩

theorem canon_fput {s : State} (a : Nat) (f : Fd) (v : Nat) (hs : s.canonFor ses) : (s.fput a f v).canonFor ses := canon_setReg _ _ hs

theorem canon_count {s : State} (a n : Nat) (hs : s.canonFor ses) : (s.count a n).canonFor ses := canon_setReg _ _ hs

theorem canon_resetRegs {s : State} (keep : Nat → Bool) (hs : s.canonFor ses) : (s.resetRegs keep).canonFor ses := ⟨⟨swf_filter _ _ _ hs.1.1, hs.1.2⟩, hs.2⟩

theorem canon_wrB {s : State} (a : Nat) (b : Byte) (hs : s.canonFor ses) : (s.wrB a b).canonFor ses := ⟨⟨hs.1.1, swf_sset _ _ _ _ hs.1.2.1, hs.1.2.2⟩, hs.2⟩

theorem canon_wrBytes : ∀ {s : State} (a : Nat) (b : Bytes), s.canonFor ses → (s.wrBytes a b).canonFor ses
  | _, _, [], hs => hs
  | _, a, y :: b, hs => canon_wrBytes (a + 1) b (canon_wrB a y hs)

theorem canon_wrHbm {s : State} (pa : Nat) (b : Bytes) (hs : s.canonFor ses) : (s.wrHbm pa b).canonFor ses := canon_wrBytes _ _ hs

theorem canon_poisonLine {s : State} (l : Nat) (hs : s.canonFor ses) : (s.poisonLine l).canonFor ses := by
  grind [State.poisonLine, canon_update]

theorem canon_flashWr : ∀ {s : State} (a : Nat) (b : Bytes), s.canonFor ses → (s.flashWr a b).canonFor ses
  | _, _, [], hs => hs
  | _, a, _ :: b, hs => canon_flashWr (a + 1) b ⟨⟨hs.1.1, hs.1.2.1, swf_sset _ _ _ _ hs.1.2.2⟩, hs.2⟩

theorem canon_flashErase {s : State} (a n : Nat) (hs : s.canonFor ses) : (s.flashErase a n).canonFor ses := ⟨⟨hs.1.1, hs.1.2.1, swf_flashErase s a n hs.1.2.2⟩, hs.2⟩

theorem canon_fresh {s : State} (hs : s.canonFor ses) : (s.fresh).2.canonFor ses := hs

theorem canon_setCore {s : State} (c : CoreId) (v : CoreS) (hs : s.canonFor ses) : (s.setCore c v).canonFor ses := hs

theorem canon_modCore {s : State} (c : CoreId) (f : CoreS → CoreS) (hs : s.canonFor ses) : (s.modCore c f).canonFor ses := canon_setCore _ _ hs

theorem canon_setCtx {s : State} (k : Nat) (v : CtxS) (hs : s.canonFor ses) : (s.setCtx k v).canonFor ses := hs

theorem canon_modCtx {s : State} (k : Nat) (f : CtxS → CtxS) (hs : s.canonFor ses) : (s.modCtx k f).canonFor ses := canon_setCtx _ _ hs

theorem canon_setLink {s : State} (n : Nat) (v : LinkS) (hs : s.canonFor ses) : (s.setLink n v).canonFor ses := hs

theorem canon_modLink {s : State} (n : Nat) (f : LinkS → LinkS) (hs : s.canonFor ses) : (s.modLink n f).canonFor ses := canon_setLink _ _ hs

theorem canon_setGroup {s : State} (g : Nat) (v : GroupS) (hs : s.canonFor ses) : (s.setGroup g v).canonFor ses := hs

theorem canon_modGroup {s : State} (g : Nat) (f : GroupS → GroupS) (hs : s.canonFor ses) : (s.modGroup g f).canonFor ses := canon_setGroup _ _ hs

theorem canon_setStack {s : State} (k : Nat) (v : StackS) (hs : s.canonFor ses) : (s.setStack k v).canonFor ses := hs

theorem canon_modStack {s : State} (k : Nat) (f : StackS → StackS) (hs : s.canonFor ses) : (s.modStack k f).canonFor ses := canon_setStack _ _ hs

theorem canon_emit {s : State} (r : EvRec) (hs : s.canonFor ses) : (s.emit r).canonFor ses := hs

theorem canon_notify {s : State} (kind p : Nat) (hs : s.canonFor ses) : (s.notify kind p).canonFor ses := by
  unfold State.notify
  split_ifs
  · exact canon_host hs fun _ _ => id
  · exact hs
  · exact canon_emit _ (canon_host hs fun _ _ => id)

theorem canon_askStop {s : State} (c : CoreId) (cause : StopCause) (hs : s.canonFor ses) : (s.askStop c cause).canonFor ses := canon_modCore _ _ hs

theorem canon_settle {s : State} (c : CoreId) (hs : s.canonFor ses) : (s.settle c).canonFor ses := by
  grind [State.settle, canon_modCore, canon_count, canon_update]

theorem canon_dumpStart {s : State} (trigger : Nat) (ctx : Option CtxId) (req : Bool) (hs : s.canonFor ses) : (s.dumpStart trigger ctx req).canonFor ses := by
  unfold State.dumpStart
  refine canon_update.2 (canon_wrHbm _ _ (canon_fput _ _ _ ?_))
  refine canon_foldl (fun t c ht => canon_askStop _ _ (canon_fput _ _ _ ht)) _ ?_
  refine canon_foldl (fun t c ht => canon_fput _ _ _ (canon_settle _ ht)) _ ?_
  exact canon_fput _ _ _ (canon_fput _ _ _ (canon_fput _ _ _ hs))

theorem canon_emitTrig {s : State} (en : Fd) (r : EvRec) (hs : s.canonFor ses) : (s.emitTrig en r).canonFor ses := by
  grind [State.emitTrig, canon_emit, canon_dumpStart, canon_update]

theorem canon_stopCtx {s : State} (k code : Nat) (hs : s.canonFor ses) : (s.stopCtx k code).canonFor ses := by
  grind [State.stopCtx, canon_askStop, canon_fput, canon_modCtx, canon_foldl, canon_update]

theorem canon_emitFault {s : State} (k : CtxId) (r : EvRec) (hs : s.canonFor ses) : (s.emitFault k r).canonFor ses := by
  grind [State.emitFault, canon_emit, canon_emitTrig]

theorem canon_faultCtx {s : State} (k : CtxId) (r : EvRec) (hs : s.canonFor ses) : (s.faultCtx k r).canonFor ses := by
  grind [State.faultCtx, canon_stopCtx, canon_emitFault]

theorem canon_bellAt {s : State} (x y inp : Nat) (hdr : BitVec 32) (pay : List (BitVec 32)) (hs : s.canonFor ses) : (s.bellAt x y inp hdr pay).canonFor ses := hs

theorem canon_bellFrom {s : State} (c : CoreId) (hdr : BitVec 32) (pay : List (BitVec 32)) (hs : s.canonFor ses) : (s.bellFrom c hdr pay).canonFor ses := by
  grind [State.bellFrom, canon_count, canon_bellAt]

theorem canon_faultCore {s : State} (c : CoreId) (r : EvRec) (hs : s.canonFor ses) : (s.faultCore c r).canonFor ses := by
  grind [State.faultCore, canon_stopCtx, canon_bellFrom, canon_fput, canon_emitFault]

theorem canon_showFault {s : State} (k code : Nat) (hs : s.canonFor ses) : (s.showFault k code).canonFor ses := by
  grind [State.showFault, canon_fput, canon_foldl]

theorem canon_faultHall {s : State} (h : Nat) (k : CtxId) (r : EvRec) (hs : s.canonFor ses) : (s.faultHall h k r).canonFor ses := by
  grind [State.faultHall, canon_stopCtx, canon_bellAt, canon_emitFault]

theorem canon_bellDie {s : State} (hall row : Nat) (hdr : BitVec 32) (pay : List (BitVec 32)) (hs : s.canonFor ses) : (s.bellDie hall row hdr pay).canonFor ses :=
    canon_bellAt _ _ _ _ _ hs

theorem canon_bellToCore {s : State} (type ctx : Nat) (c : CoreId) (arg : Nat) (pay : List (BitVec 32)) (hs : s.canonFor ses) : (s.bellToCore type ctx c arg
    pay).canonFor ses := canon_bellDie _ _ _ _ hs

theorem canon_bellTake {s : State} (p : BellMsg → Bool) (hs : s.canonFor ses) : (s.bellTake p).canonFor ses := hs

/-! ### Control messages of a link -/

theorem canon_holdEnd {s : State} (n : Nat) (hs : s.canonFor ses) : (s.holdEnd n).canonFor ses := by
  grind [State.holdEnd, canon_count]

theorem canon_ctlSend {s : State} (n : Nat) (m : CtlMsg) (hs : s.canonFor ses) : (s.ctlSend n m).canonFor ses := by
  cases m <;> grind [State.ctlSend, canon_modLink, canon_count]

theorem canon_ctlRoute {s : State} (unit dst : Nat) (m : CtlMsg) (hs : s.canonFor ses) : (s.ctlRoute unit dst m).canonFor ses := by
  grind [State.ctlRoute, canon_ctlSend, canon_emit]

theorem canon_setHeld {s : State} (n f : Nat) (held : Bool) (hs : s.canonFor ses) : (s.setHeld n f held).canonFor ses := by
  grind [State.setHeld, canon_setLink, canon_modLink, canon_holdEnd, canon_update]

theorem canon_ctxClear {s : State} (c : CoreId) (hs : s.canonFor ses) : (s.ctxClear c).canonFor ses := canon_resetRegs _ hs

theorem canon_onImage {s : State} (k : Nat) (i : SavedS) {f : State → State} (hf : ∀ t, t.canonFor ses → (f t).canonFor ses) (hs : s.canonFor ses) :
    (s.onImage k i f).canonFor ses := by
  grind [State.onImage, canon_setReg, canon_setCore, canon_ctxClear, canon_modCtx, canon_foldl]

theorem canon_onImages {s : State} (k : Nat) {f : CoreId → State → State} (hf : ∀ c t, t.canonFor ses → (f c t).canonFor ses) (hs : s.canonFor ses) :
    (s.onImages k f).canonFor ses :=
  canon_foldl (fun _ i ht => canon_onImage _ i (hf i.core) ht) _ hs

/-! ### The semaphore unit -/

theorem canon_scAdd {s : State} (c : CoreId) (k : Nat) (d : ℤ) (hs : s.canonFor ses) : (s.scAdd c k d).canonFor ses := by
  grind [State.scAdd, canon_modCore, canon_fput, canon_emit, canon_update]

theorem canon_scSet {s : State} (c : CoreId) (k v : Nat) (hs : s.canonFor ses) : (s.scSet c k v).canonFor ses := by
  grind [State.scSet, canon_modCore, canon_fput]

theorem canon_ctPost {s : State} (c : CoreId) (ct n : Nat) (hs : s.canonFor ses) : (s.ctPost c ct n).canonFor ses := by
  grind [State.ctPost, canon_scAdd]

theorem canon_emptySettle {s : State} (hs : s.canonFor ses) : (s.emptySettle).canonFor ses := by
  grind [State.emptySettle, canon_update]

theorem canon_sendWake {s : State} (c : CoreId) (k : CtxId) (orphan : Bool) (hs : s.canonFor ses) : (s.sendWake c k orphan).canonFor ses := canon_bellToCore _ _ _
    _ _ hs

theorem canon_fireWatch {s : State} (w : WatchS) (orphan : Bool) (hs : s.canonFor ses) : (s.fireWatch w orphan).canonFor ses := by
  grind [State.fireWatch, canon_count, canon_bellToCore, canon_ctlRoute]

theorem canon_examine (p : Nat) : ∀ (l : List SemEntry) {s : State}, s.canonFor ses → (examine p l s).1.canonFor ses
  | [], _, hs => hs
  | e :: l, _, hs => by
    have ih := fun {t} => canon_examine p l (s := t)
    cases e <;> grind [examine, canon_fput, canon_sendWake, canon_fireWatch]

theorem canon_reexamine {s : State} (p : Nat) (hs : s.canonFor ses) : (s.reexamine p).canonFor ses := by
  grind [State.reexamine, canon_examine, canon_emptySettle, canon_update]

theorem canon_semApply {s : State} (p : Nat) (d : ℤ) (by_ : Poster) (k : CtxId) (hs : s.canonFor ses) : (s.semApply p d by_ k).canonFor ses := by
  grind [State.semApply, canon_fput, canon_emit, canon_reexamine, canon_update]

theorem canon_semCount {s : State} (remote : Bool) (hs : s.canonFor ses) : (s.semCount remote).canonFor ses := by
  grind [State.semCount, canon_count]

theorem canon_semRefuse {s : State} (by_ : Poster) (k : CtxId) (vsem : Nat) (q : SemReq) (kind : Nat) (hs : s.canonFor ses) :
    (s.semRefuse by_ k vsem q kind).canonFor ses := by
  cases by_ <;> grind [State.semRefuse, canon_count, canon_emit, canon_showFault, canon_faultCtx]

theorem canon_semAddReq {s : State} (by_ : Poster) (k : CtxId) (vsem : Nat) (d : Int) (hs : s.canonFor ses) : (s.semAddReq by_ k vsem d).canonFor ses := by
  have hcount := fun r => canon_semCount (s := s) r hs
  have hdrop := fun r => canon_count rOrphanDropCnt 1 (hcount r)
  unfold State.semAddReq
  extract_lets remote s1 s2
  split
  · exact canon_semRefuse _ _ _ _ _ (hcount _)
  · split_ifs
    · split
      · exact canon_sendWake _ _ _ (hdrop _)
      · exact hdrop _
    · exact canon_semApply _ _ _ _ (hcount _)

theorem canon_semRegister {s : State} (e : SemEntry) (hs : s.canonFor ses) : (s.semRegister e).canonFor ses := hs

theorem canon_semWaitReq {s : State} (c : CoreId) (k : CtxId) (equal consume : Bool) (vsem : BitVec 14) (value : BitVec 32) (hs : s.canonFor ses) :
    (s.semWaitReq c k equal consume vsem value).canonFor ses := by
  grind [State.semWaitReq, canon_count, canon_semRefuse, canon_sendWake, canon_emptySettle, canon_fput, canon_semRegister]

theorem canon_semWatchReq {s : State} (k : CtxId) (equal : Bool) (vsem : BitVec 14) (value : BitVec 32) (to_ : WatchTo) (hs : s.canonFor ses) :
    (s.semWatchReq k equal vsem value to_).canonFor ses := by
  cases to_ <;> grind [State.semWatchReq, canon_semCount, canon_semRefuse, canon_fireWatch, canon_emit, canon_semRegister]

theorem canon_orphanSem {s : State} (k p : Nat) (hs : s.canonFor ses) : (s.orphanSem k p).canonFor ses := by
  grind [State.orphanSem, canon_sendWake, canon_fireWatch, canon_emit, canon_count, canon_fput, canon_foldl, canon_update]

theorem canon_orphanCtx {s : State} (k : Nat) (hs : s.canonFor ses) : (s.orphanCtx k).canonFor ses := by
  grind [State.orphanCtx, canon_orphanSem, canon_foldl]

theorem canon_orphanAll {s : State} (hs : s.canonFor ses) : (s.orphanAll).canonFor ses := by
  grind [State.orphanAll, canon_orphanCtx, canon_foldl]

theorem canon_unorphanCtx {s : State} (k : Nat) (hs : s.canonFor ses) : (s.unorphanCtx k).canonFor ses := by
  grind [State.unorphanCtx, canon_fput, canon_foldl]

theorem canon_freeSems {s : State} (k : Nat) (hs : s.canonFor ses) : (s.freeSems k).canonFor ses := by
  grind [State.freeSems, canon_emptySettle, canon_fput, canon_foldl]

theorem canon_dropEntries {s : State} (k : Nat) (hs : s.canonFor ses) : (s.dropEntries k).canonFor ses := hs

theorem canon_unitPost {s : State} (k : CtxId) (vsem n : Nat) (hs : s.canonFor ses) : (s.unitPost k vsem n).canonFor ses := canon_semAddReq _ _ _ _ hs

theorem canon_bellTaken {s : State} (q : MsgKey) (hs : s.canonFor ses) : (s.bellTaken q).canonFor ses := by
  grind [State.bellTaken, canon_bellTake]

theorem keeps_delivered {s : State} (q : MsgKey) {f : State → State} (hf : ∀ t, t.canonFor ses → (f t).canonFor ses) : Keeps ses s (s.delivered q f) := by
  grind [State.delivered, canon_bellTaken, keeps_next]

theorem keeps_execSemAdd (src : Option CoreId) (k : CtxId) (vsem : BitVec 14) (addend : BitVec 32) {s : State} :
    Keeps ses s (execSemAdd src k vsem addend s) := by
  cases src with
  | none => exact keeps_next (canon_semAddReq _ _ _ _)
  | some c => exact keeps_delivered _ fun t => canon_semAddReq _ _ _ _

theorem keeps_execSemWait (c : CoreId) (k : CtxId) (mode : BitVec 2) (consume : Bool) (vsem : BitVec 14) (value : BitVec 32) {s : State} : Keeps ses s
    (execSemWait c k mode consume vsem value s) := by
  grind [execSemWait, keeps_delivered, canon_semWaitReq, keeps_next]

theorem keeps_execSemWatch (c : CoreId) (k : CtxId) (cond : BitVec 2) (sc : BitVec 6) (vsem : BitVec 14) (value : BitVec 32) {s : State} : Keeps ses s
    (execSemWatch c k cond sc vsem value s) := by
  grind [execSemWatch, keeps_delivered, canon_semWatchReq, keeps_next]

theorem keeps_execSemValueWrite (r : Requester) (p : BitVec 14) (v : Word) {s : State} : Keeps ses s (execSemValueWrite r p v s) := by
  unfold execSemValueWrite
  split
  · exact keeps_next fun hs => canon_reexamine _ (canon_setReg _ _ hs)
  · exact keeps_next id

theorem canon_bellReturn {s : State} (c : CoreId) (type : Nat) (k : CtxId) (arg : Nat) (pay : List (BitVec 32)) (hs : s.canonFor ses) : (s.bellReturn c type
    k arg pay).canonFor ses := canon_bellAt _ _ _ _ _ hs

theorem canon_orphanStop {s : State} (c : CoreId) (k : CtxId) (hs : s.canonFor ses) : (s.orphanStop c k).canonFor ses := by
  grind [State.orphanStop, canon_stopCtx, canon_fput]

theorem canon_wakeCore {s : State} (c : CoreId) (k : CtxId) (orphan : Bool) (hs : s.canonFor ses) : (s.wakeCore c k orphan).canonFor ses := by
  grind [State.wakeCore, canon_modCore, canon_fput, canon_orphanStop, canon_update]

theorem canon_fireCore {s : State} (c : CoreId) (k : CtxId) (sc : Nat) (orphan : Bool) (hs : s.canonFor ses) : (s.fireCore c k sc orphan).canonFor ses := by
  grind [State.fireCore, canon_fput, canon_scAdd, canon_orphanStop]

theorem keeps_execWake (c : CoreId) (k : CtxId) (orphan : Bool) {s : State} : Keeps ses s (execWake c k orphan s) := by
  grind [execWake, keeps_delivered, canon_wakeCore, canon_bellReturn, keeps_next]

theorem keeps_execWatchFire (c : CoreId) (k : CtxId) (sc : BitVec 6) (orphan : Bool) {s : State} : Keeps ses s (execWatchFire c k sc orphan s) := by
  grind [execWatchFire, keeps_delivered, canon_fireCore, canon_bellReturn, keeps_next]

theorem keeps_execCntPost (c : CoreId) (k : CtxId) (sc : BitVec 6) (count : BitVec 32) {s : State} : Keeps ses s (execCntPost c k sc count s) := by
  grind [execCntPost, keeps_delivered, canon_ctPost, canon_bellReturn, keeps_next]

theorem keeps_execReturnedMessage (c : CoreId) (k : CtxId) (m : RetMsg) {s : State} : Keeps ses s (execReturnedMessage c k m s) := by
  grind [execReturnedMessage, keeps_delivered, canon_onImage, canon_wakeCore, canon_fireCore, canon_ctPost, canon_bellToCore, keeps_next]

/-! ### Translation -/

theorem canon_wrParts : ∀ {s : State} (l : List (Nat × Nat)) (b : Bytes), s.canonFor ses → (s.wrParts l b).canonFor ses
  | _, [], _, hs => hs
  | _, q :: l, b, hs => canon_wrParts l (b.drop q.2) (canon_wrHbm q.1 (b.take q.2) hs)

theorem canon_vWrite {s : State} (h k va : Nat) (b : Bytes) {t : State} (hs : s.canonFor ses) (ht : s.vWrite h k va b = .ok t) : t.canonFor ses := by
  grind [State.vWrite, canon_wrParts]

theorem canon_unitPageFault {s : State} (h : Nat) (k : CtxId) (unit sub va acc kind : Nat) (hs : s.canonFor ses) : (s.unitPageFault h k unit sub va acc
    kind).canonFor ses := by
  grind [State.unitPageFault, canon_faultCtx, canon_setReg, canon_notify, canon_count]

/-! ### Contexts -/

theorem canon_setSlot {s : State} (i : Nat) (v : SlotS) (hs : s.canonFor ses) : (s.setSlot i v).canonFor ses := hs

theorem canon_slotReady {s : State} (i : Nat) (hs : s.canonFor ses) : (s.slotReady i).canonFor ses := by
  grind [State.slotReady, canon_setSlot, canon_emptySettle, canon_update]

theorem canon_topUp (n i : Nat) {s : State} (hs : s.canonFor ses) : (topUp n i s).canonFor ses := by
  induction n generalizing i s with
  | zero => exact hs
  | succ n ih => grind [topUp, canon_setSlot]

theorem canon_topUpReserve {s : State} (hs : s.canonFor ses) : (s.topUpReserve).canonFor ses := canon_topUp _ _ hs

theorem canon_setClip {s : State} (i : Nat) (c : Option ClipS) (hs : s.canonFor ses) : (s.setClip i c).canonFor ses := hs

theorem canon_consAdvance (n k : Nat) {s : State} (hs : s.canonFor ses) : (consAdvance n k s).canonFor ses := by
  induction n generalizing s with
  | zero => exact hs
  | succ n ih => grind [consAdvance, canon_fput, canon_update]

theorem canon_retire {s : State} (k : Nat) (num : BitVec 32) (hs : s.canonFor ses) : (s.retire k num).canonFor ses := by
  grind [State.retire, canon_consAdvance, canon_count, canon_update]

theorem canon_clipCheck {s : State} (i : Nat) (hs : s.canonFor ses) : (s.clipCheck i).canonFor ses := by
  grind [State.clipCheck, canon_retire, canon_setClip]

theorem canon_sampleDone {s : State} (i : Nat) (hs : s.canonFor ses) : (s.sampleDone i).canonFor ses := by
  grind [State.sampleDone, canon_clipCheck, canon_setClip, canon_update]

theorem canon_engineFree {s : State} (e : Nat) (hs : s.canonFor ses) : (s.engineFree e).canonFor ses := canon_fput _ _ _ hs

theorem canon_enginesDrop {s : State} (hs : s.canonFor ses) : (s.enginesDrop).canonFor ses := by
  grind [State.enginesDrop, canon_sampleDone, canon_engineFree, canon_foldl]

theorem canon_pondCommit {s : State} (hs : s.canonFor ses) : (s.pondCommit).canonFor ses := by
  grind [State.pondCommit, canon_setSlot, canon_slotReady, canon_fput, canon_topUpReserve, canon_foldl, canon_update]

theorem canon_pondRollback {s : State} (hs : s.canonFor ses) : (s.pondRollback).canonFor ses := by
  grind [State.pondRollback, canon_slotReady, canon_setSlot, canon_foldl, canon_update]

theorem canon_pfcSend {s : State} (quanta : Nat) (hs : s.canonFor ses) : (s.pfcSend quanta).canonFor ses := by
  grind [State.pfcSend, canon_count, canon_update]

theorem canon_pfcCheck {s : State} (hs : s.canonFor ses) : (s.pfcCheck).canonFor ses := by
  grind [State.pfcCheck, canon_pfcSend, canon_update]

theorem canon_pondLeave {s : State} (hs : s.canonFor ses) : (s.pondLeave).canonFor ses := by
  grind [State.pondLeave, canon_setSlot, canon_fput, canon_pfcCheck, canon_foldl, canon_update]

theorem canon_fullEnd {s : State} (hs : s.canonFor ses) : (s.fullEnd).canonFor ses := by
  grind [State.fullEnd, canon_update]

theorem canon_pondEmpty {s : State} (hs : s.canonFor ses) : (s.pondEmpty).canonFor ses := by
  grind [State.pondEmpty, canon_fput, canon_enginesDrop, canon_emptySettle, canon_fullEnd, canon_foldl, canon_update]

theorem canon_pondEnable {s : State} (hs : s.canonFor ses) : (s.pondEnable).canonFor ses := by
  grind [State.pondEnable, canon_setReg, canon_pondEmpty, canon_topUpReserve, canon_update]

theorem canon_pondEnd {s : State} (k : Nat) (hs : s.canonFor ses) : (s.pondEnd k).canonFor ses := by
  grind [State.pondEnd, canon_fput, canon_pfcCheck, canon_pondEmpty, canon_fullEnd, canon_update]

theorem canon_idleCheck {s : State} (hs : s.canonFor ses) : (s.idleCheck).canonFor ses := by
  grind [State.idleCheck, canon_fput, canon_foldl, canon_update]

theorem canon_startClocks {s : State} (hs : s.canonFor ses) : (s.startClocks).canonFor ses := by
  grind [State.startClocks, canon_update]

theorem canon_celPeak {s : State} (c : CoreId) (hs : s.canonFor ses) : (s.celPeak c).canonFor ses := by
  grind [State.celPeak, canon_fput]

theorem canon_descsGone {s : State} (c : CoreId) (p : DescS → Bool) (hs : s.canonFor ses) : (s.descsGone c p).canonFor ses := by
  grind [State.descsGone, canon_modCore, canon_update]

theorem canon_ctxBlank {s : State} (c : CoreId) (hs : s.canonFor ses) : (s.ctxBlank c).canonFor ses := by
  grind [State.ctxBlank, canon_modCore, canon_ctxClear, canon_descsGone, canon_update]

theorem canon_leaveCore {s : State} (c : CoreId) (hs : s.canonFor ses) : (s.leaveCore c).canonFor ses := canon_ctxBlank _ hs

theorem canon_runGoes {s : State} (g : Nat) (on : Bool) (hs : s.canonFor ses) : (s.runGoes g on).canonFor ses := by
  grind [State.runGoes, canon_fput, canon_modGroup, canon_update]

theorem canon_dropTags {s : State} (k : Nat) (hs : s.canonFor ses) : (s.dropTags k).canonFor ses := hs

theorem canon_clearDiscard {s : State} (k : Nat) (hs : s.canonFor ses) : (s.clearDiscard k).canonFor ses := by
  grind [State.clearDiscard, canon_modLink, canon_foldl, canon_update]

theorem canon_ctxEnd {s : State} (k : Nat) (hs : s.canonFor ses) : (s.ctxEnd k).canonFor ses := by
  have hunits := canon_clearDiscard k (canon_pondEnd k (canon_dropTags k (canon_freeSems k (canon_dropEntries k (canon_orphanCtx k hs)))))
  have hcores := canon_foldl (fun t c ht => canon_leaveCore c ht) (s.activeCores k) hunits
  exact canon_idleCheck (canon_setCtx k _ (canon_foldl (fun t g ht => canon_setGroup g GroupS.fresh ht) (s.ctxGroups k) hcores))

theorem canon_releaseCtx {s : State} (k : Nat) (hs : s.canonFor ses) : (s.releaseCtx k).canonFor ses := by
  unfold State.releaseCtx
  extract_lets cores s1 s2 s3
  have h1 : s1.canonFor ses := canon_foldl (fun t c ht => by grind [canon_modCtx, canon_leaveCore, canon_modCore]) _ hs
  have h3 : s3.canonFor ses := canon_foldl (fun t g ht => canon_modGroup _ _ ht) _ (canon_modCtx _ _ h1)
  exact canon_ite (canon_notify _ _ (canon_ctxEnd _ h3)) h3

theorem canon_tryRelease {s : State} (k : Nat) (hs : s.canonFor ses) : (s.tryRelease k).canonFor ses := by
  grind [State.tryRelease, canon_releaseCtx]

/-! ### Plans of the Quern -/

theorem canon_gSend {s : State} (g r t : Nat) (m : GMsg) (hs : s.canonFor ses) : (s.gSend g r t m).canonFor ses := canon_ctlSend _ _ hs

theorem canon_gSendBoth {s : State} (g t arg value : Nat) (hs : s.canonFor ses) : (s.gSendBoth g t arg value).canonFor ses := by
  grind [State.gSendBoth, canon_gSend]

theorem canon_meetTag {s : State} (n g t : Nat) (hs : s.canonFor ses) : (s.meetTag n g t).canonFor ses := by
  grind [State.meetTag, canon_modGroup, canon_update]

theorem canon_planFail {s : State} (n g t : Nat) (e : PlanErr) (hs : s.canonFor ses) : (s.planFail n g t e).canonFor ses := by
  cases e
  · exact canon_faultCtx _ _ hs
  · exact canon_unitPageFault _ _ _ _ _ _ _ hs
  · exact canon_faultCtx _ _ hs

theorem canon_egTake {s : State} (n f k : Nat) (hs : s.canonFor ses) : (s.egTake n f k).canonFor ses := by
  grind [State.egTake, canon_modLink, canon_update]

theorem canon_upTake {s : State} (n beats : Nat) (hs : s.canonFor ses) : (s.upTake n beats).canonFor ses := canon_egTake _ _ _ hs

theorem canon_egPush {s : State} (n f : Nat) (b : Bytes) (hs : s.canonFor ses) : (s.egPush n f b).canonFor ses := canon_modLink _ _ hs

theorem canon_wirePump {s : State} (n : Nat) (hs : s.canonFor ses) : (s.wirePump n).canonFor ses := by
  grind [State.wirePump, canon_modLink, canon_egPush, canon_update]

theorem canon_wireSend {s : State} (n : Nat) (h : QHdr) (data : Bytes) (last : optParam (Option Nat) none) (hs : s.canonFor ses) : (s.wireSend n h data
    last).canonFor ses := by
  grind [State.wireSend, canon_wirePump, canon_modLink, canon_count, canon_update]

/-! ### Exchanged records -/

theorem canon_readyTake {s : State} (j : Nat) (hs : s.canonFor ses) : (s.readyTake j).canonFor ses := canon_emptySettle hs

theorem canon_setUsed {s : State} (i beats : Nat) (hs : s.canonFor ses) : (s.setUsed i beats).canonFor ses := hs

theorem canon_pondUnmapped {s : State} (va : Nat) (hs : s.canonFor ses) : (s.pondUnmapped va).canonFor ses := by
  grind [State.pondUnmapped, canon_emit, canon_count]

theorem canon_sendPick {s : State} (n g t d j : Nat) (hs : s.canonFor ses) : (s.sendPick n g t d j).canonFor ses := by
  unfold State.sendPick
  extract_lets k base mid void len u jj slot s1 beats
  have hvoid {t : State} (ht : t.canonFor ses) : (void t).canonFor ses := canon_count _ _ (canon_count _ _ (canon_wireSend n _ _ none ht))
  have h1 : s1.canonFor ses := canon_readyTake jj hs
  split_ifs
  · exact hvoid hs
  · split
    · exact canon_count _ _ (canon_foldl (fun t r ht => canon_wireSend n r.1 r.2 none ht) _ (canon_setSlot _ _ h1))
    · exact hvoid (canon_pfcCheck (canon_setSlot _ _ h1))
    · exact hvoid (canon_pfcCheck (canon_pondUnmapped _ (canon_setSlot _ _ h1)))

theorem canon_startRound {s : State} (g : Nat) (hs : s.canonFor ses) : (s.startRound g).canonFor ses := by
  unfold State.startRound
  split_ifs
  · exact hs
  · dsimp only
    split
    · exact hs
    · split
      · exact canon_planFail _ _ _ _ hs
      · split
        · exact canon_meetTag _ _ _ hs
        · exact canon_foldl (fun t j ht => canon_sendPick _ _ _ _ _ ht) _ (canon_update.2 (canon_meetTag _ _ _ hs))

/-! ### Steps of the Quern -/

theorem canon_modBucket {s : State} (g t : Nat) (f : BucketS → BucketS) (hs : s.canonFor ses) : (s.modBucket g t f).canonFor ses := by
  grind [State.modBucket, canon_modGroup, canon_meetTag, canon_update]

theorem canon_retainFree {s : State} (g t : Nat) (hs : s.canonFor ses) : (s.retainFree g t).canonFor ses := canon_modGroup _ _ hs

theorem canon_postTags {s : State} (g n : Nat) (ct : PlanE → Nat) (ts : List Nat) (hs : s.canonFor ses) : (s.postTags g n ct ts).canonFor ses := by
  grind [State.postTags, canon_unitPost, canon_foldl]

theorem canon_postVerdict {s : State} (g status : Nat) (gval : Word) (k : BitVec 32) (bad : Nat) (gp : Word) (hs : s.canonFor ses) : (s.postVerdict g status
    gval k bad gp).canonFor ses := by
  grind [State.postVerdict, canon_vWrite, canon_unitPageFault, canon_unitPost, canon_modGroup, canon_postTags, canon_update]

theorem canon_checkVerdict {s : State} (g : Nat) (hs : s.canonFor ses) : (s.checkVerdict g).canonFor ses := by
  grind [State.checkVerdict, canon_postVerdict]

theorem canon_verdictAct {s : State} (g : Nat) (gval : Word) (bad : Nat) (hs : s.canonFor ses) : (s.verdictAct g gval bad).canonFor ses := by
  grind [State.verdictAct, canon_postVerdict, canon_emit]

theorem canon_normTry {s : State} (g : Nat) (hs : s.canonFor ses) : (s.normTry g).canonFor ses := by
  grind [State.normTry, canon_modGroup, canon_verdictAct, canon_gSend, canon_update]

theorem canon_checkStepDone {s : State} (g : Nat) (hs : s.canonFor ses) : (s.checkStepDone g).canonFor ses := by
  grind [State.checkStepDone, canon_unitPost, canon_modGroup, canon_update]

theorem canon_quernProgress {s : State} (g : Nat) (hs : s.canonFor ses) : (s.quernProgress g).canonFor ses := by
  grind [State.quernProgress, canon_checkStepDone, canon_normTry, canon_checkVerdict]

theorem canon_quernStart {s : State} (g : Nat) (hs : s.canonFor ses) : (s.quernStart g).canonFor ses := by
  grind [State.quernStart, canon_quernProgress, canon_modGroup, canon_update]

/-! ### Groups -/

theorem canon_setPhase {s : State} (g p : Nat) (hs : s.canonFor ses) : (s.setPhase g p).canonFor ses := canon_fput _ _ _ hs

theorem canon_quernReset {s : State} (g : Nat) (hs : s.canonFor ses) : (s.quernReset g).canonFor ses := by
  grind [State.quernReset, canon_modLink, canon_modGroup, canon_foldl, canon_update]

theorem canon_haltLink {s : State} (k n : Nat) (hs : s.canonFor ses) : (s.haltLink k n).canonFor ses := by
  grind [State.haltLink, canon_holdEnd, canon_modLink, canon_update]

theorem canon_gPut {s : State} (g va : Nat) (b : Bytes) (hs : s.canonFor ses) : (s.gPut g va b).1.canonFor ses := by
  grind [State.gPut, canon_vWrite, canon_unitPageFault]

theorem canon_gWrite {s : State} (g va : Nat) (b : Bytes) (hs : s.canonFor ses) : (s.gWrite g va b).canonFor ses := canon_gPut _ _ _ hs

theorem canon_gCopy {s : State} (g src dst n : Nat) (hs : s.canonFor ses) : (s.gCopy g src dst n).1.canonFor ses := by
  grind [State.gCopy, canon_unitPageFault, canon_faultCtx, canon_gPut]

theorem canon_vCopy {s : State} (g src dst n : Nat) (hs : s.canonFor ses) : (s.vCopy g src dst n).canonFor ses := canon_gCopy _ _ _ _ hs

theorem canon_areaHeader {s : State} (g area step bytes pos : Nat) (valid : Bool) (hs : s.canonFor ses) : (s.areaHeader g area step bytes pos valid).canonFor ses
    := canon_gWrite _ _ _ hs

theorem canon_stillQuiet {s : State} (hs : s.canonFor ses) : (s.stillQuiet).canonFor ses := by
  grind [State.stillQuiet, canon_modLink, canon_foldl, canon_update]

theorem canon_stillDrop {s : State} (g : Nat) (hs : s.canonFor ses) : (s.stillDrop g).canonFor ses := by
  grind [State.stillDrop, canon_modGroup, canon_areaHeader, canon_stillQuiet, canon_update]

theorem canon_cellarEmpty {s : State} (c : CoreId) (hs : s.canonFor ses) : (s.cellarEmpty c).canonFor ses := by
  grind [State.cellarEmpty, canon_celPeak, canon_fput, canon_setReg]

theorem canon_clearEntries {s : State} (c : CoreId) (hs : s.canonFor ses) : (s.clearEntries c).canonFor ses := by
  grind [State.clearEntries, canon_fput, canon_resetRegs]

theorem canon_haltCore {s : State} (c : CoreId) (hs : s.canonFor ses) : (s.haltCore c).canonFor ses := by
  grind [State.haltCore, canon_modCore, canon_cellarEmpty, canon_clearEntries, canon_descsGone, canon_fput, canon_update]

theorem canon_haltGroup {s : State} (g step : Nat) (hs : s.canonFor ses) : (s.haltGroup g step).canonFor ses := by
  unfold State.haltGroup
  extract_lets k s0 s1 s2 s3 s3' s4
  have h1 : s1.canonFor ses := canon_foldl (fun t c ht => canon_haltCore c ht) _ (canon_modCtx _ _ (canon_stillDrop g hs))
  have h3 : s3.canonFor ses := canon_foldl (fun t n ht => canon_haltLink _ n ht) _ (canon_dropTags _ (canon_dropEntries _ (canon_update.2 h1)))
  have h3' : s3'.canonFor ses := canon_runGoes g false (canon_onImages _ (fun c t ht => canon_haltCore c ht) h3)
  exact canon_modGroup _ _ (canon_setReg _ _ (canon_ite (canon_pondRollback h3') h3'))

theorem canon_takeSnap {s : State} (g : Nat) (hs : s.canonFor ses) : (s.takeSnap g).canonFor ses := canon_modGroup _ _ hs

theorem canon_clearSync {s : State} (c : CoreId) (hs : s.canonFor ses) : (s.clearSync c).canonFor ses := by
  grind [State.clearSync, canon_modCore, canon_fput, canon_update]

theorem canon_restoreCore {s : State} (sn : SnapS) (c : CoreId) (hs : s.canonFor ses) : (s.restoreCore sn c).canonFor ses := by
  grind [State.restoreCore, canon_setReg, canon_resetRegs, canon_modCore, canon_clearSync, canon_foldl, canon_update]

theorem canon_restoreSnap {s : State} (g : Nat) (hs : s.canonFor ses) : (s.restoreSnap g).canonFor ses := by
  grind [State.restoreSnap, canon_onImages, canon_restoreCore, canon_emptySettle, canon_fput, canon_foldl]

theorem canon_recoverCore {s : State} (i : ImgCore) (hs : s.canonFor ses) : (s.recoverCore i).canonFor ses :=
  canon_modCore _ _ (canon_clearSync _ (canon_cellarEmpty _ (canon_setReg _ _ (canon_resetRegs _ hs))))

theorem canon_spillSend {s : State} (g newN c : Nat) (tags : List Nat) (hs : s.canonFor ses) : (s.spillSend g newN c tags).canonFor ses := by
  grind [State.spillSend, canon_wireSend, canon_faultCtx, canon_unitPageFault, canon_foldl]

theorem canon_restoreRecovery {s : State} (g : Nat) (r : RecoverS) (hs : s.canonFor ses) : (s.restoreRecovery g r).canonFor ses := by
  unfold State.restoreRecovery
  extract_lets k c newN kib used tags mine gen s1 sent s2 gained s3 s4 mb s5 cores s6
  have h1 : s1.canonFor ses := canon_vCopy _ _ _ _ hs
  have h2 : s2.canonFor ses := canon_ite (canon_foldl (fun t _ ht => canon_vCopy _ _ _ _ ht) _ (canon_spillSend _ _ _ _ h1)) h1
  have h5 : s5.canonFor ses := canon_gWrite _ _ _ (canon_fput _ _ _ (canon_gWrite _ _ _ h2))
  have h6 : s6.canonFor ses := by
    refine canon_onImages _ (fun c t ht => ?_) (canon_foldl (fun t _ ht => canon_recoverCore _ ht) _ h5)
    split
    · exact canon_recoverCore _ ht
    · exact ht
  exact canon_emptySettle (canon_foldl (fun t _ ht => canon_fput _ _ _ ht) _ h6)

theorem canon_restartGroup {s : State} (g : Nat) (hs : s.canonFor ses) : (s.restartGroup g).canonFor ses := by
  unfold State.restartGroup
  extract_lets k s1 s2 s3 s4 s5
  have h1 : s1.canonFor ses := canon_foldl (fun t c ht => canon_modCore _ _ (canon_fput _ _ _ (canon_fput _ _ _ (canon_fput _ _ _ (canon_fput _ _ _
    (canon_settle _ ht)))))) _ hs
  have h3 : s3.canonFor ses := canon_modGroup _ _ (canon_setPhase _ _ (canon_modCtx _ _ (canon_unorphanCtx _ h1)))
  have h4 : s4.canonFor ses := by
    unfold s4
    split_ifs
    · exact canon_modGroup _ _ (canon_emit _ h3)
    · exact h3
  exact canon_quernStart _ (canon_startRound _ (canon_startClocks (canon_runGoes _ _ (canon_modGroup _ _ h4))))

theorem canon_trickleBusy {s : State} (g : Nat) (hs : s.canonFor ses) : (s.trickleBusy g).canonFor ses := canon_fput _ _ _ hs

theorem canon_trickleNext {s : State} (g : Nat) (hs : s.canonFor ses) : (s.trickleNext g).canonFor ses := by
  grind [State.trickleNext, canon_trickleBusy, canon_modGroup, canon_update]

theorem canon_ckptTaken {s : State} (g : Nat) (st : StillS) (hs : s.canonFor ses) : (s.ckptTaken g st).canonFor ses := by
  grind [State.ckptTaken, canon_modGroup, canon_fput, canon_update]

theorem canon_stillLeave {s : State} (g : Nat) (hs : s.canonFor ses) : (s.stillLeave g).canonFor ses :=
  canon_tryRelease _ (canon_quernStart _ (canon_startRound _ (canon_trickleNext _ (canon_stillQuiet (canon_modGroup _ _ (canon_setPhase _ _ hs))))))

theorem canon_stillRelease {s : State} (g : Nat) (hs : s.canonFor ses) : (s.stillRelease g).canonFor ses := by
  grind [State.stillRelease, canon_stillLeave, canon_ckptTaken, canon_fput]

theorem canon_stillAbandon {s : State} (g : Nat) (hs : s.canonFor ses) : (s.stillAbandon g).canonFor ses := by
  grind [State.stillAbandon, canon_modGroup, canon_stillLeave, canon_stillDrop, canon_update]

theorem canon_phaseConclude {s : State} (g p : Nat) (hs : s.canonFor ses) : (s.phaseConclude g p).canonFor ses := by
  unfold State.phaseConclude
  split <;> grind [canon_modGroup, canon_gSend, canon_restartGroup, canon_stillRelease, canon_emit]

theorem canon_phaseTry {s : State} (g p : Nat) (hs : s.canonFor ses) : (s.phaseTry g p).canonFor ses := by
  grind [State.phaseTry, canon_phaseConclude, canon_gSend, canon_modGroup, canon_update]

theorem canon_phaseReach {s : State} (g p : Nat) (hs : s.canonFor ses) : (s.phaseReach g p).canonFor ses := by
  grind [State.phaseReach, canon_phaseTry, canon_setPhase, canon_modGroup, canon_update]

theorem canon_haltCheck {s : State} (k : Nat) (hs : s.canonFor ses) : (s.haltCheck k).canonFor ses := by
  grind [State.haltCheck, canon_phaseReach, canon_modGroup, canon_foldl, canon_update]

theorem canon_clearGroup {s : State} (g : Nat) (hs : s.canonFor ses) : (s.clearGroup g).canonFor ses := by
  grind [State.clearGroup, canon_restoreRecovery, canon_restoreSnap, canon_phaseReach, canon_clearDiscard]

theorem canon_reseed {s : State} (g : Nat) (seed : Word) (hs : s.canonFor ses) : (s.reseed g seed).canonFor ses := by
  grind [State.reseed, canon_setReg, canon_pfcCheck, canon_pondEnable, canon_pondEmpty]

theorem canon_guardEnd {s : State} (g : Nat) (hs : s.canonFor ses) : (s.guardEnd g).canonFor ses := by
  grind [State.guardEnd, canon_modGroup, canon_reseed, canon_gSend, canon_clearGroup, canon_update]

theorem canon_stepOn {s : State} (g : Nat) (hs : s.canonFor ses) : (s.stepOn g).canonFor ses := by
  grind [State.stepOn, canon_fput, canon_setReg, canon_pfcCheck, canon_pondCommit, canon_modGroup, canon_quernReset, canon_takeSnap, canon_update]

theorem canon_commitClock {s : State} (g : Nat) (hs : s.canonFor ses) : (s.commitClock g).canonFor ses := by
  grind [State.commitClock, canon_runGoes, canon_modGroup, canon_update]

theorem canon_rollWait {s : State} (r : GroupRoll) (hs : s.canonFor ses) : (s.rollWait r).canonFor ses := hs

theorem canon_rollbackNow {s : State} (g epoch step cause kind : Nat) (hs : s.canonFor ses) : (s.rollbackNow g epoch step cause kind).canonFor ses := by
  have h0 {t : State} (ht : t.canonFor ses) : (if (s.group g).ready && decide (step = (s.gStep g + 1) % 2 ^ 32) then (t.commitClock g).stepOn g
      else t).canonFor ses := canon_ite (canon_stepOn _ (canon_commitClock _ ht)) ht
  unfold State.rollbackNow
  extract_lets s1 x known
  have h1 : s1.canonFor ses := h0 hs
  split
  next origin s2 heq =>
    have h2 : s2.canonFor ses := by grind [canon_fresh]
    exact canon_haltCheck _ (canon_quernReset _ (canon_fput _ _ _ (canon_haltGroup _ _ (canon_fput _ _ _ (canon_emit _ (canon_modGroup _ _ h2))))))

theorem canon_adoptRollback {s : State} (g epoch step cause kind : Nat) (hs : s.canonFor ses) : (s.adoptRollback g epoch step cause kind).canonFor ses := by
  grind [State.adoptRollback, canon_rollWait, canon_rollbackNow]

theorem canon_millerRollback {s : State} (g cause kind : Nat) (hs : s.canonFor ses) : (s.millerRollback g cause kind).canonFor ses := by
  grind [State.millerRollback, canon_gSendBoth, canon_adoptRollback]

theorem canon_groupStopHere {s : State} (g code p1 p2 p3 : Nat) (hs : s.canonFor ses) : (s.groupStopHere g code p1 p2 p3).canonFor ses := by
  grind [State.groupStopHere, canon_modGroup, canon_stopCtx, canon_emitTrig, canon_update]

theorem canon_groupStop {s : State} (g p2 p3 : Nat) (hs : s.canonFor ses) : (s.groupStop g p2 p3).canonFor ses := by
  grind [State.groupStop, canon_gSendBoth, canon_groupStopHere]

theorem canon_rewritePlan {s : State} (g b x newN : Nat) (tags : List Nat) (hs : s.canonFor ses) : (s.rewritePlan g b x newN tags).canonFor ses := by
  grind [State.rewritePlan, canon_unitPageFault, canon_faultCtx, canon_gWrite, canon_foldl]

theorem canon_applyMap {s : State} (g x : Nat) (hs : s.canonFor ses) : (s.applyMap g x).canonFor ses := by
  grind [State.applyMap, canon_groupStop, canon_setReg, canon_fput, canon_foldl]

theorem canon_stillStands {s : State} (g : Nat) (hs : s.canonFor ses) : (s.stillStands g).2.canonFor ses := by
  grind [State.stillStands, canon_fresh]

theorem canon_ckptSettle {s : State} (g : Nat) (hs : s.canonFor ses) : (s.ckptSettle g).canonFor ses := by
  grind [State.ckptSettle, canon_stillStands, canon_stillQuiet, canon_modGroup, canon_ckptTaken, canon_stillDrop, canon_update]

theorem canon_groupBack {s : State} (g : Nat) (hs : s.canonFor ses) : (s.groupBack g).canonFor ses := by
  grind [State.groupBack, canon_modGroup, canon_setReg, canon_resetRegs, canon_foldl, canon_update]

theorem canon_excluded {s : State} (g : Nat) (hs : s.canonFor ses) : (s.excluded g).canonFor ses := by
  grind [State.excluded, canon_emit, canon_pfcCheck, canon_pondLeave, canon_fput, canon_stopCtx]

theorem canon_rebuildNow {s : State} (g epoch x newN : Nat) (own : Bool) (hs : s.canonFor ses) : (s.rebuildNow g epoch x newN own).canonFor ses := by
  unfold State.rebuildNow
  extract_lets k oldN heir s0 own' s0' c old tags holder s1 s2 s3 s6 miller newMiller s7 s8 s9 s10 s11
  split_ifs
  · exact canon_excluded g hs
  · have h0 : s0'.canonFor ses := canon_ckptSettle g (canon_ite (canon_emit _ hs) hs)
    have h3 : s3.canonFor ses := canon_fput _ _ _ (canon_fput _ _ _ (canon_emit _ (canon_modGroup _ _ h0)))
    have h6 : s6.canonFor ses := canon_applyMap _ _ (canon_groupBack _ (canon_haltGroup _ _ h3))
    have h9 : s9.canonFor ses := canon_modGroup _ _ (canon_fput _ _ _ (canon_fput _ _ _ (canon_fput _ _ _ (canon_fput _ _ _ (canon_fput _ _ _ h6)))))
    exact canon_haltCheck _ (canon_quernReset _ (canon_setReg _ _ (canon_rewritePlan _ _ _ _ _ (canon_rewritePlan _ _ _ _ _ h9))))

theorem canon_adoptRebuild {s : State} (g epoch x newN : Nat) (own : Bool) (hs : s.canonFor ses) : (s.adoptRebuild g epoch x newN own).canonFor ses := by
  grind [State.adoptRebuild, canon_rollWait, canon_rebuildNow]

theorem canon_rollsAfter {s : State} (l : List GroupRoll) (hs : s.canonFor ses) : (s.rollsAfter l).canonFor ses := by
  grind [State.rollsAfter, canon_rollbackNow, canon_rebuildNow, canon_foldl]

theorem canon_memberLost {s : State} (g x : Nat) (hs : s.canonFor ses) : (s.memberLost g x).canonFor ses := by
  grind [State.memberLost, canon_emit, canon_groupStop, canon_adoptRebuild, canon_gSendBoth]

theorem canon_millerFault {s : State} (g code from_ named : Nat) (back : Bool) (hs : s.canonFor ses) : (s.millerFault g code from_ named back).canonFor ses := by
  unfold State.millerFault
  split_ifs <;> grind [canon_modGroup, canon_memberLost, canon_millerRollback, canon_groupStop, canon_groupStopHere, canon_stillAbandon, canon_gSend]

theorem canon_groupReport {s : State} (g code named : Nat) (back : Bool) (hs : s.canonFor ses) : (s.groupReport g code named back).canonFor ses := by
  grind [State.groupReport, canon_millerFault, canon_gSendBoth, canon_modGroup]

/-! ### Records of the Quern -/

theorem canon_gRecv {s : State} (n t : Nat) (m : GMsg) {f : State → Nat → State} (hf : ∀ t g, t.canonFor ses → (f t g).canonFor ses) (hs : s.canonFor ses) :
    (s.gRecv n t m f).canonFor ses := by
  grind [State.gRecv, canon_modLink, canon_count]

theorem canon_creditPost {s : State} (n f beats : Nat) (hs : s.canonFor ses) : (s.creditPost n f beats).canonFor ses := by
  grind [State.creditPost, canon_bellToCore]

theorem canon_bucketComplete {s : State} (n g t : Nat) (p : PlanE) (hs : s.canonFor ses) : (s.bucketComplete n g t p).canonFor ses := by
  grind [State.bucketComplete, canon_unitPageFault, canon_faultCtx, canon_retainFree, canon_modBucket, canon_gSend, canon_unitPost,
    canon_quernProgress, canon_foldl, canon_update]

theorem canon_ownerCheck {s : State} (n g : Nat) (p : PlanE) (r : QRec) {again : State → List QRec → State}
    (hagain : ∀ t l, t.canonFor ses → (again t l).canonFor ses) (hs : s.canonFor ses) : (s.ownerCheck n g p r again).canonFor ses := by
  unfold State.ownerCheck
  extract_lets k f m
  split
  next exempt far excess hcmp =>
    have h1 : ((s.count (rQeCheckCnt n) 1).count (rQeNonfiniteCnt n) (bton exempt)).canonFor ses := canon_count _ _ (canon_count _ _ hs)
    extract_lets s1 s2 s3 s4 s5

    have h3 : s3.canonFor ses := canon_modBucket _ _ _ (canon_modLink _ _ (canon_emit _ (canon_count _ _ h1)))
    have h4 : s4.canonFor ses := canon_modGroup _ _ (canon_modBucket _ _ _ h3)
    have h5 : s5.canonFor ses := canon_ite (canon_gSend _ _ _ _ (canon_count _ _ h4)) h4
    have hw {t : State} (ht : s1.vWrite (n / 3) k.val (p.gradVa + 4096 * r.tile) r.data = .ok t) : t.canonFor ses := canon_vWrite _ _ _ _ h1 ht
    grind [canon_modBucket, canon_faultCtx, canon_unitPageFault, canon_bucketComplete]


theorem canon_placeRec {s : State} (n g : Nat) (p : PlanE) {final : State → QRec → State} (r : QRec)
    (hfinal : ∀ t q, t.canonFor ses → (final t q).canonFor ses) (hs : s.canonFor ses) : (s.placeRec n g p final r).canonFor ses := by
  unfold State.placeRec
  grind [canon_wireSend, canon_modLink]

theorem canon_contribute (fuel n g : Nat) (p : PlanE) {s : State} (l : List QRec) (hs : s.canonFor ses) : (State.contribute fuel n g p s l).canonFor ses := by
  induction fuel generalizing s l with
  | zero => exact hs
  | succ fuel ih => exact canon_foldl (fun t r ht => canon_placeRec n g p r (fun u q hu => canon_ownerCheck n g p q (fun v m hv => ih m hv) hu) ht) l hs

theorem canon_peerBad {s : State} (n g : Nat) (hs : s.canonFor ses) : (s.peerBad n g).canonFor ses := by
  grind [State.peerBad, canon_groupReport, canon_emit, canon_modLink, canon_update]

theorem keeps_execQuernLocalHeader (n : LinkId) (hdr tile : Bytes) {s : State} : Keeps ses s (execQuernLocalHeader n hdr tile s) := by
  grind (gen := 24) (ematch := 24) [execQuernLocalHeader, canon_faultCtx, canon_planFail, canon_peerBad, canon_modBucket, canon_count, canon_egTake, canon_modGroup,
    canon_creditPost, canon_contribute, keeps_next, canon_update]

theorem canon_retainDone {s : State} (g : Nat) (r : RetS) (hs : s.canonFor ses) : (s.retainDone g r).canonFor ses := by
  grind [State.retainDone, canon_checkStepDone]

theorem keeps_execQuernRetainCommit (n : LinkId) (tag tile : BitVec 16) {s : State} : Keeps ses s (execQuernRetainCommit n tag tile s) := by
  grind (gen := 24) (ematch := 24) [execQuernRetainCommit, canon_vWrite, canon_unitPageFault, canon_retainDone, canon_creditPost, canon_modGroup,
    keeps_next, canon_update]

theorem canon_fwdOrLand {s : State} (n : Nat) (h : QHdr) (data : Bytes) {land : State → State} (hland :
    ∀ t, t.canonFor ses → (land t).canonFor ses) (hs : s.canonFor ses) :
    (s.fwdOrLand n h data land).canonFor ses := by
  grind [State.fwdOrLand, canon_wireSend, canon_count]

theorem canon_fwdRec {s : State} (n : Nat) (h : QHdr) (data : Bytes) (hs : s.canonFor ses) : (s.fwdRec n h data).canonFor ses := by
  grind [State.fwdRec, canon_fwdOrLand, canon_upTake, canon_peerBad, canon_planFail, canon_meetTag]

theorem keeps_execQuernRecordRx (n : LinkId) (hdr data : Bytes) {s : State} : Keeps ses s (execQuernRecordRx n hdr data s) := by
  unfold execQuernRecordRx
  extract_lets n h g taken stale
  have htaken (hs : s.canonFor ses) : (taken.count (rQeRecRxCnt n) 1).canonFor ses := canon_count _ _ (canon_upTake _ _ hs)
  have hstale : Keeps ses s (.next stale) := keeps_next fun hs => canon_count _ _ (htaken hs)
  split
  · exact hstale
  · split
    · exact keeps_next id
    · split
      · exact hstale
      · repeat' split
        all_goals grind [canon_fwdRec, canon_planFail, canon_peerBad, canon_contribute, canon_modBucket, keeps_next]

theorem keeps_execAck (n : LinkId) (m : GMsg) {s : State} : Keeps ses s (execAck n m s) := by
  grind (gen := 24) (ematch := 24) [execAck, canon_gRecv, canon_planFail, canon_checkStepDone, canon_gSend, canon_retainFree, canon_modBucket,
    canon_quernProgress, keeps_next,
    canon_update]

theorem keeps_execRetry (n : LinkId) (m : GMsg) {s : State} : Keeps ses s (execRetry n m s) := by
  refine keeps_next (canon_gRecv _ _ _ fun t g ht => ?_)
  have hsent := fun r => canon_gSend g r 2 m ht
  dsimp only
  split
  · exact canon_planFail _ _ _ _ ht
  · next p _ =>
    have h0 := fun r => canon_ite (p := t.lastFrom g p.owner m.dir = true) ht (hsent r)
    split
    · exact h0 _
    · refine canon_ite (h0 _) ?_
      have h1 := fun st f f' => canon_modLink st f (canon_modBucket g (bitsN m.arg.toNat 15 0) f' (canon_count (rQeRetryCnt st) 1 (h0 (bitsN m.arg.toNat 23 20))))
      split
      · exact canon_contribute _ _ _ _ _ (h1 _ _ _)
      · exact canon_faultCtx _ _ (h1 _ _ _)

theorem keeps_execNorm (n : LinkId) (m : GMsg) {s : State} : Keeps ses s (execNorm n m s) := by
  grind [execNorm, canon_gRecv, canon_checkStepDone, canon_normTry, canon_modGroup, keeps_next, canon_update]

theorem keeps_execVerdict (n : LinkId) (m : GMsg) {s : State} : Keeps ses s (execVerdict n m s) := by
  grind [execVerdict, canon_gRecv, canon_checkStepDone, canon_verdictAct, canon_gSend, keeps_next]

theorem canon_gathPosts {s : State} (n : Nat) (hs : s.canonFor ses) : (s.gathPosts n).canonFor ses := by
  grind [State.gathPosts, canon_checkStepDone, canon_unitPost, canon_modBucket, canon_planFail, canon_modLink, canon_foldl, canon_update]

theorem keeps_execQuernGatherStart (n : LinkId) {s : State} : Keeps ses s (execQuernGatherStart n s) := by
  unfold execQuernGatherStart
  extract_lets
  repeat' split
  all_goals grind [canon_planFail, canon_unitPageFault, canon_faultCtx, canon_modGroup, canon_modLink, canon_wireSend, canon_gathPosts, keeps_next, canon_foldl]

theorem keeps_execQuernGatherRx (n : LinkId) (hdr data : Bytes) {s : State} : Keeps ses s (execQuernGatherRx n hdr data s) := by
  have hup (n b : Nat) (hs : s.canonFor ses) : ((s.upTake n b).count (rQeRecRxCnt n) 1).canonFor ses := canon_count _ _ (canon_upTake _ _ hs)
  have hw {n b h k va : Nat} {c : Bytes} {t : State} (ht : ((s.upTake n b).count (rQeRecRxCnt n) 1).vWrite h k va c = .ok t) (hs : s.canonFor ses) :
    t.canonFor ses := canon_vWrite _ _ _ _ (hup _ _ hs) ht
  unfold execQuernGatherRx
  extract_lets
  repeat' split
  all_goals grind (gen := 24) (ematch := 24) [canon_count, canon_planFail, canon_peerBad, canon_unitPageFault, canon_wireSend, canon_modBucket,
    canon_checkStepDone, canon_unitPost, keeps_next]


/-! ### Headrace and Millpond -/

theorem keeps_execPfcRepeat {s : State} : Keeps ses s (execPfcRepeat s) := by
  grind [execPfcRepeat, canon_pfcCheck, canon_pfcSend, keeps_next]

theorem canon_dropRec {s : State} (i : Nat) (c : ClipS) (tag idx reason : Nat) (off frame : Word) (hs : s.canonFor ses) : (s.dropRec i c tag idx reason off
    frame).canonFor ses := by
  grind [State.dropRec, canon_count, canon_emit, canon_setClip, canon_update]

theorem keeps_execHrRingProdWrite (_r : Requester) (k : Fin 16) (v : BitVec 32) {s : State} : Keeps ses s (execHrRingProdWrite _r k v s) := keeps_next
    (canon_fput _ _ _)

theorem keeps_execHrRingEnable (r : Requester) (k : Fin 16) (v : Word) {s : State} : Keeps ses s (execHrRingEnable r k v s) := by
  grind [execHrRingEnable, canon_setReg, keeps_next, canon_update]

theorem canon_dropClip {s : State} (i : Nat) (c : ClipS) (reason : Nat) (off : Word) (hs : s.canonFor ses) : (s.dropClip i c reason off).canonFor ses := by
  grind (gen := 24) (ematch := 24) [State.dropClip, canon_dropRec, canon_setClip, canon_setReg, canon_retire]

theorem keeps_execClipStart {s : State} : Keeps ses s (execClipStart s) := by
  unfold execClipStart
  repeat' split
  all_goals grind (gen := 24) (ematch := 24) [canon_dropClip, canon_retire, canon_setClip, keeps_next, canon_update]

theorem keeps_execClipIndexDone (k : Fin 16) (i : Fin 8) {s : State} : Keeps ses s (execClipIndexDone k i s) := by
  grind [execClipIndexDone, canon_dropClip, canon_clipCheck, canon_setClip, keeps_next, canon_update]

theorem keeps_execSampleDispatch (i e : Fin 8) {s : State} : Keeps ses s (execSampleDispatch i e s) := by
  unfold execSampleDispatch
  repeat' split
  all_goals grind (gen := 24) (ematch := 24) [canon_setClip, canon_sampleDone, canon_dropRec, canon_fullEnd, canon_fput, canon_setSlot,
    canon_topUpReserve, canon_pfcCheck, keeps_next,
    canon_update]

theorem canon_engineDrop {s : State} (e : Nat) (x : EngineS) (c : ClipS) (d : DropInfo) (hs : s.canonFor ses) : (s.engineDrop e x c d).canonFor ses := by
  grind (gen := 24) (ematch := 24) [State.engineDrop, canon_count, canon_pfcCheck, canon_sampleDone, canon_dropRec, canon_setSlot, canon_engineFree]

theorem canon_scratchWrite {s : State} (c : ClipS) (e : Nat) (x : EngineS) {t : State} (hs : s.canonFor ses) (ht : s.scratchWrite c e x = .ok t) : t.canonFor ses
    := by
  grind [State.scratchWrite, canon_vWrite]

theorem keeps_execSampleReady (i e : Fin 8) {s : State} : Keeps ses s (execSampleReady i e s) := by
  unfold execSampleReady
  split
  · exact keeps_next id
  · split
    · exact keeps_next id
    · split
      · next c _ _ d s0 _ hw =>
        have h0 (hs : s.canonFor ses) : s0.canonFor ses := canon_scratchWrite _ _ _ hs hw
        extract_lets body
        split
        · exact keeps_next fun hs => canon_engineDrop _ _ _ _ (h0 hs)
        · next s1 hv =>
          refine keeps_next fun hs => canon_sampleDone _ (canon_count _ _ (canon_slotReady _ (canon_setUsed _ _ (canon_engineFree _ ?_))))
          exact canon_count _ _ (canon_count _ _ (canon_count _ _ (canon_count _ _ (canon_vWrite _ _ _ _ (h0 hs) hv))))
      · exact keeps_next id

theorem keeps_execSampleDrop (i e : Fin 8) {s : State} : Keeps ses s (execSampleDrop i e s) := by
  grind (gen := 24) (ematch := 24) [execSampleDrop, canon_engineDrop, keeps_next]

theorem canon_release {s : State} (q p slot tag clip : Nat) {take : State → State} (htake : ∀ t, t.canonFor ses → (take t).canonFor ses) (hs : s.canonFor ses) :
    (s.release q p slot tag clip take).canonFor ses := by
  unfold State.release
  extract_lets k seq va
  split
  · exact canon_emptySettle (canon_emit _ (canon_fput _ _ _ hs))
  · next s0 hw =>
    have h0 : s0.canonFor ses := canon_vWrite _ _ _ _ hs hw
    have h1 : (take { s0 with pond := { s0.pond with lastQueue := q } }).canonFor ses := htake _ (canon_update.2 h0)
    have h3 {u : State} (hu : u.canonFor ses) (n v) := canon_count rMpRelCnt 1 (canon_fput (rMpQSeq q) fMpQSeqSeq v
      (canon_setSlot slot .held (canon_reexamine p (canon_fput (rSem p) fSemValue n hu))))
    grind [canon_bellToCore, canon_unitPost]

theorem canon_drawTake {s : State} (q j draw : Nat) (h : HeldS) (hs : s.canonFor ses) : (s.drawTake q j draw h).canonFor ses := by
  grind [State.drawTake, canon_setReg, canon_readyTake, canon_fput, canon_update]

theorem keeps_execMillpondRelease {s : State} : Keeps ses s (execMillpondRelease s) := by
  grind (gen := 24) (ematch := 24) [execMillpondRelease, canon_release, canon_setSlot, canon_setReg, canon_readyTake, canon_drawTake, canon_pfcCheck,
    canon_pondUnmapped,
    keeps_next, canon_update]

theorem canon_roundHandled {s : State} (g : Nat) (p : PlanE) (t j : Nat) (hs : s.canonFor ses) : (s.roundHandled g p t j).canonFor ses := by
  grind [State.roundHandled, canon_checkStepDone, canon_gSend, canon_update]

theorem canon_landFail {s : State} (j clip tag : Nat) (hs : s.canonFor ses) : (s.landFail j clip tag).canonFor ses := by
  grind [State.landFail, canon_emit, canon_count]

theorem canon_landRecord {s : State} (n : Nat) (p : PlanE) (h : QHdr) (data : Bytes) (r : RoundS) (slot : Nat) (hs : s.canonFor ses) : (s.landRecord n p h
    data r slot).canonFor ses := by
  unfold State.landRecord
  extract_lets g j beats dist k s0
  have h0 : s0.canonFor ses := canon_count _ _ hs
  have hw {t : State} (ht : s0.vWrite 0 k.val (s.slotVa slot + 16384 * h.tile) (slice data 0 (128 * h.beats)) = .ok t) : t.canonFor ses :=
    canon_vWrite _ _ _ _ h0 ht
  have hr {t : State} (ht : t.canonFor ses) : (t.roundHandled g p h.tag j).canonFor ses := canon_roundHandled g p h.tag j ht
  split
  · exact canon_faultCtx _ _ h0
  split
  · exact h0
  split
  · exact hr h0
  split
  next => exact hr (canon_pondUnmapped _ h0)
  next s1 hs1 =>
    extract_lets p2 s2
    have h2 : s2.canonFor ses := canon_update.2 (hw hs1)
    split
    · exact h2
    split
    · exact canon_ite (hr (canon_count _ _ (canon_setUsed _ _ (canon_setSlot _ _ h2)))) (hr (canon_landFail _ _ _ h2))
    · exact hr (canon_landFail _ _ _ h2)
    · exact hr (canon_pondUnmapped _ h2)


theorem keeps_execExchangeRecordLand (n : LinkId) (hdr data : Bytes) {s : State} : Keeps ses s (execExchangeRecordLand n hdr data s) := by
  grind (gen := 24) (ematch := 24) [execExchangeRecordLand, canon_count, canon_upTake, canon_fwdRec, canon_peerBad, canon_planFail, canon_landRecord,
    canon_meetTag, keeps_next]

/-! ### Group events -/

theorem canon_stillTry {s : State} (g : Nat) (hs : s.canonFor ses) : (s.stillTry g).canonFor ses := by
  grind [State.stillTry, canon_phaseReach]

theorem canon_buddyTry {s : State} (g : Nat) (hs : s.canonFor ses) : (s.buddyTry g).canonFor ses := by
  grind [State.buddyTry, canon_stillTry, canon_modGroup, canon_areaHeader, canon_update]

theorem canon_sendBuddy {s : State} (g gen step bytes : Nat) (hs : s.canonFor ses) : (s.sendBuddy g gen step bytes).canonFor ses := by
  grind [State.sendBuddy, canon_unitPageFault, canon_faultCtx, canon_modLink, canon_egPush, canon_foldl, canon_update]

theorem canon_startStill {s : State} (g step : Nat) (hs : s.canonFor ses) : (s.startStill g step).canonFor ses := by
  grind (gen := 24) (ematch := 24) [State.startStill, canon_setPhase, canon_modGroup, canon_areaHeader, canon_trickleNext, canon_buddyTry,
    canon_sendBuddy, canon_stillAbandon,
    canon_update]

theorem canon_adoptCommit {s : State} (g : Nat) (ckpt : Bool) (hs : s.canonFor ses) : (s.adoptCommit g ckpt).canonFor ses := by
  grind (gen := 24) (ematch := 24) [State.adoptCommit, canon_stepOn, canon_stillTry, canon_startStill, canon_tryRelease, canon_quernStart,
    canon_startRound, canon_setPhase,
    canon_modGroup, canon_update]

theorem canon_millerCommit {s : State} (g : Nat) (trickle : Bool) (hs : s.canonFor ses) : (s.millerCommit g trickle).canonFor ses := by
  grind [State.millerCommit, canon_commitClock, canon_fput, canon_emit, canon_modGroup, canon_gSend, canon_adoptCommit, canon_update]

theorem canon_voteTry {s : State} (g : Nat) (hs : s.canonFor ses) : (s.voteTry g).canonFor ses := by
  grind [State.voteTry, canon_millerCommit, canon_gSend, canon_modGroup, canon_update]

theorem keeps_execVoteReady (g : Fin 1024) {s : State} : Keeps ses s (execVoteReady g s) := by
  grind [execVoteReady, canon_voteTry, canon_setPhase, canon_modGroup, keeps_next, canon_update]

theorem keeps_execVote (n : LinkId) (m : GMsg) {s : State} : Keeps ses s (execVote n m s) := by
  grind [execVote, canon_gRecv, canon_voteTry, canon_modGroup, keeps_next, canon_update]

theorem keeps_execCommit (n : LinkId) (m : GMsg) {s : State} : Keeps ses s (execCommit n m s) := by
  grind [execCommit, canon_gRecv, canon_adoptCommit, canon_commitClock, canon_gSend, keeps_next]

theorem keeps_execCkptSelfCopyDone (g : Fin 1024) {s : State} : Keeps ses s (execCkptSelfCopyDone g s) := by
  grind [execCkptSelfCopyDone, canon_gCopy, canon_modGroup, canon_areaHeader, canon_stillTry, keeps_next, canon_update]

theorem canon_ckptLand {s : State} (n g : Nat) (h : QHdr) (data : Bytes) (hs : s.canonFor ses) : (s.ckptLand n g h data).canonFor ses := by
  grind [State.ckptLand, canon_count, canon_gWrite, canon_groupReport, canon_stillAbandon, canon_emit, canon_gPut, canon_buddyTry, canon_modGroup,
    canon_update]

theorem keeps_execCkptRecordLand (n : LinkId) (hdr data : Bytes) {s : State} : Keeps ses s (execCkptRecordLand n hdr data s) := by
  grind [execCkptRecordLand, canon_count, canon_upTake, canon_peerBad, canon_fwdOrLand, canon_ckptLand, keeps_next]

theorem keeps_execCommitTimeout (g : Fin 1024) {s : State} : Keeps ses s (execCommitTimeout g s) := by
  grind [execCommitTimeout, canon_millerRollback, canon_modGroup, canon_emit, keeps_next, canon_update]

theorem keeps_execGroupFault (n : LinkId) (m : GMsg) {s : State} : Keeps ses s (execGroupFault n m s) := by
  grind [execGroupFault, canon_gRecv, canon_millerFault, canon_modGroup, canon_gSend, canon_groupStopHere, canon_stillAbandon, keeps_next]

theorem keeps_execRollback (n : LinkId) (m : GMsg) {s : State} : Keeps ses s (execRollback n m s) := by
  grind [execRollback, canon_gRecv, canon_adoptRollback, canon_gSend, keeps_next]

theorem keeps_execPhaseDone (n : LinkId) (m : GMsg) {s : State} : Keeps ses s (execPhaseDone n m s) := by
  grind [execPhaseDone, canon_gRecv, canon_phaseTry, canon_modGroup, keeps_next, canon_update]

theorem keeps_execGuardExpiry (g : Fin 1024) {s : State} : Keeps ses s (execGuardExpiry g s) := by
  grind [execGuardExpiry, canon_guardEnd, keeps_next]

theorem keeps_execPhaseGo (n : LinkId) (m : GMsg) {s : State} : Keeps ses s (execPhaseGo n m s) := by
  grind [execPhaseGo, canon_gRecv, canon_gSend, canon_clearGroup, canon_stillRelease, canon_restartGroup, keeps_next]

theorem keeps_execMemberLossConfirm (g : Fin 1024) (x : BitVec 24) {s : State} : Keeps ses s (execMemberLossConfirm g x s) := by
  grind [execMemberLossConfirm, canon_memberLost, canon_fput, canon_emit, keeps_next]

theorem keeps_execRebuild (n : LinkId) (m : GMsg) {s : State} : Keeps ses s (execRebuild n m s) := by
  grind [execRebuild, canon_gRecv, canon_adoptRebuild, canon_gSend, keeps_next]

theorem keeps_execSeed (n : LinkId) (m : GMsg) {s : State} : Keeps ses s (execSeed n m s) := by
  grind [execSeed, canon_gRecv, canon_gSend, canon_reseed, keeps_next]

theorem keeps_execCkptReq (r : Requester) (g : Fin 1024) {s : State} : Keeps ses s (execCkptReq r g s) := by
  cases r
  case rdma => exact keeps_next id
  all_goals exact keeps_next (canon_modGroup _ _)

/-! ### Links -/

theorem canon_sendIdent {s : State} (n : Nat) (hs : s.canonFor ses) : (s.sendIdent n).canonFor ses := canon_ctlSend _ _ hs

theorem canon_linkGo {s : State} (n st : Nat) (hs : s.canonFor ses) : (s.linkGo n st).canonFor ses := canon_fput _ _ _ hs

theorem canon_clearLink {s : State} (n : Nat) (hs : s.canonFor ses) : (s.clearLink n).canonFor ses := by
  grind [State.clearLink, canon_modLink, canon_holdEnd, canon_update]

theorem canon_orphanTags {s : State} (n : Nat) (hs : s.canonFor ses) : (s.orphanTags n).canonFor ses := by
  grind [State.orphanTags, canon_bellToCore, canon_modLink, canon_foldl, canon_update]

theorem canon_goDown {s : State} (n reason : Nat) (hs : s.canonFor ses) : (s.goDown n reason).canonFor ses := by
  grind (gen := 24) (ematch := 24) [State.goDown, canon_count, canon_fput, canon_linkGo, canon_orphanTags, canon_emit, canon_modLink,
    canon_clearLink, canon_groupReport,
    canon_foldl, canon_update]

theorem canon_trainFail {s : State} (n : Nat) (hs : s.canonFor ses) : (s.trainFail n).canonFor ses := by
  grind [State.trainFail, canon_modLink, canon_clearLink, canon_linkGo, canon_emit, canon_update]

theorem canon_openTry {s : State} (n : Nat) (hs : s.canonFor ses) : (s.openTry n).canonFor ses := by
  grind [State.openTry, canon_modLink, canon_linkGo, canon_emit, canon_groupReport, canon_foldl, canon_update]

theorem canon_tableCheck {s : State} (n : Nat) (hs : s.canonFor ses) : (s.tableCheck n).canonFor ses := by
  grind [State.tableCheck, canon_fput, canon_modLink, canon_emit, canon_update]

theorem canon_peerCheck {s : State} (n : Nat) (other : Bool) (hs : s.canonFor ses) : (s.peerCheck n other).canonFor ses := by
  grind [State.peerCheck, canon_modLink, canon_fput, canon_emit, canon_update]

theorem canon_identReach {s : State} (n : Nat) (hs : s.canonFor ses) : (s.identReach n).canonFor ses := by
  grind [State.identReach, canon_openTry, canon_sendIdent, canon_modLink, canon_linkGo, canon_ctlSend, canon_update]

theorem canon_tablesLoaded {s : State} (n : Nat) (hs : s.canonFor ses) : (s.tablesLoaded n).canonFor ses := by
  grind [State.tablesLoaded, canon_tableCheck, canon_sendIdent]

theorem canon_ctlTake {s : State} (n : Nat) (m : CtlMsg) (hs : s.canonFor ses) : (s.ctlTake n m).canonFor ses := by
  grind [State.ctlTake, canon_modLink, canon_update]

theorem canon_frameTx {s : State} (n : Nat) (hs : s.canonFor ses) : (s.frameTx n).canonFor ses := by
  grind (gen := 24) (ematch := 24) [State.frameTx, canon_modLink, canon_count, canon_creditPost, canon_gathPosts, canon_wirePump, canon_update]

theorem keeps_execLinkFrameTx (n : LinkId) {s : State} : Keeps ses s (execLinkFrameTx n s) := keeps_next (canon_frameTx _)

theorem canon_ctlRx {s : State} (n : Nat) (m : CtlMsg) (hs : s.canonFor ses) : (s.ctlRx n m).canonFor ses := by
  cases m <;> grind [State.ctlRx, canon_count, canon_modLink]

theorem canon_bulkRx {s : State} (n f blen : Nat) (bulk : Bytes) (hs : s.canonFor ses) : (s.bulkRx n f blen bulk).canonFor ses := by
  grind [State.bulkRx, canon_count, canon_setLink, canon_update]

theorem keeps_execLinkFrameRx (n : LinkId) (frame : Bytes) {s : State} : Keeps ses s (execLinkFrameRx n frame s) := by
  grind [execLinkFrameRx, canon_ctlRx, canon_modLink, canon_bulkRx, keeps_next, canon_update]

theorem keeps_execLinkCodewordRx (n : LinkId) (corrected : BitVec 4) (bad : Bool) {s : State} : Keeps ses s (execLinkCodewordRx n corrected bad s) := by
  grind [execLinkCodewordRx, canon_goDown, canon_modLink, canon_count, canon_emit, keeps_next, canon_update]

theorem canon_trainStep {s : State} (n from_ : Nat) {f : State → State} (hf : ∀ t, t.canonFor ses → (f t).canonFor ses) (hs : s.canonFor ses) :
    (s.trainStep n from_ f).canonFor ses := by
  grind [State.trainStep]

theorem keeps_execLinkSignalDetect (n : LinkId) {s : State} : Keeps ses s (execLinkSignalDetect n s) := by
  grind [execLinkSignalDetect, canon_trainStep, canon_modLink, canon_linkGo, keeps_next, canon_update]

theorem keeps_execLinkTrainDone (n : LinkId) {s : State} : Keeps ses s (execLinkTrainDone n s) := by
  grind [execLinkTrainDone, canon_trainStep, canon_linkGo, canon_fput, keeps_next]

theorem keeps_execLinkTrainTimeout (n : LinkId) {s : State} : Keeps ses s (execLinkTrainTimeout n s) := by
  grind [execLinkTrainTimeout, canon_trainStep, canon_trainFail, keeps_next]

theorem keeps_execLinkAlignDone (n : LinkId) {s : State} : Keeps ses s (execLinkAlignDone n s) := by
  grind [execLinkAlignDone, canon_trainStep, canon_clearLink, canon_linkGo, canon_ctlSend, canon_sendIdent, keeps_next]

theorem keeps_execLinkAlignTimeout (n : LinkId) {s : State} : Keeps ses s (execLinkAlignTimeout n s) := by
  grind [execLinkAlignTimeout, canon_trainStep, canon_trainFail, keeps_next]

theorem keeps_execLinkIdentTimeout (n : LinkId) {s : State} : Keeps ses s (execLinkIdentTimeout n s) := by
  grind [execLinkIdentTimeout, canon_trainStep, canon_trainFail, keeps_next]

theorem keeps_execLinkDownExpiry (n : LinkId) {s : State} : Keeps ses s (execLinkDownExpiry n s) := by
  grind [execLinkDownExpiry, canon_trainStep, canon_linkGo, keeps_next]

theorem keeps_execLinkLossOfSignal (n : LinkId) (lock : Bool) {s : State} : Keeps ses s (execLinkLossOfSignal n lock s) := by
  grind [execLinkLossOfSignal, canon_trainStep, canon_goDown, keeps_next]

theorem keeps_execLinkNoCodeword (n : LinkId) {s : State} : Keeps ses s (execLinkNoCodeword n s) := by
  grind [execLinkNoCodeword, canon_trainStep, canon_goDown, keeps_next]

theorem keeps_execLinkOpen (n : LinkId) {s : State} : Keeps ses s (execLinkOpen n s) := by
  grind [execLinkOpen, canon_openTry, canon_sendIdent, canon_fput, keeps_next]

theorem keeps_execLinkClose (n : LinkId) {s : State} : Keeps ses s (execLinkClose n s) := by
  grind (gen := 24) (ematch := 24) [execLinkClose, canon_fput, canon_modLink, canon_holdEnd, canon_linkGo, canon_sendIdent, canon_ctlSend, keeps_next]

theorem keeps_execLinkRetrain (n : LinkId) {s : State} : Keeps ses s (execLinkRetrain n s) := by
  grind [execLinkRetrain, canon_goDown, keeps_next]

theorem keeps_execLinkEnable (n : LinkId) {s : State} : Keeps ses s (execLinkEnable n s) := by
  grind [execLinkEnable, canon_trainStep, canon_fput, canon_linkGo, keeps_next]

theorem keeps_execLinkDisable (n : LinkId) {s : State} : Keeps ses s (execLinkDisable n s) := by
  grind [execLinkDisable, canon_fput, canon_goDown, canon_clearLink, canon_linkGo, keeps_next]

theorem keeps_execMgmtIdent (n : LinkId) (dev : BitVec 24) (plink : BitVec 5) (ready nuore : Bool) (digest : BitVec 32) {s : State} : Keeps ses s
    (execMgmtIdent n dev plink ready nuore digest s) := by
  grind (gen := 24) (ematch := 24) [execMgmtIdent, canon_ctlTake, canon_fput, canon_goDown, canon_trainFail, canon_modLink, canon_openTry,
    canon_identReach, canon_tableCheck,
    canon_peerCheck, keeps_next, canon_update]

theorem keeps_execMgmtProbe (n : LinkId) (stamp : BitVec 48) {s : State} : Keeps ses s (execMgmtProbe n stamp s) := by
  grind [execMgmtProbe, canon_ctlSend, canon_ctlTake, keeps_next]

theorem keeps_execMgmtEcho (n : LinkId) (stamp : BitVec 48) {s : State} : Keeps ses s (execMgmtEcho n stamp s) := by
  grind [execMgmtEcho, canon_ctlTake, canon_identReach, canon_modLink, canon_fput, keeps_next, canon_update]

theorem keeps_execMgmtClose (n : LinkId) {s : State} : Keeps ses s (execMgmtClose n s) := by
  grind [execMgmtClose, canon_ctlTake, canon_goDown, keeps_next]

theorem keeps_execMgmtStart (n : LinkId) {s : State} : Keeps ses s (execMgmtStart n s) := by
  grind [execMgmtStart, canon_ctlTake, canon_modLink, keeps_next, canon_update]

theorem keeps_execLinkEgressBeat (n : LinkId) (lane : Fin 3) (data : Bytes) {s : State} : Keeps ses s (execLinkEgressBeat n lane data s) := by
  grind [execLinkEgressBeat, canon_count, canon_creditPost, canon_egPush, canon_modLink, canon_faultCtx, keeps_next, canon_update]

theorem canon_recPass {s : State} (n f : Nat) (beat : Bytes) (hs : s.canonFor ses) : (s.recPass n f beat).canonFor ses := by
  grind [State.recPass, canon_modLink, canon_update]

theorem keeps_execLinkIngressRelease (n : LinkId) (lane : Fin 3) {s : State} : Keeps ses s (execLinkIngressRelease n lane s) := by
  grind (gen := 24) (ematch := 24) [execLinkIngressRelease, canon_setHeld, canon_modLink, canon_recPass, canon_count, keeps_next, canon_foldl, canon_update]

theorem keeps_execMcastStall (n : LinkId) (flow : BitVec 6) {s : State} : Keeps ses s (execMcastStall n flow s) := by
  grind [execMcastStall, canon_modLink, canon_setHeld, canon_faultCtx, keeps_next, canon_foldl, canon_update]

theorem keeps_execKflSemAdd (n : LinkId) (dst src : BitVec 24) (group : BitVec 10) (vsem : BitVec 14) (addend : BitVec 32) {s : State} : Keeps ses s
    (execKflSemAdd n dst src group vsem addend s) := by
  grind [execKflSemAdd, canon_ctlTake, canon_ctlRoute, canon_semAddReq, canon_semRefuse, canon_semCount, keeps_next]

theorem keeps_execKflSemWatch (n : LinkId) (dst src : BitVec 24) (group : BitVec 10) (vsem : BitVec 14) (rlink : BitVec 5) (rtag : BitVec 6) (cond :
    BitVec 2) (value : BitVec 32) {s : State} : Keeps ses s (execKflSemWatch n dst src group vsem rlink rtag cond value s) := by
  grind (gen := 24) (ematch := 24) [execKflSemWatch, canon_ctlTake, canon_ctlRoute, canon_semWatchReq, canon_fireWatch, canon_semRefuse, canon_semCount, keeps_next]

theorem keeps_execKflWatchFire (n : LinkId) (dst src : BitVec 24) (rlink : BitVec 5) (rtag : BitVec 6) (orphan : Bool) {s : State} : Keeps ses s
    (execKflWatchFire n dst src rlink rtag orphan s) := by
  grind [execKflWatchFire, canon_ctlTake, canon_ctlRoute, canon_bellToCore, canon_modLink, canon_count, keeps_next, canon_update]

theorem canon_routerWatch {s : State} (n : Nat) (c : CoreId) (k : CtxId) (sc : BitVec 6) (cond : BitVec 2) (dev : BitVec 24) (vsem : BitVec 14)
    (value : BitVec 32) (hs : s.canonFor ses) : (s.routerWatch n c k sc cond dev vsem value).canonFor ses := by
  grind [State.routerWatch, canon_semWatchReq, canon_ctlRoute, canon_modLink, canon_update]

theorem keeps_execLinkRouterWatch (n : LinkId) (c : CoreId) (k : CtxId) (sc : BitVec 6) (cond : BitVec 2) (dev : BitVec 24) (vsem : BitVec 14) (value
    : BitVec 32) {s : State} : Keeps ses s (execLinkRouterWatch n c k sc cond dev vsem value s) := by
  grind [execLinkRouterWatch, keeps_delivered, canon_routerWatch, keeps_next]

theorem keeps_execTagQuarantineEnd (n : LinkId) (tag : BitVec 6) {s : State} : Keeps ses s (execTagQuarantineEnd n tag s) := keeps_next (canon_modLink _
    _)

end

end Sys2Proof.Machine

/-! ## Every operation keeps the canonical form: the cores -/

namespace Sys2Proof.Machine

/- Many short proofs: one after another they need far less memory than on many threads. -/
set_option Elab.async false

section
variable {ses : Option (List Session)}

/-! ### Registers of a core -/

theorem canon_setS {s : State} (c : CoreId) (i : BitVec 5) (v : Word) (hs : s.canonFor ses) : (s.setS c i v).canonFor ses := canon_setReg _ _ hs

theorem canon_setVParts {s : State} (c : CoreId) (k : Nat) (b : Bytes) (l : List Nat) (hs : s.canonFor ses) : (s.setVParts c k b l).canonFor ses := by
  induction l generalizing s with
  | nil => exact hs
  | cons m l ih =>
    rw [State.setVParts]
    exact ih (canon_setReg _ _ hs)

theorem canon_setV {s : State} (c : CoreId) (k : BitVec 4) (b : Bytes) (hs : s.canonFor ses) : (s.setV c k b).canonFor ses := canon_setVParts _ _ _ _ hs

theorem canon_setPc {s : State} (c : CoreId) (v : Nat) (hs : s.canonFor ses) : (s.setPc c v).canonFor ses := canon_fput _ _ _ hs

theorem canon_setRow {s : State} (c : CoreId) (n i : Nat) (b : Bytes) (hs : s.canonFor ses) : (s.setRow c n i b).canonFor ses := canon_wrBytes _ _ hs

theorem canon_wrStore {s : State} (c : CoreId) (off : Nat) (b : Bytes) (hs : s.canonFor ses) : (s.wrStore c off b).canonFor ses := canon_wrBytes _ _ hs

theorem canon_nextOrder {s : State} (c : CoreId) (hs : s.canonFor ses) : (s.nextOrder c).canonFor ses := canon_modCore _ _ hs

/-! ### Tile operations -/

theorem canon_flightWrite {s : State} (c : CoreId) (f : FlightS) (i : Nat) (d : Bytes) (hs : s.canonFor ses) : (s.flightWrite c f i d).canonFor ses := by
  grind [State.flightWrite, canon_setRow, canon_wrStore, canon_setS, canon_setV]

theorem canon_tredWrite {s : State} (c : CoreId) (f : FlightS) (rows : List Bytes) (hs : s.canonFor ses) : (s.tredWrite c f rows).canonFor ses := by
  grind [State.tredWrite, canon_setV]

theorem canon_runRows {s : State} (c : CoreId) (f : FlightS) (k i : Nat) (hs : s.canonFor ses) : (s.runRows c f k i).canonFor ses := by
  induction k generalizing s i with
  | zero => exact hs
  | succ k ih => exact ih _ (canon_flightWrite _ _ _ _ hs)

theorem canon_runFlight {s : State} (c : CoreId) (f : FlightS) (hs : s.canonFor ses) : (s.runFlight c f).canonFor ses := by
  grind [State.runFlight, canon_tredWrite, canon_flightWrite, canon_runRows]

theorem canon_flightAct {s : State} (c : CoreId) (f : FlightS) (t : Nat) (hs : s.canonFor ses) : (s.flightAct c f t).1.canonFor ses := by
  grind [State.flightAct, canon_tredWrite, canon_flightWrite, canon_update]

/-! ### The array -/

theorem canon_countC {s : State} (c : CoreId) (a n : Nat) (hs : s.canonFor ses) : (s.countC c a n).canonFor ses := by
  grind [State.countC, canon_count]

theorem canon_countPass {s : State} (c : CoreId) (p : PassS) (hs : s.canonFor ses) : (s.countPass c p).canonFor ses := by
  grind [State.countPass, canon_countC]

theorem canon_countPasses {s : State} (c : CoreId) (ps : List PassS) (hs : s.canonFor ses) : (s.countPasses c ps).canonFor ses := by
  grind [State.countPasses, canon_countPass, canon_foldl]

theorem canon_putRows {s : State} (c : CoreId) (td i : Nat) (l : List (List (BitVec 32))) (hs : s.canonFor ses) : (s.putRows c td i l).canonFor ses := by
  induction l generalizing s i with
  | nil => exact hs
  | cons r l ih =>
    unfold State.putRows
    exact ih _ (canon_setRow _ _ _ _ hs)

theorem canon_runStore {s : State} (c : CoreId) (r : RunS) (y : List (List (BitVec 32))) (hs : s.canonFor ses) : (s.runStore c r y).canonFor ses := by
  grind [State.runStore, canon_putRows]

theorem canon_mismatch {s : State} (c : CoreId) (r : RunS) (v : Verdict) (hs : s.canonFor ses) : (s.mismatch c r v).canonFor ses := by
  grind [State.mismatch, canon_countC, canon_fput, canon_emit, canon_faultCore, canon_stopCtx, canon_setCore, canon_update]

theorem canon_countNonfinite {s : State} (c : CoreId) (v : Verdict) (hs : s.canonFor ses) : (s.countNonfinite c v).canonFor ses := canon_countC _ _ _ hs

theorem canon_dropRun {s : State} (c : CoreId) (r : RunS) (hs : s.canonFor ses) : (s.dropRun c r).canonFor ses := canon_modCore _ _ hs

theorem canon_endCheck {s : State} (c : CoreId) (r : RunS) (u : List (BitVec 10 × BitVec 32)) (late : Bool) (hs : s.canonFor ses) : (s.endCheck c r u
    late).canonFor ses := by
  grind [State.endCheck, canon_countNonfinite, canon_mismatch, canon_dropRun, canon_countPasses, canon_modCore, canon_runStore, canon_update]

theorem canon_passIn {s : State} (c : CoreId) (p : PassS) (hs : s.canonFor ses) : (s.passIn c p).canonFor ses := canon_modCore _ _ hs

theorem canon_passIssue {s : State} (c : CoreId) (t : Nat) (ta tw td n : BitVec 6) (rate : BitVec 2) (keep chain : Bool) (hs : s.canonFor ses) :
    (s.passIssue c t ta tw td n rate keep chain).canonFor ses := by
  grind [State.passIssue, canon_passIn]

theorem canon_passSettle {s : State} (c : CoreId) (hs : s.canonFor ses) : (s.passSettle c).canonFor ses := by
  grind [State.passSettle, canon_modCore, canon_countPass, canon_dropRun, canon_countPasses, canon_runStore, canon_update]

/-! ### Operations at once -/

theorem canon_pendSync {s : State} (c : CoreId) (hs : s.canonFor ses) : (s.pendSync c).canonFor ses := canon_fput _ _ _ hs

theorem canon_restartNow {s : State} (c : CoreId) (f : FlightS) (hs : s.canonFor ses) : (s.restartNow c f).canonFor ses := by
  grind [State.restartNow, canon_passSettle, canon_passIn, canon_runFlight, canon_update]

theorem canon_restartAll (c : CoreId) (l : List FlightS) {s : State} (hs : s.canonFor ses) : (restartAll c l s).canonFor ses := by
  induction l generalizing s with
  | nil => exact hs
  | cons f l ih => grind [restartAll, canon_faultCore, canon_modCore, canon_restartNow, canon_pendSync]

theorem canon_flushRestart {s : State} (c : CoreId) (hs : s.canonFor ses) : (s.flushRestart c).canonFor ses := canon_restartAll _ _ hs

theorem canon_tileRestart {s : State} (c : CoreId) (who : List CoreId) (hs : s.canonFor ses) : (s.tileRestart c who).canonFor ses := by
  grind [State.tileRestart, canon_emit, canon_modCore, canon_foldl, canon_update]

theorem canon_stepped {s : State} (c : CoreId) (hs : s.canonFor ses) : (s.stepped c).canonFor ses := by
  grind [State.stepped, canon_askStop, canon_modCore, canon_update]

theorem canon_issueOne {s : State} (c : CoreId) (i : Instr) (fault : State → Option EvRec) {eff : State → State}
    (heff : ∀ t, t.canonFor ses → (eff t).canonFor ses) (hs : s.canonFor ses) : (s.issueOne c i fault eff).canonFor ses := by
  grind [State.issueOne, canon_faultCore, canon_flushRestart, canon_stepped]

/-! ### CTL slot -/

theorem canon_jump {s : State} (c : CoreId) (t : Nat) (hs : s.canonFor ses) : (s.jump c t).canonFor ses := by
  grind [State.jump, canon_modCore, canon_setPc, canon_update]

theorem canon_loopPush {s : State} (c : CoreId) (start end_ count : Nat) (hs : s.canonFor ses) : (s.loopPush c start end_ count).canonFor ses := by
  grind [State.loopPush, canon_setReg, canon_fput]

theorem canon_effCtl {rd : State} (c : CoreId) (i : Instr) {s : State} (hs : s.canonFor ses) : (effCtl rd c i s).canonFor ses := by
  unfold effCtl
  split <;> grind [canon_setS, canon_loopPush, canon_fput, canon_modCore, canon_askStop]

theorem canon_ctlNow {s : State} (c : CoreId) (i : Instr) (hs : s.canonFor ses) : (s.ctlNow c i).canonFor ses := by
  grind [State.ctlNow, canon_effCtl, canon_jump]

theorem canon_loopEnd (c : CoreId) (n : Nat) {s : State} (pc : Nat) (hs : s.canonFor ses) : (loopEnd c n s pc).1.canonFor ses := by
  induction n generalizing s with
  | zero => exact hs
  | succ n ih => grind [loopEnd, canon_fput]

theorem keeps_execBr (c : CoreId) (cond : BitVec 3) (sa : BitVec 5) (off : BitVec 18) {s : State} : Keeps ses s (execBr c cond sa off s) := by
  grind [execBr, canon_issueOne, canon_ctlNow, keeps_next]

theorem keeps_execJmp (c : CoreId) (target : BitVec 16) {s : State} : Keeps ses s (execJmp c target s) := by
  grind [execJmp, canon_issueOne, canon_ctlNow, keeps_next]

theorem keeps_execJmpr (c : CoreId) (sa : BitVec 5) {s : State} : Keeps ses s (execJmpr c sa s) := by
  grind [execJmpr, canon_issueOne, canon_ctlNow, keeps_next]

theorem keeps_execCall (c : CoreId) (target : BitVec 16) {s : State} : Keeps ses s (execCall c target s) := by
  grind [execCall, canon_issueOne, canon_ctlNow, keeps_next]

theorem keeps_execCallr (c : CoreId) (sa : BitVec 5) {s : State} : Keeps ses s (execCallr c sa s) := by
  grind [execCallr, canon_issueOne, canon_ctlNow, keeps_next]

theorem keeps_execLoop (c : CoreId) (src : Bool) (sa : BitVec 5) (icount : BitVec 8) (len : BitVec 12) {s : State} : Keeps ses s (execLoop c src sa
    icount len s) := by
  grind [execLoop, canon_issueOne, canon_ctlNow, keeps_next]

theorem keeps_execLbrk (c : CoreId) {s : State} : Keeps ses s (execLbrk c s) := by
  grind [execLbrk, canon_issueOne, canon_ctlNow, keeps_next]

theorem keeps_execStepend (c : CoreId) {s : State} : Keeps ses s (execStepend c s) := by
  grind [execStepend, canon_issueOne, canon_ctlNow, keeps_next]

theorem keeps_execExit (c : CoreId) {s : State} : Keeps ses s (execExit c s) := by
  grind [execExit, canon_issueOne, canon_ctlNow, keeps_next]

theorem keeps_execBrkpt (c : CoreId) {s : State} : Keeps ses s (execBrkpt c s) := by
  grind [execBrkpt, canon_issueOne, canon_ctlNow, keeps_next]

/-! ### SCL slot -/

theorem canon_tcfgPut {s : State} (c : CoreId) (tn : BitVec 6) (v : Word) (hs : s.canonFor ses) : (s.tcfgPut c tn v).canonFor ses := canon_setReg _ _ hs

theorem canon_effScl {rd : State} (c : CoreId) (i : Instr) {s : State} (hs : s.canonFor ses) : (effScl rd c i s).canonFor ses := by
  unfold effScl
  split
  · exact canon_tcfgPut _ _ _ hs
  · split
    · exact canon_setS _ _ _ hs
    · exact hs

theorem keeps_execAdd (c : CoreId) (sd sa sb : BitVec 5) {s : State} : Keeps ses s (execAdd c sd sa sb s) := by
  grind [execAdd, canon_issueOne, canon_effScl, keeps_next]

theorem keeps_execSub (c : CoreId) (sd sa sb : BitVec 5) {s : State} : Keeps ses s (execSub c sd sa sb s) := by
  grind [execSub, canon_issueOne, canon_effScl, keeps_next]

theorem keeps_execAnd (c : CoreId) (sd sa sb : BitVec 5) {s : State} : Keeps ses s (execAnd c sd sa sb s) := by
  grind [execAnd, canon_issueOne, canon_effScl, keeps_next]

theorem keeps_execOr (c : CoreId) (sd sa sb : BitVec 5) {s : State} : Keeps ses s (execOr c sd sa sb s) := by
  grind [execOr, canon_issueOne, canon_effScl, keeps_next]

theorem keeps_execXor (c : CoreId) (sd sa sb : BitVec 5) {s : State} : Keeps ses s (execXor c sd sa sb s) := by
  grind [execXor, canon_issueOne, canon_effScl, keeps_next]

theorem keeps_execShl (c : CoreId) (sd sa sb : BitVec 5) {s : State} : Keeps ses s (execShl c sd sa sb s) := by
  grind [execShl, canon_issueOne, canon_effScl, keeps_next]

theorem keeps_execShr (c : CoreId) (sd sa sb : BitVec 5) {s : State} : Keeps ses s (execShr c sd sa sb s) := by
  grind [execShr, canon_issueOne, canon_effScl, keeps_next]

theorem keeps_execSra (c : CoreId) (sd sa sb : BitVec 5) {s : State} : Keeps ses s (execSra c sd sa sb s) := by
  grind [execSra, canon_issueOne, canon_effScl, keeps_next]

theorem keeps_execSlt (c : CoreId) (sd sa sb : BitVec 5) {s : State} : Keeps ses s (execSlt c sd sa sb s) := by
  grind [execSlt, canon_issueOne, canon_effScl, keeps_next]

theorem keeps_execSltu (c : CoreId) (sd sa sb : BitVec 5) {s : State} : Keeps ses s (execSltu c sd sa sb s) := by
  grind [execSltu, canon_issueOne, canon_effScl, keeps_next]

theorem keeps_execSeq (c : CoreId) (sd sa sb : BitVec 5) {s : State} : Keeps ses s (execSeq c sd sa sb s) := by
  grind [execSeq, canon_issueOne, canon_effScl, keeps_next]

theorem keeps_execMin (c : CoreId) (sd sa sb : BitVec 5) {s : State} : Keeps ses s (execMin c sd sa sb s) := by
  grind [execMin, canon_issueOne, canon_effScl, keeps_next]

theorem keeps_execMax (c : CoreId) (sd sa sb : BitVec 5) {s : State} : Keeps ses s (execMax c sd sa sb s) := by
  grind [execMax, canon_issueOne, canon_effScl, keeps_next]

theorem keeps_execAddi (c : CoreId) (sd sa : BitVec 5) (imm : BitVec 16) {s : State} : Keeps ses s (execAddi c sd sa imm s) := by
  grind [execAddi, canon_issueOne, canon_effScl, keeps_next]

theorem keeps_execAndi (c : CoreId) (sd sa : BitVec 5) (imm : BitVec 16) {s : State} : Keeps ses s (execAndi c sd sa imm s) := by
  grind [execAndi, canon_issueOne, canon_effScl, keeps_next]

theorem keeps_execOri (c : CoreId) (sd sa : BitVec 5) (imm : BitVec 16) {s : State} : Keeps ses s (execOri c sd sa imm s) := by
  grind [execOri, canon_issueOne, canon_effScl, keeps_next]

theorem keeps_execXori (c : CoreId) (sd sa : BitVec 5) (imm : BitVec 16) {s : State} : Keeps ses s (execXori c sd sa imm s) := by
  grind [execXori, canon_issueOne, canon_effScl, keeps_next]

theorem keeps_execShli (c : CoreId) (sd sa : BitVec 5) (imm : BitVec 16) {s : State} : Keeps ses s (execShli c sd sa imm s) := by
  grind [execShli, canon_issueOne, canon_effScl, keeps_next]

theorem keeps_execShri (c : CoreId) (sd sa : BitVec 5) (imm : BitVec 16) {s : State} : Keeps ses s (execShri c sd sa imm s) := by
  grind [execShri, canon_issueOne, canon_effScl, keeps_next]

theorem keeps_execSrai (c : CoreId) (sd sa : BitVec 5) (imm : BitVec 16) {s : State} : Keeps ses s (execSrai c sd sa imm s) := by
  grind [execSrai, canon_issueOne, canon_effScl, keeps_next]

theorem keeps_execSlti (c : CoreId) (sd sa : BitVec 5) (imm : BitVec 16) {s : State} : Keeps ses s (execSlti c sd sa imm s) := by
  grind [execSlti, canon_issueOne, canon_effScl, keeps_next]

theorem keeps_execMovi (c : CoreId) (sd : BitVec 5) (imm : BitVec 21) {s : State} : Keeps ses s (execMovi c sd imm s) := by
  grind [execMovi, canon_issueOne, canon_effScl, keeps_next]

theorem keeps_execInsh (c : CoreId) (sd : BitVec 5) (k : BitVec 2) (imm : BitVec 16) {s : State} : Keeps ses s (execInsh c sd k imm s) := by
  grind [execInsh, canon_issueOne, canon_effScl, keeps_next]

theorem keeps_execRdsp (c : CoreId) (sd : BitVec 5) (sel : BitVec 4) {s : State} : Keeps ses s (execRdsp c sd sel s) := by
  grind [execRdsp, canon_issueOne, canon_effScl, keeps_next]

theorem keeps_execTcfg (c : CoreId) (tn : BitVec 6) (sa : BitVec 5) {s : State} : Keeps ses s (execTcfg c tn sa s) := by
  grind [execTcfg, canon_issueOne, canon_effScl, keeps_next]

theorem keeps_execMul (c : CoreId) (sd sa sb : BitVec 5) {s : State} : Keeps ses s (execMul c sd sa sb s) := by
  grind [execMul, canon_issueOne, canon_effScl, keeps_next]

theorem keeps_execMulh (c : CoreId) (sd sa sb : BitVec 5) {s : State} : Keeps ses s (execMulh c sd sa sb s) := by
  grind [execMulh, canon_issueOne, canon_effScl, keeps_next]

theorem keeps_execMulhu (c : CoreId) (sd sa sb : BitVec 5) {s : State} : Keeps ses s (execMulhu c sd sa sb s) := by
  grind [execMulhu, canon_issueOne, canon_effScl, keeps_next]

theorem keeps_execDiv (c : CoreId) (sd sa sb : BitVec 5) {s : State} : Keeps ses s (execDiv c sd sa sb s) := by
  grind [execDiv, canon_issueOne, canon_effScl, keeps_next]

theorem keeps_execDivu (c : CoreId) (sd sa sb : BitVec 5) {s : State} : Keeps ses s (execDivu c sd sa sb s) := by
  grind [execDivu, canon_issueOne, canon_effScl, keeps_next]

theorem keeps_execRem (c : CoreId) (sd sa sb : BitVec 5) {s : State} : Keeps ses s (execRem c sd sa sb s) := by
  grind [execRem, canon_issueOne, canon_effScl, keeps_next]

theorem keeps_execRemu (c : CoreId) (sd sa sb : BitVec 5) {s : State} : Keeps ses s (execRemu c sd sa sb s) := by
  grind [execRemu, canon_issueOne, canon_effScl, keeps_next]

theorem keeps_execFadd (c : CoreId) (sd sa sb : BitVec 5) {s : State} : Keeps ses s (execFadd c sd sa sb s) := by
  grind [execFadd, canon_issueOne, canon_effScl, keeps_next]

theorem keeps_execFmul (c : CoreId) (sd sa sb : BitVec 5) {s : State} : Keeps ses s (execFmul c sd sa sb s) := by
  grind [execFmul, canon_issueOne, canon_effScl, keeps_next]

theorem keeps_execFfma (c : CoreId) (sd sa sb : BitVec 5) {s : State} : Keeps ses s (execFfma c sd sa sb s) := by
  grind [execFfma, canon_issueOne, canon_effScl, keeps_next]

theorem keeps_execFcvti (c : CoreId) (sd sa : BitVec 5) {s : State} : Keeps ses s (execFcvti c sd sa s) := by
  grind [execFcvti, canon_issueOne, canon_effScl, keeps_next]

theorem keeps_execIcvtf (c : CoreId) (sd sa : BitVec 5) {s : State} : Keeps ses s (execIcvtf c sd sa s) := by
  grind [execIcvtf, canon_issueOne, canon_effScl, keeps_next]

/-! ### VEC slot -/

theorem canon_effVec {rd : State} (c : CoreId) (i : Instr) {s : State} (hs : s.canonFor ses) : (effVec rd c i s).canonFor ses := by
  unfold effVec
  split
  · exact canon_setS _ _ _ hs
  · split
    · exact canon_setV _ _ _ hs
    · exact hs

theorem keeps_execVadd (c : CoreId) (vd va vb : BitVec 4) {s : State} : Keeps ses s (execVadd c vd va vb s) := by
  grind [execVadd, canon_issueOne, canon_effVec, keeps_next]

theorem keeps_execVsub (c : CoreId) (vd va vb : BitVec 4) {s : State} : Keeps ses s (execVsub c vd va vb s) := by
  grind [execVsub, canon_issueOne, canon_effVec, keeps_next]

theorem keeps_execVmul (c : CoreId) (vd va vb : BitVec 4) {s : State} : Keeps ses s (execVmul c vd va vb s) := by
  grind [execVmul, canon_issueOne, canon_effVec, keeps_next]

theorem keeps_execVfma (c : CoreId) (vd va vb vc : BitVec 4) {s : State} : Keeps ses s (execVfma c vd va vb vc s) := by
  grind [execVfma, canon_issueOne, canon_effVec, keeps_next]

theorem keeps_execVcmp (c : CoreId) (vd va vb : BitVec 4) (cond : BitVec 3) {s : State} : Keeps ses s (execVcmp c vd va vb cond s) := by
  grind [execVcmp, canon_issueOne, canon_effVec, keeps_next]

theorem keeps_execVsel (c : CoreId) (vd va vb vc : BitVec 4) {s : State} : Keeps ses s (execVsel c vd va vb vc s) := by
  grind [execVsel, canon_issueOne, canon_effVec, keeps_next]

theorem keeps_execVand (c : CoreId) (vd va vb : BitVec 4) {s : State} : Keeps ses s (execVand c vd va vb s) := by
  grind [execVand, canon_issueOne, canon_effVec, keeps_next]

theorem keeps_execVor (c : CoreId) (vd va vb : BitVec 4) {s : State} : Keeps ses s (execVor c vd va vb s) := by
  grind [execVor, canon_issueOne, canon_effVec, keeps_next]

theorem keeps_execVxor (c : CoreId) (vd va vb : BitVec 4) {s : State} : Keeps ses s (execVxor c vd va vb s) := by
  grind [execVxor, canon_issueOne, canon_effVec, keeps_next]

theorem keeps_execVmin (c : CoreId) (vd va vb : BitVec 4) {s : State} : Keeps ses s (execVmin c vd va vb s) := by
  grind [execVmin, canon_issueOne, canon_effVec, keeps_next]

theorem keeps_execVmax (c : CoreId) (vd va vb : BitVec 4) {s : State} : Keeps ses s (execVmax c vd va vb s) := by
  grind [execVmax, canon_issueOne, canon_effVec, keeps_next]

theorem keeps_execVbcast (c : CoreId) (vd : BitVec 4) (sx : BitVec 5) {s : State} : Keeps ses s (execVbcast c vd sx s) := by
  grind [execVbcast, canon_issueOne, canon_effVec, keeps_next]

theorem keeps_execVext (c : CoreId) (sx : BitVec 5) (va : BitVec 4) (lane : BitVec 5) {s : State} : Keeps ses s (execVext c sx va lane s) := by
  grind [execVext, canon_issueOne, canon_effVec, keeps_next]

theorem keeps_execVexp (c : CoreId) (vd va : BitVec 4) {s : State} : Keeps ses s (execVexp c vd va s) := by
  grind [execVexp, canon_issueOne, canon_effVec, keeps_next]

theorem keeps_execVlog (c : CoreId) (vd va : BitVec 4) {s : State} : Keeps ses s (execVlog c vd va s) := by
  grind [execVlog, canon_issueOne, canon_effVec, keeps_next]

theorem keeps_execVrcp (c : CoreId) (vd va : BitVec 4) {s : State} : Keeps ses s (execVrcp c vd va s) := by
  grind [execVrcp, canon_issueOne, canon_effVec, keeps_next]

theorem keeps_execVrsq (c : CoreId) (vd va : BitVec 4) {s : State} : Keeps ses s (execVrsq c vd va s) := by
  grind [execVrsq, canon_issueOne, canon_effVec, keeps_next]

theorem keeps_execVtanh (c : CoreId) (vd va : BitVec 4) {s : State} : Keeps ses s (execVtanh c vd va s) := by
  grind [execVtanh, canon_issueOne, canon_effVec, keeps_next]

theorem keeps_execVrsum (c : CoreId) (vd va : BitVec 4) {s : State} : Keeps ses s (execVrsum c vd va s) := by
  grind [execVrsum, canon_issueOne, canon_effVec, keeps_next]

theorem keeps_execVrmax (c : CoreId) (vd va : BitVec 4) {s : State} : Keeps ses s (execVrmax c vd va s) := by
  grind [execVrmax, canon_issueOne, canon_effVec, keeps_next]

theorem keeps_execTvop (c : CoreId) (td ta n func : BitVec 6) (vb vc : BitVec 4) (bsrc : BitVec 2) (cond : BitVec 3) {s : State} : Keeps ses s (execTvop
    c td ta n func vb vc bsrc cond s) := by
  grind [execTvop, canon_issueOne, canon_runFlight, keeps_next]

theorem keeps_execTred (c : CoreId) (vd : BitVec 4) (ta n : BitVec 6) (kind : BitVec 3) (vb : BitVec 4) {s : State} : Keeps ses s (execTred c vd ta n
    kind vb s) := by
  grind [execTred, canon_issueOne, canon_runFlight, keeps_next]

/-! ### The mesh -/

theorem canon_addBeat {s : State} (dest inp due src : Nat) (data : Bytes) (hs : s.canonFor ses) : (s.addBeat dest inp due src data).canonFor ses := hs

theorem canon_laneOut {s : State} (c : CoreId) (l t src : Nat) (data : Bytes) (hs : s.canonFor ses) : (s.laneOut c l t src data).canonFor ses := by
  grind [State.laneOut, canon_addBeat, canon_count]

theorem canon_beatOut {s : State} (c : CoreId) (o t flow src : Nat) (data : Bytes) (hs : s.canonFor ses) : (s.beatOut c o t flow src data).canonFor ses := by
  grind [State.beatOut, canon_addBeat, canon_laneOut]

theorem canon_beatAll {s : State} (c : CoreId) (t src : Nat) (data : Bytes) (l : List (Nat × Nat)) (hs : s.canonFor ses) : (s.beatAll c t src data l).canonFor ses
    := by
  grind [State.beatAll, canon_beatOut, canon_foldl]

theorem canon_bindOpen {s : State} (c : CoreId) (f ct base stride n : Nat) (hs : s.canonFor ses) : (s.bindOpen c f ct base stride n).canonFor ses := by
  grind [State.bindOpen, canon_setReg]

theorem canon_bindClose {s : State} (c : CoreId) (f : Nat) (hs : s.canonFor ses) : (s.bindClose c f).canonFor ses := by
  grind [State.bindClose, canon_setReg, canon_foldl]

theorem canon_addPost {s : State} (c : CoreId) (at_ ct n : Nat) (hs : s.canonFor ses) : (s.addPost c at_ ct n).canonFor ses := canon_modCore _ _ hs

theorem canon_ejectStray {s : State} (c : CoreId) (f : Nat) (hs : s.canonFor ses) : (s.ejectStray c f).canonFor ses := canon_faultCore _ _ hs

theorem canon_ejectWrite {s : State} (c : CoreId) (f : Nat) (data : Bytes) (hs : s.canonFor ses) : (s.ejectWrite c f data).canonFor ses := by
  grind [State.ejectWrite, canon_ejectStray, canon_fput, canon_wrStore, canon_modCore, canon_addPost, canon_update]

theorem canon_beatPass {s : State} (c : CoreId) (inp : Nat) (lane2 : Bool) (src : Nat) (data : Bytes) (hs : s.canonFor ses) : (s.beatPass c inp lane2 src
    data).canonFor ses := by
  grind [State.beatPass, canon_faultCore, canon_beatAll, canon_laneOut]

theorem canon_beatIn {s : State} (c : CoreId) (inp : Nat) (lane2 : Bool) (src : Nat) (data : Bytes) (ecc : EccRes) (hs : s.canonFor ses) :
    (s.beatIn c inp lane2 src data ecc).canonFor ses := by
  cases ecc <;> grind [State.beatIn, canon_beatPass, canon_countC, canon_fput, canon_faultHall]

theorem canon_attachIn {s : State} (c : CoreId) (inp : Nat) (hs : s.canonFor ses) : (s.attachIn c inp).canonFor ses := by
  grind [State.attachIn, canon_count]

theorem keeps_execMeshBeat (c : CoreId) (inp : BitVec 3) (lane2 : Bool) (data : Bytes) (ecc : EccRes) {s : State} : Keeps ses s (execMeshBeat c inp lane2
    data ecc s) := by
  grind [execMeshBeat, canon_beatIn, canon_attachIn, keeps_next, canon_update]

theorem canon_sendRow {s : State} (c : CoreId) (f t : Nat) (data : Bytes) (hs : s.canonFor ses) : (s.sendRow c f t data).canonFor ses := by
  grind [State.sendRow, canon_beatAll, canon_laneOut]

theorem canon_sendStart {s : State} (c : CoreId) (ts n flow ct : BitVec 6) (hs : s.canonFor ses) : (s.sendStart c ts n flow ct).canonFor ses := by
  grind [State.sendStart, canon_addPost, canon_modCore, canon_update]

theorem canon_sendRest {s : State} (c : CoreId) (x : SendS) (hs : s.canonFor ses) : (s.sendRest c x).canonFor ses := by
  grind [State.sendRest, canon_sendRow, canon_foldl]

theorem canon_sendEnd {s : State} (c : CoreId) (x : SendS) (at_ : Nat) (hs : s.canonFor ses) : (s.sendEnd c x at_).canonFor ses := by
  grind [State.sendEnd, canon_addPost, canon_modCore, canon_update]

theorem canon_closings {s : State} (c : CoreId) (t : Nat) (hs : s.canonFor ses) : (s.closings c t).canonFor ses := by
  grind [State.closings, canon_bindClose, canon_modCore, canon_foldl, canon_update]

theorem canon_posts {s : State} (c : CoreId) (t : Nat) (hs : s.canonFor ses) : (s.posts c t).canonFor ses := by
  grind [State.posts, canon_closings, canon_ctPost, canon_modCore, canon_foldl, canon_update]

theorem keeps_execMsndComplete (c : CoreId) (flow : BitVec 6) {s : State} : Keeps ses s (execMsndComplete c flow s) := by
  grind [execMsndComplete, canon_posts, canon_sendEnd, canon_sendRest, keeps_next]

/-! ### MOV slot -/

theorem keeps_execTld (c : CoreId) (tl n : BitVec 6) (sb ss : BitVec 5) (off : BitVec 16) {s : State} : Keeps ses s (execTld c tl n sb ss off s) := by
  grind [execTld, canon_issueOne, canon_runFlight, keeps_next]

theorem keeps_execTst (c : CoreId) (tl n : BitVec 6) (sb ss : BitVec 5) (off : BitVec 16) {s : State} : Keeps ses s (execTst c tl n sb ss off s) := by
  grind [execTst, canon_issueOne, canon_runFlight, keeps_next]

theorem keeps_execTcpy (c : CoreId) (td n ts : BitVec 6) {s : State} : Keeps ses s (execTcpy c td n ts s) := by
  grind [execTcpy, canon_issueOne, canon_runFlight, keeps_next]

theorem keeps_execMsnd (c : CoreId) (ts n flow ct : BitVec 6) {s : State} : Keeps ses s (execMsnd c ts n flow ct s) := by
  grind [execMsnd, canon_issueOne, canon_ctPost, canon_sendStart, keeps_next]

theorem canon_effMbind {rd : State} (c : CoreId) (flow ct : BitVec 6) (sb ss sn : BitVec 5) {s : State} (hs : s.canonFor ses) : (effMbind rd c flow ct sb ss
    sn s).canonFor ses := by
  grind [effMbind, canon_ctPost, canon_modCore, canon_bindOpen, canon_update]

theorem keeps_execMbind (c : CoreId) (flow ct : BitVec 6) (sb ss sn : BitVec 5) {s : State} : Keeps ses s (execMbind c flow ct sb ss sn s) := by
  grind [execMbind, canon_issueOne, canon_effMbind, keeps_next]

theorem canon_effSlnch {rd : State} (c : CoreId) (sb : BitVec 5) (off : BitVec 16) {s : State} (hs : s.canonFor ses) : (effSlnch rd c sb off s).canonFor ses := by
  grind [effSlnch, canon_modCore, canon_fput, canon_setReg, canon_update]

theorem keeps_execSlnch (c : CoreId) (sb : BitVec 5) (off : BitVec 16) {s : State} : Keeps ses s (execSlnch c sb off s) := by
  grind [execSlnch, canon_issueOne, canon_effSlnch, keeps_next]

theorem keeps_execSld (c : CoreId) (sd sb : BitVec 5) (w : BitVec 2) (sx : Bool) (off : BitVec 16) {s : State} : Keeps ses s (execSld c sd sb w sx off s)
    := by
  grind [execSld, canon_issueOne, canon_runFlight, keeps_next]

theorem keeps_execSst (c : CoreId) (sa sb : BitVec 5) (w : BitVec 2) (off : BitVec 16) {s : State} : Keeps ses s (execSst c sa sb w off s) := by
  grind [execSst, canon_issueOne, canon_runFlight, keeps_next]

theorem keeps_execVld (c : CoreId) (vd : BitVec 4) (sb : BitVec 5) (off : BitVec 16) {s : State} : Keeps ses s (execVld c vd sb off s) := by
  grind [execVld, canon_issueOne, canon_runFlight, keeps_next]

theorem keeps_execVst (c : CoreId) (va : BitVec 4) (sb : BitVec 5) (off : BitVec 16) {s : State} : Keeps ses s (execVst c va sb off s) := by
  grind [execVst, canon_issueOne, canon_runFlight, keeps_next]

theorem keeps_execPass (c : CoreId) (ta tw td n : BitVec 6) (rate : BitVec 2) (keep chain : Bool) {s : State} : Keeps ses s (execPass c ta tw td n rate
    keep chain s) := by
  grind [execPass, canon_issueOne, canon_passSettle, canon_passIssue, keeps_next]

theorem keeps_execPassCheck (c : CoreId) (upsets : List (BitVec 10 × BitVec 32)) {s : State} : Keeps ses s (execPassCheck c upsets s) := by
  grind [execPassCheck, canon_endCheck, keeps_next]

theorem keeps_execAstat (c : CoreId) (sd : BitVec 5) {s : State} : Keeps ses s (execAstat c sd s) := by
  grind [execAstat, canon_issueOne, canon_setS, keeps_next]

/-! ### SYN slot -/

theorem canon_effPost {rd : State} (c : CoreId) (sc : BitVec 6) (mode : BitVec 2) (imm : BitVec 16) {s : State} (hs : s.canonFor ses) : (effPost rd c sc
    mode imm s).canonFor ses := by
  grind [effPost, canon_scSet, canon_scAdd]

theorem canon_effWait {rd : State} (c : CoreId) (sc : BitVec 6) (mode : BitVec 2) (consume : Bool) (imm : BitVec 16) {s : State} (hs : s.canonFor ses) :
    (effWait rd c sc mode consume imm s).canonFor ses := by
  grind [effWait, canon_scAdd]

theorem canon_semSend {s : State} (c : CoreId) (type : Nat) (w : Word) (p0 p1 : BitVec 32) (hs : s.canonFor ses) : (s.semSend c type w p0 p1).canonFor ses := by
  grind [State.semSend, canon_bellFrom]

theorem canon_effGpost {rd : State} (c : CoreId) (sa : BitVec 5) (mode : BitVec 2) (imm : BitVec 16) {s : State} (hs : s.canonFor ses) : (effGpost rd c sa
    mode imm s).canonFor ses := canon_semSend _ _ _ _ _ hs

theorem canon_effGwait {rd : State} (c : CoreId) (sa : BitVec 5) (mode : BitVec 2) (consume : Bool) (imm : BitVec 16) {s : State} (hs : s.canonFor ses) :
    (effGwait rd c sa mode consume imm s).canonFor ses := by
  grind [effGwait, canon_modCore, canon_fput, canon_semSend, canon_update]

theorem canon_effGwatch {rd : State} (c : CoreId) (sa sv : BitVec 5) (sc : BitVec 6) (cond : BitVec 2) {s : State} (hs : s.canonFor ses) : (effGwatch rd c
    sa sv sc cond s).canonFor ses := by
  grind [effGwatch, canon_fput, canon_semSend]

theorem keeps_execPost (c : CoreId) (sc : BitVec 6) (mode : BitVec 2) (imm : BitVec 16) {s : State} : Keeps ses s (execPost c sc mode imm s) := by
  grind [execPost, canon_issueOne, canon_effPost, keeps_next]

theorem keeps_execWait (c : CoreId) (sc : BitVec 6) (mode : BitVec 2) (consume : Bool) (imm : BitVec 16) {s : State} : Keeps ses s (execWait c sc mode
    consume imm s) := by
  grind [execWait, canon_issueOne, canon_effWait, keeps_next]

theorem keeps_execGpost (c : CoreId) (sa : BitVec 5) (mode : BitVec 2) (imm : BitVec 16) {s : State} : Keeps ses s (execGpost c sa mode imm s) := by
  grind [execGpost, canon_issueOne, canon_effGpost, keeps_next]

theorem keeps_execGwait (c : CoreId) (sa : BitVec 5) (mode : BitVec 2) (consume : Bool) (imm : BitVec 16) {s : State} : Keeps ses s (execGwait c sa mode
    consume imm s) := by
  grind [execGwait, canon_issueOne, canon_effGwait, keeps_next]

theorem keeps_execGwatch (c : CoreId) (sa sv : BitVec 5) (sc : BitVec 6) (cond : BitVec 2) {s : State} : Keeps ses s (execGwatch c sa sv sc cond s) := by
  grind [execGwatch, canon_issueOne, canon_effGwatch, keeps_next]

/-! ### Fetch and issue -/

theorem canon_fetch {s : State} (c : CoreId) (hs : s.canonFor ses) : (s.fetch c).canonFor ses := by
  grind [State.fetch, canon_setCore, canon_update]

theorem canon_keepLine {s : State} (c : CoreId) (pc : Nat) (hs : s.canonFor ses) : (s.keepLine c pc).canonFor ses := by
  grind [State.keepLine, canon_setCore, canon_update]

theorem keeps_execBundleFetch (c : CoreId) {s : State} : Keeps ses s (execBundleFetch c s) := keeps_next (canon_fetch _)

theorem canon_slotEff {rd : State} (c : CoreId) (i : Instr) {s : State} (hs : s.canonFor ses) : (slotEff rd c i s).canonFor ses := by
  have hbody : ∀ {t : State}, t.canonFor ses → t.canonFor ses := fun h => h
  unfold slotEff
  grind [canon_modCore, canon_passIn, canon_setS, canon_sendStart, canon_addPost, canon_effMbind, canon_effSlnch, canon_effPost, canon_effWait,
    canon_effGpost, canon_effGwait, canon_effGwatch, canon_effVec, canon_effScl, canon_effCtl]

theorem canon_issueBundle {s : State} (c : CoreId) (b : BundleS) (l : List Instr) (hs : s.canonFor ses) : (s.issueBundle c b l).canonFor ses := by
  grind [State.issueBundle, canon_modCore, canon_keepLine, canon_jump, canon_loopEnd, canon_setPc, canon_stepped, canon_slotEff, canon_foldl,
    canon_update]

theorem canon_stall {s : State} (c : CoreId) (i : Nat) (onCounter : Bool) (hs : s.canonFor ses) : (s.stall c i onCounter).canonFor ses := canon_modCore _ _ hs

theorem canon_restartOne {s : State} (c : CoreId) (hs : s.canonFor ses) : (s.restartOne c).canonFor ses := by
  grind [State.restartOne, canon_stall, canon_faultCore, canon_modCore, canon_passIn, canon_pendSync, canon_update]

theorem canon_tryIssue {s : State} (c : CoreId) (hs : s.canonFor ses) : (s.tryIssue c).canonFor ses := by
  grind [State.tryIssue, canon_stall, canon_faultCore, canon_restartOne, canon_modCore, canon_issueBundle, canon_update]

theorem keeps_execBundleIssue (c : CoreId) {s : State} : Keeps ses s (execBundleIssue c s) := keeps_next (canon_tryIssue _)

theorem keeps_execSyncClockGate (c : CoreId) {s : State} : Keeps ses s (execSyncClockGate c s) := by
  grind [execSyncClockGate, canon_modCore, keeps_next, canon_update]

theorem keeps_execSyncTimeout (c : CoreId) {s : State} : Keeps ses s (execSyncTimeout c s) := by
  grind (gen := 24) (ematch := 24) [execSyncTimeout, canon_modCore, canon_fput, canon_faultCore, keeps_next, canon_update]

/-! ### Halts, stops, save and restore -/

theorem keeps_execStependRetire (c : CoreId) {s : State} : Keeps ses s (execStependRetire c s) := by
  grind [execStependRetire, canon_modCore, keeps_next, canon_update]

theorem keeps_execContextStepBoundary (k : CtxId) {s : State} : Keeps ses s (execContextStepBoundary k s) := by
  grind [execContextStepBoundary, canon_faultCore, canon_modCtx, canon_pfcCheck, canon_pondCommit, keeps_next, canon_foldl, canon_update]

theorem canon_stepFigures {s : State} (hs : s.canonFor ses) : (s.stepFigures).canonFor ses := by
  grind [State.stepFigures, canon_fput, canon_update]

theorem keeps_execDeviceStepBoundary {s : State} : Keeps ses s (execDeviceStepBoundary s) := by
  grind [execDeviceStepBoundary, canon_stepFigures, keeps_next, canon_update]

theorem keeps_execJoinTimeout (k : CtxId) {s : State} : Keeps ses s (execJoinTimeout k s) := by
  grind [execJoinTimeout, canon_tryRelease, canon_modCtx, keeps_next, canon_update]

theorem canon_resumeCore {s : State} (c : CoreId) (hs : s.canonFor ses) : (s.resumeCore c).canonFor ses := by
  grind [State.resumeCore, canon_modCore, canon_fput, canon_settle, canon_update]

theorem keeps_execCoreHalt (c : CoreId) {s : State} : Keeps ses s (execCoreHalt c s) := by
  grind [execCoreHalt, canon_fput, canon_askStop, keeps_next]

theorem keeps_execCoreResume (c : CoreId) {s : State} : Keeps ses s (execCoreResume c s) := by
  grind [execCoreResume, canon_fput, canon_modCore, canon_resumeCore, canon_tileRestart, keeps_next, canon_update]

theorem keeps_execCoreStep (c : CoreId) {s : State} : Keeps ses s (execCoreStep c s) := by
  grind [execCoreStep, canon_modCore, canon_resumeCore, canon_tileRestart, keeps_next, canon_update]

theorem canon_tellDone {s : State} (c : CoreId) (hs : s.canonFor ses) : (s.tellDone c).canonFor ses := canon_bellFrom _ _ _ hs

theorem canon_stopped {s : State} (c : CoreId) (cause : StopCause) (hs : s.canonFor ses) : (s.stopped c cause).canonFor ses := by
  cases cause <;> grind (gen := 24) (ematch := 24) [State.stopped, canon_modCore, canon_fput, canon_tellDone]

theorem canon_tellLate {s : State} (c : CoreId) (hs : s.canonFor ses) : (s.tellLate c).canonFor ses := by
  grind [State.tellLate, canon_tellDone, canon_modCore, canon_update]

theorem canon_stopCore {s : State} (c : CoreId) (cause : StopCause) (hs : s.canonFor ses) : (s.stopCore c cause).canonFor ses := by
  grind [State.stopCore, canon_countC, canon_modCore, canon_stopped, canon_pendSync]

theorem keeps_execCoreStop (c : CoreId) {s : State} : Keeps ses s (execCoreStop c s) := by
  grind [execCoreStop, canon_stopCore, canon_modCore, keeps_next, canon_update]

theorem keeps_execContextSave (c : CoreId) {s : State} : Keeps ses s (execContextSave c s) := by
  grind [execContextSave, canon_modCtx, canon_ctxBlank, canon_settle, keeps_next, canon_update]

theorem keeps_execContextRestore (at_ : CtxAt) {s : State} : Keeps ses s (execContextRestore at_ s) := by
  have hregs (l : List (Nat × Word)) {t : State} (ht : t.canonFor ses) : (l.foldl (fun s e => s.setReg e.1 e.2) t).canonFor ses :=
    canon_foldl (fun _ _ hu => canon_setReg _ _ hu) l ht
  have htiles (l : List Host.Cell) {m : List Host.Cell} (hm : Memory.wf m = true) :
      Memory.wf (l.foldl (fun m e => sset memDefault m e.1 e.2) m) = true :=
    List.foldlRecOn (motive := fun m => Memory.wf m = true) l _ hm fun m hm e _ => swf_sset _ _ _ _ hm
  unfold execContextRestore
  extract_lets c k
  split
  · exact keeps_next id
  · next i _ =>
    split_ifs
    · exact keeps_next id
    · refine keeps_next fun hs => canon_modCtx _ _ (canon_setCore _ _ (canon_fput _ _ _ (canon_fput _ _ _ (canon_fput _ _ _ (canon_setReg _ _ ?_)))))
      have h1 := hregs i.regs (canon_ctxBlank c hs)
      exact ⟨⟨h1.1.1, htiles i.tiles (swf_filter _ _ _ h1.1.2.1), h1.1.2.2⟩, h1.2⟩

theorem keeps_execPreempt (c : CoreId) (k : CtxId) (act : BitVec 2) {s : State} : Keeps ses s (execPreempt c k act s) := by
  grind [execPreempt, keeps_delivered, canon_askStop, canon_modCore, canon_resumeCore, canon_tileRestart, keeps_next, canon_update]

theorem canon_stageRelease {s : State} (k : Nat) (hs : s.canonFor ses) : (s.stageRelease k).canonFor ses := by
  grind [State.stageRelease, canon_modCtx, canon_modCore, canon_update]

theorem canon_ctxStopped {s : State} (k : CtxId) (hs : s.canonFor ses) : (s.ctxStopped k).canonFor ses := by
  grind (gen := 24) (ematch := 24) [State.ctxStopped, canon_modCtx, canon_orphanCtx, canon_stageRelease, canon_modCore, canon_runGoes, canon_notify, canon_idleCheck,
    canon_groupReport, canon_foldl, canon_update]

theorem keeps_execStopDone (c : CoreId) (k : CtxId) {s : State} : Keeps ses s (execStopDone c k s) := by
  grind [execStopDone, keeps_delivered, canon_modCtx, canon_haltCheck, canon_ctxStopped, keeps_next, canon_update]

theorem keeps_execBellFault (src : FaultSrc) (k : CtxId) (code pc : BitVec 16) (param : BitVec 32) {s : State} : Keeps ses s (execBellFault src k code pc
    param s) := by
  grind [execBellFault, keeps_delivered, canon_stopCtx, canon_fput, keeps_next]

/-! ### The bell wire -/

theorem canon_bellBad {s : State} (m : BellMsg) (at_ : CoreId) (hs : s.canonFor ses) : (s.bellBad m at_).canonFor ses := canon_faultHall _ _ _ hs

theorem canon_atLink {s : State} (n : Nat) (m : BellMsg) (hs : s.canonFor ses) : (s.atLink n m).canonFor ses := by
  grind [State.atLink, canon_semAddReq, canon_ctlRoute, canon_update]

theorem canon_bellSpread {s : State} (m : BellMsg) (h : Nat) (hs : s.canonFor ses) : (s.bellSpread m h).canonFor ses := by
  grind [State.bellSpread, canon_bellAt, canon_foldl]

theorem canon_bellArrive {s : State} (m : BellMsg) (node : BellNode) (at_ : CoreId) (hs : s.canonFor ses) : (s.bellArrive m node at_).canonFor ses := by
  cases node <;> grind [State.bellArrive, canon_bellBad, canon_bellSpread, canon_atLink, canon_update]

theorem keeps_execBellHop (m : BellMsg) (errs : BitVec 2) {s : State} : Keeps ses s (execBellHop m errs s) := by
  grind [execBellHop, canon_countC, canon_faultHall, canon_bellArrive, canon_bellBad, keeps_next, canon_update]

end

end Sys2Proof.Machine

/-! ## Every operation keeps the canonical form: streams, stacks and the passing of time -/

namespace Sys2Proof.Machine

/- Many short proofs: one after another they need far less memory than on many threads. -/
set_option Elab.async false

section
variable {ses : Option (List Session)}

/-! ### Stack caches -/

theorem canon_stkCount {s : State} (r : Nat → Nat → Nat) (k : Nat) (hs : s.canonFor ses) : (s.stkCount r k).canonFor ses := canon_count _ _ hs

theorem canon_cacheIn {s : State} (k line : Nat) (dirty : Bool) (hs : s.canonFor ses) : (s.cacheIn k line dirty).canonFor ses := by
  grind [State.cacheIn, canon_modStack, canon_stkCount, canon_update]

theorem canon_wbDrain {s : State} (hs : s.canonFor ses) : (s.wbDrain).canonFor ses := by
  grind [State.wbDrain, canon_modStack, canon_foldl, canon_update]

theorem canon_pfUse {s : State} (c : CoreId) (id k line : Nat) (hit : Bool) (hs : s.canonFor ses) : (s.pfUse c id k line hit).canonFor ses := by
  grind [State.pfUse, canon_modCore, canon_modStack, canon_stkCount, canon_update]

theorem canon_lineIn {s : State} (line : Nat) (kind : StackReq) {t : State} {x : Bool} (hs : s.canonFor ses) (ht : s.lineIn line kind = some (t, x)) :
    t.canonFor ses := by
  grind [State.lineIn, canon_modStack, canon_cacheIn, canon_stkCount, canon_update]

theorem canon_lineRefused {s : State} (line : Nat) (hs : s.canonFor ses) : (s.lineRefused line).canonFor ses := by
  grind [State.lineRefused, canon_stkCount]

theorem canon_lineTouch {s : State} (c : CoreId) (id line : Nat) (kind : StackReq) {t : State} (hs : s.canonFor ses)
    (ht : s.lineTouch c id line kind = some t) : t.canonFor ses := by
  obtain ⟨r, hr, rfl⟩ := Option.map_eq_some_iff.1 ht
  have hin : r.1.canonFor ses := canon_lineIn (x := r.2) line kind hs hr
  dsimp only
  split_ifs
  · exact canon_pfUse _ _ _ _ _ (canon_count _ _ (canon_count _ _ hin))
  · exact canon_count _ _ (canon_count _ _ hin)

theorem canon_linesTouch {s : State} (c : CoreId) (id : Nat) (l : List (Nat × StackReq)) {t : State} (hs : s.canonFor ses)
    (ht : s.linesTouch c id l = .ok t) : t.canonFor ses := by
  revert t
  refine List.foldlRecOn (motive := fun a : Except Nat State => ∀ {t}, a = .ok t → t.canonFor ses) l _ (by grind) fun a ha e _ u hu => ?_
  grind [canon_lineTouch]

theorem canon_bankCheck {s : State} (k bank : Nat) (hs : s.canonFor ses) : (s.bankCheck k bank).canonFor ses := by
  grind [State.bankCheck, canon_modStack, canon_update]

theorem canon_banksCheck {s : State} (k : Nat) (hs : s.canonFor ses) : (s.banksCheck k).canonFor ses := by
  grind [State.banksCheck, canon_bankCheck, canon_foldl]

/-! ### Descriptors -/

theorem canon_modDesc {s : State} (c : CoreId) (e : Nat) (f : DescS → DescS) (hs : s.canonFor ses) : (s.modDesc c e f).canonFor ses := canon_modCore _ _ hs

theorem canon_works {s : State} (c : CoreId) (hs : s.canonFor ses) : (s.works c).canonFor ses := canon_modCore _ _ hs

theorem canon_shiftEntries {s : State} (c : CoreId) (n e : Nat) (hs : s.canonFor ses) : (s.shiftEntries c n e).canonFor ses := by
  induction n generalizing s e with
  | zero => exact canon_setReg _ _ (canon_setReg _ _ hs)
  | succ n ih => exact ih _ (canon_setReg _ _ (canon_setReg _ _ hs))

theorem canon_cellarIdle {s : State} (c : CoreId) (hs : s.canonFor ses) : (s.cellarIdle c).canonFor ses := by
  grind [State.cellarIdle, canon_fput]

theorem canon_stageLeave {s : State} (c : CoreId) (id : Nat) (hs : s.canonFor ses) : (s.stageLeave c id).canonFor ses := canon_modCtx _ _ hs

theorem canon_dropDesc {s : State} (c : CoreId) (e : Nat) (hs : s.canonFor ses) : (s.dropDesc c e).canonFor ses := by
  grind (gen := 24) (ematch := 24) [State.dropDesc, canon_fput, canon_shiftEntries, canon_descsGone, canon_modCore, canon_cellarIdle, canon_stageLeave, canon_update]

theorem canon_descFault {s : State} (c : CoreId) (r : EvRec) (hs : s.canonFor ses) : (s.descFault c r).canonFor ses := by
  grind [State.descFault, canon_fput, canon_faultCore]

theorem canon_descRefuse {s : State} (c : CoreId) (e code : Nat) (hs : s.canonFor ses) : (s.descRefuse c e code).canonFor ses := by
  grind [State.descRefuse, canon_dropDesc, canon_descFault]

theorem canon_accFault {s0 : State} (c : CoreId) (e : Nat) (f : AccFault) (hs : s0.canonFor ses) : (s0.accFault c e f).canonFor ses := by
  unfold State.accFault
  extract_lets gone s h k
  have h0 : s.canonFor ses := canon_modCore _ _ (canon_modDesc _ _ _ hs)
  have hfault := fun r => canon_descFault c r h0
  split
  · refine canon_notify _ _ (canon_count _ _ ?_)
    split_ifs
    · exact hfault _
    · exact canon_setReg _ _ (canon_setReg _ _ (hfault _))
  · exact hfault _

theorem canon_walkTouch {s : State} (pa : Nat) (hs : s.canonFor ses) : (s.walkTouch pa).canonFor ses := by
  grind [State.walkTouch, canon_lineIn, canon_lineRefused]

theorem canon_walk {s : State} (c : CoreId) (va acc : Nat) (hs : s.canonFor ses) : (s.walk c va acc).1.canonFor ses := by
  grind [State.walk, canon_walkTouch, canon_count, canon_modCore, canon_update]

theorem canon_xlat {s : State} (c : CoreId) (va acc : Nat) (hs : s.canonFor ses) : (s.xlat c va acc).1.canonFor ses := by
  grind [State.xlat, canon_walk]

theorem canon_xlatBy {s : State} (c : CoreId) (tr : List (Nat × Nat)) (va acc : Nat) (hs : s.canonFor ses) : (s.xlatBy c tr va acc).1.canonFor ses := by
  grind [State.xlatBy, canon_xlat]

theorem canon_xlatParts {s : State} (c : CoreId) (tr : List (Nat × Nat)) (acc : Nat) (l : List (Nat × Nat)) (hs : s.canonFor ses) :
    (s.xlatParts c tr acc l).1.canonFor ses := by
  induction l generalizing s with
  | nil => exact hs
  | cons q l ih => grind [State.xlatParts, canon_xlatBy]

theorem canon_devParts {s : State} (c : CoreId) (tr : List (Nat × Nat)) (a n acc : Nat) (hs : s.canonFor ses) : (s.devParts c tr a n acc).1.canonFor ses := by
  grind [State.devParts, canon_xlatParts]

theorem canon_srcRead {s : State} (c : CoreId) (src : SrcS) (a : ℤ) (n : Nat) (hs : s.canonFor ses) : (s.srcRead c src a n).1.canonFor ses := by
  grind [State.srcRead, canon_devParts]

theorem canon_putParts {s : State} (l : List (Nat × Nat)) (b : Bytes) (hs : s.canonFor ses) : (s.putParts l b).canonFor ses := by
  induction l generalizing s b with
  | nil => exact hs
  | cons q l ih => grind [State.putParts, canon_wrHbm, canon_wrBytes]

theorem canon_fetchRanges {s : State} (c : CoreId) (stage : SrcS) (a : Int) (n : Nat) (l : List (Nat × Nat)) (hs : s.canonFor ses) :
    (s.fetchRanges c stage a n l).1.canonFor ses := by
  induction l generalizing s with
  | nil => exact hs
  | cons q l ih => grind [State.fetchRanges, canon_srcRead]

theorem canon_container {s : State} (c : CoreId) (d : DescP) (stage : SrcS) (l : Loc) (hs : s.canonFor ses) : (s.container c d stage l).1.canonFor ses := by
  grind [State.container, canon_fetchRanges]

theorem canon_elemVal {s : State} (c : CoreId) (d : DescP) (idx : List Nat) (stage : SrcS) (h : Held) (q : Nat × Nat × Nat × Nat) (hs : s.canonFor ses) :
    (s.elemVal c d idx stage h q).1.canonFor ses := by
  grind [State.elemVal, canon_container]

theorem canon_elemVals {s : State} (c : CoreId) (d : DescP) (idx : List Nat) (stage : SrcS) (h : Held) (l : List (Nat × Nat × Nat × Nat))
    (hs : s.canonFor ses) : (s.elemVals c d idx stage h l).1.canonFor ses := by
  induction l generalizing s h with
  | nil => exact hs
  | cons q l ih => grind [State.elemVals, canon_elemVal]

theorem canon_keepOld {s : State} (c : CoreId) (e : Nat) (d : DescP) (a : ℤ) (ps : List (Nat × Nat)) (hs : s.canonFor ses) : (s.keepOld c e d a ps).canonFor ses :=
    by
  grind [State.keepOld, canon_modDesc, canon_update]

theorem canon_doWrite {s : State} (c : CoreId) (e : Nat) (d : DescP) (tr : List (Nat × Nat)) (w : WrS) (hs : s.canonFor ses) :
    (s.doWrite c e d tr w).1.canonFor ses := by
  cases w <;> grind [State.doWrite, canon_devParts, canon_putParts, canon_keepOld]

theorem canon_doWrites {s : State} (c : CoreId) (e : Nat) (d : DescP) (tr : List (Nat × Nat)) (ws : List WrS) (hs : s.canonFor ses) :
    (s.doWrites c e d tr ws).1.canonFor ses := by
  unfold State.doWrites
  extract_lets r
  have hr : r.1.canonFor ses := by
    refine List.foldlRecOn (motive := fun a : State × Except AccFault (List (Nat × Nat)) => a.1.canonFor ses) ws _ hs fun a ha w _ => ?_
    have hw := canon_doWrite c e d tr w ha
    grind
  split
  · exact ⟨⟨hr.1.1, hs.1.2.1, hr.1.2.2⟩, hr.2⟩
  · exact hr

theorem canon_clearWhole {s : State} (ps : List (Nat × Nat)) (hs : s.canonFor ses) : (s.clearWhole ps).canonFor ses := by
  grind [State.clearWhole, canon_update]

theorem canon_gatherSteps {s : State} (c : CoreId) (d : DescP) (idx : List Nat) (stage : SrcS) (down : Option Nat) (n j : Nat) (h : Held)
    (hs : s.canonFor ses) : (s.gatherSteps c d idx stage down n j h).1.canonFor ses := by
  induction n generalizing s j h with
  | zero => exact hs
  | succ n ih => cases down <;> grind [State.gatherSteps, canon_elemVals]

theorem canon_countAtomic {s : State} (d : DescP) (ps : List (Nat × Nat)) (hs : s.canonFor ses) : (s.countAtomic d ps).canonFor ses := by
  grind [State.countAtomic, canon_stkCount, canon_foldl]

theorem canon_commitSteps {s : State} (c : CoreId) (e : Nat) (d : DescP) (tr : List (Nat × Nat)) (l : List (List WrS)) (hs : s.canonFor ses) :
    (s.commitSteps c e d tr l).1.canonFor ses := by
  induction l generalizing s with
  | nil => exact hs
  | cons w l ih => grind [State.commitSteps, canon_doWrites, canon_countAtomic]

theorem canon_pagesOf {s : State} (c : CoreId) (got : List (Nat × Nat × Nat)) (l : List (Nat × Nat)) (hs : s.canonFor ses) :
    (s.pagesOf c got l).1.canonFor ses := by
  induction l generalizing s got with
  | nil => exact hs
  | cons q l ih => grind [State.pagesOf, canon_xlat]

theorem canon_stepPages {s : State} (c : CoreId) (d : DescP) (idx : List Nat) (staged first : Bool) (down : Option Nat) (n j : Nat)
    (got : List (Nat × Nat × Nat)) (hs : s.canonFor ses) : (s.stepPages c d idx staged first down n j got).1.canonFor ses := by
  induction n generalizing s j got first with
  | zero => exact hs
  | succ n ih => cases down <;> grind [State.stepPages, canon_pagesOf]

theorem canon_runPages {s : State} (c : CoreId) (e : Nat) (x : DescS) (d : DescP) (lo hi : Nat) (hs : s.canonFor ses) : (s.runPages c e x d lo hi).1.canonFor ses
    := canon_stepPages _ _ _ _ _ _ _ _ _ hs

theorem canon_commitRun {s : State} (c : CoreId) (k e : Nat) (x : DescS) (d : DescP) (down first : Bool) (lo hi : Nat) (tr : List (Nat × Nat)) (hs :
    s.canonFor ses) : (s.commitRun c k e x d down first lo hi tr).1.canonFor ses := by
  grind [State.commitRun, canon_gatherSteps, canon_doWrites, canon_commitSteps, canon_clearWhole]

theorem canon_move {s : State} (c : CoreId) (e lo hi : Nat) (tr : List (Nat × Nat)) (hs : s.canonFor ses) : (s.move c e lo hi tr).1.canonFor ses := by
  grind (gen := 24) (ematch := 24) [State.move, canon_commitRun, canon_modDesc, canon_setReg, canon_stageLeave, canon_accFault, canon_update]

theorem canon_recheckIdx {s : State} (c : CoreId) (e : Nat) (x : DescS) (d : DescP) (hs : s.canonFor ses) : (s.recheckIdx c e x d).1.canonFor ses := by
  grind [State.recheckIdx, canon_works, canon_descRefuse, canon_modDesc, canon_update]

theorem canon_notePage {s : State} (c : CoreId) (e va : Nat) (hs : s.canonFor ses) : (s.notePage c e va).canonFor ses := canon_modDesc _ _ _ hs

theorem canon_descPost {s : State} (c : CoreId) (d : DescP) (n : Nat) (hs : s.canonFor ses) : (s.descPost c d n).canonFor ses := by
  grind [State.descPost, canon_ctPost, canon_bellFrom]

theorem canon_descEnd {s : State} (c : CoreId) (e : Nat) (d : DescP) (empty : Bool) (hs : s.canonFor ses) : (s.descEnd c e d empty).canonFor ses := by
  grind [State.descEnd, canon_descPost, canon_dropDesc, canon_wrStore]

theorem canon_stageTake {s : State} (c : CoreId) (e : Nat) (hs : s.canonFor ses) : (s.stageTake c e).canonFor ses := by
  grind [State.stageTake, canon_modDesc, canon_update]

theorem canon_startPlain {s : State} (c : CoreId) (e : Nat) (b : Bytes) (d : DescP) (hs : s.canonFor ses) : (s.startPlain c e b d).canonFor ses := by
  unfold State.startPlain
  split
  · exact canon_descRefuse _ _ _ hs
  · extract_lets idx st s1
    have h1 : s1.canonFor ses := canon_modDesc _ _ _ (canon_fput _ _ _ (canon_fput _ _ _ hs))
    split_ifs
    · exact canon_descRefuse _ _ _ hs
    · grind (gen := 24) (ematch := 24) [canon_modDesc, canon_stageTake, canon_modCtx]

theorem canon_startFill {s : State} (c : CoreId) (e : Nat) (b : Bytes) (d : DescP) (hs : s.canonFor ses) : (s.startFill c e b d).canonFor ses := by
  grind [State.startFill, canon_dropDesc, canon_descFault, canon_celPeak, canon_fput, canon_modDesc, canon_update]

theorem canon_startDrain {s : State} (c : CoreId) (e : Nat) (b : Bytes) (d : DescP) (hs : s.canonFor ses) : (s.startDrain c e b d).canonFor ses := by
  grind [State.startDrain, canon_descRefuse, canon_fput, canon_modDesc, canon_update]

theorem canon_startDesc {s : State} (c : CoreId) (e : Nat) (hs : s.canonFor ses) : (s.startDesc c e).canonFor ses := by
  grind [State.startDesc, canon_works, canon_descRefuse, canon_descEnd, canon_startPlain, canon_startFill, canon_startDrain]

theorem keeps_execDescriptorStart (c : CoreId) {s : State} : Keeps ses s (execDescriptorStart c s) := by
  grind [execDescriptorStart, canon_startDesc, keeps_next]

theorem keeps_execCellarFillStart (c : CoreId) (e : BitVec 6) {s : State} : Keeps ses s (execCellarFillStart c e s) := by
  grind [execCellarFillStart, canon_startDesc, keeps_next]

theorem keeps_execCellarDrainStart (c : CoreId) (e : BitVec 6) {s : State} : Keeps ses s (execCellarDrainStart c e s) := by
  grind [execCellarDrainStart, canon_startDesc, keeps_next]

theorem canon_dropDrains (c : CoreId) (e n : Nat) {s : State} (hs : s.canonFor ses) : (dropDrains c e n s).canonFor ses := by
  induction n generalizing s with
  | zero => exact hs
  | succ n ih => grind [dropDrains, canon_dropDesc]

theorem keeps_execCellarTagCheck (c : CoreId) (e : BitVec 6) {s : State} : Keeps ses s (execCellarTagCheck c e s) := by
  have hlines := @canon_linesTouch ses
  unfold execCellarTagCheck
  extract_lets i
  repeat' split
  all_goals grind (gen := 24) (ematch := 24) [canon_xlat, canon_works, canon_accFault, canon_linesTouch, canon_lineRefused, canon_notePage,
    canon_modDesc, canon_dropDrains,
    canon_fput, canon_descFault, keeps_next]

theorem keeps_execStagingAcquire (c : CoreId) (e : BitVec 6) {s : State} : Keeps ses s (execStagingAcquire c e s) := by
  grind [execStagingAcquire, canon_stageTake, keeps_next]

theorem canon_stageCopy {s : State} (c : CoreId) (lo : Int) (pages : List (Nat × Nat)) (l : List (Int × Nat)) (hs : s.canonFor ses) :
    (s.stageCopy c lo pages l).1.canonFor ses := by
  induction l generalizing s with
  | nil => exact hs
  | cons q l ih => grind [State.stageCopy, canon_srcRead, canon_wrHbm]

theorem keeps_execStagingPhase2 (c : CoreId) (e : BitVec 6) {s : State} : Keeps ses s (execStagingPhase2 c e s) := by
  have hlines := @canon_linesTouch ses
  unfold execStagingPhase2
  extract_lets i
  repeat' split
  all_goals grind (gen := 24) (ematch := 24) [canon_recheckIdx, canon_works, canon_pagesOf, canon_accFault, canon_linesTouch, canon_lineRefused,
    canon_stageCopy, canon_notePage,
    canon_setReg, canon_fput, keeps_next, canon_foldl]

theorem keeps_execTableWalk (c : CoreId) (e : BitVec 6) (va : BitVec 48) (access : BitVec 2) {s : State} : Keeps ses s (execTableWalk c e va access s) :=
    by
  grind [execTableWalk, canon_xlat, canon_accFault, keeps_next]

theorem canon_moveRest {s : State} (c : CoreId) (e : Nat) (x : DescS) (d : DescP) (hs : s.canonFor ses) : (s.moveRest c e x d).1.canonFor ses := by
  have hpages := fun lo hi => canon_runPages c e x d lo hi hs
  unfold State.moveRest
  dsimp only
  split
  · exact canon_lineRefused _ (hpages _ _)
  · next s3 hl =>
    have h3 : s3.canonFor ses := canon_linesTouch _ _ _ (canon_move _ _ _ _ _ (hpages _ _)) hl
    split
    · exact h3
    · exact canon_accFault _ _ _ h3
    · exact h3

theorem canon_tagWrite {s : State} (c : CoreId) (e : Nat) (x : DescS) (d : DescP) (base n : Nat) (hs : s.canonFor ses) : (s.tagWrite c e x d base n).1.canonFor ses
    := by
  have hlines := @canon_linesTouch ses
  grind [State.tagWrite, canon_xlat, canon_accFault, canon_linesTouch, canon_lineRefused, canon_clearWhole, canon_wrHbm]

theorem keeps_execDescriptorComplete (c : CoreId) (e : BitVec 6) {s : State} : Keeps ses s (execDescriptorComplete c e s) := by
  unfold execDescriptorComplete
  extract_lets i
  repeat' split
  all_goals grind [canon_recheckIdx, canon_moveRest, canon_works, canon_tagWrite, canon_descEnd, keeps_next]

theorem keeps_execStreamTimeout (c : CoreId) (e : BitVec 6) {s : State} : Keeps ses s (execStreamTimeout c e s) := by
  grind [execStreamTimeout, canon_dropDesc, canon_descFault, keeps_next]

/-! ### Requests of the stacks -/

theorem canon_reqAdd {s : State} (c : CoreId) (e : Nat) (hs : s.canonFor ses) : (s.reqAdd c e).canonFor ses := by
  grind [State.reqAdd, canon_fput, canon_modDesc, canon_update]

theorem canon_reqDone {s : State} (r : ReqS) (hs : s.canonFor ses) : (s.reqDone r).canonFor ses := by
  grind [State.reqDone, canon_works, canon_fput, canon_modDesc, canon_modCore, canon_update]

theorem canon_commitReq {s : State} (r : ReqS) (hs : s.canonFor ses) : (s.commitReq r).canonFor ses := by
  grind [State.commitReq, canon_move, canon_commitRun]

theorem canon_holdBack {s : State} (k line : Nat) (r : ReqS) (hs : s.canonFor ses) : (s.holdBack k line r).canonFor ses := canon_modStack _ _ hs

theorem canon_returned {s : State} (b : BackS) (hs : s.canonFor ses) : (s.returned b).canonFor ses := by
  grind [State.returned, canon_reqDone, canon_accFault, canon_move, canon_modDesc, canon_update]

theorem canon_returnLane {s : State} (k p lane : Nat) (hs : s.canonFor ses) : (s.returnLane k p lane).canonFor ses := by
  grind [State.returnLane, canon_returned, canon_count, canon_modStack, canon_update]

theorem canon_returnStep {s : State} (hs : s.canonFor ses) : (s.returnStep).canonFor ses := by
  grind [State.returnStep, canon_returnLane, canon_foldl]

theorem canon_hbmBad {s : State} (k line : Nat) (hs : s.canonFor ses) : (s.hbmBad k line).canonFor ses := by
  grind [State.hbmBad, canon_emit, canon_stkCount, canon_poisonLine]

theorem canon_hbmRead {s : State} (k line : Nat) (ecc : EccRes) (hs : s.canonFor ses) : (s.hbmRead k line ecc).canonFor ses := by
  cases ecc
  · exact hs
  · exact canon_stkCount _ _ hs
  · exact canon_hbmBad _ _ hs

theorem canon_mergeReq {s : State} (k line : Nat) (r : ReqS) (hs : s.canonFor ses) : (s.mergeReq k line r).canonFor ses := by
  grind [State.mergeReq, canon_modStack, canon_stkCount, canon_update]

theorem canon_missReq {s : State} (k line : Nat) (r : ReqS) (hs : s.canonFor ses) : (s.missReq k line r).canonFor ses := by
  grind [State.missReq, canon_modStack, canon_stkCount, canon_update]

theorem canon_hitReq {s : State} (e k line : Nat) (r : ReqS) (hs : s.canonFor ses) : (s.hitReq e k line r).canonFor ses := by
  grind [State.hitReq, canon_holdBack, canon_reqAdd, canon_pfUse, canon_commitReq]

theorem canon_demand {s : State} (e k line : Nat) (r : ReqS) (ecc : EccRes) (hs : s.canonFor ses) : (s.demand e k line r ecc).1.canonFor ses := by
  grind [State.demand, canon_reqAdd, canon_pfUse, canon_hitReq, canon_cacheIn, canon_hbmRead, canon_stkCount, canon_mergeReq, canon_commitReq,
    canon_missReq]

theorem canon_sendReq {s : State} (c : CoreId) (o : OutReqS) (hs : s.canonFor ses) : (s.sendReq c o).canonFor ses := by
  grind (gen := 24) (ematch := 24) [State.sendReq, canon_count, canon_modCore, canon_works, canon_modStack, canon_demand, canon_notePage, canon_update]

theorem canon_outStep {s : State} (hs : s.canonFor ses) : (s.outStep).canonFor ses := by
  grind [State.outStep, canon_modCore, canon_sendReq, canon_foldl, canon_update]

theorem canon_prefetchReq {s0 : State} (c : CoreId) (k line va id : Nat) (hs : s0.canonFor ses) : (s0.prefetchReq c k line va id).canonFor ses := by
  grind (gen := 24) (ematch := 24) [State.prefetchReq, canon_count, canon_modCore, canon_works, canon_modStack, canon_stkCount, canon_cacheIn,
    canon_mergeReq, canon_missReq,
    canon_update]

theorem canon_reqPa {s : State} (c : CoreId) (x : DescS) (d : DescP) (kind : StackReq) (va : Nat) (hs : s.canonFor ses) :
    (s.reqPa c x d kind va).1.canonFor ses := by
  unfold State.reqPa
  split
  · exact hs
  · exact canon_xlat _ _ _ hs

theorem canon_makeReq {s : State} (c : CoreId) (e : Nat) (x : DescS) (d : DescP) (kind : StackReq) (va adv : Nat) (a : Arrival) (hs : s.canonFor ses) :
    (s.makeReq c e x d kind va adv a).canonFor ses := by
  grind (gen := 24) (ematch := 24) [State.makeReq, canon_reqPa, canon_accFault, canon_works, canon_runPages, canon_modDesc, canon_sendReq,
    canon_modCore, canon_update]

theorem keeps_execStackCacheRequest (c : CoreId) (e : BitVec 6) (va : BitVec 40) (kind : StackReq) (adv : BitVec 32) (a : Arrival) {s : State} :
    Keeps ses s (execStackCacheRequest c e va kind adv a s) := by
  unfold execStackCacheRequest
  extract_lets i
  repeat' split
  all_goals grind [canon_reqPa, canon_prefetchReq, canon_recheckIdx, canon_makeReq, keeps_next]

theorem canon_serve {s : State} (k line : Nat) (r : ReqS) (hs : s.canonFor ses) : (s.serve k line r).canonFor ses := by
  grind [State.serve, canon_holdBack, canon_reqDone, canon_commitReq]

theorem keeps_execMissFill (k : Fin 12) (line : BitVec 40) (ecc : EccRes) {s : State} : Keeps ses s (execMissFill k line ecc s) := by
  grind (gen := 24) (ematch := 24) [execMissFill, canon_modStack, canon_hbmRead, canon_cacheIn, canon_bankCheck, canon_serve, keeps_next, canon_foldl, canon_update]

theorem keeps_execHbmSlowBank (k : Fin 12) (bank : BitVec 12) {s : State} : Keeps ses s (execHbmSlowBank k bank s) := by
  grind [execHbmSlowBank, canon_emit, canon_modStack, keeps_next, canon_update]

theorem keeps_execPatrolScrub (k : Fin 12) (line : BitVec 40) (ecc : EccRes) {s : State} : Keeps ses s (execPatrolScrub k line ecc s) := by
  grind [execPatrolScrub, canon_hbmRead, keeps_next]

/-! ### A cycle -/

theorem canon_autoIssue {s : State} (c : CoreId) (hs : s.canonFor ses) : (s.autoIssue c).canonFor ses := by
  grind [State.autoIssue, canon_tryIssue, canon_fetch]

theorem canon_landBeat {s : State} (b : BeatS) (hs : s.canonFor ses) : (s.landBeat b).canonFor ses := canon_beatIn _ _ _ _ _ _ hs

theorem canon_landBeats {s : State} (hs : s.canonFor ses) : (s.landBeats).canonFor ses := by
  grind [State.landBeats, canon_landBeat, canon_foldl]

theorem canon_landEject {s : State} (b : BeatS) (hs : s.canonFor ses) : (s.landEject b).canonFor ses := canon_ejectWrite _ _ _ hs

theorem canon_dropEject {s : State} (b : BeatS) (hs : s.canonFor ses) : (s.dropEject b).canonFor ses := canon_ejectStray _ _ hs

theorem canon_sendStep {s : State} (c : CoreId) (x : SendS) (hs : s.canonFor ses) : (s.sendStep c x).canonFor ses := by
  grind [State.sendStep, canon_sendRow, canon_sendEnd, canon_modCore, canon_foldl, canon_update]

theorem canon_countHeld {s : State} (c : CoreId) (hs : s.canonFor ses) : (s.countHeld c).canonFor ses := by
  grind [State.countHeld, canon_modCore, canon_countPass, canon_foldl, canon_update]

theorem canon_checksDue {s : State} (c : CoreId) (hs : s.canonFor ses) : (s.checksDue c).canonFor ses := by
  grind [State.checksDue, canon_endCheck, canon_foldl]

theorem canon_coreDue {s : State} (c : CoreId) (hs : s.canonFor ses) : (s.coreDue c).canonFor ses := by
  grind [State.coreDue, canon_sendStep, canon_posts, canon_checksDue, canon_countHeld, canon_foldl]

theorem canon_idleCount {s : State} (works : Bool) (desc at_ : Option Nat) (mine : Bool) (idle : Nat → Nat) (nowork n : Nat) (hs : s.canonFor ses) :
    (s.idleCount works desc at_ mine idle nowork n).canonFor ses := by
  have hcount := fun a => canon_count a n hs
  cases desc <;> cases at_ <;> grind [State.idleCount]

theorem canon_accountAs {s : State} (c : CoreId) (what : Option (Option Nat)) (n : Nat) (hs : s.canonFor ses) : (s.accountAs c what n).canonFor ses := by
  unfold State.accountAs
  grind [canon_count, canon_idleCount]

theorem canon_account {s : State} (c : CoreId) (hs : s.canonFor ses) : (s.account c).canonFor ses := by
  grind [State.account, canon_accountAs]

theorem canon_coreActs {s : State} (c : CoreId) (hs : s.canonFor ses) : (s.coreActs c).canonFor ses := by
  have hflights (l : List FlightS) : (l.foldl (fun (a : State × List FlightS) f =>
      let r := a.1.flightAct c f s.cc; (r.1, a.2 ++ [r.2])) (s, [])).1.canonFor ses :=
    List.foldlRecOn (motive := fun a : State × List FlightS => a.1.canonFor ses) _ _ hs fun a ha f _ => canon_flightAct _ _ _ ha
  unfold State.coreActs
  refine canon_modCore _ _ (canon_foldl (fun t q ht => canon_countPasses _ _ ht) _ (canon_foldl (fun u q hu => ?_) _ (hflights _)))
  grind [canon_setRow]

theorem canon_coreEnd {s : State} (c : CoreId) (hs : s.canonFor ses) : (s.coreEnd c).canonFor ses := by
  grind [State.coreEnd, canon_account, canon_stopCore, canon_coreActs, canon_modCore, canon_update]

theorem canon_edgeCount {s : State} (c : CoreId) (hs : s.canonFor ses) : (s.edgeCount c).canonFor ses := by
  grind [State.edgeCount, canon_count]

theorem canon_edgeCounts {s : State} (hs : s.canonFor ses) : (s.edgeCounts).canonFor ses := by
  grind [State.edgeCounts, canon_edgeCount, canon_foldl]

theorem canon_holdCount {s : State} (hs : s.canonFor ses) : (s.holdCount).canonFor ses := by
  grind [State.holdCount, canon_count, canon_foldl]

theorem canon_coreBegin {s : State} (c : CoreId) (hs : s.canonFor ses) : (s.coreBegin c).canonFor ses := canon_modCore _ _ hs

theorem canon_gatePeriod {s : State} (hs : s.canonFor ses) : (s.gatePeriod).canonFor ses := by
  grind [State.gatePeriod, canon_update]

theorem canon_coreCycle {s : State} (hs : s.canonFor ses) : (s.coreCycle).canonFor ses := by
  grind (gen := 24) (ematch := 24) [State.coreCycle, canon_outStep, canon_returnStep, canon_wbDrain, canon_autoIssue, canon_landBeats, canon_coreDue,
    canon_dropEject,
    canon_coreEnd, canon_landEject, canon_holdCount, canon_edgeCounts, canon_tellLate, canon_coreBegin, canon_gatePeriod, canon_idleCheck,
    canon_foldl, canon_update]

theorem canon_tick {s : State} (hs : s.canonFor ses) : (s.tick).canonFor ses := by
  grind [State.tick, canon_coreCycle, canon_update]

/-! ### The recorder and dumps -/

theorem canon_accept {s : State} (r : EvRec) (hs : s.canonFor ses) : (s.accept r).canonFor ses := by
  grind [State.accept, canon_count, canon_notify, canon_update]

theorem canon_acceptAll {s : State} (hs : s.canonFor ses) : (s.acceptAll).canonFor ses := by
  grind [State.acceptAll, canon_accept, canon_foldl, canon_update]

theorem keeps_execEvrAccept {s : State} : Keeps ses s (execEvrAccept s) := keeps_next (canon_acceptAll)

theorem canon_indexAppend {s : State} (next : Nat) (hs : s.canonFor ses) : (s.indexAppend next).canonFor ses := by
  grind [State.indexAppend, canon_flashErase, canon_flashWr, canon_update]

theorem canon_eraseFor {s : State} (q : Nat) (hs : s.canonFor ses) : (s.eraseFor q).canonFor ses := by
  grind [State.eraseFor, canon_count, canon_flashErase]

theorem canon_program {s : State} (hs : s.canonFor ses) : (s.program).canonFor ses := by
  grind (gen := 24) (ematch := 24) [State.program, canon_count, canon_flashWr, canon_eraseFor, canon_indexAppend, canon_emit, canon_update]

theorem keeps_execFlashProgram {s : State} : Keeps ses s (execFlashProgram s) := keeps_next (canon_program)

theorem canon_programMany (n : Nat) {s : State} (hs : s.canonFor ses) : (programMany n s).canonFor ses := by
  induction n generalizing s with
  | zero => exact hs
  | succ n ih => exact ih (canon_program hs)

theorem canon_flushAll {s : State} (hs : s.canonFor ses) : (s.flushAll).canonFor ses := by
  grind [State.flushAll, canon_programMany, canon_acceptAll]

theorem canon_freeBytes (n : Nat) {s : State} (hs : s.canonFor ses) : (freeBytes n s).2.canonFor ses := by
  induction n generalizing s with
  | zero => exact hs
  | succ n ih => exact ih (canon_fresh hs)

theorem canon_cutOff {s : State} (a n : Nat) (hs : s.canonFor ses) : (s.cutOff a n).canonFor ses := by
  grind [State.cutOff, canon_flashWr, canon_freeBytes]

theorem canon_tearRec {s : State} (hs : s.canonFor ses) : (s.tearRec).canonFor ses := by
  grind [State.tearRec, canon_fresh, canon_cutOff, canon_eraseFor, canon_program]

theorem canon_tearFw {s : State} (hs : s.canonFor ses) : (s.tearFw).canonFor ses := by
  grind [State.tearFw, canon_fresh, canon_cutOff]

theorem canon_finishRec {s : State} (hs : s.canonFor ses) : (s.finishRec).canonFor ses := by
  grind [State.finishRec, canon_fresh, canon_program]

theorem canon_logRecover {s : State} (hs : s.canonFor ses) : (s.logRecover).canonFor ses := by
  grind [State.logRecover, canon_emit, canon_update]

theorem keeps_execCalSet (r : Requester) (v : Word) {s : State} : Keeps ses s (execCalSet r v s) := by
  grind [execCalSet, canon_emit, keeps_next, canon_update]

theorem keeps_execEvrFlush (r : Requester) {s : State} : Keeps ses s (execEvrFlush r s) := by
  grind [execEvrFlush, keeps_next, canon_update]

theorem keeps_execDiagSnapFreeze (r : Requester) (on : Bool) {s : State} : Keeps ses s (execDiagSnapFreeze r on s) := by
  grind [execDiagSnapFreeze, canon_fput, keeps_next, canon_update]

theorem keeps_execDiagSnapApply {s : State} : Keeps ses s (execDiagSnapApply s) := by
  grind [execDiagSnapApply, canon_fput, canon_settle, keeps_next, canon_foldl, canon_update]

end

end Sys2Proof.Machine

/-! ## Every operation keeps the canonical form: starts, power, the bus and the host -/

namespace Sys2Proof.Machine

/- Many short proofs: one after another they need far less memory than on many threads. -/
set_option Elab.async false

section
variable {ses : Option (List Session)}

/-! ### Resets and starts -/

theorem canon_resetAll {s : State} (keep : Bool) (hs : s.canonFor none) : (s.resetAll keep).canonFor none := by
  unfold State.resetAll
  extract_lets held old s1 s2
  have h1 : s1.canonFor none := ⟨⟨swf_filter _ _ _ hs.1.1, hs.1.2⟩, hs.2⟩
  have h2 : s2.canonFor none := by
    unfold s2
    split_ifs
    · exact canon_foldl (fun t e ht => canon_setReg _ _ ht) _ h1
    · exact h1
  exact canon_fput _ _ _ (canon_fput _ _ _ (canon_fput _ _ _ h2))

theorem canon_clearDevice {s : State} (hs : s.canonFor none) : (s.clearDevice).canonFor none := canonFor_none.2 hs.1

theorem canon_clearMem {s : State} (keepHbm : Bool) (hs : s.canonFor none) : (s.clearMem keepHbm).canonFor none := by
  unfold State.clearMem
  split_ifs
  · exact ⟨⟨hs.1.1, swf_filter _ _ _ hs.1.2.1, hs.1.2.2⟩, hs.2⟩
  · exact ⟨⟨hs.1.1, swf_nil _, hs.1.2.2⟩, hs.2⟩

theorem canon_applyReset {s : State} (bits : Nat) (warm : Bool) (next : Boot) (hs : s.canonFor none) : (s.applyReset bits warm next).canonFor none := by
  grind [State.applyReset, canon_fput, canon_tearFw, canon_tearRec, canon_finishRec, canon_clearMem, canon_clearDevice, canon_resetAll,
    canon_orphanAll, canon_setReg, canon_update]

theorem keeps_execModResetN {s : State} : Keeps none s (execModResetN s) := by
  grind [execModResetN, canon_applyReset, keeps_next, canon_update]

theorem keeps_execPowerTrip (cause : BitVec 3) {s : State} : Keeps none s (execPowerTrip cause s) := by
  grind [execPowerTrip, canon_applyReset, keeps_next, canon_update]

theorem keeps_execTripHoldEnd {s : State} : Keeps none s (execTripHoldEnd s) := by
  grind [execTripHoldEnd, keeps_next, canon_update]

theorem keeps_execHearthPowerLoss {s0 : State} : Keeps none s0 (execHearthPowerLoss s0) :=
  keeps_next fun hs => canonFor_none.2 ⟨swf_nil _, swf_nil _, (canon_tearFw (canon_tearRec hs)).1.2.2⟩

theorem keeps_execPowerOn {s : State} : Keeps none s (execPowerOn s) := by
  unfold execPowerOn
  split_ifs
  · exact keeps_next id
  · exact keeps_next fun hs => canonFor_none.2 ⟨swf_nil _, hs.1.2⟩

theorem keeps_execSelfRestart {s : State} : Keeps none s (execSelfRestart s) := by
  grind [execSelfRestart, canon_applyReset, canon_flushAll, keeps_next]

theorem keeps_execWatchdog {s : State} : Keeps none s (execWatchdog s) := by
  grind [execWatchdog, canon_applyReset, canon_flushAll, canon_orphanAll, canon_emit, keeps_next]

theorem keeps_execWdtKick (r : Requester) {s : State} : Keeps ses s (execWdtKick r s) := by
  grind [execWdtKick, keeps_next, canon_update]

theorem canon_fwFlash {s : State} (a : Nat) (b : Bytes) (hs : s.canonFor ses) : (s.fwFlash a b).canonFor ses := canon_flashWr _ _ hs

theorem canon_classify {s : State} (hs : s.canonFor ses) : (s.classify).canonFor ses := by
  grind [State.classify, canon_logRecover, canon_fput, canon_update]

theorem canon_startFailBy {s : State} (unit cause : Nat) (hs : s.canonFor none) : (s.startFailBy unit cause).canonFor none := by
  grind [State.startFailBy, canon_emit, canon_update]

theorem canon_startFail {s : State} (cause : Nat) (hs : s.canonFor none) : (s.startFail cause).canonFor none := canon_startFailBy _ _ hs

theorem canon_noteTrip {s : State} (hs : s.canonFor none) : (s.noteTrip).canonFor none := by
  grind [State.noteTrip, canon_emit, canon_update]

theorem canon_enterPorch {s : State} (reason : Nat) (hs : s.canonFor none) : (s.enterPorch reason).canonFor none := by
  have h2 := fun r => canon_foldl (fun t n ht => canon_fput (rLinkStatus n) fLinkStatusState lsDisabled ht) (List.range 24)
    (canon_fput rEthStatus fEthStatusPhase 1 (canon_emit r hs))
  unfold State.enterPorch
  have h3 := canon_clearMem false (canon_resetRegs (fun a => !(isArrStatus a || isGridCol a)) (h2 (evr 0x0011 0x10 0 0 0 reason)))
  exact canon_update.2 h3

theorem canon_enterRun {s0 : State} (hs : s0.canonFor none) : (s0.enterRun).canonFor none := by
  unfold State.enterRun
  extract_lets s s1 hdr s2
  have h1 : s1.canonFor none := canon_fput _ _ _ (canon_fput _ _ _ (canonFor_none.2 ⟨hs.1.1, swf_filter _ _ _ hs.1.2.1, hs.1.2.2⟩))
  refine canon_update.2 ?_
  unfold s2
  split_ifs
  · exact canon_fput _ _ _ (canon_fput _ _ _ h1)
  · exact h1

theorem canon_pllRecord {s : State} (d : PllDom) (hs : s.canonFor ses) : (s.pllRecord d).canonFor ses := canon_emit _ hs

theorem canon_pllRecords {s : State} (l : List PllDom) (hs : s.canonFor ses) : (s.pllRecords l).canonFor ses := by
  grind [State.pllRecords, canon_pllRecord, canon_foldl]

theorem canon_bringUp {s : State} (env : StartEnv) (img : FwImg) (hs : s.canonFor none) : (s.bringUp env img).canonFor none := by
  grind [State.bringUp, canon_fput, canon_acceptAll, canon_emit, canon_startFailBy, canon_pllRecords, canon_startFail, canon_enterRun, canon_foldl,
    canon_update]

theorem canon_bootRom {s : State} (env : StartEnv) (hs : s.canonFor none) : (s.bootRom env).canonFor none := by
  grind [State.bootRom, canon_enterPorch, canon_startFail, canon_bringUp, canon_update]

theorem keeps_execPowerGood (env : StartEnv) {s : State} : Keeps none s (execPowerGood env s) := by
  grind [execPowerGood, canon_setReg, canon_fput, canon_noteTrip, canon_classify, canon_startFail, canon_pllRecords, canon_bootRom, keeps_next,
    canon_update]

theorem keeps_execStartStable {s : State} : Keeps none s (execStartStable s) := by
  grind [execStartStable, canon_fput, canon_emit, keeps_next, canon_update]

theorem keeps_execBootReq (n : LinkId) {s : State} : Keeps none s (execBootReq n s) := by
  grind [execBootReq, canon_ctlTake, canon_modLink, canon_ctlSend, keeps_next, canon_update]

theorem keeps_execBootData (idx : BitVec 24) (v : Word) {s0 : State} : Keeps none s0 (execBootData idx v s0) := by
  grind [execBootData, canon_ctlTake, canon_startFail, keeps_next, canon_update]

theorem keeps_execBootEnd (refused : Bool) (len : Word) (env : StartEnv) {s0 : State} : Keeps none s0 (execBootEnd refused len env s0) := by
  grind [execBootEnd, canon_ctlTake, canon_startFail, canon_bringUp, keeps_next, canon_update]

theorem keeps_execNeighbourBootTimeout {s : State} : Keeps none s (execNeighbourBootTimeout s) := by
  grind [execNeighbourBootTimeout, canon_startFail, keeps_next]

/-! ### Clocks, gating and power -/

theorem canon_releaseAll {s : State} (hs : s.canonFor ses) : (s.releaseAll).canonFor ses := by
  grind [State.releaseAll, canon_tryRelease, canon_modCtx, canon_foldl, canon_update]

theorem canon_setShare {s : State} (n : Nat) (hs : s.canonFor ses) : (s.setShare n).canonFor ses := by
  grind [State.setShare, canon_fput, canon_update]

theorem canon_relock {s : State} (target prev : Nat) (fallback : Bool) (hs : s.canonFor ses) : (s.relock target prev fallback).canonFor ses := by
  grind [State.relock, canon_fput, canon_foldl, canon_update]

theorem keeps_execGearSelect {s : State} : Keeps ses s (execGearSelect s) := by
  grind [execGearSelect, canon_setShare, canon_releaseAll, canon_relock, keeps_next, canon_update]

theorem keeps_execPllLock (d : PllDom) {s : State} : Keeps none s (execPllLock d s) := by
  unfold execPllLock
  split
  · split_ifs
    · exact keeps_next id
    · exact keeps_next fun hs => canon_update.2 (canon_fput _ _ _ hs)
  · exact keeps_next id

theorem canon_countStopped {s : State} (n : Nat) (hs : s.canonFor none) : (s.countStopped n).canonFor none := by
  grind [State.countStopped, canon_modCore, canon_accountAs, canon_foldl, canon_update]

theorem keeps_execCoreClockStart {s : State} : Keeps none s (execCoreClockStart s) := by
  grind (gen := 24) (ematch := 24) [execCoreClockStart, canon_countStopped, canon_fput, canon_gatePeriod, canon_releaseAll, keeps_next, canon_foldl, canon_update]

theorem canon_pllStop {s : State} (hs : s.canonFor none) : (s.pllStop).canonFor none := by
  grind [State.pllStop, canon_stopCtx, canon_showFault, canon_stopCore, canon_ctxStopped, canon_foldl, canon_update]

theorem keeps_execPllLockFail (d : PllDom) {s : State} : Keeps none s (execPllLockFail d s) := by
  unfold execPllLockFail
  split <;> grind [canon_fput, canon_pllRecord, canon_relock, canon_pllStop, canon_emitTrig, canon_startFail, keeps_next, canon_update]

theorem keeps_execG0Doze {s : State} : Keeps none s (execG0Doze s) := by
  grind [execG0Doze, canon_fput, keeps_next, canon_foldl, canon_update]

theorem keeps_execDecodeEngineReady {s : State} : Keeps none s (execDecodeEngineReady s) := keeps_next id

theorem canon_gateSettle {s : State} (hs : s.canonFor ses) : (s.gateSettle).canonFor ses := by
  grind [State.gateSettle, canon_count, canon_update]

theorem canon_setLevel {s : State} (l : Nat) (hs : s.canonFor ses) : (s.setLevel l).canonFor ses := by
  grind [State.setLevel, canon_fput, canon_gateSettle, canon_update]

theorem keeps_execGatingBucket {s : State} : Keeps ses s (execGatingBucket s) := by
  grind [execGatingBucket, canon_fput, canon_gateSettle, canon_setLevel, canon_emit, keeps_next, canon_update]

theorem keeps_execGateLevelApply (h : Fin 8) {s : State} : Keeps ses s (execGateLevelApply h s) := by
  grind [execGateLevelApply, canon_gatePeriod, keeps_next, canon_update]

theorem canon_sensor {s : State} (i : Fin 21) (temp : BitVec 16) (hs : s.canonFor ses) : (s.sensor i temp).canonFor ses := by
  grind [State.sensor, canon_fput, canon_update]

theorem keeps_execThermalHot (i : Fin 21) (temp : BitVec 16) {s : State} : Keeps ses s (execThermalHot i temp s) := by
  grind [execThermalHot, canon_sensor, canon_setLevel, canon_emit, canon_fput, keeps_next]

theorem keeps_execHotClear {s : State} : Keeps ses s (execHotClear s) := by
  grind [execHotClear, canon_fput, keeps_next]

theorem keeps_execSensorAtG4C (i : Fin 21) (temp : BitVec 16) {s : State} : Keeps ses s (execSensorAtG4C i temp s) := keeps_next (canon_sensor _ _)

theorem keeps_execThrottleAssert {s : State} : Keeps ses s (execThrottleAssert s) := by
  grind [execThrottleAssert, canon_setLevel, canon_fput, keeps_next]

theorem keeps_execThrottleRelease {s : State} : Keeps ses s (execThrottleRelease s) := keeps_next (canon_fput _ _ _)

theorem keeps_execClkRefLoss {s : State} : Keeps ses s (execClkRefLoss s) := by
  grind [execClkRefLoss, canon_emit, canon_fput, keeps_next]

theorem keeps_execRefRetry (r : Requester) (present : Bool) {s : State} : Keeps ses s (execRefRetry r present s) := by
  grind [execRefRetry, canon_fput, keeps_next]

theorem canon_countEach {s : State} (r : Nat → Nat) (l : List Nat) (hs : s.canonFor ses) : (s.countEach r l).canonFor ses := by
  grind [State.countEach, canon_count, canon_foldl]

theorem keeps_execEnergySample (e : EnergySample) {s : State} : Keeps ses s (execEnergySample e s) := by
  grind (gen := 24) (ematch := 24) [execEnergySample, canon_countEach, canon_count, canon_setReg, canon_fput, keeps_next, canon_foldl, canon_update]

theorem keeps_execInputRange (vin : BitVec 16) (iin : BitVec 17) (high : Bool) {s : State} : Keeps ses s (execInputRange vin iin high s) := by
  grind [execInputRange, canon_emit, keeps_next, canon_update]

/-! ### Writes of registers -/

theorem canon_readDone {s : State} (a n : Nat) (hs : s.canonFor ses) : (s.readDone a n).canonFor ses := by
  grind [State.readDone, canon_setReg]

theorem canon_invalidate {s : State} (v : Word) (hs : s.canonFor ses) : (s.invalidate v).canonFor ses := hs

theorem keeps_execTrInval (r : Requester) (_h : Fin 8) (v : Word) {s : State} : Keeps ses s (execTrInval r _h v s) := by
  grind [execTrInval, canon_invalidate, keeps_next]

theorem keeps_execTrInvalDone {s : State} : Keeps ses s (execTrInvalDone s) := by
  grind [execTrInvalDone, canon_modCore, keeps_next, canon_foldl, canon_update]

theorem canon_entryWrite {s : State} (c : CoreId) (e mask new : Nat) (hs : s.canonFor ses) : (s.entryWrite c e mask new).canonFor ses := by
  grind [State.entryWrite, canon_dropDesc, canon_fput]

theorem canon_progressWrite {s : State} (c : CoreId) (e mask new : Nat) (hs : s.canonFor ses) : (s.progressWrite c e mask new).canonFor ses := by
  grind [State.progressWrite, canon_setReg]

theorem keeps_execStrmEntryWrite (r : Requester) (c : CoreId) (e : BitVec 6) (second : Bool) (v : Word) {s : State} : Keeps ses s (execStrmEntryWrite r c
    e second v s) := by
  grind [execStrmEntryWrite, canon_progressWrite, canon_entryWrite, keeps_next]

theorem canon_zeroRange {s : State} (lo hi : Nat) (hs : s.canonFor ses) : (s.zeroRange lo hi).canonFor ses := canon_resetRegs _ hs

theorem canon_cntCtlWrite {s : State} (c : CoreId) (mask new : Nat) (hs : s.canonFor ses) : (s.cntCtlWrite c mask new).canonFor ses := by
  grind [State.cntCtlWrite, canon_settle, canon_fput, canon_zeroRange]

theorem keeps_execCntCtlClear (r : Requester) (c : CoreId) (v : Word) {s : State} : Keeps ses s (execCntCtlClear r c v s) := by
  grind [execCntCtlClear, canon_cntCtlWrite, keeps_next]

theorem canon_arrClear {s : State} (c : CoreId) (hs : s.canonFor ses) : (s.arrClear c).canonFor ses := canon_zeroRange _ _ hs

theorem keeps_execArrCntClear (r : Requester) (c : CoreId) {s : State} : Keeps ses s (execArrCntClear r c s) := by
  grind [execArrCntClear, canon_arrClear, keeps_next]

theorem canon_blockClear {s : State} (a : Nat) (hs : s.canonFor ses) : (s.blockClear a).canonFor ses := by
  grind [State.blockClear, canon_zeroRange, canon_gateSettle, canon_modLink, canon_update]

theorem keeps_execEdgeCtlClear (r : Requester) (a : BitVec 48) {s : State} : Keeps ses s (execEdgeCtlClear r a s) := by
  grind [execEdgeCtlClear, canon_blockClear, keeps_next]

theorem canon_nextOr {s : State} {x : Res} (hx : Keeps ses s x) (hs : s.canonFor ses) : (nextOr s x).canonFor ses := by
  obtain ⟨t, rfl, ht⟩ := hx
  exact ht hs

theorem canon_storeReg {s : State} (d : RegDesc) (r : Requester) (a mask new : Nat) (hs : s.canonFor ses) : (s.storeReg d r a mask new).canonFor ses :=
    canon_setReg _ _ hs

theorem canon_coreCtlWrite {s : State} (c : CoreId) (mask new : Nat) (hs : s.canonFor ses) : (s.coreCtlWrite c mask new).canonFor ses := by
  grind [State.coreCtlWrite, canon_nextOr, keeps_execCoreStep, keeps_execCoreHalt, keeps_execCoreResume]

theorem canon_linkCtlWrite {s : State} (d : RegDesc) (r : Requester) (n : LinkId) (mask new : Nat) (hs : s.canonFor ses) : (s.linkCtlWrite d r n mask
    new).canonFor ses := by
  grind [State.linkCtlWrite, canon_storeReg, canon_tableCheck, canon_nextOr, keeps_execLinkEnable, keeps_execLinkDisable, keeps_execLinkRetrain,
    keeps_execLinkOpen, keeps_execLinkClose]

theorem canon_semWrite {s : State} (d : RegDesc) (p mask new : Nat) (hs : s.canonFor ses) : (s.semWrite d p mask new).canonFor ses := by
  grind [State.semWrite, canon_reexamine, canon_storeReg]

theorem canon_ringCfgWrite {s : State} (d : RegDesc) (r : Requester) (k : Fin 16) (mask new : Nat) (hs : s.canonFor ses) : (s.ringCfgWrite d r k mask
    new).canonFor ses := by
  grind [State.ringCfgWrite, canon_nextOr, keeps_execHrRingEnable]

theorem canon_mpCfgWrite {s : State} (d : RegDesc) (r : Requester) (mask new : Nat) (hs : s.canonFor ses) : (s.mpCfgWrite d r mask new).canonFor ses := by
  grind [State.mpCfgWrite, canon_storeReg, canon_pfcCheck, canon_emptySettle, canon_pondEnable]

theorem canon_dumpReq {s : State} (hs : s.canonFor ses) : (s.dumpReq).canonFor ses := by
  grind [State.dumpReq, canon_dumpStart, canon_emit]

theorem canon_dumpArm {s : State} (hs : s.canonFor ses) : (s.dumpArm).canonFor ses := by
  grind [State.dumpArm, canon_fput, canon_wrHbm]

theorem keeps_execDumpReq (r : Requester) {s : State} : Keeps ses s (execDumpReq r s) := by
  grind [execDumpReq, canon_dumpReq, keeps_next]

theorem keeps_execDumpArm (r : Requester) {s : State} : Keeps ses s (execDumpArm r s) := by
  grind [execDumpArm, canon_dumpArm, keeps_next]

theorem canon_dumpCfgWrite {s : State} (d : RegDesc) (r : Requester) (mask new : Nat) (hs : s.canonFor ses) : (s.dumpCfgWrite d r mask new).canonFor ses := by
  grind [State.dumpCfgWrite, canon_storeReg, canon_dumpArm, canon_dumpReq]

/-! ### Reset of a hall -/

theorem canon_hallClear {s : State} (h : Nat) (hs : s.canonFor ses) : (s.hallClear h).canonFor ses := by
  unfold State.hallClear
  extract_lets ks s1 kept s2 s3
  have h3 : s3.canonFor ses := by
    refine canon_foldl (fun t n ht => canon_tableCheck _ ht) _ (canon_foldl (fun t e ht => canon_setReg _ _ ht) _ (canon_resetRegs _ ?_))
    exact canon_foldl (fun t k ht => canon_ctxEnd _ ht) _ hs
  exact ⟨⟨h3.1.1, swf_filter _ _ _ h3.1.2.1, h3.1.2.2⟩, h3.2⟩

theorem canon_hallRequest {s : State} (h : Nat) (hs : s.canonFor ses) : (s.hallRequest h).canonFor ses := by
  grind [State.hallRequest, canon_emit, canon_fput, canon_hallClear]

theorem canon_hallRst {s : State} (mask : Nat) (hs : s.canonFor ses) : (s.hallRst mask).canonFor ses := by
  grind [State.hallRst, canon_hallRequest, canon_foldl]

theorem keeps_execHallRstReq (r : Requester) (mask : BitVec 8) {s : State} : Keeps ses s (execHallRstReq r mask s) := by
  grind [execHallRstReq, canon_hallRst, keeps_next]

theorem keeps_execHallReset (h : Fin 8) {s : State} : Keeps ses s (execHallReset h s) := by
  grind [execHallReset, canon_emit, canon_fput, keeps_next]

theorem canon_bindCompact {s : State} (c : CoreId) (f : Nat) (hs : s.canonFor ses) : (s.bindCompact c f).canonFor ses := by
  grind [State.bindCompact, canon_setReg, canon_foldl]

theorem canon_coreWrite {s : State} (d : RegDesc) (r : Requester) (c : CoreId) (o mask new : Nat) (hs : s.canonFor ses) : (s.coreWrite d r c o mask
    new).canonFor ses := by
  grind [State.coreWrite, canon_coreCtlWrite, canon_entryWrite, canon_progressWrite, canon_cntCtlWrite, canon_celPeak, canon_storeReg,
    canon_bindCompact, canon_setReg]

theorem canon_hallWrite {s : State} (d : RegDesc) (r : Requester) (h o mask new : Nat) (hs : s.canonFor ses) : (s.hallWrite d r h o mask new).canonFor ses := by
  have hstore := canon_storeReg d r (hallBase h + o) mask new hs
  unfold State.hallWrite
  extract_lets a s1
  split_ifs
  · exact canon_invalidate _ hs
  · exact canon_blockClear _ hs
  · exact hs
  · exact hs
  · exact canon_setReg _ _ hstore
  · exact canon_banksCheck _ hstore
  · exact canon_banksCheck _ hstore
  · exact hstore

theorem canon_dieWrite {s : State} (d : RegDesc) (r : Requester) (o mask new : Nat) (hs : s.canonFor ses) : (s.dieWrite d r o mask new).canonFor ses := by
  have hstore := canon_storeReg d r (dieSpace + o) mask new hs
  exact canon_ite (canon_ite (canon_blockClear _ hs) hs) <|
    canon_ite (canon_ringCfgWrite _ _ _ _ _ hs) <|
    canon_ite (canon_ite hs (canon_nextOr (keeps_execHrRingProdWrite _ _ _) hs)) <|
    canon_ite (canon_mpCfgWrite _ _ _ _ hs) <|
    canon_ite (canon_pfcCheck (canon_emptySettle hstore)) <|
    canon_ite (canon_ite (canon_nextOr (keeps_execRefRetry _ _) (canon_fresh hstore)) hstore) <|
    canon_ite (canon_ite (canon_nextOr (keeps_execWdtKick _) hs) hs) <|
    canon_ite (canon_ite (canon_hallRst _ hs) hs) <|
    canon_ite (canon_nextOr (keeps_execCalSet _ _) hs) <|
    canon_ite (canon_ite (canon_nextOr (keeps_execEvrFlush _) hs) hs) <|
    canon_ite (canon_dumpCfgWrite _ _ _ _ hs) <|
    canon_ite (canon_ite (canon_nextOr (keeps_execDiagSnapFreeze _ _) hs) hs) <|
    canon_ite (canon_ite (canon_fput _ _ _ hstore) hstore) <|
    canon_ite hs <|
    canon_ite (canon_linkCtlWrite _ _ _ _ _ hs) <|
    canon_ite (canon_tablesLoaded _ hstore) <|
    canon_ite (canon_openTry _ (canon_peerCheck _ _ hstore)) <|
    canon_ite (canon_ite hstore (canon_quernReset _ hstore)) <|
    canon_ite (canon_semWrite _ _ _ _ hs) <|
    canon_ite (canon_ite (canon_nextOr (keeps_execCkptReq _ _) hs) hs) <|
    canon_ite (canon_trickleBusy _ hstore) hstore

theorem canon_busWrite {s : State} (r : Requester) (a n v : Nat) {t : State} (hs : s.canonFor ses) (ht : s.busWrite r a n v = some t) : t.canonFor ses := by
  grind [State.busWrite, canon_wrBytes, canon_coreWrite, canon_hallWrite, canon_dieWrite]

theorem keeps_execRegisterWrite (r : Requester) (a : BitVec 48) (wide : Bool) (v : Word) {s : State} : Keeps ses s (execRegisterWrite r a wide v s) :=
  keeps_next fun hs => by
    cases hb : s.busWrite r a.toNat (if wide then 8 else 4) v.toNat with
    | none => exact hs
    | some t => exact canon_busWrite _ _ _ _ hs hb

theorem canon_dumpDone {s : State} (d : DumpS) (us : Nat) (hs : s.canonFor ses) : (s.dumpDone d us).canonFor ses := by
  grind (gen := 24) (ematch := 24) [State.dumpDone, canon_wrHbm, canon_fput, canon_settle, canon_nextOr, keeps_execCoreResume, canon_count, canon_rollsAfter, canon_emit,
    canon_foldl, canon_update]

theorem keeps_execDumpDone (us : BitVec 32) {s : State} : Keeps ses s (execDumpDone us s) := by
  grind [execDumpDone, canon_dumpDone, keeps_next]

/-! ### Grid build -/

theorem canon_colRecords {s : State} (h x e : Nat) (hs : s.canonFor ses) : (s.colRecords h x e).canonFor ses := by
  grind [State.colRecords, canon_emit, canon_foldl]

theorem canon_mapCol {s : State} (h x : Nat) (hs : s.canonFor ses) : (s.mapCol h x).canonFor ses := by
  grind [State.mapCol, canon_fput, canon_colRecords, canon_setReg, canon_foldl, canon_update]

theorem canon_hallUp {s : State} (h : Nat) (hs : s.canonFor ses) : (s.hallUp h).canonFor ses := by
  grind (gen := 24) (ematch := 24) [State.hallUp, canon_mapCol, canon_setReg, canon_fput, canon_foldl]

theorem canon_hallFail {s : State} (h : Fin 8) (cause pos : Nat) (hs : s.canonFor ses) : (s.hallFail h cause pos).canonFor ses := by
  grind [State.hallFail, canon_fput, canon_pllRecord, canon_emit]

theorem canon_buildHall {s : State} (e : BuildEnv) (h : Fin 8) (hs : s.canonFor ses) : (s.buildHall e h).canonFor ses := by
  grind [State.buildHall, canon_hallFail, canon_hallUp]

theorem canon_baseMeasured {s : State} (e : BuildEnv) (hs : s.canonFor ses) : (s.baseMeasured e).canonFor ses := by
  grind [State.baseMeasured, canon_fput, canon_foldl]

theorem canon_buildHalls {s : State} (e : BuildEnv) (mask : Nat) (hs : s.canonFor ses) : (s.buildHalls e mask).canonFor ses := by
  grind [State.buildHalls, canon_buildHall, canon_baseMeasured, canon_foldl]

/-! ### Loading an image -/

theorem canon_imageReg {s : State} (k : Nat) (e : BitVec 48 × Word) (hs : s.canonFor ses) : (s.imageReg k e).canonFor ses := by
  unfold State.imageReg
  dsimp only
  split_ifs
  · exact hs
  · cases hb : s.busWrite .housekeeper e.1.toNat 8 e.2.toNat with
    | none => exact hs
    | some t => exact canon_busWrite _ _ _ _ hs hb
  all_goals grind [canon_storeReg]

theorem canon_tableIn {s : State} (k : Nat) (i : Image) (hs : s.canonFor ses) : (s.tableIn k i).canonFor ses := by
  grind [State.tableIn, canon_setReg, canon_foldl]

theorem canon_imageRun {s : State} (e : BitVec 48 × Bytes) (hs : s.canonFor ses) : (s.imageRun e).canonFor ses := by
  grind [State.imageRun, canon_wrHbm, canon_wrStore]

theorem canon_syncCfgIn {s : State} (k : Nat) (i : Image) (hs : s.canonFor ses) : (s.syncCfgIn k i).canonFor ses := by
  grind [State.syncCfgIn, canon_setReg, canon_foldl]

theorem canon_imageIn {s : State} (k : CtxId) (i : Image) (hs : s.canonFor ses) : (s.imageIn k i).canonFor ses := by
  grind (gen := 24) (ematch := 24) [State.imageIn, canon_fput, canon_imageReg, canon_tableIn, canon_imageRun, canon_syncCfgIn, canon_setReg, canon_foldl, canon_update]

theorem canon_inSlot {s : State} (t : Nat) (hs : s.canonFor ses) : (s.inSlot t).canonFor ses := hs

theorem canon_installOn {s : State} (k : CtxId) (x : ImgCore) (slice : Nat × Nat) (hs : s.canonFor ses) : (s.installOn k x slice).canonFor ses := by
  grind [State.installOn, canon_setReg, canon_settle, canon_modCore, canon_cellarEmpty, canon_update]

theorem canon_installCore {s : State} (k : CtxId) (i : Image) (n : Nat) (hs : s.canonFor ses) : (s.installCore k i n).canonFor ses := by
  grind [State.installCore, canon_imageReg, canon_ctxBlank, canon_installOn, canon_modCtx, canon_foldl, canon_update]

theorem canon_installGroup {s : State} (i : Image) (g : Nat) (hs : s.canonFor ses) : (s.installGroup i g).canonFor ses := by
  have h2 := fun v n => canon_fput (rRsSlots g) fRsSlotsSlotsUsed n (canon_trickleBusy g (canon_setReg (rRsRunS g) 0
    (canon_fput (rRsCnt g) fRsCntLosses 0 (canon_setGroup g v hs))))
  unfold State.installGroup
  refine canon_ite (h2 _ _) ?_
  split
  · next h => exact canon_vWrite _ _ _ _ (h2 _ _) h
  · exact h2 _ _

theorem canon_install {s : State} (k : CtxId) (i : Image) (digest : BitVec 512) (hs : s.canonFor ses) : (s.install k i digest).canonFor ses := by
  grind [State.install, canon_setCtx, canon_installCore, canon_installGroup, canon_tablesLoaded, canon_foldl, canon_update]

theorem canon_loadImage {s : State} (pa len : Nat) (k : CtxId) (i : Image) (e : BuildEnv) (hs : s.canonFor ses) :
    (∀ t, s.loadImage pa len k i e = .ok t → t.canonFor ses) ∧ ∀ r t, s.loadImage pa len k i e = .error (r, t) → t.canonFor ses := by
  have hbuilt := canon_buildHalls e (imageHalls i) hs
  have hin := canon_imageIn k i hbuilt
  refine ⟨fun t ht => ?_, fun r t ht => ?_⟩ <;> grind [State.loadImage, canon_install]

theorem canon_loadRefused {s : State} (k : CtxId) (r : LoadErr) (hs : s.canonFor ses) : (s.loadRefused k r).canonFor ses := by
  grind [State.loadRefused, canon_emit]

/-! ### THP -/

theorem canon_txFrame {s : State} (o : Out) (hs : s.canonFor ses) : (s.txFrame o).canonFor ses := by
  grind [State.txFrame, canon_count, canon_update]

theorem canon_portRelease {s : State} (hs : s.canonFor ses) : (s.portRelease).canonFor ses := by
  unfold State.portRelease
  split_ifs
  · exact hs
  · rw [List.partition_eq_filter_filter]
    exact canon_foldl (fun t o ht => canon_txFrame o ht) _ (canon_host hs fun _ _ => id)

theorem canon_portSend {s : State} (wait : Bool) (prio : Nat) (o : Out) (hs : s.canonFor ses) : (s.portSend wait prio o).canonFor ses :=
  canon_ite (canon_host hs fun _ _ => id) (canon_txFrame o hs)

theorem canon_portOut {s : State} (prio : Nat) (o : Out) (hs : s.canonFor ses) : (s.portOut prio o).canonFor ses := canon_portSend _ _ _ hs

theorem canon_sendOut {s : State} (cls : Nat) (o : Out) (hs : s.canonFor ses) : (s.sendOut cls o).canonFor ses := canon_portOut _ _ hs

theorem canon_modSession {s : State} (sid : BitVec 32) (f : Session → Session) (hs : s.canonFor none) : (s.modSession sid f).canonFor none := canon_host_none.2 hs

theorem canon_closeSession {s : State} (sid : BitVec 32) (hs : s.canonFor none) : (s.closeSession sid).canonFor none := by
  grind [State.closeSession, canon_emit, canon_modGroup, canon_host_none, canon_update]

theorem canon_sendDev {s : State} (sid : BitVec 32) (op : Nat) (a0 a1 : Word) (data : Bytes) (hs : s.canonFor none) : (s.sendDev sid op a0 a1 data).canonFor none :=
    by
  grind [State.sendDev, canon_sendOut, canon_modSession, canon_host_none, canon_update]

theorem canon_pumpNotices (n : Nat) {s : State} (hs : s.canonFor none) : (pumpNotices n s).canonFor none := by
  induction n generalizing s with
  | zero => exact hs
  | succ n ih => grind [pumpNotices, canon_sendDev, canon_host_none, canon_update]

theorem canon_trickleOne {s : State} (g : Nat) (t : TrickleS) (x : Session) (hs : s.canonFor none) : (s.trickleOne g t x).canonFor none := by
  grind [State.trickleOne, canon_trickleNext, canon_modGroup, canon_unitPageFault, canon_faultCtx, canon_sendDev, canon_foldl, canon_host_none, canon_update]

theorem canon_pumpTrickle (n g : Nat) {s : State} (hs : s.canonFor none) : (pumpTrickle n g s).canonFor none := by
  induction n generalizing s with
  | zero => exact hs
  | succ n ih => grind [pumpTrickle, canon_modGroup, canon_trickleNext, canon_trickleOne]

theorem canon_pump {s : State} (hs : s.canonFor none) : (s.pump).canonFor none := by
  grind [State.pump, canon_portRelease, canon_pumpTrickle, canon_pumpNotices, canon_foldl]

theorem canon_busyAnswer {s : State} (h : HostAddr) (sid : BitVec 32) (op seq : Nat) (hs : s.canonFor none) : (s.busyAnswer h sid op seq).canonFor none := by
  grind [State.busyAnswer, canon_count, canon_sendOut, canon_host_none, canon_update]

theorem canon_ansRead {s : State} (q : ThpReq) (hs : s.canonFor ses) : (s.ansRead q).1.canonFor ses := by
  grind [State.ansRead, canon_readDone]

theorem canon_ansWrite {s : State} (cls : Nat) (q : ThpReq) (hs : s.canonFor ses) : (s.ansWrite cls q).1.canonFor ses := by
  grind [State.ansWrite, canon_wrHbm, canon_wrBytes, canon_busWrite, canon_vWrite, canon_update]

theorem canon_startCore (k : CtxId) {s : State} (x : ImgCore) (hs : s.canonFor ses) : (State.startCore k s x).canonFor ses := by
  unfold State.startCore
  extract_lets c s1
  have h1 : s1.canonFor ses := canon_modCore _ _ (canon_setReg _ _ (canon_settle _ hs))
  split_ifs
  · exact h1
  · exact canon_fput _ _ _ (canon_fput _ _ _ h1)
  · exact hs

theorem canon_ctxStart {s : State} (k : CtxId) (hs : s.canonFor ses) : (s.ctxStart k).canonFor ses := by
  grind (gen := 24) (ematch := 24) [State.ctxStart, canon_modCtx, canon_startCore, canon_startClocks, canon_quernStart, canon_startRound, canon_takeSnap, canon_runGoes,
    canon_foldl, canon_update]

theorem canon_preemptAll {s : State} (k : CtxId) (act : Nat) (hs : s.canonFor ses) : (s.preemptAll k act).canonFor ses := by
  grind [State.preemptAll, canon_bellDie, canon_foldl]

theorem canon_ctxStop {s : State} (k : CtxId) (hs : s.canonFor ses) : (s.ctxStop k).canonFor ses := by
  grind [State.ctxStop, canon_preemptAll, canon_ctxStopped]

theorem canon_ctxResume {s : State} (k : CtxId) (hs : s.canonFor ses) : (s.ctxResume k).canonFor ses := by
  grind (gen := 24) (ematch := 24) [State.ctxResume, canon_modCtx, canon_runGoes, canon_fput, canon_startClocks, canon_preemptAll, canon_clearDiscard, canon_unorphanCtx,
    canon_foldl, canon_update]

theorem canon_ansCtx {s : State} (a0 : Word) (allowed : CtxId → Bool) {f : CtxId → State} (hf : ∀ k, (f k).canonFor ses) (hs : s.canonFor ses) :
    (s.ansCtx a0 allowed f).1.canonFor ses := by
  grind [State.ansCtx]

theorem canon_ansLoad {s : State} (q : ThpReq) (hs : s.canonFor ses) : (s.ansLoad q).1.canonFor ses := by
  unfold State.ansLoad
  extract_lets a1 k
  split
  · exact hs
  · refine canon_fst_ite hs ?_
    have hload := canon_loadImage q.a0.toNat (bitsN a1 31 0) k ‹Image› q.env hs
    split
    · next t ht => exact hload.1 t ht
    · next r t ht => exact canon_loadRefused _ _ (hload.2 r t ht)

theorem canon_ansGrid {s : State} (q : ThpReq) (hs : s.canonFor ses) : (s.ansGrid q).1.canonFor ses := by
  grind [State.ansGrid, canon_buildHalls, canon_foldl]

theorem canon_ansQpCreate {s : State} (host : HostAddr) (q : ThpReq) (hs : s.canonFor ses) : (s.ansQpCreate host q).1.canonFor ses :=
  canon_fst_ite hs (canon_fst_ite hs (canon_host hs fun _ _ => id))

theorem canon_ansQpDestroy {s : State} (q : ThpReq) (hs : s.canonFor ses) : (s.ansQpDestroy q).1.canonFor ses :=
  canon_fst_ite (canon_host hs fun _ _ => id) hs

theorem canon_ansMrCreate {s : State} (q : ThpReq) (hs : s.canonFor ses) : (s.ansMrCreate q).1.canonFor ses :=
  canon_fst_ite hs (canon_fst_ite hs (canon_host hs fun _ _ => id))

theorem canon_ansMrDestroy {s : State} (q : ThpReq) (hs : s.canonFor ses) : (s.ansMrDestroy q).1.canonFor ses :=
  canon_fst_ite (canon_host hs fun _ _ => id) hs

theorem canon_ansFwWrite {s : State} (q : ThpReq) (hs : s.canonFor ses) : (s.ansFwWrite q).1.canonFor ses := by
  grind [State.ansFwWrite, canon_flashErase, canon_fwFlash, canon_update]

theorem canon_ansFwCommit {s : State} (hs : s.canonFor ses) : (s.ansFwCommit).1.canonFor ses := by
  grind [State.ansFwCommit, canon_emit, canon_fwFlash, canon_update]

theorem canon_ansLogRead {s : State} (q : ThpReq) (hs : s.canonFor ses) : (s.ansLogRead q).1.canonFor ses := by
  grind [State.ansLogRead]

theorem canon_ansAttest {s : State} (q : ThpReq) (hs : s.canonFor ses) : (s.ansAttest q).1.canonFor ses := by
  grind [State.ansAttest]

theorem canon_runOp {s : State} (x : Session) (q : ThpReq) (hs : s.canonFor ses) : (s.runOp x q).1.canonFor ses := by
  unfold State.runOp
  repeat' with_reducible apply canon_fst_ite
  · exact hs
  · exact hs
  · exact hs
  · exact hs
  · exact canon_ansRead _ hs
  · exact canon_ansWrite _ _ hs
  · exact canon_ansLoad _ hs
  · exact canon_ansCtx _ _ (fun k => canon_ctxStart k hs) hs
  · exact canon_ansCtx _ _ (fun k => canon_ctxStop k hs) hs
  · exact canon_ansCtx _ _ (fun k => canon_ctxResume k hs) hs
  · exact canon_ansCtx _ _ (fun k => canon_clearDiscard _ (canon_ctxEnd _ hs)) hs
  · exact canon_ansGrid _ hs
  · exact canon_ansQpCreate _ _ hs
  · exact canon_ansQpDestroy _ hs
  · exact canon_ansMrCreate _ hs
  · exact canon_ansMrDestroy _ hs
  · exact hs
  · exact canon_ansFwWrite _ hs
  · exact canon_ansFwCommit hs
  · exact canon_ansLogRead _ hs
  · exact canon_ansAttest _ hs
  · exact hs
  · exact hs

theorem canon_follow {s : State} (sid : BitVec 32) (x : After) (hs : s.canonFor none) : (s.follow sid x).canonFor none := by
  cases x
  case nothing => exact hs
  case close => exact canon_closeSession _ hs
  case warmReset => rw [State.follow]; exact canon_applyReset _ _ _ (canon_flushAll (canon_orphanAll hs))
  case porchExit => rw [State.follow]; exact canon_applyReset _ _ _ (canon_flushAll (canon_orphanAll (canon_emit _ hs)))
  case hostStart => rw [State.follow]; exact canon_bringUp _ _ (canon_fresh hs)

theorem canon_runReq {s : State} (sid : BitVec 32) (x : Session) (seq : Nat) (q : ThpReq) (hs : s.canonFor none) : (s.runReq sid x seq q).canonFor none := by
  grind [State.runReq, canon_runOp, canon_modSession, canon_follow, canon_portSend, canon_host_none, canon_update]

theorem canon_runWaiting (n : Nat) (sid : BitVec 32) {s : State} (hs : s.canonFor none) : (runWaiting n sid s).canonFor none := by
  induction n generalizing s with
  | zero => exact hs
  | succ n ih => grind [runWaiting, canon_modSession, canon_runReq]

theorem canon_bareAnswer {s : State} (p : ThpFrom) (cls op seq st : Nat) (hs : s.canonFor none) : (s.bareAnswer p cls op seq st).canonFor none := canon_sendOut _ _ hs

theorem canon_thpRequest {s : State} (p : ThpFrom) (seq : BitVec 32) (q : ThpReq) (hs : s.canonFor none) : (s.thpRequest p seq q).canonFor none := by
  have h1 := canon_count rThpRxCnt 1 hs
  have h2 := canon_count rThpDupCnt 1 h1
  unfold State.thpRequest
  extract_lets s1
  split_ifs
  · exact hs
  · exact canon_busyAnswer _ _ _ _ h1
  · split
    · exact canon_bareAnswer _ _ _ _ _ h1
    · extract_lets d
      split_ifs
      · exact canon_pump (canon_runWaiting _ _ (canon_runReq _ _ _ _ h1))
      · exact h2
      · exact canon_modSession _ _ h1
      · split
        · exact canon_sendOut _ _ h2
        · exact h2
      · exact canon_bareAnswer _ _ _ _ _ h1

theorem keeps_execThpOpen (h : HostAddr) (a0 a1 : Word) (sid : BitVec 32) {s : State} : Keeps none s (execThpOpen h a0 a1 sid s) := by
  grind [execThpOpen, canon_count, canon_sendOut, canon_busyAnswer, canon_pump, keeps_next, canon_host_none, canon_update]

theorem keeps_execThpClose (p : ThpFrom) (seq : BitVec 32) {s : State} : Keeps none s (execThpClose p seq s) := keeps_next (canon_thpRequest _ _ _)

theorem keeps_execInfo (h : HostAddr) {s : State} : Keeps none s (execInfo h s) := by
  grind [execInfo, canon_sendOut, canon_count, keeps_next]

theorem keeps_execRead (p : ThpFrom) (seq : BitVec 32) (a0 a1 : Word) {s : State} : Keeps none s (execRead p seq a0 a1 s) := keeps_next (canon_thpRequest
    _ _ _)

theorem keeps_execWrite (p : ThpFrom) (seq : BitVec 32) (a0 : Word) (data : Bytes) {s : State} : Keeps none s (execWrite p seq a0 data s) := keeps_next
    (canon_thpRequest _ _ _)

theorem keeps_execLoad (p : ThpFrom) (seq : BitVec 32) (a0 a1 : Word) (img : Image) (env : BuildEnv) {s : State} : Keeps none s (execLoad p seq a0 a1 img
    env s) := keeps_next (canon_thpRequest _ _ _)

theorem keeps_execThpStart (p : ThpFrom) (seq : BitVec 32) (a0 : Word) {s : State} : Keeps none s (execThpStart p seq a0 s) := keeps_next
    (canon_thpRequest _ _ _)

theorem keeps_execThpStop (p : ThpFrom) (seq : BitVec 32) (a0 : Word) {s : State} : Keeps none s (execThpStop p seq a0 s) := keeps_next (canon_thpRequest
    _ _ _)

theorem keeps_execResume (p : ThpFrom) (seq : BitVec 32) (a0 : Word) {s : State} : Keeps none s (execResume p seq a0 s) := keeps_next (canon_thpRequest _
    _ _)

theorem keeps_execEndCtx (p : ThpFrom) (seq : BitVec 32) (a0 : Word) {s : State} : Keeps none s (execEndCtx p seq a0 s) := keeps_next (canon_thpRequest _
    _ _)

theorem keeps_execGridBuild (p : ThpFrom) (seq : BitVec 32) (a0 : Word) (env : BuildEnv) {s : State} : Keeps none s (execGridBuild p seq a0 env s) :=
    keeps_next (canon_thpRequest _ _ _)

theorem keeps_execQpCreate (p : ThpFrom) (seq : BitVec 32) (a0 a1 : Word) (qpn : BitVec 24) {s : State} : Keeps none s (execQpCreate p seq a0 a1 qpn s) :=
    keeps_next (canon_thpRequest _ _ _)

theorem keeps_execQpDestroy (p : ThpFrom) (seq : BitVec 32) (a0 : Word) {s : State} : Keeps none s (execQpDestroy p seq a0 s) := keeps_next
    (canon_thpRequest _ _ _)

theorem keeps_execMrCreate (p : ThpFrom) (seq : BitVec 32) (a0 a1 : Word) (rkey : BitVec 32) {s : State} : Keeps none s (execMrCreate p seq a0 a1 rkey s)
    := keeps_next (canon_thpRequest _ _ _)

theorem keeps_execMrDestroy (p : ThpFrom) (seq : BitVec 32) (a0 : Word) {s : State} : Keeps none s (execMrDestroy p seq a0 s) := keeps_next
    (canon_thpRequest _ _ _)

theorem keeps_execWarmReset (p : ThpFrom) (seq : BitVec 32) {s : State} : Keeps none s (execWarmReset p seq s) := keeps_next (canon_thpRequest _ _ _)

theorem keeps_execFwWrite (p : ThpFrom) (seq : BitVec 32) (a0 : Word) (data : Bytes) {s : State} : Keeps none s (execFwWrite p seq a0 data s) :=
    keeps_next (canon_thpRequest _ _ _)

theorem keeps_execFwCommit (p : ThpFrom) (seq : BitVec 32) (a0 : Word) {s : State} : Keeps none s (execFwCommit p seq a0 s) := keeps_next
    (canon_thpRequest _ _ _)

theorem keeps_execLogRead (p : ThpFrom) (seq : BitVec 32) (a0 a1 : Word) {s : State} : Keeps none s (execLogRead p seq a0 a1 s) := keeps_next
    (canon_thpRequest _ _ _)

theorem keeps_execAttest (p : ThpFrom) (seq : BitVec 32) (nonce : Bytes) {s : State} : Keeps none s (execAttest p seq nonce s) := keeps_next
    (canon_thpRequest _ _ _)

theorem keeps_execPorchExit (p : ThpFrom) (seq : BitVec 32) {s : State} : Keeps none s (execPorchExit p seq s) := keeps_next (canon_thpRequest _ _ _)

theorem keeps_execThpDeviceResponse (sid seq : BitVec 32) (_status : BitVec 16) {s : State} : Keeps none s (execThpDeviceResponse sid seq _status s) := by
  grind [execThpDeviceResponse, canon_pump, canon_modSession, canon_count, keeps_next, canon_host_none, canon_update]

theorem keeps_execDeviceRequestResend (sid seq : BitVec 32) {s : State} : Keeps none s (execDeviceRequestResend sid seq s) := by
  grind [execDeviceRequestResend, canon_pump, canon_emit, canon_closeSession, canon_sendOut, canon_modSession, keeps_next, canon_host_none, canon_update]

theorem keeps_execSessionIdle (sid : BitVec 32) {s : State} : Keeps none s (execSessionIdle sid s) := by
  grind [execSessionIdle, canon_pump, canon_closeSession, keeps_next]

/-! ### RDMA and the port -/

theorem canon_modQp {s : State} (qpn : BitVec 24) (f : QpS → QpS) (hs : s.canonFor none) : (s.modQp qpn f).canonFor none := hs

theorem canon_roceOut {s : State} (x : QpS) (o : Out) (hs : s.canonFor none) : (s.roceOut x o).canonFor none := canon_portOut _ _ hs

theorem canon_qpFail {s : State} (x : QpS) (code va : Nat) (hs : s.canonFor none) : (s.qpFail x code va).canonFor none := by
  grind [State.qpFail, canon_emit, canon_modQp, canon_count, canon_roceOut, canon_host_none, canon_update]

theorem canon_qpAck {s : State} (x : QpS) (psn : BitVec 24) (hs : s.canonFor none) : (s.qpAck x psn).canonFor none := by
  grind [State.qpAck, canon_modQp, canon_roceOut, canon_host_none, canon_update]

theorem canon_qpCnp {s : State} (x : QpS) (ce : Bool) (hs : s.canonFor none) : (s.qpCnp x ce).canonFor none := by
  grind [State.qpCnp, canon_modQp, canon_roceOut, canon_host_none, canon_update]

theorem canon_rdmaPut {s : State} (m : MrS) (va left : Nat) (data : Bytes) {t : State} (hs : s.canonFor none) (ht : s.rdmaPut m va left data = some t) :
    t.canonFor none := by
  grind [State.rdmaPut, canon_nextOr, keeps_execHrRingProdWrite, canon_vWrite]

theorem canon_rdmaNext {s : State} (x : QpS) (p : RdmaPkt) (hs : s.canonFor none) : (s.rdmaNext x p).canonFor none := by
  unfold State.rdmaNext
  split
  · exact canon_qpFail _ _ _ hs
  · split
    · exact canon_qpFail _ _ _ hs
    · next t hp =>
      obtain ⟨m, _, hm⟩ := Option.bind_eq_some_iff.1 hp
      have ht : t.canonFor none := canon_rdmaPut _ _ _ _ hs hm
      extract_lets n t1
      have h1 : t1.canonFor none := canon_modQp _ _ ht
      split_ifs
      · exact canon_qpAck _ _ h1
      · exact h1

theorem keeps_execRdmaWrite (qpn : BitVec 24) (p : RdmaPkt) {s : State} : Keeps none s (execRdmaWrite qpn p s) := by
  grind [execRdmaWrite, canon_count, canon_qpCnp, canon_rdmaNext, canon_qpAck, canon_modQp, canon_roceOut, keeps_next, canon_host_none, canon_update]

theorem keeps_execAckCoalesce (qpn : BitVec 24) {s : State} : Keeps none s (execAckCoalesce qpn s) := by
  grind [execAckCoalesce, canon_qpAck, keeps_next]

theorem keeps_execNeighborSolicit (src : HostAddr) (target : BitVec 128) {s : State} : Keeps none s (execNeighborSolicit src target s) := by
  grind [execNeighborSolicit, canon_portOut, keeps_next]

theorem keeps_execPfcRx (prio : BitVec 3) (quanta : BitVec 16) {s : State} : Keeps none s (execPfcRx prio quanta s) := by
  grind [execPfcRx, canon_portRelease, keeps_next, canon_host_none, canon_update]

theorem keeps_execPcsBlockLock {s : State} : Keeps none s (execPcsBlockLock s) := by
  grind [execPcsBlockLock, canon_fput, keeps_next]

theorem keeps_execPcsBlockLockLoss {s : State} : Keeps none s (execPcsBlockLockLoss s) := keeps_next (canon_fput _ _ _)

theorem keeps_execEthFrameDrop (why : EthDrop) {s : State} : Keeps none s (execEthFrameDrop why s) := by
  unfold execEthFrameDrop
  split_ifs
  · exact keeps_next id
  · cases why <;> grind [canon_count, keeps_next]

/-! ### The idle step -/

theorem canon_idle {s : State} (hs : s.canonFor none) : (s.idle).canonFor none := by
  grind [State.idle, canon_pump, canon_tick]

end

end Sys2Proof.Machine

/-! ## Every step keeps the canonical form -/

namespace Sys2Proof.Machine

/-- Every command completes, and keeps the canonical form. -/
theorem exec_keeps : ∀ (i : Instr) (s : State), Keeps none s (exec i s)
  | .bundleFetch .., _ => keeps_execBundleFetch ..
  | .bundleIssue .., _ => keeps_execBundleIssue ..
  | .br .., _ => keeps_execBr ..
  | .jmp .., _ => keeps_execJmp ..
  | .jmpr .., _ => keeps_execJmpr ..
  | .call .., _ => keeps_execCall ..
  | .callr .., _ => keeps_execCallr ..
  | .loop .., _ => keeps_execLoop ..
  | .lbrk .., _ => keeps_execLbrk ..
  | .stepend .., _ => keeps_execStepend ..
  | .exit .., _ => keeps_execExit ..
  | .brkpt .., _ => keeps_execBrkpt ..
  | .stependRetire .., _ => keeps_execStependRetire ..
  | .contextStepBoundary .., _ => keeps_execContextStepBoundary ..
  | .deviceStepBoundary, _ => keeps_execDeviceStepBoundary
  | .joinTimeout .., _ => keeps_execJoinTimeout ..
  | .add .., _ => keeps_execAdd ..
  | .sub .., _ => keeps_execSub ..
  | .and .., _ => keeps_execAnd ..
  | .or .., _ => keeps_execOr ..
  | .xor .., _ => keeps_execXor ..
  | .shl .., _ => keeps_execShl ..
  | .shr .., _ => keeps_execShr ..
  | .sra .., _ => keeps_execSra ..
  | .slt .., _ => keeps_execSlt ..
  | .sltu .., _ => keeps_execSltu ..
  | .seq .., _ => keeps_execSeq ..
  | .min .., _ => keeps_execMin ..
  | .max .., _ => keeps_execMax ..
  | .addi .., _ => keeps_execAddi ..
  | .andi .., _ => keeps_execAndi ..
  | .ori .., _ => keeps_execOri ..
  | .xori .., _ => keeps_execXori ..
  | .shli .., _ => keeps_execShli ..
  | .shri .., _ => keeps_execShri ..
  | .srai .., _ => keeps_execSrai ..
  | .slti .., _ => keeps_execSlti ..
  | .movi .., _ => keeps_execMovi ..
  | .insh .., _ => keeps_execInsh ..
  | .rdsp .., _ => keeps_execRdsp ..
  | .tcfg .., _ => keeps_execTcfg ..
  | .mul .., _ => keeps_execMul ..
  | .mulh .., _ => keeps_execMulh ..
  | .mulhu .., _ => keeps_execMulhu ..
  | .div .., _ => keeps_execDiv ..
  | .divu .., _ => keeps_execDivu ..
  | .rem .., _ => keeps_execRem ..
  | .remu .., _ => keeps_execRemu ..
  | .fadd .., _ => keeps_execFadd ..
  | .fmul .., _ => keeps_execFmul ..
  | .ffma .., _ => keeps_execFfma ..
  | .fcvti .., _ => keeps_execFcvti ..
  | .icvtf .., _ => keeps_execIcvtf ..
  | .tld .., _ => keeps_execTld ..
  | .tst .., _ => keeps_execTst ..
  | .tcpy .., _ => keeps_execTcpy ..
  | .msnd .., _ => keeps_execMsnd ..
  | .msndComplete .., _ => keeps_execMsndComplete ..
  | .mbind .., _ => keeps_execMbind ..
  | .slnch .., _ => keeps_execSlnch ..
  | .sld .., _ => keeps_execSld ..
  | .sst .., _ => keeps_execSst ..
  | .vld .., _ => keeps_execVld ..
  | .vst .., _ => keeps_execVst ..
  | .pass .., _ => keeps_execPass ..
  | .passCheck .., _ => keeps_execPassCheck ..
  | .astat .., _ => keeps_execAstat ..
  | .vadd .., _ => keeps_execVadd ..
  | .vsub .., _ => keeps_execVsub ..
  | .vmul .., _ => keeps_execVmul ..
  | .vfma .., _ => keeps_execVfma ..
  | .vcmp .., _ => keeps_execVcmp ..
  | .vsel .., _ => keeps_execVsel ..
  | .vand .., _ => keeps_execVand ..
  | .vor .., _ => keeps_execVor ..
  | .vxor .., _ => keeps_execVxor ..
  | .vmin .., _ => keeps_execVmin ..
  | .vmax .., _ => keeps_execVmax ..
  | .vbcast .., _ => keeps_execVbcast ..
  | .vext .., _ => keeps_execVext ..
  | .vexp .., _ => keeps_execVexp ..
  | .vlog .., _ => keeps_execVlog ..
  | .vrcp .., _ => keeps_execVrcp ..
  | .vrsq .., _ => keeps_execVrsq ..
  | .vtanh .., _ => keeps_execVtanh ..
  | .vrsum .., _ => keeps_execVrsum ..
  | .vrmax .., _ => keeps_execVrmax ..
  | .tvop .., _ => keeps_execTvop ..
  | .tred .., _ => keeps_execTred ..
  | .post .., _ => keeps_execPost ..
  | .wait .., _ => keeps_execWait ..
  | .gpost .., _ => keeps_execGpost ..
  | .gwait .., _ => keeps_execGwait ..
  | .gwatch .., _ => keeps_execGwatch ..
  | .syncClockGate .., _ => keeps_execSyncClockGate ..
  | .syncTimeout .., _ => keeps_execSyncTimeout ..
  | .coreHalt .., _ => keeps_execCoreHalt ..
  | .coreResume .., _ => keeps_execCoreResume ..
  | .coreStep .., _ => keeps_execCoreStep ..
  | .coreStop .., _ => keeps_execCoreStop ..
  | .contextSave .., _ => keeps_execContextSave ..
  | .contextRestore .., _ => keeps_execContextRestore ..
  | .descriptorStart .., _ => keeps_execDescriptorStart ..
  | .stagingAcquire .., _ => keeps_execStagingAcquire ..
  | .stagingPhase2 .., _ => keeps_execStagingPhase2 ..
  | .stackCacheRequest .., _ => keeps_execStackCacheRequest ..
  | .missFill .., _ => keeps_execMissFill ..
  | .hbmSlowBank .., _ => keeps_execHbmSlowBank ..
  | .patrolScrub .., _ => keeps_execPatrolScrub ..
  | .tableWalk .., _ => keeps_execTableWalk ..
  | .descriptorComplete .., _ => keeps_execDescriptorComplete ..
  | .streamTimeout .., _ => keeps_execStreamTimeout ..
  | .cellarFillStart .., _ => keeps_execCellarFillStart ..
  | .cellarDrainStart .., _ => keeps_execCellarDrainStart ..
  | .cellarTagCheck .., _ => keeps_execCellarTagCheck ..
  | .meshBeat .., _ => keeps_execMeshBeat ..
  | .bellHop .., _ => keeps_execBellHop ..
  | .semAdd .., _ => keeps_execSemAdd ..
  | .semWait .., _ => keeps_execSemWait ..
  | .semWatch .., _ => keeps_execSemWatch ..
  | .semValueWrite .., _ => keeps_execSemValueWrite ..
  | .wake .., _ => keeps_execWake ..
  | .watchFire .., _ => keeps_execWatchFire ..
  | .cntPost .., _ => keeps_execCntPost ..
  | .preempt .., _ => keeps_execPreempt ..
  | .stopDone .., _ => keeps_execStopDone ..
  | .bellFault .., _ => keeps_execBellFault ..
  | .linkSignalDetect .., _ => keeps_execLinkSignalDetect ..
  | .linkTrainDone .., _ => keeps_execLinkTrainDone ..
  | .linkTrainTimeout .., _ => keeps_execLinkTrainTimeout ..
  | .linkAlignDone .., _ => keeps_execLinkAlignDone ..
  | .linkAlignTimeout .., _ => keeps_execLinkAlignTimeout ..
  | .linkIdentTimeout .., _ => keeps_execLinkIdentTimeout ..
  | .linkDownExpiry .., _ => keeps_execLinkDownExpiry ..
  | .linkLossOfSignal .., _ => keeps_execLinkLossOfSignal ..
  | .linkNoCodeword .., _ => keeps_execLinkNoCodeword ..
  | .linkCodewordRx .., _ => keeps_execLinkCodewordRx ..
  | .linkFrameTx .., _ => keeps_execLinkFrameTx ..
  | .linkFrameRx .., _ => keeps_execLinkFrameRx ..
  | .mgmtIdent .., _ => keeps_execMgmtIdent ..
  | .mgmtProbe .., _ => keeps_execMgmtProbe ..
  | .mgmtEcho .., _ => keeps_execMgmtEcho ..
  | .mgmtClose .., _ => keeps_execMgmtClose ..
  | .mgmtStart .., _ => keeps_execMgmtStart ..
  | .linkEgressBeat .., _ => keeps_execLinkEgressBeat ..
  | .linkIngressRelease .., _ => keeps_execLinkIngressRelease ..
  | .mcastStall .., _ => keeps_execMcastStall ..
  | .kflSemAdd .., _ => keeps_execKflSemAdd ..
  | .kflSemWatch .., _ => keeps_execKflSemWatch ..
  | .kflWatchFire .., _ => keeps_execKflWatchFire ..
  | .linkRouterWatch .., _ => keeps_execLinkRouterWatch ..
  | .tagQuarantineEnd .., _ => keeps_execTagQuarantineEnd ..
  | .linkOpen .., _ => keeps_execLinkOpen ..
  | .linkClose .., _ => keeps_execLinkClose ..
  | .linkRetrain .., _ => keeps_execLinkRetrain ..
  | .linkEnable .., _ => keeps_execLinkEnable ..
  | .linkDisable .., _ => keeps_execLinkDisable ..
  | .quernLocalHeader .., _ => keeps_execQuernLocalHeader ..
  | .quernRetainCommit .., _ => keeps_execQuernRetainCommit ..
  | .quernRecordRx .., _ => keeps_execQuernRecordRx ..
  | .ack .., _ => keeps_execAck ..
  | .retry .., _ => keeps_execRetry ..
  | .norm .., _ => keeps_execNorm ..
  | .verdict .., _ => keeps_execVerdict ..
  | .quernGatherStart .., _ => keeps_execQuernGatherStart ..
  | .quernGatherRx .., _ => keeps_execQuernGatherRx ..
  | .hrRingProdWrite r k v, _ => keeps_execHrRingProdWrite r k v
  | .hrRingEnable .., _ => keeps_execHrRingEnable ..
  | .clipStart, _ => keeps_execClipStart
  | .clipIndexDone .., _ => keeps_execClipIndexDone ..
  | .sampleDispatch .., _ => keeps_execSampleDispatch ..
  | .sampleReady .., _ => keeps_execSampleReady ..
  | .sampleDrop .., _ => keeps_execSampleDrop ..
  | .pfcRepeat, _ => keeps_execPfcRepeat
  | .millpondRelease, _ => keeps_execMillpondRelease
  | .exchangeRecordLand .., _ => keeps_execExchangeRecordLand ..
  | .voteReady .., _ => keeps_execVoteReady ..
  | .vote .., _ => keeps_execVote ..
  | .commit .., _ => keeps_execCommit ..
  | .ckptSelfCopyDone .., _ => keeps_execCkptSelfCopyDone ..
  | .ckptRecordLand .., _ => keeps_execCkptRecordLand ..
  | .commitTimeout .., _ => keeps_execCommitTimeout ..
  | .groupFault .., _ => keeps_execGroupFault ..
  | .rollback .., _ => keeps_execRollback ..
  | .phaseDone .., _ => keeps_execPhaseDone ..
  | .guardExpiry .., _ => keeps_execGuardExpiry ..
  | .phaseGo .., _ => keeps_execPhaseGo ..
  | .memberLossConfirm .., _ => keeps_execMemberLossConfirm ..
  | .rebuild .., _ => keeps_execRebuild ..
  | .seed .., _ => keeps_execSeed ..
  | .ckptReq .., _ => keeps_execCkptReq ..
  | .thpDeviceResponse sid seq status, _ => keeps_execThpDeviceResponse sid seq status
  | .deviceRequestResend .., _ => keeps_execDeviceRequestResend ..
  | .sessionIdle .., _ => keeps_execSessionIdle ..
  | .thpOpen .., _ => keeps_execThpOpen ..
  | .thpClose .., _ => keeps_execThpClose ..
  | .info .., _ => keeps_execInfo ..
  | .read .., _ => keeps_execRead ..
  | .write .., _ => keeps_execWrite ..
  | .load .., _ => keeps_execLoad ..
  | .thpStart .., _ => keeps_execThpStart ..
  | .thpStop .., _ => keeps_execThpStop ..
  | .resume .., _ => keeps_execResume ..
  | .endCtx .., _ => keeps_execEndCtx ..
  | .gridBuild .., _ => keeps_execGridBuild ..
  | .qpCreate .., _ => keeps_execQpCreate ..
  | .qpDestroy .., _ => keeps_execQpDestroy ..
  | .mrCreate .., _ => keeps_execMrCreate ..
  | .mrDestroy .., _ => keeps_execMrDestroy ..
  | .warmReset .., _ => keeps_execWarmReset ..
  | .fwWrite .., _ => keeps_execFwWrite ..
  | .fwCommit .., _ => keeps_execFwCommit ..
  | .logRead .., _ => keeps_execLogRead ..
  | .attest .., _ => keeps_execAttest ..
  | .porchExit .., _ => keeps_execPorchExit ..
  | .rdmaWrite .., _ => keeps_execRdmaWrite ..
  | .ackCoalesce .., _ => keeps_execAckCoalesce ..
  | .neighborSolicit .., _ => keeps_execNeighborSolicit ..
  | .pfcRx .., _ => keeps_execPfcRx ..
  | .trInval r h v, _ => keeps_execTrInval r h v
  | .trInvalDone, _ => keeps_execTrInvalDone
  | .strmEntryWrite .., _ => keeps_execStrmEntryWrite ..
  | .cntCtlClear .., _ => keeps_execCntCtlClear ..
  | .arrCntClear .., _ => keeps_execArrCntClear ..
  | .edgeCtlClear .., _ => keeps_execEdgeCtlClear ..
  | .registerWrite .., _ => keeps_execRegisterWrite ..
  | .gearSelect, _ => keeps_execGearSelect
  | .pllLock .., _ => keeps_execPllLock ..
  | .coreClockStart, _ => keeps_execCoreClockStart
  | .pllLockFail .., _ => keeps_execPllLockFail ..
  | .gatingBucket, _ => keeps_execGatingBucket
  | .gateLevelApply .., _ => keeps_execGateLevelApply ..
  | .thermalHot .., _ => keeps_execThermalHot ..
  | .hotClear, _ => keeps_execHotClear
  | .throttleAssert, _ => keeps_execThrottleAssert
  | .throttleRelease, _ => keeps_execThrottleRelease
  | .clkRefLoss, _ => keeps_execClkRefLoss
  | .refRetry .., _ => keeps_execRefRetry ..
  | .g0Doze, _ => keeps_execG0Doze
  | .energySample .., _ => keeps_execEnergySample ..
  | .inputRange .., _ => keeps_execInputRange ..
  | .powerTrip .., _ => keeps_execPowerTrip ..
  | .tripHoldEnd, _ => keeps_execTripHoldEnd
  | .hearthPowerLoss, _ => keeps_execHearthPowerLoss
  | .powerOn, _ => keeps_execPowerOn
  | .powerGood .., _ => keeps_execPowerGood ..
  | .startStable, _ => keeps_execStartStable
  | .selfRestart, _ => keeps_execSelfRestart
  | .modResetN, _ => keeps_execModResetN
  | .watchdog, _ => keeps_execWatchdog
  | .wdtKick .., _ => keeps_execWdtKick ..
  | .hallRstReq .., _ => keeps_execHallRstReq ..
  | .hallReset .., _ => keeps_execHallReset ..
  | .bootReq .., _ => keeps_execBootReq ..
  | .bootData .., _ => keeps_execBootData ..
  | .bootEnd .., _ => keeps_execBootEnd ..
  | .neighbourBootTimeout, _ => keeps_execNeighbourBootTimeout
  | .evrAccept, _ => keeps_execEvrAccept
  | .flashProgram, _ => keeps_execFlashProgram
  | .calSet .., _ => keeps_execCalSet ..
  | .evrFlush .., _ => keeps_execEvrFlush ..
  | .diagSnapFreeze .., _ => keeps_execDiagSnapFreeze ..
  | .diagSnapApply, _ => keeps_execDiagSnapApply
  | .dumpReq .., _ => keeps_execDumpReq ..
  | .dumpArm .., _ => keeps_execDumpArm ..
  | .dumpDone .., _ => keeps_execDumpDone ..
  | .pcsBlockLock, _ => keeps_execPcsBlockLock
  | .pcsBlockLockLoss, _ => keeps_execPcsBlockLockLoss
  | .ethFrameDrop .., _ => keeps_execEthFrameDrop ..
  | .returnedMessage .., _ => keeps_execReturnedMessage ..
  | .decodeEngineReady, _ => keeps_execDecodeEngineReady
  | .sensorAtG4C .., _ => keeps_execSensorAtG4C ..

/-- Settles O3: a command keeps the canonical form by `exec_keeps`, and so does an idle cycle. -/
theorem stepsKeepCanonicalForms : Obligations.StepsKeepCanonicalForms := by
  intro s t hs hst
  unfold step at hst
  split at hst
  · cases hst
    exact (canon_idle (canonFor_none.2 hs)).1
  · next i rest _ =>
    obtain ⟨u, hu, hkeep⟩ := exec_keeps i { s with pending := rest }
    cases hu.symm.trans hst
    exact (hkeep (canonFor_none.2 hs)).1

/-- Settles O1: `step` by its definition; that every command completes, by `exec_keeps`. -/
theorem stepRunsFrontCommand : Obligations.StepRunsFrontCommand := by
  refine ⟨fun c rest s => rfl, fun s h => ?_, fun i s => ?_⟩
  · unfold step
    rw [h]
  · obtain ⟨t, ht, -⟩ := exec_keeps i s
    exact ⟨t, ht, trivial⟩

/-! ### Power-on -/

theorem coreOfPos_fields (c : CoreId) : coreOfPos (c.hall.val * 256 + c.row.val * 16 + c.col.val) = some c := by
  obtain ⟨⟨h, hh⟩, ⟨r, hr⟩, ⟨k, hk⟩⟩ := c
  have hdiv : (h * 256 + r * 16 + k) / 256 = h ∧ (h * 256 + r * 16 + k) / 16 % 16 = r ∧ (h * 256 + r * 16 + k) % 16 = k := by omega
  obtain ⟨h1, h2, h3⟩ := hdiv
  simp only [coreOfPos, h1, h2, h3]
  simp [hh, hr, hk]

theorem place_core (c : CoreId) {o : Nat} (ho : o < 2 ^ 22) : place (coreBase c + o) = .core c o := by
  have hh := c.hall.isLt
  have hr := c.row.isLt
  have hk := c.col.isLt
  have hpos : (coreBase c + o - coreSpace) / 2 ^ 30 % 8 * 256 + (coreBase c + o - coreSpace) / 2 ^ 26 % 16 * 16 +
      (coreBase c + o - coreSpace) / 2 ^ 22 % 16 = c.hall.val * 256 + c.row.val * 16 + c.col.val := by
    unfold coreBase
    omega
  have hoff : (coreBase c + o) % 2 ^ 22 = o := by
    unfold coreBase coreSpace
    omega
  unfold place
  rw [if_neg (by unfold coreBase coreSpace hbmEnd; omega), if_pos (by unfold coreBase; omega), hpos, coreOfPos_fields, hoff]

theorem regDesc_core (c : CoreId) {o : Nat} (ho : o < 2 ^ 22) : regDesc (coreBase c + o) = findDesc coreTable o := by
  rw [regDesc, place_core c ho]

theorem regReset_eq (a : Nat) : regReset a = ((regDesc a).map RegDesc.reset).getD 0 := by
  unfold regReset
  cases regDesc a <;> rfl

/-- The flash as shipped is in canonical form. -/
theorem canon_reset : State.reset.canon :=
  ⟨swf_nil _, swf_nil _, List.foldlRecOn (motive := fun m => swf (fun _ => (0xFF : Byte)) m = true) _ _ (swf_nil _)
    fun _ hm _ _ => swf_sset _ _ _ _ hm⟩

theorem reset_reg (a : Nat) : State.reset.reg a = regReset a := by
  have hregs : State.reset.regs = [] := rfl
  rw [State.reg, hregs]
  rfl

theorem reset_rdB (a : Nat) : State.reset.rdB a = 0 := by
  have hmem : State.reset.mem = [] := rfl
  rw [State.rdB, hmem]
  rfl

/-- RUN of CORE_STATUS is 0 after power-on (R10). -/
theorem reset_run (c : CoreId) : State.reset.run c = false := by
  have hrst : fCoreStatusRun.get (((findDesc coreTable 0x200010).map RegDesc.reset).getD 0) = 0 := by decide
  have hrun : State.reset.fget (rCoreStatus c) fCoreStatusRun = 0 := by
    rw [State.fget, reset_reg, rCoreStatus, regReset_eq, regDesc_core c (by norm_num), hrst]
  simp [State.run, State.flag, hrun]

/-- Settles O2: nothing is listed after power-on, but for the flash as shipped. -/
theorem powerOnHoldsResetValues : Obligations.PowerOnHoldsResetValues := by
  refine ⟨⟨reset_reg, reset_rdB, rfl, rfl, fun c => ⟨reset_run c, ?_⟩⟩, canon_reset⟩
  simp [State.canIssue, reset_run c]

end Sys2Proof.Machine

/-! ## Register families, headers of messages, and the semaphore unit -/

namespace Sys2Proof.Machine

/-! ### Finding a register's family -/

/-- Every offset of a family's registers is below this bound. -/
def dimsSpan : List (Nat × Nat) → Nat
  | [] => 1
  | (n, st) :: _ => n * st

theorem lt_dimsSpan {dims : List (Nat × Nat)} {r : Nat} (hst : ∀ e ∈ dims, 0 < e.2) (h : dimsMatch dims r = true) : r < dimsSpan dims := by
  cases dims with
  | nil =>
    simp only [dimsMatch, beq_iff_eq] at h
    simp [dimsSpan, h]
  | cons e ds =>
    simp only [dimsMatch, Bool.and_eq_true, decide_eq_true_eq] at h
    exact (Nat.div_lt_iff_lt_mul (hst e (by simp))).1 h.1

/-- A table whose families before entry `n` all end at or below it gives that entry for its registers. -/
theorem findDesc_eq {t : List RegDesc} {n : Nat} {d : RegDesc} {o : Nat} (hget : t[n]? = some d)
    (hpre : ∀ e ∈ t.take n, e.off + dimsSpan e.dims ≤ d.off ∧ ∀ x ∈ e.dims, 0 < x.2) (ho : d.off ≤ o) (hd : dimsMatch d.dims (o - d.off) = true) :
    findDesc t o = some d := by
  have hsplit : t = t.take n ++ d :: t.drop (n + 1) := by
    obtain ⟨hn, rfl⟩ := List.getElem?_eq_some_iff.1 hget
    rw [List.getElem_cons_drop, List.take_append_drop]
  unfold findDesc
  rw [hsplit, List.find?_append, List.find?_eq_none.2, Option.none_or, List.find?_cons_of_pos]
  · simp [ho, hd]
  · intro e he hmatch
    obtain ⟨hend, hst⟩ := hpre e he
    simp only [Bool.and_eq_true, decide_eq_true_eq] at hmatch
    have := lt_dimsSpan hst hmatch.2
    omega

theorem place_die {o : Nat} (ho : o < 0xC000000) : place (dieSpace + o) = .die o := by
  unfold place
  rw [if_neg (by unfold dieSpace hbmEnd; omega), if_neg (by unfold dieSpace coreSpace; omega), if_neg (by unfold dieSpace hallSpace; omega),
    if_pos (by omega), Nat.add_sub_cancel_left]

theorem regDesc_die {o : Nat} (ho : o < 0xC000000) : regDesc (dieSpace + o) = findDesc dieTable o := by
  rw [regDesc, place_die ho]

/-- The family of SEM (R241). -/
def semDesc : RegDesc := ⟨0xA000000, [(16384, 0x8)], .hk, false, false, [⟨fSemAlloc, .rw, 0, .none⟩, ⟨fSemOrphan, .ro, 0, .none⟩,
  ⟨fSemSat, .w1c, 0, .none⟩, ⟨fSemOwner, .rw, 0, .none⟩, ⟨fSemWaiters, .ro, 0, .none⟩, ⟨fSemValue, .rw, 0, .none⟩]⟩

theorem regDesc_rSem {p : Nat} (hp : p < 16384) : regDesc (rSem p) = some semDesc := by
  have hoff : rSem p = dieSpace + (0xA000000 + 0x8 * p) := by
    unfold rSem
    omega
  have hn : dieTable[136]? = some semDesc := by decide +kernel
  rw [hoff, regDesc_die (by omega)]
  refine findDesc_eq hn (by decide +kernel) (by simp [semDesc]) ?_
  simp [dimsMatch, semDesc, hp]

/-- A write of the whole register stores VALUE as written (R241). -/
theorem semDesc_write_value (v w : Word) : fSemValue.get (semDesc.write 0 0 (2 ^ 64 - 1) v.toNat w) = v.toNat % 2 ^ 32 := by
  have hstore (x : Word) : (⟨fSemValue, .rw, 0, .none⟩ : FldDesc).store 0 0 (2 ^ 64 - 1) v.toNat w x = fSemValue.put x (v.toNat % 2 ^ 32) := by
    have hsize : fSemValue.size = 2 ^ 32 := by decide
    have hmask : (2 ^ 64 - 1) / 2 ^ fSemValue.lo % 2 ^ 32 = 2 ^ 32 - 1 := by decide
    have hlo : v.toNat / 2 ^ fSemValue.lo = v.toNat := Nat.div_one _
    simp only [FldDesc.store, hsize, hlo]
    rw [hmask, Nat.sub_self, Nat.and_zero, Nat.zero_or, Nat.and_two_pow_sub_one_eq_mod, Nat.mod_mod]
  have hwrite : ∃ x, semDesc.write 0 0 (2 ^ 64 - 1) v.toNat w = fSemValue.put x (v.toNat % 2 ^ 32) := ⟨_, hstore _⟩
  obtain ⟨x, hx⟩ := hwrite
  rw [hx, Fd.get_put _ _ _ (by decide) (by decide)]
  exact Nat.mod_mod _ _

/-! ### Headers (R176) -/

/-- The fields of a header come back from it. -/
theorem bellHdr_fields {type ctx len hall row col arg : Nat} (rmt : Bool) (ht : type < 16) (hk : ctx < 8) (hl : len < 4) (hh : hall < 8) (hr : row < 16)
    (hc : col < 16) (ha : arg < 2048) (pay : List (BitVec 32)) (x y inp : Nat) (out : Bool) :
    let m : BellMsg := ⟨bellHdr type ctx len rmt hall row col arg, pay, x, y, inp, out⟩
    bellType m = type ∧ bellSrc m = arg ∧ bellDst m = hall * 256 + row * 16 + col ∧ bitsN m.hdr.toNat 27 25 = ctx := by
  have hb : bton rmt < 2 := by cases rmt <;> decide
  have hn : (bellHdr type ctx len rmt hall row col arg).toNat =
      type * 2 ^ 28 + ctx * 2 ^ 25 + len * 2 ^ 23 + bton rmt * 2 ^ 22 + hall * 2 ^ 19 + row * 2 ^ 15 + col * 2 ^ 11 + arg := by
    unfold bellHdr
    rw [BitVec.toNat_ofNat]
    exact Nat.mod_eq_of_lt (by omega)
  simp only [bellType, bellSrc, bellDst, bitsN, hn]
  omega

theorem CoreId.pos_lt (c : CoreId) : c.pos < 2048 := by
  have := c.hall.isLt; have := c.row.isLt; have := c.col.isLt
  unfold CoreId.pos
  omega

/-- A message that the front die sends to a core stands last on the wire, with its type, its addressee and its ARG. -/
theorem bellToCore_bell (s : State) {type : Nat} (k : CtxId) (c : CoreId) {arg : Nat} {pay : List (BitVec 32)} (ht : type < 16) (ha : arg < 2048)
    (hp : pay.length < 4) : ∃ m ∈ (s.bellToCore type k.val c arg pay).bell, bellType m = type ∧ bellDst m = c.pos ∧ bellSrc m = arg ∧ m.pay = pay := by
  have hr := c.row.isLt
  have hk := c.col.isLt
  refine ⟨_, List.mem_append_right _ (List.mem_singleton_self _), ?_⟩
  obtain ⟨htype, hsrc, hdst, -⟩ := bellHdr_fields false ht k.isLt hp c.hall.isLt (show c.row.val < 16 by omega) (show c.col.val < 16 by omega) ha pay
    0 (12 * (c.hall.val / 4) + if c.row.val < 12 then c.row.val else 6) 3 false
  exact ⟨htype, hdst, hsrc, rfl⟩

/-! ### The semaphore unit (R222 to R225) -/

/-- Settling the time of MP_EMPTY_NS changes the pond alone. -/
theorem emptySettle_eq (s : State) : ∃ p, s.emptySettle = { s with pond := p } := by
  unfold State.emptySettle
  split
  · exact ⟨_, rfl⟩
  · exact ⟨_, rfl⟩
  · exact ⟨s.pond, rfl⟩

@[simp] theorem emptySettle_regs (s : State) : s.emptySettle.regs = s.regs := by
  obtain ⟨p, hp⟩ := emptySettle_eq s
  rw [hp]

@[simp] theorem emptySettle_mem (s : State) : s.emptySettle.mem = s.mem := by
  obtain ⟨p, hp⟩ := emptySettle_eq s
  rw [hp]

@[simp] theorem emptySettle_sem (s : State) : s.emptySettle.sem = s.sem := by
  obtain ⟨p, hp⟩ := emptySettle_eq s
  rw [hp]

@[simp] theorem emptySettle_bell (s : State) : s.emptySettle.bell = s.bell := by
  obtain ⟨p, hp⟩ := emptySettle_eq s
  rw [hp]

theorem reg_congr {s t : State} (h : t.regs = s.regs) (a : Nat) : t.reg a = s.reg a := by rw [State.reg, State.reg, h]

theorem fget_congr {s t : State} (h : t.regs = s.regs) (a : Nat) (f : Fd) : t.fget a f = s.fget a f := by rw [State.fget, State.fget, reg_congr h]

theorem rdB_congr {s t : State} (h : t.mem = s.mem) (a : Nat) : t.rdB a = s.rdB a := by rw [State.rdB, State.rdB, h]

/-- With nothing waiting, re-examination changes no register, no memory and no entry. -/
theorem reexamine_keeps {s : State} (h : s.sem.entries = []) (p : Nat) : (s.reexamine p).regs = s.regs ∧ (s.reexamine p).mem = s.mem ∧
    (s.reexamine p).sem.entries = [] := by
  unfold State.reexamine
  simp only [h, examine, emptySettle_regs, emptySettle_mem, emptySettle_sem, and_self]

/-- A translation gives a number of the unit. -/
theorem semMap_lt {s : State} {k vsem p : Nat} {q : SemReq} {remote : Bool} (h : s.semMap k vsem q remote = .ok p) : p < 16384 := by
  have hlt : s.fget (rSemMap k vsem) fSemMapPsem < 16384 := Nat.mod_lt _ (by decide)
  unfold State.semMap at h
  dsimp only at h
  split_ifs at h
  cases h
  exact hlt

/-- A translation reads registers alone. -/
theorem semMap_congr {s t : State} (h : t.regs = s.regs) (k vsem : Nat) (q : SemReq) (remote : Bool) : t.semMap k vsem q remote = s.semMap k vsem q remote := by
  have hfget : t.fget = s.fget := funext fun a => funext fun f => fget_congr h a f
  have hflag : t.flag = s.flag := by
    funext a f
    rw [State.flag, State.flag, hfget]
  rw [State.semMap, State.semMap, hflag, hfget]

theorem semOrphaned_eq_false {s : State} {p : Nat} (k : Nat) (remote : Bool) (halloc : s.flag (rSem p) fSemAlloc = true)
    (horphan : s.flag (rSem p) fSemOrphan = false) : s.semOrphaned p k remote = false := by
  simp [State.semOrphaned, halloc, horphan]

theorem semOrphaned_congr {s t : State} (h : t.regs = s.regs) (p k : Nat) (remote : Bool) : t.semOrphaned p k remote = s.semOrphaned p k remote := by
  simp only [State.semOrphaned, State.flag, fget_congr h]

theorem rSem_ne_rSemReqCnt {p : Nat} (hp : p < 16384) : rSem p ≠ rSemReqCnt := by unfold rSem rSemReqCnt; omega

/-- An add that the unit serves with nothing waiting: VALUE takes the saturated sum, and memory stays. -/
theorem semApply_served {s : State} {p : Nat} (d : Int) (by_ : Poster) (k : CtxId) (hnone : s.sem.entries = []) :
    let t := s.semApply p d by_ k
    t.fget (rSem p) fSemValue = sat32 ((s.fget (rSem p) fSemValue : Int) + d) ∧ (∀ a, a ≠ rSem p → t.reg a = s.reg a) ∧ SameMem s t := by
  unfold State.semApply
  extract_lets sum s1 r s2 t
  have hval : s2.fget (rSem p) fSemValue = sat32 sum := by
    have h1 : s1.fget (rSem p) fSemValue = sat32 sum := by
      rw [fget_fput_same _ _ _ _ (by decide) (by decide)]
      exact Nat.mod_eq_of_lt (sat32_lt sum)
    unfold s2
    split
    · rw [emit_fget, State.fget, reg_fput_same, Fd.get_put_below _ _ _ _ (by decide) (by decide) (by decide) (by decide)]
      exact h1
    · exact h1
  have hother (a : Nat) (ha : a ≠ rSem p) : s2.reg a = s.reg a := by
    have h1 : s1.reg a = s.reg a := reg_fput_other _ _ _ ha
    unfold s2
    split
    · rw [emit_reg, reg_fput_other _ _ _ ha, h1]
    · exact h1
  have hmem (a : Nat) : s2.rdB a = s.rdB a := by
    unfold s2 s1
    split <;> simp
  have hsem : s2.sem.entries = [] := by
    unfold s2 s1
    split <;> simpa using hnone
  obtain ⟨hregs, hmem', -⟩ := reexamine_keeps hsem p
  exact ⟨(fget_congr hregs _ _).trans hval, fun a ha => (reg_congr hregs a).trans (hother a ha), fun a => (rdB_congr hmem' a).trans (hmem a)⟩

/-- What SEM_ADD asks of the state before it, and what the unit then does. -/
theorem semAddReq_served {s : State} {by_ : Poster} {k : CtxId} {vsem p : Nat} (d : Int) (hby : ∀ n, by_ ≠ .remote n)
    (hmap : s.semMap k.val vsem .add false = .ok p) (halloc : s.flag (rSem p) fSemAlloc = true) (horphan : s.flag (rSem p) fSemOrphan = false)
    (hnone : s.sem.entries = []) :
    let t := s.semAddReq by_ k vsem d
    t.fget (rSem p) fSemValue = (min (max ((s.fget (rSem p) fSemValue : Int) + d) 0) (2 ^ 32 - 1)).toNat ∧
      t.reg rSemReqCnt = s.reg rSemReqCnt + 1 ∧ SameMem s t := by
  have hp := semMap_lt hmap
  have hserve : s.semAddReq by_ k vsem d = (s.semCount false).semApply p d by_ k := by
    unfold State.semAddReq
    cases by_ with
    | remote n => exact absurd rfl (hby n)
    | core c => simp only [hmap, semOrphaned_eq_false k.val false halloc horphan, Bool.false_eq_true, if_false]
    | unit => simp only [hmap, semOrphaned_eq_false k.val false halloc horphan, Bool.false_eq_true, if_false]
  have hcount (a : Nat) (h1 : a ≠ rSemReqCnt) (h2 : a ≠ rSemRemoteCnt) : (s.semCount false).reg a = s.reg a := by
    rw [State.semCount, reg_count_other _ _ h2, reg_count_other _ _ h1]
  have hval : (s.semCount false).fget (rSem p) fSemValue = s.fget (rSem p) fSemValue := by
    rw [State.fget, hcount _ (rSem_ne_rSemReqCnt hp) (by unfold rSem rSemRemoteCnt; omega), State.fget]
  obtain ⟨hv, hregs, hmem⟩ := semApply_served (s := s.semCount false) (p := p) d by_ k (by simpa [State.semCount] using hnone)
  rw [hserve]
  refine ⟨?_, ?_, fun a => ?_⟩
  · rw [hv, hval, sat32_eq]
  · rw [hregs _ (rSem_ne_rSemReqCnt hp).symm, State.semCount, reg_count_other _ _ (by decide), reg_count_same]
    rfl
  · rw [hmem a]
    simp [State.semCount]

/-- A delivered command that nothing older holds has its effect on the state without its message. -/
theorem runs_delivered {i : Instr} {s : State} {q : MsgKey} {f : State → State} {P : State → Prop} (hi : exec i s = s.delivered q f)
    (hfree : s.bellFree q = true) (hP : P (f (s.bellTaken q))) : Runs i s P :=
  ⟨f (s.bellTaken q), by rw [hi, State.delivered, if_pos hfree], hP⟩

/-- A wait of a core through a valid mapping to a semaphore that is not orphaned. -/
theorem semWaitReq_served {s : State} {c : CoreId} {k : CtxId} {equal consume : Bool} {vsem : BitVec 14} {value : BitVec 32} {p : Nat}
    (hmap : s.semMap k.val vsem.toNat .wait false = .ok p) (halloc : s.flag (rSem p) fSemAlloc = true) (horphan : s.flag (rSem p) fSemOrphan = false) :
    s.semWaitReq c k equal consume vsem value =
      if semHolds equal (s.fget (rSem p) fSemValue) value.toNat then
        (if consume then ((s.count rSemReqCnt 1).fput (rSem p) fSemValue (s.fget (rSem p) fSemValue - value.toNat)).emptySettle
          else s.count rSemReqCnt 1).sendWake c k false
      else (s.count rSemReqCnt 1).semRegister (.wait ⟨p, vsem, c, k, equal, consume, value⟩) := by
  simp only [State.semWaitReq, hmap, semOrphaned_eq_false k.val false halloc horphan, Bool.false_eq_true, if_false]

/-- A watch of a core through a valid mapping to a semaphore that is not orphaned. -/
theorem semWatchReq_served {s : State} {c : CoreId} {k : CtxId} {equal : Bool} {sc : BitVec 6} {vsem : BitVec 14} {value : BitVec 32} {p : Nat}
    (hmap : s.semMap k.val vsem.toNat .watch false = .ok p) (halloc : s.flag (rSem p) fSemAlloc = true) (horphan : s.flag (rSem p) fSemOrphan = false) :
    s.semWatchReq k equal vsem value (.core c sc) =
      if semHolds equal (s.fget (rSem p) fSemValue) value.toNat then (s.semCount false).fireWatch ⟨p, k, equal, value, .core c sc⟩ false
      else (s.semCount false).semRegister (.watch ⟨p, k, equal, value, .core c sc⟩) := by
  simp only [State.semWatchReq, hmap, semOrphaned_eq_false k.val false halloc horphan, Bool.false_eq_true, if_false, Bool.false_and]

theorem runs_semWait {s : State} {c : CoreId} {k : CtxId} {mode : BitVec 2} {consume : Bool} {vsem : BitVec 14} {value : BitVec 32} {p : Nat}
    (hmap : s.semMap k.val vsem.toNat .wait false = .ok p) (halloc : s.flag (rSem p) fSemAlloc = true) (horphan : s.flag (rSem p) fSemOrphan = false)
    (hfree : s.bellFree ⟨2, k, some c.pos, none, none⟩ = true) :
    let v := s.fget (rSem p) fSemValue
    let holds := fun equal : Bool => if equal then v = value.toNat else value.toNat ≤ v
    (¬ holds (decide (2 ≤ mode.toNat)) → Runs (.semWait c k mode consume vsem value) s (fun t =>
      t.sem.entries = s.sem.entries ++ [.wait ⟨p, vsem, c, k, decide (2 ≤ mode.toNat), consume, value⟩] ∧
      t.fget (rSem p) fSemValue = v ∧ SameMem s t)) ∧
    (holds (decide (2 ≤ mode.toNat)) → Runs (.semWait c k mode consume vsem value) s (fun t =>
      t.sem.entries = s.sem.entries ∧ t.fget (rSem p) fSemValue = (if consume then v - value.toNat else v) ∧
      (∃ m ∈ t.bell, bellType m = 4 ∧ bellDst m = c.pos) ∧ SameMem s t)) := by
  intro v holds
  have hne := rSem_ne_rSemReqCnt (semMap_lt hmap)
  have hv : v < 2 ^ 32 := Nat.mod_lt _ (Fd.size_pos _)
  obtain ⟨u, hu⟩ : ∃ u, u = s.bellTaken ⟨2, k, some c.pos, none, none⟩ := ⟨_, rfl⟩
  have huregs : u.regs = s.regs := by rw [hu, bellTaken_regs]
  have huv : u.fget (rSem p) fSemValue = v := fget_congr huregs _ _
  have hcount : (u.count rSemReqCnt 1).fget (rSem p) fSemValue = v := by rw [State.fget, reg_count_other _ _ hne]; exact huv
  have hserved := semWaitReq_served (s := u) (c := c) (equal := decide (2 ≤ mode.toNat)) (consume := consume) (value := value)
    (by rwa [semMap_congr huregs]) (by rwa [State.flag, fget_congr huregs]) (by rwa [State.flag, fget_congr huregs])
  have hruns {P : State → Prop} (hP : P (u.semWaitReq c k (decide (2 ≤ mode.toNat)) consume vsem value)) :
      Runs (.semWait c k mode consume vsem value) s P :=
    runs_delivered (f := fun s1 => s1.semWaitReq c k (decide (2 ≤ mode.toNat)) consume vsem value) rfl hfree (hu ▸ hP)
  refine ⟨fun h => hruns ?_, fun h => hruns ?_⟩
  · rw [hserved, huv, if_neg fun hh => h ((semHolds_iff _ _ _).1 hh)]
    refine ⟨?_, ?_, fun a => ?_⟩
    · simp [State.semRegister, hu]
    · rw [semRegister_fget, hcount]
    · simp [hu]
  · rw [hserved, huv, if_pos ((semHolds_iff _ _ _).2 h)]
    obtain ⟨m, hm, htype, hdst, -⟩ := bellToCore_bell (if consume then ((u.count rSemReqCnt 1).fput (rSem p) fSemValue (v - value.toNat)).emptySettle
      else u.count rSemReqCnt 1) k c (arg := bton false) (pay := []) (show 4 < 16 by decide) (by decide) (by decide)
    refine ⟨?_, ?_, ⟨m, hm, htype, hdst⟩, fun a => ?_⟩
    · cases consume <;> simp [hu]
    · cases consume
      · simpa using hcount
      · rw [sendWake_fget, if_pos rfl, if_pos rfl, fget_congr (emptySettle_regs _), fget_fput_same _ _ _ _ (by decide) (by decide)]
        exact Nat.mod_eq_of_lt (show v - value.toNat < 2 ^ 32 by omega)
    · rw [sendWake_rdB]
      cases consume
      · simp [hu]
      · rw [if_pos rfl, rdB_congr (emptySettle_mem _)]
        simp [hu]

theorem runs_semWatch {s : State} {c : CoreId} {k : CtxId} {cond : BitVec 2} {sc : BitVec 6} {vsem : BitVec 14} {value : BitVec 32} {p : Nat}
    (hmap : s.semMap k.val vsem.toNat .watch false = .ok p) (halloc : s.flag (rSem p) fSemAlloc = true) (horphan : s.flag (rSem p) fSemOrphan = false)
    (hfree : s.bellFree ⟨3, k, some c.pos, none, some [BitVec.ofNat 32 (cond.toNat * 2 ^ 30 + sc.toNat * 2 ^ 14 + vsem.toNat), value]⟩ = true) :
    let v := s.fget (rSem p) fSemValue
    let holds := fun equal : Bool => if equal then v = value.toNat else value.toNat ≤ v
    (¬ holds (cond == 1) → Runs (.semWatch c k cond sc vsem value) s (fun t =>
      t.sem.entries = s.sem.entries ++ [.watch ⟨p, k, cond == 1, value, .core c sc⟩] ∧ SameMem s t)) ∧
    (holds (cond == 1) → Runs (.semWatch c k cond sc vsem value) s (fun t =>
      t.sem.entries = s.sem.entries ∧ t.reg rWatchFireCnt = s.reg rWatchFireCnt + 1 ∧
      (∃ m ∈ t.bell, bellType m = 5 ∧ bellDst m = c.pos) ∧ SameMem s t)) := by
  intro v holds
  obtain ⟨u, hu⟩ : ∃ u, u = s.bellTaken ⟨3, k, some c.pos, none, some [BitVec.ofNat 32 (cond.toNat * 2 ^ 30 + sc.toNat * 2 ^ 14 + vsem.toNat), value]⟩ :=
    ⟨_, rfl⟩
  have huregs : u.regs = s.regs := by rw [hu, bellTaken_regs]
  have huv : u.fget (rSem p) fSemValue = v := fget_congr huregs _ _
  have hserved := semWatchReq_served (s := u) (c := c) (equal := cond == 1) (sc := sc) (value := value)
    (by rwa [semMap_congr huregs]) (by rwa [State.flag, fget_congr huregs]) (by rwa [State.flag, fget_congr huregs])
  have hruns {P : State → Prop} (hP : P (u.semWatchReq k (cond == 1) vsem value (.core c sc))) :
      Runs (.semWatch c k cond sc vsem value) s P :=
    runs_delivered (f := fun s1 => s1.semWatchReq k (cond == 1) vsem value (.core c sc)) rfl hfree (hu ▸ hP)
  refine ⟨fun h => hruns ?_, fun h => hruns ?_⟩
  · rw [hserved, huv, if_neg fun hh => h ((semHolds_iff _ _ _).1 hh)]
    refine ⟨?_, fun a => ?_⟩
    · simp [State.semRegister, State.semCount, hu]
    · simp [State.semCount, hu]
  · rw [hserved, huv, if_pos ((semHolds_iff _ _ _).2 h)]
    have hsc := sc.isLt
    obtain ⟨m, hm, htype, hdst, -⟩ := bellToCore_bell ((u.semCount false).count rWatchFireCnt 1) k c (arg := bton false * 64 + sc.toNat) (pay := [])
      (show 5 < 16 by decide) (show 0 * 64 + sc.toNat < 2048 by omega) (by decide)
    refine ⟨?_, ?_, ⟨m, hm, htype, hdst⟩, fun a => ?_⟩
    · simp [State.fireWatch, State.semCount, hu]
    · have hreg : u.reg rWatchFireCnt = s.reg rWatchFireCnt := reg_congr huregs _
      rw [State.fireWatch, bellToCore_reg, reg_count_same, State.semCount, reg_count_other _ _ (by decide), reg_count_other _ _ (by decide), hreg]
      rfl
    · simp [State.fireWatch, State.semCount, hu]

theorem runs_semAdd {s : State} {src : Option CoreId} {k : CtxId} {vsem : BitVec 14} {addend : BitVec 32} {p : Nat}
    (hmap : s.semMap k.val vsem.toNat .add false = .ok p) (halloc : s.flag (rSem p) fSemAlloc = true) (horphan : s.flag (rSem p) fSemOrphan = false)
    (hnone : s.sem.entries = []) (hfree : ∀ c, src = some c → s.bellFree ⟨1, k, some c.pos, none, some [vsem.setWidth 32, addend]⟩ = true) :
    Runs (.semAdd src k vsem addend) s (fun t =>
      t.fget (rSem p) fSemValue = (min (max ((s.fget (rSem p) fSemValue : Int) + addend.toInt) 0) (2 ^ 32 - 1)).toNat ∧
      t.reg rSemReqCnt = s.reg rSemReqCnt + 1 ∧ SameMem s t) := by
  cases src with
  | none => exact ⟨_, rfl, semAddReq_served _ (by simp) hmap halloc horphan hnone⟩
  | some c =>
    refine runs_delivered (f := fun s1 => s1.semAddReq (.core c) k vsem.toNat addend.toInt) rfl (hfree c rfl) ?_
    generalize hq : (⟨1, k, some c.pos, none, some [vsem.setWidth 32, addend]⟩ : MsgKey) = q
    have hregs : (s.bellTaken q).regs = s.regs := bellTaken_regs s q
    obtain ⟨hv, hcnt, hmem⟩ := semAddReq_served (s := s.bellTaken q) (by_ := .core c) addend.toInt (by simp) (by rwa [semMap_congr hregs])
      (by rwa [State.flag, fget_congr hregs]) (by rwa [State.flag, fget_congr hregs]) (by rwa [bellTaken_sem])
    exact ⟨hv.trans (by rw [fget_congr hregs]), hcnt.trans (by rw [reg_congr hregs]), fun a => (hmem a).trans (bellTaken_rdB s q a)⟩

theorem execSemValueWrite_housekeeper (s : State) (p : BitVec 14) (v : Word) : execSemValueWrite .housekeeper p v s =
    .next ((s.setReg (rSem p.toNat) (semDesc.write 0 0 (2 ^ 64 - 1) v.toNat (s.reg (rSem p.toNat)))).reexamine p.toNat) := by
  simp only [execSemValueWrite, regDesc_rSem p.isLt]

theorem execSemValueWrite_refused {r : Requester} (hr : r ≠ .housekeeper) (s : State) (p : BitVec 14) (v : Word) : execSemValueWrite r p v s = .next s := by
  unfold execSemValueWrite
  split
  · exact absurd rfl hr
  · rfl

/-- Settles O17: by what the unit does with a request that it serves. -/
theorem semaphoreOperations : Obligations.SemaphoreOperations := by
  refine ⟨fun s src k vsem addend p hmap halloc horphan hnone hfree => runs_semAdd hmap halloc horphan hnone hfree,
    fun s c k mode cond consume sc vsem value p hwait hwatch halloc horphan hfree2 hfree3 => ?_, fun s p v hnone => ⟨?_, ?_, ?_⟩⟩
  · obtain ⟨h1, h2⟩ := runs_semWait (mode := mode) (consume := consume) (value := value) hwait halloc horphan hfree2
    obtain ⟨h3, h4⟩ := runs_semWatch hwatch halloc horphan hfree3
    exact ⟨h1, h2, h3, h4⟩
  · generalize hu : s.setReg (rSem p.toNat) (semDesc.write 0 0 (2 ^ 64 - 1) v.toNat (s.reg (rSem p.toNat))) = u
    have hnone' : u.sem.entries = [] := by rw [← hu, setReg_sem, hnone]
    obtain ⟨hregs, hmem, -⟩ := reexamine_keeps hnone' p.toNat
    refine ⟨u.reexamine p.toNat, hu ▸ execSemValueWrite_housekeeper s p v, ?_, fun a ha => (reg_congr hregs a).trans ?_, fun a => (rdB_congr hmem a).trans ?_⟩
    · rw [fget_congr hregs, State.fget, ← hu, reg_setReg_same, semDesc_write_value]
    · rw [← hu, reg_setReg_other _ _ ha]
    · rw [← hu, setReg_rdB]
  · exact ⟨s, execSemValueWrite_refused (r := .host) (by decide) s p v, fun _ => rfl, fun _ => rfl⟩
  · exact ⟨s, execSemValueWrite_refused (r := .rdma) (by decide) s p v, fun _ => rfl, fun _ => rfl⟩

end Sys2Proof.Machine

/-! ## The registers of a core's context state, and operations on a saved image (R76, R235) -/

namespace Sys2Proof.Machine

-- One proof at a time, as in Sys2Proof/Laws: each waiting proof would keep a thread and its stack.
set_option Elab.async false

/-! ### Sparse maps with entries taken away -/

theorem sget_filter {α : Type} (d : Nat → α) (keep : Nat → Bool) (m : List (Nat × α)) (k : Nat) :
    sget d (m.filter fun e => keep e.1) k = if keep k then sget d m k else d k := by
  induction m with
  | nil => simp [sget]
  | cons e m ih =>
    unfold sget at ih ⊢
    by_cases he : e.1 = k
    · cases hk : keep k
      · rw [List.filter_cons_of_neg (by simp [he, hk]), ih, hk, if_neg Bool.false_ne_true, if_neg Bool.false_ne_true]
      · rw [List.filter_cons_of_pos (by simp [he, hk]), List.find?_cons_of_pos (by simp [he]), List.find?_cons_of_pos (by simp [he])]
        rfl
    · cases hk : keep e.1
      · rw [List.filter_cons_of_neg (by simp [hk]), ih, List.find?_cons_of_neg (by simp [he])]
      · rw [List.filter_cons_of_pos (by simp [hk]), List.find?_cons_of_neg (by simp [he]), ih, List.find?_cons_of_neg (by simp [he])]

/-- In a canonical map every entry is the one that its key finds. -/
theorem sget_of_mem {α : Type} [DecidableEq α] {d : Nat → α} {m : List (Nat × α)} (h : swf d m = true) {e : Nat × α} (he : e ∈ m) : sget d m e.1 = e.2 := by
  simp only [swf, Bool.and_eq_true, decide_eq_true_eq] at h
  have hsort := h.1
  clear h
  unfold sget
  induction m with
  | nil => simp at he
  | cons x m ih =>
    obtain ⟨hx, hm⟩ := List.pairwise_cons.1 hsort
    rcases List.mem_cons.1 he with rfl | he
    · simp
    · rw [List.find?_cons_of_neg (by simpa using (hx e he).ne)]
      exact ih he hm

theorem sget_of_not_mem {α : Type} (d : Nat → α) {m : List (Nat × α)} {k : Nat} (h : ∀ e ∈ m, e.1 ≠ k) : sget d m k = d k := by
  unfold sget
  rw [List.find?_eq_none.2 fun e he => by simpa using h e he]

/-! ### Registers put back -/

/-- Registers put back one after the other, as an image gives them. -/
def State.putRegs (s : State) (l : List (Nat × Word)) : State := l.foldl (fun s e => s.setReg e.1 e.2) s

theorem putRegs_eq (l : List (Nat × Word)) : ∀ s : State, s.putRegs l = { s with regs := (s.putRegs l).regs } := by
  induction l with
  | nil => exact fun s => rfl
  | cons e l ih => exact fun s => ih (s.setReg e.1 e.2)

@[simp] theorem putRegs_mem (s : State) (l : List (Nat × Word)) : (s.putRegs l).mem = s.mem := by rw [putRegs_eq]
@[simp] theorem putRegs_ctxs (s : State) (l : List (Nat × Word)) : (s.putRegs l).ctxs = s.ctxs := by rw [putRegs_eq]
@[simp] theorem putRegs_cores (s : State) (l : List (Nat × Word)) : (s.putRegs l).cores = s.cores := by rw [putRegs_eq]

/-- Registers that are all put back to what `g` gives read so; every other reads as before. -/
theorem reg_putRegs {g : Nat → Word} (a : Nat) (l : List (Nat × Word)) : ∀ s : State, (∀ e ∈ l, e.2 = g e.1) →
    (s.putRegs l).reg a = if a ∈ l.map Prod.fst then g a else s.reg a := by
  induction l with
  | nil => exact fun s _ => rfl
  | cons e l ih =>
    intro s h
    show ((s.setReg e.1 e.2).putRegs l).reg a = _
    rw [ih _ fun x hx => h x (List.mem_cons_of_mem _ hx)]
    by_cases hl : a ∈ l.map Prod.fst
    · rw [if_pos hl, if_pos (by rw [List.map_cons]; exact List.mem_cons_of_mem _ hl)]
    · rw [if_neg hl]
      by_cases ha : a = e.1
      · rw [ha, reg_setReg_same, h e (List.mem_cons_self ..), if_pos (by simp)]
      · rw [reg_setReg_other _ _ ha, if_neg (by simpa [ha] using hl)]

/-! ### The context state of a core (R76) -/

/-- Is the register at `a` part of what a save takes of core `c`? -/
def ctxState (c : CoreId) (a : Nat) : Prop := ctxReg c a = true ∨ a = rCoreStatus c ∨ a ∈ syncRegs c

theorem reg_ctxClear (s : State) (c : CoreId) (a : Nat) : (ctxState c a → (s.ctxClear c).reg a = regReset a) ∧
    (¬ ctxState c a → (s.ctxClear c).reg a = s.reg a) := by
  have h := sget_filter regReset (fun a => !(ctxReg c a || (rCoreStatus c :: syncRegs c).contains a)) s.regs a
  refine ⟨fun ha => h.trans (if_neg ?_), fun ha => h.trans (if_pos ?_)⟩
  · rcases ha with ha | ha | ha <;> simp [ha]
  · simp only [ctxState, not_or, Bool.not_eq_true] at ha
    obtain ⟨h1, h2, h3⟩ := ha
    simp [h1, h2, h3]

/-- The entries of an image are the registers' values. -/
theorem ctxRegs_val {s : State} (hs : s.canon) (c : CoreId) : ∀ e ∈ s.ctxRegs c, e.2 = s.reg e.1 := by
  intro e he
  rcases List.mem_append.1 he with he | he
  · exact (sget_of_mem hs.1 (List.mem_of_mem_filter he)).symm
  · obtain ⟨a, -, rfl⟩ := List.mem_map.1 he
    rfl

/-- A register that an image lists is context state. -/
theorem ctxState_of_mem {s : State} {c : CoreId} {a : Nat} (h : a ∈ (s.ctxRegs c).map Prod.fst) : ctxState c a := by
  obtain ⟨e, he, rfl⟩ := List.mem_map.1 h
  rcases List.mem_append.1 he with he | he
  · have := (List.mem_filter.1 he).2
    simp only [Bool.and_eq_true] at this
    exact .inl this.1
  · obtain ⟨a, ha, rfl⟩ := List.mem_map.1 he
    exact (List.mem_cons.1 ha).elim (fun h => .inr (.inl h)) fun h => .inr (.inr h)

/-- A register of the context state that an image does not list has its reset value. -/
theorem reg_of_not_mem_ctxRegs {s : State} {c : CoreId} {a : Nat} (ha : ctxState c a) (h : a ∉ (s.ctxRegs c).map Prod.fst) : s.reg a = regReset a := by
  have hkeys : a ∉ rCoreStatus c :: syncRegs c := fun hm =>
    h (List.mem_map.2 ⟨(a, s.reg a), List.mem_append_right _ (List.mem_map.2 ⟨a, hm, rfl⟩), rfl⟩)
  have hctx : ctxReg c a = true := by
    rcases ha with ha | ha | ha
    · exact ha
    · exact absurd (ha ▸ List.mem_cons_self ..) hkeys
    · exact absurd (List.mem_cons_of_mem _ ha) hkeys
  refine sget_of_not_mem _ fun e he hk => h (List.mem_map.2 ⟨e, List.mem_append_left _ (List.mem_filter.2 ⟨he, ?_⟩), hk⟩)
  have hs : a ∉ syncRegs c := fun hm => hkeys (List.mem_cons_of_mem _ hm)
  simp [hk, hctx, hs]

/-- An image put back into a cleared core: the context state reads as in the image, every other register as before. -/
theorem reg_putRegs_ctxRegs {u : State} (hu : u.canon) {s : State} {c : CoreId} (hclear : ∀ a, ctxState c a → s.reg a = regReset a) (a : Nat) :
    (ctxState c a → (s.putRegs (u.ctxRegs c)).reg a = u.reg a) ∧ (¬ ctxState c a → (s.putRegs (u.ctxRegs c)).reg a = s.reg a) := by
  rw [reg_putRegs (g := u.reg) a _ s (ctxRegs_val hu c)]
  refine ⟨fun ha => ?_, fun ha => if_neg fun h => ha (ctxState_of_mem h)⟩
  split
  · rfl
  · next h => rw [hclear a ha, reg_of_not_mem_ctxRegs ha h]

/-- What an image lists of a sync register. -/
theorem lookup_ctxRegs (s : State) {c : CoreId} {a : Nat} (ha : a ∈ syncRegs c) : (s.ctxRegs c).lookup a = some (s.reg a) := by
  have hfirst : (s.regs.filter fun e => ctxReg c e.1 && !(syncRegs c).contains e.1).lookup a = none := by
    refine List.lookup_eq_none_iff.2 fun e he => ?_
    have := (List.mem_filter.1 he).2
    simp only [Bool.and_eq_true, Bool.not_eq_true', List.contains_eq_mem, decide_eq_false_iff_not] at this
    simp only [bne_iff_ne]
    rintro rfl
    exact this.2 ha
  rw [State.ctxRegs, List.lookup_append, hfirst, Option.none_or]
  exact List.lookup_graph _ (List.mem_cons_of_mem _ ha)

theorem rSc_mem_syncRegs (c : CoreId) {k : Nat} (h : k < 48) : rSc c k ∈ syncRegs c :=
  List.mem_append_left _ (List.mem_map.2 ⟨k, List.mem_range.2 h, rfl⟩)

theorem mem_syncRegs (c : CoreId) : rScSat c ∈ syncRegs c ∧ rScOrphan c ∈ syncRegs c ∧ rSyncStatus c ∈ syncRegs c := by simp [syncRegs]

/-! ### An operation on a saved image (R235) -/

/-- The core with the image in place of its own context state. -/
def State.underImage (s : State) (i : SavedS) : State := ((s.ctxClear i.core).setCore i.core i.ops).putRegs i.regs

theorem savedOf_core {s : State} {k : CtxId} {c : CoreId} {i : SavedS} (h : s.savedOf k c = some i) : i.core = c := by
  simpa using List.find?_some h

theorem find_map_replace {l : List SavedS} {c : CoreId} {i j : SavedS} (hi : l.find? (fun y => y.core == c) = some i) (hj : j.core = c) :
    (l.map fun y => if y.core = c then j else y).find? (fun y => y.core == c) = some j := by
  induction l with
  | nil => simp at hi
  | cons y l ih =>
    by_cases hy : y.core = c
    · simp [hy, hj]
    · rw [List.find?_cons_of_neg (by simpa using hy)] at hi
      simpa [hy] using ih hi

/-- An operation on the context state of a core, applied to the image saved of it: the core's own registers and all memory stay, and the image holds
the registers as the operation leaves them. -/
theorem onImage_applied {s u : State} {k : CtxId} {c : CoreId} {i : SavedS} {f : State → State} (hs : s.canon) (hu : u.canon)
    (hi : s.savedOf k c = some i) (hregs : i.regs = u.ctxRegs c) (hreg : ∀ t a, ¬ ctxState c a → (f t).reg a = t.reg a)
    (hmem : ∀ t, (f t).mem = t.mem) (hctx : ∀ t, (f t).ctxs = t.ctxs) :
    (∀ a ∈ syncRegs c, (s.underImage i).reg a = u.reg a) ∧ SameRegs s (s.onImage k.val i f) ∧ SameMem s (s.onImage k.val i f) ∧
      ∃ j, (s.onImage k.val i f).savedOf k c = some j ∧ ∀ a ∈ syncRegs c, j.regs.lookup a = some ((f (s.underImage i)).reg a) := by
  have hcore := savedOf_core hi
  subst hcore
  have hunder (a : Nat) := reg_putRegs_ctxRegs hu (s := (s.ctxClear i.core).setCore i.core i.ops) (c := i.core)
    (fun a ha => (setCore_reg _ _ _ _).trans ((reg_ctxClear s _ a).1 ha)) a
  have hback (a : Nat) := reg_putRegs_ctxRegs hs (s := (f (s.underImage i)).ctxClear i.core) (c := i.core) (fun a ha => (reg_ctxClear _ _ a).1 ha) a
  refine ⟨fun a ha => ?_, fun a => ?_, fun a => ?_, { i with regs := (f (s.underImage i)).ctxRegs i.core, ops := (f (s.underImage i)).core i.core }, ?_,
    fun a ha => lookup_ctxRegs _ ha⟩
  · rw [State.underImage, hregs]
    exact (hunder a).1 (.inr (.inr ha))
  · show ((((f (s.underImage i)).ctxClear i.core).putRegs (s.ctxRegs i.core)).setCore _ _ |>.modCtx _ _).reg a = _
    rw [modCtx_reg, setCore_reg]
    by_cases ha : ctxState i.core a
    · exact (hback a).1 ha
    · rw [(hback a).2 ha, (reg_ctxClear _ _ a).2 ha, hreg _ a ha, State.underImage, hregs, (hunder a).2 ha, setCore_reg, (reg_ctxClear _ _ a).2 ha]
  · show ((((f (s.underImage i)).ctxClear i.core).putRegs (s.ctxRegs i.core)).setCore _ _ |>.modCtx _ _).rdB a = _
    rw [modCtx_rdB, setCore_rdB, rdB_congr (putRegs_mem _ _), State.ctxClear, resetRegs_rdB, rdB_congr (hmem _),
      State.underImage, rdB_congr (putRegs_mem _ _), setCore_rdB]
    rfl
  · show ((((f (s.underImage i)).ctxClear i.core).putRegs (s.ctxRegs i.core)).setCore _ _ |>.modCtx _ _).savedOf k i.core = _
    rw [State.savedOf, ctx_modCtx_same]
    have hsaved : (((((f (s.underImage i)).ctxClear i.core).putRegs (s.ctxRegs i.core)).setCore i.core (s.core i.core)).ctx k.val) = s.ctx k.val := by
      rw [State.ctx, State.ctx, setCore_ctxs, putRegs_ctxs]
      show sget _ (f (s.underImage i)).ctxs _ = _
      rw [hctx, State.underImage, putRegs_ctxs]
      rfl
    rw [hsaved]
    exact find_map_replace hi rfl

end Sys2Proof.Machine

/-! ## Wakes, watches and counter posts at a core (R217, R218, R224, R225, R233, R235) -/

namespace Sys2Proof.Machine

-- One proof at a time, as in Sys2Proof/Laws: each waiting proof would keep a thread and its stack.
set_option Elab.async false

/-! ### ORPHAN_STOP (R233) -/

theorem orphanStop_of_clear {s : State} {c : CoreId} {k : CtxId} (h : s.flag (rSyncCtxCfg c.hall.val k.val) fSyncCtxCfgOrphanStop = false) :
    s.orphanStop c k = s := by
  rw [State.orphanStop, h]
  rfl

/-- The stop shows SEM_ORPHAN on the core and reaches every core of the context. -/
theorem orphanStop_shows {s t : State} {c : CoreId} {k : CtxId} (h : t.flag (rSyncCtxCfg c.hall.val k.val) fSyncCtxCfgOrphanStop = true)
    (hp : t.placing = s.placing) : (t.orphanStop c k).fget (rCoreStatus c) fCoreStatusFault = 0x4002 ∧
      ∀ d ∈ s.activeCores k.val, (t.orphanStop c k).flag (rCoreStatus d) fCoreStatusFaulted = true ∧ ((t.orphanStop c k).core d).stopCause ≠ none := by
  have hput := (placing_fput_status t c fCoreStatusFault 0x4002 (by decide) (by decide)).trans hp
  rw [State.orphanStop, if_pos h]
  refine ⟨?_, fun d hd => isMarked_stopCtx _ _ _ (by rwa [activeCores_congr hput])⟩
  rw [fault_stopCtx, fget_fput_same _ _ _ _ (by decide) (by decide)]
  rfl

/-! ### One-bit fields of SYNC_STATUS and SC_ORPHAN -/

theorem flag_fput_same_zero (s : State) (a : Nat) (f : Fd) (h1 : f.lo ≤ f.hi) (h2 : f.hi < 64) : (s.fput a f 0).flag a f = false := by
  rw [State.flag, fget_fput_same _ _ _ _ h1 h2, Nat.zero_mod]
  rfl

theorem flag_fput_same_one (s : State) (a : Nat) (f : Fd) (h1 : f.lo = f.hi) (h2 : f.hi < 64) : (s.fput a f 1).flag a f = true := by
  have hsize : f.size = 2 := by simp [Fd.size, h1]
  rw [State.flag, fget_fput_same _ _ _ _ h1.le h2, hsize]
  rfl

/-- A field above the one put reads as before. -/
theorem fget_fput_above (s : State) (a : Nat) (f g : Fd) (v : Nat) (h1 : f.lo ≤ f.hi) (h2 : f.hi < g.lo) (h3 : g.lo ≤ g.hi) (h4 : g.hi < 64) :
    (s.fput a f v).fget a g = s.fget a g := by
  rw [State.fget, reg_fput_same, Fd.get_put_above f g _ _ h1 h2 h3 h4, State.fget]

/-- A field below the one put reads as before. -/
theorem fget_fput_below (s : State) (a : Nat) (f g : Fd) (v : Nat) (h1 : g.lo ≤ g.hi) (h2 : g.hi < f.lo) (h3 : f.lo ≤ f.hi) (h4 : f.hi < 64) :
    (s.fput a f v).fget a g = s.fget a g := by
  rw [State.fget, reg_fput_same, Fd.get_put_below f g _ _ h1 h2 h3 h4, State.fget]

theorem flag_fput_other (s : State) {a b : Nat} (f g : Fd) (v : Nat) (h : b ≠ a) : (s.fput a f v).flag b g = s.flag b g := by
  rw [State.flag, fget_fput_other _ _ _ _ h, State.flag]

/-! ### Wakes at a core on which the context is present -/

theorem placing_fput_sync (s : State) (c : CoreId) (f : Fd) (v : Nat) : (s.fput (rSyncStatus c) f v).placing = s.placing :=
  placing_setReg_window s c 0x204190 _ (by decide) (by decide)

theorem rSyncCtxCfg_ne_core {h k : Nat} (c : CoreId) (o : Nat) (ho : o < 2 ^ 22) : rSyncCtxCfg h k ≠ coreBase c + o := by
  have := c.hall.isLt; have := c.row.isLt; have := c.col.isLt
  unfold rSyncCtxCfg hallBase hallSpace coreBase coreSpace
  omega

theorem rSyncCtxCfg_ne (h k : Nat) (c : CoreId) : rSyncCtxCfg h k ≠ rSyncStatus c ∧ rSyncCtxCfg h k ≠ rScSat c ∧ rSyncCtxCfg h k ≠ rScOrphan c ∧
    ∀ i, i < 48 → rSyncCtxCfg h k ≠ rSc c i := by
  refine ⟨rSyncCtxCfg_ne_core c 0x204190 (by decide), rSyncCtxCfg_ne_core c 0x204180 (by decide), rSyncCtxCfg_ne_core c 0x204188 (by decide),
    fun i hi => ?_⟩
  rw [rSc, Nat.add_assoc]
  exact rSyncCtxCfg_ne_core c _ (by omega)

theorem placing_modCore (s : State) (c : CoreId) (f : CoreS → CoreS) (hp : (f (s.core c)).present = (s.core c).present)
    (hq : (f (s.core c)).queue = (s.core c).queue) : (s.modCore c f).placing = s.placing := placing_setCore s c _ hp hq

/-- A WAKE to a core with a GWAIT pending, that is not orphaned or does not stop the context. -/
theorem wakeCore_pending {s : State} {c : CoreId} {k : CtxId} {o : Bool} (hpend : s.flag (rSyncStatus c) fSyncStatusGwaitPend = true)
    (ho : o = false ∨ s.flag (rSyncCtxCfg c.hall.val k.val) fSyncCtxCfgOrphanStop = false) :
    let t := s.wakeCore c k o
    t.flag (rSyncStatus c) fSyncStatusGwaitPend = false ∧ (t.core c).gwait = none ∧
      t.flag (rSyncStatus c) fSyncStatusOrphanWake = (s.flag (rSyncStatus c) fSyncStatusOrphanWake || o) ∧
      RegsBut (· = rSyncStatus c) s t ∧ SameMem s t := by
  unfold State.wakeCore
  rw [if_pos hpend]
  obtain ⟨hne, -⟩ := rSyncCtxCfg_ne c.hall.val k.val c
  extract_lets s1 t
  have hclear : s1.flag (rSyncStatus c) fSyncStatusGwaitPend = false :=
    (modCore_flag _ _ _ _ _).trans (flag_fput_same_zero s _ _ (by decide) (by decide))
  have hgwait : (s1.core c).gwait = none := by rw [core_modCore_same]
  have horphan : s1.flag (rSyncStatus c) fSyncStatusOrphanWake = s.flag (rSyncStatus c) fSyncStatusOrphanWake := by
    rw [State.flag, modCore_fget, fget_fput_above _ _ _ _ _ (by decide) (by decide) (by decide) (by decide), State.flag]
  have hregs (a : Nat) (ha : a ≠ rSyncStatus c) : s1.reg a = s.reg a := by rw [modCore_reg, reg_fput_other _ _ _ ha]
  have hmem (a : Nat) : s1.rdB a = s.rdB a := by rw [modCore_rdB, fput_rdB]
  cases o with
  | false =>
    have ht : t = s1 := if_neg Bool.false_ne_true
    rw [ht, Bool.or_false]
    exact ⟨hclear, hgwait, horphan, hregs, hmem⟩
  | true =>
    have hstop : (s1.fput (rSyncStatus c) fSyncStatusOrphanWake 1).flag (rSyncCtxCfg c.hall.val k.val) fSyncCtxCfgOrphanStop = false := by
      rw [flag_fput_other _ _ _ _ hne, State.flag, State.fget, hregs _ hne]
      exact ho.resolve_left Bool.noConfusion
    have ht : t = s1.fput (rSyncStatus c) fSyncStatusOrphanWake 1 := (if_pos rfl).trans (orphanStop_of_clear hstop)
    rw [ht]
    refine ⟨?_, ?_, ?_, fun a ha => ?_, fun a => ?_⟩
    · rw [State.flag, fget_fput_below _ _ _ _ _ (by decide) (by decide) (by decide) (by decide), ← State.flag, hclear]
    · rw [fput_core, hgwait]
    · rw [flag_fput_same_one _ _ _ rfl (by decide), Bool.or_true]
    · rw [reg_fput_other _ _ _ ha, hregs a ha]
    · rw [fput_rdB, hmem]

/-- A WAKE to a core with no GWAIT pending. -/
theorem wakeCore_unexpected {s : State} {c : CoreId} {k : CtxId} {o : Bool} (hpend : s.flag (rSyncStatus c) fSyncStatusGwaitPend = false)
    (ho : o = false ∨ s.flag (rSyncCtxCfg c.hall.val k.val) fSyncCtxCfgOrphanStop = false) :
    let t := s.wakeCore c k o
    t.flag (rSyncStatus c) fSyncStatusGwaitPend = false ∧
      t.flag (rSyncStatus c) fSyncStatusOrphanNotice = (s.flag (rSyncStatus c) fSyncStatusOrphanNotice || o) ∧
      RegsBut (· = rSyncStatus c) s t ∧ SameMem s t := by
  unfold State.wakeCore
  rw [if_neg (by rw [hpend]; exact Bool.false_ne_true)]
  obtain ⟨hne, -⟩ := rSyncCtxCfg_ne c.hall.val k.val c
  cases o with
  | false =>
    rw [if_neg Bool.false_ne_true, Bool.or_false]
    exact ⟨hpend, rfl, fun a _ => rfl, fun a => rfl⟩
  | true =>
    have hstop : (s.fput (rSyncStatus c) fSyncStatusOrphanNotice 1).flag (rSyncCtxCfg c.hall.val k.val) fSyncCtxCfgOrphanStop = false := by
      rw [flag_fput_other _ _ _ _ hne]
      exact ho.resolve_left Bool.noConfusion
    rw [if_pos rfl, orphanStop_of_clear hstop]
    refine ⟨?_, ?_, fun a ha => reg_fput_other _ _ _ ha, fun a => fput_rdB ..⟩
    · rw [State.flag, fget_fput_below _ _ _ _ _ (by decide) (by decide) (by decide) (by decide), ← State.flag, hpend]
    · rw [flag_fput_same_one _ _ _ rfl (by decide), Bool.or_true]

/-- An orphaned WAKE with ORPHAN_STOP = 1 stops the context. -/
theorem wakeCore_stops {s : State} {c : CoreId} {k : CtxId} (hstop : s.flag (rSyncCtxCfg c.hall.val k.val) fSyncCtxCfgOrphanStop = true) :
    let t := s.wakeCore c k true
    t.fget (rCoreStatus c) fCoreStatusFault = 0x4002 ∧
      ∀ d ∈ s.activeCores k.val, t.flag (rCoreStatus d) fCoreStatusFaulted = true ∧ (t.core d).stopCause ≠ none := by
  have hput (u : State) (f : Fd) (v : Nat) : (u.fput (rSyncStatus c) f v).flag (rSyncCtxCfg c.hall.val k.val) fSyncCtxCfgOrphanStop =
      u.flag (rSyncCtxCfg c.hall.val k.val) fSyncCtxCfgOrphanStop := flag_fput_other _ _ _ _ (rSyncCtxCfg_ne _ _ c).1
  unfold State.wakeCore
  split
  · rw [if_pos rfl]
    refine orphanStop_shows ?_ ?_
    · rw [hput, modCore_flag, hput, hstop]
    · exact (placing_fput_sync _ c _ _).trans ((placing_modCore _ c _ rfl rfl).trans (placing_fput_sync s c _ _))
  · rw [if_pos rfl]
    exact orphanStop_shows (by rw [hput, hstop]) (placing_fput_sync s c _ _)

/-! ### Watches and counter posts at a core on which the context is present -/

theorem sat32_add (v n : Nat) : sat32 ((v : Int) + n) = min (v + n) (2 ^ 32 - 1) := by
  rw [sat32_eq]
  omega

theorem placing_scAdd (s : State) (c : CoreId) {k : Nat} (d : Int) (h : k < 48) : (s.scAdd c k d).placing = s.placing := by
  have hsc (t : State) (f : Fd) (v : Nat) : (t.fput (rSc c k) f v).placing = t.placing := by
    have haddr : rSc c k = coreBase c + (0x204000 + 0x8 * k) := by
      unfold rSc
      omega
    rw [State.fput, haddr]
    exact placing_setReg_window t c (0x204000 + 0x8 * k) _ (by omega) (by omega)
  unfold State.scAdd
  extract_lets sum s1 bit
  have h1 : s1.placing = s.placing := (placing_modCore _ c _ rfl rfl).trans (hsc s _ _)
  split
  · exact (placing_emit _ _).trans ((placing_setReg_window _ c 0x204180 _ (by decide) (by decide)).trans h1)
  · exact h1

theorem sync_addrs (c : CoreId) {k : Nat} (h : k < 48) : rSc c k ≠ rSyncStatus c ∧ rSc c k ≠ rScOrphan c ∧ rScSat c ≠ rSyncStatus c ∧
    rScOrphan c ≠ rScSat c ∧ rScOrphan c ≠ rSyncStatus c := by
  unfold rSc rSyncStatus rScOrphan rScSat
  omega

/-- What a WATCH_FIRE does before it looks at what it says of the semaphore: the counter gains one and WATCHES loses one. -/
theorem fired_fields (s : State) (c : CoreId) {sc : Nat} (hsc : sc < 48) :
    let t := (s.scAdd c sc 1).fput (rSyncStatus c) fSyncStatusWatches (s.fget (rSyncStatus c) fSyncStatusWatches - 1)
    t.fget (rSc c sc) fScValue = min (s.fget (rSc c sc) fScValue + 1) (2 ^ 32 - 1) ∧
      t.fget (rSyncStatus c) fSyncStatusWatches = s.fget (rSyncStatus c) fSyncStatusWatches - 1 ∧
      RegsBut (fun a => a = rSc c sc ∨ a = rScSat c ∨ a = rSyncStatus c) s t ∧ SameMem s t := by
  obtain ⟨hne1, -, -, -, -⟩ := sync_addrs c hsc
  have hw : s.fget (rSyncStatus c) fSyncStatusWatches < 16 := Nat.mod_lt _ (by decide)
  refine ⟨?_, ?_, fun a ha => ?_, fun a => ?_⟩
  · rw [fget_fput_other _ _ _ _ hne1, scAdd_value s c 1 hsc]
    exact sat32_add _ 1
  · rw [fget_fput_same _ _ _ _ (by decide) (by decide)]
    exact Nat.mod_eq_of_lt (show _ < 16 by omega)
  · obtain ⟨h1, h2, h3⟩ : a ≠ rSc c sc ∧ a ≠ rScSat c ∧ a ≠ rSyncStatus c := by simpa only [not_or] using ha
    rw [reg_fput_other _ _ _ h3, scAdd_reg_other s c sc 1 h1 h2]
  · rw [fput_rdB, scAdd_rdB]

/-- A WATCH_FIRE that is not orphaned or does not stop the context. -/
theorem fireCore_counts {s : State} {c : CoreId} {k : CtxId} {sc : Nat} {o : Bool} (hsc : sc < 48)
    (ho : o = false ∨ s.flag (rSyncCtxCfg c.hall.val k.val) fSyncCtxCfgOrphanStop = false) :
    let t := s.fireCore c k sc o
    t.fget (rSc c sc) fScValue = min (s.fget (rSc c sc) fScValue + 1) (2 ^ 32 - 1) ∧
      t.fget (rSyncStatus c) fSyncStatusWatches = s.fget (rSyncStatus c) fSyncStatusWatches - 1 ∧
      t.flag (rScOrphan c) ⟨sc, sc⟩ = (s.flag (rScOrphan c) ⟨sc, sc⟩ || o) ∧
      RegsBut (fun a => a = rSc c sc ∨ a = rScSat c ∨ a = rScOrphan c ∨ a = rSyncStatus c) s t ∧ SameMem s t := by
  obtain ⟨-, hne2, -, hne4, hne5⟩ := sync_addrs c hsc
  obtain ⟨hv, hw, hregs, hmem⟩ := fired_fields s c hsc
  obtain ⟨hcfgStatus, hcfgSat, hcfgOrphan, hcfgSc⟩ := rSyncCtxCfg_ne c.hall.val k.val c
  unfold State.fireCore
  extract_lets s1 t
  have hcfg : s1.flag (rSyncCtxCfg c.hall.val k.val) fSyncCtxCfgOrphanStop = s.flag (rSyncCtxCfg c.hall.val k.val) fSyncCtxCfgOrphanStop := by
    rw [State.flag, State.fget, hregs _ fun h => h.elim (hcfgSc sc hsc) (Or.elim · hcfgSat hcfgStatus), State.flag, State.fget]
  have horphan : s1.reg (rScOrphan c) = s.reg (rScOrphan c) := hregs _ fun h => h.elim hne2.symm (Or.elim · hne4 hne5)
  have hbut (a : Nat) (ha : ¬ (a = rSc c sc ∨ a = rScSat c ∨ a = rScOrphan c ∨ a = rSyncStatus c)) : s1.reg a = s.reg a :=
    hregs a fun h => ha (h.imp_right (Or.imp_right .inr))
  cases o with
  | false =>
    have ht : t = s1 := if_neg Bool.false_ne_true
    rw [ht, Bool.or_false]
    exact ⟨hv, hw, congrArg (fun x => (Fd.get ⟨sc, sc⟩ x == 1)) horphan, hbut, hmem⟩
  | true =>
    have hstop : (s1.fput (rScOrphan c) ⟨sc, sc⟩ 1).flag (rSyncCtxCfg c.hall.val k.val) fSyncCtxCfgOrphanStop = false := by
      rw [flag_fput_other _ _ _ _ hcfgOrphan, hcfg]
      exact ho.resolve_left Bool.noConfusion
    have ht : t = s1.fput (rScOrphan c) ⟨sc, sc⟩ 1 := (if_pos rfl).trans (orphanStop_of_clear hstop)
    rw [ht]
    refine ⟨?_, ?_, ?_, fun a ha => ?_, fun a => ?_⟩
    · rw [fget_fput_other _ _ _ _ hne2, hv]
    · rw [fget_fput_other _ _ _ _ hne5.symm, hw]
    · rw [flag_fput_one _ _ _ (by omega), Bool.or_true]
    · rw [reg_fput_other _ _ _ fun h => ha (.inr (.inr (.inl h))), hbut a ha]
    · rw [fput_rdB, hmem a]

/-- An orphaned WATCH_FIRE with ORPHAN_STOP = 1 stops the context. -/
theorem fireCore_stops {s : State} {c : CoreId} {k : CtxId} {sc : Nat} (hsc : sc < 48)
    (hstop : s.flag (rSyncCtxCfg c.hall.val k.val) fSyncCtxCfgOrphanStop = true) :
    let t := s.fireCore c k sc true
    t.fget (rCoreStatus c) fCoreStatusFault = 0x4002 ∧
      ∀ d ∈ s.activeCores k.val, t.flag (rCoreStatus d) fCoreStatusFaulted = true ∧ (t.core d).stopCause ≠ none := by
  obtain ⟨hcfgStatus, hcfgSat, hcfgOrphan, hcfgSc⟩ := rSyncCtxCfg_ne c.hall.val k.val c
  unfold State.fireCore
  rw [if_pos rfl]
  refine orphanStop_shows ?_ ?_
  · rw [flag_fput_other _ _ _ _ hcfgOrphan, flag_fput_other _ _ _ _ hcfgStatus, State.flag, State.fget, scAdd_reg_other s c sc 1 (hcfgSc sc hsc) hcfgSat]
    exact hstop
  · exact (placing_setReg_window _ c 0x204188 _ (by decide) (by decide)).trans ((placing_fput_sync _ c _ _).trans (placing_scAdd s c 1 hsc))

/-! ### Messages returned to the front die (R235) -/

/-- A returned message stands last on the wire, with its type, its ARG and its payload, and the position of its core behind it. -/
theorem bellReturn_bell (s : State) (c : CoreId) (k : CtxId) {type arg : Nat} {pay : List (BitVec 32)} (ht : type < 16) (ha : arg < 2048) (hp : pay.length < 3) :
    ∃ m ∈ (s.bellReturn c type k arg pay).bell, bellType m = type ∧ bellSrc m = arg ∧ m.pay = pay ++ [BitVec.ofNat 32 c.pos] := by
  refine ⟨_, List.mem_append_right _ (List.mem_singleton_self _), ?_⟩
  obtain ⟨htype, hsrc, -, -⟩ := bellHdr_fields false ht k.isLt (show pay.length + 1 < 4 by omega) (show 0 < 8 by decide) (show 15 < 16 by decide)
    (show 15 < 16 by decide) ha (pay ++ [BitVec.ofNat 32 c.pos]) (gx c) (gy c) 4 false
  exact ⟨htype, hsrc, rfl⟩

theorem bton_eq (b : Bool) : bton b = if b then 1 else 0 := by cases b <;> rfl

theorem bton_mul_add (b : Bool) (n : Nat) : bton b * 64 + n = (if b then 64 else 0) + n := by cases b <;> rfl

/-! ### What the commands do with the message they take -/

theorem presentOn_bellTaken (s : State) (q : MsgKey) (c : CoreId) (k : CtxId) : (s.bellTaken q).presentOn c k = s.presentOn c k := by
  simp [State.presentOn]

theorem placing_bellTaken (s : State) (q : MsgKey) : (s.bellTaken q).placing = s.placing := by
  have h1 : (s.bellTaken q).coreCtx = s.coreCtx := funext fun c => bellTaken_coreCtx s q c
  have h2 : (s.bellTaken q).ctxCores = s.ctxCores := funext fun k => by simp [State.ctxCores]
  have h3 : (s.bellTaken q).core = s.core := funext fun c => bellTaken_core s q c
  rw [State.placing, h1, h2, h3, State.placing]

theorem runs_wake {s : State} {c : CoreId} {k : CtxId} {o : Bool} {P : State → Prop}
    (hfree : s.bellFree ⟨4, k, some (bton o), some c.pos, none⟩ = true)
    (hP : ∀ q, P (if s.presentOn c k then (s.bellTaken q).wakeCore c k o else (s.bellTaken q).bellReturn c 4 k (bton o) [])) : Runs (.wake c k o) s P :=
  runs_delivered (f := fun s1 => if s.presentOn c k then s1.wakeCore c k o else s1.bellReturn c 4 k (bton o) []) rfl hfree (hP _)

theorem runs_watchFire {s : State} {c : CoreId} {k : CtxId} {sc : BitVec 6} {o : Bool} {P : State → Prop}
    (hfree : s.bellFree ⟨5, k, some (bton o * 64 + sc.toNat), some c.pos, none⟩ = true)
    (hP : ∀ q, P (if s.presentOn c k then (if sc.toNat < 48 then (s.bellTaken q).fireCore c k sc.toNat o else s.bellTaken q)
        else (s.bellTaken q).bellReturn c 5 k (bton o * 64 + sc.toNat) [])) : Runs (.watchFire c k sc o) s P :=
  runs_delivered (f := fun s1 => if s.presentOn c k then (if sc.toNat < 48 then s1.fireCore c k sc.toNat o else s1)
    else s1.bellReturn c 5 k (bton o * 64 + sc.toNat) []) rfl hfree (hP _)

theorem runs_cntPost {s : State} {c : CoreId} {k : CtxId} {sc : BitVec 6} {count : BitVec 32} {P : State → Prop}
    (hfree : s.bellFree ⟨6, k, some sc.toNat, some c.pos, some [count]⟩ = true)
    (hP : ∀ q, P (if s.presentOn c k then (s.bellTaken q).ctPost c sc.toNat count.toNat else (s.bellTaken q).bellReturn c 6 k sc.toNat [count])) :
    Runs (.cntPost c k sc count) s P :=
  runs_delivered (f := fun s1 => if s.presentOn c k then s1.ctPost c sc.toNat count.toNat else s1.bellReturn c 6 k sc.toNat [count]) rfl hfree (hP _)

/-- What a statement says of the state without a message on the wire, it says of the state with it. -/
theorem sameMem_bellTaken {s t : State} {q : MsgKey} (h : SameMem (s.bellTaken q) t) : SameMem s t := fun a => (h a).trans (bellTaken_rdB s q a)

theorem regsBut_bellTaken {s t : State} {q : MsgKey} {A : Nat → Prop} (h : RegsBut A (s.bellTaken q) t) : RegsBut A s t := fun a ha =>
  (h a ha).trans (bellTaken_reg s q a)

/-- A post adds its count. -/
theorem ctPost_adds (s : State) (c : CoreId) {sc : Nat} (n : Nat) (hsc : sc < 48) :
    (s.ctPost c sc n).fget (rSc c sc) fScValue = min (s.fget (rSc c sc) fScValue + n) (2 ^ 32 - 1) ∧
      RegsBut (fun a => a = rSc c sc ∨ a = rScSat c) s (s.ctPost c sc n) ∧ SameMem s (s.ctPost c sc n) := by
  rw [State.ctPost, if_pos hsc]
  refine ⟨(scAdd_value s c n hsc).trans (sat32_add _ _), fun a ha => ?_, fun a => scAdd_rdB ..⟩
  exact scAdd_reg_other s c sc n (fun h => ha (.inl h)) fun h => ha (.inr h)

theorem syncMessages_present {s : State} {c : CoreId} {k : CtxId} {sc : BitVec 6} {count : BitVec 32} {o : Bool} (hp : s.presentOn c k = true)
    (hfree4 : s.bellFree ⟨4, k, some (bton o), some c.pos, none⟩ = true)
    (hfree5 : s.bellFree ⟨5, k, some (bton o * 64 + sc.toNat), some c.pos, none⟩ = true)
    (hfree6 : s.bellFree ⟨6, k, some sc.toNat, some c.pos, some [count]⟩ = true) :
    let v := s.fget (rSc c sc.toNat) fScValue
    let pend := s.flag (rSyncStatus c) fSyncStatusGwaitPend
    let stop := s.flag (rSyncCtxCfg c.hall.val k.val) fSyncCtxCfgOrphanStop
    let shows := fun t => State.fget t (rCoreStatus c) fCoreStatusFault = 0x4002 ∧
      ∀ d ∈ s.activeCores k.val, State.flag t (rCoreStatus d) fCoreStatusFaulted = true ∧ (State.core t d).stopCause ≠ none
    (pend = true → o = false ∨ stop = false → Runs (.wake c k o) s (fun t =>
      t.flag (rSyncStatus c) fSyncStatusGwaitPend = false ∧ (t.core c).gwait = none ∧
      t.flag (rSyncStatus c) fSyncStatusOrphanWake = (s.flag (rSyncStatus c) fSyncStatusOrphanWake || o) ∧
      RegsBut (· = rSyncStatus c) s t ∧ SameMem s t)) ∧
    (pend = false → o = false ∨ stop = false → Runs (.wake c k o) s (fun t =>
      t.flag (rSyncStatus c) fSyncStatusGwaitPend = false ∧
      t.flag (rSyncStatus c) fSyncStatusOrphanNotice = (s.flag (rSyncStatus c) fSyncStatusOrphanNotice || o) ∧
      RegsBut (· = rSyncStatus c) s t ∧ SameMem s t)) ∧
    (o = true → stop = true → Runs (.wake c k o) s shows) ∧
    (sc.toNat < 48 → o = false ∨ stop = false → Runs (.watchFire c k sc o) s (fun t =>
      t.fget (rSc c sc.toNat) fScValue = min (v + 1) (2 ^ 32 - 1) ∧
      t.fget (rSyncStatus c) fSyncStatusWatches = s.fget (rSyncStatus c) fSyncStatusWatches - 1 ∧
      t.flag (rScOrphan c) ⟨sc.toNat, sc.toNat⟩ = (s.flag (rScOrphan c) ⟨sc.toNat, sc.toNat⟩ || o) ∧
      RegsBut (fun a => a = rSc c sc.toNat ∨ a = rScSat c ∨ a = rScOrphan c ∨ a = rSyncStatus c) s t ∧ SameMem s t)) ∧
    (sc.toNat < 48 → o = true → stop = true → Runs (.watchFire c k sc o) s shows) ∧
    (sc.toNat < 48 → Runs (.cntPost c k sc count) s (fun t =>
      t.fget (rSc c sc.toNat) fScValue = min (v + count.toNat) (2 ^ 32 - 1) ∧
      RegsBut (fun a => a = rSc c sc.toNat ∨ a = rScSat c) s t ∧ SameMem s t)) ∧
    (48 ≤ sc.toNat → Runs (.watchFire c k sc o) s (fun t => SameRegs s t ∧ SameMem s t) ∧
      Runs (.cntPost c k sc count) s (fun t => SameRegs s t ∧ SameMem s t)) := by
  intro v pend stop shows
  have hshows {q : MsgKey} {t : State} (h : t.fget (rCoreStatus c) fCoreStatusFault = 0x4002 ∧ ∀ d ∈ (s.bellTaken q).activeCores k.val,
      t.flag (rCoreStatus d) fCoreStatusFaulted = true ∧ (t.core d).stopCause ≠ none) : shows t := by
    rwa [activeCores_congr (placing_bellTaken s q)] at h
  refine ⟨fun h ho => runs_wake hfree4 fun q => ?_, fun h ho => runs_wake hfree4 fun q => ?_, fun ho h => runs_wake hfree4 fun q => ?_,
    fun hsc ho => runs_watchFire hfree5 fun q => ?_, fun hsc ho h => runs_watchFire hfree5 fun q => ?_, fun hsc => runs_cntPost hfree6 fun q => ?_,
    fun hsc => ⟨runs_watchFire hfree5 fun q => ?_, runs_cntPost hfree6 fun q => ?_⟩⟩
  · obtain ⟨h1, h2, h3, h4, h5⟩ := wakeCore_pending (s := s.bellTaken q) (c := c) (k := k) (o := o) (by rwa [bellTaken_flag]) (by rwa [bellTaken_flag])
    rw [if_pos hp]
    exact ⟨h1, h2, by rw [h3, bellTaken_flag], regsBut_bellTaken h4, sameMem_bellTaken h5⟩
  · obtain ⟨h1, h2, h4, h5⟩ := wakeCore_unexpected (s := s.bellTaken q) (c := c) (k := k) (o := o) (by rwa [bellTaken_flag]) (by rwa [bellTaken_flag])
    rw [if_pos hp]
    exact ⟨h1, by rw [h2, bellTaken_flag], regsBut_bellTaken h4, sameMem_bellTaken h5⟩
  · rw [if_pos hp, ho]
    exact hshows (wakeCore_stops (by rwa [bellTaken_flag]))
  · obtain ⟨h1, h2, h3, h4, h5⟩ := fireCore_counts (s := s.bellTaken q) (c := c) (k := k) (o := o) hsc (by rwa [bellTaken_flag])
    rw [if_pos hp, if_pos hsc]
    exact ⟨by rw [h1, bellTaken_fget], by rw [h2, bellTaken_fget], by rw [h3, bellTaken_flag], regsBut_bellTaken h4, sameMem_bellTaken h5⟩
  · rw [if_pos hp, if_pos hsc, ho]
    exact hshows (fireCore_stops hsc (by rwa [bellTaken_flag]))
  · obtain ⟨h1, h4, h5⟩ := ctPost_adds (s.bellTaken q) c count.toNat hsc
    rw [if_pos hp]
    exact ⟨by rw [h1, bellTaken_fget], regsBut_bellTaken h4, sameMem_bellTaken h5⟩
  · rw [if_pos hp, if_neg (by omega)]
    exact ⟨fun a => bellTaken_reg .., fun a => bellTaken_rdB ..⟩
  · rw [if_pos hp, State.ctPost, if_neg (by omega)]
    exact ⟨fun a => bellTaken_reg .., fun a => bellTaken_rdB ..⟩

/-- A message that is returned changes no register and no memory. -/
theorem returned_message (s : State) (q : MsgKey) (c : CoreId) (k : CtxId) {type arg arg' : Nat} {pay : List (BitVec 32)} (ht : type < 16)
    (ha : arg < 2048) (hp : pay.length < 3) (he : arg = arg') :
    let t := (s.bellTaken q).bellReturn c type k arg pay
    (∃ m ∈ t.bell, bellType m = type ∧ bellSrc m = arg' ∧ m.pay = pay ++ [BitVec.ofNat 32 c.pos]) ∧ SameRegs s t ∧ SameMem s t := by
  refine ⟨he ▸ bellReturn_bell _ c k ht ha hp, fun a => ?_, fun a => ?_⟩
  · rw [bellReturn_reg, bellTaken_reg]
  · rw [bellReturn_rdB, bellTaken_rdB]

/-- A message that is sent to the core again changes no register and no memory. -/
theorem sent_again (s : State) (q : MsgKey) (c : CoreId) (k : CtxId) {type arg arg' : Nat} {pay : List (BitVec 32)} (ht : type < 16)
    (ha : arg < 2048) (hp : pay.length < 4) (he : arg = arg') :
    let t := (s.bellTaken q).bellToCore type k.val c arg pay
    (∃ m ∈ t.bell, bellType m = type ∧ bellDst m = c.pos ∧ bellSrc m = arg' ∧ m.pay = pay) ∧ SameRegs s t ∧ SameMem s t := by
  refine ⟨he ▸ bellToCore_bell _ k c ht ha hp, fun a => ?_, fun a => ?_⟩
  · rw [bellToCore_reg, bellTaken_reg]
  · rw [bellToCore_rdB, bellTaken_rdB]

theorem orphan_arg_lt (o : Bool) (sc : BitVec 6) : bton o * 64 + sc.toNat < 2048 := by
  have := sc.isLt
  cases o
  · show 0 * 64 + sc.toNat < 2048; omega
  · show 1 * 64 + sc.toNat < 2048; omega

/-! ### Messages applied to a saved image -/

/-- What a returned message does to the core that its image stands on. -/
def State.applyRet (c : CoreId) (k : CtxId) (m : RetMsg) (t : State) : State := match m with
  | .wake o => t.wakeCore c k o
  | .fire sc o => if sc.toNat < 48 then t.fireCore c k sc.toNat o else t
  | .post sc n => t.ctPost c sc.toNat n.toNat

theorem savedOf_bellTaken (s : State) (q : MsgKey) (k : CtxId) (c : CoreId) : (s.bellTaken q).savedOf k c = s.savedOf k c := by
  rw [State.savedOf, bellTaken_ctx, State.savedOf]

theorem runs_returned_held {s : State} {c : CoreId} {k : CtxId} {m : RetMsg} {i : SavedS} {P : State → Prop} (hfree : s.bellFree (retKey m c k) = true)
    (hi : s.savedOf k c = some i) (hP : P ((s.bellTaken (retKey m c k)).onImage k.val i (State.applyRet c k m))) : Runs (.returnedMessage c k m) s P := by
  refine ⟨_, ?_, hP⟩
  show execReturnedMessage c k m s = _
  simp only [execReturnedMessage, State.delivered, if_pos hfree, savedOf_bellTaken, hi]
  rfl

theorem runs_returned_gone {s : State} {c : CoreId} {k : CtxId} {m : RetMsg} {P : State → Prop} (hfree : s.bellFree (retKey m c k) = true)
    (hi : s.savedOf k c = none)
    (hP : P ((s.bellTaken (retKey m c k)).bellToCore (retParts m).1 k.val c (retParts m).2.1 (retParts m).2.2)) : Runs (.returnedMessage c k m) s P := by
  refine ⟨_, ?_, hP⟩
  show execReturnedMessage c k m s = _
  simp only [execReturnedMessage, State.delivered, if_pos hfree, savedOf_bellTaken, hi]

/-- The register of the counter itself after an addition. -/
theorem reg_scAdd_same (s : State) (c : CoreId) {k : Nat} (d : Int) (h : k < 48) :
    (s.scAdd c k d).reg (rSc c k) = fScValue.put (s.reg (rSc c k)) (sat32 ((s.fget (rSc c k) fScValue : Int) + d)) := by
  by_cases hs : satOut ((s.fget (rSc c k) fScValue : Int) + d) = false ∨ s.flag (rScSat c) ⟨k, k⟩ = true
  · rw [scAdd_quiet hs, modCore_reg, reg_fput_same]
  · simp only [not_or, Bool.not_eq_false, Bool.not_eq_true] at hs
    obtain ⟨r, e⟩ := scAdd_firstSat hs.1 hs.2
    rw [e, emit_reg, reg_fput_other _ _ _ (rSc_ne_rScSat c h), modCore_reg, reg_fput_same]

/-- An operation applied to the image: what it does to a sync register stands in the image. -/
theorem returned_holds {s u : State} {c : CoreId} {k : CtxId} {i : SavedS} {a : Nat} {w v : Word} {m : RetMsg} (hs : s.canon) (hu : u.canon)
    (hi : s.savedOf k c = some i) (hregs : i.regs = u.ctxRegs c) (hfree : s.bellFree (retKey m c k) = true) (ha : a ∈ syncRegs c)
    (hw : i.regs.lookup a = some w) (hreg : ∀ t b, ¬ ctxState c b → (State.applyRet c k m t).reg b = t.reg b) (hmem : ∀ t, (State.applyRet c k m t).mem = t.mem)
    (hctx : ∀ t, (State.applyRet c k m t).ctxs = t.ctxs) (hv : ∀ t : State, t.reg a = w → (State.applyRet c k m t).reg a = v) :
    Runs (.returnedMessage c k m) s fun t => (∃ j, State.savedOf t k c = some j ∧ j.regs.lookup a = some v) ∧ SameRegs s t ∧ SameMem s t := by
  have hcanon : (s.bellTaken (retKey m c k)).canon := (canon_bellTaken _ (canonFor_none.2 hs)).1
  obtain ⟨hunder, hsame, hsameMem, j, hj, hlook⟩ := onImage_applied hcanon hu ((savedOf_bellTaken s _ k c).trans hi) hregs hreg hmem hctx
  have hval : u.reg a = w := by
    rw [hregs, lookup_ctxRegs u ha] at hw
    exact Option.some.inj hw
  refine runs_returned_held hfree hi ⟨⟨j, hj, ?_⟩, fun b => (hsame b).trans (bellTaken_reg ..), sameMem_bellTaken hsameMem⟩
  rw [hlook a ha, hv _ ((hunder a ha).trans hval)]

theorem not_ctxState {c : CoreId} {a : Nat} (h : ¬ ctxState c a) : a ≠ rSyncStatus c ∧ a ≠ rScSat c ∧ a ≠ rScOrphan c ∧ ∀ k, k < 48 → a ≠ rSc c k := by
  simp only [ctxState, not_or] at h
  obtain ⟨-, -, h⟩ := h
  obtain ⟨h1, h2, h3⟩ := mem_syncRegs c
  exact ⟨fun e => h (e ▸ h3), fun e => h (e ▸ h1), fun e => h (e ▸ h2), fun k hk e => h (e ▸ rSc_mem_syncRegs c hk)⟩

theorem returned_post {s u : State} {c : CoreId} {k : CtxId} {sc : BitVec 6} {count : BitVec 32} {i : SavedS} {w : Word} (hs : s.canon) (hu : u.canon)
    (hi : s.savedOf k c = some i) (hregs : i.regs = u.ctxRegs c) (hfree : s.bellFree (retKey (.post sc count) c k) = true) (hsc : sc.toNat < 48)
    (hw : i.regs.lookup (rSc c sc.toNat) = some w) : Runs (.returnedMessage c k (.post sc count)) s fun t =>
      (∃ j, State.savedOf t k c = some j ∧ j.regs.lookup (rSc c sc.toNat) =
        some (fScValue.put w (min (fScValue.get w + count.toNat) (2 ^ 32 - 1)))) ∧ SameRegs s t ∧ SameMem s t := by
  have happly (t : State) : State.applyRet c k (.post sc count) t = t.scAdd c sc.toNat count.toNat := if_pos hsc
  refine returned_holds hs hu hi hregs hfree (rSc_mem_syncRegs c hsc) hw (fun t b hb => ?_) (fun t => ?_) (fun t => ?_) fun t ht => ?_
  · obtain ⟨-, h2, -, h4⟩ := not_ctxState hb
    rw [happly, scAdd_reg_other _ _ _ _ (h4 _ hsc) h2]
  · rw [happly, scAdd_mem]
  · rw [happly, scAdd_ctxs]
  · rw [happly, reg_scAdd_same _ _ _ hsc, State.fget, ht, sat32_add]

theorem returned_fire {s u : State} {c : CoreId} {k : CtxId} {sc : BitVec 6} {i : SavedS} {w : Word} (hs : s.canon) (hu : u.canon)
    (hi : s.savedOf k c = some i) (hregs : i.regs = u.ctxRegs c) (hfree : s.bellFree (retKey (.fire sc false) c k) = true) (hsc : sc.toNat < 48)
    (hw : i.regs.lookup (rSc c sc.toNat) = some w) : Runs (.returnedMessage c k (.fire sc false)) s fun t =>
      (∃ j, State.savedOf t k c = some j ∧ j.regs.lookup (rSc c sc.toNat) =
        some (fScValue.put w (min (fScValue.get w + 1) (2 ^ 32 - 1)))) ∧ SameRegs s t ∧ SameMem s t := by
  have happly (t : State) : State.applyRet c k (.fire sc false) t = (t.scAdd c sc.toNat 1).fput (rSyncStatus c) fSyncStatusWatches
      (t.fget (rSyncStatus c) fSyncStatusWatches - 1) := if_pos hsc
  refine returned_holds hs hu hi hregs hfree (rSc_mem_syncRegs c hsc) hw (fun t b hb => ?_) (fun t => ?_) (fun t => ?_) fun t ht => ?_
  · obtain ⟨h1, h2, -, h4⟩ := not_ctxState hb
    rw [happly, reg_fput_other _ _ _ h1, scAdd_reg_other _ _ _ _ (h4 _ hsc) h2]
  · rw [happly, fput_mem, scAdd_mem]
  · rw [happly, fput_ctxs, scAdd_ctxs]
  · rw [happly, reg_fput_other _ _ _ (sync_addrs c hsc).1, reg_scAdd_same _ _ _ hsc, State.fget, ht]
    exact congrArg _ (sat32_add _ 1)

theorem returned_wake {s u : State} {c : CoreId} {k : CtxId} {i : SavedS} {w : Word} (hs : s.canon) (hu : u.canon)
    (hi : s.savedOf k c = some i) (hregs : i.regs = u.ctxRegs c) (hfree : s.bellFree (retKey (.wake false) c k) = true)
    (hw : i.regs.lookup (rSyncStatus c) = some w) (hpend : fSyncStatusGwaitPend.get w = 1) : Runs (.returnedMessage c k (.wake false)) s fun t =>
      (∃ j, State.savedOf t k c = some j ∧ j.regs.lookup (rSyncStatus c) = some (fSyncStatusGwaitPend.put w 0)) ∧ SameRegs s t ∧ SameMem s t := by
  have happly (t : State) : State.applyRet c k (.wake false) t = if t.flag (rSyncStatus c) fSyncStatusGwaitPend then
      (t.fput (rSyncStatus c) fSyncStatusGwaitPend 0).modCore c fun x => { x with gwait := none } else t := rfl
  refine returned_holds hs hu hi hregs hfree (mem_syncRegs c).2.2 hw (fun t b hb => ?_) (fun t => ?_) (fun t => ?_) fun t ht => ?_
  · rw [happly]
    split
    · rw [modCore_reg, reg_fput_other _ _ _ (not_ctxState hb).1]
    · rfl
  · rw [happly]
    split <;> simp
  · rw [happly]
    split <;> simp
  · rw [happly, if_pos (by rw [State.flag, State.fget, ht, hpend]; rfl), modCore_reg, reg_fput_same, ht]

/-- Settles O18: by what a message does at a core, on an image, and on its way back. -/
theorem syncMessagesAtCores : Obligations.SyncMessagesAtCores := by
  refine ⟨fun s c k sc count o hp h4 h5 h6 => syncMessages_present hp h4 h5 h6, fun s c k sc count o hp h4 h5 h6 => ?_,
    fun s c k sc count i u w hs hu hi hregs hfree => ?_, fun s c k sc count o hi hfree => ?_⟩
  · have hlt := sc.isLt
    have hno : ¬ s.presentOn c k = true := by rw [hp]; exact Bool.false_ne_true
    refine ⟨runs_wake h4 fun q => ?_, runs_watchFire h5 fun q => ?_, runs_cntPost h6 fun q => ?_⟩
    · rw [if_neg hno]
      exact returned_message s _ c k (by decide) (by cases o <;> decide) (by decide) (bton_eq o)
    · rw [if_neg hno]
      exact returned_message s _ c k (by decide) (orphan_arg_lt o sc) (by decide) (bton_mul_add o _)
    · rw [if_neg hno]
      exact returned_message s _ c k (by decide) (by omega) (show 1 < 3 by decide) rfl
  · exact ⟨fun hsc hw => returned_post hs hu hi hregs (hfree _) hsc hw, fun hsc hw => returned_fire hs hu hi hregs (hfree _) hsc hw,
      fun hw hpend => returned_wake hs hu hi hregs (hfree _) hw hpend⟩
  · have hlt := sc.isLt
    exact ⟨runs_returned_gone (hfree _) hi (sent_again s _ c k (show 4 < 16 by decide) (by cases o <;> decide) (show 0 < 4 by decide) (bton_eq o)),
      runs_returned_gone (hfree _) hi (sent_again s _ c k (show 5 < 16 by decide) (orphan_arg_lt o sc) (show 0 < 4 by decide) (bton_mul_add o _)),
      runs_returned_gone (hfree _) hi (sent_again s _ c k (show 6 < 16 by decide) (show sc.toNat < 2048 by omega) (show 1 < 4 by decide) rfl)⟩

end Sys2Proof.Machine

/-! ## Fetch and issue of bundles (R28, R52, R72, R136) -/

namespace Sys2Proof.Machine

-- One proof at a time, as in Sys2Proof/Laws: each waiting proof would keep a thread and its stack.
set_option Elab.async false

/-- Settles O29: by the two cases of a fetch. -/
theorem bundleFetches : Obligations.BundleFetches := by
  intro s c i
  refine ⟨fun hf => ?_, fun hrun hq hf => ⟨s.fetch c, rfl, ?_⟩⟩
  · show Host.Outcome.next (s.fetch c) = _
    rw [State.fetch, if_neg (by simp [hf])]
  · rw [State.fetch, if_pos (by simp [hrun, hq, hf])]
    exact ⟨by rw [core_setCore_same]; rfl, by rw [core_setCore_same], by rw [core_setCore_same], fun a => setCore_reg .., fun a => setCore_rdB ..⟩

/-! ### What the effect of a slot leaves of PC and of the queue -/

/-- PC of the core, its issue queue and its attempt of this cc. -/
def State.headAt (s : State) (c : CoreId) : Nat × List BundleS × Option (Option Nat) := (s.pc c, (s.core c).queue, (s.core c).attempt)

theorem headAt_setReg (s : State) {c : CoreId} {a : Nat} (v : Word) (h : rPc c ≠ a) : (s.setReg a v).headAt c = s.headAt c := by
  rw [State.headAt, State.pc, State.fget, reg_setReg_other _ _ h, setReg_core, State.headAt, State.pc, State.fget]

theorem headAt_fput (s : State) {c : CoreId} {a : Nat} (f : Fd) (v : Nat) (h : rPc c ≠ a) : (s.fput a f v).headAt c = s.headAt c := headAt_setReg s _ h

theorem headAt_modCore (s : State) (c : CoreId) (f : CoreS → CoreS) (hq : (f (s.core c)).queue = (s.core c).queue)
    (ha : (f (s.core c)).attempt = (s.core c).attempt) : (s.modCore c f).headAt c = s.headAt c := by
  rw [State.headAt, State.pc, modCore_fget, core_modCore_same, hq, ha]
  rfl

theorem headAt_askStop (s : State) (c : CoreId) (k : StopCause) : (s.askStop c k).headAt c = s.headAt c := by
  rw [State.askStop]
  refine headAt_modCore _ _ _ ?_ ?_ <;> split <;> rfl

theorem headAt_stepped (s : State) (c : CoreId) : (s.stepped c).headAt c = s.headAt c := by
  rw [State.stepped]
  split
  · exact (headAt_askStop _ _ _).trans (headAt_modCore _ _ _ rfl rfl)
  · rfl

theorem rPc_ne (c : CoreId) : rPc c ≠ rCoreCtl c ∧ rPc c ≠ rScSat c ∧ rPc c ≠ rSyncStatus c ∧ rPc c ≠ rBellSentCnt c ∧ rPc c ≠ rStrmStatus c ∧
    rPc c ≠ rLoopCtl c := by
  unfold rPc rCoreCtl rScSat rSyncStatus rBellSentCnt rStrmStatus rLoopCtl
  omega

theorem rPc_ne_indexed (c : CoreId) (i j : Nat) : rPc c ≠ rS c i ∧ rPc c ≠ rV c i j ∧ rPc c ≠ rTileCfg c i ∧ rPc c ≠ rSc c i ∧ rPc c ≠ rLoopEntry c i ∧
    rPc c ≠ rStrmEntry c i ∧ rPc c ≠ rStrmProgress c i ∧ rPc c ≠ rBind c i j ∧ rPc c ≠ rBindCnt c i j := by
  unfold rPc rS rV rTileCfg rSc rLoopEntry rStrmEntry rStrmProgress rBind rBindCnt
  omega

theorem headAt_setS (s : State) (c : CoreId) (i : BitVec 5) (v : Word) : (s.setS c i v).headAt c = s.headAt c :=
  headAt_setReg s _ (rPc_ne_indexed c i.toNat 0).1

theorem headAt_setV (s : State) (c : CoreId) (k : BitVec 4) (b : Bytes) : (s.setV c k b).headAt c = s.headAt c := by
  rw [State.headAt, State.pc, State.fget, State.setV, reg_setVParts_other c _ b _ s _ fun m _ => (rPc_ne_indexed c k.toNat m).2.1, State.core,
    setVParts_cores, State.headAt, State.pc, State.fget, State.core]

theorem headAt_scAdd (s : State) (c : CoreId) (k : Nat) (d : Int) : (s.scAdd c k d).headAt c = s.headAt c := by
  have hpc : (s.scAdd c k d).pc c = s.pc c := congrArg fPcBundle.get (scAdd_reg_other s c k d (rPc_ne_indexed c k 0).2.2.2.1 (rPc_ne c).2.1)
  rw [State.headAt, hpc, core_scAdd_keeps CoreS.queue (fun _ => rfl), core_scAdd_keeps CoreS.attempt (fun _ => rfl)]
  rfl

theorem headAt_scSet (s : State) (c : CoreId) (k v : Nat) : (s.scSet c k v).headAt c = s.headAt c :=
  (headAt_modCore _ _ _ rfl rfl).trans (headAt_fput s _ _ (rPc_ne_indexed c k 0).2.2.2.1)

theorem headAt_ctPost (s : State) (c : CoreId) (ct n : Nat) : (s.ctPost c ct n).headAt c = s.headAt c := by
  rw [State.ctPost]
  split
  · exact headAt_scAdd s c ct n
  · rfl

theorem headAt_semSend (s : State) (c : CoreId) (type : Nat) (w : Word) (p0 p1 : BitVec 32) : (s.semSend c type w p0 p1).headAt c = s.headAt c := by
  have hpc : (s.semSend c type w p0 p1).pc c = s.pc c := congrArg fPcBundle.get (regsBut_semSend s c type w p0 p1 _ (rPc_ne c).2.2.2.1)
  rw [State.headAt, hpc, semSend_core]
  rfl

/-! #### Slot by slot -/

theorem headAt_effCtl (rd s : State) (c : CoreId) (i : Instr) : (effCtl rd c i s).headAt c = s.headAt c := by
  unfold effCtl
  split
  · exact headAt_setS ..
  · exact headAt_setS ..
  · dsimp only
    split
    · rfl
    · exact (headAt_setReg _ _ (rPc_ne_indexed c _ 0).2.2.2.2.1).trans (headAt_fput _ _ _ (rPc_ne c).2.2.2.2.2)
  · exact headAt_fput _ _ _ (rPc_ne c).2.2.2.2.2
  · exact headAt_modCore _ _ _ rfl rfl
  · exact headAt_modCore _ _ _ rfl rfl
  · exact (headAt_askStop _ _ _).trans (headAt_fput _ _ _ (rPc_ne c).1)
  · rfl

theorem headAt_effScl (rd s : State) (c : CoreId) (i : Instr) : (effScl rd c i s).headAt c = s.headAt c := by
  unfold effScl
  split
  · exact headAt_setReg _ _ (rPc_ne_indexed c _ 0).2.2.1
  · split
    · exact headAt_setS ..
    · rfl

theorem headAt_effVec (rd s : State) (c : CoreId) (i : Instr) : (effVec rd c i s).headAt c = s.headAt c := by
  unfold effVec
  split
  · exact headAt_setS ..
  · split
    · exact headAt_setV ..
    · rfl

theorem headAt_effMbind (rd s : State) (c : CoreId) (flow ct : BitVec 6) (sb ss sn : BitVec 5) :
    (effMbind rd c flow ct sb ss sn s).headAt c = s.headAt c := by
  unfold effMbind
  dsimp only
  split
  · exact headAt_ctPost ..
  · obtain ⟨-, -, -, -, -, -, -, hb, hc⟩ := rPc_ne_indexed c flow.toNat (s.bindNext c flow.toNat)
    exact (headAt_modCore _ _ _ rfl rfl).trans ((headAt_setReg _ _ hc).trans (headAt_setReg _ _ hb))

theorem headAt_effSlnch (rd s : State) (c : CoreId) (sb : BitVec 5) (off : BitVec 16) : (effSlnch rd c sb off s).headAt c = s.headAt c := by
  obtain ⟨-, -, -, -, -, he, hp, -, -⟩ := rPc_ne_indexed c (s.descLive c) 0
  exact (headAt_modCore _ _ _ rfl rfl).trans ((headAt_fput _ _ _ (rPc_ne c).2.2.2.2.1).trans ((headAt_setReg _ _ hp).trans (headAt_setReg _ _ he)))

theorem headAt_effPost (rd s : State) (c : CoreId) (sc : BitVec 6) (mode : BitVec 2) (imm : BitVec 16) :
    (effPost rd c sc mode imm s).headAt c = s.headAt c := by
  unfold effPost
  dsimp only
  split
  · exact headAt_scSet ..
  · exact headAt_scAdd ..

theorem headAt_effWait (rd s : State) (c : CoreId) (sc : BitVec 6) (mode : BitVec 2) (consume : Bool) (imm : BitVec 16) :
    (effWait rd c sc mode consume imm s).headAt c = s.headAt c := by
  unfold effWait
  split
  · exact headAt_scAdd ..
  · rfl

theorem headAt_effGwait (rd s : State) (c : CoreId) (sa : BitVec 5) (mode : BitVec 2) (consume : Bool) (imm : BitVec 16) :
    (effGwait rd c sa mode consume imm s).headAt c = s.headAt c :=
  (headAt_modCore _ _ _ rfl rfl).trans ((headAt_fput _ _ _ (rPc_ne c).2.2.1).trans (headAt_semSend ..))

theorem headAt_effGwatch (rd s : State) (c : CoreId) (sa sv : BitVec 5) (sc : BitVec 6) (cond : BitVec 2) :
    (effGwatch rd c sa sv sc cond s).headAt c = s.headAt c :=
  (headAt_fput _ _ _ (rPc_ne c).2.2.1).trans (headAt_semSend ..)

theorem headAt_passIn (s : State) (c : CoreId) (p : PassS) : (s.passIn c p).headAt c = s.headAt c := by
  unfold State.passIn
  refine headAt_modCore _ _ _ ?_ ?_ <;> (dsimp only; split <;> rfl)

theorem headAt_addPost (s : State) (c : CoreId) (at_ ct n : Nat) : (s.addPost c at_ ct n).headAt c = s.headAt c := headAt_modCore _ _ _ rfl rfl

theorem headAt_sendStart (s : State) (c : CoreId) (ts n flow ct : BitVec 6) : (s.sendStart c ts n flow ct).headAt c = s.headAt c := by
  unfold State.sendStart
  split
  · exact headAt_addPost ..
  · exact headAt_modCore _ _ _ rfl rfl

/-- The effect of a slot leaves PC, the queue and the attempt. -/
theorem headAt_slotEff (rd s : State) (c : CoreId) (i : Instr) : (slotEff rd c i s).headAt c = s.headAt c := by
  unfold slotEff
  extract_lets t f fly nx
  have hfly (u : State) : (fly u).headAt c = u.headAt c := by
    unfold fly
    split
    · rfl
    · exact headAt_modCore _ _ _ rfl rfl
  have hnx (u : State) : (nx u).headAt c = u.headAt c := by
    unfold nx
    split
    · exact headAt_modCore _ _ _ rfl rfl
    · rfl
  rw [hnx, hfly]
  split
  · split
    · rfl
    · exact headAt_passIn ..
  · exact headAt_setS ..
  · exact headAt_sendStart ..
  · split
    · exact headAt_addPost ..
    · exact headAt_effMbind ..
  · exact headAt_effSlnch ..
  · exact headAt_effPost ..
  · exact headAt_effWait ..
  · exact headAt_semSend ..
  · exact headAt_effGwait ..
  · exact headAt_effGwatch ..
  · rw [headAt_effVec, headAt_effScl, headAt_effCtl]

/-! ### The head bundle -/

/-- The core's attempt with a head bundle that passes its checks: it issues, or what holds it is charged. -/
theorem tryIssue_checked {s : State} {c : CoreId} {b : BundleS} {q : List BundleS} {l : List Instr} (hr : Ready s c)
    (ha : (s.core c).attempt = none) (hb : (s.core c).bubble = 0) (hq : (s.core c).queue = b :: q) (hl : s.headCheck c b = .ok l) :
    (s.bundleHolds c l = [] → s.tryIssue c = s.issueBundle c b l) ∧ (s.bundleHolds c l ≠ [] → ∃ k w, s.tryIssue c = s.stall c k w) := by
  obtain ⟨hi, hrestart⟩ := hr
  simp only [State.canIssue, Bool.and_eq_true, Option.isNone_iff_eq_none, beq_iff_eq, Bool.not_eq_true'] at hi
  obtain ⟨⟨⟨hrun, hstop⟩, hmarker⟩, hwait⟩ := hi
  have hw : s.coreWaits c = [] := by simp [State.coreWaits, hwait, hmarker]
  refine ⟨fun hold => ?_, fun hold => ?_⟩
  · simp [State.tryIssue, hrun, ha, hstop, hrestart, hw, hb, hq, hl, hold]
  · simp only [State.tryIssue, hrun, ha, hstop, hrestart, hw, hb, hq, hl, hold, Bool.not_true, Option.isSome_none, Bool.or_self, Bool.false_eq_true,
      if_false, ne_eq, not_true_eq_false, or_self, lt_self_iff_false]
    exact ⟨_, _, rfl⟩

theorem headAt_keepLine (s : State) (c : CoreId) (pc : Nat) : (s.keepLine c pc).headAt c = s.headAt c ∧ (s.keepLine c pc).loopDep c = s.loopDep c := by
  unfold State.keepLine
  extract_lets starts x
  split
  · exact ⟨rfl, rfl⟩
  · refine ⟨?_, ?_⟩
    · rw [State.headAt, State.pc, setCore_fget, core_setCore_same]
      rfl
    · rw [State.loopDep, setCore_fget, State.loopDep]

/-- Outside hardware loops the next index follows. -/
theorem loopEnd_outside {s : State} {c : CoreId} (h : s.loopDep c = 0) (fuel pc : Nat) : loopEnd c fuel s pc = (s, (pc + 1) % 65536) := by
  cases fuel with
  | zero => rfl
  | succ n => rw [loopEnd, if_pos h]

/-- A bundle that issues without a transfer, outside hardware loops: PC goes to the next index and the bundle leaves the queue. -/
theorem headAt_issueBundle {s : State} {c : CoreId} {b : BundleS} {q : List BundleS} {l : List Instr} (hq : (s.core c).queue = b :: q)
    (hloop : s.loopDep c = 0) (hno : ∀ i ∈ l, s.ctlTarget c i = none) :
    (s.issueBundle c b l).headAt c = ((b.idx.toNat + 1) % 65536, q, some none) := by
  obtain ⟨hkeep, hdep⟩ := headAt_keepLine s c b.idx.toNat
  have hqueue : ((s.keepLine c b.idx.toNat).core c).queue = b :: q := (congrArg (fun x => x.2.1) hkeep).trans hq
  unfold State.issueBundle
  extract_lets pc taken s1 r r1 s2
  have htaken : taken = none := List.findSome?_eq_none_iff.2 hno
  have hs1dep : s1.loopDep c = 0 := by rw [State.loopDep, modCore_fget, ← State.loopDep, hdep, hloop]
  have hr : r = (s1, (pc + 1) % 65536) := loopEnd_outside hs1dep 5 pc
  have hs2 : s2 = s1.setPc c ((pc + 1) % 65536) := by
    simp only [s2, htaken, r1, hr, if_pos]
  have hfold : (l.foldl (fun st i => slotEff s c i st) s2).headAt c = s2.headAt c := foldl_same (fun t => t.headAt c) _ (fun t i => headAt_slotEff s t c i) l s2
  rw [headAt_stepped, hfold, hs2, State.headAt, State.setPc, fput_core, State.pc, fget_fput_same _ _ _ _ (by decide) (by decide)]
  have hcore : (s1.core c).queue = q ∧ (s1.core c).attempt = some none := by
    rw [core_modCore_same, hqueue]
    exact ⟨rfl, rfl⟩
  rw [hcore.1, hcore.2]
  have hlt : (pc + 1) % 65536 < 65536 := Nat.mod_lt _ (by decide)
  exact congrArg (·, q, some none) (Nat.mod_eq_of_lt hlt)

/-- Settles O30: by the core's attempt, and by what the effects of the slots leave of PC and of the queue. -/
theorem bundleIssues : Obligations.BundleIssues := by
  intro s c b q l hr ha hb hq hl
  obtain ⟨hissue, hstall⟩ := tryIssue_checked hr ha hb hq hl
  refine ⟨fun hold hloop hno => ⟨s.tryIssue c, rfl, ?_⟩, fun hold => ⟨s.tryIssue c, rfl, ?_⟩⟩
  · have h := headAt_issueBundle (b := b) hq hloop hno
    rw [hissue hold]
    exact ⟨congrArg (fun x => x.1) h, congrArg (fun x => x.2.1) h, congrArg (fun x => x.2.2) h⟩
  · obtain ⟨k, w, e⟩ := hstall hold
    rw [e]
    refine ⟨⟨k, ?_⟩, (queue_stall s c c k w).trans hq, fun a => modCore_reg .., fun a => modCore_rdB ..⟩
    rw [State.stall, core_modCore_same]

end Sys2Proof.Machine

/-! ## Step ends, halts, stops and waits of cores (R16, R39, R67, R69, R76, R95, R98, R137, R179, R220, R237, R386) -/

namespace Sys2Proof.Machine

-- One proof at a time, as in Sys2Proof/Laws: each waiting proof would keep a thread and its stack.
set_option Elab.async false

/-! ### Step boundaries -/

theorem runs_stependRetire {s : State} {c : CoreId} {exit : Bool} (hm : (s.core c).marker = .issued exit) (hsends : (s.core c).sends = [])
    (hruns : (s.core c).runs = []) (hchain : (s.core c).chain = []) (hrestart : (s.core c).restart = []) (hbeats : s.beats = []) :
    Runs (.stependRetire c) s fun t => (t.core c).marker = .retired exit ∧ SameRegs s t ∧ SameMem s t := by
  have hmesh : s.onMesh c = false := by rw [State.onMesh, hbeats]; rfl
  refine ⟨s.modCore c fun y => { y with marker := .retired exit }, ?_, by rw [core_modCore_same], fun a => modCore_reg .., fun a => modCore_rdB ..⟩
  show execStependRetire c s = _
  simp only [execStependRetire, hm, hsends, hruns, hchain, hrestart, hmesh, and_self, if_true]

theorem runs_contextStepBoundary {s : State} {k : CtxId} (hrun : s.ctxRunning k.val = true) (hhalt : (s.ctx k.val).groupHalt = false)
    (hb : (s.ctx k.val).boundary = false) (hne : s.liveCores k.val ≠ [])
    (hend : ∀ d ∈ s.liveCores k.val, s.presentOn d k = true ∧ s.coreAtEnd d = true ∧ s.fget (rCelStatus d) fCelStatusFrames = 0)
    (hmp : s.flag rMpCfg fMpCfgEn = false) :
    Runs (.contextStepBoundary k) s fun t => (t.ctx k.val).boundary = true ∧ SameRegs s t ∧ SameMem s t := by
  have hall : ((s.liveCores k.val).all fun c => s.presentOn c k && s.coreAtEnd c) = true :=
    List.all_eq_true.2 fun d hd => by rw [(hend d hd).1, (hend d hd).2.1]; rfl
  have hleft : ((s.liveCores k.val).filter fun c => s.fget (rCelStatus c) fCelStatusFrames != 0) = [] :=
    List.filter_eq_nil_iff.2 fun d hd => by simp [(hend d hd).2.2]
  refine ⟨s.modCtx k.val fun x => { x with boundary := true }, ?_, by rw [ctx_modCtx_same], fun a => modCtx_reg .., fun a => modCtx_rdB ..⟩
  show execContextStepBoundary k s = _
  simp [execContextStepBoundary, hrun, hhalt, hb, hne, hall, hleft, hmp]

/-- The registers of the step's figures and what they hold (R386). -/
theorem stepFigures_fields {s : State} (hmj : s.ebc.stepUj / 1000 < 2 ^ 32) (hus : (s.now - s.ebc.stepAt) / unitsUs < 2 ^ 32) :
    s.stepFigures.fget rEbcStepMj fEbcStepMjLastStepMj = s.ebc.stepUj / 1000 ∧
      s.stepFigures.fget rEbcStepUs fEbcStepUsLastStepUs = (s.now - s.ebc.stepAt) / unitsUs ∧
      RegsBut (fun a => a = rEbcStepMj ∨ a = rEbcStepUs ∨ a = rEbcEng) s s.stepFigures ∧ SameMem s s.stepFigures ∧
      s.stepFigures.ebc.stepUj = 0 ∧ s.stepFigures.ebc.stepAt = s.now := by
  unfold State.stepFigures
  extract_lets us act s1 s2
  have hmjUs : rEbcStepMj ≠ rEbcStepUs := by decide
  have h1mj : s1.fget rEbcStepMj fEbcStepMjLastStepMj = s.ebc.stepUj / 1000 := by
    rw [fget_fput_other _ _ _ _ hmjUs, fget_fput_same _ _ _ _ (by decide) (by decide)]
    exact Nat.mod_eq_of_lt hmj
  have h1us : s1.fget rEbcStepUs fEbcStepUsLastStepUs = us := by
    rw [fget_fput_same _ _ _ _ (by decide) (by decide)]
    exact Nat.mod_eq_of_lt hus
  have h1regs (a : Nat) (h1 : a ≠ rEbcStepMj) (h2 : a ≠ rEbcStepUs) : s1.reg a = s.reg a := by rw [reg_fput_other _ _ _ h2, reg_fput_other _ _ _ h1]
  have hs2 : s2 = s1 ∨ ∃ v, s2 = s1.fput rEbcEng fEbcEngEngW v := by
    unfold s2
    split
    · exact .inl rfl
    · exact .inr ⟨_, rfl⟩
  have hfields : s2.fget rEbcStepMj fEbcStepMjLastStepMj = s.ebc.stepUj / 1000 ∧ s2.fget rEbcStepUs fEbcStepUsLastStepUs = us ∧
      (∀ a, a ≠ rEbcEng → s2.reg a = s1.reg a) ∧ ∀ a, s2.rdB a = s.rdB a := by
    rcases hs2 with e | ⟨v, e⟩
    · rw [e]
      exact ⟨h1mj, h1us, fun a _ => rfl, fun a => by rw [fput_rdB, fput_rdB]⟩
    · rw [e]
      refine ⟨?_, ?_, fun a ha => reg_fput_other _ _ _ ha, fun a => by rw [fput_rdB, fput_rdB, fput_rdB]⟩
      · rw [fget_fput_other _ _ _ _ (by decide), h1mj]
      · rw [fget_fput_other _ _ _ _ (by decide), h1us]
  obtain ⟨hf1, hf2, hf3, hf4⟩ := hfields
  refine ⟨hf1, hf2, fun a ha => ?_, hf4, rfl, rfl⟩
  simp only [not_or] at ha
  exact (hf3 a ha.2.2).trans (h1regs a ha.1 ha.2.1)

theorem runs_deviceStepBoundary {s : State} {k : CtxId} (hk : s.takesPart k.val = true)
    (hall : ∀ j, j < 8 → s.takesPart j = true → (s.ctx j).boundary = true) (hj : (s.ctx k.val).joined = false) (he : s.ebc.evaluating = false)
    (hc : s.ebc.change = none) (hmj : s.ebc.stepUj / 1000 < 2 ^ 32) (hus : (s.now - s.ebc.stepAt) / unitsUs < 2 ^ 32) :
    Runs .deviceStepBoundary s fun t => t.ebc.evaluating = true ∧ t.ebc.stepUj = 0 ∧ t.ebc.stepAt = s.now ∧
      t.fget rEbcStepMj fEbcStepMjLastStepMj = s.ebc.stepUj / 1000 ∧ t.fget rEbcStepUs fEbcStepUsLastStepUs = (s.now - s.ebc.stepAt) / unitsUs ∧
      RegsBut (fun a => a = rEbcStepMj ∨ a = rEbcStepUs ∨ a = rEbcEng) s t ∧ SameMem s t := by
  have hmem : k.val ∈ (List.range 8).filter s.takesPart := List.mem_filter.2 ⟨List.mem_range.2 k.isLt, hk⟩
  have hcond : (List.range 8).filter s.takesPart ≠ [] ∧ (((List.range 8).filter s.takesPart).all fun k => (s.ctx k).boundary) = true ∧
      s.ebc.evaluating = false ∧ s.ebc.change = none ∧ (((List.range 8).filter s.takesPart).any fun k => !(s.ctx k).joined) = true := by
    refine ⟨List.ne_nil_of_mem hmem, List.all_eq_true.2 fun j hj => ?_, he, hc, List.any_eq_true.2 ⟨_, hmem, by rw [hj]; rfl⟩⟩
    obtain ⟨h1, h2⟩ := List.mem_filter.1 hj
    exact hall j (List.mem_range.1 h1) h2
  obtain ⟨h1, h2, h3, h4, h5, h6⟩ := stepFigures_fields hmj hus
  refine ⟨{ s.stepFigures with ebc := { s.stepFigures.ebc with evaluating := true } }, ?_, rfl, h5, h6, h1, h2, h3, h4⟩
  show execDeviceStepBoundary s = _
  exact if_pos hcond

/-! ### The end of the join wait -/

/-- The join wait of a context ends: it has joined, and is released if its groups have adopted the commit. -/
theorem joinTimeout_eq {s : State} {k : CtxId} (hb : (s.ctx k.val).boundary = true) (hj : (s.ctx k.val).joined = false)
    (hk : s.takesPart k.val = true) (he : s.ebc.evaluating = false) (hc : s.ebc.change = none)
    (hothers : ∃ j, j < 8 ∧ s.takesPart j = true ∧ (s.ctx j).boundary = false) :
    exec (.joinTimeout k) s = .next ((s.modCtx k.val fun x => { x with joined := true }).tryRelease k.val) := by
  obtain ⟨j, hlt, hpart, hnot⟩ := hothers
  have hany : ((List.range 8).any fun j => s.takesPart j && !(s.ctx j).boundary) = true :=
    List.any_eq_true.2 ⟨j, List.mem_range.2 hlt, by rw [hpart, hnot]; rfl⟩
  show execJoinTimeout k s = _
  simp [execJoinTimeout, hb, hj, hk, he, hc, hany]

theorem ctxGroups_modCtx (s : State) (k j : Nat) (f : CtxS → CtxS) : (s.modCtx k f).ctxGroups j = s.ctxGroups j := by
  rw [State.ctxGroups, modCtx_regs, State.ctxGroups]

theorem runs_joinTimeout_uncommitted {s : State} {k : CtxId} (hb : (s.ctx k.val).boundary = true) (hj : (s.ctx k.val).joined = false)
    (hk : s.takesPart k.val = true) (he : s.ebc.evaluating = false) (hc : s.ebc.change = none)
    (hothers : ∃ j, j < 8 ∧ s.takesPart j = true ∧ (s.ctx j).boundary = false) (hg : ∃ g ∈ s.ctxGroups k.val, (s.group g).committed = false) :
    Runs (.joinTimeout k) s fun t => (t.ctx k.val).joined = true ∧ SameRegs s t ∧ SameMem s t := by
  refine ⟨_, joinTimeout_eq hb hj hk he hc hothers, ?_⟩
  obtain ⟨g, hmem, hnot⟩ := hg
  have hheld : ((s.ctxGroups k.val).all fun g => (s.group g).committed) = false := List.all_eq_false.2 ⟨g, hmem, by rw [hnot]; decide⟩
  have hstays : (s.modCtx k.val fun x => { x with joined := true }).tryRelease k.val = s.modCtx k.val fun x => { x with joined := true } := by
    unfold State.tryRelease
    simp only [ctxGroups_modCtx, modCtx_group, hheld, Bool.and_false, Bool.false_eq_true, if_false]
  rw [hstays]
  exact ⟨by rw [ctx_modCtx_same], fun a => modCtx_reg .., fun a => modCtx_rdB ..⟩

/-- The release of one core that has retired a STEPEND marker. -/
def releaseOne (k : Nat) (s : State) (c : CoreId) : State := match (s.core c).marker with
  | .retired true => (s.leaveCore c).modCtx k fun x => { x with exited := if x.exited.contains c then x.exited else x.exited ++ [c] }
  | .retired false => s.modCore c fun x => { x with marker := .none }
  | _ => s

theorem releaseOne_of_stepend {s : State} {c : CoreId} (k : Nat) (h : (s.core c).marker = .retired false ∨ (s.core c).marker = .none) :
    releaseOne k s c = s.modCore c (fun x => { x with marker := .none }) ∨ releaseOne k s c = s ∧ (s.core c).marker = .none := by
  unfold releaseOne
  rcases h with h | h
  · rw [h]
    exact .inl rfl
  · rw [h]
    exact .inr ⟨rfl, rfl⟩

/-- Cores that have all retired a STEPEND marker lose it; contexts, groups, registers and memory stay. -/
theorem foldl_releaseOne (k : Nat) (l : List CoreId) : ∀ s : State, (∀ d ∈ l, (s.core d).marker = .retired false ∨ (s.core d).marker = .none) →
    let t := l.foldl (releaseOne k) s
    (∀ d, d ∈ l ∨ (s.core d).marker = .none → (t.core d).marker = .none) ∧ t.ctxs = s.ctxs ∧ t.regs = s.regs ∧ t.mem = s.mem := by
  induction l with
  | nil => exact fun s _ => ⟨fun d h => h.resolve_left List.not_mem_nil, rfl, rfl, rfl⟩
  | cons c l ih =>
    intro s h
    have hstep : (∀ d, d = c ∨ (s.core d).marker = .none → ((releaseOne k s c).core d).marker = .none) ∧
        (∀ d, d ≠ c → ((releaseOne k s c).core d).marker = (s.core d).marker) ∧
        (releaseOne k s c).ctxs = s.ctxs ∧ (releaseOne k s c).regs = s.regs ∧ (releaseOne k s c).mem = s.mem := by
      rcases releaseOne_of_stepend k (h c (List.mem_cons_self ..)) with e | ⟨e, hm⟩
      · rw [e]
        refine ⟨fun d hd => ?_, fun d hd => by rw [core_modCore_other _ _ hd], rfl, rfl, rfl⟩
        by_cases hdc : d = c
        · rw [hdc, core_modCore_same]
        · rw [core_modCore_other _ _ hdc]
          exact hd.resolve_left hdc
      · rw [e]
        exact ⟨fun d hd => hd.elim (fun hdc => hdc ▸ hm) id, fun d _ => rfl, rfl, rfl, rfl⟩
    obtain ⟨hnone, hother, hctxs, hregs, hmem⟩ := hstep
    have hrest := ih (releaseOne k s c) fun d hd => by
      by_cases hdc : d = c
      · exact .inr (hnone d (.inl hdc))
      · rw [hother d hdc]
        exact h d (List.mem_cons_of_mem _ hd)
    obtain ⟨r1, r2, r3, r4⟩ := hrest
    refine ⟨fun d hd => r1 d ?_, r2.trans hctxs, r3.trans hregs, r4.trans hmem⟩
    rcases hd with hd | hd
    · rcases List.mem_cons.1 hd with rfl | hd
      · exact .inr (hnone d (.inl rfl))
      · exact .inl hd
    · exact .inr (hnone d (.inr hd))

theorem activeCores_modCtx (s : State) (k : Nat) (f : CtxS → CtxS) (h : (f (s.ctx k)).img = (s.ctx k).img) (j : Nat) :
    (s.modCtx k f).activeCores j = s.activeCores j := activeCores_congr (placing_modCtx s k f h) j

/-- A context without groups, whose cores have all retired a STEPEND marker, goes on into the next step. -/
theorem releaseCtx_stays {s : State} {k : Nat} (hg : s.ctxGroups k = []) (hm : ∀ d ∈ s.activeCores k, (s.core d).marker = .retired false)
    (hx : (s.ctx k).exited = []) : let t := s.releaseCtx k
    (∀ d ∈ s.activeCores k, (t.core d).marker = .none) ∧ (t.ctx k).boundary = false ∧ t.regs = s.regs ∧ t.mem = s.mem := by
  obtain ⟨hmark, hctxs, hregs, hmem⟩ := foldl_releaseOne k (s.activeCores k) s fun d hd => .inl (hm d hd)
  obtain ⟨u, hu⟩ : ∃ u, u = ((s.activeCores k).foldl (releaseOne k) s).modCtx k fun x => { x with boundary := false, joined := false } := ⟨_, rfl⟩
  have hgroups : u.ctxGroups k = [] := by rw [hu, ctxGroups_modCtx, State.ctxGroups, hregs, ← State.ctxGroups, hg]
  have hctx : (u.ctx k).exited = [] ∧ (u.ctx k).boundary = false := by
    rw [hu, ctx_modCtx_same, State.ctx, hctxs, ← State.ctx]
    exact ⟨hx, rfl⟩
  have hend : s.releaseCtx k = u := by
    have hfold : s.releaseCtx k = let s3 := (u.ctxGroups k).foldl (fun s g => s.modGroup g fun x => { x with committed := false }) u
        if s.ctxCores k ≠ [] ∧ (s.ctxCores k).all (fun c => (s3.ctx k).exited.contains c) = true then (s3.ctxEnd k).notify 1 k else s3 := by
      rw [hu]
      rfl
    rw [hfold, hgroups, List.foldl_nil]
    refine if_neg fun ⟨hne, hall⟩ => ?_
    obtain ⟨c, hc⟩ := List.exists_mem_of_ne_nil _ hne
    have := List.all_eq_true.1 hall c hc
    rw [hctx.1] at this
    simp at this
  rw [hend]
  refine ⟨fun d hd => ?_, hctx.2, ?_, ?_⟩
  · rw [hu, modCtx_core]
    exact hmark d (.inl hd)
  · rw [hu, modCtx_regs, hregs]
  · rw [hu, modCtx_mem, hmem]

theorem runs_joinTimeout_released {s : State} {k : CtxId} (hb : (s.ctx k.val).boundary = true) (hj : (s.ctx k.val).joined = false)
    (hk : s.takesPart k.val = true) (he : s.ebc.evaluating = false) (hc : s.ebc.change = none)
    (hothers : ∃ j, j < 8 ∧ s.takesPart j = true ∧ (s.ctx j).boundary = false) (hg : s.ctxGroups k.val = [])
    (hm : ∀ d ∈ s.activeCores k.val, (s.core d).marker = .retired false) (hx : (s.ctx k.val).exited = []) :
    Runs (.joinTimeout k) s fun t => (∀ d ∈ s.activeCores k.val, (t.core d).marker = .none) ∧ (t.ctx k.val).boundary = false ∧
      SameRegs s t ∧ SameMem s t := by
  refine ⟨_, joinTimeout_eq hb hj hk he hc hothers, ?_⟩
  have hactive := activeCores_modCtx s k.val (fun x => { x with joined := true }) rfl k.val
  have hgroups : (s.modCtx k.val fun x => { x with joined := true }).ctxGroups k.val = [] := by rw [ctxGroups_modCtx, hg]
  have hctx := ctx_modCtx_same s k.val fun x => { x with joined := true }
  have hcore (d : CoreId) := modCtx_core s k.val (fun x => { x with joined := true }) d
  have hsame : SameRegs s (s.modCtx k.val fun x => { x with joined := true }) ∧ SameMem s (s.modCtx k.val fun x => { x with joined := true }) :=
    ⟨fun a => modCtx_reg .., fun a => modCtx_rdB ..⟩
  generalize (s.modCtx k.val fun x => { x with joined := true }) = u at *
  have hrelease : u.tryRelease k.val = u.releaseCtx k.val := by
    unfold State.tryRelease
    simp only [hctx, hb, hgroups, List.all_nil, Bool.and_self, if_true]
  obtain ⟨h1, h2, h3, h4⟩ := releaseCtx_stays (s := u) (k := k.val) hgroups (fun d hd => by rw [hcore]; exact hm d (hactive ▸ hd)) (by rw [hctx]; exact hx)
  rw [hrelease]
  exact ⟨fun d hd => h1 d (hactive.symm ▸ hd), h2, fun a => (reg_congr h3 a).trans (hsame.1 a), fun a => (rdB_congr h4 a).trans (hsame.2 a)⟩

/-- Settles O32: by the release of cores that have retired their markers, and the figures of a step. -/
theorem stepBoundaries : Obligations.StepBoundaries := fun _ _ _ _ =>
  ⟨fun hm hsends hruns hchain hrestart hbeats => runs_stependRetire hm hsends hruns hchain hrestart hbeats,
    fun hrun hhalt hb hne hend hmp => runs_contextStepBoundary hrun hhalt hb hne hend hmp,
    fun hk hall hj he hc hmj hus => runs_deviceStepBoundary hk hall hj he hc hmj hus,
    fun hb hj hk he hc hothers hg => runs_joinTimeout_uncommitted hb hj hk he hc hothers hg,
    fun hb hj hk he hc hothers hg hm hx => runs_joinTimeout_released hb hj hk he hc hothers hg hm hx⟩

end Sys2Proof.Machine

/-! ## Halts, resumes, stops and timeouts of cores (R67, R69, R76, R95, R179, R220, R237) -/

namespace Sys2Proof.Machine

-- One proof at a time, as in Sys2Proof/Laws: each waiting proof would keep a thread and its stack.
set_option Elab.async false

/-! ### Registers that the settling of a core's counters changes -/

/-- HALT_CNT and the NOWORK counters of a core (R46, R49). -/
def settleReg (c : CoreId) (a : Nat) : Prop := a = rHaltCnt c ∨ a = rArrNoworkCnt c ∨ a = rVecNoworkCnt c ∨ a = rStrmNoworkCnt c

theorem reg_settle_outside (s : State) (c : CoreId) {a : Nat} (h : ¬ settleReg c a) : (s.settle c).reg a = s.reg a := by
  simp only [settleReg, not_or] at h
  obtain ⟨h1, h2, h3, h4⟩ := h
  unfold State.settle
  extract_lets n s1
  split
  · rfl
  · split
    · exact modCore_reg ..
    · rw [reg_count_other _ _ h4, reg_count_other _ _ h3, reg_count_other _ _ h2, reg_count_other _ _ h1, modCore_reg]

theorem not_settleReg {c d : CoreId} {o : Nat} (ho : o < 0x300000) : ¬ settleReg c (coreBase d + o) := by
  rintro (h | h | h | h)
  · exact core_addr_ne (c := d) (d := c) (by omega) (by decide) (show o ≠ 0x300010 by omega) h
  · exact core_addr_ne (c := d) (d := c) (by omega) (by decide) (show o ≠ 0x300280 by omega) h
  · exact core_addr_ne (c := d) (d := c) (by omega) (by decide) (show o ≠ 0x300288 by omega) h
  · exact core_addr_ne (c := d) (d := c) (by omega) (by decide) (show o ≠ 0x300290 by omega) h

/-! ### CORE_HALT, CORE_RESUME and CORE_STEP (R67, R69, R76) -/

theorem rCoreStatus_ne_rCoreCtl (c d : CoreId) : rCoreStatus c ≠ rCoreCtl d := core_addr_ne (by decide) (by decide) (by decide)

theorem run_fput_other (s : State) {a : Nat} (f : Fd) (v : Nat) (c : CoreId) (h : rCoreStatus c ≠ a) : (s.fput a f v).run c = s.run c :=
  flag_fput_other s f _ v h

theorem runs_coreHalt_running {s : State} {c : CoreId} (hrun : s.run c = true) (hstop : (s.core c).stopCause = none) :
    Runs (.coreHalt c) s fun t => t.flag (rCoreCtl c) fCoreCtlHalt = true ∧ (t.core c).stopCause = some .halt ∧ t.canIssue c = false ∧
      RegsBut (· = rCoreCtl c) s t ∧ SameMem s t := by
  have hcause : (((s.fput (rCoreCtl c) fCoreCtlHalt 1).askStop c .halt).core c).stopCause = some .halt := by
    rw [State.askStop, core_modCore_same, fput_core, hstop]
  refine ⟨(s.fput (rCoreCtl c) fCoreCtlHalt 1).askStop c .halt, congrArg Host.Outcome.next (if_pos hrun), ?_, hcause, ?_, fun a ha => ?_, fun a => ?_⟩
  · rw [askStop_flag, flag_fput_same_one _ _ _ rfl (by decide)]
  · rw [State.canIssue, hcause]
    simp
  · rw [askStop_reg, reg_fput_other _ _ _ ha]
  · rw [askStop_rdB, fput_rdB]

theorem runs_coreHalt_stopped {s : State} {c : CoreId} (hrun : s.run c = false) :
    Runs (.coreHalt c) s fun t => t.flag (rCoreCtl c) fCoreCtlHalt = true ∧ RegsBut (· = rCoreCtl c) s t ∧ SameMem s t := by
  refine ⟨s.fput (rCoreCtl c) fCoreCtlHalt 1, congrArg Host.Outcome.next (if_neg (by rw [hrun]; decide)), ?_, fun a ha => reg_fput_other _ _ _ ha,
    fun a => fput_rdB ..⟩
  exact flag_fput_same_one _ _ _ rfl (by decide)

/-- The record of a restart changes no register and no memory. -/
theorem tileRestart_keeps (s : State) (c : CoreId) (who : List CoreId) : (s.tileRestart c who).regs = s.regs ∧ (s.tileRestart c who).mem = s.mem := by
  unfold State.tileRestart
  extract_lets k cores
  split
  · exact ⟨rfl, rfl⟩
  · rw [emit_regs, emit_mem]
    exact ⟨foldl_same State.regs _ (fun _ _ => modCore_regs ..) _ _, foldl_same State.mem _ (fun _ _ => modCore_mem ..) _ _⟩

/-- Issue resumes: RUN = 1, STOPPED = 0, and what was fetched is fetched again from PC. -/
theorem resumeCore_fields (s : State) (c : CoreId) : (s.resumeCore c).run c = true ∧ (s.resumeCore c).flag (rCoreStatus c) fCoreStatusStopped = false ∧
    ((s.resumeCore c).core c).fetchIdx = s.pc c ∧ ((s.resumeCore c).core c).stopCause = none ∧
    (s.resumeCore c).reg (rCoreCtl c) = s.reg (rCoreCtl c) ∧ SameMem s (s.resumeCore c) := by
  unfold State.resumeCore
  refine ⟨?_, ?_, by rw [core_modCore_same], by rw [core_modCore_same], ?_, fun a => ?_⟩
  · rw [modCore_run, State.run, State.flag, fget_fput_below _ _ _ _ _ (by decide) (by decide) (by decide) (by decide), ← State.flag,
      flag_fput_same_one _ _ _ rfl (by decide)]
  · rw [modCore_flag, flag_fput_same_zero _ _ _ (by decide) (by decide)]
  · rw [modCore_reg, reg_fput_other _ _ _ (rCoreStatus_ne_rCoreCtl c c).symm, reg_fput_other _ _ _ (rCoreStatus_ne_rCoreCtl c c).symm]
    exact reg_settle_outside s c (not_settleReg (o := 0x200008) (by decide))
  · rw [modCore_rdB, fput_rdB, fput_rdB, rdB_congr (settle_mem s c)]

theorem runs_coreResume {s : State} {c : CoreId} (hrun : s.run c = false) (hr : s.resumable c = true) :
    Runs (.coreResume c) s fun t => t.flag (rCoreCtl c) fCoreCtlHalt = false ∧ t.run c = true ∧ t.flag (rCoreStatus c) fCoreStatusStopped = false ∧
      (t.core c).fetchIdx = s.pc c ∧ (t.core c).stopCause = none ∧ SameMem s t := by
  obtain ⟨hregs, hmem⟩ := tileRestart_keeps (s.fput (rCoreCtl c) fCoreCtlHalt 0) c [c]
  obtain ⟨h1, h2, h3, h4, h5, h6⟩ := resumeCore_fields ((s.fput (rCoreCtl c) fCoreCtlHalt 0).tileRestart c [c]) c
  refine ⟨((s.fput (rCoreCtl c) fCoreCtlHalt 0).tileRestart c [c]).resumeCore c, ?_, ?_, h1, h2, ?_, h4, fun a => ?_⟩
  · show execCoreResume c s = _
    unfold execCoreResume
    simp only [hrun, hr, Bool.false_eq_true, if_false, if_true]
  · rw [State.flag, State.fget, h5, reg_congr hregs]
    exact flag_fput_same_zero s _ fCoreCtlHalt (by decide) (by decide)
  · rw [h3, State.pc, fget_congr hregs, fget_fput_other _ _ _ _ (rPc_ne c).1, State.pc]
  · rw [h6 a, rdB_congr hmem, fput_rdB]

theorem runs_coreStep {s : State} {c : CoreId} (hrun : s.run c = false) (hr : s.resumable c = true) (hhalt : s.flag (rCoreCtl c) fCoreCtlHalt = true) :
    Runs (.coreStep c) s fun t => t.flag (rCoreCtl c) fCoreCtlHalt = true ∧ t.run c = true ∧ (t.core c).step = true ∧ SameMem s t := by
  obtain ⟨hregs, hmem⟩ := tileRestart_keeps s c [c]
  obtain ⟨h1, -, -, -, h5, h6⟩ := resumeCore_fields (s.tileRestart c [c]) c
  refine ⟨((s.tileRestart c [c]).resumeCore c).modCore c fun x => { x with step := true }, ?_, ?_, ?_, by rw [core_modCore_same], fun a => ?_⟩
  · show execCoreStep c s = _
    unfold execCoreStep
    rw [if_pos (by rw [hhalt, hrun, hr]; rfl)]
  · rw [modCore_flag, State.flag, State.fget, h5, reg_congr hregs]
    exact hhalt
  · rw [modCore_run, h1]
  · rw [modCore_rdB, h6 a, rdB_congr hmem]

/-- Settles O33: by what a resume leaves in CORE_STATUS and CORE_CTL. -/
theorem haltResumeStep : Obligations.HaltResumeStep := fun _ _ =>
  ⟨runs_coreHalt_running, runs_coreHalt_stopped, runs_coreResume, runs_coreStep⟩

/-! ### CORE_STOP (R67, R76, R95, R179) -/

/-- What the stop of a core leaves, but for what its cause adds. -/
structure StoppedAs (s : State) (c : CoreId) (t : State) : Prop where
  run : t.run c = false
  stopped : t.flag (rCoreStatus c) fCoreStatusStopped = true
  cause : (t.core c).stopCause = none
  chain : (t.core c).chain = []
  queue : (t.core c).queue = []
  pend : t.fget (rCoreStatus c) fCoreStatusPend = min 255 (t.core c).restart.length
  regs : RegsBut (fun a => a = rCoreStatus c ∨ a = rArr c ∨ a = rArrDiscardCnt c.hall.val (arrIx c) ∨ a = rBellSentCnt c) s t
  mem : SameMem s t

/-- Changes that keep what a stop leaves. -/
theorem StoppedAs.modCore {s t : State} {c : CoreId} (h : StoppedAs s c t) (f : CoreS → CoreS) (hcause : (f (t.core c)).stopCause = (t.core c).stopCause)
    (hchain : (f (t.core c)).chain = (t.core c).chain) (hqueue : (f (t.core c)).queue = (t.core c).queue)
    (hrestart : (f (t.core c)).restart = (t.core c).restart) : StoppedAs s c (t.modCore c f) where
  run := by rw [modCore_run, h.run]
  stopped := by rw [modCore_flag, h.stopped]
  cause := by rw [core_modCore_same, hcause, h.cause]
  chain := by rw [core_modCore_same, hchain, h.chain]
  queue := by rw [core_modCore_same, hqueue, h.queue]
  pend := by rw [modCore_fget, core_modCore_same, hrestart, h.pend]
  regs := fun a ha => (modCore_reg ..).trans (h.regs a ha)
  mem := fun a => (modCore_rdB ..).trans (h.mem a)

theorem StoppedAs.tellDone {s t : State} {c : CoreId} (h : StoppedAs s c t) : StoppedAs s c (t.tellDone c) where
  run := by rw [State.run, State.flag, State.fget, State.tellDone, regsBut_bellFrom _ _ _ _ _ (rBellSentCnt_ne c c)]; exact h.run
  stopped := by rw [State.flag, State.fget, State.tellDone, regsBut_bellFrom _ _ _ _ _ (rBellSentCnt_ne c c)]; exact h.stopped
  cause := by rw [State.tellDone, bellFrom_core, h.cause]
  chain := by rw [State.tellDone, bellFrom_core, h.chain]
  queue := by rw [State.tellDone, bellFrom_core, h.queue]
  pend := by rw [State.fget, State.tellDone, regsBut_bellFrom _ _ _ _ _ (rBellSentCnt_ne c c), bellFrom_core]; exact h.pend
  regs := fun a ha => by
    rw [State.tellDone, regsBut_bellFrom _ _ _ _ _ fun e => ha (.inr (.inr (.inr e)))]
    exact h.regs a ha
  mem := fun a => by rw [State.tellDone, bellFrom_rdB, h.mem a]

theorem tellDone_bell (s : State) (c : CoreId) : ∃ m, (s.tellDone c).bell = s.bell ++ [m] ∧ bellType m = 9 ∧ bellSrc m = c.pos := by
  obtain ⟨htype, hsrc, -, -⟩ := bellHdr_fields false (show 9 < 16 by decide) (s.coreCtx c).isLt (show 0 < 4 by decide) (show 0 < 8 by decide)
    (show 15 < 16 by decide) (show 15 < 16 by decide) (CoreId.pos_lt c) [] (gx c) (gy c) 4 false
  exact ⟨_, bellFrom_bell .., htype, hsrc⟩

/-- The state of a core as it stops, before its cause adds anything. -/
def State.idleAt (s : State) (c : CoreId) (t n : Nat) : State :=
  (((((s.modCore c fun x => x.stopAt c t).countC c (rArrDiscardCnt c.hall.val (arrIx c)) n).pendSync c).fput (rCoreStatus c) fCoreStatusRun 0).fput
    (rCoreStatus c) fCoreStatusStopped 1).modCore c fun x => { x with haltAt := s.cc }

theorem rArrDiscardCnt_ne_rCoreStatus (c : CoreId) (h i : Nat) : rCoreStatus c ≠ rArrDiscardCnt h i := by
  have := c.hall.isLt; have := c.row.isLt; have := c.col.isLt
  unfold rCoreStatus coreBase coreSpace rArrDiscardCnt hallBase hallSpace
  omega

theorem reg_countC_other (s : State) (c : CoreId) {a b : Nat} (n : Nat) (h : b ≠ a) : (s.countC c a n).reg b = s.reg b := by
  unfold State.countC
  split
  · rfl
  · exact reg_count_other _ _ h

theorem countC_core (s : State) (c d : CoreId) (a n : Nat) : (s.countC c a n).core d = s.core d := by
  unfold State.countC
  split
  · rfl
  · exact count_core ..

theorem countC_mem (s : State) (c : CoreId) (a n : Nat) : (s.countC c a n).mem = s.mem ∧ (s.countC c a n).bell = s.bell ∧ (s.countC c a n).beats = s.beats ∧
    (s.countC c a n).cc = s.cc := by
  unfold State.countC
  split
  · exact ⟨rfl, rfl, rfl, rfl⟩
  · exact ⟨count_mem .., count_bell .., count_beats .., count_cc ..⟩

theorem idleAt_core (s : State) (c : CoreId) (t n : Nat) : (s.idleAt c t n).core c = { (s.core c).stopAt c t with haltAt := s.cc } := by
  rw [State.idleAt, core_modCore_same, fput_core, fput_core, State.pendSync, fput_core, countC_core, core_modCore_same]

theorem stoppedAs_idleAt (s : State) (c : CoreId) (t n : Nat) : StoppedAs s c (s.idleAt c t n) := by
  have hcore := idleAt_core s c t n
  refine ⟨?_, ?_, by rw [hcore]; rfl, by rw [hcore]; rfl, by rw [hcore]; rfl, ?_, fun a ha => ?_, fun a => ?_⟩
  · rw [State.idleAt, modCore_run, State.run, State.flag, fget_fput_below _ _ _ _ _ (by decide) (by decide) (by decide) (by decide), ← State.flag,
      flag_fput_same_zero _ _ _ (by decide) (by decide)]
  · rw [State.idleAt, modCore_flag, flag_fput_same_one _ _ _ rfl (by decide)]
  · have hrestart : ((s.idleAt c t n).core c).restart = ((s.core c).stopAt c t).restart := by rw [hcore]
    rw [hrestart, State.idleAt, modCore_fget, fget_fput_above _ _ _ _ _ (by decide) (by decide) (by decide) (by decide),
      fget_fput_above _ _ _ _ _ (by decide) (by decide) (by decide) (by decide), State.pendSync, fget_fput_same _ _ _ _ (by decide) (by decide), countC_core,
      core_modCore_same]
    exact Nat.mod_eq_of_lt (show min 255 _ < 256 by omega)
  · simp only [not_or] at ha
    obtain ⟨h1, -, h3, -⟩ := ha
    rw [State.idleAt, modCore_reg, reg_fput_other _ _ _ h1, reg_fput_other _ _ _ h1, State.pendSync, reg_fput_other _ _ _ h1, reg_countC_other _ _ _ h3,
      modCore_reg]
  · rw [State.idleAt, modCore_rdB, fput_rdB, fput_rdB, State.pendSync, fput_rdB, rdB_congr (countC_mem _ _ _ _).1, modCore_rdB]

theorem idleAt_bell (s : State) (c : CoreId) (t n : Nat) : (s.idleAt c t n).bell = s.bell := by
  rw [State.idleAt, modCore_bell, fput_bell, fput_bell, State.pendSync, fput_bell, (countC_mem _ _ _ _).2.1, modCore_bell]

/-- What a stop of the operations leaves of the sends and of the beats on the mesh. -/
theorem rowsDone_stopAt (s : State) (c : CoreId) (t n : Nat) :
    (((s.modCore c fun x => x.stopAt c t).countC c (rArrDiscardCnt c.hall.val (arrIx c)) n).pendSync c).rowsDone c = s.rowsDone c := by
  obtain ⟨-, -, hbeats, hcc⟩ := countC_mem (s.modCore c fun x => x.stopAt c t) c (rArrDiscardCnt c.hall.val (arrIx c)) n
  rw [State.rowsDone, State.pendSync, fput_core, countC_core, core_modCore_same, State.onMesh, fput_beats, fput_cc, hbeats, hcc, modCore_beats, modCore_cc]
  rfl

/-- The halt of a group keeps none of a core's operations. -/
theorem stoppedAs_group {s t : State} {c : CoreId} (h : StoppedAs s c t) :
    StoppedAs s c ((t.modCore c CoreS.clearOps).fput (rCoreStatus c) fCoreStatusPend 0) where
  run := by rw [State.run, State.flag, fget_fput_below _ _ _ _ _ (by decide) (by decide) (by decide) (by decide), modCore_fget]; exact h.run
  stopped := by rw [State.flag, fget_fput_below _ _ _ _ _ (by decide) (by decide) (by decide) (by decide), modCore_fget]; exact h.stopped
  cause := by rw [fput_core, core_modCore_same]; exact h.cause
  chain := by rw [fput_core, core_modCore_same]; rfl
  queue := by rw [fput_core, core_modCore_same]; rfl
  pend := by rw [fget_fput_same _ _ _ _ (by decide) (by decide), fput_core, core_modCore_same]; rfl
  regs := fun a ha => by
    rw [reg_fput_other _ _ _ fun e => ha (.inl e), modCore_reg]
    exact h.regs a ha
  mem := fun a => by rw [fput_rdB, modCore_rdB, h.mem a]

/-- The stop of a core, by its cause. -/
theorem stopCore_fields (s : State) (c : CoreId) (cause : StopCause) : let t := s.stopCore c cause
    StoppedAs s c t ∧ (cause = .group → (t.core c).restart = []) ∧ (cause = .halt → t.bell = s.bell) ∧
      (cause ≠ .halt → (cause = .preempt → s.rowsDone c = true) → ∃ m, t.bell = s.bell ++ [m] ∧ bellType m = 9 ∧ bellSrc m = c.pos) ∧
      (cause = .preempt → s.rowsDone c = false → t.bell = s.bell ∧ (t.core c).tellStop = true) := by
  unfold State.stopCore
  extract_lets t n s1 last
  have hidle := stoppedAs_idleAt s c t n
  have hbell := idleAt_bell s c t n
  have hrows : (s1.pendSync c).rowsDone c = s.rowsDone c := rowsDone_stopAt s c t n
  have hcc : (s1.pendSync c).cc = s.cc := by rw [State.pendSync, fput_cc, (countC_mem _ _ _ _).2.2.2, modCore_cc]
  have htell {u : State} (hu : u.bell = s.bell) : ∃ m, (u.tellDone c).bell = s.bell ++ [m] ∧ bellType m = 9 ∧ bellSrc m = c.pos := hu ▸ tellDone_bell u c
  have hstop (k : StopCause) : (s1.pendSync c).stopped c k = match k with
      | .halt => s.idleAt c t n
      | .group => (((s.idleAt c t n).modCore c CoreS.clearOps).fput (rCoreStatus c) fCoreStatusPend 0).tellDone c
      | .preempt => if s.rowsDone c then (s.idleAt c t n).tellDone c else (s.idleAt c t n).modCore c fun x => { x with tellStop := true }
      | .fault _ => (s.idleAt c t n).tellDone c := by
    unfold State.stopped
    rw [hrows, hcc]
    rfl
  have hlast : last = _ := hstop cause
  rw [hlast]
  cases cause with
  | halt => exact ⟨hidle, nofun, fun _ => hbell, fun h => absurd rfl h, nofun⟩
  | group =>
    refine ⟨(stoppedAs_group hidle).tellDone, fun _ => ?_, nofun, fun _ _ => htell ?_, nofun⟩
    · rw [State.tellDone, bellFrom_core, fput_core, core_modCore_same]
      rfl
    · rw [fput_bell, modCore_bell, hbell]
  | preempt =>
    cases hd : s.rowsDone c with
    | true => exact ⟨hidle.tellDone, nofun, nofun, fun _ _ => htell hbell, nofun⟩
    | false =>
      dsimp only
      rw [if_neg Bool.false_ne_true]
      refine ⟨hidle.modCore (fun x => { x with tellStop := true }) rfl rfl rfl rfl, nofun, nofun, fun _ h => ?_, fun _ _ => ⟨?_, ?_⟩⟩
      · exact absurd (h rfl) Bool.false_ne_true
      · exact (modCore_bell _ _ _).trans hbell
      · exact congrArg CoreS.tellStop (core_modCore_same ..)
  | fault code => exact ⟨hidle.tellDone, nofun, nofun, fun _ _ => htell hbell, nofun⟩

/-- Settles O34: by the core as it stops, and what each cause adds. -/
theorem coreStops : Obligations.CoreStops := by
  refine ⟨fun s c cause hrun hc => ⟨s.stopCore c cause, ?_, ?_⟩, fun s c hc => ?_, fun s c hrun => ?_⟩
  · show execCoreStop c s = _
    simp only [execCoreStop, hc, hrun, if_true]
  · obtain ⟨h, h1, h2, h3, h4⟩ := stopCore_fields s c cause
    exact ⟨h.run, h.stopped, h.cause, h.chain, h.queue, h.pend, h1, h2, h3, h4, h.regs, h.mem⟩
  · show execCoreStop c s = _
    simp only [execCoreStop, hc]
  · cases hc : (s.core c).stopCause with
    | none => exact ⟨s, by show execCoreStop c s = _; simp only [execCoreStop, hc], hc, fun _ => rfl, fun _ => rfl⟩
    | some cause =>
      refine ⟨s.modCore c fun x => { x with stopCause := none }, ?_, by rw [core_modCore_same], fun a => modCore_reg .., fun a => modCore_rdB ..⟩
      show execCoreStop c s = _
      simp only [execCoreStop, hc, hrun, Bool.false_eq_true, if_false]

/-! ### SYNC_CLOCK_GATE and SYNC_TIMEOUT (R220, R237) -/

theorem runs_syncClockGate {s : State} {c : CoreId} (hrun : s.run c = true)
    (hw : ∃ sc mode consume imm, Instr.wait c sc mode consume imm ∈ s.headInstrs c ∧ s.waitOk c sc mode imm = false) (h16 : 16 ≤ (s.core c).waited) :
    Runs (.syncClockGate c) s fun t => (t.core c).gated = true ∧ SameRegs s t ∧ SameMem s t := by
  obtain ⟨sc, mode, consume, imm, hmem, hno⟩ := hw
  refine ⟨s.modCore c fun x => { x with gated := true }, congrArg Host.Outcome.next (if_pos ?_), by rw [core_modCore_same], fun a => modCore_reg ..,
    fun a => modCore_rdB ..⟩
  rw [hrun, Bool.true_and, Bool.and_eq_true, decide_eq_true_eq]
  exact ⟨List.any_eq_true.2 ⟨_, hmem, by simp [hno]⟩, h16⟩

/-- The end of a GWAIT that has lasted too long: its entry leaves the semaphore unit, nothing is pending, and the core faults. -/
theorem syncTimeout_gwait {s : State} {c : CoreId} {g : GwaitS} (hrun : s.run c = true)
    (htmo : s.fget (rSyncCtxCfg c.hall.val (s.coreCtx c).val) fSyncCtxCfgTmoMs ≠ 0) (hg : (s.core c).gwait = some g)
    (hp : s.flag (rSyncStatus c) fSyncStatusGwaitPend = true) : ∃ (u : State) (r : EvRec), r.code = 0x4003 ∧ exec (.syncTimeout c) s =
      .next (((u.fput (rSyncStatus c) fSyncStatusGwaitPend 0).modCore c fun x => { x with gwait := none }).faultCore c r) := by
  refine ⟨{ s with sem := { s.sem with entries := s.sem.entries.filter fun e => match e with
      | .wait w => w.core ≠ c || w.ctx ≠ s.coreCtx c
      | .watch _ => true } },
    evr 0x4003 c.hall.val 0 (s.p1 c) g.pc (semVsem g.sem) (g.value.toNat * 2 ^ 32 + s.semNow c g.sem), rfl, ?_⟩
  show execSyncTimeout c s = _
  unfold execSyncTimeout
  dsimp only
  rw [if_neg (by simp [hrun, htmo]), if_pos hp, hg] <;> rfl

theorem runs_syncTimeout {s : State} {c : CoreId} (hrun : s.run c = true)
    (htmo : s.fget (rSyncCtxCfg c.hall.val (s.coreCtx c).val) fSyncCtxCfgTmoMs ≠ 0) (hg : (s.core c).gwait.isSome)
    (hp : s.flag (rSyncStatus c) fSyncStatusGwaitPend = true) :
    Runs (.syncTimeout c) s fun t => t.fget (rCoreStatus c) fCoreStatusFault = 0x4003 ∧ t.flag (rSyncStatus c) fSyncStatusGwaitPend = false ∧
      (t.core c).gwait = none := by
  obtain ⟨g, hg⟩ := Option.isSome_iff_exists.1 hg
  obtain ⟨u, r, hcode, hexec⟩ := syncTimeout_gwait hrun htmo hg hp
  refine ⟨_, hexec, ?_, ?_, ?_⟩
  · rw [fault_faultCore _ _ _ (by rw [hcode]; decide), hcode]
  · have hne : ¬ FaultReg (rSyncStatus c) := not_faultReg_core c (o := 0x204190) (by decide) (by decide)
    rw [State.flag, State.fget, reg_faultCore_other _ _ _ hne, modCore_reg]
    exact flag_fput_same_zero u _ _ (by decide) (by decide)
  · rw [core_faultCore_keeps CoreS.gwait (fun _ _ => rfl) (fun _ _ => rfl), core_modCore_same]

/-- Settles O35: by the two conditions of gating, and the fault that ends a GWAIT. -/
theorem syncWaitsEnd : Obligations.SyncWaitsEnd := fun s c =>
  ⟨fun hrun hw h16 => runs_syncClockGate hrun hw h16,
    fun h16 => congrArg Host.Outcome.next (if_neg (by simp [h16])),
    fun hrun htmo hg hp => runs_syncTimeout hrun htmo hg hp,
    fun htmo => if_pos (.inr htmo)⟩

end Sys2Proof.Machine

/-! ## A context is saved and restored (R76, R100, R235, R475) -/

namespace Sys2Proof.Machine

-- One proof at a time, as in Sys2Proof/Laws: each waiting proof would keep a thread and its stack.
set_option Elab.async false

/-! ### A core left by its context -/

theorem descsGone_keeps (s : State) (c : CoreId) (p : DescS → Bool) : (s.descsGone c p).regs = s.regs ∧ (s.descsGone c p).mem = s.mem ∧
    (s.descsGone c p).ctxs = s.ctxs := by
  unfold State.descsGone
  extract_lets l
  split
  · exact ⟨rfl, rfl, rfl⟩
  · exact ⟨modCore_regs .., modCore_mem .., modCore_ctxs ..⟩

/-- The context state of a core reads as after reset, every other register as before. -/
theorem reg_ctxBlank (s : State) (c : CoreId) (a : Nat) : (ctxState c a → (s.ctxBlank c).reg a = regReset a) ∧
    (¬ ctxState c a → (s.ctxBlank c).reg a = s.reg a) := by
  obtain ⟨h1, h2⟩ := reg_ctxClear (s.descsGone c fun _ => true) c a
  rw [State.ctxBlank, modCore_reg]
  exact ⟨h1, fun ha => (h2 ha).trans (reg_congr (descsGone_keeps ..).1 a)⟩

theorem ctxBlank_mem (s : State) (c : CoreId) : (s.ctxBlank c).mem = s.mem := by
  rw [State.ctxBlank, modCore_mem, State.ctxClear, resetRegs_mem, (descsGone_keeps ..).2.1]

theorem ctxBlank_ctxs (s : State) (c : CoreId) : (s.ctxBlank c).ctxs = s.ctxs := by
  rw [State.ctxBlank, modCore_ctxs, State.ctxClear, resetRegs_ctxs, (descsGone_keeps ..).2.2]

theorem ctxBlank_present (s : State) (c : CoreId) : ((s.ctxBlank c).core c).present = false := by
  rw [State.ctxBlank, core_modCore_same]

/-! ### CONTEXT_SAVE -/

theorem runs_contextSave {s : State} {c : CoreId} (hp : (s.core c).present = true) (hrun : s.run c = false) (hflights : (s.core c).flights = [])
    (hruns : (s.core c).runs = []) (hsends : (s.core c).sends = []) (hposts : (s.core c).posts = []) (hd : ∀ d ∈ (s.core c).descs, d.reqs = 0)
    (hm : s.ctxMoves (s.coreCtx c).val = false) :
    Runs (.contextSave c) s fun t => (t.core c).present = false ∧ t.savedOf (s.coreCtx c) c = some (s.ctxImage c) ∧
      (∀ a, ctxState c a → t.reg a = regReset a) ∧
      RegsBut (fun a => ctxState c a ∨ a = rHaltCnt c ∨ a = rArrNoworkCnt c ∨ a = rVecNoworkCnt c ∨ a = rStrmNoworkCnt c) s t ∧ SameMem s t := by
  have hnone : (s.core c).descs.any (fun d => d.reqs != 0) = false := List.any_eq_false.2 fun d hmem => by simp [hd d hmem]
  refine ⟨((s.settle c).ctxBlank c).modCtx (s.coreCtx c).val fun y => { y with saved := s.ctxImage c :: y.saved.filter fun j => j.core != c }, ?_, ?_, ?_,
    fun a ha => ?_, fun a ha => ?_, fun a => ?_⟩
  · show execContextSave c s = _
    unfold execContextSave
    dsimp only
    rw [if_pos (by simp [hp, hrun, hflights, hruns, hsends, hposts, hnone, hm])]
  · rw [modCtx_core, ctxBlank_present]
  · rw [State.savedOf, ctx_modCtx_same]
    exact List.find?_cons_of_pos (beq_self_eq_true c)
  · rw [modCtx_reg, (reg_ctxBlank _ c a).1 ha]
  · simp only [not_or] at ha
    rw [modCtx_reg, (reg_ctxBlank _ c a).2 ha.1, reg_settle_outside s c (by simpa only [settleReg, not_or] using ha.2)]
  · rw [modCtx_rdB, rdB_congr (ctxBlank_mem _ c), rdB_congr (settle_mem s c)]

/-! ### CONTEXT_RESTORE -/

/-- Cells put back one after the other: those listed read as `g` gives, every other as before. -/
theorem sget_foldl_sset {g : Nat → Byte} (a : Nat) (l : List (Nat × Byte)) : ∀ m : List (Nat × Byte), (∀ e ∈ l, e.2 = g e.1) →
    sget memDefault (l.foldl (fun m e => sset memDefault m e.1 e.2) m) a = if a ∈ l.map Prod.fst then g a else sget memDefault m a := by
  induction l with
  | nil => exact fun m _ => rfl
  | cons e l ih =>
    intro m h
    rw [List.foldl_cons, ih _ fun x hx => h x (List.mem_cons_of_mem _ hx)]
    by_cases hl : a ∈ l.map Prod.fst
    · rw [if_pos hl, if_pos (by rw [List.map_cons]; exact List.mem_cons_of_mem _ hl)]
    · rw [if_neg hl]
      by_cases ha : a = e.1
      · rw [ha, sget_sset_same, h e (List.mem_cons_self ..), if_pos (by simp)]
      · rw [sget_sset_other _ _ _ _ _ ha, if_neg (by simpa [ha] using hl)]

/-- A tile file put back reads as in the image; every other byte stays. -/
theorem tiles_restored {u : State} (hu : u.canon) (m : List (Nat × Byte)) (c : CoreId) (a : Nat) :
    sget memDefault ((u.mem.filter fun e => tileCell c e.1).foldl (fun m e => sset memDefault m e.1 e.2) (m.filter fun e => !tileCell c e.1)) a =
      if tileCell c a then u.rdB a else sget memDefault m a := by
  have hval : ∀ e ∈ u.mem.filter fun e => tileCell c e.1, e.2 = u.rdB e.1 := fun e he => (sget_of_mem hu.2.1 (List.mem_of_mem_filter he)).symm
  rw [sget_foldl_sset a _ _ hval, sget_filter memDefault (fun a => !tileCell c a) m a]
  cases ht : tileCell c a with
  | false =>
    refine (if_neg fun h => ?_).trans rfl
    obtain ⟨e, he, rfl⟩ := List.mem_map.1 h
    have := (List.mem_filter.1 he).2
    rw [ht] at this
    exact absurd this Bool.false_ne_true
  | true =>
    rw [if_pos rfl]
    split
    · rfl
    · next h =>
      refine (if_neg (by simp)).trans (sget_of_not_mem (m := u.mem) _ fun e he hk => h ?_).symm
      exact List.mem_map.2 ⟨e, List.mem_filter.2 ⟨he, by rw [hk]; exact ht⟩, hk⟩

theorem coreBase_le_of_ctxState {c : CoreId} {a : Nat} (h : ctxState c a) : coreBase c ≤ a := by
  rcases h with h | h | h
  · simp only [ctxReg, Bool.and_eq_true, decide_eq_true_eq] at h
    exact h.1.1
  · unfold rCoreStatus at h
    omega
  · simp only [syncRegs, List.mem_append, List.mem_map, List.mem_cons, List.not_mem_nil, or_false] at h
    unfold rSc rScSat rScOrphan rSyncStatus at h
    rcases h with ⟨i, -, h⟩ | h | h | h <;> omega

theorem ctxState_lt {c : CoreId} {a : Nat} (h : ctxState c a) : a < coreBase c + 2 ^ 22 := by
  rcases h with h | h | h
  · simp only [ctxReg, Bool.and_eq_true, decide_eq_true_eq] at h
    exact h.1.2
  · unfold rCoreStatus at h
    omega
  · simp only [syncRegs, List.mem_append, List.mem_map, List.mem_cons, List.not_mem_nil, or_false, List.mem_range] at h
    unfold rSc rScSat rScOrphan rSyncStatus at h
    rcases h with ⟨i, hi, h⟩ | h | h | h <;> omega

/-- ARR_CTX_CFG is a register of the hall, not of the core. -/
theorem not_ctxState_rArrCtxCfg (c : CoreId) (h k : Nat) : ¬ ctxState c (rArrCtxCfg h k) := by
  intro hc
  have h1 := coreBase_le_of_ctxState hc
  have h2 := ctxState_lt hc
  have := c.hall.isLt; have := c.row.isLt; have := c.col.isLt
  unfold rArrCtxCfg hallBase hallSpace at h1 h2
  unfold coreBase coreSpace at h1 h2
  omega

theorem find_filter_core (l : List SavedS) (c : CoreId) : (l.filter fun j => j.core != c).find? (fun i => i.core == c) = none :=
  List.find?_eq_none.2 fun i hi h => by
    have := (List.mem_filter.1 hi).2
    simp_all

theorem runs_contextRestore {s u : State} {c : CoreId} {k : CtxId} (hu : u.canon) (hp : (s.core c).present = false)
    (hi : s.savedOf k c = some (u.ctxImage c)) :
    Runs (.contextRestore ⟨c, k⟩) s fun t => (t.core c).present = true ∧ t.savedOf k c = none ∧
      t.flag (rCoreStatus c) fCoreStatusStopped = true ∧ t.run c = false ∧ (∀ a, ctxState c a → a ≠ rCoreStatus c → t.reg a = u.reg a) ∧
      t.reg (rArrCtxCfg c.hall.val k.val) = u.reg (rArrCtxCfg c.hall.val (u.coreCtx c).val) ∧
      RegsBut (fun a => ctxState c a ∨ a = rArrCtxCfg c.hall.val k.val) s t ∧
      ∀ a, t.rdB a = if tileCell c a then u.rdB a else s.rdB a := by
  have hput (a : Nat) := reg_putRegs_ctxRegs hu (s := s.ctxBlank c) (c := c) (fun a ha => (reg_ctxBlank s c a).1 ha) a
  obtain ⟨s1, hs1⟩ : ∃ s1, s1 = (s.ctxBlank c).putRegs (u.ctxRegs c) := ⟨_, rfl⟩
  obtain ⟨s2, hs2⟩ : ∃ s2 : State, s2 = { s1 with mem := (u.ctxImage c).tiles.foldl (fun m e => sset memDefault m e.1 e.2) (s1.mem.filter fun e => !tileCell c e.1) } :=
    ⟨_, rfl⟩
  obtain ⟨v, hv⟩ : ∃ v, v = bton (decide ((s.ctx k.val).cause ≠ 0)) := ⟨_, rfl⟩
  obtain ⟨s3, hs3⟩ : ∃ s3, s3 = (((s2.setReg (rArrCtxCfg c.hall.val k.val) (u.ctxImage c).arrCfg).fput (rCoreStatus c) fCoreStatusRun 0).fput (rCoreStatus c)
      fCoreStatusStopped 1).fput (rCoreStatus c) fCoreStatusFaulted v := ⟨_, rfl⟩
  have hexec : exec (.contextRestore ⟨c, k⟩) s = .next ((s3.setCore c { (u.ctxImage c).ops with
      present := true, haltAt := (s.core c).haltAt, gone := (s.core c).gone }).modCtx k.val fun y => { y with saved := y.saved.filter fun j => j.core != c }) := by
    show execContextRestore ⟨c, k⟩ s = _
    unfold execContextRestore
    simp only [hi, hp, Bool.false_eq_true, if_false]
    rw [hs3, hs2, hs1, hv]
    rfl
  have hcfg := not_ctxState_rArrCtxCfg c c.hall.val k.val
  have hne : rArrCtxCfg c.hall.val k.val ≠ rCoreStatus c := fun e => hcfg (.inr (.inl e))
  have h2reg (a : Nat) : s2.reg a = s1.reg a := by rw [hs2]; rfl
  have h3reg (a : Nat) (h1 : a ≠ rCoreStatus c) (h2 : a ≠ rArrCtxCfg c.hall.val k.val) : s3.reg a = s1.reg a := by
    rw [hs3, reg_fput_other _ _ _ h1, reg_fput_other _ _ _ h1, reg_fput_other _ _ _ h1, reg_setReg_other _ _ h2, h2reg]
  refine ⟨_, hexec, ?_, ?_, ?_, ?_, fun a ha h1 => ?_, ?_, fun a ha => ?_, fun a => ?_⟩
  · rw [modCtx_core, core_setCore_same]
  · rw [State.savedOf, ctx_modCtx_same]
    exact find_filter_core _ c
  · rw [modCtx_flag, setCore_flag, hs3, State.flag, fget_fput_below _ _ _ _ _ (by decide) (by decide) (by decide) (by decide), ← State.flag,
      flag_fput_same_one _ _ _ rfl (by decide)]
  · rw [modCtx_run, setCore_run, hs3, State.run, State.flag, fget_fput_below _ _ _ _ _ (by decide) (by decide) (by decide) (by decide),
      fget_fput_below _ _ _ _ _ (by decide) (by decide) (by decide) (by decide), ← State.flag, flag_fput_same_zero _ _ _ (by decide) (by decide)]
  · rw [modCtx_reg, setCore_reg, h3reg a h1 (fun e => hcfg (e ▸ ha)), hs1, (hput a).1 ha]
  · rw [modCtx_reg, setCore_reg, hs3, reg_fput_other _ _ _ hne, reg_fput_other _ _ _ hne, reg_fput_other _ _ _ hne, reg_setReg_same]
    rfl
  · simp only [not_or] at ha
    rw [modCtx_reg, setCore_reg, h3reg a (fun e => ha.1 (.inr (.inl e))) ha.2, hs1, (hput a).2 ha.1, (reg_ctxBlank s c a).2 ha.1]
  · rw [modCtx_rdB, setCore_rdB, hs3, fput_rdB, fput_rdB, fput_rdB, setReg_rdB, hs2]
    refine (tiles_restored hu s1.mem c a).trans ?_
    rw [hs1, putRegs_mem, ctxBlank_mem]
    rfl

/-- Settles O36: by the registers and cells that an image holds and that a restore puts back. -/
theorem contextsSaveAndRestore : Obligations.ContextsSaveAndRestore := by
  refine ⟨fun s c hp hrun hflights hruns hsends hposts hd hm => runs_contextSave hp hrun hflights hruns hsends hposts hd hm, fun s u c k _ hu hp hi => ?_,
    fun s c k h => ?_⟩
  · obtain ⟨t, ht, h1, h2, h3, h4, h5, h6, h7, h8⟩ := runs_contextRestore hu hp hi
    refine ⟨t, ht, h1, h2, h3, h4, fun a ha => h5 a (ha.imp_right .inr), h6, fun a ha => h7 a fun h => ha ?_, h8⟩
    rcases h with (h | h | h) | h
    · exact .inl (.inl h)
    · exact .inr (.inl h)
    · exact .inl (.inr h)
    · exact .inr (.inr h)
  · show execContextRestore ⟨c, k⟩ s = _
    unfold execContextRestore
    dsimp only
    rcases h with h | h
    · split
      · rfl
      · rw [if_pos h]
    · rw [h]

end Sys2Proof.Machine

/-! ## The bell wire and messages about stops (R44, R67, R175, R178 to R180, R183) -/

namespace Sys2Proof.Machine

-- One proof at a time, as in Sys2Proof/Laws: each waiting proof would keep a thread and its stack.
set_option Elab.async false

/-! ### What the record of a fault leaves -/

/-- The parts of the state that no record of a fault and no dump touches. -/
def State.besides (s : State) : List (Nat × CtxS) × List BellMsg × List (Nat × LinkS) × List (Nat × GroupS) × List (Nat × StackS) × Nat × Nat :=
  (s.ctxs, s.bell, s.links, s.groups, s.hbm, s.cc, s.now)

theorem besides_fput (s : State) (a : Nat) (f : Fd) (v : Nat) : (s.fput a f v).besides = s.besides := by
  simp only [State.besides, fput_ctxs, fput_bell, fput_links, fput_groups, fput_hbm, fput_cc, fput_now]

theorem besides_count (s : State) (a n : Nat) : (s.count a n).besides = s.besides := by
  simp only [State.besides, count_ctxs, count_bell, count_links, count_groups, count_hbm, count_cc, count_now]

theorem besides_modCore (s : State) (c : CoreId) (f : CoreS → CoreS) : (s.modCore c f).besides = s.besides := by
  simp only [State.besides, modCore_ctxs, modCore_bell, modCore_links, modCore_groups, modCore_hbm, modCore_cc, modCore_now]

theorem besides_settle (s : State) (c : CoreId) : (s.settle c).besides = s.besides := by
  unfold State.settle
  extract_lets n s1
  have h1 : s1.besides = s.besides := besides_modCore ..
  split
  · rfl
  · split
    · exact h1
    · rw [besides_count, besides_count, besides_count, besides_count, h1]

theorem besides_wrHbm (s : State) (pa : Nat) (b : Bytes) : (s.wrHbm pa b).besides = s.besides := by
  unfold State.wrHbm
  rw [wrBytes_eq]
  rfl

theorem besides_emitFault (s : State) (k : CtxId) (r : EvRec) : (s.emitFault k r).besides = s.besides := by
  have hdump : ∀ (t : State) (x : Option DumpS), State.besides { t with dump := x } = t.besides := fun _ _ => rfl
  unfold State.emitFault State.emitTrig
  split
  · rfl
  · split
    · rfl
    · split
      · unfold State.dumpStart
        extract_lets s1 scope cores halted d s2 s3 s4
        have h2 : s2.besides = s1.besides := foldl_same State.besides _ (fun t c => (besides_fput ..).trans (besides_settle t c)) _ _
        have h3 : s3.besides = s2.besides := foldl_same State.besides _ (fun t c => (besides_modCore ..).trans (besides_fput ..)) _ _
        rw [hdump, besides_wrHbm, besides_fput, h3, h2, besides_fput, besides_fput, besides_fput]
        rfl
      · rfl

/-! ### A message discarded at a router (R183) -/

theorem stopCtx_bell (s : State) (k code : Nat) : (s.stopCtx k code).bell = s.bell := by
  rw [State.stopCtx, foldl_same State.bell _ fun t c => by rw [askStop_bell, fput_bell], modCtx_bell]

/-- The cause of a context's stop, once one is given. -/
theorem stopCtx_cause (s : State) (k : Nat) {code : Nat} (h : code ≠ 0) : ((s.stopCtx k code).ctx k).cause ≠ 0 := by
  rw [State.stopCtx, foldl_same (fun t => t.ctx k) _ fun t c => by rw [askStop_ctx, fput_ctx], ctx_modCtx_same]
  show (if (s.ctx k).cause = 0 then code else (s.ctx k).cause) ≠ 0
  split
  · exact h
  · assumption

theorem hallPos_lt {h : Nat} (hh : h < 8) : h * 256 + 15 * 16 < 2048 := by omega

/-- The fault of a hall sends its FAULT message behind those on the wire and stops the context. -/
theorem faultHall_stops (s : State) {h : Nat} (hh : h < 8) (k : CtxId) (r : EvRec) (hcode : r.code ≠ 0) :
    (∃ f, (s.faultHall h k r).bell = s.bell ++ [f] ∧ bellType f = 0xA) ∧ ((s.faultHall h k r).ctx k.val).cause ≠ 0 := by
  have hbell : (s.emitFault k r).bell = s.bell := congrArg (fun x => x.2.1) (besides_emitFault s k r)
  refine ⟨⟨_, by rw [State.faultHall, stopCtx_bell, State.bellAt, hbell], ?_⟩, stopCtx_cause _ _ hcode⟩
  exact (bellHdr_fields false (show 0xA < 16 by decide) k.isLt (show 2 < 4 by decide) (show 0 < 8 by decide) (show 15 < 16 by decide)
    (show 15 < 16 by decide) (hallPos_lt hh) _ _ _ _ _).1

theorem bellBad_stops (s : State) (m : BellMsg) (c : CoreId) :
    (∃ f, (s.bellBad m c).bell = s.bell ++ [f] ∧ bellType f = 0xA) ∧ ((s.bellBad m c).ctx (bellCtx m).val).cause ≠ 0 :=
  faultHall_stops s c.hall.isLt _ _ (show 0x1010 ≠ 0 by decide)

/-! ### One hop (R175, R178) -/

/-- The first message of the wire, at a router, is first in its queue. -/
theorem bellHead_first {s : State} {m : BellMsg} {rest : List BellMsg} (hb : s.bell = m :: rest) : s.bellHead m = true := by
  rw [State.bellHead, hb, List.takeWhile_cons_of_neg (by simp)]
  rfl

/-- The state without the first message. -/
theorem dropFirst_first {m : BellMsg} {rest : List BellMsg} : dropFirst (· == m) (m :: rest) = rest := by
  rw [dropFirst_cons, if_pos (beq_self_eq_true m)]

theorem bellWants_node {m : BellMsg} {o : Nat} (h : bellWants m = some o) : ∃ node, bellNode m = some node := by
  unfold bellWants at h
  split at h
  · exact absurd h nofun
  · obtain ⟨node, hn, -⟩ := Option.map_eq_some_iff.1 h
    exact ⟨node, hn⟩

section
variable {s : State} {m : BellMsg} {rest : List BellMsg} (hb : s.bell = m :: rest) (hout : m.out = false) (hx : m.x < 48) (hy : m.y < 24)
include hb hout hx hy

/-- The command of a message that stands at a router, first in its queue. -/
theorem bellHop_eq (errs : BitVec 2) : exec (.bellHop m errs) s =
    let c := coreAtXY m.x m.y
    let gone : State := { s with bell := rest }
    let retry (s : State) : State := if errs = 0 then s else s.countC c (rBellRetryCnt c) 1
    if 2 ≤ errs.toNat then .next ((retry gone).faultHall c.hall.val (bellCtx m) (evr 0x100F c.hall.val 0 (s.p1At c (bellCtx m)) (bellType m)))
    else match bellWants m, bellNode m with
      | some o, some node =>
        if !s.bellChosen m o || !s.bellFits m then .next s
        else
          let served : State := { gone with bellServed := sset (fun _ => 5) s.bellServed (bellKey m o) m.inp }
          if bellAtHome m node then .next ((retry served).bellArrive m node c)
          else .next (retry { served with bell := served.bell ++ [bellNext m node] })
      | _, _ => .next ((retry gone).bellBad m c) := by
  show execBellHop m errs s = _
  have hcond : ¬ (m ∉ s.bell ∨ m.out ∨ 48 ≤ m.x ∨ 24 ≤ m.y ∨ s.bellHead m = false) := by
    simp [hb, hout, bellHead_first hb]
    omega
  have hdrop : dropFirst (· == m) s.bell = rest := by rw [hb, dropFirst_first]
  unfold execBellHop
  dsimp only
  rw [if_neg hcond, hdrop] <;> rfl

/-- A message that its output chooses and that finds room. -/
theorem bellHop_chosen {errs : BitVec 2} {o : Nat} {node : BellNode} (he : errs.toNat < 2) (hw : bellWants m = some o) (hn : bellNode m = some node)
    (hc : s.bellChosen m o = true) (hf : s.bellFits m = true) : exec (.bellHop m errs) s =
    let c := coreAtXY m.x m.y
    let retry (s : State) : State := if errs = 0 then s else s.countC c (rBellRetryCnt c) 1
    let served : State := { s with bell := rest, bellServed := sset (fun _ => 5) s.bellServed (bellKey m o) m.inp }
    if bellAtHome m node then .next ((retry served).bellArrive m node c)
    else .next (retry { served with bell := rest ++ [bellNext m node] }) := by
  rw [bellHop_eq hb hout hx hy]
  dsimp only
  rw [if_neg (by omega), hw, hn]
  dsimp only
  rw [if_neg (by rw [hc, hf]; decide)]

/-- A message without an error moves to the next router. -/
theorem runs_bellHop_moves {o : Nat} {node : BellNode} (hw : bellWants m = some o) (hn : bellNode m = some node)
    (hc : s.bellChosen m o = true) (hf : s.bellFits m = true) (hhome : bellAtHome m node = false) :
    Runs (.bellHop m 0) s fun t => t.bell = rest ++ [bellNext m node] ∧ SameRegs s t ∧ SameMem s t := by
  refine ⟨_, (bellHop_chosen hb hout hx hy (errs := 0) (by decide) hw hn hc hf).trans (if_neg (by rw [hhome]; decide)), ?_⟩
  exact ⟨rfl, fun a => rfl, fun a => rfl⟩

/-- A message without an error at the router of its node arrives there. -/
theorem bellHop_arrives {o : Nat} {node : BellNode} (hw : bellWants m = some o) (hn : bellNode m = some node)
    (hc : s.bellChosen m o = true) (hf : s.bellFits m = true) (hhome : bellAtHome m node = true) : exec (.bellHop m 0) s =
    .next (State.bellArrive { s with bell := rest, bellServed := sset (fun _ => 5) s.bellServed (bellKey m o) m.inp } m node (coreAtXY m.x m.y)) :=
  (bellHop_chosen hb hout hx hy (errs := 0) (by decide) hw hn hc hf).trans (if_pos hhome)

/-- A message of a reserved type or for a reserved node is discarded. -/
theorem runs_bellHop_reserved (h : bellReserved m = true ∨ bellNode m = none) :
    Runs (.bellHop m 0) s fun t => (∃ f, t.bell = rest ++ [f] ∧ bellType f = 0xA) ∧ (t.ctx (bellCtx m).val).cause ≠ 0 := by
  have hw : bellWants m = none := by
    unfold bellWants
    rcases h with h | h
    · rw [if_pos h]
    · rw [h]
      split <;> rfl
  refine ⟨_, (bellHop_eq hb hout hx hy 0).trans ?_, bellBad_stops { s with bell := rest } m (coreAtXY m.x m.y)⟩
  dsimp only
  rw [if_neg (by decide), hw]
  rfl

/-- A second parity error of one flit discards the message. -/
theorem runs_bellHop_parity : Runs (.bellHop m 2) s fun t => (∃ f, t.bell = rest ++ [f] ∧ bellType f = 0xA) ∧ (t.ctx (bellCtx m).val).cause ≠ 0 := by
  obtain ⟨u, hu⟩ : ∃ u, u = State.countC { s with bell := rest } (coreAtXY m.x m.y) (rBellRetryCnt (coreAtXY m.x m.y)) 1 := ⟨_, rfl⟩
  have hbell : u.bell = rest := by rw [hu, (countC_mem ..).2.1]
  obtain ⟨⟨f, h1, h2⟩, h3⟩ := faultHall_stops u (coreAtXY m.x m.y).hall.isLt (bellCtx m)
    (evr 0x100F (coreAtXY m.x m.y).hall.val 0 (s.p1At (coreAtXY m.x m.y) (bellCtx m)) (bellType m)) (show 0x100F ≠ 0 by decide)
  refine ⟨_, (bellHop_eq hb hout hx hy 2).trans ?_, ⟨⟨f, h1.trans (by rw [hbell]), h2⟩, h3⟩⟩
  dsimp only
  rw [if_pos (by decide), if_neg (by decide), hu]

/-- A message that its output does not choose, or that finds no room, waits. -/
theorem bellHop_waits {o : Nat} (hw : bellWants m = some o) (h : s.bellChosen m o = false ∨ s.bellFits m = false) : exec (.bellHop m 0) s = .next s := by
  obtain ⟨node, hn⟩ := bellWants_node hw
  rw [bellHop_eq hb hout hx hy]
  dsimp only
  rw [if_neg (by decide), hw, hn]
  exact if_pos (by rcases h with h | h <;> simp [h])

/-- A flit resent once on its way east counts. -/
theorem runs_bellHop_resent {o : Nat} {c : CoreId} (hw : bellWants m = some o) (hn : bellNode m = some (.core c)) (hc : s.bellChosen m o = true)
    (hf : s.bellFits m = true) (hlt : m.x < gx c) (hfreeze : s.flag (rCntCtl (coreAtXY m.x m.y)) fCntCtlFreeze = false) :
    Runs (.bellHop m 1) s fun t => t.bell = rest ++ [{ m with x := m.x + 1, inp := 3 }] ∧
      t.reg (rBellRetryCnt (coreAtXY m.x m.y)) = s.reg (rBellRetryCnt (coreAtXY m.x m.y)) + 1 ∧
      RegsBut (· = rBellRetryCnt (coreAtXY m.x m.y)) s t ∧ SameMem s t := by
  have hhome : bellAtHome m (.core c) = false := by
    show (m.x == gx c && m.y == gy c) = false
    rw [beq_false_of_ne hlt.ne, Bool.false_and]
  have hnext : bellNext m (.core c) = { m with x := m.x + 1, inp := 3 } := if_pos hlt
  obtain ⟨u, hu⟩ : ∃ u : State, u = { s with bell := rest ++ [bellNext m (.core c)], bellServed := sset (fun _ => 5) s.bellServed (bellKey m o) m.inp } :=
    ⟨_, rfl⟩
  have hreg (a : Nat) : u.reg a = s.reg a := by rw [hu]; rfl
  have hcount : u.countC (coreAtXY m.x m.y) (rBellRetryCnt (coreAtXY m.x m.y)) 1 = u.count (rBellRetryCnt (coreAtXY m.x m.y)) 1 := by
    rw [State.countC, State.flag, State.fget, hreg, ← State.fget, ← State.flag, hfreeze]
    rfl
  refine ⟨u.count (rBellRetryCnt (coreAtXY m.x m.y)) 1, ?_, ?_, ?_, fun a ha => ?_, fun a => ?_⟩
  · rw [bellHop_chosen hb hout hx hy (errs := 1) (by decide) hw hn hc hf]
    dsimp only
    rw [if_neg (by rw [hhome]; decide), if_neg (by decide), ← hcount, hu]
  · rw [count_bell, hu, hnext]
  · rw [reg_count_same, hreg]
    rfl
  · rw [reg_count_other _ _ ha, hreg]
  · rw [count_rdB, hu]
    rfl

end

/-- Settles O37: by the command's branches, and where a message goes next. -/
theorem bellWireHops : Obligations.BellWireHops := by
  intro s m rest hb hout hx hy r stops goes
  refine ⟨fun h => runs_bellHop_reserved hb hout hx hy h, runs_bellHop_parity hb hout hx hy, fun o hw h => bellHop_waits hb hout hx hy hw h,
    fun o hw hc hf => ⟨fun c hn => ?_, fun hn => ⟨fun h => ?_, fun h => ?_⟩, fun c hn hlt hfreeze => runs_bellHop_resent hb hout hx hy hw hn hc hf hlt hfreeze⟩⟩
  · have hmoves {n : BellMsg} (hhome : bellAtHome m (.core c) = false) (hnext : bellNext m (.core c) = n) : Runs (.bellHop m 0) s (goes n) :=
      hnext ▸ runs_bellHop_moves hb hout hx hy hw hn hc hf hhome
    have hoff (h : m.x ≠ gx c ∨ m.y ≠ gy c) : bellAtHome m (.core c) = false := by
      show (m.x == gx c && m.y == gy c) = false
      rcases h with h | h <;> simp [h]
    have hon (h1 : m.x = gx c) (h2 : m.y = gy c) : bellAtHome m (.core c) = true := by
      show (m.x == gx c && m.y == gy c) = true
      simp [h1, h2]
    have hnext : bellNext m (.core c) = if m.x < gx c then { m with x := m.x + 1, inp := 3 } else if gx c < m.x then { m with x := m.x - 1, inp := 1 }
        else if m.y < gy c then { m with y := m.y + 1, inp := 0 } else { m with y := m.y - 1, inp := 2 } := rfl
    refine ⟨fun h => hmoves (hoff (.inl h.ne)) ?_, fun h => hmoves (hoff (.inl h.ne')) ?_, fun h1 h2 => hmoves (hoff (.inr h2.ne)) ?_,
      fun h1 h2 => hmoves (hoff (.inr h2.ne')) ?_, fun h1 h2 hh => ?_, fun h1 h2 hh => ?_⟩
    · rw [hnext, if_pos h]
    · rw [hnext, if_neg (by omega), if_pos h]
    · rw [hnext, if_neg (by omega), if_neg (by omega), if_pos h2]
    · rw [hnext, if_neg (by omega), if_neg (by omega), if_neg (by omega)]
    · refine ⟨_, (bellHop_arrives hb hout hx hy hw hn hc hf (hon h1 h2)).trans (congrArg _ (if_neg ?_)), rfl, fun a => rfl, fun a => rfl⟩
      exact fun h => Bool.false_ne_true (hh.symm.trans h)
    · refine ⟨_, (bellHop_arrives hb hout hx hy hw hn hc hf (hon h1 h2)).trans (congrArg _ (if_pos ?_)), bellBad_stops _ m _⟩
      exact hh
  · exact runs_bellHop_moves hb hout hx hy hw hn hc hf (beq_false_of_ne h)
  · exact ⟨_, bellHop_arrives hb hout hx hy hw hn hc hf (beq_iff_eq.2 h), rfl, fun a => rfl, fun a => rfl⟩

end Sys2Proof.Machine

/-! ## PREEMPT, STOP_DONE and fault messages (R44, R67, R179, R180) -/

namespace Sys2Proof.Machine

-- One proof at a time, as in Sys2Proof/Laws: each waiting proof would keep a thread and its stack.
set_option Elab.async false

/-! ### The stop of a context, once its cores have stopped (R179, R231) -/

/-- Memory and the contexts' state. -/
def State.memCtxs (s : State) : List Host.Cell × List (Nat × CtxS) := (s.mem, s.ctxs)

theorem memCtxs_fput (s : State) (a : Nat) (f : Fd) (v : Nat) : (s.fput a f v).memCtxs = s.memCtxs := by rw [State.memCtxs, fput_mem, fput_ctxs, State.memCtxs]

theorem memCtxs_count (s : State) (a n : Nat) : (s.count a n).memCtxs = s.memCtxs := by rw [State.memCtxs, count_mem, count_ctxs, State.memCtxs]

theorem memCtxs_emit (s : State) (r : EvRec) : (s.emit r).memCtxs = s.memCtxs := rfl

theorem memCtxs_ebc (s : State) (e : EbcS) : State.memCtxs { s with ebc := e } = s.memCtxs := rfl

theorem memCtxs_modCore (s : State) (c : CoreId) (f : CoreS → CoreS) : (s.modCore c f).memCtxs = s.memCtxs := by
  rw [State.memCtxs, modCore_mem, modCore_ctxs, State.memCtxs]

theorem memCtxs_ctlRoute (s : State) (unit dst : Nat) (m : CtlMsg) : (s.ctlRoute unit dst m).memCtxs = s.memCtxs := by
  unfold State.ctlRoute
  split
  · unfold State.ctlSend
    dsimp only
    split
    · split <;> rfl
    · split
      · rfl
      · split <;> rfl
    · split <;> rfl
  · rfl

theorem memCtxs_fireWatch (s : State) (w : WatchS) (o : Bool) : (s.fireWatch w o).memCtxs = s.memCtxs := by
  unfold State.fireWatch
  dsimp only
  split
  · rfl
  · exact memCtxs_ctlRoute ..

theorem memCtxs_orphanSem (s : State) (k p : Nat) : (s.orphanSem k p).memCtxs = s.memCtxs := by
  unfold State.orphanSem
  extract_lets rel sm s1 s2
  have h2 : s2.memCtxs = s1.memCtxs := by
    refine foldl_same State.memCtxs _ (fun t e => ?_) _ _
    split
    · rfl
    · exact memCtxs_fireWatch ..
  rw [memCtxs_emit, memCtxs_count, memCtxs_fput, h2]
  rfl

theorem memCtxs_orphanCtx (s : State) (k : Nat) : (s.orphanCtx k).memCtxs = s.memCtxs :=
  foldl_same State.memCtxs _ (fun t p => memCtxs_orphanSem t k p) _ _

theorem memCtxs_idleCheck (s : State) : s.idleCheck.memCtxs = s.memCtxs := by
  unfold State.idleCheck
  split
  · extract_lets s1 s2
    have h2 : s2.memCtxs = s1.memCtxs := foldl_same State.memCtxs _ (fun t h => memCtxs_fput ..) _ _
    rw [memCtxs_ebc, h2, memCtxs_fput, memCtxs_fput, memCtxs_fput]
  · rfl

theorem memCtxs_notify (s : State) (kind p : Nat) : (s.notify kind p).memCtxs = s.memCtxs := by
  unfold State.notify
  split
  · rfl
  · split
    · rfl
    · rfl

theorem stageRelease_keeps (s : State) (k : Nat) : (s.stageRelease k).mem = s.mem ∧ ((s.stageRelease k).ctx k).stopped = (s.ctx k).stopped ∧
    ((s.stageRelease k).ctx k).stopDone = (s.ctx k).stopDone := by
  unfold State.stageRelease
  split
  · exact ⟨rfl, rfl, rfl⟩
  · split
    · exact ⟨rfl, rfl, rfl⟩
    · split
      · rw [ctx_modCtx_same, modCtx_mem, modCore_mem, modCore_ctx]
        exact ⟨rfl, rfl, rfl⟩
      · exact ⟨rfl, rfl, rfl⟩

/-- A context in no group that has stopped for a cause. -/
theorem ctxStopped_fields {s : State} {k : CtxId} (hg : s.ctxGroups k.val = []) :
    ((s.ctxStopped k).ctx k.val).stopped = some (s.ctx k.val).cause ∧ ((s.ctxStopped k).ctx k.val).stopDone = [] ∧ SameMem s (s.ctxStopped k) := by
  unfold State.ctxStopped
  extract_lets x s1 s2 s2' s3
  have h1 : s1.mem = s.mem ∧ (s1.ctx k.val).stopped = some (s.ctx k.val).cause ∧ (s1.ctx k.val).stopDone = [] := by
    unfold s1
    rw [ctx_modCtx_same, modCtx_mem]
    exact ⟨rfl, rfl, rfl⟩
  obtain ⟨u, hu⟩ : ∃ u, u = (s.activeCores k.val).foldl (fun s c => s.modCore c CoreS.streamStop) s1 := ⟨_, rfl⟩
  have hfold : u.memCtxs = s1.memCtxs := hu ▸ foldl_same State.memCtxs _ (fun t c => memCtxs_modCore t c _) _ _
  have hmem : u.mem = s1.mem := congrArg Prod.fst hfold
  have hctx : u.ctx k.val = s1.ctx k.val := congrArg (fun l => sget (fun _ => CtxS.fresh) l k.val) (congrArg Prod.snd hfold)
  obtain ⟨hs1, hs2, hs3⟩ := stageRelease_keeps u k.val
  have h2 : s2.memCtxs = (u.stageRelease k.val).memCtxs := by
    rw [hu]
    exact memCtxs_orphanCtx ..
  have h2' : s2'.memCtxs = s2.memCtxs := by
    unfold s2'
    rw [hg]
    rfl
  have h3 : s3.memCtxs = s2'.memCtxs := by
    unfold s3
    split
    · rfl
    · exact memCtxs_notify ..
  have hend : (if x.cause = 0 then s3 else (s.ctxGroups k.val).foldl (fun s g => s.groupReport g x.cause 0 false) s3).idleCheck.memCtxs =
      (u.stageRelease k.val).memCtxs := by
    rw [memCtxs_idleCheck, hg, List.foldl_nil, ite_self, h3, h2', h2]
  have hendMem := congrArg Prod.fst hend
  have hendCtx := congrArg (fun l => sget (fun _ => CtxS.fresh) l k.val) (congrArg Prod.snd hend)
  refine ⟨?_, ?_, fun a => rdB_congr (hendMem.trans (hs1.trans (hmem.trans h1.1))) a⟩
  · exact (congrArg CtxS.stopped hendCtx).trans (hs2.trans ((congrArg CtxS.stopped hctx).trans h1.2.1))
  · exact (congrArg CtxS.stopDone hendCtx).trans (hs3.trans ((congrArg CtxS.stopDone hctx).trans h1.2.2))

theorem runs_stopDone {s : State} {c : CoreId} {k : CtxId} (hfree : s.bellFree ⟨9, k, some c.pos, none, none⟩ = true)
    (hstart : (s.ctx k.val).started = true) (hhalt : (s.ctx k.val).groupHalt = false) (hstop : (s.ctx k.val).stopped = none)
    (hg : s.ctxGroups k.val = []) (hall : ∀ d ∈ s.activeCores k.val, s.run d = false ∧ (s.core d).tellStop = false) :
    Runs (.stopDone c k) s fun t => (t.ctx k.val).stopped = some (s.ctx k.val).cause ∧ (t.ctx k.val).stopDone = [] ∧ SameMem s t := by
  obtain ⟨u, hu⟩ : ∃ u, u = (s.bellTaken ⟨9, k, some c.pos, none, none⟩).modCtx k.val fun x =>
    { x with stopDone := if x.stopDone.contains c then x.stopDone else x.stopDone ++ [c] } := ⟨_, rfl⟩
  have hgu : u.ctxGroups k.val = [] := by rw [hu, ctxGroups_modCtx, State.ctxGroups, bellTaken_regs, ← State.ctxGroups, hg]
  have hcause : (u.ctx k.val).cause = (s.ctx k.val).cause := by rw [hu, ctx_modCtx_same, bellTaken_ctx]
  obtain ⟨h1, h2, h3⟩ := ctxStopped_fields hgu
  have hdone : ((s.activeCores k.val).all fun d => (u.ctx k.val).stopDone.contains d || (!s.run d && !(s.core d).tellStop)) = true :=
    List.all_eq_true.2 fun d hd => by rw [(hall d hd).1, (hall d hd).2]; simp
  refine ⟨u.ctxStopped k, ?_, by rw [h1, hcause], h2, fun a => (h3 a).trans (by rw [hu, modCtx_rdB, bellTaken_rdB])⟩
  show execStopDone c k s = _
  unfold execStopDone State.delivered
  dsimp only
  rw [if_pos hfree, ← hu, if_neg (by rw [hdone, hstart]; decide), if_neg (by rw [hhalt]; decide), if_neg (by rw [hstop]; decide)]

/-! ### PREEMPT -/

theorem runs_preempt_stop {s : State} {c : CoreId} {k : CtxId} (hfree : s.bellFree ⟨8, k, some 0, some c.pos, none⟩ = true)
    (hp : s.presentOn c k = true) (hrun : s.run c = true) (hstop : (s.core c).stopCause = none) :
    Runs (.preempt c k 0) s fun t => (t.core c).stopCause = some .preempt ∧ t.canIssue c = false ∧ SameRegs s t ∧ SameMem s t := by
  refine runs_delivered (q := ⟨8, k, some 0, some c.pos, none⟩) (f := fun s1 => if !s.presentOn c k then s1
    else if s.run c then (s1.modCore c fun x => { x with preempted := true }).askStop c .preempt else s1) rfl hfree ?_
  rw [if_neg (by rw [hp]; decide), if_pos hrun]
  generalize (⟨8, k, some 0, some c.pos, none⟩ : MsgKey) = q
  have hcause : ((((s.bellTaken q).modCore c fun x => { x with preempted := true }).askStop c .preempt).core c).stopCause = some .preempt := by
    rw [State.askStop, core_modCore_same, core_modCore_same, bellTaken_core, hstop]
  refine ⟨hcause, ?_, fun a => ?_, fun a => ?_⟩
  · rw [State.canIssue, hcause]
    simp
  · rw [askStop_reg, modCore_reg, bellTaken_reg]
  · rw [askStop_rdB, modCore_rdB, bellTaken_rdB]

theorem runs_preempt_resume {s : State} {c : CoreId} {k : CtxId} (hfree : s.bellFree ⟨8, k, some 1, some c.pos, none⟩ = true)
    (hp : s.presentOn c k = true) (hr : s.resumable c = true) (hhalt : s.flag (rCoreCtl c) fCoreCtlHalt = false) :
    Runs (.preempt c k 1) s fun t => t.run c = true ∧ t.flag (rCoreStatus c) fCoreStatusStopped = false ∧ SameMem s t := by
  obtain ⟨who, hwho⟩ : ∃ who, who = (hallCores c.hall.val).filter fun d => s.presentOn d k := ⟨_, rfl⟩
  refine runs_delivered (q := ⟨8, k, some 1, some c.pos, none⟩) (f := fun s1 => if !s.presentOn c k then s1
    else if s.resumable c && !s.flag (rCoreCtl c) fCoreCtlHalt then
      ((s1.tileRestart c who).resumeCore c).modCore c fun x => { x with preempted := true } else s1) (hwho ▸ rfl) hfree ?_
  rw [if_neg (by rw [hp]; decide), if_pos (by rw [hr, hhalt]; rfl)]
  generalize (⟨8, k, some 1, some c.pos, none⟩ : MsgKey) = q
  obtain ⟨-, hmem⟩ := tileRestart_keeps (s.bellTaken q) c who
  obtain ⟨h1, h2, -, -, -, h6⟩ := resumeCore_fields ((s.bellTaken q).tileRestart c who) c
  refine ⟨?_, ?_, fun a => ?_⟩
  · rw [modCore_run, h1]
  · rw [modCore_flag, h2]
  · rw [modCore_rdB, h6 a, rdB_congr hmem, bellTaken_rdB]

/-! ### BELL_FAULT -/

theorem regsBut_stopCtx (s : State) (k code : Nat) : RegsBut (fun a => ∃ d, a = rCoreStatus d) s (s.stopCtx k code) := fun a ha => by
  rw [State.stopCtx, foldl_same (fun t => t.reg a) _ fun t d => by rw [askStop_reg, reg_fput_other _ _ _ fun e => ha ⟨d, e⟩]]
  exact modCtx_reg ..

theorem runs_bellFault_hall {s : State} {h : Fin 8} {k : CtxId} {code pc : BitVec 16} {param : BitVec 32}
    (hfree : s.bellFree ⟨0xA, k, some (faultPos (.hall h)), none, some [code ++ pc, param]⟩ = true) :
    Runs (.bellFault (.hall h) k code pc param) s fun t =>
      (∀ d ∈ s.activeCores k.val, t.flag (rCoreStatus d) fCoreStatusFaulted = true ∧ (t.core d).stopCause ≠ none ∧
        t.fget (rCoreStatus d) fCoreStatusFault = s.fget (rCoreStatus d) fCoreStatusFault) ∧
      RegsBut (fun a => ∃ d, a = rCoreStatus d) s t ∧ SameMem s t := by
  refine runs_delivered (f := fun s1 => s1.stopCtx k.val code.toNat) rfl hfree ?_
  generalize (⟨0xA, k, some (faultPos (.hall h)), none, some [code ++ pc, param]⟩ : MsgKey) = q
  refine ⟨fun d hd => ?_, ?_, ?_⟩
  · obtain ⟨h1, h2⟩ := isMarked_stopCtx (s.bellTaken q) k.val code.toNat (d := d) (by rwa [activeCores_congr (placing_bellTaken s q)])
    exact ⟨h1, h2, by rw [fault_stopCtx, bellTaken_fget]⟩
  · exact regsBut_bellTaken (regsBut_stopCtx _ _ _)
  · exact sameMem_bellTaken fun a => rdB_congr (stopCtx_mem ..) a

theorem runs_bellFault_core {s : State} {c : CoreId} {k : CtxId} {code pc : BitVec 16} {param : BitVec 32}
    (hfree : s.bellFree ⟨0xA, k, some c.pos, none, some [code ++ pc, param]⟩ = true) (hp : s.presentOn c k = true) :
    Runs (.bellFault (.core c) k code pc param) s fun t =>
      t.fget (rCoreStatus c) fCoreStatusFault = code.toNat ∧
      (∀ d ∈ s.activeCores k.val, t.flag (rCoreStatus d) fCoreStatusFaulted = true ∧ (t.core d).stopCause ≠ none) ∧
      RegsBut (fun a => ∃ d, a = rCoreStatus d) s t ∧ SameMem s t := by
  refine runs_delivered (q := ⟨0xA, k, some c.pos, none, some [code ++ pc, param]⟩) (f := fun s1 => if s.presentOn c k then (s1.fput (rCoreStatus c) fCoreStatusFault code.toNat).stopCtx k.val code.toNat
    else s1.stopCtx k.val code.toNat) rfl hfree ?_
  rw [if_pos hp]
  generalize (⟨0xA, k, some c.pos, none, some [code ++ pc, param]⟩ : MsgKey) = q
  refine ⟨?_, fun d hd => ?_, regsBut_bellTaken (q := q) fun a ha => ?_, sameMem_bellTaken (q := q) fun a => ?_⟩
  · rw [fault_stopCtx, fget_fput_same _ _ _ _ (by decide) (by decide)]
    exact Nat.mod_eq_of_lt code.isLt
  · refine isMarked_stopCtx _ k.val code.toNat ?_
    rwa [activeCores_congr (placing_fput_status _ c fCoreStatusFault _ (by decide) (by decide)), activeCores_congr (placing_bellTaken s _)]
  · rw [regsBut_stopCtx _ _ _ a ha, reg_fput_other _ _ _ fun e => ha ⟨c, e⟩]
  · rw [rdB_congr (stopCtx_mem ..), fput_rdB]

/-- Settles O38: by what each message does where it arrives. -/
theorem stopMessages : Obligations.StopMessages := by
  intro s c k code pc param free
  refine ⟨fun act h => ?_, fun hfree hp hrun hstop => runs_preempt_stop hfree hp hrun hstop, fun hfree hp hr _ hhalt => runs_preempt_resume hfree hp hr hhalt,
    fun hfree hstart hhalt hstop _ hg hall => runs_stopDone hfree hstart hhalt hstop hg hall, fun h hfree => runs_bellFault_hall hfree,
    fun hfree hp _ => runs_bellFault_core hfree hp⟩
  show execPreempt c k act s = _
  rw [execPreempt, State.delivered, if_neg (by rw [h]; decide)]

end Sys2Proof.Machine

/-! ## Passes of the matrix array and their checks (R28, R31, R78, R80, R85, R86, R89, R90, R101, R102, R143) -/

namespace Sys2Proof.Machine

-- One proof at a time, as in Sys2Proof/Laws: each waiting proof would keep a thread and its stack.
set_option Elab.async false

/-! ### Rows written to a tile -/

theorem putRows_nil (s : State) (c : CoreId) (td i : Nat) : s.putRows c td i [] = s := by
  unfold State.putRows
  rfl

theorem putRows_cons (s : State) (c : CoreId) (td i : Nat) (r : List (BitVec 32)) (l : List (List (BitVec 32))) :
    s.putRows c td i (r :: l) = (s.setRow c td i (rowBytes r)).putRows c td (i + 1) l := by
  conv_lhs => unfold State.putRows

theorem putRows_keeps (c : CoreId) (td : Nat) (l : List (List (BitVec 32))) : ∀ (s : State) (i : Nat), SameRegs s (s.putRows c td i l) ∧
    ∀ d, (s.putRows c td i l).core d = s.core d := by
  induction l with
  | nil =>
    intro s i
    rw [putRows_nil]
    exact ⟨fun a => rfl, fun d => rfl⟩
  | cons r l ih =>
    intro s i
    obtain ⟨h1, h2⟩ := ih (s.setRow c td i (rowBytes r)) (i + 1)
    rw [putRows_cons]
    exact ⟨fun a => (h1 a).trans (setRow_reg s c td i _ a), fun d => (h2 d).trans (wrBytes_core ..)⟩

/-- Rows that are written from row `i` on read back; every byte outside them stays. -/
theorem putRows_rows (c : CoreId) (td : Nat) (l : List (List (BitVec 32))) : ∀ (s : State) (i : Nat),
    (∀ j, j < l.length → (s.putRows c td i l).row c td (i + j) = slice (rowBytes (l.getD j [])) 0 128) ∧
      MemBut (tileAddr c td i) (128 * l.length) s (s.putRows c td i l) := by
  induction l with
  | nil =>
    intro s i
    rw [putRows_nil]
    exact ⟨fun j hj => absurd hj (Nat.not_lt_zero j), fun a _ => rfl⟩
  | cons r l ih =>
    intro s i
    obtain ⟨hrows, hmem⟩ := ih (s.setRow c td i (rowBytes r)) (i + 1)
    have hnext : tileAddr c td (i + 1) = tileAddr c td i + 128 := by
      unfold tileAddr
      omega
    rw [putRows_cons]
    refine ⟨fun j hj => ?_, fun a ha => ?_⟩
    · cases j with
      | zero =>
        rw [Nat.add_zero, List.getD_cons_zero]
        exact (rdBytes_congr fun x _ h2 => hmem x (.inl (by rw [hnext]; exact h2))).trans (row_setRow_same ..)
      | succ j =>
        rw [show i + (j + 1) = i + 1 + j by omega, hrows j (by simpa using hj), List.getD_cons_succ]
    · rw [List.length_cons] at ha
      rw [hmem a (by omega), setRow_rdB_other _ _ _ _ _ (by omega)]

/-! ### The array's counters -/

/-- The counters of completed passes (R102). -/
def passReg (c : CoreId) (a : Nat) : Prop := a = rArrPassCnt c.hall.val (arrIx c) ∨ a = rArrMacCnt c.hall.val (arrIx c)

theorem countPass_keeps (s : State) (c : CoreId) (p : PassS) : (∀ a, ¬ passReg c a → (s.countPass c p).reg a = s.reg a) ∧
    (s.countPass c p).mem = s.mem ∧ ∀ d, (s.countPass c p).core d = s.core d := by
  refine ⟨fun a ha => ?_, ?_, fun d => ?_⟩
  · simp only [passReg, not_or] at ha
    rw [State.countPass, reg_countC_other _ _ _ ha.2, reg_countC_other _ _ _ ha.1]
  · rw [State.countPass, (countC_mem ..).1, (countC_mem ..).1]
  · rw [State.countPass, countC_core, countC_core]

theorem countPasses_keeps (s : State) (c : CoreId) (ps : List PassS) : (∀ a, ¬ passReg c a → (s.countPasses c ps).reg a = s.reg a) ∧
    (s.countPasses c ps).mem = s.mem ∧ ∀ d, (s.countPasses c ps).core d = s.core d :=
  ⟨fun a ha => foldl_same (fun t => t.reg a) _ (fun t p => (countPass_keeps t c p).1 a ha) _ _,
    foldl_same State.mem _ (fun t p => (countPass_keeps t c p).2.1) _ _, fun d => foldl_same (fun t => t.core d) _ (fun t p => (countPass_keeps t c p).2.2 d) _ _⟩

/-! ### A pass with checking off -/

/-- The pass as it issues now. -/
def State.passNow (s : State) (c : CoreId) (ta tw td n : BitVec 6) (rate : BitVec 2) : PassS := s.passOf c s.cc ta tw td n rate false false

/-- A single pass has its own rows as its result. -/
theorem chainOut_single (p : PassS) : chainOut [p] = p.out := rfl

/-- The result rows of a pass that issues now. -/
theorem passNow_out (s : State) (c : CoreId) (ta tw td n : BitVec 6) (rate : BitVec 2) : (s.passNow c ta tw td n rate).out =
    (List.range n.toNat).map fun i => (List.range 32).map fun j => cellSum (2 ^ rate.toNat) 32
      (decRow (cfgFmt (s.reg (rTileCfg c ta.toNat))) (32 * 2 ^ rate.toNat) (s.row c ta.toNat i))
      (decRow (cfgFmt (s.reg (rTileCfg c tw.toNat))) (32 * 2 ^ rate.toNat) (s.row c tw.toNat j)) 0 := by
  simp only [PassS.out, PassS.xs, PassS.ws, State.passNow, State.passOf, List.map_map]
  rfl

theorem passIn_keeps (s : State) (c : CoreId) (p : PassS) : (s.passIn c p).regs = s.regs ∧ (s.passIn c p).mem = s.mem ∧
    (s.passIn c p).cc = s.cc := ⟨modCore_regs .., modCore_mem .., modCore_cc ..⟩

/-- A pass without KEEP and outside a chain becomes a run of its own. -/
theorem passIn_single (s : State) (c : CoreId) {p : PassS} (hk : p.keep = false) (hc : p.chain = false) : ((s.passIn c p).core c).chain = [] ∧
    ((s.passIn c p).core c).runs = (s.core c).runs ++ [mkRun [p] (s.checking c) false] := by
  rw [State.passIn, core_modCore_same]
  dsimp only
  rw [hk, hc]
  exact ⟨rfl, rfl⟩

/-- With checking off the newest run's destination is written at once. -/
theorem passSettle_unchecked {s : State} {c : CoreId} {p : PassS} (hchain : (s.core c).chain = []) (hruns : (s.core c).runs = [mkRun [p] false false]) :
    s.passSettle c = (((s.putRows c p.td.toNat 0 p.out).countPasses c [p]).dropRun c (mkRun [p] false false)) := by
  unfold State.passSettle
  simp only [hchain, hruns, List.getLast?_nil, List.getLast?_singleton]
  rfl

theorem runs_pass_unchecked {s : State} {c : CoreId} {ta tw td n : BitVec 6} {rate : BitVec 2} (hr : Ready s c)
    (hf : s.passFault c ta tw td n rate false false = none) (hcheck : s.checking c = false) (hruns : (s.core c).runs = []) (hn : n ≠ 0) :
    let k := 32 * 2 ^ rate.toNat
    let dec := fun (tile i : Nat) => decRow (cfgFmt (s.reg (rTileCfg c tile))) k (s.row c tile i)
    let y := fun i => (List.range 32).map fun j => cellSum (2 ^ rate.toNat) 32 (dec ta.toNat i) (dec tw.toNat j) 0
    Runs (.pass c ta tw td n rate false false) s fun t =>
      (∀ i, i < n.toNat → t.row c td.toNat i = slice (rowBytes (y i)) 0 128) ∧ MemBut (tileAddr c td.toNat 0) (128 * n.toNat) s t ∧
      RegsBut (fun a => a = rArr c ∨ a = rArrPassCnt c.hall.val (arrIx c) ∨ a = rArrMacCnt c.hall.val (arrIx c)) s t := by
  intro k dec y
  refine runs_acts rfl hr rfl hf ?_
  obtain ⟨u, hu⟩ : ∃ u, u = s.passIn c (s.passNow c ta tw td n rate) := ⟨_, rfl⟩
  obtain ⟨hchain, hrun⟩ := passIn_single s c (p := s.passNow c ta tw td n rate) rfl rfl
  obtain ⟨hregs, hmem, -⟩ := passIn_keeps s c (s.passNow c ta tw td n rate)
  rw [hruns, hcheck, List.nil_append] at hrun
  rw [← hu] at hchain hrun hregs hmem
  have hlen : (s.passNow c ta tw td n rate).out.length = n.toNat := by rw [passNow_out, List.length_map, List.length_range]
  obtain ⟨hrows, hbut⟩ := putRows_rows c td.toNat (s.passNow c ta tw td n rate).out u 0
  obtain ⟨hcreg, hcmem, -⟩ := countPasses_keeps (u.putRows c td.toNat 0 (s.passNow c ta tw td n rate).out) c [s.passNow c ta tw td n rate]
  have heff : (if n = 0 then s else (s.passIssue c s.cc ta tw td n rate false false).passSettle c) =
      ((u.putRows c td.toNat 0 (s.passNow c ta tw td n rate).out).countPasses c [s.passNow c ta tw td n rate]).dropRun c
        (mkRun [s.passNow c ta tw td n rate] false false) := by
    rw [if_neg hn, State.passIssue, if_neg hn]
    exact (congrArg (fun t => t.passSettle c) hu.symm).trans (passSettle_unchecked hchain hrun)
  rw [heff]
  generalize hw : (u.putRows c td.toNat 0 (s.passNow c ta tw td n rate).out) = w at *
  have hread (a : Nat) : (((w.countPasses c [s.passNow c ta tw td n rate]).dropRun c (mkRun [s.passNow c ta tw td n rate] false false)).stepped c).rdB a = w.rdB a := by
    rw [stepped_rdB, State.dropRun, modCore_rdB, rdB_congr hcmem]
  refine ⟨fun i hi => ?_, fun a ha => ?_, fun a ha => ?_⟩
  · have hrow := hrows i (by rwa [hlen])
    rw [Nat.zero_add, passNow_out, List.getD_eq_getElem _ _ (by simpa using hi), List.getElem_map, List.getElem_range] at hrow
    rw [State.row, rdBytes_congr fun x _ _ => hread x, ← State.row, hrow]
  · rw [hread, hbut a (by rwa [hlen]), rdB_congr hmem]
  · simp only [not_or] at ha
    rw [stepped_reg, State.dropRun, modCore_reg, hcreg a (by simpa only [passReg, not_or] using ha.2), ← hw, (putRows_keeps ..).1, reg_congr hregs]

theorem runs_pass_noRows {s : State} {c : CoreId} {ta tw td n : BitVec 6} {rate : BitVec 2} (hr : Ready s c)
    (hf : s.passFault c ta tw td n rate false false = none) (hn : n = 0) :
    Runs (.pass c ta tw td n rate false false) s fun t => SameRegs s t ∧ SameMem s t := by
  refine runs_acts rfl hr rfl hf ?_
  rw [if_pos hn]
  exact ⟨fun a => stepped_reg .., fun a => stepped_rdB ..⟩

theorem astatVal_eq (s : State) (c : CoreId) : s.astatVal c = BitVec.ofNat 64 ((s.arrWord c).toNat % 2 ^ 24) := by
  refine BitVec.eq_of_toNat_eq ?_
  rw [State.astatVal, BitVec.toNat_and, BitVec.toNat_ofNat]
  show (s.arrWord c).toNat &&& (2 ^ 24 - 1) = _
  rw [Nat.and_two_pow_sub_one_eq_mod]
  exact (Nat.mod_eq_of_lt (lt_trans (Nat.mod_lt _ (by decide)) (show 2 ^ 24 < 2 ^ 64 by decide))).symm

/-- Settles O27: by the rows of a single pass, written as its run settles. -/
theorem uncheckedPasses : Obligations.UncheckedPasses :=
  ⟨fun _ _ _ _ _ _ _ hr hf hcheck hruns _ => ⟨fun hn => runs_pass_unchecked hr hf hcheck hruns hn, fun hn => runs_pass_noRows hr hf hn⟩,
    fun s c _ hr => astatVal_eq s c ▸ runs_writes rfl hr rfl rfl rfl⟩

/-! ### A pass with checking on, and its check -/

theorem runs_pass_checked {s : State} {c : CoreId} {ta tw td n : BitVec 6} {rate : BitVec 2} (hr : Ready s c)
    (hf : s.passFault c ta tw td n rate false false = none) (hn : n ≠ 0) (hcheck : s.checking c = true) :
    Runs (.pass c ta tw td n rate false false) s fun t =>
      (∃ r, (t.core c).runs = (s.core c).runs ++ [r] ∧ r.checked = true ∧ r.result = none) ∧ RegsBut (· = rArr c) s t ∧ SameMem s t := by
  refine runs_acts rfl hr rfl hf ?_
  obtain ⟨u, hu⟩ : ∃ u, u = s.passIn c (s.passNow c ta tw td n rate) := ⟨_, rfl⟩
  obtain ⟨hchain, hrun⟩ := passIn_single s c (p := s.passNow c ta tw td n rate) rfl rfl
  obtain ⟨hregs, hmem, -⟩ := passIn_keeps s c (s.passNow c ta tw td n rate)
  rw [hcheck] at hrun
  rw [← hu] at hchain hrun hregs hmem
  have hsettle : u.passSettle c = u := by
    unfold State.passSettle
    simp only [hchain, hrun, List.getLast?_nil, List.getLast?_concat]
    rfl
  have heff : (if n = 0 then s else (s.passIssue c s.cc ta tw td n rate false false).passSettle c) = u := by
    rw [if_neg hn, State.passIssue, if_neg hn]
    exact (congrArg (fun t => t.passSettle c) hu.symm).trans hsettle
  rw [heff]
  refine ⟨⟨mkRun [s.passNow c ta tw td n rate] true false, ?_, rfl, rfl⟩, fun a _ => ?_, fun a => ?_⟩
  · rw [core_stepped_keeps CoreS.runs (fun _ _ => rfl) (fun _ _ => rfl), hrun]
  · rw [stepped_reg, reg_congr hregs]
  · rw [stepped_rdB, rdB_congr hmem]

/-- The check of a single pass before its own check cc. -/
theorem passCheck_eq {s : State} {c : CoreId} {r : RunS} {p : PassS} (upsets : List (BitVec 10 × BitVec 32)) (hruns : (s.core c).runs = [r])
    (hlist : r.list = [p]) (hc : r.checked = true) (hres : r.result = none) (hcc : s.cc < r.check) (hk : p.keep = false) :
    let y := upset (chainOut [p]) upsets
    let v := checkRun (s.fget (rArrCtxCfg c.hall.val (s.coreCtx c).val) fArrCtxCfgTolFactor) [p] y
    exec (.passCheck c upsets) s = .next (if v.mismatch then ((s.countNonfinite c v).dropRun c r).mismatch c r v
      else (((s.countNonfinite c v).putRows c p.td.toNat 0 y).countPasses c [p]).dropRun c r) := by
  intro y v
  show execPassCheck c upsets s = _
  have hfind : ((s.core c).runs.find? fun r => r.checked && r.result.isNone) = some r := by
    rw [hruns]
    exact List.find?_cons_of_pos (by rw [hc, hres]; rfl)
  have hlate : decide (r.check ≤ s.cc) = false := decide_eq_false (by omega)
  have hkept : [p].filter (fun p => p.keep) = [] := List.filter_cons_of_neg (by simp [hk])
  have hlast : r.last = some p := by
    rw [RunS.last, hlist]
    rfl
  unfold execPassCheck State.endCheck
  simp only [hfind, hlate, RunS.exact, hlist, hkept, State.runStore, hlast, Bool.false_eq_true, if_false]
  rfl

theorem countNonfinite_keeps (s : State) (c : CoreId) (v : Verdict) :
    (∀ a, a ≠ rArrNonfiniteCnt c.hall.val (arrIx c) → (s.countNonfinite c v).reg a = s.reg a) ∧ (s.countNonfinite c v).mem = s.mem ∧
      ∀ d, (s.countNonfinite c v).core d = s.core d :=
  ⟨fun _ ha => reg_countC_other _ _ _ ha, (countC_mem ..).1, fun _ => countC_core ..⟩

theorem dropRun_only {s : State} {c : CoreId} {r : RunS} (h : (s.core c).runs = [r]) : ((s.dropRun c r).core c).runs = [] := by
  rw [State.dropRun, core_modCore_same]
  dsimp only
  rw [h, dropFirst_cons, if_pos (beq_self_eq_true r)]

theorem runs_passCheck_match {s : State} {c : CoreId} {r : RunS} {p : PassS} {upsets : List (BitVec 10 × BitVec 32)} (hruns : (s.core c).runs = [r])
    (hlist : r.list = [p]) (hc : r.checked = true) (hres : r.result = none) (hcc : s.cc < r.check) (hk : p.keep = false) :
    let y := upset (chainOut [p]) upsets
    let v := checkRun (s.fget (rArrCtxCfg c.hall.val (s.coreCtx c).val) fArrCtxCfgTolFactor) [p] y
    v.mismatch = false → Runs (.passCheck c upsets) s fun t => (t.core c).runs = [] ∧
      (∀ i, i < y.length → t.row c p.td.toNat i = slice (rowBytes (y.getD i [])) 0 128) ∧ MemBut (tileAddr c p.td.toNat 0) (128 * y.length) s t ∧
      RegsBut (fun a => a = rArr c ∨ a = rArrPassCnt c.hall.val (arrIx c) ∨ a = rArrMacCnt c.hall.val (arrIx c) ∨
        a = rArrNonfiniteCnt c.hall.val (arrIx c)) s t := by
  intro y v hv
  obtain ⟨hnreg, hnmem, hncore⟩ := countNonfinite_keeps s c v
  obtain ⟨hpreg, hpcore⟩ := putRows_keeps c p.td.toNat y (s.countNonfinite c v) 0
  obtain ⟨hrows, hbut⟩ := putRows_rows c p.td.toNat y (s.countNonfinite c v) 0
  obtain ⟨hcreg, hcmem, hccore⟩ := countPasses_keeps ((s.countNonfinite c v).putRows c p.td.toNat 0 y) c [p]
  refine ⟨_, (passCheck_eq upsets hruns hlist hc hres hcc hk).trans (congrArg _ (if_neg (by rw [show v.mismatch = false from hv]; decide))), ?_, fun i hi => ?_,
    fun a ha => ?_, fun a ha => ?_⟩
  · exact dropRun_only (by rw [hccore, hpcore, hncore, hruns])
  · have hrow := hrows i hi
    rw [Nat.zero_add] at hrow
    exact (rdBytes_congr fun x _ _ => (modCore_rdB ..).trans (rdB_congr hcmem x)).trans hrow
  · rw [State.dropRun, modCore_rdB, rdB_congr hcmem, hbut a ha, rdB_congr hnmem]
  · simp only [not_or] at ha
    rw [State.dropRun, modCore_reg, hcreg a (by simp only [passReg, not_or]; exact ⟨ha.2.1, ha.2.2.1⟩), hpreg, hnreg a ha.2.2.2]

theorem rArr_ne (c : CoreId) : rArr c ≠ rArrCheckFailCnt c.hall.val (arrIx c) ∧ rArr c ≠ rArrReexecCnt c.hall.val (arrIx c) := by
  unfold rArr rArrStatus rArrCheckFailCnt rArrReexecCnt
  omega

theorem fget_countC_other (s : State) (c : CoreId) {a b : Nat} (n : Nat) (f : Fd) (h : b ≠ a) : (s.countC c a n).fget b f = s.fget b f := by
  rw [State.fget, State.fget, reg_countC_other s c n h]

/-- A strike counted, with the pass's mismatch. -/
def State.strike (s : State) (c : CoreId) (rec : EvRec) (n : Nat) : State :=
  ((s.emit rec).fput (rArr c) fArrStatusStrikes n).countC c (rArrCheckFailCnt c.hall.val (arrIx c)) 1

/-- An array that reaches its second strike waits to be retired. -/
def State.retiring (s : State) (c : CoreId) (b : Bool) (rec : EvRec) : State :=
  if b then (s.fput (rArr c) fArrStatusRetirePend 1).emit rec else s

/-- A run that goes back into the array. -/
def State.again (s : State) (c : CoreId) (x : CoreS) : State := (s.setCore c x).countC c (rArrReexecCnt c.hall.val (arrIx c)) 1

theorem strike_fields (s : State) (c : CoreId) (rec : EvRec) {n : Nat} (hn : n < 256) : (s.strike c rec n).mem = s.mem ∧
    (s.strike c rec n).fget (rArr c) fArrStatusStrikes = n ∧
    ∀ a, a ≠ rArr c → a ≠ rArrCheckFailCnt c.hall.val (arrIx c) → (s.strike c rec n).reg a = s.reg a := by
  refine ⟨?_, ?_, fun a ha hb => ?_⟩
  · rw [State.strike, (countC_mem ..).1, fput_mem, emit_mem]
  · rw [State.strike, fget_countC_other _ _ _ _ (rArr_ne c).1, fget_fput_same _ _ _ _ (by decide) (by decide)]
    exact Nat.mod_eq_of_lt hn
  · rw [State.strike, reg_countC_other _ _ _ hb, reg_fput_other _ _ _ ha, emit_reg]

theorem retiring_fields (s : State) (c : CoreId) (b : Bool) (rec : EvRec) : (s.retiring c b rec).mem = s.mem ∧
    (s.retiring c b rec).fget (rArr c) fArrStatusStrikes = s.fget (rArr c) fArrStatusStrikes ∧
    ∀ a, a ≠ rArr c → (s.retiring c b rec).reg a = s.reg a := by
  unfold State.retiring
  cases b with
  | false => exact ⟨rfl, rfl, fun _ _ => rfl⟩
  | true =>
    rw [if_pos rfl]
    refine ⟨?_, ?_, fun a ha => ?_⟩
    · rw [emit_mem, fput_mem]
    · rw [emit_fget, fget_fput_above _ _ _ _ _ (by decide) (by decide) (by decide) (by decide)]
    · rw [emit_reg, reg_fput_other _ _ _ ha]

theorem again_fields (s : State) (c : CoreId) (x : CoreS) : (s.again c x).mem = s.mem ∧
    (s.again c x).fget (rArr c) fArrStatusStrikes = s.fget (rArr c) fArrStatusStrikes ∧
    ∀ a, a ≠ rArrReexecCnt c.hall.val (arrIx c) → (s.again c x).reg a = s.reg a := by
  refine ⟨?_, ?_, fun a ha => ?_⟩
  · rw [State.again, (countC_mem ..).1, setCore_mem]
  · rw [State.again, fget_countC_other _ _ _ _ (rArr_ne c).2, setCore_fget]
  · rw [State.again, reg_countC_other _ _ _ ha, setCore_reg]

theorem retiring_eq (t : State) (c : CoreId) (b : Bool) (rec : EvRec) : (if b then (if b then t.fput (rArr c) fArrStatusRetirePend 1 else t).emit rec
      else (if b then t.fput (rArr c) fArrStatusRetirePend 1 else t)) = t.retiring c b rec := by
  cases b with
  | false => simp only [State.retiring, Bool.false_eq_true, if_false]
  | true => simp only [State.retiring, if_true]

/-- The first mismatch of a run: one strike more, and the run goes back into the array. -/
theorem mismatch_first {s : State} {c : CoreId} {r : RunS} (v : Verdict) (hre : r.reexec = false) : ∃ rec b rec' x,
    s.mismatch c r v = ((s.strike c rec (min 255 (s.fget (rArr c) fArrStatusStrikes + 1))).retiring c b rec').again c x := by
  unfold State.mismatch
  extract_lets h a strikes pc rec_ retire s1 s2 rr s3 x run
  rw [if_neg (by rw [hre]; decide)]
  refine ⟨rec_.ofCtx (s.coreCtx c) false, retire, rr.ofCtx (s.coreCtx c) false, ?_, ?_⟩
  rotate_left
  · rw [← retiring_eq]
    exact rfl

theorem mismatch_fields (s : State) (c : CoreId) {r : RunS} (v : Verdict) (hre : r.reexec = false) : (s.mismatch c r v).mem = s.mem ∧
    (s.mismatch c r v).fget (rArr c) fArrStatusStrikes = min 255 (s.fget (rArr c) fArrStatusStrikes + 1) ∧
    ∀ a, a ≠ rArr c → a ≠ rArrCheckFailCnt c.hall.val (arrIx c) → a ≠ rArrReexecCnt c.hall.val (arrIx c) → (s.mismatch c r v).reg a = s.reg a := by
  obtain ⟨rec, b, rec', x, h⟩ := mismatch_first (s := s) (c := c) v hre
  obtain ⟨m1, f1, r1⟩ := strike_fields s c rec (n := min 255 (s.fget (rArr c) fArrStatusStrikes + 1)) (by omega)
  obtain ⟨m2, f2, r2⟩ := retiring_fields (s.strike c rec (min 255 (s.fget (rArr c) fArrStatusStrikes + 1))) c b rec'
  obtain ⟨m3, f3, r3⟩ := again_fields ((s.strike c rec (min 255 (s.fget (rArr c) fArrStatusStrikes + 1))).retiring c b rec') c x
  rw [h]
  exact ⟨m3.trans (m2.trans m1), f3.trans (f2.trans f1), fun a h1 h2 h3 => (r3 a h3).trans ((r2 a h1).trans (r1 a h1 h2))⟩

theorem runs_passCheck_mismatch {s : State} {c : CoreId} {r : RunS} {p : PassS} {upsets : List (BitVec 10 × BitVec 32)} (hruns : (s.core c).runs = [r])
    (hlist : r.list = [p]) (hc : r.checked = true) (hres : r.result = none) (hre : r.reexec = false) (hcc : s.cc < r.check) (hk : p.keep = false) :
    let y := upset (chainOut [p]) upsets
    let v := checkRun (s.fget (rArrCtxCfg c.hall.val (s.coreCtx c).val) fArrCtxCfgTolFactor) [p] y
    v.mismatch = true → Runs (.passCheck c upsets) s fun t => SameMem s t ∧
      t.fget (rArr c) fArrStatusStrikes = min 255 (s.fget (rArr c) fArrStatusStrikes + 1) ∧
      RegsBut (fun a => a = rArr c ∨ a = rArrCheckFailCnt c.hall.val (arrIx c) ∨ a = rArrReexecCnt c.hall.val (arrIx c) ∨
        a = rArrNonfiniteCnt c.hall.val (arrIx c)) s t := by
  intro y v hv
  obtain ⟨hnreg, hnmem, -⟩ := countNonfinite_keeps s c v
  obtain ⟨hmem, hst, hreg⟩ := mismatch_fields ((s.countNonfinite c v).dropRun c r) c v hre
  have hd (a : Nat) : ((s.countNonfinite c v).dropRun c r).reg a = (s.countNonfinite c v).reg a := modCore_reg ..
  have hn : rArr c ≠ rArrNonfiniteCnt c.hall.val (arrIx c) := by
    unfold rArr rArrStatus rArrNonfiniteCnt
    omega
  refine ⟨_, (passCheck_eq upsets hruns hlist hc hres hcc hk).trans (congrArg _ (if_pos hv)), fun a => ?_, ?_, fun a ha => ?_⟩
  · exact rdB_congr (hmem.trans ((modCore_mem ..).trans hnmem)) a
  · rw [hst, State.fget, hd, hnreg _ hn, ← State.fget]
  · simp only [not_or] at ha
    rw [hreg a ha.1 ha.2.1 ha.2.2.1, hd, hnreg a ha.2.2.2]

/-- Settles O28: by the run that a checked pass leaves waiting, and what its check does with it. -/
theorem checkedPasses : Obligations.CheckedPasses :=
  ⟨fun _ _ _ _ _ _ _ hr hf hn hcheck _ => runs_pass_checked hr hf hn hcheck, fun _ _ _ _ _ hruns hlist hc hres hre hcc hk =>
    ⟨runs_passCheck_match hruns hlist hc hres hcc hk, runs_passCheck_mismatch hruns hlist hc hres hre hcc hk⟩⟩

end Sys2Proof.Machine

/-! ## The stream engine: starts of descriptors and of Cellar frames (R121, R150, R151, R152, R249, R250) -/

namespace Sys2Proof.Machine

-- One proof at a time, as in Sys2Proof/Laws: each waiting proof would keep a thread and its stack.
set_option Elab.async false

/-! ### Entries of the descriptor list -/

/-- The registers that describe live descriptors of a core. -/
def entryReg (c : CoreId) (a : Nat) : Prop := ∃ i, a = rStrmEntry c i ∨ a = rStrmProgress c i

theorem rStrmStatus_not_entry (c : CoreId) : ¬ entryReg c (rStrmStatus c) := by
  rintro ⟨i, h⟩
  unfold rStrmStatus rStrmEntry rStrmProgress at h
  omega

theorem rCoreStatus_not_entry (c : CoreId) : ¬ entryReg c (rCoreStatus c) := by
  rintro ⟨i, h⟩
  unfold rCoreStatus rStrmEntry rStrmProgress at h
  omega

theorem rSc_not_entry {c : CoreId} {k : Nat} (hk : k < 48) : ¬ entryReg c (rSc c k) := by
  rintro ⟨i, h⟩
  unfold rSc rStrmEntry rStrmProgress at h
  omega

theorem rStrmStatus_ne_sent (c : CoreId) : rStrmStatus c ≠ rBellSentCnt c := by
  unfold rStrmStatus rBellSentCnt
  omega

theorem strm_addrs (c : CoreId) : rStrmStatus c ≠ rCelStatus c ∧ rCoreStatus c ≠ rStrmStatus c ∧ rCoreStatus c ≠ rCelStatus c := by
  unfold rStrmStatus rCelStatus rCoreStatus
  omega

/-- What no write of a register changes, compaction of the entry list leaves. -/
theorem shiftEntries_same {α : Type} (φ : State → α) (h : ∀ s a v, φ (State.setReg s a v) = φ s) (c : CoreId) (n : Nat) :
    ∀ (s : State) (e : Nat), φ (s.shiftEntries c n e) = φ s := by
  induction n with
  | zero => exact fun s e => by rw [State.shiftEntries, h, h]
  | succ n ih => exact fun s e => by rw [State.shiftEntries, ih, h, h]

theorem shiftEntries_reg (c : CoreId) {a : Nat} (ha : ¬ entryReg c a) (n : Nat) : ∀ (s : State) (e : Nat), (s.shiftEntries c n e).reg a = s.reg a := by
  have hne (e : Nat) : a ≠ rStrmEntry c e ∧ a ≠ rStrmProgress c e := ⟨fun h => ha ⟨e, .inl h⟩, fun h => ha ⟨e, .inr h⟩⟩
  induction n with
  | zero => exact fun s e => by rw [State.shiftEntries, reg_setReg_other _ _ (hne e).2, reg_setReg_other _ _ (hne e).1]
  | succ n ih => exact fun s e => by rw [State.shiftEntries, ih, reg_setReg_other _ _ (hne e).2, reg_setReg_other _ _ (hne e).1]

theorem cellarIdle_keeps (s : State) (c : CoreId) : (s.cellarIdle c).mem = s.mem ∧ (s.cellarIdle c).cores = s.cores ∧
    ∀ a, a ≠ rCelStatus c → (s.cellarIdle c).reg a = s.reg a := by
  unfold State.cellarIdle
  split
  · exact ⟨rfl, rfl, fun a _ => rfl⟩
  · exact ⟨fput_mem .., fput_cores .., fun a ha => reg_fput_other _ _ _ ha⟩

/-- The stream status once a descriptor has left the list, with the core's operations changed by `f`. -/
def State.strmLess (s : State) (c : CoreId) (f : CoreS → CoreS) (n reqs : Nat) : State :=
  let t := (s.fput (rStrmStatus c) fStrmStatusDescLive n).modCore c f
  t.fput (rStrmStatus c) fStrmStatusReqUsed (t.fget (rStrmStatus c) fStrmStatusReqUsed - reqs)

theorem strmLess_fields (s : State) (c : CoreId) (f : CoreS → CoreS) (n reqs : Nat) : (s.strmLess c f n reqs).mem = s.mem ∧
    (s.strmLess c f n reqs).core c = f (s.core c) ∧ (s.strmLess c f n reqs).descLive c = n % 128 ∧
    (s.strmLess c f n reqs).fget (rStrmStatus c) fStrmStatusLastFault = s.fget (rStrmStatus c) fStrmStatusLastFault ∧
    ∀ a, a ≠ rStrmStatus c → (s.strmLess c f n reqs).reg a = s.reg a := by
  refine ⟨?_, ?_, ?_, ?_, fun a ha => ?_⟩
  · rw [State.strmLess, fput_mem, modCore_mem, fput_mem]
  · rw [State.strmLess, fput_core, core_modCore_same, fput_core]
  · rw [State.descLive, State.strmLess, fget_fput_above _ _ _ _ _ (by decide) (by decide) (by decide) (by decide), modCore_fget,
      fget_fput_same _ _ _ _ (by decide) (by decide)]
    rfl
  · rw [State.strmLess, fget_fput_below _ _ _ _ _ (by decide) (by decide) (by decide) (by decide), modCore_fget,
      fget_fput_below _ _ _ _ _ (by decide) (by decide) (by decide) (by decide)]
  · rw [State.strmLess, reg_fput_other _ _ _ ha, modCore_reg, reg_fput_other _ _ _ ha]

theorem core_congr {s t : State} (h : t.cores = s.cores) (c : CoreId) : t.core c = s.core c := by rw [State.core, State.core, h]

theorem dropDesc_none {s : State} {c : CoreId} {e : Nat} (h : s.desc c e = none) : s.dropDesc c e = s := by
  rw [State.dropDesc, h]

/-- The registers of a descriptor's place in the list. -/
def listReg (c : CoreId) (a : Nat) : Prop := entryReg c a ∨ a = rStrmStatus c ∨ a = rCelStatus c

/-- What a descriptor that leaves the list leaves as it was. -/
theorem dropDesc_some {s : State} {c : CoreId} {e : Nat} {d : DescS} (h : s.desc c e = some d) : (s.dropDesc c e).mem = s.mem ∧
    (s.dropDesc c e).fget (rStrmStatus c) fStrmStatusLastFault = s.fget (rStrmStatus c) fStrmStatusLastFault ∧
    ((s.dropDesc c e).core c).descs = (s.core c).descs.eraseIdx e ∧ (s.dropDesc c e).descLive c = s.descLive c - 1 ∧
    ∀ a, ¬ listReg c a → (s.dropDesc c e).reg a = s.reg a := by
  obtain ⟨u, hu⟩ : ∃ u, u = (s.descsGone c fun x => x.id == d.id).shiftEntries c (s.descLive c - 1 - e) e := ⟨_, rfl⟩
  obtain ⟨v, hv⟩ : ∃ v, v = u.strmLess c (fun x => { x with descs := x.descs.eraseIdx e }) (s.descLive c - 1) d.reqs := ⟨_, rfl⟩
  obtain ⟨w, hw⟩ : ∃ w, w = (v.modCore c fun x => { x with outq := x.outq.filter fun r => r.desc != d.id, prefetch := x.prefetch.filter fun l => l.2 != d.id }).stageLeave c d.id :=
    ⟨_, rfl⟩
  have hdrop : s.dropDesc c e = w.cellarIdle c := by
    rw [State.dropDesc, h, hw, hv, hu]
    rfl
  obtain ⟨hgreg, hgmem, -⟩ := descsGone_keeps s c fun x => x.id == d.id
  have humem : u.mem = s.mem := by
    rw [hu, shiftEntries_same State.mem (fun _ _ _ => rfl), hgmem]
  have hucore : (u.core c).descs = (s.core c).descs := by
    rw [hu, shiftEntries_same (fun s => (s.core c).descs) (fun _ _ _ => rfl), State.descsGone]
    split
    · rfl
    · rw [core_modCore_same]
  have hureg (a : Nat) (ha : ¬ entryReg c a) : u.reg a = s.reg a := by
    rw [hu, shiftEntries_reg c ha, reg_congr hgreg]
  obtain ⟨hvmem, hvcore, hvlive, hvlast, hvreg⟩ := strmLess_fields u c (fun x => { x with descs := x.descs.eraseIdx e }) (s.descLive c - 1) d.reqs
  rw [← hv] at hvmem hvcore hvlive hvlast hvreg
  have hwreg (a : Nat) : w.reg a = v.reg a := by rw [hw, State.stageLeave, modCtx_reg, modCore_reg]
  obtain ⟨himem, hicores, hireg⟩ := cellarIdle_keeps w c
  have hstat : (w.cellarIdle c).reg (rStrmStatus c) = v.reg (rStrmStatus c) := (hireg _ (strm_addrs c).1).trans (hwreg _)
  rw [hdrop]
  refine ⟨?_, ?_, ?_, ?_, fun a ha => ?_⟩
  · rw [himem, hw, State.stageLeave, modCtx_mem, modCore_mem, hvmem, humem]
  · rw [State.fget, hstat, ← State.fget, hvlast, State.fget, hureg _ (rStrmStatus_not_entry c), ← State.fget]
  · rw [core_congr hicores, hw, State.stageLeave, modCtx_core, core_modCore_same]
    dsimp only
    rw [hvcore, hucore]
  · rw [State.descLive, State.fget, hstat, ← State.fget, ← State.descLive, hvlive]
    have : s.descLive c < 128 := Nat.mod_lt _ (by decide)
    omega
  · simp only [listReg, not_or] at ha
    rw [hireg a ha.2.2, hwreg, hvreg a ha.2.1, hureg a ha.1]

/-- A descriptor that leaves the list changes the list's registers alone. -/
theorem dropDesc_keeps (s : State) (c : CoreId) (e : Nat) : (s.dropDesc c e).mem = s.mem ∧
    (s.dropDesc c e).fget (rStrmStatus c) fStrmStatusLastFault = s.fget (rStrmStatus c) fStrmStatusLastFault ∧
    ((s.dropDesc c e).core c).descs = (s.core c).descs.eraseIdx e ∧ ∀ a, ¬ listReg c a → (s.dropDesc c e).reg a = s.reg a := by
  cases h : s.desc c e with
  | none =>
    rw [dropDesc_none h]
    exact ⟨rfl, rfl, (List.eraseIdx_of_length_le (List.getElem?_eq_none_iff.1 h)).symm, fun _ _ => rfl⟩
  | some d =>
    obtain ⟨hmem, hlast, hdescs, -, hreg⟩ := dropDesc_some h
    exact ⟨hmem, hlast, hdescs, hreg⟩

theorem rCoreStatus_not_list (c : CoreId) : ¬ listReg c (rCoreStatus c) := by
  rintro (h | h | h)
  · exact rCoreStatus_not_entry c h
  · exact (strm_addrs c).2.1 h
  · exact (strm_addrs c).2.2 h

theorem works_keeps (s : State) (c : CoreId) : (∀ a, (s.works c).reg a = s.reg a) ∧ (s.works c).mem = s.mem ∧
    ((s.works c).core c).descs = (s.core c).descs := by
  refine ⟨fun a => modCore_reg .., modCore_mem .., ?_⟩
  rw [State.works, core_modCore_same]

/-! ### Faults of descriptors -/

/-- A fault's code stands in CORE_STATUS and in STRM_STATUS. -/
def State.faultShows (s : State) (c : CoreId) (code : Nat) : Prop :=
  s.fget (rCoreStatus c) fCoreStatusFault = code ∧ s.fget (rStrmStatus c) fStrmStatusLastFault = code

theorem descFault_shows (s : State) (c : CoreId) (r : EvRec) (hr : r.code < 2 ^ 16) : (s.descFault c r).faultShows c r.code := by
  refine ⟨?_, ?_⟩
  · rw [State.descFault, fget_fput_other _ _ _ _ (strm_addrs c).2.1, fault_faultCore _ _ _ hr]
  · rw [State.descFault, fget_fput_same _ _ _ _ (by decide) (by decide)]
    exact Nat.mod_eq_of_lt hr

theorem faultShows_dropDesc {s : State} {c : CoreId} {code : Nat} (h : s.faultShows c code) (e : Nat) : (s.dropDesc c e).faultShows c code := by
  obtain ⟨-, hlast, -, hreg⟩ := dropDesc_keeps s c e
  exact ⟨by rw [State.fget, hreg _ (rCoreStatus_not_list c)]; exact h.1, hlast.trans h.2⟩

theorem faultShows_works {s : State} {c : CoreId} {code : Nat} (h : s.faultShows c code) : (s.works c).faultShows c code := by
  obtain ⟨hreg, -, -⟩ := works_keeps s c
  exact ⟨by rw [State.fget, hreg]; exact h.1, by rw [State.fget, hreg]; exact h.2⟩

theorem descRefuse_shows (s : State) (c : CoreId) (e : Nat) {code : Nat} (hc : code < 2 ^ 16) : (s.descRefuse c e code).faultShows c code :=
  faultShows_dropDesc (descFault_shows s c _ hc) e

/-! ### The end of a descriptor -/

/-- A completion target that has a counter names one of the core's 48. -/
theorem parseDesc_ctId {b : Bytes} (h : (parseDesc b).descBad = false) (hk : (parseDesc b).ctKind = 1) : (parseDesc b).ctId < 48 := by
  have hbad : (parseDesc b).bad = false := (Bool.or_eq_false_iff.1 (Bool.or_eq_false_iff.1 h).1).1
  have := (Bool.or_eq_false_iff.1 hbad).2
  rw [show bitsN (leAt b 58 2) 15 14 = 1 from hk] at this
  show bitsN (leAt b 58 2) 13 0 < 48
  simpa using this

/-- A post of nothing changes no register but the bell-wire counter, and no memory. -/
theorem descPost_nothing (s : State) (c : CoreId) (d : DescP) (hk : d.ctKind = 1 → d.ctId < 48) : (s.descPost c d 0).mem = s.mem ∧
    ((s.descPost c d 0).core c).descs = (s.core c).descs ∧ ∀ a, a ≠ rBellSentCnt c → (s.descPost c d 0).reg a = s.reg a := by
  unfold State.descPost
  split
  · rename_i h
    refine ⟨ctPost_mem .., core_ctPost_keeps CoreS.descs (fun _ => rfl) s c c d.ctId 0, fun a _ => ?_⟩
    rw [State.ctPost, if_pos (hk h)]
    exact sameRegs_scAdd_zero s c d.ctId a
  · exact ⟨bellFrom_mem .., by rw [bellFrom_core], fun a ha => (reg_count_other _ _ ha).trans (bellAt_reg ..)⟩
  · exact ⟨rfl, rfl, fun _ _ => rfl⟩

/-- STATUS written and the entry removed: what is left of a descriptor's end is its post. -/
def State.descOut (s : State) (c : CoreId) (e st : Nat) : State :=
  (s.wrStore c (64 * s.entFld c e fStrmEntryDescIdx + 62) (natBytes 2 st)).dropDesc c e

theorem descOut_fields (s : State) (c : CoreId) (e st : Nat) : let off := 64 * s.entFld c e fStrmEntryDescIdx
    (s.descOut c e st).rdStore c (off + 62) 2 = natBytes 2 st ∧ MemBut (coreBase c + off + 62) 2 s (s.descOut c e st) ∧
      ((s.descOut c e st).core c).descs = (s.core c).descs.eraseIdx e ∧ RegsBut (listReg c) s (s.descOut c e st) ∧
      ∀ d, s.desc c e = some d → (s.descOut c e st).descLive c = s.descLive c - 1 := by
  intro off
  obtain ⟨u, hu⟩ : ∃ u, u = s.wrStore c (off + 62) (natBytes 2 st) := ⟨_, rfl⟩
  obtain ⟨hmem, -, hdescs, hreg⟩ := dropDesc_keeps u c e
  have hcore : u.core c = s.core c := by rw [hu, State.wrStore, wrBytes_core]
  have hureg (a : Nat) : u.reg a = s.reg a := by rw [hu, State.wrStore, wrBytes_reg]
  have hout : s.descOut c e st = u.dropDesc c e := by rw [hu, State.descOut]
  rw [hout]
  refine ⟨?_, fun a ha => ?_, ?_, fun a ha => (hreg a ha).trans (hureg a), fun d hd => ?_⟩
  · rw [State.rdStore, rdBytes_congr fun a _ _ => rdB_congr hmem a, hu]
    exact rdBytes_wrBytes s _ (natBytes 2 st)
  · rw [rdB_congr hmem, hu]
    exact rdB_wrBytes_other _ _ _ _ (by rw [show (natBytes 2 st).length = 2 from rfl, ← Nat.add_assoc]; omega)
  · rw [hdescs, hcore]
  · have hdesc : u.desc c e = some d := by rw [State.desc, hcore, ← State.desc, hd]
    rw [(dropDesc_some hdesc).2.2.2.1, State.descLive, State.fget, hureg]
    rfl

/-! ### DESCRIPTOR_START -/

theorem runs_descriptorStart {P : State → Prop} {s : State} {c : CoreId} {e : Nat} (hr : s.run c = true) (hn : s.nextStart c = some e)
    (h : P (s.startDesc c e)) : Runs (.descriptorStart c) s P := by
  refine ⟨s.startDesc c e, ?_, h⟩
  show execDescriptorStart c s = _
  rw [execDescriptorStart, hn]
  exact congrArg Host.Outcome.next (if_pos hr)

/-- The descriptor that starts next stands in the list. -/
theorem nextStart_live {s : State} {c : CoreId} {e : Nat} (h : s.nextStart c = some e) : ∃ x, s.desc c e = some x := by
  have hlt : e < (s.core c).descs.length := by
    unfold State.nextStart at h
    extract_lets ds at h
    cases hf : (List.range ds.length).find? fun e => ((ds[e]?).bind DescS.bytes).isNone with
    | none => simp [hf] at h
    | some i =>
      rw [hf] at h
      have hi := List.mem_range.1 (List.mem_of_find?_eq_some hf)
      simp only [Option.ite_none_left_eq_some, Option.some.injEq] at h
      exact h.2 ▸ hi
  exact ⟨_, List.getElem?_eq_getElem hlt⟩

/-- The branches of a start. -/
theorem startDesc_cases (s : State) (c : CoreId) (e : Nat) : let b := s.rdStore c (64 * s.entFld c e fStrmEntryDescIdx) 64
    let d := parseDesc b
    (d.descBad = true → s.startDesc c e = (s.descRefuse c e 0x100D).works c) ∧
    (d.descBad = false → d.zero = true → s.startDesc c e = (s.descEnd c e d true).works c) ∧
    (d.descBad = false → d.zero = false → d.formatBad = true → s.startDesc c e = (s.descRefuse c e 0x1009).works c) ∧
    (d.descBad = false → d.zero = false → d.formatBad = false → d.cellar = false → s.startDesc c e = (s.startPlain c e b d).works c) ∧
    (d.descBad = false → d.zero = false → d.formatBad = false → d.cellar = true → s.dirFree c d.isFill = true →
      s.startDesc c e = (if d.isFill then s.startFill c e b d else s.startDrain c e b d).works c) := by
  intro b d
  have no {x : Bool} (h : x = false) : ¬ x = true := Bool.not_eq_true _ ▸ h
  refine ⟨fun h1 => if_pos h1, fun h1 h2 => (if_neg (no h1)).trans (if_pos h2), fun h1 h2 h3 => (if_neg (no h1)).trans ((if_neg (no h2)).trans (if_pos h3)),
    fun h1 h2 h3 h4 => (if_neg (no h1)).trans ((if_neg (no h2)).trans ((if_neg (no h3)).trans (if_pos (by rw [h4]; rfl)))), fun h1 h2 h3 h4 h5 => ?_⟩
  exact (if_neg (no h1)).trans ((if_neg (no h2)).trans ((if_neg (no h3)).trans ((if_neg (by rw [h4]; decide)).trans (if_neg (by rw [h5]; decide)))))

theorem startDesc_zero {s : State} {c : CoreId} {e : Nat} {x : DescS} (hx : s.desc c e = some x) :
    let off := 64 * s.entFld c e fStrmEntryDescIdx
    let d := parseDesc (s.rdStore c off 64)
    d.descBad = false → let t := (s.descEnd c e d true).works c
      t.rdStore c (off + 62) 2 = natBytes 2 0xC000 ∧ MemBut (coreBase c + off + 62) 2 s t ∧
      t.descLive c = s.descLive c - 1 ∧ (t.core c).descs.length + 1 = (s.core c).descs.length ∧
      RegsBut (fun a => (∃ i, a = rStrmEntry c i ∨ a = rStrmProgress c i) ∨ a = rStrmStatus c ∨ a = rCelStatus c ∨ a = rSc c d.ctId ∨
        a = rBellSentCnt c) s t := by
  intro off d hbad t
  obtain ⟨u, hu⟩ : ∃ u, u = s.descOut c e 0xC000 := ⟨_, rfl⟩
  have ht : t = (u.descPost c d 0).works c := by rw [hu]; rfl
  obtain ⟨hstat, hmem, hdescs, hreg, hlive⟩ := descOut_fields s c e 0xC000
  rw [← hu] at hstat hmem hdescs hreg hlive
  obtain ⟨hpmem, hpdescs, hpreg⟩ := descPost_nothing u c d (parseDesc_ctId hbad)
  obtain ⟨hwreg, hwmem, hwdescs⟩ := works_keeps (u.descPost c d 0) c
  have hread (a : Nat) : t.rdB a = u.rdB a := by rw [ht, rdB_congr hwmem, rdB_congr hpmem]
  have hlt : e < (s.core c).descs.length := (List.getElem?_eq_some_iff.1 hx).1
  refine ⟨(rdBytes_congr fun a _ _ => hread a).trans hstat, fun a ha => (hread a).trans (hmem a ha), ?_, ?_, fun a ha => ?_⟩
  · rw [ht, State.descLive, State.fget, hwreg, hpreg _ (rStrmStatus_ne_sent c)]
    exact hlive x hx
  · rw [ht, hwdescs, hpdescs, hdescs, List.length_eraseIdx_of_lt hlt]
    omega
  · rw [not_or, not_or, not_or, not_or] at ha
    rw [ht, hwreg, hpreg _ ha.2.2.2.2]
    exact hreg a fun h => h.elim ha.1 fun h => h.elim ha.2.1 ha.2.2.1

/-! ### A plain descriptor starts -/

/-- Two states that differ in what no register, no byte and no descriptor's bytes show. -/
def SameStarts (s t : State) : Prop := SameRegs s t ∧ SameMem s t ∧ ∀ c e, (t.desc c e).bind DescS.bytes = (s.desc c e).bind DescS.bytes

theorem SameStarts.trans {s t u : State} (h1 : SameStarts s t) (h2 : SameStarts t u) : SameStarts s u :=
  ⟨fun a => (h2.1 a).trans (h1.1 a), fun a => (h2.2.1 a).trans (h1.2.1 a), fun c e => (h2.2.2 c e).trans (h1.2.2 c e)⟩

theorem sameStarts_modCtx (s : State) (k : Nat) (f : CtxS → CtxS) : SameStarts s (s.modCtx k f) :=
  ⟨fun a => modCtx_reg .., fun a => modCtx_rdB .., fun c e => by rw [State.desc, modCtx_core, ← State.desc]⟩

theorem desc_modDesc_same (s : State) (c : CoreId) (e : Nat) (f : DescS → DescS) : (s.modDesc c e f).desc c e = (s.desc c e).map f := by
  rw [State.modDesc, State.desc, core_modCore_same, State.desc, List.getElem?_modify_eq]
  rfl

theorem sameStarts_modDesc (s : State) (c : CoreId) (e : Nat) {f : DescS → DescS} (hf : ∀ x, (f x).bytes = x.bytes) : SameStarts s (s.modDesc c e f) := by
  refine ⟨fun a => modCore_reg .., fun a => modCore_rdB .., fun d i => ?_⟩
  by_cases hd : d = c
  · subst hd
    rw [State.desc, State.modDesc, core_modCore_same, State.desc]
    dsimp only
    rw [List.getElem?_modify]
    cases (s.core d).descs[i]? with
    | none => rfl
    | some x =>
      by_cases hi : e = i
      · simp [hi, hf]
      · simp [hi]
  · rw [State.desc, State.modDesc, core_modCore_other _ _ hd, ← State.desc]

theorem sameStarts_stageTake (s : State) (c : CoreId) (e : Nat) : SameStarts s (s.stageTake c e) := by
  unfold State.stageTake
  split
  · split
    · exact sameStarts_modDesc _ _ _ fun _ => rfl
    · exact ⟨fun _ => rfl, fun _ => rfl, fun _ _ => rfl⟩
  · exact ⟨fun _ => rfl, fun _ => rfl, fun _ _ => rfl⟩

/-- The entry of a plain descriptor as it starts. -/
def State.begun (s : State) (c : CoreId) (e : Nat) (b : Bytes) (d : DescP) : State :=
  ((s.fput (rStrmEntry c e) fStrmEntryPhase (if d.runKind (coreBase c) = .staged then 1 else 2)).fput (rStrmEntry c e) fStrmEntryDesc
    (bton (decide (d.runKind (coreBase c) = .down)))).modDesc c e fun x =>
      { x with bytes := some b, idx := some (s.indices c d), staged := d.runKind (coreBase c) = .staged, waiting := d.runKind (coreBase c) = .staged }

theorem startPlain_refuse {s : State} {c : CoreId} (e : Nat) (b : Bytes) {d : DescP} (h : d.runKind (coreBase c) = .refuse) :
    s.startPlain c e b d = s.descRefuse c e 0x1003 := by
  rw [State.startPlain, h]

/-- Which descriptor has the staging area, or waits for it, shows in no register and no byte. -/
theorem startPlain_begun {s : State} {c : CoreId} (e : Nat) (b : Bytes) {d : DescP} (h : d.runKind (coreBase c) ≠ .refuse) (hidx : d.idxSide = 0) :
    SameStarts (s.begun c e b d) (s.startPlain c e b d) := by
  have hno : ¬ (d.idxSide ≠ 0 ∧ (!d.idxOk (s.indices c d) 0) = true) := fun h => h.1 hidx
  unfold State.startPlain State.begun
  cases hk : d.runKind (coreBase c) with
  | refuse => exact absurd hk h
  | normal =>
    dsimp only
    rw [if_neg hno]
    exact ⟨fun _ => rfl, fun _ => rfl, fun _ _ => rfl⟩
  | down =>
    dsimp only
    rw [if_neg hno]
    exact ⟨fun _ => rfl, fun _ => rfl, fun _ _ => rfl⟩
  | staged =>
    dsimp only
    rw [if_neg hno]
    simp only [decide_true, if_true]
    generalize State.modDesc _ _ _ _ = u
    split
    · split
      · exact SameStarts.trans (sameStarts_modCtx ..) (sameStarts_stageTake ..)
      · split
        · split
          · refine SameStarts.trans ?_ (sameStarts_stageTake ..)
            refine SameStarts.trans ?_ (sameStarts_modCtx ..)
            exact sameStarts_modDesc _ _ _ fun _ => rfl
          · exact sameStarts_modCtx ..
        · exact sameStarts_modCtx ..
    · exact ⟨fun _ => rfl, fun _ => rfl, fun _ _ => rfl⟩

theorem begun_fields {s : State} {c : CoreId} {e : Nat} {x : DescS} (b : Bytes) (d : DescP) (hx : s.desc c e = some x) : let t := s.begun c e b d
    t.entFld c e fStrmEntryPhase = (if d.runKind (coreBase c) = .staged then 1 else 2) ∧
    t.entFld c e fStrmEntryDesc = (if d.runKind (coreBase c) = .down then 1 else 0) ∧ (t.desc c e).bind DescS.bytes = some b ∧
    RegsBut (· = rStrmEntry c e) s t ∧ SameMem s t := by
  intro t
  refine ⟨?_, ?_, ?_, fun a ha => ?_, fun a => ?_⟩
  · rw [State.entFld]
    show State.fget (State.modDesc _ _ _ _) _ _ = _
    rw [State.modDesc, modCore_fget, fget_fput_above _ _ _ _ _ (by decide) (by decide) (by decide) (by decide),
      fget_fput_same _ _ _ _ (by decide) (by decide)]
    split <;> rfl
  · rw [State.entFld]
    show State.fget (State.modDesc _ _ _ _) _ _ = _
    rw [State.modDesc, modCore_fget, fget_fput_same _ _ _ _ (by decide) (by decide)]
    by_cases h : d.runKind (coreBase c) = .down <;> simp [h, bton, Fd.size, fStrmEntryDesc]
  · show (State.desc (State.modDesc _ _ _ _) _ _).bind _ = _
    rw [desc_modDesc_same, State.desc, fput_core, fput_core, ← State.desc, hx]
    rfl
  · show State.reg (State.modDesc _ _ _ _) _ = _
    rw [State.modDesc, modCore_reg, reg_fput_other _ _ _ ha, reg_fput_other _ _ _ ha]
  · show State.rdB (State.modDesc _ _ _ _) _ = _
    rw [State.modDesc, modCore_rdB, fput_rdB, fput_rdB]

theorem sameStarts_works (s : State) (c : CoreId) : SameStarts s (s.works c) := by
  refine ⟨fun a => modCore_reg .., fun a => modCore_rdB .., fun d e => ?_⟩
  by_cases hd : d = c
  · subst hd
    rw [State.desc, State.works, core_modCore_same, State.desc]
  · rw [State.desc, State.works, core_modCore_other _ _ hd, ← State.desc]

/-- Settles O39: by the branches of a start. -/
theorem descriptorStarts : Obligations.DescriptorStarts := by
  intro s c e hr hn off b d faults
  obtain ⟨x, hx⟩ := nextStart_live hn
  obtain ⟨hdesc, hzero, hfmt, hplain, -⟩ := startDesc_cases s c e
  refine ⟨fun h1 => runs_descriptorStart hr hn ?_, fun h1 h2 => runs_descriptorStart hr hn ?_, fun h1 h2 h3 => runs_descriptorStart hr hn ?_,
    fun h1 h2 h3 h4 h5 => runs_descriptorStart hr hn ?_, fun h1 h2 h3 h4 h5 h6 => runs_descriptorStart hr hn ?_⟩
  · rw [hdesc h1]
    exact faultShows_works (descRefuse_shows s c e (by decide))
  · rw [hzero h1 h2]
    exact startDesc_zero hx h1
  · rw [hfmt h1 h2 h3]
    exact faultShows_works (descRefuse_shows s c e (by decide))
  · rw [hplain h1 h2 h3 h4, startPlain_refuse e _ h5]
    exact faultShows_works (descRefuse_shows s c e (by decide))
  · rw [hplain h1 h2 h3 h4]
    obtain ⟨hregs, hmem, hbytes⟩ := (startPlain_begun e b h6 h5).trans (sameStarts_works _ c)
    obtain ⟨hphase, hdown, hb, hreg, hm⟩ := begun_fields b d hx
    refine ⟨?_, ?_, (hbytes c e).trans hb, fun a ha => (hregs a).trans (hreg a ha), fun a => (hmem a).trans (hm a)⟩
    · exact (congrArg _ (hregs _)).trans hphase
    · exact (congrArg _ (hregs _)).trans hdown

end Sys2Proof.Machine

/-! ## The Cellar: frames pushed and popped (R249, R250) -/

namespace Sys2Proof.Machine

-- One proof at a time, as in Sys2Proof/Laws: each waiting proof would keep a thread and its stack.
set_option Elab.async false

/-- The registers of the Cellar and an entry of the list are apart. -/
theorem cel_addrs (c : CoreId) {e : Nat} (he : e < 64) : rCelTop c ≠ rCelStatus c ∧ rCelTop c ≠ rCelPeak c ∧ rCelStatus c ≠ rCelPeak c ∧
    rCelTop c ≠ rStrmEntry c e ∧ rCelStatus c ≠ rStrmEntry c e := by
  unfold rCelTop rCelStatus rCelPeak rStrmEntry
  omega

/-- A frame is a whole number of lines. -/
theorem frameLen_mod (d : DescP) : d.frameLen % 128 = 0 := by
  rw [DescP.frameLen]
  omega

theorem celPeak_keeps (s : State) (c : CoreId) : (s.celPeak c).mem = s.mem ∧ ∀ a, a ≠ rCelPeak c → (s.celPeak c).reg a = s.reg a := by
  unfold State.celPeak
  split
  · exact ⟨fput_mem .., fun a ha => reg_fput_other _ _ _ ha⟩
  · exact ⟨rfl, fun a _ => rfl⟩

/-- The Cellar's registers once its top, frame count and direction have changed. -/
def State.celMoved (s : State) (c : CoreId) (top n dir : Nat) : State :=
  ((s.fput (rCelTop c) fCelTopTop (top / 128)).fput (rCelStatus c) fCelStatusFrames n).fput (rCelStatus c) fCelStatusDir dir

theorem celMoved_fields (s : State) (c : CoreId) {top n dir : Nat} (ht : top % 128 = 0) (hlt : top < 2 ^ 48) (hd : dir < 4) :
    128 * (s.celMoved c top n dir).fget (rCelTop c) fCelTopTop = top ∧ (s.celMoved c top n dir).fget (rCelStatus c) fCelStatusFrames = n % 65536 ∧
    (s.celMoved c top n dir).fget (rCelStatus c) fCelStatusDir = dir ∧ (s.celMoved c top n dir).mem = s.mem ∧
    ∀ a, a ≠ rCelTop c → a ≠ rCelStatus c → (s.celMoved c top n dir).reg a = s.reg a := by
  have hne := (cel_addrs c (e := 0) (by decide)).1
  refine ⟨?_, ?_, ?_, ?_, fun a h1 h2 => ?_⟩
  · rw [State.celMoved, fget_fput_other _ _ _ _ hne, fget_fput_other _ _ _ _ hne, fget_fput_same _ _ _ _ (by decide) (by decide),
      show fCelTopTop.size = 2 ^ 41 from rfl]
    omega
  · rw [State.celMoved, fget_fput_above _ _ _ _ _ (by decide) (by decide) (by decide) (by decide),
      fget_fput_same _ _ _ _ (by decide) (by decide)]
    rfl
  · rw [State.celMoved, fget_fput_same _ _ _ _ (by decide) (by decide)]
    exact Nat.mod_eq_of_lt hd
  · rw [State.celMoved, fput_mem, fput_mem, fput_mem]
  · rw [State.celMoved, reg_fput_other _ _ _ h2, reg_fput_other _ _ _ h2, reg_fput_other _ _ _ h1]

/-- A Cellar descriptor has moved the top of the Cellar and goes on in phase 2. -/
def CelMoved (s : State) (c : CoreId) (e top n dir : Nat) (t : State) : Prop :=
  128 * t.fget (rCelTop c) fCelTopTop = top ∧ t.fget (rCelStatus c) fCelStatusFrames = n ∧ t.fget (rCelStatus c) fCelStatusDir = dir ∧
    t.entFld c e fStrmEntryPhase = 2 ∧ RegsBut (fun a => a = rCelTop c ∨ a = rCelStatus c ∨ a = rCelPeak c ∨ a = rStrmEntry c e) s t ∧ SameMem s t

/-- The Cellar's change stands behind what the start does to the list, to the peak and to the engine. -/
theorem celMoved_starts {s u : State} {c : CoreId} {e top n dir : Nat} (f : DescS → DescS) (he : e < 64) (ht : top % 128 = 0) (hlt : top < 2 ^ 48) (hd : dir < 4)
    (hmem : u.mem = (s.celMoved c top n dir).mem) (hu : ∀ a, a ≠ rCelPeak c → u.reg a = (s.celMoved c top n dir).reg a) :
    CelMoved s c e top (n % 65536) dir (((u.fput (rStrmEntry c e) fStrmEntryPhase 2).modDesc c e f).works c) := by
  obtain ⟨h1, h2, h3, hm, hr⟩ := celMoved_fields s c (n := n) ht hlt hd
  obtain ⟨-, htp, hsp, hte, hse⟩ := cel_addrs c he
  have hreg (a : Nat) : (((u.fput (rStrmEntry c e) fStrmEntryPhase 2).modDesc c e f).works c).reg a = (u.fput (rStrmEntry c e) fStrmEntryPhase 2).reg a :=
    (modCore_reg ..).trans (modCore_reg ..)
  have hcel {a : Nat} (fd : Fd) (hp : a ≠ rCelPeak c) (hae : a ≠ rStrmEntry c e) :
      (((u.fput (rStrmEntry c e) fStrmEntryPhase 2).modDesc c e f).works c).fget a fd = (s.celMoved c top n dir).fget a fd := by
    rw [State.fget, hreg, reg_fput_other _ _ _ hae, hu a hp, ← State.fget]
  refine ⟨(congrArg (128 * ·) (hcel _ htp hte)).trans h1, (hcel _ hsp hse).trans h2, (hcel _ hsp hse).trans h3, ?_, fun a ha => ?_, fun a => ?_⟩
  · rw [State.entFld, State.fget, hreg, ← State.fget, fget_fput_same _ _ _ _ (by decide) (by decide)]
    rfl
  · rw [not_or, not_or, not_or] at ha
    rw [hreg, reg_fput_other _ _ _ ha.2.2.2, hu a ha.2.2.1, hr a ha.1 ha.2.1]
  · refine rdB_congr (Eq.trans ?_ (hmem.trans hm)) a
    exact (modCore_mem ..).trans ((modCore_mem ..).trans (fput_mem ..))

theorem startFill_pushes {s : State} {c : CoreId} {e : Nat} {b : Bytes} {d : DescP} (he : e < 64)
    (h : 128 * s.fget (rCelTop c) fCelTopTop + d.frameLen ≤ 4096 * s.fget (rCelLimit c) fCelLimitLimit) :
    CelMoved s c e (128 * s.fget (rCelTop c) fCelTopTop + d.frameLen) ((s.fget (rCelStatus c) fCelStatusFrames + 1) % 65536) 1 ((s.startFill c e b d).works c) := by
  have hlim : s.fget (rCelLimit c) fCelLimitLimit < 2 ^ 36 := Nat.mod_lt _ (by decide)
  have hf := frameLen_mod d
  have hcomm : s.fget (rCelTop c) fCelTopTop * 128 = 128 * s.fget (rCelTop c) fCelTopTop := Nat.mul_comm ..
  unfold State.startFill
  extract_lets top n f pc s1
  obtain ⟨hpmem, hpreg⟩ := celPeak_keeps (s.celMoved c (top + f) (n + 1) 1) c
  have hs1 : s1 = (s.celMoved c (top + f) (n + 1) 1).celPeak c := rfl
  have := celMoved_starts (e := e) (fun x => { x with bytes := some b, idx := some [], frame := some (top, top, n) }) he (by omega) (by omega)
    (by decide) hpmem hpreg
  rw [if_neg (by omega), hs1, ← hcomm]
  exact this

theorem startFill_full {s : State} {c : CoreId} {e : Nat} {b : Bytes} {d : DescP}
    (h : 4096 * s.fget (rCelLimit c) fCelLimitLimit < 128 * s.fget (rCelTop c) fCelTopTop + d.frameLen) :
    (s.startFill c e b d).faultShows c 0x3007 := by
  unfold State.startFill
  extract_lets top n f pc s1
  rw [if_pos (by omega)]
  exact faultShows_dropDesc (descFault_shows s c _ (show (0x3007 : Nat) < 2 ^ 16 by decide)) e

theorem startDrain_pops {s : State} {c : CoreId} {e : Nat} {b : Bytes} {d : DescP} (he : e < 64) (hn : s.fget (rCelStatus c) fCelStatusFrames ≠ 0)
    (h : 4096 * s.fget (rCelBase c) fCelBaseBase + d.frameLen ≤ 128 * s.fget (rCelTop c) fCelTopTop) :
    CelMoved s c e (128 * s.fget (rCelTop c) fCelTopTop - d.frameLen) (s.fget (rCelStatus c) fCelStatusFrames - 1) 2 ((s.startDrain c e b d).works c) := by
  have htop : s.fget (rCelTop c) fCelTopTop < 2 ^ 41 := Nat.mod_lt _ (by decide)
  have hfr : s.fget (rCelStatus c) fCelStatusFrames < 65536 := Nat.mod_lt _ (by decide)
  have hf := frameLen_mod d
  have hcomm : s.fget (rCelTop c) fCelTopTop * 128 = 128 * s.fget (rCelTop c) fCelTopTop := Nat.mul_comm ..
  unfold State.startDrain
  extract_lets top n f s1
  rw [if_neg (by omega), ← hcomm]
  have := celMoved_starts (s := s) (u := s1) (c := c) (e := e) (top := top - f) (n := n - 1) (dir := 2)
    (fun x => { x with bytes := some b, idx := some [], frame := some (top - f, top, n) }) he (by omega) (by omega) (by decide) rfl fun _ _ => rfl
  rwa [Nat.mod_eq_of_lt (by omega)] at this

theorem startDrain_empty {s : State} {c : CoreId} {e : Nat} {b : Bytes} {d : DescP}
    (h : s.fget (rCelStatus c) fCelStatusFrames = 0 ∨ 128 * s.fget (rCelTop c) fCelTopTop < 4096 * s.fget (rCelBase c) fCelBaseBase + d.frameLen) :
    (s.startDrain c e b d).faultShows c 0x3008 := by
  unfold State.startDrain
  extract_lets top n f s1
  rw [if_pos (by omega)]
  exact descRefuse_shows s c e (by decide)

theorem runs_cellarFill {P : State → Prop} {s : State} {c : CoreId} {e : BitVec 6} (hr : s.run c = true) (hn : s.nextStart c = some e.toNat)
    (hfill : (parseDesc (s.rdStore c (64 * s.entFld c e.toNat fStrmEntryDescIdx) 64)).isFill = true) (h : P (s.startDesc c e.toNat)) :
    Runs (.cellarFillStart c e) s P :=
  ⟨_, congrArg Host.Outcome.next (if_pos (by rw [hr, hn, hfill]; simp)), h⟩

theorem runs_cellarDrain {P : State → Prop} {s : State} {c : CoreId} {e : BitVec 6} (hr : s.run c = true) (hn : s.nextStart c = some e.toNat)
    (hcel : (parseDesc (s.rdStore c (64 * s.entFld c e.toNat fStrmEntryDescIdx) 64)).cellar = true)
    (hfill : (parseDesc (s.rdStore c (64 * s.entFld c e.toNat fStrmEntryDescIdx) 64)).isFill = false) (h : P (s.startDesc c e.toNat)) :
    Runs (.cellarDrainStart c e) s P :=
  ⟨_, congrArg Host.Outcome.next (if_pos (by rw [hr, hn, hcel, hfill]; simp)), h⟩

/-- Settles O40: by the fill and the drain that a start makes. -/
theorem cellarStarts : Obligations.CellarStarts := by
  intro s c e hr hn d top n f h1 h2 h3 h4 h5 moved
  have he : e.toNat < 64 := e.isLt
  obtain ⟨-, -, -, -, hcel⟩ := startDesc_cases s c e.toNat
  have hstart := hcel h1 h2 h3 h4 h5
  refine ⟨fun hf hle => runs_cellarFill hr hn hf ?_, fun hf hlt => runs_cellarFill hr hn hf ?_, fun hf hn0 hle => runs_cellarDrain hr hn h4 hf ?_,
    fun hf hor => runs_cellarDrain hr hn h4 hf ?_⟩
  · rw [hstart, if_pos hf]
    exact startFill_pushes he hle
  · rw [hstart, if_pos hf]
    exact (faultShows_works (startFill_full hlt)).1
  · rw [hstart, if_neg (by rw [hf]; decide)]
    exact startDrain_pops he hn0 hle
  · rw [hstart, if_neg (by rw [hf]; decide)]
    exact (faultShows_works (startDrain_empty hor)).1

end Sys2Proof.Machine

/-! ## The life of a descriptor: completion, timeout, staging, tag checks and table walks (R43, R121, R122, R153, R209, R210, R250) -/

namespace Sys2Proof.Machine

-- One proof at a time, as in Sys2Proof/Laws: each waiting proof would keep a thread and its stack.
set_option Elab.async false

/-! ### What the stack caches leave of the state -/

/-- The state apart from the stacks and the registers. -/
def State.offStacks (s : State) : (List Host.Cell × List Nat) × List (Nat × CoreS) × List (Nat × CtxS) × Nat × Nat × Nat :=
  ((s.mem, s.poison), s.cores, s.ctxs, s.now, s.cc, s.slot)

theorem offStacks_count (s : State) (a n : Nat) : (s.count a n).offStacks = s.offStacks := rfl

theorem offStacks_modStack (s : State) (k : Nat) (f : StackS → StackS) : (s.modStack k f).offStacks = s.offStacks := rfl

/-- Only registers of `A`, and the stacks, differ. -/
def StackStep (A : Nat → Prop) (s t : State) : Prop := RegsBut A s t ∧ t.offStacks = s.offStacks

theorem StackStep.refl (A : Nat → Prop) (s : State) : StackStep A s s := ⟨fun _ _ => rfl, rfl⟩

theorem StackStep.trans {A : Nat → Prop} {s t u : State} (h1 : StackStep A s t) (h2 : StackStep A t u) : StackStep A s u :=
  ⟨fun a ha => (h2.1 a ha).trans (h1.1 a ha), h2.2.trans h1.2⟩

theorem stackStep_modStack (A : Nat → Prop) (s : State) (k : Nat) (f : StackS → StackS) : StackStep A s (s.modStack k f) :=
  ⟨fun _ _ => modStack_reg .., rfl⟩

theorem stackStep_count {A : Nat → Prop} (s : State) {a : Nat} (n : Nat) (ha : A a) : StackStep A s (s.count a n) :=
  ⟨fun _ hb => reg_count_other _ _ fun h => hb (h ▸ ha), rfl⟩

/-- The counters of stack `k` that a line's use can change. -/
def lineReg (k a : Nat) : Prop := ∃ r ∈ [rStkHitCnt, rStkMissCnt, rStkWbCnt, rStkRefuseCnt], a = r (stackHall k) (k % 2)

theorem stackStep_cacheIn (s : State) (k line : Nat) (dirty : Bool) : StackStep (· = rStkWbCnt (stackHall k) (k % 2)) s (s.cacheIn k line dirty) := by
  unfold State.cacheIn
  extract_lets x was v kept s1
  have h1 : StackStep (· = rStkWbCnt (stackHall k) (k % 2)) s s1 := stackStep_modStack ..
  clear_value s1 v
  split
  · exact h1.trans (stackStep_count _ _ rfl)
  · exact h1

theorem StackStep.mono {A B : Nat → Prop} {s t : State} (h : StackStep A s t) (hAB : ∀ a, A a → B a) : StackStep B s t :=
  ⟨fun a ha => h.1 a fun hA => ha (hAB a hA), h.2⟩

theorem stackStep_lineIn {s t : State} {line : Nat} {kind : StackReq} {hit : Bool} (h : s.lineIn line kind = some (t, hit)) :
    StackStep (lineReg (stackOf line)) s t := by
  have hput (u : State) (l : Nat) : StackStep (lineReg (stackOf line)) u
      ((u.cacheIn (stackOf line) l (reqWrites kind)).modStack (stackOf line) fun y => { y with wb := y.wb.drop (y.wb.length - 64) }) :=
    ((stackStep_cacheIn ..).mono fun a ha => ⟨rStkWbCnt, by simp, ha⟩).trans (stackStep_modStack ..)
  unfold State.lineIn at h
  extract_lets k x put at h
  split at h
  · obtain ⟨rfl, -⟩ := Prod.mk.inj (Option.some.inj h)
    exact (stackStep_count _ _ ⟨rStkHitCnt, by simp, rfl⟩).trans (hput ..)
  · split at h
    · exact absurd h (by simp)
    · split at h
      · obtain ⟨rfl, -⟩ := Prod.mk.inj (Option.some.inj h)
        exact hput ..
      · split at h
        · obtain ⟨rfl, -⟩ := Prod.mk.inj (Option.some.inj h)
          exact (stackStep_count _ _ ⟨rStkMissCnt, by simp, rfl⟩).trans (hput ..)
        · exact absurd h (by simp)

theorem stackStep_lineRefused (s : State) (line : Nat) : StackStep (lineReg (stackOf line)) s (s.lineRefused line) := by
  unfold State.lineRefused
  extract_lets k
  split
  · exact .refl ..
  · exact stackStep_count _ _ ⟨rStkRefuseCnt, by simp, rfl⟩

theorem stackStep_walkTouch (s : State) (pa : Nat) : StackStep (lineReg (stackOf (lineOf pa))) s (s.walkTouch pa) := by
  unfold State.walkTouch
  split
  · rename_i r h
    split at h
    · exact stackStep_lineIn (hit := r.2) h
    · exact absurd h (by simp)
  · exact stackStep_lineRefused ..

/-! ### Walks -/

/-- The counters that a walk for the page of `va` can change. -/
def walkReg (c : CoreId) (k va a : Nat) : Prop := a = rTrWalkCnt c.hall.val ∨ lineReg (stackOf (lineOf (pteAddr k va))) a

theorem rTrWalkCnt_not_line (h k : Nat) : ¬ lineReg k (rTrWalkCnt h) := by
  rintro ⟨r, hr, he⟩
  simp only [List.mem_cons, List.not_mem_nil, or_false] at hr
  have hk : k % 2 < 2 := Nat.mod_lt _ (by decide)
  rcases hr with rfl | rfl | rfl | rfl <;> unfold rTrWalkCnt hallBase at he
  · unfold rStkHitCnt hallBase at he
    omega
  · unfold rStkMissCnt hallBase at he
    omega
  · unfold rStkWbCnt hallBase at he
    omega
  · unfold rStkRefuseCnt hallBase at he
    omega

/-- A walk before it looks at the entry. -/
def State.walked (s : State) (c : CoreId) (va : Nat) : State :=
  (s.count (rTrWalkCnt c.hall.val) 1).walkTouch (pteAddr (s.coreCtx c).val va)

theorem walked_fields (s : State) (c : CoreId) (va : Nat) : StackStep (walkReg c (s.coreCtx c).val va) s (s.walked c va) ∧
    (s.walked c va).reg (rTrWalkCnt c.hall.val) = s.reg (rTrWalkCnt c.hall.val) + 1 := by
  have h := stackStep_walkTouch (s.count (rTrWalkCnt c.hall.val) 1) (pteAddr (s.coreCtx c).val va)
  refine ⟨(stackStep_count s 1 (.inl rfl)).trans (h.mono fun a ha => .inr ha), ?_⟩
  exact (h.1 _ (rTrWalkCnt_not_line _ _)).trans (reg_count_same ..)

/-- What a walk does with the entry it reads. -/
theorem walk_eq (s : State) (c : CoreId) (va acc : Nat) : s.walk c va acc =
    match pteCheck (s.flag (rTrCtx c.hall.val (s.coreCtx c).val) fTrCtxEn) (s.poisoned (pteAddr (s.coreCtx c).val va) 8) (s.pte (s.coreCtx c).val va) acc with
    | some kind => (s.walked c va, .error kind)
    | none => ((s.walked c va).modCore c fun x => { x with tlb := ((s.coreCtx c).val, va / 2 ^ 21, BitVec.ofNat 64 (s.pte (s.coreCtx c).val va)) ::
          (x.tlb.filter fun t => !(t.1 == (s.coreCtx c).val && t.2.1 == va / 2 ^ 21)).take 31 },
        .ok (bitsN (s.pte (s.coreCtx c).val va) 39 21 * 2 ^ 21 + va % 2 ^ 21)) := rfl

theorem walk_finds {s : State} {c : CoreId} {va acc : Nat}
    (h : pteCheck (s.flag (rTrCtx c.hall.val (s.coreCtx c).val) fTrCtxEn) (s.poisoned (pteAddr (s.coreCtx c).val va) 8) (s.pte (s.coreCtx c).val va) acc = none) :
    ∃ (f : CoreS → CoreS) (pa : Nat), s.walk c va acc = ((s.walked c va).modCore c f, .ok pa) ∧
      ∀ x, (f x).tlb.head? = some ((s.coreCtx c).val, va / 2 ^ 21, BitVec.ofNat 64 (s.pte (s.coreCtx c).val va)) := by
  rw [walk_eq, h]
  exact ⟨_, _, rfl, fun _ => rfl⟩

theorem walk_fails {s : State} {c : CoreId} {va acc kind : Nat}
    (h : pteCheck (s.flag (rTrCtx c.hall.val (s.coreCtx c).val) fTrCtxEn) (s.poisoned (pteAddr (s.coreCtx c).val va) 8) (s.pte (s.coreCtx c).val va) acc = some kind) :
    s.walk c va acc = (s.walked c va, .error kind) := by
  rw [walk_eq, h]

/-- An entry of the translation cache for a page of context `k`. -/
def pageEntry (k va : Nat) (y : Nat × Nat × Word) : Bool := y.1 == k && y.2.1 == va / 2 ^ 21

/-- No entry of the translation cache permits the access. -/
def State.uncached (s : State) (c : CoreId) (va acc : Nat) : Prop :=
  ¬ ∃ y ∈ (s.core c).tlb, pageEntry (s.coreCtx c).val va y = true ∧ pteCheck true false y.2.2.toNat acc = none

/-- Without a permitting entry in the translation cache a context that translates walks its table. -/
theorem xlat_walks {s : State} {c : CoreId} {va acc : Nat} (hen : s.flag (rTrCtx c.hall.val (s.coreCtx c).val) fTrCtxEn = true) (h : s.uncached c va acc) :
    s.xlat c va acc = s.walk c va acc := by
  unfold State.xlat
  extract_lets k
  rw [if_neg (by rw [hen]; decide)]
  split
  · rename_i t ht
    exact if_neg fun hp => h ⟨t, List.mem_of_find?_eq_some ht, List.find?_some ht, hp⟩
  · rfl

theorem xlat_off {s : State} {c : CoreId} {va acc : Nat} (hen : s.flag (rTrCtx c.hall.val (s.coreCtx c).val) fTrCtxEn = false) :
    s.xlat c va acc = (s, .error 5) := if_pos (by rw [hen]; rfl)

theorem xlat_cached {s : State} {c : CoreId} {va acc : Nat} {y : Nat × Nat × Word} (hen : s.flag (rTrCtx c.hall.val (s.coreCtx c).val) fTrCtxEn = true)
    (hf : (s.core c).tlb.find? (pageEntry (s.coreCtx c).val va) = some y) (hp : pteCheck true false y.2.2.toNat acc = none) :
    ∃ pa, s.xlat c va acc = (s, .ok pa) := by
  unfold State.xlat
  extract_lets k
  rw [if_neg (by rw [hen]; decide)]
  refine ⟨bitsN y.2.2.toNat 39 21 * 2 ^ 21 + va % 2 ^ 21, ?_⟩
  split
  · rename_i t ht
    obtain rfl : t = y := Option.some.inj (ht.symm.trans hf)
    exact if_pos hp
  · rename_i ht
    exact absurd (ht.symm.trans hf) (by simp)

/-! ### TABLE_WALK -/

theorem tableWalk_eq {s : State} {c : CoreId} {e : BitVec 6} (va : BitVec 48) (acc : BitVec 2) {x : DescS} (hx : s.desc c e.toNat = some x) :
    exec (.tableWalk c e va acc) s = if (!s.run c || x.faulted) = true then .next s else match s.xlat c va.toNat acc.toNat with
      | (s1, .ok _) => .next s1
      | (s1, .error kind) => .next (s1.accFault c e.toNat (.page va.toNat acc.toNat kind)) := by
  show execTableWalk c e va acc s = _
  rw [execTableWalk, hx] <;> rfl

/-- The kinds of failure of a page-table entry. -/
theorem pteCheck_lt {en bad : Bool} {e acc kind : Nat} (h : pteCheck en bad e acc = some kind) : kind < 8 := by
  unfold pteCheck at h
  grind

theorem notify_reg (s : State) (kind p a : Nat) : (s.notify kind p).reg a = s.reg a := by
  unfold State.notify
  split
  · rfl
  · split
    · rfl
    · rw [emit_reg]
      rfl

/-- The fault registers of a hall's tables. -/
def pageFaultReg (h k a : Nat) : Prop := a = rTrFault h k ∨ a = rTrFault2 h k ∨ a = rTrFaultCnt h

theorem rCoreStatus_not_pageFault (c : CoreId) (h k : Nat) : ¬ pageFaultReg h k (rCoreStatus c) := by
  unfold pageFaultReg rCoreStatus coreBase coreSpace rTrFault rTrFault2 rTrFaultCnt hallBase hallSpace
  omega

/-- The registers that keep a page fault, once it has been raised. -/
def State.pageFault (s : State) (c : CoreId) (e va acc kind : Nat) : State :=
  let h := c.hall.val
  let k := s.coreCtx c
  if s.flag (rTrFault h k.val) fTrFaultValid then s
  else (s.setReg (rTrFault h k.val) (BitVec.ofNat 64 (2 ^ 63 + acc * 2 ^ 52 + kind * 2 ^ 48 + va))).setReg (rTrFault2 h k.val)
    (BitVec.ofNat 64 (h * 2 ^ 21 + c.row.val * 2 ^ 17 + c.col.val * 2 ^ 13 + e * 2 ^ 7))

theorem pageFault_valid (w : Nat) (hw : w < 2 ^ 63) : fTrFaultValid.get (BitVec.ofNat 64 (2 ^ 63 + w)) = 1 := by
  have : (BitVec.ofNat 64 (2 ^ 63 + w)).toNat = 2 ^ 63 + w := by
    rw [BitVec.toNat_ofNat]
    omega
  rw [Fd.get, this, show fTrFaultValid.lo = 63 from rfl, show fTrFaultValid.size = 2 from rfl]
  omega

theorem rTrFault2_ne (h k : Nat) : rTrFault h k ≠ rTrFault2 h k ∧ (k < 8 → rTrFault h k ≠ rTrFaultCnt h) := by
  unfold rTrFault rTrFault2 rTrFaultCnt
  omega

theorem pageFault_fields (s : State) (c : CoreId) {e va acc kind : Nat} (hva : va < 2 ^ 48) (hacc : acc < 4) (hkind : kind < 8) :
    (s.pageFault c e va acc kind).flag (rTrFault c.hall.val (s.coreCtx c).val) fTrFaultValid = true ∧
      RegsBut (pageFaultReg c.hall.val (s.coreCtx c).val) s (s.pageFault c e va acc kind) := by
  unfold State.pageFault
  extract_lets h k
  split
  · rename_i hv
    exact ⟨hv, fun _ _ => rfl⟩
  · refine ⟨?_, fun a ha => ?_⟩
    · rw [State.flag, State.fget, reg_setReg_other _ _ (rTrFault2_ne ..).1, reg_setReg_same, Nat.add_assoc, Nat.add_assoc, pageFault_valid _ (by omega)]
      rfl
    · rw [reg_setReg_other _ _ fun h => ha (.inr (.inl h)), reg_setReg_other _ _ fun h => ha (.inl h)]

theorem coreCtx_congr {s t : State} {c : CoreId} (h : t.reg (rCoreStatus c) = s.reg (rCoreStatus c)) : t.coreCtx c = s.coreCtx c := by
  unfold State.coreCtx State.fget
  simp only [h]

theorem coreCtx_descFault (s : State) (c : CoreId) (r : EvRec) : (s.descFault c r).coreCtx c = s.coreCtx c := by
  rw [State.descFault, coreCtx_congr (reg_fput_other _ _ _ (strm_addrs c).2.1)]
  exact congrFun (congrArg Prod.fst (placing_faultCore s c r)) c

/-- A page fault of a live descriptor stops the context with PAGE_FAULT and fills TR_FAULT. -/
theorem accFault_page (s : State) (c : CoreId) (e : Nat) {va acc kind : Nat} (hva : va < 2 ^ 48) (hacc : acc < 4) (hkind : kind < 8) :
    (s.accFault c e (.page va acc kind)).fget (rCoreStatus c) fCoreStatusFault = 0x3001 ∧
      (s.accFault c e (.page va acc kind)).flag (rTrFault c.hall.val (s.coreCtx c).val) fTrFaultValid = true := by
  obtain ⟨r, hr, hcode⟩ : ∃ r, r = coreRec c 0x3001 (s.p1 c) va (acc * 2 ^ 52 + kind * 2 ^ 48) e ∧ r.code = 0x3001 := ⟨_, rfl, rfl⟩
  obtain ⟨u, hu⟩ : ∃ u, u = ((s.modDesc c e fun x => { x with faulted := true }).modCore c fun x =>
      { x with outq := x.outq.filter fun o => some o.desc != (s.desc c e).map DescS.id }).descFault c r := ⟨_, rfl⟩
  have hcode16 : r.code < 2 ^ 16 := by rw [hcode]; decide
  have hctx : u.coreCtx c = s.coreCtx c := by
    rw [hu, coreCtx_descFault]
    exact coreCtx_congr ((modCore_reg ..).trans (modCore_reg ..))
  have heq : s.accFault c e (.page va acc kind) = ((u.pageFault c e va acc kind).count (rTrFaultCnt c.hall.val) 1).notify 3
      ((s.coreCtx c).val + acc * 16 + kind * 2 ^ 8 + va * 2 ^ 16) := by
    rw [State.pageFault, hctx, hu, hr]
    rfl
  obtain ⟨hvalid, hbut⟩ := pageFault_fields u c (e := e) hva hacc hkind
  rw [hctx] at hvalid hbut
  have hk : (s.coreCtx c).val < 8 := (s.coreCtx c).isLt
  rw [heq]
  refine ⟨?_, ?_⟩
  · rw [State.fget, notify_reg, reg_count_other _ _ fun h => rCoreStatus_not_pageFault c c.hall.val 0 (.inr (.inr h)),
      hbut _ (rCoreStatus_not_pageFault c _ _), ← State.fget, hu, (descFault_shows _ c r hcode16).1, hcode]
  · rw [State.flag, State.fget, notify_reg, reg_count_other _ _ ((rTrFault2_ne ..).2 hk), ← State.fget, ← State.flag, hvalid]

theorem rCoreStatus_not_walk (c d : CoreId) (k va : Nat) : ¬ walkReg d k va (rCoreStatus c) := by
  rintro (h | ⟨r, hr, h⟩)
  · unfold rCoreStatus coreBase coreSpace rTrWalkCnt hallBase hallSpace at h
    omega
  · simp only [List.mem_cons, List.not_mem_nil, or_false] at hr
    unfold rCoreStatus coreBase coreSpace at h
    rcases hr with rfl | rfl | rfl | rfl
    · unfold rStkHitCnt hallBase hallSpace at h
      omega
    · unfold rStkMissCnt hallBase hallSpace at h
      omega
    · unfold rStkWbCnt hallBase hallSpace at h
      omega
    · unfold rStkRefuseCnt hallBase hallSpace at h
      omega

theorem coreCtx_walked (s : State) (c : CoreId) (va : Nat) : (s.walked c va).coreCtx c = s.coreCtx c :=
  coreCtx_congr ((walked_fields s c va).1.1 _ (rCoreStatus_not_walk c c _ _))

theorem translates_of_finds {en bad : Bool} {e acc : Nat} (h : pteCheck en bad e acc = none) : en = true := by
  cases en with
  | true => rfl
  | false => exact absurd h (by simp [pteCheck])

theorem runs_tableWalk_cached {s : State} {c : CoreId} {e : BitVec 6} {x : DescS} {va : BitVec 48} {acc : BitVec 2} {y : Nat × Nat × Word}
    (hx : s.desc c e.toNat = some x) (hf : (s.core c).tlb.find? (pageEntry (s.coreCtx c).val va.toNat) = some y)
    (hp : pteCheck true false y.2.2.toNat acc.toNat = none) (hen : s.flag (rTrCtx c.hall.val (s.coreCtx c).val) fTrCtxEn = true) :
    exec (.tableWalk c e va acc) s = .next s := by
  obtain ⟨pa, h⟩ := xlat_cached (acc := acc.toNat) hen hf hp
  rw [tableWalk_eq va acc hx, h]
  split <;> rfl

theorem runs_tableWalk_finds {s : State} {c : CoreId} {e : BitVec 6} {x : DescS} {va : BitVec 48} {acc : BitVec 2} (hr : s.run c = true)
    (hx : s.desc c e.toNat = some x) (hxf : x.faulted = false) (hun : s.uncached c va.toNat acc.toNat)
    (hbad : pteCheck (s.flag (rTrCtx c.hall.val (s.coreCtx c).val) fTrCtxEn) (s.poisoned (pteAddr (s.coreCtx c).val va.toNat) 8)
      (s.pte (s.coreCtx c).val va.toNat) acc.toNat = none) : Runs (.tableWalk c e va acc) s fun t =>
        (t.core c).tlb.head? = some ((s.coreCtx c).val, va.toNat / 2 ^ 21, BitVec.ofNat 64 (s.pte (s.coreCtx c).val va.toNat)) ∧
        t.reg (rTrWalkCnt c.hall.val) = s.reg (rTrWalkCnt c.hall.val) + 1 ∧ RegsBut (walkReg c (s.coreCtx c).val va.toNat) s t ∧ SameMem s t := by
  obtain ⟨f, pa, hw, hhead⟩ := walk_finds hbad
  obtain ⟨⟨hregs, hoff⟩, hcount⟩ := walked_fields s c va.toNat
  rw [← xlat_walks (translates_of_finds hbad) hun] at hw
  refine ⟨(s.walked c va.toNat).modCore c f, ?_, ?_, (modCore_reg ..).trans hcount, fun a ha => (modCore_reg ..).trans (hregs a ha), fun a => ?_⟩
  · rw [tableWalk_eq va acc hx, hw]
    exact if_neg (by rw [hr, hxf]; decide)
  · rw [core_modCore_same, hhead]
  · exact (modCore_rdB ..).trans (rdB_congr (congrArg (fun p => p.1.1) hoff) a)

theorem runs_tableWalk_fails {s : State} {c : CoreId} {e : BitVec 6} {x : DescS} {va : BitVec 48} {acc : BitVec 2} (hr : s.run c = true)
    (hx : s.desc c e.toNat = some x) (hxf : x.faulted = false) (hun : s.uncached c va.toNat acc.toNat)
    (hbad : pteCheck (s.flag (rTrCtx c.hall.val (s.coreCtx c).val) fTrCtxEn) (s.poisoned (pteAddr (s.coreCtx c).val va.toNat) 8)
      (s.pte (s.coreCtx c).val va.toNat) acc.toNat ≠ none) : Runs (.tableWalk c e va acc) s fun t =>
        t.fget (rCoreStatus c) fCoreStatusFault = 0x3001 ∧ t.flag (rTrFault c.hall.val (s.coreCtx c).val) fTrFaultValid = true := by
  obtain ⟨u, kind, hu, hctx, hk⟩ : ∃ u kind, s.xlat c va.toNat acc.toNat = (u, .error kind) ∧ u.coreCtx c = s.coreCtx c ∧ kind < 8 := by
    cases hen : s.flag (rTrCtx c.hall.val (s.coreCtx c).val) fTrCtxEn with
    | false => exact ⟨s, 5, xlat_off hen, rfl, by decide⟩
    | true =>
      obtain ⟨kind, hkind⟩ := Option.ne_none_iff_exists'.1 hbad
      exact ⟨_, kind, (xlat_walks hen hun).trans (walk_fails hkind), coreCtx_walked .., pteCheck_lt hkind⟩
  refine ⟨u.accFault c e.toNat (.page va.toNat acc.toNat kind), ?_, ?_⟩
  · rw [tableWalk_eq va acc hx, hu]
    exact if_neg (by rw [hr, hxf]; decide)
  · rw [← hctx]
    exact accFault_page u c e.toNat va.isLt acc.isLt hk

/-! ### DESCRIPTOR_COMPLETE -/

theorem descPost_counter (s : State) (c : CoreId) {d : DescP} (hk : d.ctKind = 1) (hi : d.ctId < 48) (n : Nat) (hn : s.fget (rSc c d.ctId) fScValue + n < 2 ^ 32) :
    (s.descPost c d n).fget (rSc c d.ctId) fScValue = s.fget (rSc c d.ctId) fScValue + n ∧ (s.descPost c d n).mem = s.mem ∧
      ((s.descPost c d n).core c).descs = (s.core c).descs ∧ ∀ a, a ≠ rSc c d.ctId → (s.descPost c d n).reg a = s.reg a := by
  have hpost : s.descPost c d n = s.ctPost c d.ctId n := by
    rw [State.descPost, hk]
    rfl
  rw [hpost]
  refine ⟨?_, ctPost_mem .., core_ctPost_keeps CoreS.descs (fun _ => rfl) s c c d.ctId n, fun a ha => ?_⟩
  · rw [(ctPost_adds s c n hi).1]
    omega
  · rw [State.ctPost, if_pos hi]
    refine scAdd_reg_inRange s c d.ctId n ha ?_
    rw [satOut]
    simp only [Bool.or_eq_false_iff, decide_eq_false_iff_not]
    omega

theorem descriptorComplete_eq {s : State} {c : CoreId} {e : BitVec 6} {x : DescS} {d : DescP} (hr : s.run c = true) (hx : s.desc c e.toNat = some x)
    (hd : x.parsed = some d) (hm : s.moving c e.toNat x d = true) (hf : x.faulted = false) (hq : x.reqs = 0) (ho : ∀ o ∈ (s.core c).outq, o.desc ≠ x.id)
    (ht : d.total ≤ (s.reg (rStrmProgress c e.toNat)).toNat) (hfill : d.isFill = false) :
    exec (.descriptorComplete c e) s = .next ((s.works c).descEnd c e.toNat d false) := by
  have hout : ((s.core c).outq.any fun r => r.desc == x.id) = false := List.any_eq_false.2 fun o h => by simpa using ho o h
  have hleft : decide ((s.reg (rStrmProgress c e.toNat)).toNat < d.total) = false := decide_eq_false (by omega)
  show execDescriptorComplete c e s = _
  unfold execDescriptorComplete
  simp only [hx, hd, hm, hq, hout, hr, hf, hfill, hleft]
  rfl

theorem runs_descriptorComplete {s : State} {c : CoreId} {e : BitVec 6} {x : DescS} {d : DescP} (hr : s.run c = true) (hx : s.desc c e.toNat = some x)
    (hd : x.parsed = some d) (hm : s.moving c e.toNat x d = true) (hf : x.faulted = false) (hq : x.reqs = 0) (ho : ∀ o ∈ (s.core c).outq, o.desc ≠ x.id)
    (ht : d.total ≤ (s.reg (rStrmProgress c e.toNat)).toNat) (hfill : d.isFill = false) (hk : d.ctKind = 1) (hi : d.ctId < 48)
    (hn : s.fget (rSc c d.ctId) fScValue + d.count < 2 ^ 32) : let off := 64 * s.entFld c e.toNat fStrmEntryDescIdx
    Runs (.descriptorComplete c e) s fun t => t.rdStore c (off + 62) 2 = natBytes 2 0x8000 ∧ MemBut (coreBase c + off + 62) 2 s t ∧
      (t.core c).descs = (s.core c).descs.eraseIdx e.toNat ∧ t.fget (rSc c d.ctId) fScValue = s.fget (rSc c d.ctId) fScValue + d.count ∧
      RegsBut (fun a => (∃ i, a = rStrmEntry c i ∨ a = rStrmProgress c i) ∨ a = rStrmStatus c ∨ a = rCelStatus c ∨ a = rSc c d.ctId) s t := by
  intro off
  obtain ⟨hwreg, hwmem, hwdescs⟩ := works_keeps s c
  have hoff : 64 * (s.works c).entFld c e.toNat fStrmEntryDescIdx = off := by rw [State.entFld, State.fget, hwreg]; rfl
  obtain ⟨hstat, hmem, hdescs, hreg, -⟩ := descOut_fields (s.works c) c e.toNat 0x8000
  rw [hoff] at hstat hmem
  obtain ⟨u, hu⟩ : ∃ u, u = (s.works c).descOut c e.toNat 0x8000 := ⟨_, rfl⟩
  rw [← hu] at hstat hmem hdescs hreg
  have hsc : ¬ listReg c (rSc c d.ctId) := by
    rintro (h | h | h)
    · exact rSc_not_entry hi h
    · unfold rSc rStrmStatus at h
      omega
    · unfold rSc rCelStatus at h
      omega
  have hval : u.fget (rSc c d.ctId) fScValue = s.fget (rSc c d.ctId) fScValue := by
    rw [State.fget, hreg _ hsc, hwreg]
    rfl
  obtain ⟨hpval, hpmem, hpdescs, hpreg⟩ := descPost_counter u c hk hi d.count (hval ▸ hn)
  refine ⟨u.descPost c d d.count, ?_, ?_, fun a ha => ?_, ?_, ?_, fun a ha => ?_⟩
  · rw [descriptorComplete_eq hr hx hd hm hf hq ho ht hfill, hu]
    rfl
  · exact (rdBytes_congr fun a _ _ => rdB_congr hpmem a).trans hstat
  · rw [rdB_congr hpmem, hmem a ha, rdB_congr hwmem]
  · rw [hpdescs, hdescs, hwdescs]
  · rw [hpval, hval]
  · rw [not_or, not_or, not_or] at ha
    rw [hpreg a ha.2.2.2, hreg a fun h => h.elim ha.1 fun h => h.elim ha.2.1 ha.2.2.1, hwreg]

/-! ### Timeout, staging and tags -/

theorem runs_streamTimeout {s : State} {c : CoreId} {e : BitVec 6} {x : DescS} (hr : s.run c = true) (hx : s.desc c e.toNat = some x)
    (hw : x.waiting = false) : Runs (.streamTimeout c e) s fun t => t.faultShows c 0x3002 := by
  refine ⟨(s.descFault c (coreRec c 0x3002)).dropDesc c e.toNat, ?_, faultShows_dropDesc (descFault_shows s c _ (show (0x3002 : Nat) < 2 ^ 16 by decide)) _⟩
  show execStreamTimeout c e s = _
  rw [execStreamTimeout, hx]
  exact congrArg Host.Outcome.next (if_pos (by rw [hr, hw]; rfl))

theorem runs_stagingAcquire {s : State} {c : CoreId} {e : BitVec 6} {x : DescS} {a : Nat} {l : List (CoreId × Nat × Nat)} (hr : s.run c = true)
    (hx : s.desc c e.toNat = some x) (hw : x.waiting = true) (hs : (s.ctx (s.coreCtx c).val).staging = (c, x.id, a) :: l) :
    Runs (.stagingAcquire c e) s fun t => (t.desc c e.toNat).map DescS.waiting = some false ∧ SameRegs s t ∧ SameMem s t := by
  have htake : s.stageTake c e.toNat = s.modDesc c e.toNat fun y => { y with waiting := false } := by
    rw [State.stageTake, hx, hs]
    exact if_pos (by simp [hw])
  refine ⟨_, congrArg Host.Outcome.next ((if_pos hr).trans htake), ?_, fun a => modCore_reg .., fun a => modCore_rdB ..⟩
  rw [desc_modDesc_same, hx]
  rfl

theorem runs_stagingPhase2 {s u v w y : State} {c : CoreId} {e : BitVec 6} {x : DescS} {d : DescP} {h : Int × Int} {got : List (Nat × Nat × Nat)}
    (hr : s.run c = true) (hx : s.desc c e.toNat = some x) (hd : x.parsed = some d) (hst : x.staged = true) (hw : x.waiting = false)
    (hf : x.faulted = false) (hp : s.entFld c e.toNat fStrmEntryPhase = 1) (ho : s.hasOutSlot c = true) (hh : d.srcHull = some h)
    {idx : List Nat} (hidx : idx = if x.recheck then s.indices c d else x.idx.getD []) {pages : List (Nat × Nat)} (hpages : pages = got.map fun g => (g.1, g.2.2))
    (h1 : (s.works c).recheckIdx c e.toNat x d = (v, true))
    (h2 : v.pagesOf c [] (vaParts ((d.srcRanges idx).map fun q => (q.1, q.2, accRead))) = (w, got, none))
    (h3 : w.linesTouch c x.id (d.stageLines (s.coreCtx c).val idx h.1 pages) = .ok y)
    (h4 : (pages.foldl (fun s p => s.notePage c e.toNat (p.1 * 2 ^ 21)) y).stageCopy c h.1 pages (d.srcRanges idx) = (u, none)) :
    Runs (.stagingPhase2 c e) s fun t => t.entFld c e.toNat fStrmEntryPhase = 2 ∧ t.reg (rStrmProgress c e.toNat) = 0 ∧ SameMem u t := by
  have hne : rStrmEntry c e.toNat ≠ rStrmProgress c e.toNat := by
    unfold rStrmEntry rStrmProgress
    omega
  refine ⟨(u.fput (rStrmEntry c e.toNat) fStrmEntryPhase 2).setReg (rStrmProgress c e.toNat) 0, ?_, ?_, reg_setReg_same .., fun a => ?_⟩
  · show execStagingPhase2 c e s = _
    subst hidx hpages
    unfold execStagingPhase2
    simp only [hx, hd, hst, hw, hf, hp, hr, ho, h1, hh, h2, h3, h4]
    rfl
  · rw [State.entFld, State.fget, reg_setReg_other _ _ hne, ← State.fget, fget_fput_same _ _ _ _ (by decide) (by decide)]
    rfl
  · rw [setReg_rdB, fput_rdB]

/-- The place of a core stands at byte 14 of a tag line. -/
theorem tagLine_pos (len seq ctx pos : Nat) (h : pos < 65536) : leAt (tagLine len seq ctx pos) 14 2 = pos := by
  have hb : leAt (tagLine len seq ctx pos) 14 2 = leNat (natBytes 2 pos) := rfl
  rw [hb, leNat_natBytes]
  exact Nat.mod_eq_of_lt h

theorem core_of_offStacks {s t : State} (h : t.offStacks = s.offStacks) (c : CoreId) : t.core c = s.core c :=
  core_congr (congrArg (fun p => p.2.1) h) c

theorem walk_core {β : Type} (φ : CoreS → β) (hφ : ∀ x l, φ { x with tlb := l } = φ x) (s : State) (c : CoreId) (va acc : Nat) (d : CoreId) :
    φ ((s.walk c va acc).1.core d) = φ (s.core d) := by
  have hw := core_of_offStacks (walked_fields s c va).1.2 d
  rw [walk_eq]
  split
  · rw [hw]
  · by_cases hd : d = c
    · subst hd
      rw [core_modCore_same, hφ, hw]
    · rw [core_modCore_other _ _ hd, hw]

/-- A translation changes nothing of a core but its translation cache. -/
theorem xlat_core {β : Type} (φ : CoreS → β) (hφ : ∀ x l, φ { x with tlb := l } = φ x) (s : State) (c : CoreId) (va acc : Nat) (d : CoreId) :
    φ ((s.xlat c va acc).1.core d) = φ (s.core d) := by
  unfold State.xlat
  extract_lets k
  split
  · rfl
  · split
    · split
      · rfl
      · exact walk_core φ hφ ..
    · exact walk_core φ hφ ..

theorem xlat_descs (s : State) (c : CoreId) (va acc : Nat) (d : CoreId) : ((s.xlat c va acc).1.core d).descs = (s.core d).descs :=
  xlat_core CoreS.descs (fun _ _ => rfl) s c va acc d

theorem pfUse_descs (s : State) (c : CoreId) (id k line : Nat) (hit : Bool) (d : CoreId) : ((s.pfUse c id k line hit).core d).descs = (s.core d).descs := by
  unfold State.pfUse
  extract_lets s1 s2
  have h1 : (s1.core d).descs = (s.core d).descs := by
    unfold s1
    split
    · by_cases hd : d = c
      · subst hd
        rw [core_modCore_same]
      · rw [core_modCore_other _ _ hd]
    · rfl
  split
  · exact h1
  · have h2 : (s2.core d).descs = (s.core d).descs := by
      unfold s2
      rw [modStack_core, h1]
    split
    · rw [State.stkCount, count_core, h2]
    · exact h2

/-- What every successful step of a fold that can fail leaves, the fold leaves. -/
theorem foldl_ok {α β ε : Type} (φ : State → β) (f : Except ε State → α → Except ε State) (hf : ∀ a x t, f a x = .ok t → ∃ s, a = .ok s ∧ φ t = φ s)
    (l : List α) : ∀ a t, l.foldl f a = .ok t → ∃ s, a = .ok s ∧ φ t = φ s := by
  induction l with
  | nil => exact fun a t h => ⟨t, h, rfl⟩
  | cons x l ih =>
    intro a t h
    obtain ⟨u, hu, htu⟩ := ih (f a x) t h
    obtain ⟨s, hs, hus⟩ := hf a x u hu
    exact ⟨s, hs, htu.trans hus⟩

theorem lineTouch_descs {s t : State} {c : CoreId} {id line : Nat} {kind : StackReq} (h : s.lineTouch c id line kind = some t) (d : CoreId) :
    (t.core d).descs = (s.core d).descs := by
  unfold State.lineTouch at h
  extract_lets k rd at h
  obtain ⟨r, hr, ht⟩ := Option.map_eq_some_iff.1 h
  have hcore : r.1.core d = s.core d := core_of_offStacks (stackStep_lineIn (hit := r.2) hr).2 d
  rw [← ht]
  split
  · rw [pfUse_descs, count_core, count_core, hcore]
  · rw [count_core, count_core, hcore]

theorem linesTouch_descs {s t : State} {c : CoreId} {id : Nat} {l : List (Nat × StackReq)} (h : s.linesTouch c id l = .ok t) (d : CoreId) :
    (t.core d).descs = (s.core d).descs := by
  have hstep (a : Except Nat State) (x : Nat × StackReq) (t : State) (h : (match a with
      | .error n => .error n
      | .ok t => match if s.lineRoom x.1 then t.lineTouch c id x.1 x.2 else none with
        | some u => .ok u
        | none => .error x.1) = Except.ok t) : ∃ u, a = .ok u ∧ (t.core d).descs = (u.core d).descs := by
    cases a with
    | error n => exact absurd h (by simp)
    | ok v =>
      refine ⟨v, rfl, ?_⟩
      dsimp only at h
      split at h
      · rename_i w hw
        split at hw
        · exact Except.ok.inj h ▸ lineTouch_descs hw d
        · exact absurd hw (by simp)
      · exact absurd h (by simp)
  obtain ⟨u, hu, hdescs⟩ := foldl_ok (fun s => (s.core d).descs) _ hstep l (.ok s) t h
  rw [hdescs, Except.ok.inj hu]

theorem runs_cellarTagCheck {s u v : State} {c : CoreId} {e : BitVec 6} {x : DescS} {d : DescP} {base top n pa : Nat}
    (hr : s.run c = true) (hx : s.desc c e.toNat = some x) (hd : x.parsed = some d) (hfr : x.frame = some (base, top, n)) (hc : d.cellar = true)
    (hfill : d.isFill = false) (ht : x.tagOk = false) (hf : x.faulted = false) (ho : s.hasOutSlot c = true)
    (h1 : (s.works c).xlat c (base + (d.frameLen - 128)) accRead = (v, .ok pa)) (h2 : v.linesTouch c x.id [(lineOf pa, .read)] = .ok u)
    (hp : u.poisoned pa 128 = false) (htag : u.rdBytes pa 128 = tagLine d.frameLen (n - 1) (s.coreCtx c).val c.pos) :
    Runs (.cellarTagCheck c e) s fun t => (t.desc c e.toNat).map DescS.tagOk = some true ∧ SameRegs u t ∧ SameMem u t := by
  have hpos := tagLine_pos d.frameLen (n - 1) (s.coreCtx c).val c.pos (lt_of_lt_of_le (CoreId.pos_lt c) (by decide))
  have hp' (t : State) : (t.notePage c e.toNat (base + (d.frameLen - 128))).poisoned pa 128 = t.poisoned pa 128 := rfl
  have hrd (t : State) : (t.notePage c e.toNat (base + (d.frameLen - 128))).rdBytes pa 128 = t.rdBytes pa 128 := rfl
  have hdesc : u.desc c e.toNat = some x := by
    rw [State.desc, linesTouch_descs h2, show v = ((s.works c).xlat c (base + (d.frameLen - 128)) accRead).1 by rw [h1], xlat_descs, (works_keeps s c).2.2]
    exact hx
  refine ⟨(u.notePage c e.toNat (base + (d.frameLen - 128))).modDesc c e.toNat fun y => { y with tagOk := true }, ?_, ?_,
    fun a => (modCore_reg ..).trans (modCore_reg ..), fun a => (modCore_rdB ..).trans (modCore_rdB ..)⟩
  · show execCellarTagCheck c e s = _
    unfold execCellarTagCheck
    simp only [hx, hd, hfr, hc, hfill, ht, hf, hr, ho, h1, h2, hp', hp, hrd, htag, hpos]
    rfl
  · rw [desc_modDesc_same, State.notePage, desc_modDesc_same, hdesc]
    rfl

/-- Settles O41: event by event. -/
theorem descriptorEvents : Obligations.DescriptorEvents := by
  intro s c e x hr hx k off
  refine ⟨fun d hd hm hf hq ho ht hfill hk hi hn => runs_descriptorComplete hr hx hd hm hf hq ho ht hfill hk hi hn,
    fun hw => runs_streamTimeout hr hx hw, fun a l hw hs => runs_stagingAcquire hr hx hw hs,
    fun d h u v w y got hd hst hw hf hp ho hh h1 h2 h3 h4 => runs_stagingPhase2 hr hx hd hst hw hf hp ho hh rfl rfl h1 h2 h3 h4,
    fun d base top n pa u v hd hfr hc hfill ht hf ho h1 h2 hp htag => runs_cellarTagCheck hr hx hd hfr hc hfill ht hf ho h1 h2 hp htag, ?_⟩
  intro va acc bad page cached
  refine ⟨fun y hf hp hen => runs_tableWalk_cached hx hf hp hen, ?_⟩
  intro pte reads
  refine ⟨fun hf => ?_, fun hf hc hb => runs_tableWalk_finds hr hx hf hc hb, fun hf hc hb => runs_tableWalk_fails hr hx hf hc hb⟩
  rw [tableWalk_eq va acc hx]
  exact if_pos (by rw [hf]; simp)

end Sys2Proof.Machine

/-! ## Requests at the stack caches: hits, misses, merges, refusals, fills, slow banks and scrubs (R42, R199, R200, R202, R203) -/

namespace Sys2Proof.Machine

-- One proof at a time, as in Sys2Proof/Laws: each waiting proof would keep a thread and its stack.
set_option Elab.async false

/-! ### The requests that leave in a cc -/

theorem coreOfIdx_idx (c : CoreId) : coreOfIdx c.idx = c := by
  obtain ⟨h, r, l⟩ := c
  unfold coreOfIdx CoreId.idx
  simp only [CoreId.mk.injEq, Fin.ext_iff]
  have := r.isLt
  have := l.isLt
  have := h.isLt
  omega

/-- A core of which anything is kept has an entry. -/
theorem core_listed {s : State} {c : CoreId} (h : s.core c ≠ CoreS.fresh) : ∃ e ∈ s.cores, coreOfIdx e.1 = c := by
  unfold State.core sget at h
  split at h
  · rename_i e he
    refine ⟨e, List.mem_of_find?_eq_some he, ?_⟩
    rw [show e.1 = c.idx by simpa using List.find?_some he, coreOfIdx_idx]
  · exact absurd rfl h

/-- Which cores are listed does not show in whether a request leaves. -/
theorem leaving_nil_iff (s : State) : s.leaving = [] ↔ ∀ d, ∀ o ∈ s.coreLeaving d, 16 ≤ arrivalKey o.port o.lane := by
  unfold State.leaving
  simp only [List.flatMap_eq_nil_iff, List.filter_eq_nil_iff, List.mem_range, List.mem_flatMap, List.mem_map, beq_iff_eq]
  constructor
  · intro h d o ho
    by_contra hlt
    have hd : s.core d ≠ CoreS.fresh := by
      intro hf
      rw [State.coreLeaving, hf] at ho
      simp [CoreS.fresh] at ho
    obtain ⟨e, he, hed⟩ := core_listed hd
    exact h (arrivalKey o.port o.lane) (by omega) (d, o) ⟨d, ⟨e, he, hed⟩, o, ho, rfl⟩ rfl
  · rintro h p hp q ⟨d, -, o, ho, rfl⟩ hq
    have := h d o ho
    dsimp only at hq
    omega

/-- A change of a core's descriptors alone leaves what its slots carry. -/
theorem coreLeaving_modDesc (s : State) (c : CoreId) (e : Nat) (f : DescS → DescS) (d : CoreId) : (s.modDesc c e f).coreLeaving d = s.coreLeaving d := by
  have hcore : ((s.modDesc c e f).core d).outq = (s.core d).outq ∧ ((s.modDesc c e f).core d).outSent = (s.core d).outSent := by
    by_cases hd : d = c
    · subst hd
      rw [State.modDesc, core_modCore_same]
      exact ⟨rfl, rfl⟩
    · rw [State.modDesc, core_modCore_other _ _ hd]
      exact ⟨rfl, rfl⟩
  unfold State.coreLeaving
  rw [hcore.1, hcore.2]
  rfl

theorem slotFree_modDesc (s : State) (c : CoreId) (e : Nat) (f : DescS → DescS) : (s.modDesc c e f).slotFree c = s.slotFree c := by
  have hcore : ((s.modDesc c e f).core c).outSent = (s.core c).outSent := by
    rw [State.modDesc, core_modCore_same]
  unfold State.slotFree
  rw [hcore]
  rfl

theorem leaving_modDesc (s : State) (c : CoreId) (e : Nat) (f : DescS → DescS) : (s.modDesc c e f).leaving = [] ↔ s.leaving = [] := by
  rw [leaving_nil_iff, leaving_nil_iff]
  simp only [coreLeaving_modDesc]

/-! ### A demand read that moves no elements -/

theorem runPages_none (s : State) (c : CoreId) (e : Nat) (x : DescS) (d : DescP) (lo : Nat) : s.runPages c e x d lo lo = (s, 0, [], none) := by
  unfold State.runPages
  extract_lets down first
  simp only [if_pos (min_le_left ..)]
  rfl

/-- The request that a demand read of a line makes. -/
def State.readAsk (s : State) (c : CoreId) (e : Nat) (x : DescS) (va pa port lane : Nat) : OutReqS :=
  ⟨x.id, va, stackOf pa, lineOf pa, port, lane, .read, s.sentTo c e x, s.sentTo c e x, [], .clean, false⟩

/-- It leaves now, or it waits behind the others. -/
def State.leavesNow (s u : State) (c : CoreId) (k port lane : Nat) : Prop :=
  (s.core c).outq = [] ∧ u.slotFree c = true ∧ u.leaving = [] ∧ u.arrivesNow k port lane = true

theorem makeReq_read {s u : State} {c : CoreId} {e : Nat} {x : DescS} {d : DescP} {va pa : Nat} (a : Arrival) (ha : a.ecc = .clean)
    (h : s.reqPa c x d .read va = (u, .ok pa)) : let v := u.modDesc c e fun y => { y with sent := s.sentTo c e x }
    let o := s.readAsk c e x va pa a.port.val a.lane.val
    (s.leavesNow u c (stackOf pa) a.port.val a.lane.val → s.makeReq c e x d .read va 0 a = v.sendReq c o) ∧
    (¬ s.leavesNow u c (stackOf pa) a.port.val a.lane.val → s.makeReq c e x d .read va 0 a = v.modCore c fun y => { y with outq := y.outq ++ [o] }) := by
  intro v o
  have hcond : ((s.core c).outq = [] ∧ v.slotFree c = true ∧ v.leaving = [] ∧ v.arrivesNow o.stack o.port o.lane = true) ↔
      s.leavesNow u c (stackOf pa) a.port.val a.lane.val := by
    unfold v State.leavesNow
    rw [slotFree_modDesc, leaving_modDesc]
    rfl
  have hmake : s.makeReq c e x d .read va 0 a = if (s.core c).outq = [] ∧ v.slotFree c = true ∧ v.leaving = [] ∧ v.arrivesNow o.stack o.port o.lane = true
      then v.sendReq c o else v.modCore c fun y => { y with outq := y.outq ++ [o] } := by
    unfold State.makeReq
    simp only [h, if_true, runPages_none, ha]
    rfl
  rw [hmake]
  exact ⟨fun hn => if_pos (hcond.2 hn), fun hn => if_neg fun hc => hn (hcond.1 hc)⟩

theorem stackCacheRequest_read {s : State} {c : CoreId} {e : BitVec 6} {va : BitVec 40} {x : DescS} {d : DescP} (a : Arrival)
    (hr : s.run c = true) (hx : s.desc c e.toNat = some x) (hd : x.parsed = some d) (hf : x.faulted = false) (hre : x.recheck = false)
    (hm : s.moving c e.toNat x d = true) (hva : va.toNat < hbmEnd) (hfit : d.reqFits .read va.toNat = true)
    (hroom : s.fget (rStrmStatus c) fStrmStatusReqUsed + (s.core c).outq.length < 64) :
    exec (.stackCacheRequest c e va .read 0 a) s = .next (s.makeReq c e.toNat x d .read va.toNat 0 a) := by
  have hrec : s.recheckIdx c e.toNat x d = (s, true) := if_pos (by rw [hre]; rfl)
  have hva' : decide (hbmEnd ≤ va.toNat) = false := decide_eq_false (by omega)
  show execStackCacheRequest c e va .read 0 a s = _
  unfold execStackCacheRequest
  simp only [hx, hd, hr, hf, hm, hva', hfit, hre, hrec]
  rw [if_neg (by decide), if_neg (by decide), if_neg (by simp; omega)]
  rfl

/-! ### A request that reaches its stack -/

/-- Numbers of descriptors stay where a change leaves them. -/
theorem findIdx_id_modify (l : List DescS) (i n : Nat) {f : DescS → DescS} (hf : ∀ x, (f x).id = x.id) :
    (l.modify i f).findIdx? (fun y => y.id == n) = l.findIdx? fun y => y.id == n := by
  have hmap : (l.modify i f).map DescS.id = l.map DescS.id := by
    refine List.ext_getElem? fun j => ?_
    rw [List.getElem?_map, List.getElem?_map, List.getElem?_modify]
    cases l[j]? with
    | none => rfl
    | some y => by_cases h : i = j <;> simp [h, hf]
  have hfind (l : List DescS) : l.findIdx? (fun y => y.id == n) = (l.map DescS.id).findIdx? (· == n) := by
    rw [List.findIdx?_map]
    rfl
  rw [hfind, hmap, ← hfind]

/-- A request has left its core, and its stack has noted when it came. -/
def State.arriving (s : State) (c : CoreId) (o : OutReqS) (e : Nat) : State :=
  ((((s.works c).modCore c fun x => { x with outSent := x.outSent + 1 }).count (rEdgeBeatsOut (stackHall o.stack) (o.stack % 2)) 1).modStack o.stack fun y =>
    { y with arrived := (s.cc, arrivalKey o.port o.lane) }).notePage c e o.va

theorem sendReq_read {s : State} {c : CoreId} {o : OutReqS} {e : Nat} (hfind : (s.core c).descs.findIdx? (fun d => d.id == o.desc) = some e)
    (hk : o.kind = .read) : ∃ r : ReqS, r.core = c ∧ r.desc = o.desc ∧ r.kind = .read ∧
      s.sendReq c o = (if ((s.arriving c o e).demand e o.stack o.line r o.ecc).2 then ((s.arriving c o e).demand e o.stack o.line r o.ecc).1
        else ((s.arriving c o e).demand e o.stack o.line r o.ecc).1.modCore c fun x => { x with outq := { o with refused := true } :: x.outq }) := by
  have hcore : ((((((s.works c).modCore c fun x => { x with outSent := x.outSent + 1 }).count (rEdgeBeatsOut (stackHall o.stack) (o.stack % 2)) 1).modStack o.stack
      fun y => { y with arrived := (s.cc, arrivalKey o.port o.lane) }).core c).descs.findIdx? fun d => d.id == o.desc) = some e := by
    rw [modStack_core, count_core, core_modCore_same, State.works, core_modCore_same]
    exact hfind
  refine ⟨⟨c, s.coreCtx c, o.desc, o.va, o.kind, o.lo, o.hi, o.pages⟩, rfl, rfl, hk, ?_⟩
  unfold State.sendReq
  simp only [hcore, if_pos hk]
  rfl

/-- Only registers of `A` differ, and neither memory nor what stack `k` holds for requests nor the requests that wait in core `c`. -/
structure Serves (A : Nat → Prop) (c : CoreId) (k : Nat) (s t : State) : Prop where
  regs : RegsBut A s t
  mem : t.mem = s.mem
  poison : t.poison = s.poison
  now : t.now = s.now
  misses : (t.stack k).misses = (s.stack k).misses
  back : (t.stack k).back = (s.stack k).back
  outq : (t.core c).outq = (s.core c).outq

section
variable {A B : Nat → Prop} {c : CoreId} {k : Nat} {s t u : State}

theorem Serves.refl (A : Nat → Prop) (c : CoreId) (k : Nat) (s : State) : Serves A c k s s := ⟨fun _ _ => rfl, rfl, rfl, rfl, rfl, rfl, rfl⟩

theorem Serves.trans (h1 : Serves A c k s t) (h2 : Serves A c k t u) : Serves A c k s u :=
  ⟨fun a ha => (h2.regs a ha).trans (h1.regs a ha), h2.mem.trans h1.mem, h2.poison.trans h1.poison, h2.now.trans h1.now, h2.misses.trans h1.misses,
    h2.back.trans h1.back, h2.outq.trans h1.outq⟩

theorem Serves.mono (h : Serves A c k s t) (hAB : ∀ a, A a → B a) : Serves B c k s t :=
  ⟨fun a ha => h.regs a fun hA => ha (hAB a hA), h.mem, h.poison, h.now, h.misses, h.back, h.outq⟩

end

theorem serves_count (c : CoreId) (k : Nat) (s : State) (a n : Nat) : Serves (· = a) c k s (s.count a n) :=
  ⟨fun _ hb => reg_count_other _ _ hb, count_mem .., count_poison .., count_now .., by rw [count_stack], by rw [count_stack], by rw [count_core]⟩

theorem serves_fput (c : CoreId) (k : Nat) (s : State) (a : Nat) (f : Fd) (v : Nat) : Serves (· = a) c k s (s.fput a f v) :=
  ⟨fun _ hb => reg_fput_other _ _ _ hb, fput_mem .., fput_poison .., fput_now .., by rw [fput_stack], by rw [fput_stack], by rw [fput_core]⟩

theorem serves_modCore (A : Nat → Prop) (c : CoreId) (k : Nat) (s : State) {f : CoreS → CoreS} (hf : (f (s.core c)).outq = (s.core c).outq) :
    Serves A c k s (s.modCore c f) :=
  ⟨fun _ _ => modCore_reg .., modCore_mem .., modCore_poison .., modCore_now .., by rw [modCore_stack], by rw [modCore_stack], by rw [core_modCore_same, hf]⟩

theorem serves_modStack (A : Nat → Prop) (c : CoreId) (k : Nat) (s : State) {f : StackS → StackS} (hm : (f (s.stack k)).misses = (s.stack k).misses)
    (hb : (f (s.stack k)).back = (s.stack k).back) : Serves A c k s (s.modStack k f) :=
  ⟨fun _ _ => modStack_reg .., modStack_mem .., modStack_poison .., modStack_now .., by rw [stack_modStack_same, hm], by rw [stack_modStack_same, hb],
    by rw [modStack_core]⟩

theorem serves_arriving (s : State) (c : CoreId) (o : OutReqS) (e : Nat) :
    Serves (· = rEdgeBeatsOut (stackHall o.stack) (o.stack % 2)) c o.stack s (s.arriving c o e) := by
  unfold State.arriving State.works State.notePage State.modDesc
  refine Serves.trans ?_ (serves_modCore _ _ _ _ rfl)
  refine Serves.trans ?_ (serves_modStack _ _ _ _ rfl rfl)
  refine Serves.trans ?_ (serves_count ..)
  exact (serves_modCore _ _ _ _ rfl).trans (serves_modCore _ _ _ _ rfl)

theorem serves_pfUse (s : State) (c : CoreId) (id k line : Nat) (hit : Bool) :
    Serves (fun a => hit = true ∧ a = rStkPfUseCnt (stackHall k) (k % 2)) c k s (s.pfUse c id k line hit) := by
  unfold State.pfUse
  extract_lets s1 s2
  have h1 : Serves (fun a => hit = true ∧ a = rStkPfUseCnt (stackHall k) (k % 2)) c k s s1 := by
    unfold s1
    split
    · exact serves_modCore _ _ _ _ rfl
    · exact .refl ..
  have h2 : Serves (fun a => hit = true ∧ a = rStkPfUseCnt (stackHall k) (k % 2)) c k s s2 := h1.trans (serves_modStack _ _ _ _ rfl rfl)
  clear_value s1 s2
  split
  · exact h1
  · split
    · rename_i hit
      exact h2.trans ((serves_count ..).mono fun a ha => ⟨hit, ha⟩)
    · exact h2

/-- A line that is present comes in without another that leaves. -/
theorem serves_cacheIn_present {s : State} {k line : Nat} (c : CoreId) (dirty : Bool) (h : ∃ y ∈ (s.stack k).lines, y.1 = line) :
    Serves (fun _ => False) c k s (s.cacheIn k line dirty) := by
  have hv : (s.stack k).victim line = none := by
    obtain ⟨y, hy, rfl⟩ := h
    rw [StackS.victim]
    exact if_pos (Bool.or_eq_true_iff.2 (.inl (List.any_eq_true.2 ⟨y, hy, by simp⟩)))
  unfold State.cacheIn
  simp only [hv]
  exact serves_modStack _ _ _ _ rfl rfl

/-- One request more is outstanding for the core. -/
theorem reqAdd_fields (s : State) (c : CoreId) (e k : Nat) (h : s.fget (rStrmStatus c) fStrmStatusReqUsed < 64) :
    (s.reqAdd c e).fget (rStrmStatus c) fStrmStatusReqUsed = s.fget (rStrmStatus c) fStrmStatusReqUsed + 1 ∧ Serves (· = rStrmStatus c) c k s (s.reqAdd c e) := by
  refine ⟨?_, (serves_modCore _ _ _ _ rfl).trans (serves_fput ..)⟩
  rw [State.reqAdd, fget_fput_same _ _ _ _ (by decide) (by decide)]
  exact Nat.mod_eq_of_lt (by show _ < 128; omega)

/-- A counter of a stack. -/
def stkCnt (r : Nat → Nat → Nat) (k : Nat) : Nat := r (stackHall k) (k % 2)

theorem stk_addrs (c : CoreId) (k : Nat) : stkCnt rStkHitCnt k ≠ stkCnt rStkPfUseCnt k ∧ stkCnt rStkHitCnt k ≠ rStrmStatus c ∧
    rStrmStatus c ≠ stkCnt rStkHitCnt k ∧ rStrmStatus c ≠ stkCnt rStkPfUseCnt k ∧ rStrmStatus c ≠ stkCnt rStkMissCnt k ∧
    rStrmStatus c ≠ stkCnt rStkMergeCnt k ∧ stkCnt rStkMissCnt k ≠ rStrmStatus c := by
  unfold stkCnt rStkHitCnt rStkPfUseCnt rStrmStatus rStkMissCnt rStkMergeCnt hallBase hallSpace coreBase coreSpace
  omega

theorem edge_addrs (c : CoreId) (k h : Nat) : rStrmStatus c ≠ stkCnt rEdgeBeatsOut k ∧ rStkCfg h (k % 2) ≠ stkCnt rEdgeBeatsOut k ∧
    stkCnt rStkHitCnt k ≠ stkCnt rEdgeBeatsOut k ∧ stkCnt rStkMissCnt k ≠ stkCnt rEdgeBeatsOut k ∧ stkCnt rStkRefuseCnt k ≠ stkCnt rEdgeBeatsOut k := by
  have : k % 2 < 2 := Nat.mod_lt _ (by decide)
  unfold stkCnt rStkHitCnt rStrmStatus rStkMissCnt rStkRefuseCnt rStkCfg rEdgeBeatsOut hallBase hallSpace coreBase coreSpace
  omega

theorem demand_hit {s : State} {e k l : Nat} {r : ReqS} (hl : ∃ y ∈ (s.stack k).lines, y.1 = l) (hk : r.kind = .read) :
    s.demand e k l r .clean = ((((((s.stkCount rStkHitCnt k).cacheIn k l false).pfUse r.core r.desc k l true).reqAdd r.core e).holdBack k l r), true) := by
  obtain ⟨y, hy, hyl⟩ := hl
  have hany : ((s.stack k).lines.any fun y => y.1 == l) = true := List.any_eq_true.2 ⟨y, hy, by simpa using hyl⟩
  unfold State.demand
  simp only [hany, if_true, State.hitReq, hk]
  rfl

theorem lines_absent {x : StackS} {l : Nat} (h : ∀ y ∈ x.lines, y.1 ≠ l) : (x.lines.any fun y => y.1 == l) = false :=
  List.any_eq_false.2 fun y hy => by simpa using h y hy

theorem misses_absent {x : StackS} {l : Nat} (h : ∀ m ∈ x.misses, m.line ≠ l) : (x.misses.any fun m => m.line == l) = false :=
  List.any_eq_false.2 fun y hy => by simpa using h y hy

theorem demand_merge {s : State} {e k l : Nat} {r : ReqS} (hl : ∀ y ∈ (s.stack k).lines, y.1 ≠ l) (hm : ∃ m ∈ (s.stack k).misses, m.line = l)
    (hk : r.kind = .read) : s.demand e k l r .clean = (((s.mergeReq k l r).reqAdd r.core e).pfUse r.core r.desc k l false, true) := by
  obtain ⟨m, hm, hml⟩ := hm
  have hany : ((s.stack k).misses.any fun y => y.line == l) = true := List.any_eq_true.2 ⟨m, hm, by simpa using hml⟩
  unfold State.demand
  simp only [lines_absent hl, hany, if_true, hk]
  rfl

theorem demand_miss {s : State} {e k l : Nat} {r : ReqS} (hl : ∀ y ∈ (s.stack k).lines, y.1 ≠ l) (hm : ∀ m ∈ (s.stack k).misses, m.line ≠ l)
    (hslot : s.slotFor k l = true) (hk : r.kind = .read) :
    s.demand e k l r .clean = (((s.missReq k l r).reqAdd r.core e).pfUse r.core r.desc k l false, true) := by
  unfold State.demand
  simp only [lines_absent hl, misses_absent hm, hslot, if_true, hk]
  rfl

theorem demand_refused {s : State} {e k l : Nat} {r : ReqS} (hl : ∀ y ∈ (s.stack k).lines, y.1 ≠ l) (hm : ∀ m ∈ (s.stack k).misses, m.line ≠ l)
    (hslot : s.slotFor k l = false) (hk : r.kind = .read) : s.demand e k l r .clean = (s.stkCount rStkRefuseCnt k, false) := by
  unfold State.demand
  simp only [lines_absent hl, misses_absent hm, hslot, hk]
  rfl

theorem poisoned_congr {s t : State} (h : t.poison = s.poison) (a n : Nat) : t.poisoned a n = s.poisoned a n := by rw [State.poisoned, State.poisoned, h]

/-- The data of a line, none of a poisoned one. -/
def State.lineData (s : State) (l : Nat) : Option Bytes := if s.poisoned l 128 then none else some (s.rdBytes l 128)

theorem Serves.lineData {A : Nat → Prop} {c : CoreId} {k : Nat} {s t : State} (h : Serves A c k s t) (l : Nat) : t.lineData l = s.lineData l := by
  rw [State.lineData, State.lineData, poisoned_congr h.poison, rdBytes_congr fun a _ _ => rdB_congr h.mem a]

/-- The use of a request that hits. -/
theorem hit_fields {s : State} {e k l : Nat} {r : ReqS} (hl : ∃ y ∈ (s.stack k).lines, y.1 = l) (hk : r.kind = .read)
    (hu : s.fget (rStrmStatus r.core) fStrmStatusReqUsed < 64) : ∃ t, s.demand e k l r .clean = (t, true) ∧
      t.reg (stkCnt rStkHitCnt k) = s.reg (stkCnt rStkHitCnt k) + 1 ∧
      t.fget (rStrmStatus r.core) fStrmStatusReqUsed = s.fget (rStrmStatus r.core) fStrmStatusReqUsed + 1 ∧
      (t.stack k).back = (s.stack k).back ++ [⟨r, l, s.lineData l⟩] ∧ t.mem = s.mem ∧
      RegsBut (fun a => a = rStrmStatus r.core ∨ a = stkCnt rStkHitCnt k ∨ a = stkCnt rStkPfUseCnt k) s t := by
  obtain ⟨hp, hs, hsh, hsp, -, -, -⟩ := stk_addrs r.core k
  obtain ⟨s1, h1⟩ : ∃ t, t = s.stkCount rStkHitCnt k := ⟨_, rfl⟩
  obtain ⟨s2, h2⟩ : ∃ t, t = s1.cacheIn k l false := ⟨_, rfl⟩
  obtain ⟨s3, h3⟩ : ∃ t, t = s2.pfUse r.core r.desc k l true := ⟨_, rfl⟩
  obtain ⟨s4, h4⟩ : ∃ t, t = s3.reqAdd r.core e := ⟨_, rfl⟩
  have v1 : Serves (· = stkCnt rStkHitCnt k) r.core k s s1 := h1 ▸ serves_count ..
  have v2 : Serves (fun _ => False) r.core k s1 s2 := h2 ▸ serves_cacheIn_present _ _ (by rw [h1, State.stkCount, count_stack]; exact hl)
  have v3 : Serves (fun a => true = true ∧ a = stkCnt rStkPfUseCnt k) r.core k s2 s3 := h3 ▸ serves_pfUse ..
  have hused : s3.fget (rStrmStatus r.core) fStrmStatusReqUsed = s.fget (rStrmStatus r.core) fStrmStatusReqUsed := by
    rw [State.fget, v3.regs _ fun h => hsp h.2, v2.regs _ id, v1.regs _ hsh, ← State.fget]
  obtain ⟨hadd, v4⟩ := reqAdd_fields s3 r.core e k (hused ▸ hu)
  rw [← h4] at hadd v4
  have vs : Serves (fun a => a = rStrmStatus r.core ∨ a = stkCnt rStkHitCnt k ∨ a = stkCnt rStkPfUseCnt k) r.core k s s4 :=
    (((v1.mono fun a h => .inr (.inl h)).trans (v2.mono fun a h => h.elim)).trans (v3.mono fun a h => .inr (.inr h.2))).trans (v4.mono fun a h => .inl h)
  refine ⟨s4.holdBack k l r, ?_, ?_, ?_, ?_, ?_, fun a ha => ?_⟩
  · rw [demand_hit hl hk, h4, h3, h2, h1]
  · rw [State.holdBack, modStack_reg, v4.regs _ hs, v3.regs _ fun h => hp h.2, v2.regs _ id, h1]
    exact reg_count_same ..
  · rw [State.holdBack, modStack_fget, hadd, hused]
  · rw [State.holdBack, stack_modStack_same]
    dsimp only
    rw [vs.back, ← State.lineData, vs.lineData]
  · rw [State.holdBack, modStack_mem, vs.mem]
  · rw [State.holdBack, modStack_reg, vs.regs a ha]

/-- The miss slots once a request has been counted on `cnt` and put where `f` says. -/
theorem slot_fields {s u : State} {e k l : Nat} {r : ReqS} {cnt : Nat → Nat → Nat} {ms : List MissS} (hu : s.fget (rStrmStatus r.core) fStrmStatusReqUsed < 64)
    (hregs : RegsBut (· = stkCnt cnt k) s u) (hmem : u.mem = s.mem) (hms : (u.stack k).misses = ms) (hne : rStrmStatus r.core ≠ stkCnt cnt k)
    (t : State) (ht : t = (u.reqAdd r.core e).pfUse r.core r.desc k l false) : (t.stack k).misses = ms ∧
      t.fget (rStrmStatus r.core) fStrmStatusReqUsed = s.fget (rStrmStatus r.core) fStrmStatusReqUsed + 1 ∧ t.mem = s.mem ∧
      (∀ a, a ≠ rStrmStatus r.core → t.reg a = u.reg a) ∧ RegsBut (fun a => a = rStrmStatus r.core ∨ a = stkCnt cnt k) s t := by
  have hused : u.fget (rStrmStatus r.core) fStrmStatusReqUsed = s.fget (rStrmStatus r.core) fStrmStatusReqUsed := by rw [State.fget, hregs _ hne, ← State.fget]
  obtain ⟨hadd, v1⟩ := reqAdd_fields u r.core e k (hused ▸ hu)
  have v2 := serves_pfUse (u.reqAdd r.core e) r.core r.desc k l false
  rw [← ht] at v2
  have hr (a : Nat) : t.reg a = (u.reqAdd r.core e).reg a := v2.regs a fun h => Bool.false_ne_true h.1
  refine ⟨v2.misses.trans (v1.misses.trans hms), ?_, v2.mem.trans (v1.mem.trans hmem), fun a ha => (hr a).trans (v1.regs a ha), fun a ha => ?_⟩
  · rw [State.fget, hr, ← State.fget, hadd, hused]
  · rw [not_or] at ha
    rw [hr, v1.regs a ha.1, hregs a ha.2]

/-! ### The request's state as it is made -/

/-- A translation changes the walk's counters, and neither memory nor time. -/
theorem xlat_keeps (s : State) (c : CoreId) (va acc : Nat) : (s.xlat c va acc).1.mem = s.mem ∧ (s.xlat c va acc).1.poison = s.poison ∧
    (s.xlat c va acc).1.now = s.now ∧ RegsBut (walkReg c (s.coreCtx c).val va) s (s.xlat c va acc).1 := by
  have hwalk : (s.walk c va acc).1.mem = s.mem ∧ (s.walk c va acc).1.poison = s.poison ∧ (s.walk c va acc).1.now = s.now ∧
      RegsBut (walkReg c (s.coreCtx c).val va) s (s.walk c va acc).1 := by
    obtain ⟨⟨hregs, hoff⟩, -⟩ := walked_fields s c va
    have hm : (s.walked c va).mem = s.mem := congrArg (fun p => p.1.1) hoff
    have hp : (s.walked c va).poison = s.poison := congrArg (fun p => p.1.2) hoff
    have hn : (s.walked c va).now = s.now := congrArg (fun p => p.2.2.2.1) hoff
    rw [walk_eq]
    split
    · exact ⟨hm, hp, hn, hregs⟩
    · exact ⟨(modCore_mem ..).trans hm, (modCore_poison ..).trans hp, (modCore_now ..).trans hn, fun a ha => (modCore_reg ..).trans (hregs a ha)⟩
  unfold State.xlat
  extract_lets k
  split
  · exact ⟨rfl, rfl, rfl, fun _ _ => rfl⟩
  · split
    · split
      · exact ⟨rfl, rfl, rfl, fun _ _ => rfl⟩
      · exact hwalk
    · exact hwalk

theorem rStrmStatus_not_walk (c d : CoreId) (k va : Nat) : ¬ walkReg d k va (rStrmStatus c) := by
  rintro (h | ⟨r, hr, h⟩)
  · unfold rStrmStatus coreBase coreSpace rTrWalkCnt hallBase hallSpace at h
    omega
  · simp only [List.mem_cons, List.not_mem_nil, or_false] at hr
    unfold rStrmStatus coreBase coreSpace at h
    rcases hr with rfl | rfl | rfl | rfl
    · unfold rStkHitCnt hallBase hallSpace at h
      omega
    · unfold rStkMissCnt hallBase hallSpace at h
      omega
    · unfold rStkWbCnt hallBase hallSpace at h
      omega
    · unfold rStkRefuseCnt hallBase hallSpace at h
      omega

/-- What the translation of a request leaves as it was. -/
structure Asked (s u : State) (c : CoreId) : Prop where
  mem : u.mem = s.mem
  poison : u.poison = s.poison
  now : u.now = s.now
  status : u.reg (rStrmStatus c) = s.reg (rStrmStatus c)
  outq : (u.core c).outq = (s.core c).outq
  descs : (u.core c).descs = (s.core c).descs

theorem reqPa_keeps {s u : State} {c : CoreId} {x : DescS} {d : DescP} {kind : StackReq} {va : Nat} {p : Except Nat Nat}
    (h : s.reqPa c x d kind va = (u, p)) : Asked s u c := by
  have hx (acc : Nat) : Asked s (s.xlat c va acc).1 c := by
    obtain ⟨hm, hp, hn, hr⟩ := xlat_keeps s c va acc
    exact ⟨hm, hp, hn, hr _ (rStrmStatus_not_walk c c _ _), xlat_core CoreS.outq (fun _ _ => rfl) .., xlat_descs ..⟩
  unfold State.reqPa at h
  generalize (if x.staged && (kind == .read || kind == .prefetch) then d.srcHull else none) = o at h
  cases o with
  | some b =>
    obtain ⟨rfl, -⟩ := Prod.mk.inj h
    exact ⟨rfl, rfl, rfl, rfl, rfl, rfl⟩
  | none =>
    dsimp only at h
    have hu : u = _ := (congrArg Prod.fst h).symm
    rw [hu]
    exact hx _

theorem arriving_lines (s : State) (c : CoreId) (o : OutReqS) (e : Nat) : ((s.arriving c o e).stack o.stack).lines = (s.stack o.stack).lines := by
  unfold State.arriving State.works State.notePage State.modDesc
  rw [modCore_stack, stack_modStack_same, count_stack, modCore_stack, modCore_stack]

/-- A request that leaves now, at its stack. -/
theorem asks_now {s u : State} {c : CoreId} {e : BitVec 6} {va : BitVec 40} {x : DescS} {d : DescP} {pa : Nat} (port lane : Fin 4)
    (hr : s.run c = true) (hx : s.desc c e.toNat = some x) (hid : (s.core c).descs.findIdx? (fun y => y.id == x.id) = some e.toNat)
    (hd : x.parsed = some d) (hf : x.faulted = false) (hre : x.recheck = false)
    (hm : s.moving c e.toNat x d = true) (hva : va.toNat < hbmEnd) (hfit : d.reqFits .read va.toNat = true)
    (hroom : s.fget (rStrmStatus c) fStrmStatusReqUsed + (s.core c).outq.length < 64) (hpa : s.reqPa c x d .read va.toNat = (u, .ok pa))
    (hnow : s.leavesNow u c (stackOf pa) port.val lane.val) : ∃ (w : State) (r : ReqS) (o : OutReqS), r.core = c ∧ r.desc = x.id ∧ r.kind = .read ∧
      o.desc = x.id ∧ o.line = lineOf pa ∧ Serves (· = stkCnt rEdgeBeatsOut (stackOf pa)) c (stackOf pa) u w ∧
      (w.stack (stackOf pa)).lines = (u.stack (stackOf pa)).lines ∧ exec (.stackCacheRequest c e va .read 0 ⟨port, lane, .clean⟩) s =
        .next (if (w.demand e.toNat (stackOf pa) (lineOf pa) r .clean).2 then (w.demand e.toNat (stackOf pa) (lineOf pa) r .clean).1
          else (w.demand e.toNat (stackOf pa) (lineOf pa) r .clean).1.modCore c fun x => { x with outq := { o with refused := true } :: x.outq }) := by
  obtain ⟨v, hv⟩ : ∃ v, v = u.modDesc c e.toNat fun y => { y with sent := s.sentTo c e.toNat x } := ⟨_, rfl⟩
  obtain ⟨o, ho⟩ : ∃ o, o = s.readAsk c e.toNat x va.toNat pa port.val lane.val := ⟨_, rfl⟩
  have hfind : (v.core c).descs.findIdx? (fun y => y.id == o.desc) = some e.toNat := by
    rw [hv, State.modDesc, core_modCore_same, ho]
    dsimp only
    rw [(reqPa_keeps hpa).descs]
    refine (findIdx_id_modify _ _ _ ?_).trans hid
    exact fun _ => rfl
  obtain ⟨r, hrc, hrd, hrk, hsend⟩ := sendReq_read hfind (by rw [ho]; rfl)
  refine ⟨v.arriving c o e.toNat, r, o, hrc, by rw [hrd, ho]; rfl, hrk, by rw [ho]; rfl, by rw [ho]; rfl, ?_, ?_, ?_⟩
  · have := serves_arriving v c o e.toNat
    rw [show o.stack = stackOf pa by rw [ho]; rfl] at this
    exact Serves.trans (hv ▸ serves_modCore _ _ _ _ rfl) this
  · have := arriving_lines v c o e.toNat
    rw [show o.stack = stackOf pa by rw [ho]; rfl] at this
    rw [this, hv, State.modDesc, modCore_stack]
  · rw [stackCacheRequest_read _ hr hx hd hf hre hm hva hfit hroom, (makeReq_read _ rfl hpa).1 hnow, ← hv]
    refine congrArg Host.Outcome.next (Eq.trans ?_ (hsend.trans ?_))
    · rw [ho]
    · rw [show o.stack = stackOf pa by rw [ho]; rfl, show o.line = lineOf pa by rw [ho]; rfl, show o.ecc = .clean by rw [ho]; rfl]

theorem asks_waits {s u : State} {c : CoreId} {e : BitVec 6} {va : BitVec 40} {x : DescS} {d : DescP} {pa : Nat} (port lane : Fin 4)
    (hr : s.run c = true) (hx : s.desc c e.toNat = some x) (hd : x.parsed = some d) (hf : x.faulted = false) (hre : x.recheck = false)
    (hm : s.moving c e.toNat x d = true) (hva : va.toNat < hbmEnd) (hfit : d.reqFits .read va.toNat = true)
    (hroom : s.fget (rStrmStatus c) fStrmStatusReqUsed + (s.core c).outq.length < 64) (hpa : s.reqPa c x d .read va.toNat = (u, .ok pa))
    (hnow : ¬ s.leavesNow u c (stackOf pa) port.val lane.val) : Runs (.stackCacheRequest c e va .read 0 ⟨port, lane, .clean⟩) s fun t =>
      (∃ o, (t.core c).outq = (s.core c).outq ++ [o] ∧ o.desc = x.id ∧ o.line = lineOf pa ∧ o.refused = false) ∧ SameRegs u t ∧ SameMem s t := by
  have ha := reqPa_keeps hpa
  refine ⟨_, (stackCacheRequest_read _ hr hx hd hf hre hm hva hfit hroom).trans (congrArg _ ((makeReq_read _ rfl hpa).2 hnow)), ?_,
    fun a => (modCore_reg ..).trans (modCore_reg ..), fun a => ?_⟩
  · refine ⟨s.readAsk c e.toNat x va.toNat pa port.val lane.val, ?_, rfl, rfl, rfl⟩
    rw [core_modCore_same, State.modDesc, core_modCore_same, ← ha.outq]
  · exact rdB_congr ((modCore_mem ..).trans ((modCore_mem ..).trans ha.mem)) a

/-- The answer of a stack to a request that reaches it from state `u`, in four cases. -/
theorem demand_fields {u w : State} {c : CoreId} {e k l : Nat} {r : ReqS} (hrc : r.core = c) (hk : r.kind = .read)
    (hw : Serves (· = stkCnt rEdgeBeatsOut k) c k u w) (hlines : (w.stack k).lines = (u.stack k).lines)
    (hu : u.fget (rStrmStatus c) fStrmStatusReqUsed < 64) (f : State → State) (t : State)
    (ht : t = if (w.demand e k l r .clean).2 then (w.demand e k l r .clean).1 else f (w.demand e k l r .clean).1) :
    ((∃ y ∈ (u.stack k).lines, y.1 = l) → t.reg (stkCnt rStkHitCnt k) = u.reg (stkCnt rStkHitCnt k) + 1 ∧
      t.fget (rStrmStatus c) fStrmStatusReqUsed = u.fget (rStrmStatus c) fStrmStatusReqUsed + 1 ∧
      (t.stack k).back = (u.stack k).back ++ [⟨r, l, u.lineData l⟩] ∧ t.mem = u.mem ∧
      RegsBut (fun a => a = rStrmStatus c ∨ a = stkCnt rStkHitCnt k ∨ a = stkCnt rStkPfUseCnt k ∨ a = stkCnt rEdgeBeatsOut k) u t) ∧
    ((∀ y ∈ (u.stack k).lines, y.1 ≠ l) → (∀ m ∈ (u.stack k).misses, m.line ≠ l) → u.slotFor k l = true →
      (t.stack k).misses = (u.stack k).misses ++ [⟨l, [r], u.now⟩] ∧
      t.fget (rStrmStatus c) fStrmStatusReqUsed = u.fget (rStrmStatus c) fStrmStatusReqUsed + 1 ∧
      t.reg (stkCnt rStkMissCnt k) = u.reg (stkCnt rStkMissCnt k) + 1 ∧ t.mem = u.mem ∧
      RegsBut (fun a => a = rStrmStatus c ∨ a = stkCnt rStkMissCnt k ∨ a = stkCnt rEdgeBeatsOut k) u t) ∧
    ((∀ y ∈ (u.stack k).lines, y.1 ≠ l) → (∃ m ∈ (u.stack k).misses, m.line = l) →
      (t.stack k).misses = (u.stack k).misses.map (fun m => if m.line = l then { m with reqs := m.reqs ++ [r] } else m) ∧
      t.fget (rStrmStatus c) fStrmStatusReqUsed = u.fget (rStrmStatus c) fStrmStatusReqUsed + 1 ∧ t.mem = u.mem ∧
      RegsBut (fun a => a = rStrmStatus c ∨ a = stkCnt rStkMergeCnt k ∨ a = stkCnt rEdgeBeatsOut k) u t) ∧
    ((∀ y ∈ (u.stack k).lines, y.1 ≠ l) → (∀ m ∈ (u.stack k).misses, m.line ≠ l) → u.slotFor k l = false → t = f (w.stkCount rStkRefuseCnt k)) := by
  subst hrc
  obtain ⟨-, -, -, -, hsm, hsg, hms⟩ := stk_addrs r.core k
  obtain ⟨hse, hce, hhe, hme, hre⟩ := edge_addrs r.core k (stackHall k)
  have hused : w.fget (rStrmStatus r.core) fStrmStatusReqUsed = u.fget (rStrmStatus r.core) fStrmStatusReqUsed := by
    rw [State.fget, hw.regs _ hse, ← State.fget]
  have hslot : w.slotFor k l = u.slotFor k l := by
    unfold State.slotFor
    rw [hw.misses, State.stkCfg, State.fget, hw.regs _ hce, ← State.fget, ← State.stkCfg]
  refine ⟨fun h => ?_, fun h1 h2 h3 => ?_, fun h1 h2 => ?_, fun h1 h2 h3 => ?_⟩
  · obtain ⟨v, hv, hcnt, huse, hback, hmem, hregs⟩ := hit_fields (e := e) (hlines ▸ h) hk (hused ▸ hu)
    obtain rfl : t = v := by rw [ht, hv]; rfl
    refine ⟨hcnt.trans ?_, huse.trans (by rw [hused]), hback.trans ?_, hmem.trans hw.mem, fun a ha => ?_⟩
    · rw [hw.regs _ hhe]
    · rw [hw.back, hw.lineData]
    · rw [not_or, not_or, not_or] at ha
      exact (hregs a (by tauto)).trans (hw.regs a ha.2.2.2)
  · have hd := demand_miss (e := e) (hlines ▸ h1) (hw.misses ▸ h2) (hslot ▸ h3) hk
    obtain ⟨hmiss, huse, hmem, hother, hregs⟩ := slot_fields (e := e) (l := l) (cnt := rStkMissCnt) (ms := (w.stack k).misses ++ [⟨l, [r], w.now⟩])
      (u := w.missReq k l r) (hused ▸ hu) (fun a ha => by rw [State.missReq, modStack_reg]; exact reg_count_other _ _ ha)
      (by rw [State.missReq, modStack_mem, State.stkCount, count_mem]) (by rw [State.missReq, stack_modStack_same, State.stkCount, count_stack]) hsm t
      (by rw [ht, hd]; rfl)
    refine ⟨?_, huse.trans (by rw [hused]), ?_, hmem.trans hw.mem, fun a ha => ?_⟩
    · rw [hmiss, hw.misses, hw.now]
    · rw [hother _ hms, State.missReq, modStack_reg, ← hw.regs _ hme]
      exact reg_count_same ..
    · rw [not_or, not_or] at ha
      exact (hregs a (by tauto)).trans (hw.regs a ha.2.2)
  · have hd := demand_merge (e := e) (hlines ▸ h1) (hw.misses ▸ h2) hk
    obtain ⟨hmiss, huse, hmem, -, hregs⟩ := slot_fields (e := e) (l := l) (cnt := rStkMergeCnt)
      (ms := (w.stack k).misses.map fun m => if m.line = l then { m with reqs := m.reqs ++ [r] } else m)
      (u := w.mergeReq k l r) (hused ▸ hu) (fun a ha => by rw [State.mergeReq, modStack_reg]; exact reg_count_other _ _ ha)
      (by rw [State.mergeReq, modStack_mem, State.stkCount, count_mem]) (by rw [State.mergeReq, stack_modStack_same, State.stkCount, count_stack]) hsg t
      (by rw [ht, hd]; rfl)
    refine ⟨?_, huse.trans (by rw [hused]), hmem.trans hw.mem, fun a ha => ?_⟩
    · rw [hmiss, hw.misses]
    · rw [not_or, not_or] at ha
      exact (hregs a (by tauto)).trans (hw.regs a ha.2.2)
  · rw [ht, demand_refused (hlines ▸ h1) (hw.misses ▸ h2) (hslot ▸ h3) hk]
    rfl

theorem reqUsed_lt {s u : State} {c : CoreId} (ha : Asked s u c)
    (hroom : s.fget (rStrmStatus c) fStrmStatusReqUsed + (s.core c).outq.length < 64) : u.fget (rStrmStatus c) fStrmStatusReqUsed < 64 := by
  rw [State.fget, ha.status, ← State.fget]
  omega

theorem Asked.lineData {s u : State} {c : CoreId} (ha : Asked s u c) (l : Nat) : u.lineData l = s.lineData l := by
  rw [State.lineData, State.lineData, poisoned_congr ha.poison, rdBytes_congr fun a _ _ => rdB_congr ha.mem a]

theorem asks_refused {u w t : State} {c : CoreId} {k l id : Nat} {o : OutReqS} (hw : Serves (· = stkCnt rEdgeBeatsOut k) c k u w) (hq : (u.core c).outq = [])
    (hod : o.desc = id) (hol : o.line = l) (ht : t = (w.stkCount rStkRefuseCnt k).modCore c fun x => { x with outq := { o with refused := true } :: x.outq }) :
    t.reg (stkCnt rStkRefuseCnt k) = u.reg (stkCnt rStkRefuseCnt k) + 1 ∧ (t.stack k).misses = (u.stack k).misses ∧
      (∃ o, (t.core c).outq = [o] ∧ o.desc = id ∧ o.line = l ∧ o.refused = true) ∧
      RegsBut (fun a => a = stkCnt rStkRefuseCnt k ∨ a = stkCnt rEdgeBeatsOut k) u t ∧ t.mem = u.mem := by
  obtain ⟨-, -, -, -, hre⟩ := edge_addrs c k 0
  rw [ht]
  refine ⟨?_, ?_, ⟨{ o with refused := true }, ?_, hod, hol, rfl⟩, fun a ha => ?_, ?_⟩
  · rw [modCore_reg, ← hw.regs _ hre]
    exact reg_count_same ..
  · rw [modCore_stack, State.stkCount, count_stack, hw.misses]
  · rw [core_modCore_same, State.stkCount, count_core]
    dsimp only
    rw [hw.outq, hq]
  · rw [not_or] at ha
    rw [modCore_reg]
    exact (reg_count_other _ _ ha.1).trans (hw.regs a ha.2)
  · rw [modCore_mem, State.stkCount, count_mem, hw.mem]

/-! ### Fills, slow banks and scrubs -/

theorem cacheIn_fields (s : State) (k line : Nat) (dirty : Bool) : (s.cacheIn k line dirty).mem = s.mem ∧ (s.cacheIn k line dirty).poison = s.poison ∧
    ((s.cacheIn k line dirty).stack k).misses = (s.stack k).misses ∧ ((s.cacheIn k line dirty).stack k).back = (s.stack k).back ∧
    (∃ y ∈ ((s.cacheIn k line dirty).stack k).lines, y.1 = line) ∧ RegsBut (· = stkCnt rStkWbCnt k) s (s.cacheIn k line dirty) := by
  obtain ⟨hregs, hoff⟩ := stackStep_cacheIn s k line dirty
  have hstack : ∃ w wb pf, (s.cacheIn k line dirty).stack k = { s.stack k with lines := w, wb := wb, pf := pf } ∧ ∃ y ∈ w, y.1 = line := by
    unfold State.cacheIn
    extract_lets x was v kept s1
    have h1 : ∃ w wb pf, s1.stack k = { s.stack k with lines := w, wb := wb, pf := pf } ∧ ∃ y ∈ w, y.1 = line :=
      ⟨_, _, _, stack_modStack_same .., _, List.mem_cons_self .., rfl⟩
    clear_value s1 v
    split
    · rw [State.stkCount, count_stack]
      exact h1
    · exact h1
  obtain ⟨w, wb, pf, hst, hin⟩ := hstack
  rw [hst]
  exact ⟨congrArg (fun p => p.1.1) hoff, congrArg (fun p => p.1.2) hoff, rfl, rfl, hin, hregs⟩

theorem bankCheck_fields (s : State) (k bank : Nat) : (s.bankCheck k bank).mem = s.mem ∧ ((s.bankCheck k bank).stack k).misses = (s.stack k).misses ∧
    ((s.bankCheck k bank).stack k).back = (s.stack k).back ∧ ((s.bankCheck k bank).stack k).lines = (s.stack k).lines ∧ SameRegs s (s.bankCheck k bank) := by
  unfold State.bankCheck
  split
  · exact ⟨rfl, rfl, rfl, rfl, fun _ => rfl⟩
  · rw [stack_modStack_same]
    exact ⟨modStack_mem .., rfl, rfl, rfl, fun a => modStack_reg ..⟩

/-- A line has come in for the requests of a miss slot. -/
def State.filled (s : State) (k l : Nat) (dirty : Bool) : State :=
  (s.modStack k fun y => { y with misses := y.misses.filter fun n => n.line != l }).cacheIn k l dirty

theorem filled_fields (s : State) (k l : Nat) (dirty : Bool) : (s.filled k l dirty).mem = s.mem ∧ (s.filled k l dirty).poison = s.poison ∧
    ((s.filled k l dirty).stack k).misses = (s.stack k).misses.filter (fun m => m.line != l) ∧ ((s.filled k l dirty).stack k).back = (s.stack k).back ∧
    (∃ y ∈ ((s.filled k l dirty).stack k).lines, y.1 = l) ∧ RegsBut (· = stkCnt rStkWbCnt k) s (s.filled k l dirty) := by
  obtain ⟨hm, hp, hms, hb, hl, hr⟩ := cacheIn_fields (s.modStack k fun y => { y with misses := y.misses.filter fun n => n.line != l }) k l dirty
  rw [stack_modStack_same] at hms hb
  exact ⟨hm.trans (modStack_mem ..), hp.trans (modStack_poison ..), hms, hb, hl, fun a ha => (hr a ha).trans (modStack_reg ..)⟩

theorem missFill_eq {s : State} {k : Fin 12} {line : BitVec 40} {m : MissS}
    (hm : (s.stack k.val).misses.find? (fun m => m.line == lineOf line.toNat) = some m) (hroom : (s.stack k.val).wbRoom (lineOf line.toNat) = true) :
    exec (.missFill k line .clean) s = .next ((m.reqs.foldl (fun s r => s.serve k.val (lineOf line.toNat) r)
      (s.filled k.val (lineOf line.toNat) (m.reqs.any fun r => reqWrites r.kind))).bankCheck k.val (bankOf (lineOf line.toNat))) := by
  show execMissFill k line .clean s = _
  unfold execMissFill
  simp only [hm, hroom]
  rfl

theorem runs_missFill_prefetch {s : State} {k : Fin 12} {line : BitVec 40} (hm : ∃ m ∈ (s.stack k.val).misses, m.line = lineOf line.toNat)
    (hpf : ∀ m ∈ (s.stack k.val).misses, ∀ r ∈ m.reqs, r.kind = .prefetch) (hroom : (s.stack k.val).wbRoom (lineOf line.toNat) = true) :
    Runs (.missFill k line .clean) s fun t => (t.stack k.val).misses = (s.stack k.val).misses.filter (fun m => m.line != lineOf line.toNat) ∧
      (∃ y ∈ (t.stack k.val).lines, y.1 = lineOf line.toNat) ∧ RegsBut (· = stkCnt rStkWbCnt k.val) s t ∧ SameMem s t := by
  obtain ⟨m, hm, hml⟩ := hm
  obtain ⟨n, hn⟩ := Option.isSome_iff_exists.1 ((List.find?_isSome (p := fun m : MissS => m.line == lineOf line.toNat)).2 ⟨m, hm, by simpa using hml⟩)
  have hserve (l : List ReqS) (hl : ∀ r ∈ l, r.kind = .prefetch) (s : State) : l.foldl (fun s r => s.serve k.val (lineOf line.toNat) r) s = s := by
    induction l generalizing s with
    | nil => rfl
    | cons r l ih =>
      rw [List.foldl_cons, State.serve, hl r (List.mem_cons_self ..)]
      exact ih (fun r hr => hl r (List.mem_cons_of_mem _ hr)) s
  obtain ⟨hmem, -, hms, -, hlines, hregs⟩ := filled_fields s k.val (lineOf line.toNat) (n.reqs.any fun r => reqWrites r.kind)
  obtain ⟨hbm, hbms, -, hbl, hbr⟩ := bankCheck_fields (s.filled k.val (lineOf line.toNat) (n.reqs.any fun r => reqWrites r.kind)) k.val (bankOf (lineOf line.toNat))
  refine ⟨_, (missFill_eq hn hroom).trans (congrArg Host.Outcome.next (congrArg (fun s => State.bankCheck s _ _)
    (hserve n.reqs (hpf n (List.mem_of_find?_eq_some hn)) _))), hbms.trans hms, ?_, fun a ha => (hbr a).trans (hregs a ha), fun a => rdB_congr (hbm.trans hmem) a⟩
  rw [hbl]
  exact hlines

theorem runs_missFill_read {s : State} {k : Fin 12} {line : BitVec 40} {r : ReqS} {m : MissS}
    (hm : (s.stack k.val).misses.find? (fun m => m.line == lineOf line.toNat) = some m) (hreqs : m.reqs = [r]) (hk : r.kind = .read)
    (hroom : (s.stack k.val).wbRoom (lineOf line.toNat) = true) : Runs (.missFill k line .clean) s fun t =>
      (t.stack k.val).misses = (s.stack k.val).misses.filter (fun m => m.line != lineOf line.toNat) ∧
      (t.stack k.val).back = (s.stack k.val).back ++ [⟨r, lineOf line.toNat, s.lineData (lineOf line.toNat)⟩] ∧
      RegsBut (· = stkCnt rStkWbCnt k.val) s t ∧ SameMem s t := by
  obtain ⟨u, hu⟩ : ∃ u, u = s.filled k.val (lineOf line.toNat) (m.reqs.any fun r => reqWrites r.kind) := ⟨_, rfl⟩
  obtain ⟨hmem, hpoison, hms, hback, -, hregs⟩ := filled_fields s k.val (lineOf line.toNat) (m.reqs.any fun r => reqWrites r.kind)
  rw [← hu] at hmem hpoison hms hback hregs
  have hserve : m.reqs.foldl (fun s r => s.serve k.val (lineOf line.toNat) r) u = u.holdBack k.val (lineOf line.toNat) r := by
    rw [hreqs, List.foldl_cons, List.foldl_nil, State.serve, hk]
  obtain ⟨hbm, hbms, hbb, -, hbr⟩ := bankCheck_fields (u.holdBack k.val (lineOf line.toNat) r) k.val (bankOf (lineOf line.toNat))
  have hstack : (u.holdBack k.val (lineOf line.toNat) r).stack k.val =
      { u.stack k.val with back := (u.stack k.val).back ++ [⟨r, lineOf line.toNat, u.lineData (lineOf line.toNat)⟩] } := stack_modStack_same ..
  have hdata : u.lineData (lineOf line.toNat) = s.lineData (lineOf line.toNat) := by
    rw [State.lineData, State.lineData, poisoned_congr hpoison, rdBytes_congr fun a _ _ => rdB_congr hmem a]
  refine ⟨_, (missFill_eq hm hroom).trans (congrArg Host.Outcome.next (congrArg (fun s => State.bankCheck s _ _) (hu ▸ hserve))), ?_, ?_,
    fun a ha => (hbr a).trans ((modStack_reg ..).trans (hregs a ha)), fun a => rdB_congr (hbm.trans ((modStack_mem ..).trans hmem)) a⟩
  · rw [hbms, hstack]
    exact hms
  · rw [hbb, hstack]
    dsimp only
    rw [hback, hdata]

theorem missFill_nothing {s : State} {k : Fin 12} {line : BitVec 40}
    (h : (s.stack k.val).wbRoom (lineOf line.toNat) = false ∨ ∀ m ∈ (s.stack k.val).misses, m.line ≠ lineOf line.toNat) :
    exec (.missFill k line .clean) s = .next s := by
  show execMissFill k line .clean s = _
  unfold execMissFill
  extract_lets l
  cases hf : (s.stack k.val).misses.find? fun m => m.line == l with
  | none => rfl
  | some m =>
    have hroom : (s.stack k.val).wbRoom l = false := h.resolve_right fun hn =>
      hn m (List.mem_of_find?_eq_some hf) (by simpa using List.find?_some hf)
    simp only [hroom]
    rfl

theorem bankOf_lt (l : Nat) : bankOf l < 2 ^ 12 := by
  unfold bankOf pseudoChan bankIn
  omega

theorem hbmSlowBank_eq (s : State) (k : Fin 12) {b : Nat} (hb : b < 2 ^ 12) : exec (.hbmSlowBank k (BitVec.ofNat 12 b)) s =
    if (!s.bankSlow k.val b || (s.stack k.val).slowBanks.contains b) = true then .next s
    else .next ((s.modStack k.val fun y => { y with slowBanks := y.slowBanks ++ [b] }).emit (stkRec k.val 0x3005 k.val (b / 64) (b % 64)
      ((s.stack k.val).misses.filter fun m => bankOf m.line == b).length)) := by
  show execHbmSlowBank k (BitVec.ofNat 12 b) s = _
  have hnat : (BitVec.ofNat 12 b).toNat = b := by rw [BitVec.toNat_ofNat, Nat.mod_eq_of_lt hb]
  unfold execHbmSlowBank
  rw [hnat]

theorem runs_hbmSlowBank {s : State} {k : Fin 12} {b : Nat} (hb : b < 2 ^ 12)
    (hslow : ∃ m ∈ (s.stack k.val).misses, bankOf m.line = b ∧ s.stkCfg k.val fStkCfgSlowUs * unitsUs < s.now - m.since)
    (hnew : (s.stack k.val).slowBanks.contains b = false) : Runs (.hbmSlowBank k (BitVec.ofNat 12 b)) s fun t =>
      (t.stack k.val).slowBanks = (s.stack k.val).slowBanks ++ [b] ∧ (∃ r, t.log.arrivals = s.log.arrivals ++ [r] ∧ r.code = 0x3005) ∧
      SameRegs s t ∧ SameMem s t := by
  obtain ⟨m, hm, hbank, hage⟩ := hslow
  have hs : s.bankSlow k.val b = true := List.any_eq_true.2 ⟨m, hm, by rw [hbank, decide_eq_true hage]; simp⟩
  refine ⟨_, (hbmSlowBank_eq s k hb).trans (if_neg (by rw [hs, hnew]; decide)), ?_, ⟨_, rfl, rfl⟩, fun a => ?_, fun a => ?_⟩
  · rw [emit_stack, stack_modStack_same]
  · rw [emit_reg, modStack_reg]
  · rw [emit_rdB, modStack_rdB]

theorem hbmSlowBank_nothing {s : State} {k : Fin 12} {b : Nat} (hb : b < 2 ^ 12)
    (h : ∀ m ∈ (s.stack k.val).misses, bankOf m.line = b → s.now - m.since ≤ s.stkCfg k.val fStkCfgSlowUs * unitsUs) :
    exec (.hbmSlowBank k (BitVec.ofNat 12 b)) s = .next s := by
  have hs : s.bankSlow k.val b = false := by
    refine List.any_eq_false.2 fun m hm hslow => ?_
    simp only [Bool.and_eq_true, beq_iff_eq, decide_eq_true_eq] at hslow
    have := h m hm hslow.1
    omega
  rw [hbmSlowBank_eq s k hb, hs]
  rfl

theorem patrolScrub_eq {s : State} {k : Fin 12} {line : BitVec 40} (ecc : EccRes) (h1 : stackOf (lineOf line.toNat) = k.val) (h2 : lineOf line.toNat < hbmEnd) :
    exec (.patrolScrub k line ecc) s = .next (s.hbmRead k.val (lineOf line.toNat) ecc) :=
  congrArg Host.Outcome.next (if_pos ⟨h1, h2⟩)

theorem hbmBad_fields {s : State} (k l : Nat) (h : s.poison.contains l = false) : (s.hbmBad k l).poison = l :: s.poison ∧
    (s.hbmBad k l).reg (stkCnt rStkUncorrCnt k) = s.reg (stkCnt rStkUncorrCnt k) + 1 ∧
    (∃ r, (s.hbmBad k l).log.arrivals = s.log.arrivals ++ [r] ∧ r.code = 0x3003) ∧ RegsBut (· = stkCnt rStkUncorrCnt k) s (s.hbmBad k l) ∧
    SameMem s (s.hbmBad k l) := by
  obtain ⟨u, hu, hpoison, hregs, hmem, hlog⟩ : ∃ u, s.poisonLine l = u ∧ u.poison = l :: s.poison ∧ u.regs = s.regs ∧ u.mem = s.mem ∧ u.log = s.log := by
    refine ⟨_, if_neg (by rw [h]; decide), rfl, rfl, rfl, rfl⟩
  have hbad : s.hbmBad k l = (u.count (stkCnt rStkUncorrCnt k) 1).emit (stkRec k 0x3003 k l) := by
    rw [State.hbmBad, if_neg (by rw [h]; decide), hu]
    rfl
  rw [hbad]
  refine ⟨?_, ?_, ⟨stkRec k 0x3003 k l, ?_, rfl⟩, fun a ha => ?_, fun a => ?_⟩
  · rw [emit_poison, count_poison, hpoison]
  · rw [emit_reg, reg_count_same, reg_congr hregs]
    rfl
  · rw [State.emit, count_log, hlog]
  · rw [emit_reg, reg_count_other _ _ ha, reg_congr hregs]
  · rw [emit_rdB, count_rdB, rdB_congr hmem]

/-- Settles O42: by what a request finds at its stack, and by what fills, slow banks and scrubs change. -/
theorem stackCaches : Obligations.StackCaches := by
  refine ⟨fun s u c e va port lane x d pa => ?_, fun s k line => ?_⟩
  · intro l k q cnt used asks now hr hx hid hd hf hre hm hva hfit hroom hpa
    have ha := reqPa_keeps hpa
    have hu := reqUsed_lt ha hroom
    have hnow : now ↔ s.leavesNow u c k port.val lane.val := by
      unfold now State.leavesNow
      rw [ha.outq]
    have hmem {t : State} (h : t.mem = u.mem) : SameMem s t := fun a => rdB_congr (h.trans ha.mem) a
    refine ⟨fun h => asks_waits port lane hr hx hd hf hre hm hva hfit hroom hpa fun h' => h (hnow.2 h'), fun h => ?_⟩
    obtain ⟨w, r, o, hrc, hrd, hrk, hod, hol, hw, hlines, hrun⟩ := asks_now port lane hr hx hid hd hf hre hm hva hfit hroom hpa (hnow.1 h)
    obtain ⟨t, ht⟩ : ∃ t, t = if (w.demand e.toNat k l r .clean).2 then (w.demand e.toNat k l r .clean).1
      else (w.demand e.toNat k l r .clean).1.modCore c fun x => { x with outq := { o with refused := true } :: x.outq } := ⟨_, rfl⟩
    rw [← ht] at hrun
    obtain ⟨hhit, hmiss, hmerge, href⟩ := demand_fields hrc hrk hw hlines hu
      (fun v => v.modCore c fun x => { x with outq := { o with refused := true } :: x.outq }) t ht
    refine ⟨fun h1 => ?_, fun h1 h2 h3 h4 => ?_, fun h1 h2 => ?_, fun h1 h2 h3 => ?_⟩
    · obtain ⟨hc, hused, hback, hm, hregs⟩ := hhit h1
      exact ⟨_, hrun, hc, hused, ⟨_, hback, rfl, hrc, hrd, ha.lineData l⟩, hregs, hmem hm⟩
    · obtain ⟨hms, hused, hc, hm, hregs⟩ := hmiss h1 h2 (by rw [State.slotFor, decide_eq_true h3, decide_eq_true h4]; rfl)
      exact ⟨_, hrun, ⟨r, ha.now ▸ hms, hrc, hrd, hrk⟩, hused, hc, hregs, hmem hm⟩
    · obtain ⟨hms, hused, hm, hregs⟩ := hmerge h1 h2
      exact ⟨_, hrun, ⟨r, hms, hrc, hrd, hrk⟩, hused, hregs, hmem hm⟩
    · have ht := href h1 h2 (by rw [State.slotFor, decide_eq_false (Nat.not_lt.2 h3)]; rfl)
      obtain ⟨hc, hms, ho, hregs, hm⟩ := asks_refused hw h.1 hod hol ht
      exact ⟨_, hrun, hc, hms, ho, hregs, hmem hm⟩
  · intro l q cnt bank
    have hb := bankOf_lt l
    refine ⟨fun h1 h2 h3 => runs_missFill_prefetch h1 h2 h3, fun r m h1 h2 h3 h4 => runs_missFill_read h1 h2 h3 h4, fun h => missFill_nothing h,
      fun h1 h2 => runs_hbmSlowBank hb h1 h2, fun h => hbmSlowBank_nothing hb h, fun h1 h2 => ⟨?_, ?_, fun h3 => ?_⟩⟩
    · exact ⟨s, patrolScrub_eq .clean h1 h2, fun _ => rfl, fun _ => rfl, rfl⟩
    · exact ⟨_, patrolScrub_eq .corrected h1 h2, reg_count_same .., fun a ha => reg_count_other _ _ ha, fun a => count_rdB ..⟩
    · obtain ⟨hp, hc, hrec, hregs, hm⟩ := hbmBad_fields k.val l h3
      exact ⟨_, patrolScrub_eq .bad h1 h2, hp, hc, hrec, hregs, hm⟩

end Sys2Proof.Machine

/-! ## What faults and dumps leave of the state -/

namespace Sys2Proof.Machine

-- One proof at a time, as in Sys2Proof/Laws: each waiting proof would keep a thread and its stack.
set_option Elab.async false

/-! ### Parts of the state that no fault touches -/

/-- A part of the state that no register, core, context or memory, neither the recorder, a dump nor the bell wire, is in. -/
structure OffFaults {α : Type} (φ : State → α) : Prop where
  reg : ∀ s a v, φ (State.setReg s a v) = φ s
  core : ∀ s c v, φ (State.setCore s c v) = φ s
  ctx : ∀ s k v, φ (State.setCtx s k v) = φ s
  mem : ∀ s pa b, φ (State.wrHbm s pa b) = φ s
  dump : ∀ s d, φ { s with dump := d } = φ s
  log : ∀ s r, φ (State.emit s r) = φ s
  bell : ∀ s x y i hdr pay, φ (State.bellAt s x y i hdr pay) = φ s

section
variable {α : Type} {φ : State → α} (h : OffFaults φ)
include h

theorem OffFaults.fput (s : State) (a : Nat) (f : Fd) (v : Nat) : φ (s.fput a f v) = φ s := h.reg ..

theorem OffFaults.count (s : State) (a n : Nat) : φ (s.count a n) = φ s := h.reg ..

theorem OffFaults.modCore (s : State) (c : CoreId) (f : CoreS → CoreS) : φ (s.modCore c f) = φ s := h.core ..

theorem OffFaults.modCtx (s : State) (k : Nat) (f : CtxS → CtxS) : φ (s.modCtx k f) = φ s := h.ctx ..

theorem OffFaults.askStop (s : State) (c : CoreId) (k : StopCause) : φ (s.askStop c k) = φ s := h.core ..

theorem OffFaults.settle (s : State) (c : CoreId) : φ (s.settle c) = φ s := by
  unfold State.settle
  extract_lets n s1
  have h1 : φ s1 = φ s := h.modCore ..
  split
  · rfl
  · split
    · exact h1
    · rw [h.count, h.count, h.count, h.count, h1]

theorem OffFaults.dumpStart (s : State) (tr : Nat) (k : Option CtxId) (q : Bool) : φ (s.dumpStart tr k q) = φ s := by
  unfold State.dumpStart
  extract_lets s1 scope cores halted d s2 s3 s4
  have h2 : φ s2 = φ s1 := foldl_same φ _ (fun t c => (h.fput ..).trans (h.settle t c)) _ _
  have h3 : φ s3 = φ s2 := foldl_same φ _ (fun t c => (h.askStop ..).trans (h.fput ..)) _ _
  rw [h.dump, h.mem, h.fput, h3, h2, h.fput, h.fput, h.fput]

theorem OffFaults.emitTrig (s : State) (en : Fd) (r : EvRec) : φ (s.emitTrig en r) = φ s := by
  unfold State.emitTrig
  split
  · exact h.log ..
  · split
    · rw [h.dumpStart, h.log]
    · rw [h.log, h.log]

theorem OffFaults.emitFault (s : State) (k : CtxId) (r : EvRec) : φ (s.emitFault k r) = φ s := by
  unfold State.emitFault
  split
  · exact h.log ..
  · exact h.emitTrig ..

theorem OffFaults.stopCtx (s : State) (k code : Nat) : φ (s.stopCtx k code) = φ s := by
  unfold State.stopCtx
  rw [foldl_same φ _ fun t c => by rw [h.askStop, h.fput], h.modCtx]

theorem OffFaults.bellFrom (s : State) (c : CoreId) (hdr : BitVec 32) (pay : List (BitVec 32)) : φ (s.bellFrom c hdr pay) = φ s := by
  unfold State.bellFrom
  rw [h.count, h.bell]

theorem OffFaults.faultCore (s : State) (c : CoreId) (r : EvRec) : φ (s.faultCore c r) = φ s := by
  unfold State.faultCore
  rw [h.stopCtx, h.bellFrom, h.fput, h.emitFault]

theorem OffFaults.faultHall (s : State) (n : Nat) (k : CtxId) (r : EvRec) : φ (s.faultHall n k r) = φ s := by
  unfold State.faultHall
  rw [h.stopCtx, h.bell, h.emitFault]

end

theorem wrHbm_beats (s : State) (pa : Nat) (b : Bytes) : (s.wrHbm pa b).beats = s.beats := by
  unfold State.wrHbm
  rw [wrBytes_eq]

theorem offFaults_beats : OffFaults State.beats :=
  ⟨fun _ _ _ => rfl, fun _ _ _ => rfl, fun _ _ _ => rfl, wrHbm_beats, fun _ _ => rfl, fun _ _ => rfl, fun _ _ _ _ _ _ => rfl⟩

/-! ### Registers that a record, and the dump it may start, can change -/

/-- The registers of a dump's start: those of the dump, CNT_CTL and CORE_CTL of cores, and the counters that it settles. -/
def dumpReg (a : Nat) : Prop := a = rDumpCfg ∨ a = rDumpStatus ∨ ∃ d : CoreId, a = rCntCtl d ∨ a = rCoreCtl d ∨ settleReg d a

theorem reg_dumpStart_outside (s : State) (tr : Nat) (k : Option CtxId) (q : Bool) {a : Nat} (ha : ¬ dumpReg a) : (s.dumpStart tr k q).reg a = s.reg a := by
  simp only [dumpReg, not_or, not_exists] at ha
  obtain ⟨hcfg, hstat, hd⟩ := ha
  unfold State.dumpStart
  extract_lets s1 scope cores halted d s2 s3 s4
  have h2 : s2.reg a = s1.reg a := foldl_same (fun t => t.reg a) _
    (fun t c => (reg_fput_other _ _ _ (hd c).1).trans (reg_settle_outside t c (hd c).2.2)) _ _
  have h3 : s3.reg a = s2.reg a := foldl_same (fun t => t.reg a) _ (fun t c => (askStop_reg ..).trans (reg_fput_other _ _ _ (hd c).2.1)) _ _
  rw [reg_dump, wrHbm_reg, reg_fput_other _ _ _ hstat, h3, h2, reg_fput_other _ _ _ hstat, reg_fput_other _ _ _ hstat, reg_fput_other _ _ _ hcfg]

theorem reg_emitTrig_outside (s : State) (en : Fd) (r : EvRec) {a : Nat} (ha : ¬ dumpReg a) : (s.emitTrig en r).reg a = s.reg a := by
  unfold State.emitTrig
  split
  · rfl
  · split
    · rw [reg_dumpStart_outside _ _ _ _ ha, emit_reg]
    · rw [emit_reg, emit_reg]

theorem reg_emitFault_outside (s : State) (k : CtxId) (r : EvRec) {a : Nat} (ha : ¬ dumpReg a) : (s.emitFault k r).reg a = s.reg a := by
  unfold State.emitFault
  split
  · rfl
  · exact reg_emitTrig_outside s _ _ ha

theorem rCoreStatus_not_dump (c : CoreId) : ¬ dumpReg (rCoreStatus c) := by
  rintro (h | h | ⟨d, h | h | h⟩)
  · unfold rCoreStatus coreBase coreSpace rDumpCfg dieSpace at h
    omega
  · unfold rCoreStatus coreBase coreSpace rDumpStatus dieSpace at h
    omega
  · exact (show rCoreStatus c ≠ rCntCtl d from core_addr_ne (by decide) (by decide) (by decide)) h
  · exact rCoreStatus_ne_rCoreCtl c d h
  · rw [rCoreStatus] at h
    have := not_settleReg (c := d) (d := c) (o := 0x200010) (by decide)
    exact this h

/-- A fault of a hall leaves FAULT of every core. -/
theorem fault_faultHall (s : State) (h : Nat) (k : CtxId) (r : EvRec) (c : CoreId) :
    (s.faultHall h k r).fget (rCoreStatus c) fCoreStatusFault = s.fget (rCoreStatus c) fCoreStatusFault := by
  rw [State.faultHall, fault_stopCtx, State.fget, bellAt_reg, reg_emitFault_outside _ _ _ (rCoreStatus_not_dump c), ← State.fget]

end Sys2Proof.Machine

/-! ## A beat at a mesh input (R35, R51, R171, R173) -/

namespace Sys2Proof.Machine

-- One proof at a time, as in Sys2Proof/Laws: each waiting proof would keep a thread and its stack.
set_option Elab.async false

/-! ### What the slot tables of a core depend on -/

theorem linkRouter_lt (n : Nat) : linkRouter n < 8 := by
  unfold linkRouter
  split <;> omega

theorem edgeOf_lt {c : CoreId} {e p : Nat} (h : edgeOf c = some (e, p)) : e < 8 := by
  have hx : c.col.val < 12 := c.col.isLt
  unfold edgeOf at h
  extract_lets hall y x at h
  split at h
  · rename_i n _
    obtain ⟨rfl, -⟩ := Prod.mk.inj (Option.some.inj h)
    exact linkRouter_lt n
  · split at h
    · split at h
      · obtain ⟨rfl, -⟩ := Prod.mk.inj (Option.some.inj h)
        decide
      · exact absurd h (by simp)
    · simp only [Option.ite_none_right_eq_some, Option.some.injEq, Prod.mk.injEq] at h
      omega

/-- The registers of a core's slot tables, and the status that names its context. -/
def slotReg (c : CoreId) (a : Nat) : Prop :=
  a = rPortSlotCfg c ∨ a = rCoreStatus c ∨ (∃ o i, o < 6 ∧ i < 2 ^ 15 ∧ a = rPortSlot c o i) ∨ ∃ e k i, a = rLaneTab c.hall.val e k i

theorem slotPeriod_le (s : State) (c : CoreId) : s.slotPeriod c ≤ 2 ^ 15 :=
  Nat.pow_le_pow_right (by decide) (Nat.le_of_lt_succ (Nat.mod_lt _ (by decide)))

theorem slotPeriod_pos (s : State) (c : CoreId) : 0 < s.slotPeriod c := Nat.pow_pos (by decide)

section
variable {s t : State} {c : CoreId} (h : ∀ a, slotReg c a → t.reg a = s.reg a)
include h

theorem slotPeriod_congr : t.slotPeriod c = s.slotPeriod c := by
  rw [State.slotPeriod, State.fget, h _ (.inl rfl), ← State.fget, ← State.slotPeriod]

theorem portEnt_congr {o : Nat} (ho : o < 6) (n : Nat) : t.portEnt c o n = s.portEnt c o n := by
  have hlt : n % s.slotPeriod c < 2 ^ 15 := lt_of_lt_of_le (Nat.mod_lt _ (slotPeriod_pos s c)) (slotPeriod_le s c)
  rw [State.portEnt, State.portEnt, slotPeriod_congr h, State.entry16, h _ (.inr (.inr (.inl ⟨o, _, ho, lt_of_le_of_lt (Nat.div_le_self ..) hlt, rfl⟩))),
    ← State.entry16]

theorem laneEnt_congr (n : Nat) : t.laneEnt c n = s.laneEnt c n := by
  unfold State.laneEnt
  split
  · split
    · rfl
    · rw [slotPeriod_congr h, State.entry16, h _ (.inr (.inr (.inr ⟨_, _, _, rfl⟩))), ← State.entry16]
  · rfl

theorem takersAt_congr (n inp : Nat) (lane2 : Bool) : t.takersAt c n inp lane2 = s.takersAt c n inp lane2 := by
  have hents : (List.range 6).map (fun o => (o, t.portEnt c o n)) = (List.range 6).map fun o => (o, s.portEnt c o n) :=
    List.map_congr_left fun o ho => by rw [portEnt_congr h (List.mem_range.1 ho)]
  unfold State.takersAt State.outsAt
  rw [laneEnt_congr h, hents]

theorem takers_congr (hslot : t.slot = s.slot) (inp : Nat) (lane2 : Bool) : t.takers c inp lane2 = s.takers c inp lane2 := by
  rw [State.takers, hslot, takersAt_congr h, ← State.takers]

theorem slotOwner_congr (hslot : t.slot = s.slot) (inp : Nat) (lane2 : Bool) : t.slotOwner c inp lane2 = s.slotOwner c inp lane2 := by
  unfold State.slotOwner
  rw [takers_congr h hslot, coreCtx_congr (h _ (.inr (.inl rfl)))]

end

/-! ### A beat from outside the mesh -/

/-- The counter by which a beat of an attachment enters the hall. -/
def enterReg (c : CoreId) (inp a : Nat) : Prop :=
  (inp = 7 ∨ cap3 c = true ∧ offGrid c inp = true) ∧ ∃ e p, edgeOf c = some (e, p) ∧ a = rEdgeBeatsIn c.hall.val e

/-- A beat that enters, and one that was corrected, change a counter alone. -/
structure Enters (A : Nat → Prop) (s u : State) : Prop where
  regs : RegsBut A s u
  mem : u.mem = s.mem
  beats : u.beats = s.beats
  cc : u.cc = s.cc
  slot : u.slot = s.slot
  cores : u.cores = s.cores

theorem enters_count (s : State) (a n : Nat) : Enters (· = a) s (s.count a n) :=
  ⟨fun _ h => reg_count_other _ _ h, count_mem .., count_beats .., count_cc .., count_slot .., count_cores ..⟩

theorem enters_attachIn (s : State) (c : CoreId) (inp : Nat) : Enters (enterReg c inp) s (s.attachIn c inp) := by
  have hsame : Enters (enterReg c inp) s s := ⟨fun _ _ => rfl, rfl, rfl, rfl, rfl, rfl⟩
  unfold State.attachIn
  split
  · rename_i e p he
    split
    · rename_i hin
      obtain ⟨hr, hm, hb, hcc, hs, hc⟩ := enters_count s (rEdgeBeatsIn c.hall.val e) 1
      exact ⟨fun a ha => hr a fun h => ha ⟨by simpa using hin, e, p, he, h⟩, hm, hb, hcc, hs, hc⟩
    · exact hsame
  · exact hsame

theorem slotReg_not_enter {c : CoreId} {inp a : Nat} (h : slotReg c a) : ¬ enterReg c inp a := by
  rintro ⟨-, e, p, he, rfl⟩
  have hlt := edgeOf_lt he
  rcases h with h | h | ⟨o, i, ho, hi, h⟩ | ⟨e', k, i, h⟩
  · unfold rEdgeBeatsIn hallBase hallSpace rPortSlotCfg coreBase coreSpace at h
    omega
  · unfold rEdgeBeatsIn hallBase hallSpace rCoreStatus coreBase coreSpace at h
    omega
  · unfold rEdgeBeatsIn hallBase hallSpace rPortSlot coreBase coreSpace at h
    omega
  · unfold rEdgeBeatsIn rLaneTab at h
    omega

theorem slotReg_ne_corr {c : CoreId} {a : Nat} (h : slotReg c a) : a ≠ rMeshCorrCnt c := by
  rintro rfl
  rcases h with h | h | ⟨o, i, ho, hi, h⟩ | ⟨e', k, i, h⟩
  · unfold rMeshCorrCnt rPortSlotCfg at h
    omega
  · unfold rMeshCorrCnt rCoreStatus at h
    omega
  · unfold rMeshCorrCnt rPortSlot at h
    omega
  · unfold rMeshCorrCnt rLaneTab hallBase hallSpace coreBase coreSpace at h
    omega

theorem gridCol_not_enter (c d : CoreId) (inp : Nat) : ¬ enterReg c inp (rGridCol d.hall.val d.col.val) ∧ rGridCol d.hall.val d.col.val ≠ rMeshCorrCnt c := by
  have hx : d.col.val < 12 := d.col.isLt
  refine ⟨?_, ?_⟩
  · rintro ⟨-, e, p, he, h⟩
    have hlt := edgeOf_lt he
    unfold rGridCol rEdgeBeatsIn hallBase at h
    omega
  · unfold rGridCol rMeshCorrCnt hallBase hallSpace coreBase coreSpace
    omega

theorem isHole_congr {s t : State} (h : ∀ d : CoreId, t.reg (rGridCol d.hall.val d.col.val) = s.reg (rGridCol d.hall.val d.col.val)) (d : CoreId) : t.isHole d = s.isHole d := by
  unfold State.isHole State.prow State.fget
  simp only [h]

/-- A beat that one output takes toward the neighbour is all that goes on. -/
theorem beatPass_single {s u : State} {A : Nat → Prop} {c d : CoreId} {inp o ent i src : Nat} {lane2 : Bool} {data : Bytes} (hu : Enters A s u)
    (hA : ∀ a, slotReg c a → ¬ A a) (hG : ∀ d : CoreId, ¬ A (rGridCol d.hall.val d.col.val)) (hb : s.beats = []) (hin : inp = 7 ∨ bitsN (s.laneEnt c s.slot) 13 11 ≠ inp)
    (ho : s.takers c inp lane2 = [(o, ent)]) (ho4 : o < 4) (hn : meshNext c o = some (d, i)) (hh : s.isHole d = false) :
    ∃ t, u.beatPass c inp lane2 src data = t ∧ t.beats = [⟨d.idx, i, s.cc + 1, src, data⟩] ∧ t.regs = u.regs ∧ t.mem = u.mem := by
  have hs (a : Nat) (ha : slotReg c a) : u.reg a = s.reg a := hu.regs a (hA a ha)
  have htwo : ¬ (inp ≠ 7 ∧ bitsN (u.laneEnt c u.slot) 13 11 = inp) := by
    rw [hu.slot, laneEnt_congr hs]
    tauto
  have hhole : u.isHole d = false := (isHole_congr (fun d => hu.regs _ (hG d)) d).trans hh
  have hout : u.beatAll c u.slot src data [(o, ent)] = { u with beats := [⟨d.idx, i, s.cc + 1, src, data⟩] } := by
    rw [State.beatAll, List.foldl_cons, List.foldl_nil, State.beatOut, if_neg (by omega), if_neg (by omega), hn]
    dsimp only
    rw [if_neg (by rw [hhole]; decide), State.addBeat, hu.beats, hb, hu.cc]
    rfl
  refine ⟨{ u with beats := [⟨d.idx, i, s.cc + 1, src, data⟩] }, ?_, rfl, rfl, rfl⟩
  unfold State.beatPass
  rw [takers_congr hs hu.slot, ho]
  simp only [if_neg htwo, hout]
  exact if_neg (by simp)

theorem meshBeat_eq {s : State} (c : CoreId) (inp : BitVec 3) (lane2 : Bool) (data : Bytes) (ecc : EccRes) (hb : s.beats = []) :
    exec (.meshBeat c inp lane2 data ecc) s = .next ((s.attachIn c inp.toNat).beatIn c inp.toNat lane2 1152 (slice data 0 128) ecc) := by
  show execMeshBeat c inp lane2 data ecc s = _
  rw [execMeshBeat, hb]
  rfl

theorem runs_meshBeat_clean {s : State} {c d : CoreId} {inp : BitVec 3} {lane2 : Bool} {o ent i : Nat} (data : Bytes) (hb : s.beats = [])
    (hin : inp.toNat = 7 ∨ bitsN (s.laneEnt c s.slot) 13 11 ≠ inp.toNat) (ho : s.takers c inp.toNat lane2 = [(o, ent)]) (ho4 : o < 4)
    (hn : meshNext c o = some (d, i)) (hh : s.isHole d = false) : Runs (.meshBeat c inp lane2 data .clean) s fun t =>
      t.beats = [⟨d.idx, i, s.cc + 1, 1152, slice data 0 128⟩] ∧ RegsBut (enterReg c inp.toNat) s t ∧ SameMem s t := by
  have hu := enters_attachIn s c inp.toNat
  obtain ⟨t, ht, hbeats, hregs, hmem⟩ := beatPass_single (src := 1152) (data := slice data 0 128) hu (fun _ => slotReg_not_enter)
    (fun e => (gridCol_not_enter c e _).1) hb hin ho ho4 hn hh
  exact ⟨t, (meshBeat_eq c inp lane2 data .clean hb).trans (congrArg Host.Outcome.next ht), hbeats, fun a ha => (reg_congr hregs a).trans (hu.regs a ha),
    fun a => rdB_congr (hmem.trans hu.mem) a⟩

theorem runs_meshBeat_corrected {s : State} {c d : CoreId} {inp : BitVec 3} {lane2 : Bool} {o ent i : Nat} (data : Bytes) (hb : s.beats = [])
    (hin : inp.toNat = 7 ∨ bitsN (s.laneEnt c s.slot) 13 11 ≠ inp.toNat) (ho : s.takers c inp.toNat lane2 = [(o, ent)]) (ho4 : o < 4)
    (hn : meshNext c o = some (d, i)) (hh : s.isHole d = false) (hfz : s.flag (rCntCtl c) fCntCtlFreeze = false) :
    Runs (.meshBeat c inp lane2 data .corrected) s fun t => t.beats = [⟨d.idx, i, s.cc + 1, 1152, slice data 0 128⟩] ∧
      t.reg (rMeshCorrCnt c) = s.reg (rMeshCorrCnt c) + 1 ∧ RegsBut (fun a => a = rMeshCorrCnt c ∨ enterReg c inp.toNat a) s t ∧ SameMem s t := by
  have hu := enters_attachIn s c inp.toNat
  have hctl : ¬ enterReg c inp.toNat (rCntCtl c) ∧ ¬ enterReg c inp.toNat (rMeshCorrCnt c) := by
    refine ⟨?_, ?_⟩
    all_goals
      rintro ⟨-, e, p, -, h⟩
      unfold rEdgeBeatsIn hallBase hallSpace at h
    · unfold rCntCtl coreBase coreSpace at h
      omega
    · unfold rMeshCorrCnt coreBase coreSpace at h
      omega
  have hcount : (s.attachIn c inp.toNat).countC c (rMeshCorrCnt c) 1 = (s.attachIn c inp.toNat).count (rMeshCorrCnt c) 1 := by
    refine if_neg ?_
    rw [State.flag, State.fget, hu.regs _ hctl.1, ← State.fget, ← State.flag, hfz]
    decide
  obtain ⟨hr, hm, hbe, hcc, hsl, hco⟩ := enters_count (s.attachIn c inp.toNat) (rMeshCorrCnt c) 1
  have hv : Enters (fun a => a = rMeshCorrCnt c ∨ enterReg c inp.toNat a) s ((s.attachIn c inp.toNat).count (rMeshCorrCnt c) 1) :=
    ⟨fun a ha => (hr a fun h => ha (.inl h)).trans (hu.regs a fun h => ha (.inr h)), hm.trans hu.mem, hbe.trans hu.beats, hcc.trans hu.cc, hsl.trans hu.slot,
      hco.trans hu.cores⟩
  obtain ⟨t, ht, hbeats, hregs, hmem⟩ := beatPass_single (src := 1152) (data := slice data 0 128) hv
    (fun a ha h => h.elim (slotReg_ne_corr ha) (slotReg_not_enter ha))
    (fun e h => h.elim (gridCol_not_enter c e inp.toNat).2 (gridCol_not_enter c e inp.toNat).1) hb hin ho ho4 hn hh
  refine ⟨t, (meshBeat_eq c inp lane2 data .corrected hb).trans (congrArg Host.Outcome.next ((congrArg (fun u => State.beatPass u _ _ _ _ _) hcount).trans ht)),
    hbeats, ?_, fun a ha => (reg_congr hregs a).trans (hv.regs a ha), fun a => rdB_congr (hmem.trans hv.mem) a⟩
  rw [reg_congr hregs, reg_count_same, hu.regs _ hctl.2]
  rfl

theorem runs_meshBeat_stray {s : State} {c : CoreId} {inp : BitVec 3} {lane2 : Bool} (data : Bytes) (hb : s.beats = [])
    (hin : inp.toNat = 7 ∨ bitsN (s.laneEnt c s.slot) 13 11 ≠ inp.toNat) (ho : s.takers c inp.toNat lane2 = []) :
    Runs (.meshBeat c inp lane2 data .clean) s fun t => t.fget (rCoreStatus c) fCoreStatusFault = 0x1006 ∧ t.beats = [] := by
  have hu := enters_attachIn s c inp.toNat
  have hs (a : Nat) (ha : slotReg c a) : (s.attachIn c inp.toNat).reg a = s.reg a := hu.regs a (slotReg_not_enter ha)
  obtain ⟨r, hr, hpass⟩ : ∃ r : EvRec, r.code = 0x1006 ∧ (s.attachIn c inp.toNat).beatPass c inp.toNat lane2 1152 (slice data 0 128) =
      (s.attachIn c inp.toNat).faultCore c r := by
    refine ⟨_, ?_, if_pos ⟨(takers_congr hs hu.slot _ _).trans ho, ?_⟩⟩
    · rfl
    · rw [hu.slot, laneEnt_congr hs]
      tauto
  refine ⟨_, (meshBeat_eq c inp lane2 data .clean hb).trans (congrArg Host.Outcome.next hpass), ?_, ?_⟩
  · exact (fault_faultCore _ c r (by rw [hr]; decide)).trans hr
  · rw [offFaults_beats.faultCore, hu.beats, hb]

theorem runs_meshBeat_bad {s : State} {c : CoreId} {inp : BitVec 3} {lane2 : Bool} (data : Bytes) (hb : s.beats = []) :
    Runs (.meshBeat c inp lane2 data .bad) s fun t => (t.ctx (s.slotOwner c inp.toNat lane2).val).cause ≠ 0 ∧ t.beats = [] ∧
      (s.presentOn c (s.slotOwner c inp.toNat lane2) = true → t.fget (rCoreStatus c) fCoreStatusFault = 0x100E) := by
  have hu := enters_attachIn s c inp.toNat
  have hs (a : Nat) (ha : slotReg c a) : (s.attachIn c inp.toNat).reg a = s.reg a := hu.regs a (slotReg_not_enter ha)
  obtain ⟨u, hu'⟩ : ∃ u, u = s.attachIn c inp.toNat := ⟨_, rfl⟩
  rw [← hu'] at hu hs
  have hown := slotOwner_congr hs hu.slot inp.toNat lane2
  have hpres : u.presentOn c (s.slotOwner c inp.toNat lane2) = s.presentOn c (s.slotOwner c inp.toNat lane2) := by
    unfold State.presentOn
    rw [coreCtx_congr (hs _ (.inr (.inl rfl))), core_congr hu.cores]
  obtain ⟨v, hv⟩ : ∃ v, v = if s.presentOn c (s.slotOwner c inp.toNat lane2) then u.fput (rCoreStatus c) fCoreStatusFault 0x100E else u := ⟨_, rfl⟩
  obtain ⟨r, hr, hin⟩ : ∃ r : EvRec, r.code = 0x100E ∧ u.beatIn c inp.toNat lane2 1152 (slice data 0 128) .bad =
      v.faultHall c.hall.val (s.slotOwner c inp.toNat lane2) r := by
    refine ⟨coreRec c 0x100E (u.p1 c) inp.toNat (u.slot % 2 ^ 48), rfl, ?_⟩
    rw [hv, ← hpres, ← hown]
    rfl
  refine ⟨_, (meshBeat_eq c inp lane2 data .bad hb).trans (congrArg Host.Outcome.next (hu' ▸ hin)), ?_, ?_, fun hp => ?_⟩
  · exact (faultHall_stops v c.hall.isLt _ r (by rw [hr]; decide)).2
  · rw [offFaults_beats.faultHall, hv]
    split
    · rw [fput_beats, hu.beats, hb]
    · rw [hu.beats, hb]
  · rw [fault_faultHall, hv, if_pos hp, fget_fput_same _ _ _ _ (by decide) (by decide)]
    rfl

/-- Settles O43: by the outputs that name the beat's input in its slot. -/
theorem meshBeats : Obligations.MeshBeats := by
  intro s c inp lane2 data hb hin outs owner enters
  have hin' : inp.toNat = 7 ∨ bitsN (s.laneEnt c s.slot) 13 11 ≠ inp.toNat := hin.imp (fun h => by rw [h]; rfl) id
  have henter : enters = enterReg c inp.toNat := by
    funext a
    refine propext (and_congr_left fun _ => or_congr_left ⟨fun h => by rw [h]; rfl, fun h => BitVec.eq_of_toNat_eq h⟩)
  rw [henter]
  exact ⟨fun o ent i d ho ho4 hn hh => ⟨runs_meshBeat_clean data hb hin' ho ho4 hn hh, runs_meshBeat_corrected data hb hin' ho ho4 hn hh⟩,
    fun ho => runs_meshBeat_stray data hb hin' ho, runs_meshBeat_bad data hb⟩

end Sys2Proof.Machine

/-! ## Training and loss of a link -/

namespace Sys2Proof.Machine

-- One proof at a time, as in Sys2Proof/Laws: each waiting proof would keep a thread and its stack.
set_option Elab.async false

/-! ### What the ring tables say -/

/-- The registers from the group tables up, among them all that say which rings use a link. -/
def State.groupRegs (s : State) : List (Nat × Word) := s.regs.filter fun e => decide (rGtCfg 0 ≤ e.1)

theorem filter_sinsert_of_neg {α : Type} (p : Nat → Bool) (k : Nat) (v : α) (m : List (Nat × α)) (hk : p k = false) :
    (sinsert k v m).filter (fun e => p e.1) = m.filter fun e => p e.1 := by
  induction m with
  | nil => simp [sinsert, hk]
  | cons e m ih =>
    rw [sinsert]
    split_ifs
    · rw [List.filter_cons_of_neg (by simp [hk])]
    · simp only [List.filter_cons, ih]

theorem filter_sset_of_neg {α : Type} [DecidableEq α] (d : Nat → α) (p : Nat → Bool) (k : Nat) (v : α) (m : List (Nat × α)) (hk : p k = false) :
    (sset d m k v).filter (fun e => p e.1) = m.filter fun e => p e.1 := by
  have hne : (m.filter fun e => e.1 != k).filter (fun e => p e.1) = m.filter fun e => p e.1 := by
    rw [List.filter_filter]
    refine List.filter_congr fun e _ => ?_
    by_cases he : e.1 = k <;> simp [he, hk]
  rw [sset]
  split_ifs
  · exact hne
  · rw [filter_sinsert_of_neg p k v _ hk, hne]

theorem groupRegs_setReg (s : State) {a : Nat} (v : Word) (h : a < rGtCfg 0) : (s.setReg a v).groupRegs = s.groupRegs :=
  filter_sset_of_neg regReset (fun k => decide (rGtCfg 0 ≤ k)) a v s.regs (decide_eq_false (Nat.not_le.2 h))

theorem reg_of_groupRegs {s t : State} (h : t.groupRegs = s.groupRegs) {a : Nat} (ha : rGtCfg 0 ≤ a) : t.reg a = s.reg a := by
  have key : ∀ u : State, u.reg a = sget regReset u.groupRegs a := fun u => by
    rw [State.groupRegs, sget_filter regReset (fun k => decide (rGtCfg 0 ≤ k)), if_pos (decide_eq_true ha), State.reg]
  rw [key, key, h]

theorem rGtCfg_le (g : Nat) : rGtCfg 0 ≤ rGtCfg g := by unfold rGtCfg; omega

theorem rGtRing_le (g r : Nat) : rGtCfg 0 ≤ rGtRing g r := by unfold rGtCfg rGtRing; omega

theorem filterMap_of_filter {α β : Type} (p : α → Bool) (f : α → Option β) (m : List α) (h : ∀ e, p e = false → f e = none) :
    m.filterMap f = (m.filter p).filterMap f := by
  rw [List.filterMap_filter]
  refine List.filterMap_congr fun e _ => ?_
  by_cases he : p e = true
  · rw [if_pos he]
  · rw [if_neg he, h e (by simpa using he)]

theorem ringUses_congr {s t : State} (h : t.groupRegs = s.groupRegs) (n : Nat) : t.ringUses n = s.ringUses n := by
  have hf : ∀ g f, t.fget (rGtCfg g) f = s.fget (rGtCfg g) f := fun g f => congrArg f.get (reg_of_groupRegs h (rGtCfg_le g))
  have hr : ∀ g r f, t.fget (rGtRing g r) f = s.fget (rGtRing g r) f := fun g r f => congrArg f.get (reg_of_groupRegs h (rGtRing_le g r))
  have hl : ∀ g r d, t.ringLink g r d = s.ringLink g r d := fun g r d => by simp only [State.ringLink, hr]
  have hlist : ∀ (u : State) (f : Nat × Word → Option Nat), (∀ e, ¬ rGtCfg 0 ≤ e.1 → f e = none) → u.regs.filterMap f = u.groupRegs.filterMap f :=
    fun u f hno => filterMap_of_filter _ f _ fun e he => hno e (by simpa using he)
  simp only [State.ringUses, State.gMembers, State.gPos, State.flag, hf, hr, hl]
  rw [hlist t _ fun e he => if_neg fun c => he c.1, hlist s _ fun e he => if_neg fun c => he c.1, h] <;> rfl

/-! ### Steps that write registers of a link alone -/

/-- Registers in `A` alone change; memory and the group tables stay. -/
structure LinkStep (A : Nat → Prop) (s t : State) : Prop where
  regs : RegsBut A s t
  mem : SameMem s t
  groups : t.groupRegs = s.groupRegs

theorem LinkStep.of_same {A : Nat → Prop} {s t : State} (hr : t.regs = s.regs) (hm : t.mem = s.mem) : LinkStep A s t :=
  ⟨fun _ _ => reg_congr hr _, fun _ => rdB_congr hm _, by rw [State.groupRegs, hr, State.groupRegs]⟩

theorem LinkStep.refl {A : Nat → Prop} (s : State) : LinkStep A s s := .of_same rfl rfl

theorem LinkStep.trans {A : Nat → Prop} {s t u : State} (h : LinkStep A s t) (h' : LinkStep A t u) : LinkStep A s u :=
  ⟨fun a ha => (h'.regs a ha).trans (h.regs a ha), fun a => (h'.mem a).trans (h.mem a), h'.groups.trans h.groups⟩

theorem LinkStep.mono {A B : Nat → Prop} {s t : State} (h : LinkStep A s t) (hsub : ∀ a, A a → B a) : LinkStep B s t :=
  ⟨fun a ha => h.regs a fun c => ha (hsub a c), h.mem, h.groups⟩

theorem LinkStep.setReg {A : Nat → Prop} (s : State) {a : Nat} (v : Word) (ha : A a) (hlow : a < rGtCfg 0) : LinkStep A s (s.setReg a v) :=
  ⟨fun _ hb => reg_setReg_other s v fun e => hb (e ▸ ha), fun b => rdB_congr (setReg_mem ..) b, groupRegs_setReg s v hlow⟩

theorem LinkStep.fput {A : Nat → Prop} (s : State) {a : Nat} (f : Fd) (v : Nat) (ha : A a) (hlow : a < rGtCfg 0) : LinkStep A s (s.fput a f v) :=
  .setReg s _ ha hlow

theorem LinkStep.count {A : Nat → Prop} (s : State) {a : Nat} (n : Nat) (ha : A a) (hlow : a < rGtCfg 0) : LinkStep A s (s.count a n) :=
  .setReg s _ ha hlow

theorem LinkStep.modLink {A : Nat → Prop} (s : State) (n : Nat) (f : LinkS → LinkS) : LinkStep A s (s.modLink n f) :=
  .of_same (modLink_regs ..) (modLink_mem ..)

theorem LinkStep.emit {A : Nat → Prop} (s : State) (r : EvRec) : LinkStep A s (s.emit r) := .of_same (emit_regs ..) (emit_mem ..)

/-! ### Addresses -/

theorem rLinkStatus_low (n : LinkId) : rLinkStatus n.val < rGtCfg 0 := by have := n.isLt; unfold rLinkStatus rGtCfg; omega
theorem rLinkCtl_low (n : LinkId) : rLinkCtl n.val < rGtCfg 0 := by have := n.isLt; unfold rLinkCtl rGtCfg; omega
theorem rLinkHoldNs_low (n : LinkId) : rLinkHoldNs n.val < rGtCfg 0 := by have := n.isLt; unfold rLinkHoldNs rGtCfg; omega
theorem rLinkDownCnt_low (n : LinkId) : rLinkDownCnt n.val < rGtCfg 0 := by have := n.isLt; unfold rLinkDownCnt rGtCfg; omega

theorem link_addrs (n : Nat) : rLinkStatus n ≠ rLinkHoldNs n ∧ rLinkStatus n ≠ rLinkDownCnt n ∧ rLinkStatus n ≠ rLinkCtl n ∧
    rLinkHoldNs n ≠ rLinkDownCnt n ∧ rLinkCtl n ≠ rLinkStatus n ∧ rLinkCtl n ≠ rLinkHoldNs n ∧ rLinkDownCnt n ≠ rLinkStatus n ∧
    rLinkDownCnt n ≠ rLinkHoldNs n ∧ rLinkStatus n ≠ rLinkLat n ∧ rLinkCtl n ≠ rLinkLat n := by
  unfold rLinkStatus rLinkHoldNs rLinkDownCnt rLinkCtl rLinkLat
  omega

/-! ### The state field -/

theorem linkState_linkGo (s : State) (n : Nat) {v : Nat} (hv : v < 16) : (s.linkGo n v).linkState n = v := by
  rw [State.linkState, State.linkGo, fget_fput_same _ _ _ _ (by decide) (by decide)]
  exact Nat.mod_eq_of_lt hv

theorem linkState_congr {s t : State} {n : Nat} (h : t.reg (rLinkStatus n) = s.reg (rLinkStatus n)) : t.linkState n = s.linkState n :=
  congrArg fLinkStatusState.get h

/-- A field above STATE leaves the state. -/
theorem linkState_fput (s : State) (n : Nat) (f : Fd) (v : Nat) (h1 : f.lo ≤ f.hi) (h2 : 3 < f.lo) (h3 : f.hi < 64) :
    (s.fput (rLinkStatus n) f v).linkState n = s.linkState n := fget_fput_below s _ f fLinkStatusState v (by decide) h2 h1 h3

theorem LinkStep.linkGo {A : Nat → Prop} (s : State) (n : LinkId) (v : Nat) (h : A (rLinkStatus n.val)) : LinkStep A s (s.linkGo n.val v) :=
  .fput s _ _ h (rLinkStatus_low n)

/-! ### A fresh start -/

theorem holdEnd_links (s : State) (n : Nat) : (s.holdEnd n).links = s.links := by
  unfold State.holdEnd
  extract_lets l
  split_ifs
  · rfl
  · exact count_links ..

theorem holdEnd_log (s : State) (n : Nat) : (s.holdEnd n).log = s.log := by
  unfold State.holdEnd
  extract_lets l
  split_ifs
  · rfl
  · exact count_log ..

theorem LinkStep.holdEnd {A : Nat → Prop} (s : State) (n : LinkId) (h : A (rLinkHoldNs n.val)) : LinkStep A s (s.holdEnd n.val) := by
  unfold State.holdEnd
  extract_lets l
  split_ifs
  · exact .refl s
  · exact .count s _ h (rLinkHoldNs_low n)

theorem link_congr {s t : State} (h : t.links = s.links) (n : Nat) : t.link n = s.link n := by rw [State.link, h, State.link]

theorem clearLink_link (s : State) (n : Nat) : (s.clearLink n).link n =
    { (s.link n).cleared with identSeen := false, echoSeen := false, peerReady := false, wrongPeer := false } := by
  rw [State.clearLink, link_modLink_same, link_congr (holdEnd_links s n)]

theorem clearLink_log (s : State) (n : Nat) : (s.clearLink n).log = s.log := by rw [State.clearLink, modLink_log, holdEnd_log]

theorem LinkStep.clearLink {A : Nat → Prop} (s : State) (n : LinkId) (h : A (rLinkHoldNs n.val)) : LinkStep A s (s.clearLink n.val) := by
  rw [State.clearLink]
  exact (LinkStep.holdEnd s n h).trans (.modLink ..)

theorem linkState_clearLink (s : State) (n : LinkId) : (s.clearLink n.val).linkState n.val = s.linkState n.val :=
  linkState_congr ((LinkStep.clearLink (A := (· = rLinkHoldNs n.val)) s n rfl).regs _ (link_addrs n.val).1)

/-! ### Failures and losses -/

/-- What a record alone leaves as it was. -/
theorem linkState_emit (s : State) (n : Nat) (r : EvRec) : (s.emit r).linkState n = s.linkState n := rfl

theorem link_emit (s : State) (n : Nat) (r : EvRec) : (s.emit r).link n = s.link n := rfl

/-- A failure: DETECT, a fresh start, and one failure more. -/
theorem trainFail_fields (s : State) (n : LinkId) : (s.trainFail n.val).linkState n.val = 1 ∧
    ((s.trainFail n.val).link n.val).fails = (s.link n.val).fails + 1 ∧ ((s.trainFail n.val).link n.val).credits = 256 ∧
    LinkStep (fun a => a = rLinkStatus n.val ∨ a = rLinkHoldNs n.val) s (s.trainFail n.val) := by
  obtain ⟨u, hu⟩ : ∃ u, u = ((s.linkGo n.val lsDetect).clearLink n.val).modLink n.val fun l => { l with fails := (s.link n.val).fails + 1 } := ⟨_, rfl⟩
  have hst : u.linkState n.val = 1 := by
    rw [hu, show ∀ (v : State) f, (v.modLink n.val f).linkState n.val = v.linkState n.val from fun v f => rfl, linkState_clearLink]
    exact linkState_linkGo s n.val (by decide)
  have hlink : (u.link n.val).fails = (s.link n.val).fails + 1 ∧ (u.link n.val).credits = 256 := by
    rw [hu, link_modLink_same, clearLink_link]
    exact ⟨rfl, rfl⟩
  have hstep : LinkStep (fun a => a = rLinkStatus n.val ∨ a = rLinkHoldNs n.val) s u := by
    rw [hu]
    exact ((LinkStep.linkGo s n _ (.inl rfl)).trans (.clearLink _ n (.inr rfl))).trans (.modLink ..)
  have heq : s.trainFail n.val = if ((s.link n.val).fails + 1 - 1) % 64 = 0 then u.emit (evr 0x5002 (0x20 + n.val) 0 n.val) else u := by
    rw [hu, State.trainFail]
  rw [heq]
  split_ifs
  · exact ⟨hst, hlink.1, hlink.2, hstep.trans (.emit ..)⟩
  · exact ⟨hst, hlink.1, hlink.2, hstep⟩

theorem orphanTags_fields (s : State) (n : Nat) : (s.orphanTags n).regs = s.regs ∧ (s.orphanTags n).mem = s.mem ∧
    (s.orphanTags n).log = s.log := by
  have hfold : ∀ (l : List TagS) (v : State), (l.foldl (fun s t => s.bellToCore 5 t.ctx.val t.core (64 + t.sc.toNat) []) v).regs = v.regs ∧
      (l.foldl (fun s t => s.bellToCore 5 t.ctx.val t.core (64 + t.sc.toNat) []) v).mem = v.mem ∧
      (l.foldl (fun s t => s.bellToCore 5 t.ctx.val t.core (64 + t.sc.toNat) []) v).log = v.log := by
    intro l
    induction l with
    | nil => exact fun v => ⟨rfl, rfl, rfl⟩
    | cons g l ih =>
      intro v
      obtain ⟨h1, h2, h3⟩ := ih (v.bellToCore 5 g.ctx.val g.core (64 + g.sc.toNat) [])
      exact ⟨h1.trans (bellToCore_regs ..), h2.trans (bellToCore_mem ..), h3.trans (bellToCore_log ..)⟩
  unfold State.orphanTags
  extract_lets live s1
  obtain ⟨h1, h2, h3⟩ := hfold live s
  exact ⟨(modLink_regs ..).trans h1, (modLink_mem ..).trans h2, (modLink_log ..).trans h3⟩

/-- A link that is lost, before the groups hear of it. -/
def State.downed (s : State) (n reason : Nat) : State :=
  ((((((((s.linkGo n lsDown).fput (rLinkStatus n) fLinkStatusLastDown reason).count (rLinkDownCnt n) 1).emit
    (evr 0x5001 (0x20 + n) 0 n (s.fget (rLinkStatus n) fLinkStatusPeerId) reason)).orphanTags n).fput (rLinkStatus n) fLinkStatusPeerReady 0).fput
    (rLinkStatus n) fLinkStatusTableOk 0).clearLink n).modLink n fun l => { l with mismatch := false, peerDigest := none }

/-- What the loss of a link leaves: DOWN with its reason, counted and recorded, its buffers and queues empty. -/
structure LostAs (n : LinkId) (reason : Nat) (s t : State) : Prop where
  state : t.linkState n.val = 7
  last : t.fget (rLinkStatus n.val) fLinkStatusLastDown = reason
  cnt : t.reg (rLinkDownCnt n.val) = s.reg (rLinkDownCnt n.val) + 1
  egress : (t.link n.val).egress = []
  ctlOut : (t.link n.val).ctlOut = []
  log : ∃ r, t.log.arrivals = s.log.arrivals ++ [r] ∧ r.code = 0x5001
  step : LinkStep (fun a => a = rLinkStatus n.val ∨ a = rLinkDownCnt n.val ∨ a = rLinkHoldNs n.val) s t

theorem downed_lost (s : State) (n : LinkId) {reason : Nat} (hr : reason < 16) : LostAs n reason s (s.downed n.val reason) := by
  obtain ⟨hsh, hsd, -, hhd, -, -, hds, hdh, -⟩ := link_addrs n.val
  obtain ⟨u1, hu1⟩ : ∃ u, u = (s.linkGo n.val lsDown).fput (rLinkStatus n.val) fLinkStatusLastDown reason := ⟨_, rfl⟩
  obtain ⟨u2, hu2⟩ : ∃ u, u = ((u1.count (rLinkDownCnt n.val) 1).emit
    (evr 0x5001 (0x20 + n.val) 0 n.val (s.fget (rLinkStatus n.val) fLinkStatusPeerId) reason)).orphanTags n.val := ⟨_, rfl⟩
  obtain ⟨u3, hu3⟩ : ∃ u, u = (u2.fput (rLinkStatus n.val) fLinkStatusPeerReady 0).fput (rLinkStatus n.val) fLinkStatusTableOk 0 := ⟨_, rfl⟩
  obtain ⟨u, hu⟩ : ∃ u, u = (u3.clearLink n.val).modLink n.val fun l => { l with mismatch := false, peerDigest := none } := ⟨_, rfl⟩
  have heq : s.downed n.val reason = u := by rw [hu, hu3, hu2, hu1, State.downed]
  obtain ⟨hr2, hm2, hl2⟩ := orphanTags_fields ((u1.count (rLinkDownCnt n.val) 1).emit
    (evr 0x5001 (0x20 + n.val) 0 n.val (s.fget (rLinkStatus n.val) fLinkStatusPeerId) reason)) n.val
  rw [← hu2] at hr2 hm2 hl2
  have h12 : ∀ a, u2.reg a = (u1.count (rLinkDownCnt n.val) 1).reg a := fun a => reg_congr (hr2.trans (emit_regs ..)) a
  have hstat12 : u2.reg (rLinkStatus n.val) = u1.reg (rLinkStatus n.val) := (h12 _).trans (reg_count_other _ _ hsd)
  have hclear : ∀ a, a ≠ rLinkHoldNs n.val → u.reg a = u3.reg a := fun a ha => by
    rw [hu, reg_congr (modLink_regs ..)]
    exact (LinkStep.clearLink (A := (· = rLinkHoldNs n.val)) u3 n rfl).regs a ha
  rw [heq]
  refine ⟨?_, ?_, ?_, ?_, ?_, ⟨evr 0x5001 (0x20 + n.val) 0 n.val (s.fget (rLinkStatus n.val) fLinkStatusPeerId) reason, ?_, rfl⟩, ?_⟩
  · rw [linkState_congr (hclear _ hsh), hu3, linkState_fput _ _ _ _ (by decide) (by decide) (by decide),
      linkState_fput _ _ _ _ (by decide) (by decide) (by decide), linkState_congr hstat12, hu1, linkState_fput _ _ _ _ (by decide) (by decide) (by decide)]
    exact linkState_linkGo s n.val (by decide)
  · rw [State.fget, hclear _ hsh, ← State.fget, hu3, fget_fput_above _ _ _ _ _ (by decide) (by decide) (by decide) (by decide),
      fget_fput_above _ _ _ _ _ (by decide) (by decide) (by decide) (by decide), State.fget, hstat12, ← State.fget, hu1,
      fget_fput_same _ _ _ _ (by decide) (by decide)]
    exact Nat.mod_eq_of_lt hr
  · rw [hclear _ hdh, hu3, reg_fput_other _ _ _ hds, reg_fput_other _ _ _ hds, h12, reg_count_same, hu1, reg_fput_other _ _ _ hds, State.linkGo,
      reg_fput_other _ _ _ hds]
    rfl
  · rw [hu, link_modLink_same, clearLink_link]
    rfl
  · rw [hu, link_modLink_same, clearLink_link]
    rfl
  · rw [hu, modLink_log, clearLink_log, hu3, fput_log, fput_log, hl2, State.emit, count_log, hu1, fput_log, State.linkGo, fput_log]
  · have s1 : LinkStep (fun a => a = rLinkStatus n.val ∨ a = rLinkDownCnt n.val ∨ a = rLinkHoldNs n.val) s u1 := by
      rw [hu1]
      exact (LinkStep.linkGo s n _ (.inl rfl)).trans (.fput _ _ _ (.inl rfl) (rLinkStatus_low n))
    have s2 : LinkStep (fun a => a = rLinkStatus n.val ∨ a = rLinkDownCnt n.val ∨ a = rLinkHoldNs n.val) (u1.count (rLinkDownCnt n.val) 1) u2 :=
      .of_same (hr2.trans (emit_regs ..)) (hm2.trans (emit_mem ..))
    have s3 : LinkStep (fun a => a = rLinkStatus n.val ∨ a = rLinkDownCnt n.val ∨ a = rLinkHoldNs n.val) u2 u3 := by
      rw [hu3]
      exact (LinkStep.fput _ _ _ (.inl rfl) (rLinkStatus_low n)).trans (.fput _ _ _ (.inl rfl) (rLinkStatus_low n))
    have s4 : LinkStep (fun a => a = rLinkStatus n.val ∨ a = rLinkDownCnt n.val ∨ a = rLinkHoldNs n.val) u3 u := by
      rw [hu]
      exact (LinkStep.clearLink _ n (.inr (.inr rfl))).trans (.modLink ..)
    exact (((s1.trans (.count _ _ (.inr (.inl rfl)) (rLinkDownCnt_low n))).trans s2).trans s3).trans s4

theorem goDown_eq (s : State) (n : LinkId) {reason : Nat} (hr : reason < 16) (h : s.ringUses n.val = []) :
    s.goDown n.val reason = s.downed n.val reason := by
  have huses : (s.downed n.val reason).ringUses n.val = [] := (ringUses_congr (downed_lost s n hr).step.groups n.val).trans h
  have heq : s.goDown n.val reason = ((s.downed n.val reason).ringUses n.val).foldl (fun s g => s.groupReport g.1 0x5001 g.2 false)
      (s.downed n.val reason) := by
    unfold State.goDown State.downed
    rfl
  rw [heq, huses, List.foldl_nil]

/-- The loss of a link that no ring uses. -/
theorem goDown_lost (s : State) (n : LinkId) {reason : Nat} (hr : reason < 16) (h : s.ringUses n.val = []) : LostAs n reason s (s.goDown n.val reason) := by
  rw [goDown_eq s n hr h]
  exact downed_lost s n hr

/-! ### The training events -/

/-- An event that takes the state which awaits it puts the link into the next. -/
theorem trainStep_taken {s : State} {n v : Nat} (h : s.linkState n = v) (f : State → State) : s.trainStep n v f = f s := if_pos h

theorem runs_linkSignalDetect {s : State} {n : LinkId} (h : s.linkState n.val = 1) : Runs (.linkSignalDetect n) s fun t =>
    t.linkState n.val = 2 ∧ LinkStep (fun a => a = rLinkStatus n.val ∨ a = rLinkHoldNs n.val) s t ∧
    (t.link n.val).mode = s.flag (rLinkCtl n.val) fLinkCtlMode := by
  refine ⟨(s.linkGo n.val lsTrain).modLink n.val fun l => { l with mode := s.flag (rLinkCtl n.val) fLinkCtlMode },
    congrArg Host.Outcome.next (trainStep_taken h _), linkState_linkGo s n.val (by decide), (LinkStep.linkGo s n _ (.inl rfl)).trans (.modLink ..), ?_⟩
  rw [link_modLink_same]

theorem runs_linkTrainDone {s : State} {n : LinkId} (h : s.linkState n.val = 2) : Runs (.linkTrainDone n) s fun t =>
    t.linkState n.val = 3 ∧ SameMem s t ∧ RegsBut (fun a => a = rLinkStatus n.val ∨ a = rEbcStatus) s t := by
  have hne : rLinkStatus n.val ≠ rEbcStatus := by unfold rLinkStatus rEbcStatus; omega
  have hgo := LinkStep.linkGo (A := fun a => a = rLinkStatus n.val ∨ a = rEbcStatus) s n lsAlign (.inl rfl)
  have hst := linkState_linkGo s n.val (v := lsAlign) (by decide)
  by_cases hclk : n.val = 0 ∧ s.fget rStartStatus fStartStatusClkMode = 2 ∧ !s.flag rEbcStatus fEbcStatusRefFailover
  · exact ⟨(s.linkGo n.val lsAlign).fput rEbcStatus fEbcStatusRefSrc 2, congrArg Host.Outcome.next ((trainStep_taken h _).trans (if_pos hclk)),
      (linkState_congr (reg_fput_other _ _ _ hne)).trans hst, fun a => (rdB_congr (fput_mem ..) a).trans (hgo.mem a),
      fun a ha => (reg_fput_other _ _ _ fun e => ha (.inr e)).trans (hgo.regs a ha)⟩
  · exact ⟨s.linkGo n.val lsAlign, congrArg Host.Outcome.next ((trainStep_taken h _).trans (if_neg hclk)), hst, hgo.mem, hgo.regs⟩

theorem ctlSend_mgmt {s : State} {n : Nat} (h : 4 ≤ s.linkState n) (t : BitVec 4) (b : BitVec 116) :
    s.ctlSend n (.mgmt t b) = s.modLink n fun l => { l with ctlOut := ctlInsert l.ctlOut (.mgmt t b) } := if_pos h

/-- The IDENT that the link sends (R271, R277). -/
def State.identBits (s : State) (n : Nat) : BitVec 116 :=
  BitVec.ofNat 116 (s.devId * 2 ^ 92 + n * 2 ^ 87 + s.fget (rLinkCtl n) fLinkCtlOpen * 2 ^ 86 + bton (s.link n).mode * 2 ^ 85 +
    (s.slotDigest n (rLinkTxslot n)).toNat * 2 ^ 53)

theorem sendIdent_eq {s : State} {n : Nat} (h : 4 ≤ s.linkState n) :
    s.sendIdent n = s.modLink n fun l => { l with ctlOut := ctlInsert l.ctlOut (.mgmt 0 (s.identBits n)) } := ctlSend_mgmt h _ _

theorem runs_linkAlignDone {s : State} {n : LinkId} (h : s.linkState n.val = 3) : Runs (.linkAlignDone n) s fun t =>
    t.linkState n.val = 4 ∧ LinkStep (fun a => a = rLinkStatus n.val ∨ a = rLinkHoldNs n.val) s t ∧
    ∃ b, (t.link n.val).ctlOut = [.mgmt 0 b, .mgmt 1 (BitVec.ofNat 116 s.frameStamp)] := by
  obtain ⟨u, hu⟩ : ∃ u, u = (s.linkGo n.val lsIdent).clearLink n.val := ⟨_, rfl⟩
  have hst : u.linkState n.val = 4 := by rw [hu, linkState_clearLink, linkState_linkGo _ _ (by decide), lsIdent]
  have hstep : LinkStep (fun a => a = rLinkStatus n.val ∨ a = rLinkHoldNs n.val) s u := by
    rw [hu]
    exact (LinkStep.linkGo s n _ (.inl rfl)).trans (.clearLink _ n (.inr rfl))
  have hout : (u.link n.val).ctlOut = [] := by rw [hu, clearLink_link]; rfl
  obtain ⟨v, hv⟩ : ∃ v, v = u.sendIdent n.val := ⟨_, rfl⟩
  have hveq : v = u.modLink n.val fun l => { l with ctlOut := ctlInsert l.ctlOut (.mgmt 0 (u.identBits n.val)) } := hv.trans (sendIdent_eq hst.ge)
  have hvst : v.linkState n.val = 4 := by rw [hveq]; exact hst
  refine ⟨v.ctlSend n.val (.mgmt 1 (BitVec.ofNat 116 s.frameStamp)), ?_, ?_⟩
  · refine congrArg Host.Outcome.next ((trainStep_taken h _).trans ?_)
    dsimp only
    rw [hv, hu]
  · rw [ctlSend_mgmt hvst.ge]
    refine ⟨hvst, (hstep.trans ?_).trans (.modLink ..), u.identBits n.val, ?_⟩
    · rw [hveq]
      exact .modLink ..
    · rw [link_modLink_same, hveq, link_modLink_same, hout]
      rfl

/-! ### Enabling, disabling, corrected bytes -/

theorem linkState_fput_ctl (s : State) (n : Nat) (f : Fd) (v : Nat) : (s.fput (rLinkCtl n) f v).linkState n = s.linkState n :=
  linkState_congr (reg_fput_other s f v (link_addrs n).2.2.1)

theorem runs_linkEnable {s : State} {n : LinkId} (h : s.linkState n.val = 0) : Runs (.linkEnable n) s fun t =>
    t.linkState n.val = 1 ∧ t.flag (rLinkCtl n.val) fLinkCtlEnable = true ∧
    LinkStep (fun a => a = rLinkStatus n.val ∨ a = rLinkCtl n.val) s t := by
  obtain ⟨u, hu⟩ : ∃ u, u = s.fput (rLinkCtl n.val) fLinkCtlEnable 1 := ⟨_, rfl⟩
  refine ⟨u.linkGo n.val lsDetect, ?_, linkState_linkGo _ _ (by decide), ?_, ?_⟩
  · show Host.Outcome.next _ = _
    rw [← hu, trainStep_taken]
    rw [hu, linkState_fput_ctl, h, lsDisabled]
  · rw [State.linkGo, flag_fput_other _ _ _ _ (link_addrs n.val).2.2.2.2.1, hu]
    exact flag_fput_same_one _ _ _ (by decide) (by decide)
  · rw [hu]
    exact (LinkStep.fput s _ _ (.inr rfl) (rLinkCtl_low n)).trans (.linkGo _ n _ (.inl rfl))

theorem runs_linkDisable {s : State} {n : LinkId} (h : s.linkState n.val ≠ 6) : Runs (.linkDisable n) s fun t =>
    t.linkState n.val = 0 ∧ t.flag (rLinkCtl n.val) fLinkCtlEnable = false ∧
    LinkStep (fun a => a = rLinkStatus n.val ∨ a = rLinkCtl n.val ∨ a = rLinkHoldNs n.val) s t := by
  obtain ⟨u, hu⟩ : ∃ u, u = (s.fput (rLinkCtl n.val) fLinkCtlEnable 0).clearLink n.val := ⟨_, rfl⟩
  obtain ⟨-, -, -, -, hcs, hch, -⟩ := link_addrs n.val
  refine ⟨u.linkGo n.val lsDisabled, ?_, linkState_linkGo _ _ (by decide), ?_, ?_⟩
  · show execLinkDisable n s = _
    unfold execLinkDisable
    dsimp only
    rw [if_neg (show ¬ s.linkState n.val = lsOpen from h), hu]
  · rw [State.linkGo, flag_fput_other _ _ _ _ hcs, State.flag, State.fget, hu,
      (LinkStep.clearLink (A := (· = rLinkHoldNs n.val)) _ n rfl).regs _ hch]
    exact flag_fput_same_zero _ _ _ (by decide) (by decide)
  · rw [hu]
    exact ((LinkStep.fput s _ _ (.inr (.inl rfl)) (rLinkCtl_low n)).trans (.clearLink _ n (.inr (.inr rfl)))).trans (.linkGo _ n _ (.inl rfl))

theorem runs_linkCodewordRx_corrected {s : State} {n : LinkId} (h3 : 3 ≤ s.linkState n.val) (h7 : s.linkState n.val ≠ 7) (k : BitVec 4) :
    Runs (.linkCodewordRx n k false) s fun t =>
      t.reg (rLinkFecCorrCnt n.val) = s.reg (rLinkFecCorrCnt n.val) + BitVec.ofNat 64 (min 12 k.toNat) ∧
      RegsBut (· = rLinkFecCorrCnt n.val) s t ∧ SameMem s t := by
  obtain ⟨u, hu⟩ : ∃ u, u = s.count (rLinkFecCorrCnt n.val) (min 12 k.toNat) := ⟨_, rfl⟩
  have hreg : u.reg (rLinkFecCorrCnt n.val) = s.reg (rLinkFecCorrCnt n.val) + BitVec.ofNat 64 (min 12 k.toNat) := by rw [hu, reg_count_same]
  have hbut : RegsBut (· = rLinkFecCorrCnt n.val) s u := fun a ha => by rw [hu, reg_count_other _ _ ha]
  have hmem : SameMem s u := fun a => by rw [hu, count_rdB]
  have hno : ¬ (s.linkState n.val < lsAlign ∨ s.linkState n.val = lsDown) := by
    unfold lsAlign lsDown
    omega
  have recorded : ∀ (c : Bool) (f : LinkS → LinkS) (r : EvRec), exec (.linkCodewordRx n k false) s =
      .next (if c then (u.modLink n.val f).emit r else u.modLink n.val f) → Runs (.linkCodewordRx n k false) s fun t =>
        t.reg (rLinkFecCorrCnt n.val) = s.reg (rLinkFecCorrCnt n.val) + BitVec.ofNat 64 (min 12 k.toNat) ∧
        RegsBut (· = rLinkFecCorrCnt n.val) s t ∧ SameMem s t := by
    intro c f r he
    split_ifs at he
    · exact ⟨(u.modLink n.val f).emit r, he, hreg, hbut, hmem⟩
    · exact ⟨u.modLink n.val f, he, hreg, hbut, hmem⟩
  apply recorded
  show execLinkCodewordRx n k false s = _
  unfold execLinkCodewordRx
  dsimp only
  rw [if_neg hno, if_neg (by decide), ← hu]

/-! ### The commands at whose row an open link is lost -/

theorem open_not_disabled {s : State} {n : Nat} (h : s.linkState n = 6) : ¬ (s.linkState n = lsDisabled ∨ s.linkState n = lsDown) := by
  rw [h]
  decide

/-- A message taken from those received leaves everything that a loss says. -/
theorem ctlTake_fields (s : State) (n m : Nat) (c : CtlMsg) : (s.ctlTake n c).regs = s.regs ∧ (s.ctlTake n c).mem = s.mem ∧
    (s.ctlTake n c).log = s.log ∧ (s.ctlTake n c).bell = s.bell ∧ (s.ctlTake n c).flash = s.flash ∧ (s.ctlTake n c).sem = s.sem ∧
    ∃ q, (s.ctlTake n c).link m = { s.link m with ctlIn := q } := by
  rw [State.ctlTake]
  split_ifs
  · refine ⟨modLink_regs .., modLink_mem .., modLink_log .., modLink_bell .., modLink_flash .., modLink_sem .., ?_⟩
    by_cases h : m = n
    · exact ⟨dropFirst (fun x => x == c) (s.link n).ctlIn, by rw [h, link_modLink_same]⟩
    · exact ⟨(s.link m).ctlIn, by rw [link_modLink_other _ _ h]⟩
  · exact ⟨rfl, rfl, rfl, rfl, rfl, rfl, (s.link m).ctlIn, rfl⟩

theorem LostAs.of_taken {s t u : State} {n : LinkId} {reason : Nat} (h : LostAs n reason t u) (hr : t.regs = s.regs) (hm : t.mem = s.mem)
    (hl : t.log = s.log) : LostAs n reason s u where
  state := h.state
  last := h.last
  cnt := by rw [h.cnt, reg_congr hr]
  egress := h.egress
  ctlOut := h.ctlOut
  log := by rw [← hl]; exact h.log
  step := (LinkStep.of_same hr hm).trans h.step

/-- The obligation's words for a lost link. -/
theorem LostAs.says {s t : State} {n : LinkId} {reason : Nat} (h : LostAs n reason s t) :
    (t.linkState n.val = 7 ∧ SameMem s t) ∧ t.fget (rLinkStatus n.val) fLinkStatusLastDown = reason ∧
    t.reg (rLinkDownCnt n.val) = s.reg (rLinkDownCnt n.val) + 1 ∧ (t.link n.val).egress = [] ∧ (t.link n.val).ctlOut = [] ∧
    (∃ r, t.log.arrivals = s.log.arrivals ++ [r] ∧ r.code = 0x5001) ∧
    RegsBut (fun a => a = rLinkStatus n.val ∨ a = rLinkDownCnt n.val ∨ a = rLinkHoldNs n.val) s t :=
  ⟨⟨h.state, h.step.mem⟩, h.last, h.cnt, h.egress, h.ctlOut, h.log, h.step.regs⟩

theorem codewordRx_bad {s : State} {n : LinkId} (h : s.linkState n.val = 6) (k : BitVec 4) :
    exec (.linkCodewordRx n k true) s = .next (s.goDown n.val 2) := by
  show execLinkCodewordRx n k true s = _
  unfold execLinkCodewordRx
  dsimp only
  rw [if_neg (by rw [h]; decide), if_pos rfl]
  exact congrArg Host.Outcome.next (if_pos h)

/-- Settles O44: each event is taken from the one state that awaits it; a failure and a loss are one named state each, whose fields are
those of its last writes, and a link that no ring uses is in no ring after its own registers have changed either. -/
theorem linkTraining : Obligations.LinkTraining := by
  unfold Obligations.LinkTraining
  intro s n st goes only failed lost
  have hfail : ∀ {t : State}, t = s.trainFail n.val → failed t := fun {t} e => by
    obtain ⟨h1, h2, h3, h4⟩ := trainFail_fields s n
    rw [e]
    exact ⟨⟨⟨h1, h4.mem⟩, h4.regs⟩, h2, h3⟩
  refine ⟨?_, ?_, ?_, ?_, ?_, ?_, ?_, ?_, ?_, ?_, ?_⟩
  · intro h
    obtain ⟨t, he, h1, h2, h3⟩ := runs_linkSignalDetect h
    exact ⟨t, he, ⟨⟨h1, h2.mem⟩, h2.regs⟩, h3⟩
  · intro h
    obtain ⟨t, he, h1, h2, h3⟩ := runs_linkTrainDone h
    exact ⟨t, he, ⟨h1, h2⟩, h3⟩
  · intro h
    obtain ⟨t, he, h1, h2, h3⟩ := runs_linkAlignDone h
    exact ⟨t, he, ⟨⟨h1, h2.mem⟩, h2.regs⟩, h3⟩
  · exact fun h => ⟨s.trainFail n.val, congrArg Host.Outcome.next (trainStep_taken h _), hfail rfl⟩
  · exact fun h => ⟨s.trainFail n.val, congrArg Host.Outcome.next (trainStep_taken h _), hfail rfl⟩
  · exact fun h => ⟨s.trainFail n.val, congrArg Host.Outcome.next (trainStep_taken h _), hfail rfl⟩
  · intro h
    have hgo := LinkStep.linkGo (A := fun a => a = rLinkStatus n.val ∨ a = rLinkHoldNs n.val) s n lsDetect (.inl rfl)
    exact ⟨s.linkGo n.val lsDetect, congrArg Host.Outcome.next (trainStep_taken h _), ⟨linkState_linkGo s n.val (by decide), hgo.mem⟩, hgo.regs⟩
  · intro h hring
    have hopen : s.linkState n.val = lsOpen := h
    refine ⟨fun lock => ?_, ?_, fun k => ?_, ?_, ?_⟩
    · have hl := goDown_lost s n (reason := bton lock) (by cases lock <;> decide) hring
      rw [bton_eq] at hl
      exact ⟨s.goDown n.val (if lock = true then 1 else 0), by rw [← bton_eq]; exact congrArg Host.Outcome.next (trainStep_taken hopen _), hl.says⟩
    · exact ⟨s.goDown n.val 3, congrArg Host.Outcome.next (trainStep_taken hopen _), (goDown_lost s n (by decide) hring).says⟩
    · exact ⟨s.goDown n.val 2, codewordRx_bad h k, (goDown_lost s n (by decide) hring).says⟩
    · exact ⟨s.goDown n.val 6, congrArg Host.Outcome.next (if_neg (open_not_disabled h)), (goDown_lost s n (by decide) hring).says⟩
    · obtain ⟨hr, hm, hlog, -⟩ := ctlTake_fields s n.val n.val (.mgmt 3 0)
      have hring' : (s.ctlTake n.val (.mgmt 3 0)).ringUses n.val = [] :=
        (ringUses_congr (by rw [State.groupRegs, hr, State.groupRegs]) n.val).trans hring
      exact ⟨(s.ctlTake n.val (.mgmt 3 0)).goDown n.val 4, congrArg Host.Outcome.next (if_pos hopen),
        ((goDown_lost _ n (by decide) hring').of_taken hr hm hlog).says⟩
  · exact fun h3 h7 k => runs_linkCodewordRx_corrected h3 h7 k
  · intro h
    obtain ⟨t, he, h1, h2, h3⟩ := runs_linkEnable h
    exact ⟨t, he, ⟨h1, h3.mem⟩, h2, h3.regs⟩
  · intro h
    obtain ⟨t, he, h1, h2, h3⟩ := runs_linkDisable h
    exact ⟨t, he, ⟨h1, h3.mem⟩, h2, h3.regs⟩

end Sys2Proof.Machine

/-! ## Shutters and management messages of a link -/

namespace Sys2Proof.Machine

-- One proof at a time, as in Sys2Proof/Laws: each waiting proof would keep a thread and its stack.
set_option Elab.async false

/-! ### Opening a shuttered link -/

theorem linkState_modLink (s : State) (n m : Nat) (f : LinkS → LinkS) : (s.modLink m f).linkState n = s.linkState n :=
  linkState_congr (reg_congr (modLink_regs ..) _)

theorem flag_congr {s t : State} {a : Nat} (h : t.reg a = s.reg a) (f : Fd) : t.flag a f = s.flag a f := congrArg (fun w => f.get w == 1) h

/-- A shuttered link with both READY bits opens: what it leaves. -/
theorem openTry_opens {s : State} {n : LinkId} (h5 : s.linkState n.val = 5) (ho : s.flag (rLinkCtl n.val) fLinkCtlOpen = true)
    (hp : s.flag (rLinkStatus n.val) fLinkStatusPeerReady = true) (hring : s.ringUses n.val = []) :
    (s.openTry n.val).linkState n.val = 6 ∧ ((s.openTry n.val).link n.val).credits = 256 ∧
    ((s.openTry n.val).link n.val).ctlOut.head? = some (.mgmt 4 0) ∧
    (∃ r, (s.openTry n.val).log.arrivals = s.log.arrivals ++ [r] ∧ r.code = 0x5003) ∧
    LinkStep (· = rLinkStatus n.val) s (s.openTry n.val) := by
  obtain ⟨u, hu⟩ : ∃ u, u = ((s.linkGo n.val lsOpen).modLink n.val fun l =>
      { l with credits := 256, toReturn := 0, txIdx := 0, serve := none, ctlOut := .mgmt 4 0 :: l.ctlOut }).emit
        (evr 0x5003 (0x20 + n.val) 0 n.val (s.fget (rLinkStatus n.val) fLinkStatusPeerId)) := ⟨_, rfl⟩
  have hstep : LinkStep (· = rLinkStatus n.val) s u := by
    rw [hu]
    exact ((LinkStep.linkGo (A := (· = rLinkStatus n.val)) s n _ rfl).trans (.modLink ..)).trans (.emit ..)
  have hnone : u.ringUses n.val = [] := (ringUses_congr hstep.groups n.val).trans hring
  have heq : s.openTry n.val = u := by
    unfold State.openTry
    rw [if_pos ⟨h5, ho, hp⟩]
    dsimp only
    rw [← hu, hnone, List.foldl_nil]
  have hlink : u.link n.val = { s.link n.val with
      credits := 256, toReturn := 0, txIdx := 0, serve := none, ctlOut := .mgmt 4 0 :: (s.link n.val).ctlOut } := by
    rw [hu, link_emit, link_modLink_same]
    rfl
  rw [heq, hlink]
  refine ⟨?_, rfl, rfl, ⟨evr 0x5003 (0x20 + n.val) 0 n.val (s.fget (rLinkStatus n.val) fLinkStatusPeerId), ?_, rfl⟩, hstep⟩
  · rw [hu, linkState_emit, linkState_modLink, linkState_linkGo _ _ (by decide), lsOpen]
  · rw [hu, State.emit, modLink_log, State.linkGo, fput_log]

theorem openTry_stays {s : State} {n : Nat} (h : s.linkState n ≠ 5 ∨ s.flag (rLinkCtl n) fLinkCtlOpen = false ∨
    s.flag (rLinkStatus n) fLinkStatusPeerReady = false) : s.openTry n = s := by
  refine if_neg fun c => ?_
  obtain ⟨hs, ho, hp⟩ := c
  rcases h with h | h | h
  · exact h hs
  · rw [h] at ho
    exact Bool.false_ne_true ho
  · rw [h] at hp
    exact Bool.false_ne_true hp

/-- The bits of the status register outside STATE do not depend on a register elsewhere. -/
theorem flag_fput_ctl_status (s : State) (n : Nat) (f g : Fd) (v : Nat) : (s.fput (rLinkCtl n) f v).flag (rLinkStatus n) g = s.flag (rLinkStatus n) g :=
  flag_congr (reg_fput_other s f v (link_addrs n).2.2.1) g

/-- The state in which OPEN = `v` is stored and the new READY sent. -/
theorem opening_fields (s : State) (n : LinkId) (h5 : s.linkState n.val = 5) :
    ∃ u, u = (s.fput (rLinkCtl n.val) fLinkCtlOpen 1).sendIdent n.val ∧ u.linkState n.val = 5 ∧ u.flag (rLinkCtl n.val) fLinkCtlOpen = true ∧
      u.flag (rLinkStatus n.val) fLinkStatusPeerReady = s.flag (rLinkStatus n.val) fLinkStatusPeerReady ∧ u.log = s.log ∧
      LinkStep (· = rLinkCtl n.val) s u := by
  obtain ⟨v, hv⟩ : ∃ v, v = s.fput (rLinkCtl n.val) fLinkCtlOpen 1 := ⟨_, rfl⟩
  have hvs : v.linkState n.val = 5 := by rw [hv, linkState_fput_ctl, h5]
  have hvo : v.flag (rLinkCtl n.val) fLinkCtlOpen = true := by rw [hv]; exact flag_fput_same_one _ _ _ (by decide) (by decide)
  have hvp : v.flag (rLinkStatus n.val) fLinkStatusPeerReady = s.flag (rLinkStatus n.val) fLinkStatusPeerReady := by
    rw [hv, flag_fput_ctl_status]
  have hstep : LinkStep (· = rLinkCtl n.val) s v := by
    rw [hv]
    exact .fput s _ _ rfl (rLinkCtl_low n)
  refine ⟨v.sendIdent n.val, by rw [hv], ?_⟩
  rw [sendIdent_eq (by omega)]
  exact ⟨(linkState_modLink ..).trans hvs, hvo, hvp, by rw [modLink_log, hv, fput_log], hstep.trans (.modLink ..)⟩

theorem runs_linkOpen_opens {s : State} {n : LinkId} (h5 : s.linkState n.val = 5) (hp : s.flag (rLinkStatus n.val) fLinkStatusPeerReady = true)
    (hring : s.ringUses n.val = []) : Runs (.linkOpen n) s fun t =>
      t.linkState n.val = 6 ∧ t.flag (rLinkCtl n.val) fLinkCtlOpen = true ∧
      LinkStep (fun a => a = rLinkStatus n.val ∨ a = rLinkCtl n.val ∨ a = rLinkHoldNs n.val) s t ∧ (t.link n.val).credits = 256 ∧
      (t.link n.val).ctlOut.head? = some (.mgmt 4 0) ∧ ∃ r, t.log.arrivals = s.log.arrivals ++ [r] ∧ r.code = 0x5003 := by
  obtain ⟨u, hu, hu5, huo, hup, hlog, hstep⟩ := opening_fields s n h5
  obtain ⟨h1, h2, h3, ⟨r, h4, hr⟩, h5'⟩ := openTry_opens hu5 huo (hup.trans hp) ((ringUses_congr hstep.groups n.val).trans hring)
  refine ⟨u.openTry n.val, by rw [hu]; rfl, h1, ?_, ?_, h2, h3, r, by rw [h4, hlog], hr⟩
  · rw [flag_congr (h5'.regs _ (link_addrs n.val).2.2.2.2.1), huo]
  · exact (hstep.mono fun a ha => .inr (.inl ha)).trans (h5'.mono fun a ha => .inl ha)

theorem runs_linkOpen_waits {s : State} {n : LinkId} (h5 : s.linkState n.val = 5) (hp : s.flag (rLinkStatus n.val) fLinkStatusPeerReady = false) :
    Runs (.linkOpen n) s fun t => t.linkState n.val = 5 ∧ t.flag (rLinkCtl n.val) fLinkCtlOpen = true ∧
      LinkStep (fun a => a = rLinkStatus n.val ∨ a = rLinkCtl n.val ∨ a = rLinkHoldNs n.val) s t := by
  obtain ⟨u, hu, hu5, huo, hup, -, hstep⟩ := opening_fields s n h5
  have heq : u.openTry n.val = u := openTry_stays (.inr (.inr (hup.trans hp)))
  refine ⟨u, ?_, hu5, huo, hstep.mono fun a ha => .inr (.inl ha)⟩
  rw [← heq, hu]
  rfl

/-- Closing an open link. -/
theorem runs_linkClose {s : State} {n : LinkId} (h6 : s.linkState n.val = 6) : Runs (.linkClose n) s fun t =>
    t.linkState n.val = 5 ∧ t.flag (rLinkCtl n.val) fLinkCtlOpen = false ∧
    LinkStep (fun a => a = rLinkStatus n.val ∨ a = rLinkCtl n.val ∨ a = rLinkHoldNs n.val) s t ∧ (t.link n.val).egress = [] ∧
    ∃ b, (t.link n.val).ctlOut = [.mgmt 3 0, .mgmt 0 b] := by
  obtain ⟨v, hv⟩ : ∃ v, v = (s.fput (rLinkCtl n.val) fLinkCtlOpen 0).linkGo n.val lsShuttered := ⟨_, rfl⟩
  obtain ⟨w, hw⟩ : ∃ w, w = (v.holdEnd n.val).modLink n.val fun l => l.cleared := ⟨_, rfl⟩
  obtain ⟨-, -, -, -, hcs, hch, -⟩ := link_addrs n.val
  have hheld := LinkStep.holdEnd (A := (· = rLinkHoldNs n.val)) v n rfl
  have hwreg : ∀ a, a ≠ rLinkHoldNs n.val → w.reg a = v.reg a := fun a ha => by
    rw [hw, reg_congr (modLink_regs ..)]
    exact hheld.regs a ha
  have hw5 : w.linkState n.val = 5 := by
    rw [linkState_congr (hwreg _ (link_addrs n.val).1), hv, linkState_linkGo _ _ (by decide), lsShuttered]
  have hwo : w.flag (rLinkCtl n.val) fLinkCtlOpen = false := by
    rw [flag_congr (hwreg _ hch), hv, State.linkGo, flag_fput_other _ _ _ _ hcs]
    exact flag_fput_same_zero _ _ _ (by decide) (by decide)
  have hwstep : LinkStep (fun a => a = rLinkStatus n.val ∨ a = rLinkCtl n.val ∨ a = rLinkHoldNs n.val) s w := by
    rw [hw, hv]
    exact (((LinkStep.fput s _ _ (.inr (.inl rfl)) (rLinkCtl_low n)).trans (.linkGo _ n _ (.inl rfl))).trans
      (.holdEnd _ n (.inr (.inr rfl)))).trans (.modLink ..)
  have hwlink : (w.link n.val).egress = [] ∧ (w.link n.val).ctlOut = [] := by
    rw [hw, link_modLink_same]
    exact ⟨rfl, rfl⟩
  obtain ⟨x, hx⟩ : ∃ x, x = w.ctlSend n.val (.mgmt 3 0) := ⟨_, rfl⟩
  have hxeq : x = w.modLink n.val fun l => { l with ctlOut := ctlInsert l.ctlOut (.mgmt 3 0) } := hx.trans (ctlSend_mgmt (by omega) _ _)
  have hx5 : x.linkState n.val = 5 := by rw [hxeq, linkState_modLink, hw5]
  refine ⟨x.sendIdent n.val, ?_, ?_⟩
  · show execLinkClose n s = _
    unfold execLinkClose
    dsimp only
    rw [if_pos (show s.linkState n.val = lsOpen from h6), hx, hw, hv]
  · rw [sendIdent_eq (by omega)]
    refine ⟨(linkState_modLink ..).trans hx5, ?_, (hwstep.trans ?_).trans (.modLink ..), ?_, x.identBits n.val, ?_⟩
    · rw [flag_congr (reg_congr (modLink_regs ..) _), hxeq, flag_congr (reg_congr (modLink_regs ..) _), hwo]
    · rw [hxeq]
      exact .modLink ..
    · rw [link_modLink_same, hxeq, link_modLink_same]
      exact hwlink.1
    · rw [link_modLink_same, hxeq, link_modLink_same, hwlink.2]
      rfl

/-! ### PROBE, ECHO, START -/

theorem linkTalks_iff (s : State) (n : Nat) : s.linkTalks n = true ↔ 4 ≤ s.linkState n := decide_eq_true_iff

/-- A message taken leaves the state of the link. -/
theorem linkState_ctlTake (s : State) (n m : Nat) (c : CtlMsg) : (s.ctlTake n c).linkState m = s.linkState m :=
  linkState_congr (reg_congr (ctlTake_fields s n m c).1 _)

theorem LinkStep.ctlTake {A : Nat → Prop} (s : State) (n : Nat) (c : CtlMsg) : LinkStep A s (s.ctlTake n c) :=
  .of_same (ctlTake_fields s n n c).1 (ctlTake_fields s n n c).2.1

theorem link_ctlTake (s : State) (n : Nat) (c : CtlMsg) : ∃ q, (s.ctlTake n c).link n = { s.link n with ctlIn := q } :=
  (ctlTake_fields s n n c).2.2.2.2.2.2

theorem runs_mgmtProbe {s : State} {n : LinkId} (stamp : BitVec 48) (h4 : 4 ≤ s.linkState n.val) : Runs (.mgmtProbe n stamp) s fun t =>
    (t.link n.val).ctlOut = ctlInsert (s.link n.val).ctlOut (.mgmt 2 (stamp.setWidth 116)) ∧ SameRegs s t ∧ SameMem s t := by
  obtain ⟨u, hu⟩ : ∃ u, u = s.ctlTake n.val (.mgmt 1 (stamp.setWidth 116)) := ⟨_, rfl⟩
  have hu4 : 4 ≤ u.linkState n.val := by rw [hu, linkState_ctlTake]; exact h4
  have hstep : LinkStep (fun _ => False) s u := by rw [hu]; exact .ctlTake ..
  obtain ⟨q, hq⟩ := link_ctlTake s n.val (.mgmt 1 (stamp.setWidth 116))
  refine ⟨u.ctlSend n.val (.mgmt 2 (stamp.setWidth 116)), ?_, ?_⟩
  · rw [hu]
    exact congrArg Host.Outcome.next (if_pos ((linkTalks_iff ..).2 h4))
  · rw [ctlSend_mgmt hu4]
    have hall := hstep.trans (LinkStep.modLink (A := fun _ => False) u n.val
      fun l => { l with ctlOut := ctlInsert l.ctlOut (.mgmt 2 (stamp.setWidth 116)) })
    refine ⟨?_, fun a => hall.regs a id, hall.mem⟩
    rw [link_modLink_same, hu, hq]

theorem runs_mgmtStart {s : State} {n : LinkId} (h4 : 4 ≤ s.linkState n.val) (hi : (s.link n.val).rxIdx = none) :
    Runs (.mgmtStart n) s fun t => (t.link n.val).rxIdx = some 0 ∧ SameRegs s t ∧ SameMem s t := by
  obtain ⟨u, hu⟩ : ∃ u, u = s.ctlTake n.val (.mgmt 4 0) := ⟨_, rfl⟩
  have hall : LinkStep (fun _ => False) s (u.modLink n.val fun l => { l with rxIdx := some 0 }) := by
    rw [hu]
    exact (LinkStep.ctlTake ..).trans (.modLink ..)
  refine ⟨u.modLink n.val fun l => { l with rxIdx := some 0 }, ?_, ?_, fun a => hall.regs a id, hall.mem⟩
  · rw [hu]
    refine congrArg Host.Outcome.next (if_pos ?_)
    rw [(linkTalks_iff ..).2 h4, hi]
    rfl
  · rw [link_modLink_same]

/-- The latency that an ECHO measures, with the echo seen. -/
def State.echoed (s : State) (n : Nat) (stamp : BitVec 48) : State :=
  ((s.ctlTake n (.mgmt 2 (stamp.setWidth 116))).fput (rLinkLat n) fLinkLatLatPs (1280 * ((s.frameStamp + 2 ^ 48 - stamp.toNat) % 2 ^ 48))).modLink n
    fun l => { l with echoSeen := true }

theorem mgmtEcho_eq {s : State} {n : LinkId} (stamp : BitVec 48) (h4 : s.linkState n.val = 4) :
    exec (.mgmtEcho n stamp) s = .next ((s.echoed n.val stamp).identReach n.val) := by
  show execMgmtEcho n stamp s = _
  unfold execMgmtEcho
  dsimp only
  rw [if_pos (show s.linkState n.val = lsIdent from h4), State.echoed]

theorem rLinkLat_low (n : LinkId) : rLinkLat n.val < rGtCfg 0 := by have := n.isLt; unfold rLinkLat rGtCfg; omega

theorem echoed_fields (s : State) (n : LinkId) (stamp : BitVec 48) :
    (s.echoed n.val stamp).linkState n.val = s.linkState n.val ∧
    ((s.echoed n.val stamp).link n.val).echoSeen = true ∧ ((s.echoed n.val stamp).link n.val).identSeen = (s.link n.val).identSeen ∧
    (s.echoed n.val stamp).reg (rLinkLat n.val) =
      fLinkLatLatPs.put (s.reg (rLinkLat n.val)) (1280 * ((s.frameStamp + 2 ^ 48 - stamp.toNat) % 2 ^ 48)) ∧
    LinkStep (· = rLinkLat n.val) s (s.echoed n.val stamp) := by
  obtain ⟨u, hu⟩ : ∃ u, u = s.ctlTake n.val (.mgmt 2 (stamp.setWidth 116)) := ⟨_, rfl⟩
  have hstep : LinkStep (· = rLinkLat n.val) s u := by rw [hu]; exact .ctlTake ..
  have hreg : u.reg (rLinkLat n.val) = s.reg (rLinkLat n.val) := by rw [hu]; exact reg_congr (ctlTake_fields s n.val n.val _).1 _
  obtain ⟨q, hq⟩ := link_ctlTake s n.val (.mgmt 2 (stamp.setWidth 116))
  rw [← hu] at hq
  rw [State.echoed, ← hu]
  obtain ⟨v, hv⟩ : ∃ v, v = u.fput (rLinkLat n.val) fLinkLatLatPs (1280 * ((s.frameStamp + 2 ^ 48 - stamp.toNat) % 2 ^ 48)) := ⟨_, rfl⟩
  have hvl : v.link n.val = u.link n.val := by rw [hv]; exact link_congr (fput_links ..) _
  have hvstep : LinkStep (· = rLinkLat n.val) u v := by rw [hv]; exact .fput u _ _ rfl (rLinkLat_low n)
  have hall := (hstep.trans hvstep).trans (LinkStep.modLink v n.val fun l => { l with echoSeen := true })
  rw [← hv]
  refine ⟨linkState_congr (hall.regs _ (link_addrs n.val).2.2.2.2.2.2.2.2.1), by rw [link_modLink_same], ?_, ?_, hall⟩
  · rw [link_modLink_same, hvl, hq]
  · rw [reg_congr (modLink_regs ..), hv, reg_fput_same, hreg]

theorem runs_mgmtEcho_waits {s : State} {n : LinkId} (stamp : BitVec 48) (h4 : s.linkState n.val = 4) (hi : (s.link n.val).identSeen = false) :
    Runs (.mgmtEcho n stamp) s fun t => t.linkState n.val = 4 ∧ (t.link n.val).echoSeen = true ∧
      t.reg (rLinkLat n.val) = fLinkLatLatPs.put (s.reg (rLinkLat n.val)) (1280 * ((s.frameStamp + 2 ^ 48 - stamp.toNat) % 2 ^ 48)) ∧
      LinkStep (· = rLinkLat n.val) s t := by
  obtain ⟨h1, h2, h3, h5, h6⟩ := echoed_fields s n stamp
  have heq : (s.echoed n.val stamp).identReach n.val = s.echoed n.val stamp := if_neg fun c => by
    rw [h3, hi] at c
    exact Bool.false_ne_true c.2.1
  exact ⟨s.echoed n.val stamp, by rw [mgmtEcho_eq stamp h4, heq], h1.trans h4, h2, h5, h6⟩

theorem rLinkCtlBadCnt_low (n : LinkId) : rLinkCtlBadCnt n.val < rGtCfg 0 := by have := n.isLt; unfold rLinkCtlBadCnt rGtCfg; omega

/-- A GROUP message of the boot exchange on a shuttered link is queued, or counted on a Nuore-compatible one. -/
theorem ctlSend_boot (s : State) (n : LinkId) : (s.ctlSend n.val (.group 5 bootMsg)).linkState n.val = s.linkState n.val ∧
    ((s.ctlSend n.val (.group 5 bootMsg)).link n.val).fails = (s.link n.val).fails ∧
    LinkStep (· = rLinkCtlBadCnt n.val) s (s.ctlSend n.val (.group 5 bootMsg)) := by
  have hne : rLinkStatus n.val ≠ rLinkCtlBadCnt n.val := by unfold rLinkStatus rLinkCtlBadCnt; omega
  rw [State.ctlSend]
  split_ifs
  · exact ⟨linkState_congr (reg_count_other _ _ hne), congrArg LinkS.fails (link_congr (count_links ..) _), .count _ _ rfl (rLinkCtlBadCnt_low n)⟩
  · exact ⟨linkState_modLink .., by rw [link_modLink_same], .modLink ..⟩
  · exact ⟨rfl, rfl, .refl s⟩

theorem identReach_shuttered {s : State} {n : LinkId} (h4 : s.linkState n.val = 4) (hi : (s.link n.val).identSeen = true)
    (he : (s.link n.val).echoSeen = true) (ho : s.flag (rLinkCtl n.val) fLinkCtlOpen = false) :
    (s.identReach n.val).linkState n.val = 5 ∧ ((s.identReach n.val).link n.val).fails = 0 ∧
    LinkStep (fun a => a = rLinkStatus n.val ∨ a = rLinkCtlBadCnt n.val) s (s.identReach n.val) := by
  obtain ⟨u, hu⟩ : ∃ u, u = (s.linkGo n.val lsShuttered).modLink n.val fun l => { l with fails := 0 } := ⟨_, rfl⟩
  have hu5 : u.linkState n.val = 5 := by rw [hu, linkState_modLink, linkState_linkGo _ _ (by decide), lsShuttered]
  have hustep : LinkStep (fun a => a = rLinkStatus n.val ∨ a = rLinkCtlBadCnt n.val) s u := by
    rw [hu]
    exact (LinkStep.linkGo s n _ (.inl rfl)).trans (.modLink ..)
  have huo : u.flag (rLinkCtl n.val) fLinkCtlOpen = false := by
    rw [hu, flag_congr (reg_congr (modLink_regs ..) _), State.linkGo, flag_fput_other _ _ _ _ (link_addrs n.val).2.2.2.2.1, ho]
  have huf : (u.link n.val).fails = 0 := by rw [hu, link_modLink_same]
  obtain ⟨v, hv⟩ : ∃ v, v = u.sendIdent n.val := ⟨_, rfl⟩
  have hveq : v = u.modLink n.val fun l => { l with ctlOut := ctlInsert l.ctlOut (.mgmt 0 (u.identBits n.val)) } :=
    hv.trans (sendIdent_eq (by omega))
  have hv5 : v.linkState n.val = 5 := by rw [hveq, linkState_modLink, hu5]
  have hvf : (v.link n.val).fails = 0 := by rw [hveq, link_modLink_same]; exact huf
  have hvstep : LinkStep (fun a => a = rLinkStatus n.val ∨ a = rLinkCtlBadCnt n.val) s v := by
    rw [hveq]
    exact hustep.trans (.modLink ..)
  have hopen : v.openTry n.val = v := openTry_stays (.inr (.inl (by rw [hveq, flag_congr (reg_congr (modLink_regs ..) _), huo])))
  have heq : s.identReach n.val = if n.val = 0 ∧ s.hearth.boot = .neighbour then v.ctlSend 0 (.group 5 bootMsg) else v := by
    unfold State.identReach
    rw [if_pos ⟨h4, hi, he⟩]
    dsimp only
    rw [← hu, ← hv, hopen]
  rw [heq]
  split_ifs with hb
  · obtain ⟨b1, b2, b3⟩ := ctlSend_boot v n
    rw [show v.ctlSend 0 (.group 5 bootMsg) = v.ctlSend n.val (.group 5 bootMsg) by rw [hb.1]]
    exact ⟨b1.trans hv5, b2.trans hvf, hvstep.trans (b3.mono fun a ha => .inr ha)⟩
  · exact ⟨hv5, hvf, hvstep⟩

theorem runs_mgmtEcho_shuttered {s : State} {n : LinkId} (stamp : BitVec 48) (h4 : s.linkState n.val = 4) (hi : (s.link n.val).identSeen = true)
    (ho : s.flag (rLinkCtl n.val) fLinkCtlOpen = false) : Runs (.mgmtEcho n stamp) s fun t =>
      t.linkState n.val = 5 ∧ (t.link n.val).fails = 0 ∧
      LinkStep (fun a => a = rLinkLat n.val ∨ a = rLinkStatus n.val ∨ a = rLinkCtlBadCnt n.val) s t := by
  obtain ⟨h1, h2, h3, h5, h6⟩ := echoed_fields s n stamp
  obtain ⟨g1, g2, g3⟩ := identReach_shuttered (h1.trans h4) (h3.trans hi) h2
    ((flag_congr (h6.regs _ (link_addrs n.val).2.2.2.2.2.2.2.2.2) _).trans ho)
  exact ⟨(s.echoed n.val stamp).identReach n.val, mgmtEcho_eq stamp h4, g1, g2, (h6.mono fun a ha => .inl ha).trans (g3.mono fun a ha => .inr ha)⟩

/-! ### IDENT -/

theorem rLinkRxslot_ne (n i : Nat) : rLinkRxslot n i ≠ rLinkStatus n := by unfold rLinkRxslot rLinkStatus; omega

/-- The digest reads LINK_CTL and the slot table alone. -/
theorem slotDigest_congr {s t : State} {n : Nat} (hc : t.reg (rLinkCtl n) = s.reg (rLinkCtl n)) (hx : ∀ i, t.reg (rLinkRxslot n i) = s.reg (rLinkRxslot n i)) :
    t.slotDigest n (rLinkRxslot n) = s.slotDigest n (rLinkRxslot n) := by
  simp only [State.slotDigest, State.framePeriod, State.entry16, State.fget, hc, hx]

/-- Name the partner in the status register. -/
def State.named (s : State) (n : Nat) (dev : BitVec 24) (plink : BitVec 5) : State :=
  (s.fput (rLinkStatus n) fLinkStatusPeerId dev.toNat).fput (rLinkStatus n) fLinkStatusPeerLink plink.toNat

theorem named_fields (s : State) (n : LinkId) (dev : BitVec 24) (plink : BitVec 5) :
    (s.named n.val dev plink).linkState n.val = s.linkState n.val ∧
    (s.named n.val dev plink).fget (rLinkStatus n.val) fLinkStatusPeerId = dev.toNat ∧
    (s.named n.val dev plink).fget (rLinkStatus n.val) fLinkStatusPeerLink = plink.toNat ∧
    (s.named n.val dev plink).fget (rLinkStatus n.val) fLinkStatusLastDown = s.fget (rLinkStatus n.val) fLinkStatusLastDown ∧
    LinkStep (· = rLinkStatus n.val) s (s.named n.val dev plink) := by
  rw [State.named]
  refine ⟨?_, ?_, ?_, ?_, ?_⟩
  · rw [linkState_fput _ _ _ _ (by decide) (by decide) (by decide), linkState_fput _ _ _ _ (by decide) (by decide) (by decide)]
  · rw [fget_fput_above _ _ _ _ _ (by decide) (by decide) (by decide) (by decide), fget_fput_same _ _ _ _ (by decide) (by decide)]
    exact Nat.mod_eq_of_lt dev.isLt
  · rw [fget_fput_same _ _ _ _ (by decide) (by decide)]
    exact Nat.mod_eq_of_lt plink.isLt
  · rw [fget_fput_below _ _ _ _ _ (by decide) (by decide) (by decide) (by decide), fget_fput_below _ _ _ _ _ (by decide) (by decide) (by decide) (by decide)]
  · exact (LinkStep.fput (A := (· = rLinkStatus n.val)) s _ _ rfl (rLinkStatus_low n)).trans (.fput _ _ _ rfl (rLinkStatus_low n))

/-- A partner that is not refused: PEER_READY follows its last READY. -/
theorem peerCheck_follows {s : State} {n : LinkId} (other : Bool) (hi : (s.link n.val).identSeen = true)
    (hany : s.flag (rLinkPeerExp n.val) fLinkPeerExpAny = true) :
    s.peerCheck n.val other = (s.fput (rLinkStatus n.val) fLinkStatusPeerReady (bton (s.link n.val).peerReady)).modLink n.val
      fun l => { l with wrongPeer := false } := by
  unfold State.peerCheck
  simp only [hi, hany, Bool.not_true, Bool.false_eq_true, if_false, Bool.and_false, Bool.false_and, Bool.not_false, Bool.and_true]

/-- The digests compared. -/
theorem tableCheck_fields {s : State} {n : LinkId} {d : BitVec 32} (hd : (s.link n.val).peerDigest = some d) :
    ∃ u, u = s.fput (rLinkStatus n.val) fLinkStatusTableOk (bton (d == s.slotDigest n.val (rLinkRxslot n.val))) ∧
      (∀ a, (s.tableCheck n.val).reg a = u.reg a) ∧ LinkStep (· = rLinkStatus n.val) s (s.tableCheck n.val) := by
  obtain ⟨u, hu⟩ : ∃ u, u = s.fput (rLinkStatus n.val) fLinkStatusTableOk (bton (d == s.slotDigest n.val (rLinkRxslot n.val))) := ⟨_, rfl⟩
  have hstep : LinkStep (· = rLinkStatus n.val) s u := by
    rw [hu]
    exact .fput s _ _ rfl (rLinkStatus_low n)
  obtain ⟨v, hv⟩ : ∃ v, v = u.modLink n.val fun l => { l with mismatch := !(d == s.slotDigest n.val (rLinkRxslot n.val)) } := ⟨_, rfl⟩
  have hvr : ∀ a, v.reg a = u.reg a := fun a => by rw [hv]; exact reg_congr (modLink_regs ..) a
  have hvstep : LinkStep (· = rLinkStatus n.val) s v := by
    rw [hv]
    exact hstep.trans (.modLink ..)
  have heq : s.tableCheck n.val = if !(d == s.slotDigest n.val (rLinkRxslot n.val)) && !(s.link n.val).mismatch then
      v.emit (evr 0x5008 (0x20 + n.val) 0 n.val) else v := by
    rw [State.tableCheck, hd, hv, hu]
  refine ⟨u, hu, ?_⟩
  rw [heq]
  split_ifs
  · exact ⟨hvr, hvstep.trans (.emit ..)⟩
  · exact ⟨hvr, hvstep⟩

/-- The condition under which an IDENT is only noted. -/
theorem mgmtIdent_eq {s : State} {n : LinkId} (dev : BitVec 24) (plink : BitVec 5) (ready : Bool) (digest : BitVec 32)
    (h5 : s.linkState n.val = 5) : ∃ c, exec (.mgmtIdent n dev plink ready (s.link n.val).mode digest) s =
      .next ((((((((s.ctlTake n.val c).named n.val dev plink).modLink n.val fun l =>
        { l with identSeen := true, peerNuore := (s.link n.val).mode, peerDigest := some digest, peerReady := ready }).peerCheck n.val
          (s.fget (rLinkStatus n.val) fLinkStatusPeerId != dev.toNat)).tableCheck n.val).identReach n.val).openTry n.val)) := by
  refine ⟨.mgmt 0 (BitVec.ofNat 116 (dev.toNat * 2 ^ 92 + plink.toNat * 2 ^ 87 + bton ready * 2 ^ 86 + bton (s.link n.val).mode * 2 ^ 85 +
    digest.toNat * 2 ^ 53)), ?_⟩
  show execMgmtIdent n dev plink ready (s.link n.val).mode digest s = _
  unfold execMgmtIdent
  dsimp only
  have htalk : s.linkTalks n.val = true := (linkTalks_iff ..).2 (by omega)
  rw [if_neg (by rw [htalk]; decide), if_neg (by rw [h5]; exact fun c => absurd c.1 (by decide)), if_neg (by rw [h5]; decide), if_neg (not_not.2 rfl)]
  rfl

theorem runs_mgmtIdent_notes {s : State} {n : LinkId} (dev : BitVec 24) (plink : BitVec 5) (ready : Bool) (digest : BitVec 32)
    (h5 : s.linkState n.val = 5) (ho : s.flag (rLinkCtl n.val) fLinkCtlOpen = false) (hany : s.flag (rLinkPeerExp n.val) fLinkPeerExpAny = true) :
    Runs (.mgmtIdent n dev plink ready (s.link n.val).mode digest) s fun t => t.linkState n.val = 5 ∧
      t.fget (rLinkStatus n.val) fLinkStatusPeerId = dev.toNat ∧ t.fget (rLinkStatus n.val) fLinkStatusPeerLink = plink.toNat ∧
      t.flag (rLinkStatus n.val) fLinkStatusPeerReady = ready ∧
      t.flag (rLinkStatus n.val) fLinkStatusTableOk = decide (digest = s.slotDigest n.val (rLinkRxslot n.val)) ∧
      LinkStep (· = rLinkStatus n.val) s t := by
  obtain ⟨c, hexec⟩ := mgmtIdent_eq dev plink ready digest h5
  obtain ⟨-, -, -, -, hcs, -⟩ := link_addrs n.val
  obtain ⟨u0, hu0⟩ : ∃ u, u = s.ctlTake n.val c := ⟨_, rfl⟩
  have hs0 : LinkStep (· = rLinkStatus n.val) s u0 := by rw [hu0]; exact .ctlTake ..
  have h05 : u0.linkState n.val = 5 := by rw [hu0, linkState_ctlTake, h5]
  obtain ⟨n1, n2, n3, -, n5⟩ := named_fields u0 n dev plink
  obtain ⟨u1, hu1⟩ : ∃ u, u = (u0.named n.val dev plink).modLink n.val fun l =>
    { l with identSeen := true, peerNuore := (s.link n.val).mode, peerDigest := some digest, peerReady := ready } := ⟨_, rfl⟩
  have hl1 : (u1.link n.val).identSeen = true ∧ (u1.link n.val).peerDigest = some digest ∧ (u1.link n.val).peerReady = ready := by
    rw [hu1, link_modLink_same]
    exact ⟨rfl, rfl, rfl⟩
  have hr1 : u1.reg (rLinkStatus n.val) = (u0.named n.val dev plink).reg (rLinkStatus n.val) := by rw [hu1]; exact reg_congr (modLink_regs ..) _
  have hs1 : LinkStep (· = rLinkStatus n.val) s u1 := by
    rw [hu1]
    exact (hs0.trans n5).trans (.modLink ..)
  have hexp : rLinkPeerExp n.val ≠ rLinkStatus n.val := by unfold rLinkPeerExp rLinkStatus; omega
  obtain ⟨w, hw⟩ : ∃ w, w = u1.fput (rLinkStatus n.val) fLinkStatusPeerReady (bton ready) := ⟨_, rfl⟩
  obtain ⟨u2, hu2⟩ : ∃ u, u = u1.peerCheck n.val (s.fget (rLinkStatus n.val) fLinkStatusPeerId != dev.toNat) := ⟨_, rfl⟩
  have heq2 : u2 = w.modLink n.val fun l => { l with wrongPeer := false } := by
    rw [hu2, peerCheck_follows _ hl1.1 ((flag_congr (hs1.regs _ hexp) _).trans hany), hl1.2.2, hw]
  have hr2 : u2.reg (rLinkStatus n.val) = w.reg (rLinkStatus n.val) := by rw [heq2]; exact reg_congr (modLink_regs ..) _
  have hd2 : (u2.link n.val).peerDigest = some digest := by
    rw [heq2, link_modLink_same, hw, link_congr (fput_links ..)]
    exact hl1.2.1
  have hs2 : LinkStep (· = rLinkStatus n.val) s u2 := by
    rw [heq2, hw]
    exact (hs1.trans (.fput u1 _ _ rfl (rLinkStatus_low n))).trans (.modLink ..)
  obtain ⟨x, hx, hxr, hs3⟩ := tableCheck_fields hd2
  have hdig : u2.slotDigest n.val (rLinkRxslot n.val) = s.slotDigest n.val (rLinkRxslot n.val) :=
    slotDigest_congr (hs2.regs _ hcs) fun i => hs2.regs _ (rLinkRxslot_ne n.val i)
  obtain ⟨t, ht⟩ : ∃ t, t = u2.tableCheck n.val := ⟨_, rfl⟩
  rw [← ht] at hxr hs3
  have hst : LinkStep (· = rLinkStatus n.val) s t := hs2.trans hs3
  have hw5 : w.linkState n.val = 5 := by
    rw [hw, linkState_fput _ _ _ _ (by decide) (by decide) (by decide), linkState_congr hr1, n1, h05]
  have ht5 : t.linkState n.val = 5 := by
    rw [linkState_congr (hxr _), hx, linkState_fput _ _ _ _ (by decide) (by decide) (by decide), linkState_congr hr2, hw5]
  have hreach : t.identReach n.val = t := if_neg fun c => by
    rw [ht5] at c
    exact absurd c.1 (by decide)
  have hopen : t.openTry n.val = t := openTry_stays (.inr (.inl ((flag_congr (hst.regs _ hcs) _).trans ho)))
  refine ⟨t, ?_, ht5, ?_, ?_, ?_, ?_, hst⟩
  · rw [hexec, ← hu0, ← hu1, ← hu2, ← ht, hreach, hopen]
  · rw [State.fget, hxr, hx, ← State.fget, fget_fput_above _ _ _ _ _ (by decide) (by decide) (by decide) (by decide), State.fget, hr2, hw, ← State.fget,
      fget_fput_above _ _ _ _ _ (by decide) (by decide) (by decide) (by decide), State.fget, hr1]
    exact n2
  · rw [State.fget, hxr, hx, ← State.fget, fget_fput_above _ _ _ _ _ (by decide) (by decide) (by decide) (by decide), State.fget, hr2, hw, ← State.fget,
      fget_fput_above _ _ _ _ _ (by decide) (by decide) (by decide) (by decide), State.fget, hr1]
    exact n3
  · rw [State.flag, State.fget, hxr, hx, ← State.fget, fget_fput_above _ _ _ _ _ (by decide) (by decide) (by decide) (by decide), State.fget, hr2, hw,
      ← State.fget, fget_fput_same _ _ _ _ (by decide) (by decide)]
    cases ready <;> rfl
  · rw [State.flag, State.fget, hxr, hx, ← State.fget, fget_fput_same _ _ _ _ (by decide) (by decide), hdig]
    by_cases hd : digest = s.slotDigest n.val (rLinkRxslot n.val)
    · rw [beq_iff_eq.2 hd, decide_eq_true hd]
      rfl
    · rw [beq_false_of_ne hd, decide_eq_false hd]
      rfl

theorem runs_mgmtIdent_other {s : State} {n : LinkId} (dev : BitVec 24) (plink : BitVec 5) (ready nuore : Bool) (digest : BitVec 32)
    (h6 : s.linkState n.val = 6) (hold : s.fget (rLinkStatus n.val) fLinkStatusPeerId ≠ dev.toNat) (hring : s.ringUses n.val = []) :
    Runs (.mgmtIdent n dev plink ready nuore digest) s fun t => t.linkState n.val = 7 ∧ t.fget (rLinkStatus n.val) fLinkStatusLastDown = 5 ∧
      t.fget (rLinkStatus n.val) fLinkStatusPeerId = dev.toNat ∧ SameMem s t := by
  obtain ⟨u, hu⟩ : ∃ u, u = s.ctlTake n.val (.mgmt 0 (BitVec.ofNat 116 (dev.toNat * 2 ^ 92 + plink.toNat * 2 ^ 87 + bton ready * 2 ^ 86 +
    bton nuore * 2 ^ 85 + digest.toNat * 2 ^ 53))) := ⟨_, rfl⟩
  have hs : LinkStep (fun _ => False) s u := by rw [hu]; exact .ctlTake ..
  have hlost := goDown_lost u n (reason := 5) (by decide) ((ringUses_congr hs.groups n.val).trans hring)
  obtain ⟨n1, n2, -, n4, n5⟩ := named_fields (u.goDown n.val 5) n dev plink
  refine ⟨(u.goDown n.val 5).named n.val dev plink, ?_, n1.trans hlost.state, n4.trans hlost.last, n2, fun a => ?_⟩
  · have htalk : s.linkTalks n.val = true := (linkTalks_iff ..).2 (by omega)
    show execMgmtIdent n dev plink ready nuore digest s = _
    unfold execMgmtIdent
    dsimp only
    rw [if_neg (by rw [htalk]; decide), if_pos ⟨show s.linkState n.val = lsOpen from h6, hold⟩, hu, State.named]
  · exact (n5.mem a).trans ((hlost.step.mem a).trans (hs.mem a))

/-- Settles O45: each command is one of the shutter's operations on the link, taken apart into the register fields it puts, and every later
check of the handshake stands still where the state or the OPEN bit does not let it on. -/
theorem linkShutters : Obligations.LinkShutters := by
  unfold Obligations.LinkShutters
  intro s n st l flips
  refine ⟨fun h5 hp hring => ?_, fun h5 hp => ?_, fun h6 => ?_, fun stamp h4 => runs_mgmtProbe stamp h4, fun stamp h4 hi => ?_,
    fun stamp h4 hi ho => ?_, fun dev plink ready digest h5 ho hany => ?_, fun dev plink ready nuore digest h6 hold hring => ?_,
    fun h4 hi => runs_mgmtStart h4 hi⟩
  · obtain ⟨t, he, h1, h2, h3, h4⟩ := runs_linkOpen_opens h5 hp hring
    exact ⟨t, he, ⟨h1, h2, h3.regs, h3.mem⟩, h4⟩
  · obtain ⟨t, he, h1, h2, h3⟩ := runs_linkOpen_waits h5 hp
    exact ⟨t, he, h1, h2, h3.regs, h3.mem⟩
  · obtain ⟨t, he, h1, h2, h3, h4⟩ := runs_linkClose h6
    exact ⟨t, he, ⟨h1, h2, h3.regs, h3.mem⟩, h4⟩
  · obtain ⟨t, he, h1, h2, h3, h5⟩ := runs_mgmtEcho_waits stamp h4 hi
    exact ⟨t, he, h1, h2, h3, h5.regs, h5.mem⟩
  · obtain ⟨t, he, h1, h2, h3⟩ := runs_mgmtEcho_shuttered stamp h4 hi ho
    exact ⟨t, he, h1, h2, h3.regs, h3.mem⟩
  · obtain ⟨t, he, h1, h2, h3, h4, h6, h7⟩ := runs_mgmtIdent_notes dev plink ready digest h5 ho hany
    exact ⟨t, he, h1, h2, h3, h4, h6, h7.regs, h7.mem⟩
  · exact runs_mgmtIdent_other dev plink ready nuore digest h6 hold hring

end Sys2Proof.Machine

/-! ## Frames and bulk on an open link -/

namespace Sys2Proof.Machine

-- One proof at a time, as in Sys2Proof/Laws: each waiting proof would keep a thread and its stack.
set_option Elab.async false

/-! ### Addresses of the counters of a link -/

theorem linkCnt_addrs (n : Nat) : rLinkFramesTxCnt n ≠ rLinkBulkTxCnt n ∧ rLinkFramesTxCnt n ≠ rLinkCtlTxCnt n ∧
    rLinkFramesTxCnt n ≠ rLinkNocreditCnt n ∧ rLinkBulkTxCnt n ≠ rLinkCtlTxCnt n ∧ rLinkBulkTxCnt n ≠ rLinkNocreditCnt n ∧
    rLinkCtlTxCnt n ≠ rLinkNocreditCnt n ∧ rLinkBulkTxCnt n ≠ rLinkFramesTxCnt n ∧ rLinkCtlTxCnt n ≠ rLinkFramesTxCnt n ∧
    rLinkCtlTxCnt n ≠ rLinkBulkTxCnt n := by
  unfold rLinkFramesTxCnt rLinkBulkTxCnt rLinkCtlTxCnt rLinkNocreditCnt
  omega

/-- A count of nothing. -/
theorem reg_count_zero (s : State) (a b : Nat) : (s.count a 0).reg b = s.reg b := by
  by_cases h : b = a
  · rw [h, reg_count_same]
    exact BitVec.add_zero _
  · exact reg_count_other _ _ h

/-! ### Sending a frame -/

/-- Of a station with nothing to send, a frame that went out moves nothing. -/
theorem pumped_none {s : State} {n : Nat} (hw : (s.link n).wireQ = []) (hg : (s.link n).gathSent = []) :
    ((s.wirePump n).gathPosts n).regs = s.regs ∧ ((s.wirePump n).gathPosts n).mem = s.mem ∧
    ((s.wirePump n).gathPosts n).sent = s.sent ∧ ((s.wirePump n).gathPosts n).link n = s.link n := by
  have hpump : s.wirePump n = s := if_pos (.inl hw)
  rw [hpump, State.gathPosts, hg, List.foldl_nil]
  refine ⟨modLink_regs .., modLink_mem .., modLink_sent .., ?_⟩
  rw [link_modLink_same, if_pos hg]

/-- The queue, the credits and the egress of a link as a frame leaves them. -/
structure SentAs (n : LinkId) (out : Bytes) (go opened msg : Bool) (cr k : Nat) (rest : List CtlMsg) (eg : List (Nat × Bytes)) (s t : State) : Prop where
  sent : t.sent = s.sent ++ [.linkFrame n out]
  ctlOut : (t.link n.val).ctlOut = rest
  toReturn : (t.link n.val).toReturn = (s.link n.val).toReturn - cr
  txIdx : (t.link n.val).txIdx = if opened then (s.link n.val).txIdx + 1 else (s.link n.val).txIdx
  credits : (t.link n.val).credits = if go then (s.link n.val).credits - 1 else (s.link n.val).credits
  egress : (t.link n.val).egress = eg
  frames : t.reg (rLinkFramesTxCnt n.val) = s.reg (rLinkFramesTxCnt n.val) + BitVec.ofNat 64 (bton opened)
  bulk : t.reg (rLinkBulkTxCnt n.val) = s.reg (rLinkBulkTxCnt n.val) + BitVec.ofNat 64 k
  ctl : t.reg (rLinkCtlTxCnt n.val) = s.reg (rLinkCtlTxCnt n.val) + BitVec.ofNat 64 (bton msg)
  regs : RegsBut (fun a => a = rLinkFramesTxCnt n.val ∨ a = rLinkBulkTxCnt n.val ∨ a = rLinkCtlTxCnt n.val ∨ a = rLinkNocreditCnt n.val) s t
  mem : SameMem s t

theorem creditPost_fields (s : State) (n f b : Nat) : (s.creditPost n f b).regs = s.regs ∧ (s.creditPost n f b).mem = s.mem ∧
    (s.creditPost n f b).sent = s.sent ∧ (s.creditPost n f b).links = s.links := by
  unfold State.creditPost
  extract_lets a
  split_ifs
  · split
    · exact ⟨bellToCore_regs .., bellToCore_mem .., bellToCore_sent .., bellToCore_links ..⟩
    · exact ⟨rfl, rfl, rfl, rfl⟩
  · exact ⟨rfl, rfl, rfl, rfl⟩

/-- The bytes of a frame that carries the message `m`, if any, and `bulk`. -/
def frameOut (m : Option CtlMsg) (blen cr : Nat) (bulk : Bytes) : Bytes :=
  match m with
  | some m => frameBytes (ctlKind m) blen cr (ctlBits m) bulk
  | none => frameBytes 0 blen cr 0 bulk

/-- Does the frame carry bulk: its slot names a flow, the flow has bytes, and the link a credit (R275)? -/
def State.carries (s : State) (n : Nat) : Bool :=
  s.flag (rLinkStatus n) fLinkStatusTableOk && !s.flag (rLinkStatus n) fLinkStatusBulkUnreach &&
    bitN (s.entry16 (rLinkTxslot n) ((s.link n).txIdx % s.framePeriod n)) 15 &&
    decide (s.egress n (s.entry16 (rLinkTxslot n) ((s.link n).txIdx % s.framePeriod n) % 64) ≠ []) && decide (0 < (s.link n).credits)

/-- The bulk of the frame, and the egress buffers behind it. -/
def State.carried (s : State) (n : Nat) : Bytes :=
  if s.carries n then (s.egress n (s.entry16 (rLinkTxslot n) ((s.link n).txIdx % s.framePeriod n) % 64)).take 496 else []

def State.egressLeft (s : State) (n : Nat) : List (Nat × Bytes) :=
  let f := s.entry16 (rLinkTxslot n) ((s.link n).txIdx % s.framePeriod n) % 64
  if s.carries n then sset (fun _ => []) (s.link n).egress f ((s.egress n f).drop 496) else (s.link n).egress

/-- A frame on an open link whose station has nothing to send. -/
theorem frameTx_sent {s : State} {n : LinkId} (h6 : s.linkState n.val = 6) (hst : (s.link n.val).still = false) (hw : (s.link n.val).wireQ = [])
    (hg : (s.link n.val).gathSent = []) (hserve : (s.link n.val).ctlOut = [] → (s.link n.val).serve = none) :
    SentAs n (frameOut (s.link n.val).ctlOut.head? (if (s.carried n.val).length = 496 then 7 else ((s.carried n.val).length + 127) / 128)
        (min 3 (s.link n.val).toReturn) (s.carried n.val)) (s.carries n.val) true (s.link n.val).ctlOut.head?.isSome (min 3 (s.link n.val).toReturn)
      (s.carried n.val).length (s.link n.val).ctlOut.tail (s.egressLeft n.val) s (s.frameTx n.val) := by
  obtain ⟨t, ht⟩ : ∃ t, t = s.frameTx n.val := ⟨_, rfl⟩
  rw [← ht]
  have htalk : s.linkTalks n.val = true := (linkTalks_iff ..).2 (by omega)
  unfold State.frameTx at ht
  rw [if_neg (by rw [htalk]; decide)] at ht
  extract_lets l opened cr ent f buf want go bulk blen beats boot msg out s1 s2 s3 s4 s5 at ht
  have ho : opened = true := beq_iff_eq.2 h6
  have hcr : cr = min 3 (s.link n.val).toReturn := if_pos ho
  have hf : f = s.entry16 (rLinkTxslot n.val) ((s.link n.val).txIdx % s.framePeriod n.val) % 64 := if_neg (by rw [hst]; decide)
  have hgo : go = s.carries n.val := by
    show (opened && _ && _ && (l.still || _) && decide (s.egress n.val f ≠ []) && _) = _
    rw [ho, hf, show l.still = false from hst, State.carries, Bool.true_and, Bool.false_or]
  have hbulk : bulk = s.carried n.val := by
    show (if go then (s.egress n.val f).take 496 else []) = _
    rw [hgo, hf, State.carried]
  have hboot : boot = none := by
    show (if n.val = 0 && l.ctlOut == [] then s.bootNext else none) = none
    split_ifs with hc
    · rw [Bool.and_eq_true, decide_eq_true_eq, beq_iff_eq] at hc
      have hz : (s.link 0).serve = none := by rw [← hc.1]; exact hserve hc.2
      rw [State.bootNext, hz]
    · rfl
  have hmsg : msg = (s.link n.val).ctlOut.head? := by
    show (l.ctlOut.head?.orElse fun _ => boot.map Prod.fst) = _
    rw [hboot]
    cases l.ctlOut.head? <;> rfl
  have hout : out = frameOut (s.link n.val).ctlOut.head? (if (s.carried n.val).length = 496 then 7 else ((s.carried n.val).length + 127) / 128)
      (min 3 (s.link n.val).toReturn) (s.carried n.val) := by
    rw [← hmsg, ← hbulk, ← hcr]
    rfl
  have hlink1 : s1.link n.val = { s.link n.val with
      ctlOut := l.ctlOut.tail, serve := if boot.isSome then boot.bind Prod.snd else l.serve, toReturn := l.toReturn - cr,
      txIdx := if opened then l.txIdx + 1 else l.txIdx, credits := if go then l.credits - 1 else l.credits,
      egress := if go then sset (fun _ => []) l.egress f (buf.drop 496) else l.egress } := link_modLink_same ..
  have h2 : ∀ a, s2.reg a = (((s.count (rLinkFramesTxCnt n.val) (bton opened)).count (rLinkBulkTxCnt n.val) bulk.length).count (rLinkCtlTxCnt n.val)
      (bton msg.isSome)).reg a := fun a => rfl
  have h4 : s4.regs = s3.regs ∧ s4.mem = s3.mem ∧ s4.sent = s3.sent ∧ s4.links = s3.links := by
    have hcase : s4 = s3.creditPost n.val f beats ∨ s4 = s3 := by
      show (if _ then _ else _) = _ ∨ (if _ then _ else _) = _
      split_ifs
      · exact .inl rfl
      · exact .inr rfl
    rcases hcase with e | e
    · rw [e]
      exact creditPost_fields ..
    · rw [e]
      exact ⟨rfl, rfl, rfl, rfl⟩
  obtain ⟨hr4, hm4, hs4, hl4⟩ := h4
  have hlink4 : s4.link n.val = s1.link n.val := link_congr (hl4.trans ((count_links ..).trans ((count_links ..).trans
    ((count_links ..).trans (count_links ..))))) _
  obtain ⟨hr5, hm5, hs5, hl5⟩ := pumped_none (s := s4) (n := n.val) (by rw [hlink4, hlink1]; exact hw) (by rw [hlink4, hlink1]; exact hg)
  have hlink : t.link n.val = s1.link n.val := by
    rw [ht]
    exact hl5.trans hlink4
  have hreg : ∀ a, t.reg a = s3.reg a := fun a => by
    rw [ht]
    exact (reg_congr hr5 a).trans (reg_congr hr4 a)
  obtain ⟨afb, afc, afn, abc, abn, acn, abf, acf, acb⟩ := linkCnt_addrs n.val
  refine ⟨?_, ?_, ?_, ?_, ?_, ?_, ?_, ?_, ?_, ?_, ?_⟩
  · have hid : (⟨n.val % 24, Nat.mod_lt _ (by decide)⟩ : LinkId) = n := Fin.ext (Nat.mod_eq_of_lt n.isLt)
    have hs3 : s3.sent = s.sent := (count_sent ..).trans ((count_sent ..).trans ((count_sent ..).trans ((count_sent ..).trans (modLink_sent ..))))
    rw [ht, ← hout]
    show s5.sent ++ [.linkFrame ⟨n.val % 24, Nat.mod_lt _ (by decide)⟩ out] = _
    rw [hs5, hs4, hs3, hid]
  · rw [hlink, hlink1]
  · rw [hlink, hlink1, ← hcr]
  · rw [hlink, hlink1, ho]
  · rw [hlink, hlink1, hgo]
  · rw [hlink, hlink1, hgo, hf, State.egressLeft]
    show _ = if s.carries n.val then _ else _
    rw [← hf]
  · rw [hreg, reg_count_other _ _ afn, h2, reg_count_other _ _ afc, reg_count_other _ _ afb, reg_count_same, ho]
  · rw [hreg, reg_count_other _ _ abn, h2, reg_count_other _ _ abc, reg_count_same, reg_count_other _ _ abf, hbulk]
  · rw [hreg, reg_count_other _ _ acn, h2, reg_count_same, reg_count_other _ _ acb, reg_count_other _ _ acf, hmsg]
  · intro a ha
    simp only [not_or] at ha
    obtain ⟨a1, a2, a3, a4⟩ := ha
    rw [hreg, reg_count_other _ _ a4, h2, reg_count_other _ _ a3, reg_count_other _ _ a2, reg_count_other _ _ a1]
  · intro a
    rw [ht]
    refine rdB_congr ?_ a
    show s5.mem = _
    rw [hm5, hm4]
    simp only [s3, s2, s1, count_mem, modLink_mem]

/-- A frame without bulk leaves the count of the frames that found no credit. -/
theorem frameTx_nocredit {s : State} {n : LinkId} (h6 : s.linkState n.val = 6) (hst : (s.link n.val).still = false) (hw : (s.link n.val).wireQ = [])
    (hg : (s.link n.val).gathSent = []) (hb : bitN (s.entry16 (rLinkTxslot n.val) ((s.link n.val).txIdx % s.framePeriod n.val)) 15 = false) :
    (s.frameTx n.val).reg (rLinkNocreditCnt n.val) = s.reg (rLinkNocreditCnt n.val) := by
  obtain ⟨t, ht⟩ : ∃ t, t = s.frameTx n.val := ⟨_, rfl⟩
  rw [← ht]
  have htalk : s.linkTalks n.val = true := (linkTalks_iff ..).2 (by omega)
  unfold State.frameTx at ht
  rw [if_neg (by rw [htalk]; decide)] at ht
  extract_lets l opened cr ent f buf want go bulk blen beats boot msg out s1 s2 s3 s4 s5 at ht
  have hwant : want = false := by
    show (_ && (l.still || bitN ent 15) && _) = false
    rw [show l.still = false from hst, show bitN ent 15 = false from hb, Bool.or_false, Bool.and_false, Bool.false_and]
  have hgo : go = false := by
    show (want && _) = false
    rw [hwant, Bool.false_and]
  have h4 : s4 = s3 := if_neg (by rw [hgo]; simp)
  have hlink4 : (s4.link n.val).wireQ = [] ∧ (s4.link n.val).gathSent = [] := by
    have hl : s4.link n.val = s1.link n.val := by
      rw [h4]
      exact link_congr ((count_links ..).trans ((count_links ..).trans ((count_links ..).trans (count_links ..)))) _
    rw [hl, show s1.link n.val = _ from link_modLink_same ..]
    exact ⟨hw, hg⟩
  obtain ⟨hr5, -⟩ := pumped_none hlink4.1 hlink4.2
  obtain ⟨-, -, afn, -, abn, acn, -⟩ := linkCnt_addrs n.val
  have hz : bton (want && !go) = 0 := by rw [hwant]; rfl
  rw [ht]
  refine (reg_congr hr5 _).trans ?_
  rw [h4]
  show (s2.count _ (bton (want && !go))).reg _ = _
  rw [hz, reg_count_zero]
  show (((s1.count _ _).count _ _).count _ _).reg _ = _
  rw [reg_count_other _ _ acn.symm, reg_count_other _ _ abn.symm, reg_count_other _ _ afn.symm]
  exact reg_congr (modLink_regs ..) _

theorem runs_linkFrameTx_message {s : State} {n : LinkId} (h6 : s.linkState n.val = 6) {m : CtlMsg} {rest : List CtlMsg}
    (hm : (s.link n.val).ctlOut = m :: rest) (hst : (s.link n.val).still = false) (hw : (s.link n.val).wireQ = []) (hg : (s.link n.val).gathSent = [])
    (hb : bitN (s.entry16 (rLinkTxslot n.val) ((s.link n.val).txIdx % s.framePeriod n.val)) 15 = false) : Runs (.linkFrameTx n) s fun t =>
      t.sent = s.sent ++ [.linkFrame n (frameBytes (ctlKind m) 0 (min 3 (s.link n.val).toReturn) (ctlBits m) [])] ∧ (t.link n.val).ctlOut = rest ∧
      (t.link n.val).toReturn = (s.link n.val).toReturn - min 3 (s.link n.val).toReturn ∧ (t.link n.val).txIdx = (s.link n.val).txIdx + 1 ∧
      (t.link n.val).egress = (s.link n.val).egress ∧
      t.reg (rLinkFramesTxCnt n.val) = s.reg (rLinkFramesTxCnt n.val) + 1 ∧ t.reg (rLinkCtlTxCnt n.val) = s.reg (rLinkCtlTxCnt n.val) + 1 ∧
      RegsBut (fun a => a = rLinkFramesTxCnt n.val ∨ a = rLinkCtlTxCnt n.val) s t ∧ SameMem s t := by
  have hno : s.carries n.val = false := by rw [State.carries, hb, Bool.and_false, Bool.false_and, Bool.false_and]
  have hnone : s.carried n.val = [] := if_neg (by rw [hno]; decide)
  have hsent := frameTx_sent h6 hst hw hg fun h => absurd (hm.symm.trans h) (by simp)
  rw [hnone, hm] at hsent
  have hzero : s.reg (rLinkBulkTxCnt n.val) + BitVec.ofNat 64 0 = s.reg (rLinkBulkTxCnt n.val) := BitVec.add_zero _
  refine ⟨s.frameTx n.val, rfl, hsent.sent, hsent.ctlOut, hsent.toReturn, hsent.txIdx, ?_, hsent.frames, hsent.ctl, fun a ha => ?_, hsent.mem⟩
  · rw [hsent.egress]
    exact if_neg (by rw [hno]; decide)
  · by_cases hbk : a = rLinkBulkTxCnt n.val
    · rw [hbk, hsent.bulk]
      exact hzero
    by_cases hnc : a = rLinkNocreditCnt n.val
    · rw [hnc, frameTx_nocredit h6 hst hw hg hb]
    · refine hsent.regs a ?_
      rintro (h | h | h | h)
      exacts [ha (.inl h), hbk h, ha (.inr h), hnc h]

theorem runs_linkFrameTx_bulk {s : State} {n : LinkId} (h6 : s.linkState n.val = 6) {f : Nat}
    (hf : f = s.entry16 (rLinkTxslot n.val) ((s.link n.val).txIdx % s.framePeriod n.val) % 64) (hm : (s.link n.val).ctlOut = [])
    (hserve : (s.link n.val).serve = none) (hw : (s.link n.val).wireQ = []) (hg : (s.link n.val).gathSent = []) (hst : (s.link n.val).still = false)
    (hb : bitN (s.entry16 (rLinkTxslot n.val) ((s.link n.val).txIdx % s.framePeriod n.val)) 15 = true)
    (hok : s.flag (rLinkStatus n.val) fLinkStatusTableOk = true) (hun : s.flag (rLinkStatus n.val) fLinkStatusBulkUnreach = false)
    (hlen : 496 ≤ (s.egress n.val f).length) (hc : 0 < (s.link n.val).credits) : Runs (.linkFrameTx n) s fun t =>
      t.sent = s.sent ++ [.linkFrame n (frameBytes 0 7 (min 3 (s.link n.val).toReturn) 0 ((s.egress n.val f).take 496))] ∧
      t.egress n.val f = (s.egress n.val f).drop 496 ∧ (t.link n.val).credits = (s.link n.val).credits - 1 ∧
      t.reg (rLinkBulkTxCnt n.val) = s.reg (rLinkBulkTxCnt n.val) + 496 ∧ SameMem s t := by
  have hne : s.egress n.val f ≠ [] := fun h => by
    rw [h] at hlen
    exact absurd hlen (by decide)
  have hyes : s.carries n.val = true := by
    rw [State.carries, ← hf, hok, hun, hb, decide_eq_true hne, decide_eq_true hc]
    rfl
  have hbulk : s.carried n.val = (s.egress n.val f).take 496 := by
    rw [State.carried, if_pos hyes, ← hf]
  have hl : (s.carried n.val).length = 496 := by rw [hbulk, List.length_take]; omega
  have hleft : s.egressLeft n.val = sset (fun _ => []) (s.link n.val).egress f ((s.egress n.val f).drop 496) := by
    rw [hf]
    exact if_pos hyes
  have hsent := frameTx_sent h6 hst hw hg fun _ => hserve
  rw [hl, hbulk, hm, hleft, hyes] at hsent
  refine ⟨s.frameTx n.val, rfl, hsent.sent, ?_, hsent.credits, hsent.bulk, hsent.mem⟩
  rw [State.egress, hsent.egress, sget_sset_same]

end Sys2Proof.Machine

/-! ## Received frames, and bulk between the hall and the link -/

namespace Sys2Proof.Machine

-- One proof at a time, as in Sys2Proof/Laws: each waiting proof would keep a thread and its stack.
set_option Elab.async false

/-! ### A received frame -/

theorem slice_whole (b : Bytes) : slice b 0 b.length = b := by
  refine List.ext_getElem (by simp) fun i h1 h2 => ?_
  simp [slice, List.getD_eq_getElem?_getD, List.getElem?_eq_getElem h2]

theorem slice_slice (b : Bytes) (o k : Nat) : slice (slice b o k) 0 k = slice b o k := by
  conv_lhs => rw [show k = (slice b o k).length by simp]
  rw [length_slice, show slice (slice b o k) 0 k = slice (slice b o k) 0 (slice b o k).length by rw [length_slice], slice_whole]

/-- A message of KIND 1 to 3: one of a semaphore (R276). -/
def isKfl : CtlMsg → Bool
  | .semAdd .. => true
  | .semWatch .. => true
  | .watchFire .. => true
  | _ => false

theorem isKfl_ctlOf {k : Nat} (h1 : 1 ≤ k) (h3 : k ≤ 3) (v : Nat) : isKfl (ctlOf k v) = true := by
  obtain rfl | rfl | rfl : k = 1 ∨ k = 2 ∨ k = 3 := by omega
  · rfl
  · rfl
  · rfl

/-- On an open link a message of a semaphore is counted and kept. -/
theorem ctlRx_kfl {s : State} {n : Nat} {m : CtlMsg} (h6 : s.linkState n = 6) (hm : isKfl m = true) :
    s.ctlRx n m = (s.count (rLinkCtlRxCnt n) 1).modLink n fun l => { l with ctlIn := l.ctlIn ++ [m] } := by
  cases m with
  | semAdd => exact if_pos h6
  | semWatch => exact if_pos h6
  | watchFire => exact if_pos h6
  | mgmt => exact absurd hm Bool.false_ne_true
  | group => exact absurd hm Bool.false_ne_true
  | other => exact absurd hm Bool.false_ne_true

/-- A frame with no message, or with one while there is room, on an open link. -/
theorem linkFrameRx_eq {s : State} {n : LinkId} (frame : Bytes) (h6 : s.linkState n.val = 6)
    (hroom : leAt frame 0 1 / 32 = 0 ∨ (s.link n.val).ctlIn.length < 64) (h4 : leAt frame 0 1 / 32 ≠ 4) :
    ∃ u v, u = (if leAt frame 0 1 / 32 = 0 then s else s.ctlRx n.val (ctlOf (leAt frame 0 1 / 32) (leAt frame 1 15))) ∧
      v = (u.modLink n.val fun l => { l with credits := l.credits + leAt frame 0 1 % 4, rxIdx := (s.link n.val).rxIdx.map (· + 1) }) ∧
      exec (.linkFrameRx n frame) s = match (s.link n.val).rxIdx with
        | none => .next v
        | some i => .next (if bitN (s.entry16 (rLinkRxslot n.val) (i % s.framePeriod n.val)) 15 && !s.flag (rLinkStatus n.val) fLinkStatusBulkUnreach then
            v.bulkRx n.val (s.entry16 (rLinkRxslot n.val) (i % s.framePeriod n.val) % 64) (leAt frame 0 1 / 4 % 8) (slice frame 16 496) else v) := by
  refine ⟨_, _, rfl, rfl, ?_⟩
  have htalk : s.linkTalks n.val = true := (linkTalks_iff ..).2 (by omega)
  have hcond : ¬ (!s.linkTalks n.val || (leAt frame 0 1 / 32 != 0 && decide (64 ≤ (s.link n.val).ctlIn.length))) = true := by
    rw [htalk]
    rcases hroom with h | h
    · simp [h]
    · simp [Nat.not_le.2 h]
  have hopen : (s.linkState n.val == lsOpen) = true := beq_iff_eq.2 h6
  have hkind : (leAt frame 0 1 / 32 == 4) = false := beq_false_of_ne h4
  show execLinkFrameRx n frame s = _
  unfold execLinkFrameRx
  extract_lets n' opened b0 m start idx s1 s2
  rw [if_neg hcond]
  have hstart : start = false := by
    show (match m with
      | .mgmt t _ => b0 / 32 == 4 && t == 4
      | _ => false) = false
    cases m with
    | mgmt t b =>
      show (b0 / 32 == 4 && t == 4) = false
      rw [show (b0 / 32 == 4) = false from hkind, Bool.false_and]
    | _ => rfl
  have hidx : idx = (s.link n.val).rxIdx := if_neg (by rw [hstart]; decide)
  have ho : opened = true := hopen
  clear_value start idx opened
  subst hidx ho
  cases hi : (s.link n.val).rxIdx with
  | none => simp only [s2, hi, if_true]; rfl
  | some i => simp only [s2, hi, if_true, Bool.true_and]; rfl

theorem runs_linkFrameRx_bulk {s : State} {n : LinkId} (frame : Bytes) {i f : Nat} (h6 : s.linkState n.val = 6) (hi : (s.link n.val).rxIdx = some i)
    (hlen : leAt frame 0 1 / 4 = 7) (hun : s.flag (rLinkStatus n.val) fLinkStatusBulkUnreach = false)
    (hf : f = s.entry16 (rLinkRxslot n.val) (i % s.framePeriod n.val) % 64)
    (hb : bitN (s.entry16 (rLinkRxslot n.val) (i % s.framePeriod n.val)) 15 = true) (hd : (s.link n.val).discard.contains f = false) :
    Runs (.linkFrameRx n frame) s fun t => (t.link n.val).ingress = (s.link n.val).ingress ++ [(f, slice frame 16 496)] ∧
      (t.link n.val).rxIdx = some (i + 1) ∧ (t.link n.val).credits = (s.link n.val).credits + leAt frame 0 1 % 4 ∧
      t.reg (rLinkBulkRxCnt n.val) = s.reg (rLinkBulkRxCnt n.val) + 496 ∧ RegsBut (· = rLinkBulkRxCnt n.val) s t ∧ SameMem s t := by
  have hkind : leAt frame 0 1 / 32 = 0 := by omega
  obtain ⟨u, v, hu, hv, hexec⟩ := linkFrameRx_eq frame h6 (.inl hkind) (by omega)
  rw [if_pos hkind] at hu
  rw [hu] at hv
  have hvl : v.link n.val = { s.link n.val with credits := (s.link n.val).credits + leAt frame 0 1 % 4, rxIdx := some (i + 1) } := by
    rw [hv, link_modLink_same, hi]
    rfl
  have hvr : v.regs = s.regs := by rw [hv, modLink_regs]
  have hvm : v.mem = s.mem := by rw [hv, modLink_mem]
  have hbulk : ∃ ph, v.bulkRx n.val f 7 (slice frame 16 496) = (v.setLink n.val { v.link n.val with
      rxPhase := ph, ingress := (v.link n.val).ingress ++ [(f, slice frame 16 496)] }).count (rLinkBulkRxCnt n.val) 496 := by
    refine ⟨sset (fun _ => 0) (v.link n.val).rxPhase f ((sget (fun _ => 0) (v.link n.val).rxPhase f + 496) % 128), ?_⟩
    have hvd : (v.link n.val).discard.contains f = false := by rw [hvl]; exact hd
    unfold State.bulkRx
    simp only [if_true, show ¬ (496 : Nat) = 0 by decide, if_false, hvd, Bool.false_eq_true, slice_slice]
  obtain ⟨ph, hbulk⟩ := hbulk
  refine ⟨v.bulkRx n.val f 7 (slice frame 16 496), ?_, ?_⟩
  · rw [hexec, hi]
    show Host.Outcome.next (if _ then _ else _) = _
    rw [if_pos (by rw [hb, hun]; rfl), ← hf, show leAt frame 0 1 / 4 % 8 = 7 by rw [hlen]]
  · obtain ⟨w, hw⟩ : ∃ w, w = v.setLink n.val { v.link n.val with
      rxPhase := ph, ingress := (v.link n.val).ingress ++ [(f, slice frame 16 496)] } := ⟨_, rfl⟩
    have hwr : w.regs = s.regs := by rw [hw, setLink_regs, hvr]
    have hwm : w.mem = s.mem := by rw [hw, setLink_mem, hvm]
    have hlink : (w.count (rLinkBulkRxCnt n.val) 496).link n.val = { v.link n.val with
        rxPhase := ph, ingress := (v.link n.val).ingress ++ [(f, slice frame 16 496)] } := by
      rw [link_congr (count_links ..), hw, link_setLink_same]
    rw [hbulk, ← hw, hlink, hvl]
    exact ⟨rfl, rfl, rfl, by rw [reg_count_same, reg_congr hwr]; rfl, fun a ha => by rw [reg_count_other _ _ ha, reg_congr hwr],
      fun a => by rw [count_rdB, rdB_congr hwm]⟩

theorem runs_linkFrameRx_message {s : State} {n : LinkId} (frame : Bytes) (h6 : s.linkState n.val = 6) (hi : (s.link n.val).rxIdx = none)
    (hroom : (s.link n.val).ctlIn.length < 64) (h1 : 1 ≤ leAt frame 0 1 / 32) (h3 : leAt frame 0 1 / 32 ≤ 3) :
    Runs (.linkFrameRx n frame) s fun t =>
      (t.link n.val).ctlIn = (s.link n.val).ctlIn ++ [ctlOf (leAt frame 0 1 / 32) (leAt frame 1 15)] ∧
      t.reg (rLinkCtlRxCnt n.val) = s.reg (rLinkCtlRxCnt n.val) + 1 ∧ RegsBut (· = rLinkCtlRxCnt n.val) s t ∧ SameMem s t := by
  obtain ⟨u, v, hu, hv, hexec⟩ := linkFrameRx_eq frame h6 (.inr hroom) (by omega)
  rw [if_neg (by omega), ctlRx_kfl h6 (isKfl_ctlOf h1 h3 _)] at hu
  have hur : u.regs = (s.count (rLinkCtlRxCnt n.val) 1).regs := by rw [hu, modLink_regs]
  have hum : u.mem = s.mem := by rw [hu, modLink_mem, count_mem]
  have hul : (u.link n.val).ctlIn = (s.link n.val).ctlIn ++ [ctlOf (leAt frame 0 1 / 32) (leAt frame 1 15)] := by
    rw [hu, link_modLink_same, link_congr (count_links ..)]
  rw [hi] at hexec
  refine ⟨v, hexec, ?_, ?_, ?_, ?_⟩
  · rw [hv, link_modLink_same]
    exact hul
  · rw [hv, reg_congr (modLink_regs ..), reg_congr hur, reg_count_same]
    rfl
  · intro a ha
    rw [hv, reg_congr (modLink_regs ..), reg_congr hur, reg_count_other _ _ ha]
  · intro a
    rw [hv, rdB_congr (modLink_mem ..), rdB_congr hum]

theorem linkFrameRx_waits {s : State} {n : LinkId} (frame : Bytes) (hk : leAt frame 0 1 / 32 ≠ 0) (hfull : 64 ≤ (s.link n.val).ctlIn.length) :
    exec (.linkFrameRx n frame) s = .next s := by
  show execLinkFrameRx n frame s = _
  unfold execLinkFrameRx
  dsimp only
  rw [if_pos]
  simp [hk, hfull]

/-! ### Beats from the hall -/

/-- The beat is off its lane and counted at its edge router. -/
def State.beatOffLane (s : State) (n : LinkId) (lane : Fin 3) : State :=
  ({ s with beats := dropFirst (fun e => e.dest == laneKey n.val lane.val) s.beats } : State).count (rEdgeBeatsOut (linkHall n.val) (linkRouter n.val)) 1

/-- The lane-map entry of the slot in which the first beat of the lane was sent. -/
def State.laneEntry (s : State) (n : LinkId) (lane : Fin 3) : Nat :=
  s.laneMapAt n.val lane.val (((s.beats.find? fun b => b.dest == laneKey n.val lane.val).map BeatS.inp).getD s.slot)

theorem linkEgressBeat_eq {s : State} {n : LinkId} (lane : Fin 3) (data : Bytes) (h6 : s.linkState n.val = 6) :
    exec (.linkEgressBeat n lane data) s =
      if !bitN (s.laneEntry n lane) 15 then .next ((s.beatOffLane n lane).count (rLinkDiscardCnt n.val) 1)
      else
        let f := s.laneEntry n lane / 256 % 64
        let r := sget (fun _ => 0) (s.link n.val).reserved f
        if 0 < r then
          .next (((s.beatOffLane n lane).modLink n.val fun l => { l with reserved := sset (fun _ => 0) l.reserved f (r - 1) }).egPush n.val f (slice data 0 128))
        else if 0 < s.egRoom n.val f then .next ((s.beatOffLane n lane).egPush n.val f (slice data 0 128))
        else .next ((s.beatOffLane n lane).faultCtx ⟨s.fget (rLinkFlow n.val f) fLinkFlowCtx % 8, Nat.mod_lt _ (by decide)⟩
          (evr 0x5005 (0x20 + n.val) 0 n.val f s.slot)) := by
  have hopen : ¬ s.linkState n.val ≠ lsOpen := not_not.2 h6
  show execLinkEgressBeat n lane data s = _
  unfold execLinkEgressBeat State.laneEntry State.beatOffLane
  cases hf : s.beats.find? fun e => e.dest == laneKey n.val lane.val with
  | none => simp only [if_neg hopen, hf, Option.map_none, Option.getD_none]
  | some b => simp only [if_neg hopen, hf, Option.map_some, Option.getD_some]

theorem rLinkDiscardCnt_ne_out (n : LinkId) : rLinkDiscardCnt n.val ≠ rEdgeBeatsOut (linkHall n.val) (linkRouter n.val) := by
  have hr := linkRouter_lt n.val
  have hn := n.isLt
  unfold rLinkDiscardCnt rEdgeBeatsOut linkHall hallBase dieSpace hallSpace
  omega

theorem beatOffLane_fields (s : State) (n : LinkId) (lane : Fin 3) :
    (s.beatOffLane n lane).reg (rEdgeBeatsOut (linkHall n.val) (linkRouter n.val)) = s.reg (rEdgeBeatsOut (linkHall n.val) (linkRouter n.val)) + 1 ∧
    RegsBut (· = rEdgeBeatsOut (linkHall n.val) (linkRouter n.val)) s (s.beatOffLane n lane) ∧ SameMem s (s.beatOffLane n lane) ∧
    (s.beatOffLane n lane).links = s.links :=
  ⟨reg_count_same .., fun _ ha => reg_count_other _ _ ha, fun _ => count_rdB .., count_links ..⟩

theorem runs_linkEgressBeat_discards {s : State} {n : LinkId} (lane : Fin 3) (data : Bytes) (h6 : s.linkState n.val = 6)
    (hb : bitN (s.laneEntry n lane) 15 = false) : Runs (.linkEgressBeat n lane data) s fun t =>
      t.reg (rLinkDiscardCnt n.val) = s.reg (rLinkDiscardCnt n.val) + 1 ∧
      t.reg (rEdgeBeatsOut (linkHall n.val) (linkRouter n.val)) = s.reg (rEdgeBeatsOut (linkHall n.val) (linkRouter n.val)) + 1 ∧
      RegsBut (fun a => a = rEdgeBeatsOut (linkHall n.val) (linkRouter n.val) ∨ a = rLinkDiscardCnt n.val) s t ∧ SameMem s t := by
  obtain ⟨h1, h2, h3, -⟩ := beatOffLane_fields s n lane
  have hne := rLinkDiscardCnt_ne_out n
  refine ⟨(s.beatOffLane n lane).count (rLinkDiscardCnt n.val) 1, ?_, ?_, ?_, fun a ha => ?_, fun a => ?_⟩
  · rw [linkEgressBeat_eq lane data h6, if_pos (by rw [hb]; rfl)]
  · rw [reg_count_same, h2 _ hne]
    rfl
  · rw [reg_count_other _ _ hne.symm, h1]
  · rw [reg_count_other _ _ fun e => ha (.inr e)]
    exact h2 a fun e => ha (.inl e)
  · rw [count_rdB, h3]

theorem runs_linkEgressBeat_buffers {s : State} {n : LinkId} (lane : Fin 3) (data : Bytes) (h6 : s.linkState n.val = 6) {f : Nat}
    (hf : f = s.laneEntry n lane / 256 % 64) (hb : bitN (s.laneEntry n lane) 15 = true) (hroom : 0 < s.egRoom n.val f)
    (hr : sget (fun _ => 0) (s.link n.val).reserved f = 0) : Runs (.linkEgressBeat n lane data) s fun t =>
      t.egress n.val f = s.egress n.val f ++ slice data 0 128 ∧
      t.reg (rEdgeBeatsOut (linkHall n.val) (linkRouter n.val)) = s.reg (rEdgeBeatsOut (linkHall n.val) (linkRouter n.val)) + 1 ∧
      RegsBut (· = rEdgeBeatsOut (linkHall n.val) (linkRouter n.val)) s t ∧ SameMem s t := by
  obtain ⟨h1, h2, h3, h4⟩ := beatOffLane_fields s n lane
  have hregs : ((s.beatOffLane n lane).egPush n.val f (slice data 0 128)).regs = (s.beatOffLane n lane).regs := modLink_regs ..
  refine ⟨(s.beatOffLane n lane).egPush n.val f (slice data 0 128), ?_, ?_, ?_, fun a ha => ?_, fun a => ?_⟩
  · rw [linkEgressBeat_eq lane data h6, if_neg (by rw [hb]; decide)]
    dsimp only
    rw [← hf, if_neg (by rw [hr]; decide), if_pos hroom]
  · rw [State.egress, State.egPush, link_modLink_same, sget_sset_same, link_congr h4, State.egress]
  · rw [reg_congr hregs, h1]
  · rw [reg_congr hregs, h2 a ha]
  · exact (rdB_congr (modLink_mem ..) a).trans (h3 a)

theorem faultCtx_cause (s : State) (k : CtxId) {r : EvRec} (h : r.code ≠ 0) : ((s.faultCtx k r).ctx k.val).cause ≠ 0 := stopCtx_cause _ _ h

theorem runs_linkEgressBeat_overflow {s : State} {n : LinkId} (lane : Fin 3) (data : Bytes) (h6 : s.linkState n.val = 6) {f : Nat}
    (hf : f = s.laneEntry n lane / 256 % 64) (hb : bitN (s.laneEntry n lane) 15 = true) (hroom : s.egRoom n.val f = 0)
    (hr : sget (fun _ => 0) (s.link n.val).reserved f = 0) :
    Runs (.linkEgressBeat n lane data) s fun t => (t.ctx (s.fget (rLinkFlow n.val f) fLinkFlowCtx % 8)).cause ≠ 0 := by
  refine ⟨(s.beatOffLane n lane).faultCtx ⟨s.fget (rLinkFlow n.val f) fLinkFlowCtx % 8, Nat.mod_lt _ (by decide)⟩
    (evr 0x5005 (0x20 + n.val) 0 n.val f s.slot), ?_, faultCtx_cause _ _ (show 0x5005 ≠ 0 by decide)⟩
  rw [linkEgressBeat_eq lane data h6, if_neg (by rw [hb]; decide)]
  dsimp only
  rw [← hf, if_neg (by rw [hr]; decide), if_neg (by omega)]

/-! ### Beats into the hall -/

/-- The bytes of a flow in the ingress buffer. -/
def flowBytes (f : Nat) (l : List (Nat × Bytes)) : Bytes := (l.filter fun e => e.1 == f).flatMap Prod.snd

theorem flowBytes_cons_same (f : Nat) (b : Bytes) (l : List (Nat × Bytes)) : flowBytes f ((f, b) :: l) = b ++ flowBytes f l := by
  rw [flowBytes, List.filter_cons_of_pos (by simp), List.flatMap_cons, flowBytes]

theorem flowBytes_cons_other {f g : Nat} (h : g ≠ f) (b : Bytes) (l : List (Nat × Bytes)) : flowBytes f ((g, b) :: l) = flowBytes f l := by
  rw [flowBytes, List.filter_cons_of_neg (by simpa using h), flowBytes]

/-- What eating leaves of the flow: its bytes behind those eaten. -/
theorem flowBytes_eatFlow (f : Nat) (l : List (Nat × Bytes)) : ∀ need, flowBytes f (eatFlow f need l).1 = (flowBytes f l).drop need := by
  induction l with
  | nil => exact fun need => by rw [eatFlow]; exact (List.drop_nil).symm
  | cons e es ih =>
    intro need
    obtain ⟨g, b⟩ := e
    rw [eatFlow]
    dsimp only
    by_cases hg : g = f
    · rw [hg, flowBytes_cons_same]
      split_ifs with h0 hle
      · have hz : need = 0 := h0.resolve_left (not_not.2 rfl)
        rw [flowBytes_cons_same, ih, hz, List.drop_zero, List.drop_zero]
      · rw [ih, List.drop_append, List.drop_eq_nil_of_le hle, List.nil_append]
      · rw [flowBytes_cons_same, List.drop_append_of_le_length (Nat.le_of_lt (Nat.lt_of_not_le hle))]
    · rw [if_pos (.inl hg), flowBytes_cons_other hg, flowBytes_cons_other hg, ih]

theorem setHeld_none {s : State} {n f : Nat} (h : ∀ e ∈ (s.link n).heldAt, e.1 ≠ f) : s.setHeld n f false = s := by
  have hany : ((s.link n).heldAt.any fun e => e.1 == f) = false := by
    rw [List.any_eq_false]
    exact fun e he => by simpa using h e he
  unfold State.setHeld
  dsimp only
  rw [hany, if_pos rfl]

theorem runs_linkIngressRelease {s : State} {n : LinkId} (lane : Fin 3) {f : Nat} (hf : f = s.laneMap n.val lane.val % 64)
    (hb : bitN (s.laneMap n.val lane.val) 7 = true) (hlen : 128 ≤ (flowBytes f (s.link n.val).ingress).length)
    (hun : s.flag (rLinkStatus n.val) fLinkStatusBulkUnreach = false) (hfwd : s.fwdLinks n.val f = [])
    (hheld : ∀ e ∈ (s.link n.val).heldAt, e.1 ≠ f) : Runs (.linkIngressRelease n lane) s fun t =>
      t.beats = s.beats ++ [⟨linkEdge n.val, laneInput n.val lane.val, s.cc + 1, 1152, (flowBytes f (s.link n.val).ingress).take 128⟩] ∧
      flowBytes f (t.link n.val).ingress = (flowBytes f (s.link n.val).ingress).drop 128 ∧
      RegsBut (· = rEdgeBeatsIn (linkHall n.val) (linkRouter n.val)) s t ∧ SameMem s t := by
  have hlack : s.lackMask n.val f = [] := by rw [State.lackMask, hfwd, List.filter_nil]
  have hpass : s.recPass n.val f ((flowBytes f (s.link n.val).ingress).take 128) = s := by
    rw [State.recPass, hfwd, List.any_nil]
    exact if_neg Bool.false_ne_true
  obtain ⟨u, hu⟩ : ∃ u, u = s.modLink n.val fun l => { l with
    ingress := (eatFlow f 128 (s.link n.val).ingress).1, toReturn := l.toReturn + (eatFlow f 128 (s.link n.val).ingress).2 } := ⟨_, rfl⟩
  have hul : (u.link n.val).ingress = (eatFlow f 128 (s.link n.val).ingress).1 := by rw [hu, link_modLink_same]
  have hur : u.regs = s.regs := by rw [hu, modLink_regs]
  have hum : u.mem = s.mem := by rw [hu, modLink_mem]
  have hub : u.beats = s.beats := by rw [hu, modLink_beats]
  obtain ⟨v, hv⟩ : ∃ v : State, v = { u with beats := u.beats ++
    [⟨linkEdge n.val, laneInput n.val lane.val, s.cc + 1, 1152, (flowBytes f (s.link n.val).ingress).take 128⟩] } := ⟨_, rfl⟩
  have hvl : v.link n.val = u.link n.val := by rw [hv]; rfl
  have hvr : v.regs = s.regs := by rw [hv]; exact hur
  have hvm : v.mem = s.mem := by rw [hv]; exact hum
  refine ⟨v.count (rEdgeBeatsIn (linkHall n.val) (linkRouter n.val)) 1, ?_, ?_, ?_, fun a ha => ?_, fun a => ?_⟩
  · show execLinkIngressRelease n lane s = _
    unfold execLinkIngressRelease
    dsimp only
    rw [← hf, if_neg, if_neg (not_not.2 hlack), hfwd, List.foldl_nil, setHeld_none hheld, ← flowBytes, hpass, ← hu, ← hv]
    rintro (h | h | h)
    · rw [hb] at h
      exact absurd h (by decide)
    · exact absurd hlen (Nat.not_le.2 h)
    · rw [hun] at h
      exact Bool.false_ne_true h
  · rw [count_beats, hv, ← hub]
  · rw [link_congr (count_links ..), hvl, hul, flowBytes_eatFlow]
  · rw [reg_count_other _ _ ha, reg_congr hvr]
  · rw [count_rdB, rdB_congr hvm]

/-! ### A stall -/

theorem wrHbm_links (s : State) (pa : Nat) (b : Bytes) : (s.wrHbm pa b).links = s.links := by
  unfold State.wrHbm
  rw [wrBytes_eq]

theorem offFaults_links : OffFaults State.links :=
  ⟨fun _ _ _ => rfl, fun _ _ _ => rfl, fun _ _ _ => rfl, wrHbm_links, fun _ _ => rfl, fun _ _ => rfl, fun _ _ _ _ _ _ => rfl⟩

theorem faultCtx_links (s : State) (k : CtxId) (r : EvRec) : (s.faultCtx k r).links = s.links :=
  (offFaults_links.stopCtx _ _ _).trans (offFaults_links.emitFault _ _ _)

theorem runs_mcastStall {s : State} {n : LinkId} (flow : BitVec 6) (h : ∃ e ∈ (s.link n.val).heldAt, e.1 = flow.toNat) :
    Runs (.mcastStall n flow) s fun t => (t.link n.val).discard.contains flow.toNat = true ∧ (∀ e ∈ (t.link n.val).ingress, e.1 ≠ flow.toNat) ∧
      (t.ctx (s.fget (rLinkFlow n.val flow.toNat) fLinkFlowCtx % 8)).cause ≠ 0 := by
  have hany : ((s.link n.val).heldAt.any fun e => e.1 == flow.toNat) = true := by
    obtain ⟨e, he, hef⟩ := h
    exact List.any_eq_true.2 ⟨e, he, beq_iff_eq.2 hef⟩
  have hexec : ∃ (u : State) (g : LinkS → LinkS) (r : EvRec), r.code ≠ 0 ∧ (∀ l, (g l).discard.contains flow.toNat = true ∧ ∀ e ∈ (g l).ingress, e.1 ≠ flow.toNat) ∧
      exec (.mcastStall n flow) s = .next ((u.modLink n.val g).faultCtx
        ⟨s.fget (rLinkFlow n.val flow.toNat) fLinkFlowCtx % 8, Nat.mod_lt _ (by decide)⟩ r) := by
    refine ⟨s.setHeld n.val flow.toNat false, fun l => { l with
      toReturn := l.toReturn + (l.ingress.filter fun e => e.1 == flow.toNat).length
      ingress := l.ingress.filter fun e => e.1 != flow.toNat
      recAt := l.recAt.filter fun e => e.1 != flow.toNat
      discard := if l.discard.contains flow.toNat then l.discard else l.discard ++ [flow.toNat] },
      evr 0x6002 (0x20 + n.val) 0 n.val flow.toNat ((s.lackMask n.val flow.toNat).foldl (fun m k => m + 2 ^ k) 0), show 0x6002 ≠ 0 by decide,
      fun l => ⟨?_, fun e he => ?_⟩, ?_⟩
    · show (if l.discard.contains flow.toNat = true then l.discard else l.discard ++ [flow.toNat]).contains flow.toNat = true
      split_ifs with hc
      · exact hc
      · simp
    · simpa using (List.mem_filter.1 he).2
    · show execMcastStall n flow s = _
      unfold execMcastStall
      dsimp only
      rw [if_neg (by rw [hany]; decide)]
  obtain ⟨u, g, r, hr, hg, he⟩ := hexec
  refine ⟨_, he, ?_, ?_, faultCtx_cause _ _ hr⟩
  · rw [link_congr (faultCtx_links ..), link_modLink_same]
    exact (hg _).1
  · rw [link_congr (faultCtx_links ..), link_modLink_same]
    exact (hg _).2

/-- Settles O46: a frame sent is read off the parts that it names, with nothing of the station's to move; a received one is counted, kept or
buffered, and the ingress buffer without the bytes that a beat takes holds the rest of the flow. -/
theorem linkFrames : Obligations.LinkFrames := by
  unfold Obligations.LinkFrames
  intro s n h6 l tx cr
  refine ⟨fun m rest hm hst hw hg hb => runs_linkFrameTx_message h6 hm hst hw hg hb,
    fun hm hserve hw hg hst hb hok hun hlen hc => runs_linkFrameTx_bulk h6 rfl hm hserve hw hg hst hb hok hun hlen hc,
    fun frame i hi hlen hun hb hd => runs_linkFrameRx_bulk frame h6 hi hlen hun rfl hb hd,
    fun frame hi hroom h1 h3 => runs_linkFrameRx_message frame h6 hi hroom h1 h3,
    fun frame hk hfull => linkFrameRx_waits frame hk hfull, fun lane data => ⟨?_, ?_, ?_⟩,
    fun lane hb hlen hun hfwd hheld => runs_linkIngressRelease lane rfl hb hlen hun hfwd hheld,
    fun flow h => runs_mcastStall flow h⟩
  · exact fun hb => runs_linkEgressBeat_discards lane data h6 hb
  · exact fun hb hroom hr => runs_linkEgressBeat_buffers lane data h6 rfl hb hroom hr
  · exact fun hb hroom hr => runs_linkEgressBeat_overflow lane data h6 rfl hb hroom hr

end Sys2Proof.Machine

/-! ## Semaphore messages over links -/

namespace Sys2Proof.Machine

-- One proof at a time, as in Sys2Proof/Laws: each waiting proof would keep a thread and its stack.
set_option Elab.async false

/-! ### Requests of another device at the semaphore unit -/

/-- What the unit makes of a request that it counts as a remote one. -/
theorem semCount_remote (s : State) : (s.semCount true).reg rSemReqCnt = s.reg rSemReqCnt + 1 ∧
    (s.semCount true).reg rSemRemoteCnt = s.reg rSemRemoteCnt + 1 ∧
    RegsBut (fun a => a = rSemReqCnt ∨ a = rSemRemoteCnt) s (s.semCount true) ∧ (s.semCount true).mem = s.mem ∧ (s.semCount true).sem = s.sem := by
  have hne : rSemReqCnt ≠ rSemRemoteCnt := by decide
  refine ⟨?_, ?_, fun a ha => ?_, ?_, ?_⟩
  · rw [State.semCount, reg_count_other _ _ hne, reg_count_same]
    rfl
  · rw [State.semCount, reg_count_same, reg_count_other _ _ hne.symm]
    rfl
  · rw [State.semCount, reg_count_other _ _ fun e => ha (.inr e), reg_count_other _ _ fun e => ha (.inl e)]
  · rw [State.semCount, count_mem, count_mem]
  · rw [State.semCount, count_sem, count_sem]

theorem rSem_ne_rSemRemoteCnt {p : Nat} (hp : p < 16384) : rSem p ≠ rSemRemoteCnt := by unfold rSem rSemRemoteCnt; omega

theorem semAddReq_remote {s : State} {d : Nat} {k : CtxId} {vsem p : Nat} (addend : Int) (hmap : s.semMap k.val vsem .add true = .ok p)
    (halloc : s.flag (rSem p) fSemAlloc = true) (horphan : s.flag (rSem p) fSemOrphan = false) (hnone : s.sem.entries = []) :
    (s.semAddReq (.remote d) k vsem addend).fget (rSem p) fSemValue =
      (min (max ((s.fget (rSem p) fSemValue : Int) + addend) 0) (2 ^ 32 - 1)).toNat ∧
    (s.semAddReq (.remote d) k vsem addend).reg rSemReqCnt = s.reg rSemReqCnt + 1 ∧
    (s.semAddReq (.remote d) k vsem addend).reg rSemRemoteCnt = s.reg rSemRemoteCnt + 1 ∧
    RegsBut (fun a => a = rSem p ∨ a = rSemReqCnt ∨ a = rSemRemoteCnt) s (s.semAddReq (.remote d) k vsem addend) ∧
    SameMem s (s.semAddReq (.remote d) k vsem addend) := by
  have hp := semMap_lt hmap
  obtain ⟨hreq, hrem, hbut, hmem, hsem⟩ := semCount_remote s
  have hserve : s.semAddReq (.remote d) k vsem addend = (s.semCount true).semApply p addend (.remote d) k := by
    unfold State.semAddReq
    dsimp only
    rw [hmap]
    dsimp only
    rw [semOrphaned_eq_false k.val true halloc horphan, if_neg Bool.false_ne_true]
  have hne : ¬ (rSem p = rSemReqCnt ∨ rSem p = rSemRemoteCnt) := not_or.2 ⟨rSem_ne_rSemReqCnt hp, rSem_ne_rSemRemoteCnt hp⟩
  have hval : (s.semCount true).fget (rSem p) fSemValue = s.fget (rSem p) fSemValue := by rw [State.fget, hbut _ hne, State.fget]
  obtain ⟨hv, hregs, hm⟩ := semApply_served (s := s.semCount true) (p := p) addend (.remote d) k (by rw [hsem]; exact hnone)
  rw [hserve]
  refine ⟨?_, ?_, ?_, fun a ha => ?_, fun a => ?_⟩
  · rw [hv, hval, sat32_eq]
  · rw [hregs _ (rSem_ne_rSemReqCnt hp).symm, hreq]
  · rw [hregs _ (rSem_ne_rSemRemoteCnt hp).symm, hrem]
  · rw [hregs a fun e => ha (.inl e)]
    exact hbut a fun c => ha (.inr c)
  · rw [hm a, rdB_congr hmem]

theorem semWatchReq_remote {s : State} {k : CtxId} {equal : Bool} {vsem : BitVec 14} {value : BitVec 32} {src : BitVec 24} {rl : BitVec 5} {rt : BitVec 6}
    {p : Nat} (hmap : s.semMap k.val vsem.toNat .watch true = .ok p) (halloc : s.flag (rSem p) fSemAlloc = true)
    (horphan : s.flag (rSem p) fSemOrphan = false) (hno : semHolds equal (s.fget (rSem p) fSemValue) value.toNat = false) (hroom : s.remoteWatches < 7168) :
    s.semWatchReq k equal vsem value (.remote src rl rt) = (s.semCount true).semRegister (.watch ⟨p, k, equal, value, .remote src rl rt⟩) := by
  simp only [State.semWatchReq, hmap, semOrphaned_eq_false k.val true halloc horphan, Bool.false_eq_true, if_false, hno, Bool.true_and,
    decide_eq_false (Nat.not_le.2 hroom)]

/-! ### Routes -/

theorem route_congr {s t : State} (h : t.regs = s.regs) (d : Nat) : t.route d = s.route d := by
  simp only [State.route, reg_congr h, fget_congr h]

/-- A message for the control queue of an open link, in the class of semaphores. -/
theorem ctlSend_kfl {s : State} {n : Nat} {m : CtlMsg} (h6 : s.linkState n = 6) (hm : isKfl m = true) :
    s.ctlSend n m = s.modLink n fun l => { l with ctlOut := l.ctlOut ++ [m] } := by
  cases m with
  | semAdd => exact if_pos h6
  | semWatch => exact if_pos h6
  | watchFire => exact if_pos h6
  | mgmt => exact absurd hm Bool.false_ne_true
  | group => exact absurd hm Bool.false_ne_true
  | other => exact absurd hm Bool.false_ne_true

theorem ctlRoute_kfl {s : State} {d m : Nat} {x : CtlMsg} (unit : Nat) (hr : s.route d = some m) (h6 : s.linkState m = 6) (hm : isKfl x = true) :
    s.ctlRoute unit d x = s.modLink m fun l => { l with ctlOut := l.ctlOut ++ [x] } := by
  rw [State.ctlRoute, hr]
  exact ctlSend_kfl h6 hm

theorem ctlStuck_of_full {s : State} {d m : Nat} (hr : s.route d = some m) (h6 : s.linkState m = 6) (hfull : 64 ≤ (s.link m).ctlOut.length) :
    s.ctlStuck d = true := by
  rw [State.ctlStuck, hr, Option.any_some, State.ctlFull, h6, decide_eq_true hfull]
  rfl

theorem ctlStuck_of_room {s : State} {d m : Nat} (hr : s.route d = some m) (hroom : (s.link m).ctlOut.length < 64) : s.ctlStuck d = false := by
  rw [State.ctlStuck, hr, Option.any_some, State.ctlFull, decide_eq_false (Nat.not_le.2 hroom), Bool.and_false]

theorem devId_lt (s : State) : s.devId < 2 ^ 24 := Nat.mod_lt _ (by decide)

theorem toNat_devId (s : State) : (BitVec.ofNat 24 s.devId).toNat = s.devId := by
  rw [BitVec.toNat_ofNat]
  exact Nat.mod_eq_of_lt (devId_lt s)

theorem toNat_ne_devId {s : State} {d : BitVec 24} (h : d ≠ BitVec.ofNat 24 s.devId) : d.toNat ≠ s.devId := fun e =>
  h (BitVec.eq_of_toNat_eq (e.trans (toNat_devId s).symm))

theorem remoteCtx_of_valid {s : State} {g : Nat} (h : s.gValid g = true) : s.remoteCtx g = some (s.gCtx g) := if_pos h

/-! ### KFL_SEM_ADD -/

section
variable {s : State} {n : LinkId} (src : BitVec 24) (group : BitVec 10) (vsem : BitVec 14)

theorem kflSemAdd_closed (dst : BitVec 24) (addend : BitVec 32) (h : s.linkState n.val ≠ 6) :
    exec (.kflSemAdd n dst src group vsem addend) s = .next (s.ctlTake n.val (.semAdd dst src group vsem addend)) := by
  show execKflSemAdd n dst src group vsem addend s = _
  unfold execKflSemAdd
  dsimp only
  rw [if_pos (show s.linkState n.val ≠ lsOpen from h)]

theorem kflSemAdd_routed (dst : BitVec 24) (addend : BitVec 32) (h6 : s.linkState n.val = 6) (hd : dst ≠ BitVec.ofNat 24 s.devId) :
    exec (.kflSemAdd n dst src group vsem addend) s = .next (if s.ctlStuck dst.toNat then s else
      (s.ctlTake n.val (.semAdd dst src group vsem addend)).ctlRoute (0x20 + n.val) dst.toNat (.semAdd dst src group vsem addend)) := by
  show execKflSemAdd n dst src group vsem addend s = _
  unfold execKflSemAdd
  dsimp only
  rw [if_neg (not_not.2 (show s.linkState n.val = lsOpen from h6)), if_pos (toNat_ne_devId hd)]

theorem kflSemAdd_served (addend : BitVec 32) (h6 : s.linkState n.val = 6) (hv : s.gValid group.toNat = true) :
    exec (.kflSemAdd n (BitVec.ofNat 24 s.devId) src group vsem addend) s = .next (if s.clearing (s.gCtx group.toNat).val then
      s.ctlTake n.val (.semAdd (BitVec.ofNat 24 s.devId) src group vsem addend)
    else (s.ctlTake n.val (.semAdd (BitVec.ofNat 24 s.devId) src group vsem addend)).semAddReq (.remote src.toNat) (s.gCtx group.toNat) vsem.toNat
      addend.toInt) := by
  show execKflSemAdd n (BitVec.ofNat 24 s.devId) src group vsem addend s = _
  unfold execKflSemAdd
  dsimp only
  rw [if_neg (not_not.2 (show s.linkState n.val = lsOpen from h6)), if_neg (not_not.2 (toNat_devId s)), remoteCtx_of_valid hv]

theorem quiet_ctlTake (s : State) (n : Nat) (c : CtlMsg) : Quiet s (s.ctlTake n c) ∧ (s.ctlTake n c).sem = s.sem := by
  obtain ⟨hr, hm, -, -, hf, hs, -⟩ := ctlTake_fields s n n c
  exact ⟨⟨fun a => reg_congr hr a, fun a => rdB_congr hm a, hf⟩, hs⟩

theorem runs_kflSemAdd_served {p : Nat} (addend : BitVec 32) (h6 : s.linkState n.val = 6) (hv : s.gValid group.toNat = true)
    (hc : s.clearing (s.gCtx group.toNat).val = false) (hmap : s.semMap (s.gCtx group.toNat).val vsem.toNat .add true = .ok p)
    (halloc : s.flag (rSem p) fSemAlloc = true) (horphan : s.flag (rSem p) fSemOrphan = false) (hnone : s.sem.entries = []) :
    Runs (.kflSemAdd n (BitVec.ofNat 24 s.devId) src group vsem addend) s fun t =>
      t.fget (rSem p) fSemValue = (min (max ((s.fget (rSem p) fSemValue : Int) + addend.toInt) 0) (2 ^ 32 - 1)).toNat ∧
      t.reg rSemReqCnt = s.reg rSemReqCnt + 1 ∧ t.reg rSemRemoteCnt = s.reg rSemRemoteCnt + 1 ∧
      RegsBut (fun a => a = rSem p ∨ a = rSemReqCnt ∨ a = rSemRemoteCnt) s t ∧ SameMem s t := by
  obtain ⟨u, hu⟩ : ∃ u, u = s.ctlTake n.val (.semAdd (BitVec.ofNat 24 s.devId) src group vsem addend) := ⟨_, rfl⟩
  obtain ⟨hr, hm, -, -, -, hs, -⟩ := ctlTake_fields s n.val n.val (.semAdd (BitVec.ofNat 24 s.devId) src group vsem addend)
  rw [← hu] at hr hm hs
  obtain ⟨h1, h2, h3, h4, h5⟩ := semAddReq_remote (s := u) (d := src.toNat) (k := s.gCtx group.toNat) addend.toInt
    ((semMap_congr hr ..).trans hmap) ((flag_congr (reg_congr hr _) _).trans halloc) ((flag_congr (reg_congr hr _) _).trans horphan) (by rw [hs]; exact hnone)
  refine ⟨u.semAddReq (.remote src.toNat) (s.gCtx group.toNat) vsem.toNat addend.toInt, ?_, ?_, ?_, ?_, fun a ha => ?_, fun a => ?_⟩
  · rw [kflSemAdd_served src group vsem addend h6 hv, if_neg (by rw [hc]; decide), hu]
  · rw [h1, fget_congr hr]
  · rw [h2, reg_congr hr]
  · rw [h3, reg_congr hr]
  · rw [h4 a ha, reg_congr hr]
  · rw [h5 a, rdB_congr hm]

theorem runs_kflSemAdd_cleared (addend : BitVec 32) (h6 : s.linkState n.val = 6) (hv : s.gValid group.toNat = true)
    (hc : s.clearing (s.gCtx group.toNat).val = true) :
    Runs (.kflSemAdd n (BitVec.ofNat 24 s.devId) src group vsem addend) s fun t => Quiet s t ∧ t.sem = s.sem := by
  refine ⟨s.ctlTake n.val (.semAdd (BitVec.ofNat 24 s.devId) src group vsem addend), ?_, quiet_ctlTake ..⟩
  rw [kflSemAdd_served src group vsem addend h6 hv, if_pos hc]

theorem runs_kflSemAdd_routed {m : Nat} (dst : BitVec 24) (addend : BitVec 32) (h6 : s.linkState n.val = 6) (hd : dst ≠ BitVec.ofNat 24 s.devId)
    (hr : s.route dst.toNat = some m) (hm : s.linkState m = 6) (hroom : (s.link m).ctlOut.length < 64) :
    Runs (.kflSemAdd n dst src group vsem addend) s fun t =>
      (t.link m).ctlOut = (s.link m).ctlOut ++ [.semAdd dst src group vsem addend] ∧ SameRegs s t ∧ SameMem s t := by
  obtain ⟨u, hu⟩ : ∃ u, u = s.ctlTake n.val (.semAdd dst src group vsem addend) := ⟨_, rfl⟩
  obtain ⟨hreg, hmem, -, -, -, -, q, hq⟩ := ctlTake_fields s n.val m (.semAdd dst src group vsem addend)
  rw [← hu] at hreg hmem hq
  refine ⟨u.modLink m fun l => { l with ctlOut := l.ctlOut ++ [.semAdd dst src group vsem addend] }, ?_, ?_, fun a => ?_, fun a => ?_⟩
  · rw [kflSemAdd_routed src group vsem dst addend h6 hd, if_neg (by rw [ctlStuck_of_room hr hroom]; decide), ← hu,
      ctlRoute_kfl _ ((route_congr hreg _).trans hr) ((linkState_congr (reg_congr hreg _)).trans hm) rfl]
  · rw [link_modLink_same, hq]
  · exact reg_congr ((modLink_regs ..).trans hreg) a
  · exact rdB_congr ((modLink_mem ..).trans hmem) a

/-! ### KFL_SEM_WATCH and KFL_WATCH_FIRE -/

theorem runs_kflSemWatch {p : Nat} (rlink : BitVec 5) (rtag : BitVec 6) (cond : BitVec 2) (value : BitVec 32) (h6 : s.linkState n.val = 6)
    (hv : s.gValid group.toNat = true) (hc : s.clearing (s.gCtx group.toNat).val = false)
    (hmap : s.semMap (s.gCtx group.toNat).val vsem.toNat .watch true = .ok p) (halloc : s.flag (rSem p) fSemAlloc = true)
    (horphan : s.flag (rSem p) fSemOrphan = false)
    (hno : if cond = 1 then s.fget (rSem p) fSemValue ≠ value.toNat else s.fget (rSem p) fSemValue < value.toNat) (hroom : s.remoteWatches < 7168) :
    Runs (.kflSemWatch n (BitVec.ofNat 24 s.devId) src group vsem rlink rtag cond value) s fun t =>
      t.sem.entries = s.sem.entries ++ [.watch ⟨p, s.gCtx group.toNat, cond == 1, value, .remote src rlink rtag⟩] ∧
      RegsBut (fun a => a = rSemReqCnt ∨ a = rSemRemoteCnt) s t ∧ SameMem s t := by
  obtain ⟨u, hu⟩ : ∃ u, u = s.ctlTake n.val (.semWatch (BitVec.ofNat 24 s.devId) src group vsem rlink rtag cond value) := ⟨_, rfl⟩
  obtain ⟨hr, hm, -, -, -, hs, -⟩ := ctlTake_fields s n.val n.val (.semWatch (BitVec.ofNat 24 s.devId) src group vsem rlink rtag cond value)
  rw [← hu] at hr hm hs
  have hholds : semHolds (cond == 1) (u.fget (rSem p) fSemValue) value.toNat = false := by
    rw [fget_congr hr, semHolds]
    by_cases h1 : cond = 1
    · rw [if_pos h1] at hno
      rw [beq_iff_eq.2 h1, if_pos rfl]
      exact beq_false_of_ne hno
    · rw [if_neg h1] at hno
      rw [beq_false_of_ne h1, if_neg Bool.false_ne_true]
      exact decide_eq_false (Nat.not_le.2 hno)
  obtain ⟨-, -, hbut, hcm, hcs⟩ := semCount_remote u
  refine ⟨(u.semCount true).semRegister (.watch ⟨p, s.gCtx group.toNat, cond == 1, value, .remote src rlink rtag⟩), ?_, ?_, fun a ha => ?_, fun a => ?_⟩
  · show execKflSemWatch n (BitVec.ofNat 24 s.devId) src group vsem rlink rtag cond value s = _
    unfold execKflSemWatch
    dsimp only
    rw [if_neg (not_not.2 (show s.linkState n.val = lsOpen from h6)), if_neg (not_not.2 (toNat_devId s)), remoteCtx_of_valid hv]
    refine congrArg Host.Outcome.next ((if_neg (by rw [hc]; decide)).trans ?_)
    rw [← hu, semWatchReq_remote ((semMap_congr hr ..).trans hmap) ((flag_congr (reg_congr hr _) _).trans halloc)
      ((flag_congr (reg_congr hr _) _).trans horphan) hholds (by rw [State.remoteWatches, hs]; exact hroom)]
  · show (u.semCount true).sem.entries ++ _ = _
    rw [hcs, hs]
  · exact (hbut a ha).trans (reg_congr hr a)
  · exact (rdB_congr hcm a).trans (rdB_congr hm a)

/-- The answer of a watch for this device, taken at link `n` for the router of link `r`. -/
theorem kflWatchFire_eq (r : LinkId) (rtag : BitVec 6) (orphan : Bool) (h6 : s.linkState n.val = 6) :
    exec (.kflWatchFire n (BitVec.ofNat 24 s.devId) src (BitVec.ofNat 5 r.val) rtag orphan) s =
      match (s.link r.val).tags.find? fun t => t.tag == rtag.toNat && !t.quarantine with
      | some t => .next (((s.ctlTake n.val (.watchFire (BitVec.ofNat 24 s.devId) src (BitVec.ofNat 5 r.val) rtag orphan)).modLink r.val fun l =>
          { l with tags := l.tags.map fun u => if u.tag = t.tag then { u with quarantine := true } else u }).bellToCore
            5 t.ctx.val t.core (bton orphan * 64 + t.sc.toNat) [])
      | none => .next ((s.ctlTake n.val (.watchFire (BitVec.ofNat 24 s.devId) src (BitVec.ofNat 5 r.val) rtag orphan)).count (rLinkStaleCnt r.val) 1) := by
  have hr : (BitVec.ofNat 5 r.val).toNat = r.val := by
    have := r.isLt
    rw [BitVec.toNat_ofNat]
    omega
  show execKflWatchFire n _ src _ rtag orphan s = _
  unfold execKflWatchFire
  dsimp only
  rw [if_neg (not_not.2 (show s.linkState n.val = lsOpen from h6)), if_neg (not_not.2 (toNat_devId s)), hr, if_pos r.isLt] <;> rfl

theorem runs_kflWatchFire_stale (r : LinkId) (rtag : BitVec 6) (orphan : Bool) (h6 : s.linkState n.val = 6)
    (hno : ∀ g ∈ (s.link r.val).tags, g.tag ≠ rtag.toNat) :
    Runs (.kflWatchFire n (BitVec.ofNat 24 s.devId) src (BitVec.ofNat 5 r.val) rtag orphan) s fun t =>
      t.reg (rLinkStaleCnt r.val) = s.reg (rLinkStaleCnt r.val) + 1 ∧ t.bell = s.bell ∧ RegsBut (· = rLinkStaleCnt r.val) s t ∧ SameMem s t := by
  have hfind : ((s.link r.val).tags.find? fun t => t.tag == rtag.toNat && !t.quarantine) = none :=
    List.find?_eq_none.2 fun g hg => by simp [hno g hg]
  obtain ⟨u, hu⟩ : ∃ u, u = s.ctlTake n.val (.watchFire (BitVec.ofNat 24 s.devId) src (BitVec.ofNat 5 r.val) rtag orphan) := ⟨_, rfl⟩
  obtain ⟨hreg, hmem, -, hbell, -⟩ := ctlTake_fields s n.val n.val (.watchFire (BitVec.ofNat 24 s.devId) src (BitVec.ofNat 5 r.val) rtag orphan)
  rw [← hu] at hreg hmem hbell
  refine ⟨u.count (rLinkStaleCnt r.val) 1, ?_, ?_, by rw [count_bell, hbell], fun a ha => ?_, fun a => ?_⟩
  · rw [kflWatchFire_eq src r rtag orphan h6, hfind, hu]
  · rw [reg_count_same, reg_congr hreg]
    rfl
  · rw [reg_count_other _ _ ha, reg_congr hreg]
  · rw [count_rdB, rdB_congr hmem]

theorem runs_kflWatchFire_answers (r : LinkId) (rtag : BitVec 6) (orphan : Bool) {g : TagS} (h6 : s.linkState n.val = 6)
    (htags : (s.link r.val).tags = [g]) (hg : g.tag = rtag.toNat) (hq : g.quarantine = false) :
    Runs (.kflWatchFire n (BitVec.ofNat 24 s.devId) src (BitVec.ofNat 5 r.val) rtag orphan) s fun t =>
      (t.link r.val).tags = [{ g with quarantine := true }] ∧
      (∃ m, t.bell = s.bell ++ [m] ∧ bellType m = 5 ∧ bellDst m = g.core.pos) ∧ SameRegs s t ∧ SameMem s t := by
  have hfind : ((s.link r.val).tags.find? fun t => t.tag == rtag.toNat && !t.quarantine) = some g := by
    rw [htags, List.find?_cons_of_pos]
    simp [hg, hq]
  obtain ⟨u, hu⟩ : ∃ u, u = s.ctlTake n.val (.watchFire (BitVec.ofNat 24 s.devId) src (BitVec.ofNat 5 r.val) rtag orphan) := ⟨_, rfl⟩
  obtain ⟨hreg, hmem, -, hbell, -, -, q, hlink⟩ :=
    ctlTake_fields s n.val r.val (.watchFire (BitVec.ofNat 24 s.devId) src (BitVec.ofNat 5 r.val) rtag orphan)
  rw [← hu] at hreg hmem hbell hlink
  obtain ⟨v, hv⟩ : ∃ v, v = u.modLink r.val fun l => { l with tags := l.tags.map fun x => if x.tag = g.tag then { x with quarantine := true } else x } := ⟨_, rfl⟩
  have hrow := g.core.row.isLt
  have hcol := g.core.col.isLt
  obtain ⟨htype, -, hdst, -⟩ := bellHdr_fields (type := 5) (len := 0) false (by decide) g.ctx.isLt (by decide) g.core.hall.isLt
    (show g.core.row.val < 16 by omega) (show g.core.col.val < 16 by omega) (orphan_arg_lt orphan g.sc) []
    0 (12 * (g.core.hall.val / 4) + if g.core.row.val < 12 then g.core.row.val else 6) 3 false
  refine ⟨v.bellToCore 5 g.ctx.val g.core (bton orphan * 64 + g.sc.toNat) [], ?_, ?_, ⟨_, ?_, htype, hdst⟩, fun a => ?_, fun a => ?_⟩
  · rw [kflWatchFire_eq src r rtag orphan h6, hfind, hv, hu]
  · rw [link_congr (bellToCore_links ..), hv, link_modLink_same, hlink]
    show (s.link r.val).tags.map _ = _
    rw [htags, List.map_singleton, if_pos rfl]
  · show v.bell ++ _ = _
    rw [hv, modLink_bell, hbell]
    rfl
  · rw [reg_congr (bellToCore_regs ..), hv, reg_congr (modLink_regs ..), reg_congr hreg]
  · rw [rdB_congr (bellToCore_mem ..), hv, rdB_congr (modLink_mem ..), rdB_congr hmem]

/-! ### The watches of this device's cores -/

theorem routerWatch_eq {s : State} {n : Nat} (c : CoreId) (q : CtxId) (sc : BitVec 6) (cond : BitVec 2) {dev : BitVec 24} (value : BitVec 32) {m : Nat}
    (hd : dev ≠ BitVec.ofNat 24 s.devId) (htags : (s.link n).tags = []) (hr : s.route dev.toNat = some m) (hm : s.linkState m = 6) :
    ∃ g, s.routerWatch n c q sc cond dev vsem value = (s.modLink n fun l => { l with tags := l.tags ++ [⟨0, c, sc, q, false⟩] }).modLink m fun l =>
      { l with ctlOut := l.ctlOut ++ [.semWatch dev (BitVec.ofNat 24 s.devId) g vsem (BitVec.ofNat 5 n) 0 cond value] } := by
  have hfind : ((List.range 64).find? fun t => !(s.link n).tags.any fun u => u.tag == t) = some 0 := by
    rw [htags]
    rfl
  obtain ⟨u, hu⟩ : ∃ u, u = s.modLink n fun l => { l with tags := l.tags ++ [⟨0, c, sc, q, false⟩] } := ⟨_, rfl⟩
  have hur : u.regs = s.regs := by rw [hu, modLink_regs]
  refine ⟨BitVec.ofNat 10 (s.fget (rKflCtxGroup q.val) fKflCtxGroupGroup), ?_⟩
  rw [State.routerWatch, if_neg (toNat_ne_devId hd), hfind]
  dsimp only
  rw [← hu, ctlRoute_kfl _ ((route_congr hur _).trans hr) ((linkState_congr (reg_congr hur _)).trans hm) rfl] <;> rfl

theorem runs_linkRouterWatch (c : CoreId) (q : CtxId) (sc : BitVec 6) (cond : BitVec 2) (dev : BitVec 24) (value : BitVec 32) {m : Nat}
    (hd : dev ≠ BitVec.ofNat 24 s.devId)
    (hfree : s.bellFree ⟨3, q, some c.pos, none, some [dev.setWidth 32, BitVec.ofNat 32 (cond.toNat * 2 ^ 30 + sc.toNat * 2 ^ 14 + vsem.toNat), value]⟩ = true)
    (htags : (s.link n.val).tags = []) (hr : s.route dev.toNat = some m) (hm : s.linkState m = 6) (hroom : (s.link m).ctlOut.length < 64) :
    Runs (.linkRouterWatch n c q sc cond dev vsem value) s fun t => (t.link n.val).tags = [⟨0, c, sc, q, false⟩] ∧
      (∃ g, (t.link m).ctlOut = (s.link m).ctlOut ++ [.semWatch dev (BitVec.ofNat 24 s.devId) g vsem (BitVec.ofNat 5 n.val) 0 cond value]) ∧
      SameRegs s t ∧ SameMem s t := by
  have hexec : exec (.linkRouterWatch n c q sc cond dev vsem value) s =
      s.delivered ⟨3, q, some c.pos, none, some [dev.setWidth 32, BitVec.ofNat 32 (cond.toNat * 2 ^ 30 + sc.toNat * 2 ^ 14 + vsem.toNat), value]⟩
        fun s0 => s0.routerWatch n.val c q sc cond dev vsem value := by
    show execLinkRouterWatch n c q sc cond dev vsem value s = _
    unfold execLinkRouterWatch
    refine if_neg fun h => ?_
    rw [State.tagFree, htags, ctlStuck_of_room hr hroom] at h
    exact absurd h.2 (by decide)
  refine runs_delivered hexec hfree ?_
  obtain ⟨u, hu⟩ : ∃ u, u = s.bellTaken ⟨3, q, some c.pos, none,
    some [dev.setWidth 32, BitVec.ofNat 32 (cond.toNat * 2 ^ 30 + sc.toNat * 2 ^ 14 + vsem.toNat), value]⟩ := ⟨_, rfl⟩
  have hregs : u.regs = s.regs := by rw [hu, bellTaken_regs]
  have hmem : u.mem = s.mem := by rw [hu, bellTaken_mem]
  have hlinks : u.links = s.links := by rw [hu, bellTaken_links]
  have hid : u.devId = s.devId := fget_congr hregs _ _
  rw [← hu]
  obtain ⟨g, hg⟩ := routerWatch_eq (s := u) (n := n.val) vsem c q sc cond value (by rw [hid]; exact hd) (by rw [link_congr hlinks]; exact htags)
    ((route_congr hregs _).trans hr) ((linkState_congr (reg_congr hregs _)).trans hm)
  obtain ⟨v, hv⟩ : ∃ v, v = u.modLink n.val fun l => { l with tags := l.tags ++ [⟨0, c, sc, q, false⟩] } := ⟨_, rfl⟩
  have hvtags : (v.link n.val).tags = [⟨0, c, sc, q, false⟩] := by
    rw [hv, link_modLink_same, link_congr hlinks, htags]
    rfl
  have hvout : (v.link m).ctlOut = (s.link m).ctlOut := by
    rw [hv]
    by_cases h : m = n.val
    · rw [h, link_modLink_same, link_congr hlinks]
    · rw [link_modLink_other _ _ h, link_congr hlinks]
  rw [hg, ← hv, hid]
  refine ⟨?_, ⟨g, ?_⟩, fun a => ?_, fun a => ?_⟩
  · by_cases h : n.val = m
    · rw [← h, link_modLink_same]
      exact hvtags
    · rw [link_modLink_other _ _ h]
      exact hvtags
  · rw [link_modLink_same, hvout]
  · rw [reg_congr (modLink_regs ..), hv, reg_congr (modLink_regs ..), reg_congr hregs]
  · rw [rdB_congr (modLink_mem ..), hv, rdB_congr (modLink_mem ..), rdB_congr hmem]

end

/-- Settles O47: a message of this device is what its semaphore unit makes of a remote request, one of another goes behind the control queue of the
route's link; tags are taken, answered and freed in the list of the link's router alone. -/
theorem linkSemaphores : Obligations.LinkSemaphores := by
  unfold Obligations.LinkSemaphores
  intro s n src group vsem me k opened
  refine ⟨fun addend p h6 hv hc hmap halloc horphan hnone => runs_kflSemAdd_served src group vsem addend h6 hv hc hmap halloc horphan hnone,
    fun addend h6 hv hc => runs_kflSemAdd_cleared src group vsem addend h6 hv hc, fun dst addend m h6 hd hr hm hfull => ?_,
    fun dst addend hno => ⟨_, kflSemAdd_closed src group vsem dst addend hno, quiet_ctlTake ..⟩,
    fun dst addend m h6 hd hr hm hroom => runs_kflSemAdd_routed src group vsem dst addend h6 hd hr hm hroom,
    fun rlink rtag cond value p h6 hv hc hmap halloc horphan hno hroom =>
      runs_kflSemWatch src group vsem rlink rtag cond value h6 hv hc hmap halloc horphan hno hroom,
    fun r rtag orphan h6 hno => runs_kflWatchFire_stale src r rtag orphan h6 hno,
    fun r rtag orphan g h6 htags hg hq => runs_kflWatchFire_answers src r rtag orphan h6 htags hg hq,
    fun c q sc cond dev value m hd hfree htags hr hm hroom => runs_linkRouterWatch vsem c q sc cond dev value hd hfree htags hr hm hroom,
    fun tag => ?_⟩
  · rw [kflSemAdd_routed src group vsem dst addend h6 hd, if_pos (ctlStuck_of_full hr hm hfull)]
  · exact ⟨s.modLink n.val fun l => { l with tags := l.tags.filter fun t => !(t.tag == tag.toNat && t.quarantine) }, rfl,
      by rw [link_modLink_same], fun a => modLink_reg .., fun a => modLink_rdB ..⟩

end Sys2Proof.Machine

/-! ## The event recorder and dumps -/

namespace Sys2Proof.Machine

-- One proof at a time, as in Sys2Proof/Laws: each waiting proof would keep a thread and its stack.
set_option Elab.async false

/-! ### Acceptance -/

theorem runs_evrAccept_kept {s : State} {e : EvRec} (ha : s.log.arrivals = [e]) (h9 : e.code / 4096 ≠ 9) (h10 : e.code / 4096 ≠ 10)
    (hroom : s.log.buffer.length < 1008) : Runs .evrAccept s fun t => t.log.arrivals = [] ∧ t.log.nextSeq = (s.log.nextSeq + 1) % 2 ^ 32 ∧
      t.log.buffer = s.log.buffer ++ [⟨e, s.log.nextSeq, s.time, s.hearth.cal.isNone⟩] ∧ t.reg rEvrAcceptCnt = s.reg rEvrAcceptCnt + 1 ∧
      RegsBut (· = rEvrAcceptCnt) s t ∧ SameMem s t := by
  obtain ⟨u, hu⟩ : ∃ u : State, u = { s with log := { s.log with arrivals := [] } } := ⟨_, rfl⟩
  have hall : s.acceptAll = u.accept e := by
    rw [State.acceptAll, ha, hu]
    rfl
  obtain ⟨d, hacc⟩ : ∃ d, u.accept e = ({ u with log := { u.log with
      buffer := u.log.buffer ++ [⟨e, u.log.nextSeq, u.time, u.hearth.cal.isNone⟩], nextSeq := (u.log.nextSeq + 1) % 2 ^ 32 }, dump := d } : State).count
        rEvrAcceptCnt 1 := by
    refine ⟨match u.dump with
      | some d => if e.dump && d.seq.isNone then some { d with seq := some u.log.nextSeq } else u.dump
      | none => none, ?_⟩
    unfold State.accept
    dsimp only
    rw [if_pos (.inl (by rw [hu]; exact hroom)), if_neg (not_or.2 ⟨h9, h10⟩)] <;> rfl
  refine ⟨u.accept e, congrArg Host.Outcome.next hall, ?_⟩
  rw [hacc, hu]
  refine ⟨rfl, rfl, rfl, reg_count_same .., fun a h => ?_, fun a => ?_⟩
  · exact reg_count_other _ _ h
  · exact count_rdB ..

theorem runs_evrAccept_dropped {s : State} {e : EvRec} (ha : s.log.arrivals = [e]) (hfull : 1024 ≤ s.log.buffer.length) :
    Runs .evrAccept s fun t => t.log.arrivals = [] ∧ t.log.buffer = s.log.buffer ∧ t.log.nextSeq = s.log.nextSeq ∧
      t.reg rEvrDropCnt = s.reg rEvrDropCnt + 1 ∧ RegsBut (· = rEvrDropCnt) s t ∧ SameMem s t := by
  obtain ⟨u, hu⟩ : ∃ u : State, u = { s with log := { s.log with arrivals := [] } } := ⟨_, rfl⟩
  have hall : s.acceptAll = u.accept e := by
    rw [State.acceptAll, ha, hu]
    rfl
  have hno : ¬ (u.log.buffer.length < 1008 ∨ (u.log.buffer.length < 1024 ∧ mayUseLast e.code = true)) := by
    have : u.log.buffer.length = s.log.buffer.length := by rw [hu]
    omega
  obtain ⟨d, hacc⟩ : ∃ d, u.accept e = ({ u with log := { u.log with drops := d } } : State).count rEvrDropCnt 1 := by
    refine ⟨match u.log.drops with
      | none => some (1, e.code)
      | some (n, c) => some (n + 1, c), ?_⟩
    unfold State.accept
    dsimp only
    rw [if_neg hno] <;> rfl
  refine ⟨u.accept e, congrArg Host.Outcome.next hall, ?_⟩
  rw [hacc, hu]
  exact ⟨rfl, rfl, rfl, reg_count_same .., fun a h => reg_count_other _ _ h, fun a => count_rdB ..⟩

/-! ### Flash -/

/-- A program of flash is a change of flash alone. -/
theorem flashWr_eq (b : Bytes) : ∀ (s : State) (a : Nat), s.flashWr a b = { s with flash := (s.flashWr a b).flash } := by
  induction b with
  | nil => exact fun s a => rfl
  | cons y b ih =>
    intro s a
    show State.flashWr _ _ b = _
    rw [ih]
    rfl

theorem flashB_flashWr_other (b : Bytes) : ∀ (s : State) (a x : Nat), (x < a ∨ a + b.length ≤ x) → (s.flashWr a b).flashB x = s.flashB x := by
  induction b with
  | nil => exact fun s a x _ => rfl
  | cons y b ih =>
    intro s a x h
    rw [List.length_cons] at h
    show (State.flashWr _ (a + 1) b).flashB x = s.flashB x
    rw [ih _ _ _ (by omega)]
    exact sget_sset_other _ _ _ _ _ (by omega)

theorem flashB_flashWr_in (b : Bytes) : ∀ (s : State) (a i : Nat) (h : i < b.length), (s.flashWr a b).flashB (a + i) = b[i] := by
  induction b with
  | nil => exact fun s a i h => absurd h (by simp)
  | cons y b ih =>
    intro s a i h
    show (State.flashWr _ (a + 1) b).flashB (a + i) = _
    cases i with
    | zero =>
      rw [flashB_flashWr_other _ _ _ _ (by omega)]
      exact sget_sset_same ..
    | succ i =>
      rw [show a + (i + 1) = a + 1 + i by omega, ih _ _ _ (by simpa using h)]
      rfl

theorem flashB_flashErase_other (s : State) {a n x : Nat} (h : x < a ∨ a + n ≤ x) : (s.flashErase a n).flashB x = s.flashB x := by
  have hkeep : (!(decide (a ≤ x) && decide (x < a + n))) = true := by
    simp only [Bool.not_eq_true', Bool.and_eq_false_iff, decide_eq_false_iff_not]
    omega
  show sget (fun _ => 0xFF) (s.flash.filter fun e => !(decide (a ≤ e.1) && decide (e.1 < a + n))) x = _
  rw [sget_filter (fun _ => (0xFF : Byte)) (fun k => !(decide (a ≤ k) && decide (k < a + n))), if_pos hkeep]
  rfl

theorem flashBytes_congr {s t : State} {a n : Nat} (h : ∀ i < n, t.flashB (a + i) = s.flashB (a + i)) : t.flashBytes a n = s.flashBytes a n :=
  List.map_congr_left fun i hi => h i (List.mem_range.1 hi)

theorem flashBytes_flashWr (s : State) (a : Nat) (b : Bytes) : (s.flashWr a b).flashBytes a b.length = b := by
  refine List.ext_getElem (by simp [State.flashBytes]) fun i h1 h2 => ?_
  simp only [State.flashBytes, List.getElem_map, List.getElem_range]
  exact flashB_flashWr_in b s a i h2

theorem length_logRec (r : LogRec) : r.bytes.length = 64 := by
  unfold LogRec.bytes
  simp [zeros]

theorem length_indexEntry (g n : Nat) : (indexEntry g n).length = 16 := by
  unfold indexEntry
  simp [zeros]

/-- Records of the log stand behind its index. -/
theorem recAddr_ge (q : Nat) : 0x2010000 ≤ recAddr q := by
  unfold recAddr
  split <;> omega

theorem halfBase_lt (h : Bool) : halfBase h + 0x8000 ≤ 0x2010000 := by cases h <;> decide

/-- An index entry changes flash in the index alone. -/
theorem indexAppend_fields (s : State) (next : Nat) (he : s.log.entries ≤ 2048) :
    (s.indexAppend next).regs = s.regs ∧ (s.indexAppend next).mem = s.mem ∧ (s.indexAppend next).log.buffer = s.log.buffer ∧
    (s.indexAppend next).hearth = s.hearth ∧ (s.indexAppend next).log.arrivals = s.log.arrivals ∧ (s.indexAppend next).log.drops = s.log.drops ∧
    (∀ x, (x < 0x2000000 ∨ 0x2010000 ≤ x) → (s.indexAppend next).flashB x = s.flashB x) := by
  unfold State.indexAppend
  dsimp only
  by_cases h : s.log.entries = 2048
  · rw [if_pos h]
    dsimp only
    obtain ⟨u, hu⟩ : ∃ u, u = s.flashErase (halfBase !s.log.half) 0x8000 := ⟨_, rfl⟩
    have hb := halfBase_lt (!s.log.half)
    have hlow : 0x2000000 ≤ halfBase (!s.log.half) := by cases s.log.half <;> decide
    rw [← hu, flashWr_eq]
    refine ⟨by rw [hu]; rfl, by rw [hu]; rfl, rfl, by rw [hu]; rfl, rfl, rfl, fun x hx => ?_⟩
    show (u.flashWr _ _).flashB x = _
    rw [flashB_flashWr_other _ _ _ _ (by rw [length_indexEntry]; omega), hu, flashB_flashErase_other _ (by omega)]
  · rw [if_neg h]
    dsimp only
    have hb := halfBase_lt s.log.half
    have hlow : 0x2000000 ≤ halfBase s.log.half := by cases s.log.half <;> decide
    rw [flashWr_eq]
    refine ⟨rfl, rfl, rfl, rfl, rfl, rfl, fun x hx => ?_⟩
    show (s.flashWr _ _).flashB x = _
    exact flashB_flashWr_other _ _ _ _ (by rw [length_indexEntry]; omega)

/-- The erase that falls due before a record counts, and is one of the log's sectors. -/
theorem eraseFor_fields (s : State) (q : Nat) : RegsBut (· = rEvrEraseCnt) s (s.eraseFor q) ∧ (s.eraseFor q).mem = s.mem ∧
    (s.eraseFor q).log = s.log ∧ (s.eraseFor q).hearth = s.hearth := by
  rw [State.eraseFor]
  split_ifs
  · exact ⟨fun a ha => reg_count_other _ _ ha, count_mem .., count_log .., count_hearth ..⟩
  · exact ⟨fun a _ => rfl, rfl, rfl, rfl⟩

/-- The oldest record programmed: where it stands, and what stays. -/
theorem program_fields {s : State} {r : LogRec} {rest : List LogRec} (hb : s.log.buffer = r :: rest) (he : s.log.entries ≤ 2048) :
    s.program.log.buffer = rest ∧ s.program.flashBytes (recAddr r.seq) 64 = r.bytes ∧
    s.program.reg rEvrFlashCnt = s.reg rEvrFlashCnt + 1 ∧ RegsBut (fun a => a = rEvrFlashCnt ∨ a = rEvrEraseCnt) s s.program ∧ SameMem s s.program := by
  obtain ⟨u1, hu1⟩ : ∃ u, u = s.eraseFor r.seq := ⟨_, rfl⟩
  obtain ⟨hr1, hm1, hl1, -⟩ := eraseFor_fields s r.seq
  rw [← hu1] at hr1 hm1 hl1
  obtain ⟨u2, hu2⟩ : ∃ u, u = u1.flashWr (recAddr r.seq) r.bytes := ⟨_, rfl⟩
  have hr2 : u2.regs = u1.regs := by rw [hu2, flashWr_eq]
  have hm2 : u2.mem = s.mem := by rw [hu2, flashWr_eq]; exact hm1
  have hl2 : u2.log = s.log := by rw [hu2, flashWr_eq]; exact hl1
  have hf2 : u2.flashBytes (recAddr r.seq) 64 = r.bytes := by
    rw [hu2, ← length_logRec r]
    exact flashBytes_flashWr ..
  obtain ⟨u3, hu3⟩ : ∃ u, u = u2.count rEvrFlashCnt 1 := ⟨_, rfl⟩
  have hl3 : u3.log = s.log := by rw [hu3, count_log, hl2]
  obtain ⟨l, u4, hu4, hlb, hle, hprog⟩ : ∃ (l : RecS) (u4 : State), u4 = { u3 with log := l } ∧ l.buffer = rest ∧ l.entries = s.log.entries ∧
      (s.program = u4 ∨ (∃ n, s.program = u4.indexAppend n) ∨ (∃ d r, s.program = ({ u4 with log := { u4.log with drops := d } } : State).emit r) ∨
        ∃ n d r, s.program = ({ u4.indexAppend n with log := { (u4.indexAppend n).log with drops := d } } : State).emit r) := by
    refine ⟨{ u3.log with
      buffer := rest, since := u3.log.since + 1
      flushTo := match u3.log.flushTo with
        | some q => if rest.any fun e => decide (e.seq < q) then some q else none
        | none => none }, _, rfl, rfl, by rw [hl3], ?_⟩
    unfold State.program
    rw [hb]
    dsimp only
    rw [← hu1, ← hu2, ← hu3]
    split_ifs
    · split
      · exact .inr (.inr (.inr ⟨_, _, _, rfl⟩))
      · exact .inr (.inl ⟨_, rfl⟩)
    · split
      · exact .inr (.inr (.inl ⟨_, _, rfl⟩))
      · exact .inl rfl
  have h4 : u4.log.buffer = rest ∧ u4.log.entries ≤ 2048 ∧ u4.regs = u3.regs ∧ u4.mem = s.mem ∧
      u4.flashBytes (recAddr r.seq) 64 = r.bytes := by
    rw [hu4]
    refine ⟨hlb, by rw [hle]; exact he, rfl, ?_, ?_⟩
    · show u3.mem = s.mem
      rw [hu3, count_mem, hm2]
    rw [hu3]
    exact hf2
  obtain ⟨hb4, he4, hr4, hm4, hf4⟩ := h4
  have hreg : ∀ t : State, t.log.buffer = u4.log.buffer → t.regs = u4.regs → t.mem = u4.mem →
      t.flashBytes (recAddr r.seq) 64 = u4.flashBytes (recAddr r.seq) 64 → t.log.buffer = rest ∧ t.flashBytes (recAddr r.seq) 64 = r.bytes ∧
      t.reg rEvrFlashCnt = s.reg rEvrFlashCnt + 1 ∧ RegsBut (fun a => a = rEvrFlashCnt ∨ a = rEvrEraseCnt) s t ∧ SameMem s t := by
    intro t htb htr htm htf
    refine ⟨htb.trans hb4, htf.trans hf4, ?_, fun a ha => ?_, fun a => ?_⟩
    · rw [reg_congr (htr.trans hr4), hu3, reg_count_same, reg_congr hr2, hr1 _ (by decide)]
      rfl
    · rw [reg_congr (htr.trans hr4), hu3, reg_count_other _ _ fun e => ha (.inl e), reg_congr hr2, hr1 a fun e => ha (.inr e)]
    · exact rdB_congr (htm.trans hm4) a
  have happend : ∀ n, (u4.indexAppend n).flashBytes (recAddr r.seq) 64 = u4.flashBytes (recAddr r.seq) 64 := fun n =>
    flashBytes_congr fun i _ => (indexAppend_fields u4 n he4).2.2.2.2.2.2 _ (.inr (by have := recAddr_ge r.seq; omega))
  rcases hprog with h | ⟨n, h⟩ | ⟨d, e, h⟩ | ⟨n, d, e, h⟩
  · rw [h]
    exact hreg u4 rfl rfl rfl rfl
  · obtain ⟨ir, im, ib, -⟩ := indexAppend_fields u4 n he4
    rw [h]
    exact hreg _ ib ir im (happend n)
  · rw [h]
    exact hreg _ rfl rfl rfl rfl
  · obtain ⟨ir, im, ib, -⟩ := indexAppend_fields u4 n he4
    rw [h]
    exact hreg _ ib ir im (happend n)

/-! ### The calendar, the flush and the freeze -/

theorem runs_calSet {s : State} {r : Requester} (hr : mayWrite r = true) (v : Word) : Runs (.calSet r v) s fun t =>
    t.hearth.cal = some (v.toNat, s.now) ∧ t.time = v.toNat ∧
    t.log.arrivals = s.log.arrivals ++ [evr 0xF004 0x10 0 s.time v.toNat (bton s.hearth.cal.isNone)] ∧ Quiet s t := by
  refine ⟨({ s with hearth := { s.hearth with cal := some (v.toNat, s.now) } } : State).emit
    (evr 0xF004 0x10 0 s.time v.toNat (bton s.hearth.cal.isNone)), if_neg (by rw [hr]; decide), rfl, ?_, rfl, fun _ => rfl, fun _ => rfl, rfl⟩
  · show (v.toNat + (s.now / hearthUnits - s.now / hearthUnits) * 40) % 2 ^ 64 = v.toNat
    rw [Nat.sub_self, Nat.zero_mul, Nat.add_zero]
    exact Nat.mod_eq_of_lt v.isLt

/-- FREEZE at a core, after those before it in the list and whatever those behind it do. -/
theorem freeze_fold (on : Bool) (c : CoreId) : ∀ (l : List CoreId) (s : State),
    (c ∈ l ∨ s.flag (rCntCtl c) fCntCtlFreeze = on) →
    (l.foldl (fun s d => (s.settle d).fput (rCntCtl d) fCntCtlFreeze (bton on)) s).flag (rCntCtl c) fCntCtlFreeze = on := by
  intro l
  induction l with
  | nil => exact fun s h => h.resolve_left List.not_mem_nil
  | cons d l ih =>
    intro s h
    refine ih _ ?_
    by_cases hd : rCntCtl c = rCntCtl d
    · refine .inr ?_
      rw [hd, State.flag, fget_fput_same _ _ _ _ (by decide) (by decide)]
      cases on <;> rfl
    · rcases h with h | h
      · exact .inl ((List.mem_cons.1 h).resolve_left fun e => hd (by rw [e]))
      · refine .inr ?_
        have hset : ¬ settleReg d (rCntCtl c) := by
          rintro (e | e | e | e)
          exacts [core_addr_ne (c := c) (d := d) (by decide) (by decide) (by decide) e, core_addr_ne (c := c) (d := d) (by decide) (by decide) (by decide) e,
            core_addr_ne (c := c) (d := d) (by decide) (by decide) (by decide) e, core_addr_ne (c := c) (d := d) (by decide) (by decide) (by decide) e]
        rw [flag_fput_other _ _ _ _ hd, flag_congr (reg_settle_outside s d hset), h]

theorem mem_allCores (c : CoreId) : c ∈ allCores := by
  refine List.mem_map.2 ⟨c.idx, List.mem_range.2 ?_, coreOfIdx_idx c⟩
  have := c.hall.isLt; have := c.row.isLt; have := c.col.isLt
  unfold CoreId.idx
  omega

theorem runs_diagSnapApply {s : State} {on : Bool} (hp : s.snapPend = some on) (hslot : s.slot % 1024 = 0) : Runs .diagSnapApply s fun t =>
    t.snapPend = none ∧ (∀ c : CoreId, s.built c.hall.val = true → t.flag (rCntCtl c) fCntCtlFreeze = on) ∧
    (on = true → t.fget rDiagSnapSlot fDiagSnapSlotSnapSlot = s.slot % 2 ^ 48) ∧ SameMem s t := by
  obtain ⟨u, hu⟩ : ∃ u, u = (allCores.filter fun c => s.built c.hall.val).foldl (fun s c => (s.settle c).fput (rCntCtl c) fCntCtlFreeze (bton on))
      ({ s with snapPend := none } : State) := ⟨_, rfl⟩
  have hsnap : u.snapPend = none := by
    rw [hu, foldl_same State.snapPend _ fun t c => ?_]
    rw [fput_snapPend]
    unfold State.settle
    extract_lets n s1
    split_ifs
    · rfl
    · exact modCore_snapPend ..
    · rw [count_snapPend, count_snapPend, count_snapPend, count_snapPend, modCore_snapPend]
  have hmem : u.mem = s.mem := by
    rw [hu, foldl_same State.mem _ fun t c => by rw [fput_mem, settle_mem]]
  have hfreeze : ∀ c : CoreId, s.built c.hall.val = true → u.flag (rCntCtl c) fCntCtlFreeze = on := fun c hc => by
    rw [hu]
    exact freeze_fold on c _ _ (.inl (List.mem_filter.2 ⟨mem_allCores c, hc⟩))
  have hne : ∀ c : CoreId, rCntCtl c ≠ rDiagSnapSlot := fun c => by
    have := c.hall.isLt; have := c.row.isLt; have := c.col.isLt
    unfold rCntCtl rDiagSnapSlot coreBase coreSpace dieSpace
    omega
  have hexec : exec .diagSnapApply s = .next (if on then u.fput rDiagSnapSlot fDiagSnapSlotSnapSlot s.slot else u) := by
    show execDiagSnapApply s = _
    unfold execDiagSnapApply
    rw [hp]
    dsimp only
    rw [if_neg (not_not.2 hslot), ← hu]
  cases on with
  | false => exact ⟨u, hexec, hsnap, hfreeze, fun h => absurd h Bool.false_ne_true, fun a => rdB_congr hmem a⟩
  | true =>
    refine ⟨u.fput rDiagSnapSlot fDiagSnapSlotSnapSlot s.slot, hexec, hsnap, fun c hc => ?_, fun _ => ?_, fun a => rdB_congr hmem a⟩
    · rw [flag_fput_other _ _ _ _ (hne c), hfreeze c hc]
    · exact fget_fput_same _ _ _ _ (by decide) (by decide)

/-! ### Dumps -/

theorem not_core_dumpReg (c : CoreId) : rDumpCfg ≠ rCntCtl c ∧ rDumpCfg ≠ rCoreCtl c ∧ ¬ settleReg c rDumpCfg ∧
    rDumpStatus ≠ rCntCtl c ∧ rDumpStatus ≠ rCoreCtl c ∧ ¬ settleReg c rDumpStatus := by
  have := c.hall.isLt; have := c.row.isLt; have := c.col.isLt
  unfold settleReg rDumpCfg rDumpStatus rCntCtl rCoreCtl rHaltCnt rArrNoworkCnt rVecNoworkCnt rStrmNoworkCnt coreBase coreSpace dieSpace
  omega

/-- What a dump's start shows in its own registers. -/
theorem dumpStart_shows (s : State) (tr : Nat) (k : Option CtxId) (q : Bool) : (s.dumpStart tr k q).dump.isSome = true ∧
    (s.dumpStart tr k q).flag rDumpCfg fDumpCfgArm = false ∧ (s.dumpStart tr k q).flag rDumpStatus fDumpStatusBusy = true := by
  unfold State.dumpStart
  extract_lets s1 scope cores halted d s2 s3 s4
  have hkeep : ∀ a, (∀ c : CoreId, a ≠ rCntCtl c ∧ a ≠ rCoreCtl c ∧ ¬ settleReg c a) → s3.reg a = s1.reg a := fun a ha => by
    have h2 : s2.reg a = s1.reg a := foldl_same (fun t => t.reg a) _
      (fun t c => (reg_fput_other _ _ _ (ha c).1).trans (reg_settle_outside t c (ha c).2.2)) _ _
    exact (foldl_same (fun t => t.reg a) _ (fun t c => (askStop_reg ..).trans (reg_fput_other _ _ _ (ha c).2.1)) _ _).trans h2
  have hcfg := hkeep rDumpCfg fun c => ⟨(not_core_dumpReg c).1, (not_core_dumpReg c).2.1, (not_core_dumpReg c).2.2.1⟩
  have hstat := hkeep rDumpStatus fun c => (not_core_dumpReg c).2.2.2
  have hne : rDumpCfg ≠ rDumpStatus := by decide
  refine ⟨rfl, ?_, ?_⟩
  · rw [State.flag, State.fget, reg_dump, wrHbm_reg, reg_fput_other _ _ _ hne, hcfg, reg_fput_other _ _ _ hne, reg_fput_other _ _ _ hne]
    exact flag_fput_same_zero s _ _ (by decide) (by decide)
  · rw [State.flag, State.fget, reg_dump, wrHbm_reg, ← State.fget, fget_fput_below _ _ _ _ _ (by decide) (by decide) (by decide) (by decide), State.fget,
      hstat, ← State.fget, fget_fput_below _ _ _ _ _ (by decide) (by decide) (by decide) (by decide)]
    exact flag_fput_same_one _ _ _ (by decide) (by decide)

theorem runs_dumpReq_starts {s : State} {r : Requester} (hr : mayWrite r = true) (ha : s.flag rDumpCfg fDumpCfgArm = true) (hd : s.dump = none) :
    Runs (.dumpReq r) s fun t => t.dump.isSome = true ∧ t.flag rDumpCfg fDumpCfgArm = false ∧ t.flag rDumpStatus fDumpStatusBusy = true := by
  refine ⟨s.dumpStart 0 none true, congrArg Host.Outcome.next ((if_pos hr).trans (if_pos ?_)), dumpStart_shows ..⟩
  rw [ha, hd]
  rfl

theorem runs_dumpReq_skipped {s : State} {r : Requester} (hr : mayWrite r = true) (ha : s.flag rDumpCfg fDumpCfgArm = false) :
    Runs (.dumpReq r) s fun t => t.log.arrivals = s.log.arrivals ++ [evr 0xF007 0x11 0] ∧ Quiet s t := by
  refine ⟨s.emit (evr 0xF007 0x11 0), congrArg Host.Outcome.next ((if_pos hr).trans (if_neg ?_)), rfl, fun _ => rfl, fun _ => rfl, rfl⟩
  rw [ha, Bool.false_and]
  decide

theorem runs_dumpArm {s : State} {r : Requester} (hr : mayWrite r = true) (hv : s.flag rDumpStatus fDumpStatusValid = true) :
    Runs (.dumpArm r) s fun t => t.flag rDumpCfg fDumpCfgArm = true ∧ t.flag rDumpStatus fDumpStatusValid = false ∧ t.rdB (dumpArea + 52) = 1 ∧
      RegsBut (fun a => a = rDumpCfg ∨ a = rDumpStatus) s t ∧ MemBut dumpArea 4096 s t := by
  obtain ⟨body, hbody⟩ : ∃ b : Bytes, b = (slice (s.rdBytes dumpArea 4096) 0 4092).set 52 1 := ⟨_, rfl⟩
  have hlen : body.length = 4092 := by rw [hbody, List.length_set, length_slice]
  obtain ⟨b, hb⟩ : ∃ b : Bytes, b = body ++ natBytes 4 (crc32c body).toNat := ⟨_, rfl⟩
  have hblen : b.length = 4096 := by rw [hb, List.length_append, hlen, length_natBytes]
  have h52 : b[52]'(by omega) = 1 := by
    have : b[52]? = some 1 := by
      rw [hb, List.getElem?_append_left (by omega), hbody, List.getElem?_set_self (by rw [length_slice]; decide)]
    exact (List.getElem_eq_iff _).2 this
  obtain ⟨u, hu⟩ : ∃ u, u = (s.fput rDumpCfg fDumpCfgArm 1).wrHbm dumpArea b := ⟨_, rfl⟩
  have hureg : ∀ a, u.reg a = (s.fput rDumpCfg fDumpCfgArm 1).reg a := fun a => by rw [hu, wrHbm_reg]
  have hne : rDumpCfg ≠ rDumpStatus := by decide
  refine ⟨u.fput rDumpStatus fDumpStatusValid 0, ?_, ?_, ?_, ?_, fun a ha => ?_, fun a ha => ?_⟩
  · refine congrArg Host.Outcome.next ((if_pos hr).trans ?_)
    rw [State.dumpArm, if_pos hv, hu, hb, hbody]
  · rw [flag_fput_other _ _ _ _ hne, flag_congr (hureg _)]
    exact flag_fput_same_one _ _ _ (by decide) (by decide)
  · exact flag_fput_same_zero _ _ _ (by decide) (by decide)
  · rw [fput_rdB, hu]
    show (State.wrBytes _ dumpArea b).rdB (dumpArea + 52) = 1
    rw [rdB_wrBytes_in b _ _ 52 (by omega), h52]
  · rw [reg_fput_other _ _ _ fun e => ha (.inr e), hureg, reg_fput_other _ _ _ fun e => ha (.inl e)]
  · rw [fput_rdB, hu, wrHbm_rdB_other _ _ _ (by rw [hblen]; exact ha), fput_rdB]

theorem runs_dumpDone {s : State} {d : DumpS} (us : BitVec 32) (hd : s.dump = some d) (hrolls : d.rolls = []) (hstop : ∀ c ∈ d.cores, s.run c = false) :
    Runs (.dumpDone us) s fun t => t.dump = none ∧ t.flag rDumpStatus fDumpStatusBusy = false ∧ t.flag rDumpStatus fDumpStatusValid = true := by
  obtain ⟨u, r, hdone⟩ : ∃ (u : State) (r : EvRec), s.dumpDone d us.toNat =
      ({ ((u.fput rDumpStatus fDumpStatusBusy 0).fput rDumpStatus fDumpStatusValid 1).count rDumpCnt 1 with dump := none } : State).emit r := by
    unfold State.dumpDone
    extract_lets secs s1 s2 s3 s4 s5 s6
    clear_value s5
    refine ⟨s5, evr 0xF006 0x11 0 (s6.fget rDumpStatus fDumpStatusDumpSeq) d.trigger us.toNat, ?_⟩
    rw [hrolls, State.rollsAfter, List.foldl_nil]
  have hall : (d.cores.all fun c => !s.run c) = true := List.all_eq_true.2 fun c hc => by rw [hstop c hc]; rfl
  have hne : rDumpStatus ≠ rDumpCnt := by decide
  have hstat : (s.dumpDone d us.toNat).reg rDumpStatus = ((u.fput rDumpStatus fDumpStatusBusy 0).fput rDumpStatus fDumpStatusValid 1).reg rDumpStatus := by
    rw [hdone]
    show (((u.fput rDumpStatus fDumpStatusBusy 0).fput rDumpStatus fDumpStatusValid 1).count rDumpCnt 1).reg rDumpStatus = _
    exact reg_count_other _ _ hne
  refine ⟨s.dumpDone d us.toNat, ?_, by rw [hdone]; rfl, ?_, ?_⟩
  · show execDumpDone us s = _
    unfold execDumpDone
    rw [hd]
    exact congrArg Host.Outcome.next (if_pos hall)
  · rw [flag_congr hstat, State.flag, fget_fput_above _ _ _ _ _ (by decide) (by decide) (by decide) (by decide)]
    exact flag_fput_same_zero _ _ _ (by decide) (by decide)
  · rw [flag_congr hstat]
    exact flag_fput_same_one _ _ _ (by decide) (by decide)

/-- Settles O60: acceptance, programming and the dump are taken apart into the fields of the log, the flash and the dump's registers that each
writes last. -/
theorem recorderAndDumps : Obligations.RecorderAndDumps := by
  unfold Obligations.RecorderAndDumps
  intro s r hr
  refine ⟨fun e ha h9 h10 => ⟨runs_evrAccept_kept ha h9 h10, runs_evrAccept_dropped ha⟩,
    fun e rest hb he => ⟨s.program, rfl, program_fields hb he⟩, fun v => runs_calSet hr v, fun hb => ?_, fun on => ?_,
    fun on hp hslot => runs_diagSnapApply hp hslot, fun ha hd => runs_dumpReq_starts hr ha hd, fun ha => runs_dumpReq_skipped hr ha,
    fun hv => runs_dumpArm hr hv, fun d us hd hrolls hstop => runs_dumpDone us hd hrolls hstop⟩
  · refine ⟨{ s with log := { s.log with flushTo := some s.log.nextSeq } }, if_neg ?_, rfl, fun _ => rfl, fun _ => rfl, rfl⟩
    rintro (h | h)
    · rw [hr] at h
      exact absurd h (by decide)
    · exact hb h
  · refine ⟨{ s.fput rDiagSnap fDiagSnapFreeze (bton on) with snapPend := some on }, if_neg (by rw [hr]; decide), rfl, ?_, fun a ha => ?_, fun a => ?_⟩
    · show (s.fput rDiagSnap fDiagSnapFreeze (bton on)).flag rDiagSnap fDiagSnapFreeze = on
      rw [State.flag, fget_fput_same _ _ _ _ (by decide) (by decide)]
      cases on <;> rfl
    · show (s.fput rDiagSnap fDiagSnapFreeze (bton on)).reg a = s.reg a
      exact reg_fput_other s _ _ ha
    · show (s.fput rDiagSnap fDiagSnapFreeze (bton on)).rdB a = s.rdB a
      exact fput_rdB ..

end Sys2Proof.Machine

/-! ## Steps that write a few registers alone -/

namespace Sys2Proof.Machine
-- One proof at a time, as in Sys2Proof/Laws: each waiting proof would keep a thread and its stack.
set_option Elab.async false

/-- Registers in `A` alone change; memory and flash stay. -/
structure Touch (A : Nat → Prop) (s t : State) : Prop where
  regs : RegsBut A s t
  mem : t.mem = s.mem
  flash : t.flash = s.flash

section
variable {A B : Nat → Prop} {s t u : State}

theorem Touch.of_same (hr : t.regs = s.regs) (hm : t.mem = s.mem) (hf : t.flash = s.flash) : Touch A s t := ⟨fun _ _ => reg_congr hr _, hm, hf⟩

theorem Touch.refl (s : State) : Touch A s s := .of_same rfl rfl rfl

theorem Touch.trans (h : Touch A s t) (h' : Touch A t u) : Touch A s u :=
  ⟨fun a ha => (h'.regs a ha).trans (h.regs a ha), h'.mem.trans h.mem, h'.flash.trans h.flash⟩

theorem Touch.mono (h : Touch A s t) (hsub : ∀ a, A a → B a) : Touch B s t := ⟨fun a ha => h.regs a fun c => ha (hsub a c), h.mem, h.flash⟩

theorem Touch.setReg (s : State) {a : Nat} (v : Word) (ha : A a) : Touch A s (s.setReg a v) :=
  ⟨fun _ hb => reg_setReg_other s v fun e => hb (e ▸ ha), setReg_mem .., setReg_flash ..⟩

theorem Touch.fput (s : State) {a : Nat} (f : Fd) (v : Nat) (ha : A a) : Touch A s (s.fput a f v) := .setReg s _ ha

theorem Touch.count (s : State) {a : Nat} (n : Nat) (ha : A a) : Touch A s (s.count a n) := .setReg s _ ha

theorem Touch.emit (s : State) (r : EvRec) : Touch A s (s.emit r) := .of_same (emit_regs ..) (emit_mem ..) (emit_flash ..)

theorem Touch.sameMem (h : Touch A s t) : SameMem s t := fun a => rdB_congr h.mem a

theorem Touch.fget (h : Touch A s t) {a : Nat} (ha : ¬ A a) (f : Fd) : t.fget a f = s.fget a f := congrArg f.get (h.regs a ha)

theorem Touch.flag (h : Touch A s t) {a : Nat} (ha : ¬ A a) (f : Fd) : t.flag a f = s.flag a f := flag_congr (h.regs a ha) f

theorem Touch.quiet (h : Touch (fun _ => False) s t) : Quiet s t := ⟨fun a => h.regs a id, h.sameMem, h.flash⟩

theorem Touch.foldl {α : Type} (f : State → α → State) (l : List α) (hf : ∀ s, ∀ x ∈ l, Touch A s (f s x)) : ∀ s, Touch A s (l.foldl f s) := by
  induction l with
  | nil => exact fun s => .refl s
  | cons x l ih =>
    intro s
    rw [List.foldl_cons]
    exact (hf s x List.mem_cons_self).trans (ih (fun s y hy => hf s y (List.mem_cons_of_mem _ hy)) _)

end

theorem fget_lt (s : State) (a : Nat) (f : Fd) : s.fget a f < f.size := Nat.mod_lt _ f.size_pos

/-! ### A register for each element of a list -/

/-- Register `r i` takes a function of element `i` of the list and of what it holds. -/
def State.setEach {α : Type} (s : State) (r : Nat → Nat) (g : α → Word → Word) (l : List α) : State :=
  (l.zip (List.range l.length)).foldl (fun s e => s.setReg (r e.2) (g e.1 (s.reg (r e.2)))) s

section
variable {α : Type} (r : Nat → Nat) (g : α → Word → Word)

theorem setEach_concat (s : State) (l : List α) (x : α) :
    s.setEach r g (l ++ [x]) = (s.setEach r g l).setReg (r l.length) (g x ((s.setEach r g l).reg (r l.length))) := by
  have hz : (l ++ [x]).zip (List.range (l ++ [x]).length) = l.zip (List.range l.length) ++ [(x, l.length)] := by
    rw [List.length_append, List.length_singleton, List.range_succ, List.zip_append (by simp)]
    rfl
  rw [State.setEach, hz, List.foldl_append]
  rfl

theorem setEach_touch (s : State) (l : List α) : Touch (fun a => ∃ i, i < l.length ∧ a = r i) s (s.setEach r g l) :=
  Touch.foldl _ _ (fun s e he => .setReg s _ ⟨e.2, List.mem_range.1 (List.of_mem_zip he).2, rfl⟩) s

theorem setEach_ebc (s : State) (l : List α) : (s.setEach r g l).ebc = s.ebc := foldl_same (·.ebc) _ (fun s _ => setReg_ebc s _ _) _ s

variable (hr : ∀ i j, r i = r j → i = j)
include hr

theorem reg_setEach (s : State) (l : List α) (i : Nat) (hi : i < l.length) : (s.setEach r g l).reg (r i) = g l[i] (s.reg (r i)) := by
  induction l using List.reverseRecOn with
  | nil => exact absurd hi (Nat.not_lt_zero _)
  | append_singleton l x ih =>
    rw [setEach_concat]
    by_cases h : i < l.length
    · rw [reg_setReg_other _ _ fun e => absurd (hr _ _ e) h.ne, ih h, List.getElem_append_left h]
    · have hi' : i = l.length := by simp only [List.length_append, List.length_singleton] at hi; omega
      subst hi'
      rw [reg_setReg_same, (setEach_touch r g s l).regs _ fun ⟨j, hj, e⟩ => absurd (hr _ _ e) hj.ne', List.getElem_append_right le_rfl]
      simp

end

end Sys2Proof.Machine

/-! ## Gating, heat and metering (O58) -/

namespace Sys2Proof.Machine
-- One proof at a time, as in Sys2Proof/Laws: each waiting proof would keep a thread and its stack.
set_option Elab.async false

/-! ### The controller's level -/

/-- The registers that a change of L touches. -/
def levelReg (a : Nat) : Prop := a = rEbcStatus ∨ a = rGateNs

theorem gateSettle_fields (s : State) : Touch (· = rGateNs) s s.gateSettle ∧ s.gateSettle.ebc.window = s.ebc.window ∧
    s.gateSettle.ebc.bucket = s.ebc.bucket ∧ s.gateSettle.log = s.log := by
  unfold State.gateSettle
  dsimp only
  split_ifs
  · exact ⟨.of_same rfl rfl rfl, rfl, rfl, rfl⟩
  · exact ⟨(Touch.count (A := (· = rGateNs)) s _ rfl).trans (.of_same rfl rfl rfl), rfl, rfl, rfl⟩

theorem rEbcStatus_ne_rGateNs : rEbcStatus ≠ rGateNs := by decide

/-- L becomes `l`; the fields of EBC_STATUS above it stay, and so do the window, the bucket and the log. -/
theorem setLevel_fields (s : State) {l : Nat} (hl : l < 16) :
    (s.setLevel l).fget rEbcStatus fEbcStatusGateLevel = l ∧ (s.setLevel l).flag rEbcStatus fEbcStatusHot = s.flag rEbcStatus fEbcStatusHot ∧
    Touch levelReg s (s.setLevel l) ∧ (s.setLevel l).ebc.window = s.ebc.window ∧ (s.setLevel l).ebc.bucket = s.ebc.bucket ∧
    (s.setLevel l).log = s.log := by
  by_cases h : s.fget rEbcStatus fEbcStatusGateLevel = l
  · rw [State.setLevel, if_pos h]
    exact ⟨h, rfl, .refl s, rfl, rfl, rfl⟩
  obtain ⟨htouch, hwin, hbucket, hlog⟩ := gateSettle_fields s
  rw [State.setLevel, if_neg h]
  obtain ⟨u, hu⟩ : ∃ u, u = s.gateSettle.fput rEbcStatus fEbcStatusGateLevel l := ⟨_, rfl⟩
  dsimp only
  rw [← hu]
  have hlvl : u.fget rEbcStatus fEbcStatusGateLevel = l :=
    hu ▸ (fget_fput_same _ _ _ _ (by decide) (by decide)).trans (Nat.mod_eq_of_lt hl)
  have hhot : u.fget rEbcStatus fEbcStatusHot = s.fget rEbcStatus fEbcStatusHot :=
    hu ▸ (fget_fput_above _ _ _ _ _ (by decide) (by decide) (by decide) (by decide)).trans (htouch.fget rEbcStatus_ne_rGateNs _)
  have hall : Touch levelReg s u := (htouch.mono fun _ => Or.inr).trans (hu ▸ Touch.fput _ _ _ (Or.inl rfl))
  have hebc : u.ebc = s.gateSettle.ebc := hu ▸ fput_ebc ..
  exact ⟨hlvl, congrArg (· == 1) hhot, hall.trans (.of_same rfl rfl rfl), (congrArg (·.window) hebc).trans hwin, (congrArg (·.bucket) hebc).trans hbucket,
    (hu ▸ fput_log .. : u.log = _).trans hlog⟩

/-- The state in which the window has taken in the bucket that ends. -/
def State.bucketed (s : State) : State :=
  let win := (s.ebc.bucket :: s.ebc.window).take 100
  (({ s with ebc := { s.ebc with window := win, bucket := 0 } } : State).fput rEbcWin fEbcWinWinMj (win.sum / 1000)).gateSettle

/-- The registers of a bucket's end. -/
def bucketReg (a : Nat) : Prop := a = rEbcWin ∨ a = rEbcStatus ∨ a = rGateNs

/-- What a bucket's end leaves beside L. -/
def BucketTaken (s t : State) : Prop :=
  t.ebc.window = (s.ebc.bucket :: s.ebc.window).take 100 ∧ t.ebc.bucket = 0 ∧
  t.fget rEbcWin fEbcWinWinMj = ((s.ebc.bucket :: s.ebc.window).take 100).sum / 1000 % 2 ^ 32 ∧ Touch bucketReg s t

theorem bucketed_fields (s : State) : BucketTaken s s.bucketed ∧
    s.bucketed.fget rEbcStatus fEbcStatusGateLevel = s.fget rEbcStatus fEbcStatusGateLevel := by
  unfold BucketTaken State.bucketed
  extract_lets win
  obtain ⟨s1, hs1⟩ : ∃ s1 : State, s1 = { s with ebc := { s.ebc with window := win, bucket := 0 } } := ⟨_, rfl⟩
  rw [← hs1]
  obtain ⟨htouch, hwin, hbucket, -⟩ := gateSettle_fields (s1.fput rEbcWin fEbcWinWinMj (win.sum / 1000))
  have hs : Touch (· = rEbcWin) s (s1.fput rEbcWin fEbcWinWinMj (win.sum / 1000)) :=
    (Touch.of_same (by rw [hs1]) (by rw [hs1]) (by rw [hs1])).trans (.fput _ _ _ rfl)
  refine ⟨⟨hwin.trans (by rw [fput_ebc, hs1]), hbucket.trans (by rw [fput_ebc, hs1]), ?_,
    (hs.mono fun _ => Or.inl).trans (htouch.mono fun _ h => .inr (.inr h))⟩, ?_⟩
  · rw [htouch.fget (by decide), fget_fput_same _ _ _ _ (by decide) (by decide)]
    rfl
  · rw [htouch.fget (by decide), hs.fget (by decide)]

theorem bucketTaken_setLevel {s : State} {l : Nat} (hl : l < 16) : BucketTaken s (s.bucketed.setLevel l) := by
  obtain ⟨hw, hb, hm, ht⟩ := (bucketed_fields s).1
  obtain ⟨-, -, htouch, hwin, hbucket, -⟩ := setLevel_fields s.bucketed hl
  exact ⟨hwin.trans hw, hbucket.trans hb, (htouch.fget (by unfold levelReg; decide) _).trans hm, ht.trans (htouch.mono fun _ => Or.inr)⟩

theorem bucketTaken_emit {s t : State} {r : EvRec} (h : BucketTaken s t) : BucketTaken s (t.emit r) := by
  obtain ⟨hwin, hbucket, hmj, htouch⟩ := h
  exact ⟨hwin, hbucket, hmj, htouch.trans (.emit t r)⟩

/-- L after the end of a bucket (R391, R393). -/
def State.nextLevel (s : State) : Nat :=
  let uj := ((s.ebc.bucket :: s.ebc.window).take 100).sum
  let l := s.fget rEbcStatus fEbcStatusGateLevel
  if s.heatHeld then 15 else if s.flag rEbcCtl fEbcCtlGateEn = false then 0 else if 105 * (s.effMw * 10) < 100 * uj then min 15 (l + 1)
  else if uj ≤ s.effMw * 10 then l - 1 else l

theorem gatingBucket_taken (s : State) :
    ∃ t, exec .gatingBucket s = .next t ∧ BucketTaken s t ∧ t.fget rEbcStatus fEbcStatusGateLevel = s.nextLevel := by
  have hl : s.fget rEbcStatus fEbcStatusGateLevel < 16 := fget_lt s rEbcStatus fEbcStatusGateLevel
  have hset : ∀ {x}, x < 16 → BucketTaken s (s.bucketed.setLevel x) ∧ (s.bucketed.setLevel x).fget rEbcStatus fEbcStatusGateLevel = x :=
    fun hx => ⟨bucketTaken_setLevel hx, (setLevel_fields _ hx).1⟩
  show ∃ t, execGatingBucket s = .next t ∧ _
  unfold execGatingBucket
  extract_lets win uj old s1 l s2 s3
  rw [State.nextLevel]
  rw [show s3 = s.bucketed.setLevel (min 15 (l + 1)) from rfl, show s2 = s.bucketed from rfl]
  clear s3 s2 s1 old
  by_cases hheat : s.heatHeld = true
  · rw [if_pos hheat, if_pos hheat]
    exact ⟨_, rfl, hset (by decide)⟩
  rw [if_neg hheat, if_neg hheat]
  by_cases hen : s.flag rEbcCtl fEbcCtlGateEn = false
  · rw [if_pos (by rw [hen]; rfl), if_pos hen]
    exact ⟨_, rfl, hset (by decide)⟩
  rw [if_neg (by simpa using hen), if_neg hen]
  change ∃ t, _ = _ ∧ BucketTaken s t ∧ t.fget rEbcStatus fEbcStatusGateLevel = if 105 * (s.effMw * 10) < 100 * uj then min 15 (l + 1)
    else if uj ≤ s.effMw * 10 then l - 1 else l
  clear_value uj
  by_cases hup : 21 * s.effMw * 10 < 20 * uj
  · rw [if_pos hup, if_pos (show 105 * (s.effMw * 10) < 100 * uj by omega)]
    refine ⟨_, rfl, ?_⟩
    split_ifs
    · exact ⟨bucketTaken_emit (hset (by omega)).1, (hset (by omega)).2⟩
    · exact hset (by omega)
  rw [if_neg hup, if_neg (show ¬ 105 * (s.effMw * 10) < 100 * uj by omega)]
  by_cases hdown : uj ≤ s.effMw * 10
  · rw [if_pos hdown, if_pos hdown]
    exact ⟨_, rfl, hset (by omega)⟩
  rw [if_neg hdown, if_neg hdown]
  exact ⟨_, rfl, bucketed_fields s⟩

/-- A level that has reached a hall is applied where a period starts, and else kept there. -/
theorem gateLevelApply_taken {s : State} {h : Fin 8} {n : Nat} (hn : s.ebc.gatePend.getD h.val none = some n) (hlvl : s.ebc.gateLvl.length = 8)
    (hpend : s.ebc.gatePend.length = 8) (hhere : s.ebc.gateHere.length = 8) :
    Runs (.gateLevelApply h) s fun t => (if s.slot % 1024 = 0 then t.ebc.gateLvl.getD h.val 0 = n
      else t.ebc.gateHere.getD h.val none = some n ∧ t.ebc.gateLvl = s.ebc.gateLvl) ∧ t.ebc.gatePend.getD h.val none = none ∧ Quiet s t := by
  obtain ⟨here, hheredef⟩ : ∃ l, l = s.ebc.gateHere.set h.val (some n) := ⟨_, rfl⟩
  obtain ⟨s1, hs1⟩ : ∃ s1 : State, s1 = { s with ebc := { s.ebc with gateHere := here, gatePend := s.ebc.gatePend.set h.val none } } := ⟨_, rfl⟩
  have hrun : exec (.gateLevelApply h) s = .next (if s.slot % 1024 = 0 then s1.gatePeriod else s1) := by
    show execGateLevelApply h s = _
    rw [execGateLevelApply, hn, hs1, hheredef]
  have hget : here.getD h.val none = some n := by simp [hheredef, List.getD, hhere]
  have hpendset : (s.ebc.gatePend.set h.val none).getD h.val none = none := by simp [List.getD, hpend]
  have hlen : here.length = 8 := by rw [hheredef, List.length_set, hhere]
  refine ⟨_, hrun, ?_⟩
  split_ifs with hslot
  · have hany : s1.ebc.gateHere.all Option.isNone = false := by
      rw [hs1, List.all_eq_false]
      exact ⟨some n, by rw [hheredef]; exact List.mem_of_getElem (List.getElem_set_self (by rw [List.length_set, hhere]; exact h.isLt)), by simp⟩
    rw [State.gatePeriod, if_neg (by rw [hany]; decide), hs1]
    refine ⟨?_, hpendset, ⟨fun _ => rfl, fun _ => rfl, rfl⟩⟩
    show (((s.ebc.gateLvl.zip here).map fun e => e.2.getD e.1).getD h.val 0) = n
    have hh : h.val < ((s.ebc.gateLvl.zip here).map fun e => e.2.getD e.1).length := by rw [List.length_map, List.length_zip, hlvl, hlen]; exact h.isLt
    have hh' : here[h.val]'(by rw [hlen]; exact h.isLt) = some n := by
      rw [← hget, List.getD_eq_getElem _ _ (by rw [hlen]; exact h.isLt)]
    rw [List.getD_eq_getElem _ _ hh, List.getElem_map, List.getElem_zip, hh']
    rfl
  · rw [hs1]
    exact ⟨⟨hget, rfl⟩, hpendset, ⟨fun _ => rfl, fun _ => rfl, rfl⟩⟩

/-! ### Sensors -/

theorem rEbcTemp_inj (i j : Nat) (h : rEbcTemp i = rEbcTemp j) : i = j := by unfold rEbcTemp at h; omega

theorem rEbcTemp_ne (i : Nat) : rEbcStatus ≠ rEbcTemp i ∧ rGateNs ≠ rEbcTemp i := by unfold rEbcStatus rGateNs rEbcTemp; omega

/-- A sensor's field as put, read as a signed number. -/
theorem sextNat_sensor (w : Word) (temp : BitVec 16) : sextNat 16 (fEbcTempTemp.get (fEbcTempTemp.put w temp.toNat)) = temp.toInt := by
  rw [Fd.get_put _ _ _ (by decide) (by decide), show fEbcTempTemp.size = 2 ^ 16 from rfl, Nat.mod_eq_of_lt temp.isLt, sextNat,
    BitVec.toInt_eq_toNat_cond, Nat.mod_eq_of_lt temp.isLt]
  have := temp.isLt
  split_ifs <;> omega

theorem sensor_fields (s : State) (i : Fin 21) (temp : BitVec 16) :
    (s.sensor i temp).temp i.val = temp.toInt ∧ Touch (· = rEbcTemp i.val) s (s.sensor i temp) ∧ (s.sensor i temp).log = s.log ∧
    (i.val < 9 → 8 * (s.fget rEbcTempCfg fEbcTempCfgG4C : Int) ≤ temp.toInt → (s.sensor i temp).ebc.g4Hot = true) := by
  have hput : Touch (· = rEbcTemp i.val) s (s.fput (rEbcTemp i.val) fEbcTempTemp temp.toNat) := .fput _ _ _ rfl
  have htemp : (s.fput (rEbcTemp i.val) fEbcTempTemp temp.toNat).temp i.val = temp.toInt := by
    rw [State.temp, State.fget, reg_fput_same, sextNat_sensor]
  unfold State.sensor
  dsimp only
  split_ifs with h
  · exact ⟨htemp, hput.trans (.of_same rfl rfl rfl), rfl, fun _ _ => rfl⟩
  · exact ⟨htemp, hput, rfl, fun hi ht => absurd ⟨hi, ht⟩ h⟩

theorem temp_congr {s t : State} {i : Nat} (h : t.reg (rEbcTemp i) = s.reg (rEbcTemp i)) : t.temp i = s.temp i := by
  rw [State.temp, State.fget, h, State.temp, State.fget]

theorem thermalHot_taken {s : State} {i : Fin 21} {temp : BitVec 16}
    (hlim : (if i.val < 9 then 8 * (s.fget rEbcTempCfg fEbcTempCfgHotC : Int) else 760) ≤ temp.toInt) (hhot : s.flag rEbcStatus fEbcStatusHot = false) :
    Runs (.thermalHot i temp) s fun t => t.flag rEbcStatus fEbcStatusHot = true ∧ t.fget rEbcStatus fEbcStatusGateLevel = 15 ∧
      t.temp i.val = temp.toInt ∧ t.log.arrivals = s.log.arrivals ++ [evr 0x8002 0x14 0 i.val temp.toNat] ∧
      RegsBut (fun a => a = rEbcTemp i.val ∨ a = rEbcStatus ∨ a = rGateNs) s t ∧ SameMem s t := by
  have hcond : ¬ (temp.toInt < (if i.val < 9 then 8 * (s.fget rEbcTempCfg fEbcTempCfgHotC : Int) else 8 * 95) ∨
      s.flag rEbcStatus fEbcStatusHot = true) := fun h => h.elim (fun h => absurd hlim (not_le.2 h)) fun h => absurd (hhot.symm.trans h) (by decide)
  obtain ⟨hsens, htouch, hlog, -⟩ := sensor_fields s i temp
  obtain ⟨u, hu⟩ : ∃ u, u = ((s.sensor i temp).fput rEbcStatus fEbcStatusHot 1).emit (evr 0x8002 0x14 0 i.val temp.toNat) := ⟨_, rfl⟩
  have hrun : exec (.thermalHot i temp) s = .next (u.setLevel 15) := by
    rw [hu]
    exact if_neg hcond
  have hst : Touch (· = rEbcStatus) (s.sensor i temp) u := hu ▸ (Touch.fput (A := (· = rEbcStatus)) _ _ _ rfl).trans (.emit _ _)
  have huhot : u.flag rEbcStatus fEbcStatusHot = true := by rw [hu, emit_flag]; exact flag_fput_same_one _ _ _ rfl (by decide)
  have hulog : u.log.arrivals = s.log.arrivals ++ [evr 0x8002 0x14 0 i.val temp.toNat] := by
    rw [hu, ← hlog]
    rfl
  obtain ⟨hlvl, hhot', hlt, -, -, hl⟩ := setLevel_fields u (l := 15) (by decide)
  have hnot : ¬ levelReg (rEbcTemp i.val) := fun h => h.elim (fun h => (rEbcTemp_ne i.val).1 h.symm) fun h => (rEbcTemp_ne i.val).2 h.symm
  have htemp : (u.setLevel 15).reg (rEbcTemp i.val) = (s.sensor i temp).reg (rEbcTemp i.val) :=
    (hlt.regs _ hnot).trans (hst.regs _ fun h => (rEbcTemp_ne i.val).1 h.symm)
  have hall : Touch (fun a => a = rEbcTemp i.val ∨ a = rEbcStatus ∨ a = rGateNs) s (u.setLevel 15) :=
    (htouch.mono fun _ => Or.inl).trans ((hst.mono fun _ h => .inr (.inl h)).trans (hlt.mono fun _ => Or.inr))
  exact ⟨_, hrun, hhot'.trans huhot, hlvl, (temp_congr htemp).trans hsens, (congrArg (·.arrivals) hl).trans hulog, hall.regs, hall.sameMem⟩

theorem sensorAtG4C_taken {s : State} {i : Fin 21} {temp : BitVec 16} (hi : i.val < 9)
    (ht : 8 * (s.fget rEbcTempCfg fEbcTempCfgG4C : Int) ≤ temp.toInt) :
    Runs (.sensorAtG4C i temp) s fun t => t.ebc.g4Hot = true ∧ t.g4Ok = false ∧ t.temp i.val = temp.toInt ∧
      RegsBut (· = rEbcTemp i.val) s t ∧ SameMem s t := by
  obtain ⟨hsens, htouch, -, hhot⟩ := sensor_fields s i temp
  have h4 := hhot hi ht
  exact ⟨_, rfl, h4, by simp [State.g4Ok, h4], hsens, htouch.regs, htouch.sameMem⟩

theorem throttleAssert_taken (s : State) :
    Runs .throttleAssert s fun t => t.flag rModPins fModPinsThrottle = true ∧ t.heatHeld = true ∧ t.fget rEbcStatus fEbcStatusGateLevel = 15 ∧
      RegsBut (fun a => a = rModPins ∨ a = rEbcStatus ∨ a = rGateNs) s t ∧ SameMem s t := by
  obtain ⟨u, hu⟩ : ∃ u, u = s.fput rModPins fModPinsThrottle 1 := ⟨_, rfl⟩
  have huflag : u.flag rModPins fModPinsThrottle = true := hu ▸ flag_fput_same_one _ _ _ rfl (by decide)
  obtain ⟨hlvl, -, htouch, -⟩ := setLevel_fields u (l := 15) (by decide)
  have hflag : (u.setLevel 15).flag rModPins fModPinsThrottle = true := (htouch.flag (by unfold levelReg; decide) _).trans huflag
  have hall : Touch (fun a => a = rModPins ∨ a = rEbcStatus ∨ a = rGateNs) s (u.setLevel 15) :=
    (hu ▸ Touch.fput s _ _ (Or.inl rfl)).trans (htouch.mono fun _ => Or.inr)
  exact ⟨u.setLevel 15, by rw [hu]; rfl, hflag, by rw [State.heatHeld, hflag, Bool.or_true], hlvl, hall.regs, hall.sameMem⟩

/-! ### A sample -/

theorem countEach_eq (s : State) (r : Nat → Nat) (l : List Nat) : s.countEach r l = s.setEach r (fun n w => w + BitVec.ofNat 64 n) l := rfl

theorem rHallJ_inj (i j : Nat) (h : rHallJ i = rHallJ j) : i = j := by unfold rHallJ at h; omega

theorem rStackJ_inj (i j : Nat) (h : rStackJ i = rStackJ j) : i = j := by unfold rStackJ at h; omega

/-- The counter of a hall in the sample's order of addresses. -/
theorem rHallJ_in {i : Nat} (hi : i < 8) : rModJ < rHallJ i ∧ rHallJ i < rStackJ 0 := by unfold rModJ rHallJ rStackJ; omega

theorem rStackJ_in {k : Nat} (hk : k < 12) : rStackJ 0 ≤ rStackJ k ∧ rStackJ k < rLinkJ := by unfold rStackJ rLinkJ; omega

/-- The addresses of the joule counters that a block has no part in. -/
theorem joule_addrs : rModJ < rStackJ 0 ∧ rStackJ 0 < rLinkJ ∧ rLinkJ < rFrontJ ∧ rFrontJ < rHeadraceJ ∧ rHeadraceJ < rOtherJ := by
  unfold rModJ rStackJ rLinkJ rFrontJ rHeadraceJ rOtherJ
  omega

/-- The counters of the blocks, and the module's, after a sample. -/
def State.jouled (s : State) (e : EnergySample) : State :=
  ((((((s.count rModJ e.mod).countEach rHallJ (e.hallUj.take 8)).countEach rStackJ (e.stackUj.take 12)).count rLinkJ e.links).count rFrontJ e.front).count
    rHeadraceJ e.headrace)

theorem jouled_fields (s : State) (e : EnergySample) (h8 : e.hallUj.length = 8) (h12 : e.stackUj.length = 12) :
    (s.jouled e).reg rModJ = s.reg rModJ + BitVec.ofNat 64 e.mod ∧
    (∀ h : Fin 8, (s.jouled e).reg (rHallJ h.val) = s.reg (rHallJ h.val) + BitVec.ofNat 64 (e.hallUj.getD h.val 0)) ∧
    (∀ k : Fin 12, (s.jouled e).reg (rStackJ k.val) = s.reg (rStackJ k.val) + BitVec.ofNat 64 (e.stackUj.getD k.val 0)) ∧
    Touch (fun a => rModJ ≤ a ∧ a < rOtherJ) s (s.jouled e) := by
  obtain ⟨hms, hsl, hlf, hfh, hho⟩ := joule_addrs
  rw [State.jouled, countEach_eq, countEach_eq, List.take_of_length_le h8.le, List.take_of_length_le h12.le]
  obtain ⟨s1, hs1⟩ : ∃ s1, s1 = s.count rModJ e.mod := ⟨_, rfl⟩
  obtain ⟨s2, hs2⟩ : ∃ s2, s2 = s1.setEach rHallJ (fun n w => w + BitVec.ofNat 64 n) e.hallUj := ⟨_, rfl⟩
  obtain ⟨s3, hs3⟩ : ∃ s3, s3 = s2.setEach rStackJ (fun n w => w + BitVec.ofNat 64 n) e.stackUj := ⟨_, rfl⟩
  rw [← hs1, ← hs2, ← hs3]
  have h1 : Touch (· = rModJ) s s1 := hs1 ▸ .count s _ rfl
  have h2 : Touch (fun a => rModJ < a ∧ a < rStackJ 0) s1 s2 := by
    rw [hs2]
    exact (setEach_touch _ _ s1 e.hallUj).mono fun a ⟨i, hi, ha⟩ => ha ▸ rHallJ_in (h8 ▸ hi)
  have h3 : Touch (fun a => rStackJ 0 ≤ a ∧ a < rLinkJ) s2 s3 := by
    rw [hs3]
    exact (setEach_touch _ _ s2 e.stackUj).mono fun a ⟨i, hi, ha⟩ => ha ▸ rStackJ_in (h12 ▸ hi)
  have h4 : Touch (fun a => rLinkJ ≤ a ∧ a < rOtherJ) s3 (((s3.count rLinkJ e.links).count rFrontJ e.front).count rHeadraceJ e.headrace) :=
    (Touch.count _ _ ⟨le_rfl, by omega⟩).trans ((Touch.count _ _ ⟨by omega, by omega⟩).trans (.count _ _ ⟨by omega, by omega⟩))
  refine ⟨?_, fun h => ?_, fun k => ?_, ?_⟩
  · rw [h4.regs _ (by omega), h3.regs _ (by omega), h2.regs _ (by omega), hs1, reg_count_same]
  · obtain ⟨hlo, hhi⟩ := rHallJ_in h.isLt
    rw [h4.regs _ (by omega), h3.regs _ (by omega), hs2, reg_setEach _ _ rHallJ_inj s1 _ h.val (by rw [h8]; exact h.isLt), h1.regs _ (by omega),
      List.getD_eq_getElem]
  · obtain ⟨hlo, hhi⟩ := rStackJ_in k.isLt
    rw [h4.regs _ (by omega), hs3, reg_setEach _ _ rStackJ_inj s2 _ k.val (by rw [h12]; exact k.isLt), h2.regs _ (by omega), h1.regs _ (by omega),
      List.getD_eq_getElem]
  · exact (h1.mono fun _ h => ⟨h.ge, by omega⟩).trans ((h2.mono fun _ h => ⟨h.1.le, by omega⟩).trans
      ((h3.mono fun _ h => ⟨by omega, by omega⟩).trans (h4.mono fun _ h => ⟨by omega, h.2⟩)))

theorem sample_addrs (i : Nat) : rOtherJ < rEbcTemp i ∧ rEbcIn < rModJ := by unfold rOtherJ rEbcTemp rEbcIn rModJ; omega

/-- A sample: the counters, the input and the sensors. -/
theorem energySample_taken {s : State} (e : EnergySample) (h : Fin 8) (i : Fin 21) (h8 : e.hallUj.length = 8) (h12 : e.stackUj.length = 12)
    (h21 : e.temps.length = 21) : Runs (.energySample e) s fun t =>
      t.reg rModJ = s.reg rModJ + BitVec.ofNat 64 e.mod ∧ t.reg (rHallJ h.val) = s.reg (rHallJ h.val) + BitVec.ofNat 64 (e.hallUj.getD h.val 0) ∧
      (∀ k : Fin 12, t.reg (rStackJ k.val) = s.reg (rStackJ k.val) + BitVec.ofNat 64 (e.stackUj.getD k.val 0)) ∧
      t.reg rOtherJ + BitVec.ofNat 64 (e.hallUj.sum + e.stackUj.sum + e.links + e.front + e.headrace) = s.reg rOtherJ + BitVec.ofNat 64 e.mod ∧
      t.temp i.val = (e.temps.getD i.val 0).toInt ∧ t.fget rEbcIn fEbcInVinMv = e.vinMv.toNat ∧ t.fget rEbcIn fEbcInIinMa = e.iinMa.toNat ∧
      t.ebc.bucket = s.ebc.bucket + e.mod ∧
      RegsBut (fun a => rModJ ≤ a ∧ a ≤ rOtherJ ∨ a = rEbcIn ∨ ∃ k : Fin 21, a = rEbcTemp k.val) s t ∧ SameMem s t := by
  obtain ⟨hmod, hhall, hstack, hj⟩ := jouled_fields s e h8 h12
  obtain ⟨hms, hsl, hlf, hfh, hho⟩ := joule_addrs
  obtain ⟨u, hu⟩ : ∃ u, u = s.jouled e := ⟨_, rfl⟩
  rw [← hu] at hmod hhall hstack hj
  obtain ⟨v, hv⟩ : ∃ v : Word, v = u.reg rOtherJ + BitVec.ofNat 64 e.mod -
    BitVec.ofNat 64 (e.hallUj.sum + e.stackUj.sum + e.links + e.front + e.headrace) := ⟨_, rfl⟩
  obtain ⟨x, hx⟩ : ∃ x, x = (u.setReg rOtherJ v).setEach rEbcTemp (fun t w => fEbcTempTemp.put w (BitVec.toNat t)) e.temps := ⟨_, rfl⟩
  have hfold : ((e.temps.take 21).zip (List.range 21)).foldl (fun s t => s.fput (rEbcTemp t.2) fEbcTempTemp t.1.toNat) (u.setReg rOtherJ v) = x := by
    rw [hx, List.take_of_length_le h21.le, State.setEach, h21]
    rfl
  obtain ⟨y, hy⟩ : ∃ y, y = (x.fput rEbcIn fEbcInVinMv e.vinMv.toNat).fput rEbcIn fEbcInIinMa e.iinMa.toNat := ⟨_, rfl⟩
  have hrun : ∃ eb : EbcS, exec (.energySample e) s = .next { y with ebc := eb } ∧ eb.bucket = s.ebc.bucket + e.mod := by
    show ∃ eb, execEnergySample e s = _ ∧ _
    unfold execEnergySample
    dsimp only
    rw [← State.jouled, ← hu, List.take_of_length_le h8.le, List.take_of_length_le h12.le, ← hv, hfold, ← hy]
    exact ⟨_, rfl, rfl⟩
  obtain ⟨eb, hrun, hbucket⟩ := hrun
  have hset : Touch (· = rOtherJ) u (u.setReg rOtherJ v) := .setReg _ _ rfl
  have htemps : Touch (fun a => ∃ i : Fin 21, a = rEbcTemp i.val) (u.setReg rOtherJ v) x := by
    rw [hx]
    exact (setEach_touch _ _ _ e.temps).mono fun a ⟨j, hj, ha⟩ => ⟨⟨j, h21 ▸ hj⟩, ha⟩
  have hin : Touch (· = rEbcIn) x y := hy ▸ (Touch.fput (A := (· = rEbcIn)) _ _ _ rfl).trans (.fput _ _ _ rfl)
  have hlow : ∀ a, rModJ ≤ a → a < rOtherJ → y.reg a = u.reg a := fun a ha hb => by
    rw [hin.regs a (by have := (sample_addrs 0).2; omega), htemps.regs a fun ⟨j, hj⟩ => by have := (sample_addrs j.val).1; omega, hset.regs a hb.ne]
  have hother : y.reg rOtherJ = v := by
    rw [hin.regs _ (by decide), htemps.regs _ fun ⟨j, hj⟩ => by have := (sample_addrs j.val).1; omega, reg_setReg_same]
  have htemp : y.temp i.val = (e.temps.getD i.val 0).toInt := by
    have hi : i.val < e.temps.length := by rw [h21]; exact i.isLt
    rw [temp_congr (hin.regs _ (by have := sample_addrs i.val; omega)), State.temp, State.fget, hx, reg_setEach _ _ rEbcTemp_inj _ _ _ hi, sextNat_sensor,
      List.getD_eq_getElem _ _ hi]
  have hvin : y.fget rEbcIn fEbcInVinMv = e.vinMv.toNat := by
    rw [hy, fget_fput_below _ _ _ _ _ (by decide) (by decide) (by decide) (by decide), fget_fput_same _ _ _ _ (by decide) (by decide)]
    exact Nat.mod_eq_of_lt e.vinMv.isLt
  have hiin : y.fget rEbcIn fEbcInIinMa = e.iinMa.toNat := by
    rw [hy, fget_fput_same _ _ _ _ (by decide) (by decide)]
    exact Nat.mod_eq_of_lt e.iinMa.isLt
  have hall : Touch (fun a => rModJ ≤ a ∧ a ≤ rOtherJ ∨ a = rEbcIn ∨ ∃ k : Fin 21, a = rEbcTemp k.val) s y :=
    (hj.mono fun _ h => .inl ⟨h.1, h.2.le⟩).trans ((hset.mono fun _ h => .inl (by rw [h]; omega)).trans
      ((htemps.mono fun _ h => .inr (.inr h)).trans (hin.mono fun _ h => .inr (.inl h))))
  obtain ⟨hhlo, hhhi⟩ := rHallJ_in h.isLt
  refine ⟨_, hrun, (hlow _ le_rfl (by omega)).trans hmod, (hlow _ hhlo.le (by omega)).trans (hhall h), fun k => ?_, ?_, htemp, hvin, hiin, hbucket,
    hall.regs, hall.sameMem⟩
  · obtain ⟨hlo, hhi⟩ := rStackJ_in k.isLt
    exact (hlow _ (by omega) (by omega)).trans (hstack k)
  · show y.reg rOtherJ + _ = _
    rw [hother, hv, hj.regs _ (by omega), BitVec.sub_add_cancel]

/-- Settles O58: each event of the energy budget controller ends in `setLevel`, in a sensor's field or in counters, and the lemmas above say what each
of these leaves. -/
theorem energyAndHeat : Obligations.EnergyAndHeat := by
  unfold Obligations.EnergyAndHeat
  intro s h i temp
  refine ⟨?_, fun n hn hl hp hh => gateLevelApply_taken hn hl hp hh, thermalHot_taken, fun hc => ?_, fun hc => ?_, sensorAtG4C_taken, throttleAssert_taken s, ?_,
    fun e h8 h12 h21 => energySample_taken e h i h8 h12 h21, fun vin iin high => ⟨fun hex hout => ?_, fun hex => ?_⟩⟩
  · obtain ⟨t, hrun, ⟨hwin, hbucket, hmj, htouch⟩, hlevel⟩ := gatingBucket_taken s
    exact ⟨t, hrun, hwin, hbucket, hmj, hlevel, htouch.regs, htouch.sameMem⟩
  · have htouch : Touch (· = rEbcStatus) s (s.fput rEbcStatus fEbcStatusHot 0) := .fput _ _ _ rfl
    exact ⟨_, congrArg Host.Outcome.next (if_pos hc), flag_fput_same_zero _ _ _ (by decide) (by decide), htouch.regs, htouch.sameMem⟩
  · exact congrArg Host.Outcome.next (if_neg (by rw [hc]; decide))
  · have htouch : Touch (· = rModPins) s (s.fput rModPins fModPinsThrottle 0) := .fput _ _ _ rfl
    exact ⟨_, rfl, flag_fput_same_zero _ _ _ (by decide) (by decide), htouch.regs, htouch.sameMem⟩
  · have hcond : ¬ ((!(if high then decide (54000 < vin.toNat) else decide (vin.toNat < 46000))) = true ∨ s.ebc.excursion = true) := by
      rintro (h | h)
      · cases high <;> simp_all
      · exact absurd (hex.symm.trans h) (by decide)
    exact ⟨{ s.emit (evr 0x8004 0x14 0 vin.toNat iin.toNat (bton high)) with ebc := { s.ebc with excursion := true } }, if_neg hcond, rfl, rfl,
      (Touch.of_same rfl rfl rfl : Touch (fun _ => False) s _).quiet⟩
  · exact if_pos (Or.inr hex)

end Sys2Proof.Machine

/-! ## Register writes with an effect of their own (O56) -/

namespace Sys2Proof.Machine
-- One proof at a time, as in Sys2Proof/Laws: each waiting proof would keep a thread and its stack.
set_option Elab.async false

/-! ### Bits and ranges -/

theorem bitN_toNat (v : Word) (i : Nat) : bitN v.toNat i = v.getLsbD i := by
  rw [← BitVec.testBit_toNat, Nat.testBit_eq_decide_div_mod_eq, bitN]
  rfl

theorem bitsN_toNat (v : Word) (hi lo : Nat) : bitsN v.toNat hi lo = (⟨hi, lo⟩ : Fd).get v := rfl

theorem fd_get_bit (v : Word) (i : Nat) : (⟨i, i⟩ : Fd).get v = bton (v.getLsbD i) := by
  rw [← bitN_toNat, bitN, bton, Fd.get, Fd.size, Nat.add_sub_cancel_left]
  have : v.toNat / 2 ^ i % 2 < 2 := Nat.mod_lt _ (by decide)
  by_cases h : v.toNat / 2 ^ i % 2 = 1
  · simp [h]
  · simp [show v.toNat / 2 ^ i % 2 = 0 by omega]

theorem reg_resetRegs (s : State) (keep : Nat → Bool) (a : Nat) : (s.resetRegs keep).reg a = if keep a then s.reg a else regReset a :=
  sget_filter regReset keep s.regs a

theorem reg_zeroRange_in (s : State) {lo hi a : Nat} (h1 : lo ≤ a) (h2 : a < hi) : (s.zeroRange lo hi).reg a = regReset a := by
  rw [State.zeroRange, reg_resetRegs, if_neg (by simp [h1, h2])]

theorem reg_zeroRange_out (s : State) {lo hi a : Nat} (h : ¬ (lo ≤ a ∧ a < hi)) : (s.zeroRange lo hi).reg a = s.reg a := by
  rw [State.zeroRange, reg_resetRegs, if_pos (by simp; omega)]

theorem Touch.zeroRange {A : Nat → Prop} (s : State) {lo hi : Nat} (h : ∀ a, lo ≤ a → a < hi → A a) : Touch A s (s.zeroRange lo hi) :=
  ⟨fun a ha => reg_zeroRange_out s fun c => ha (h a c.1 c.2), rfl, rfl⟩

/-! ### Invalidations -/

/-- Entries dropped from the translation caches of the cores listed. -/
theorem tlb_foldl_filter (p : Nat × Nat × Word → Bool) (d : CoreId) (l : List CoreId) : ∀ s : State,
    ((l.foldl (fun s c => s.modCore c fun x => { x with tlb := x.tlb.filter p }) s).core d).tlb =
      if d ∈ l then (s.core d).tlb.filter p else (s.core d).tlb := by
  induction l with
  | nil => exact fun s => rfl
  | cons c l ih =>
    intro s
    rw [List.foldl_cons, ih]
    by_cases hd : d = c
    · subst hd
      simp [core_modCore_same, List.filter_filter]
    · simp [hd, core_modCore_other s _ hd]

theorem invalDone_taken {s : State} {k : Nat} {p : Option Nat} {rest : List (Nat × Option Nat)} (h : s.inval = (k, p) :: rest) (hold : s.oldOut k p = false) :
    Runs .trInvalDone s fun t => t.inval = rest ∧ Quiet s t ∧
      ∀ d : CoreId, (t.core d).tlb = (s.core d).tlb.filter fun e => !(e.1 == k && (p == none || p == some e.2.1)) := by
  obtain ⟨hit, hrun, hhit⟩ : ∃ hit : Nat × Nat × Word → Bool,
      exec .trInvalDone s = .next { s.listed.foldl (fun s c => s.modCore c fun x => { x with tlb := x.tlb.filter fun e => !(hit e) }) s with inval := rest } ∧
      ∀ e, hit e = (e.1 == k && (p == none || p == some e.2.1)) := by
    show ∃ hit : Nat × Nat × Word → Bool, execTrInvalDone s = _ ∧ _
    rw [execTrInvalDone, h]
    dsimp only
    rw [hold, if_neg (by decide)]
    refine ⟨_, rfl, fun e => ?_⟩
    cases p with
    | none => simp
    | some v => simp [Bool.beq_comm (a := e.2.1)]
  obtain ⟨u, hu⟩ : ∃ u, u = s.listed.foldl (fun s c => s.modCore c fun x => { x with tlb := x.tlb.filter fun e => !(hit e) }) s := ⟨_, rfl⟩
  rw [← hu] at hrun
  have hregs : u.regs = s.regs := hu ▸ foldl_same State.regs _ (fun s c => modCore_regs s c _) _ s
  have hmem : u.mem = s.mem := hu ▸ foldl_same State.mem _ (fun s c => modCore_mem s c _) _ s
  have hflash : u.flash = s.flash := hu ▸ foldl_same State.flash _ (fun s c => modCore_flash s c _) _ s
  refine ⟨_, hrun, rfl, (Touch.of_same hregs hmem hflash : Touch (fun _ => False) s _).quiet, fun d => ?_⟩
  show (u.core d).tlb = _
  simp only [← hhit]
  rw [hu, tlb_foldl_filter]
  by_cases hd : d ∈ s.listed
  · rw [if_pos hd]
  · have hfresh : s.core d = CoreS.fresh := by
      by_contra hne
      obtain ⟨e, he, hed⟩ := core_listed hne
      exact hd (List.mem_map.2 ⟨e, he, hed⟩)
    rw [if_neg hd, hfresh]
    rfl

/-! ### Stream entries -/

theorem strmEntry_open {r : Requester} {c : CoreId} {s : State} (hr : mayWrite r = true) (hb : s.built c.hall.val = true) (hh : s.isHole c = false)
    (hrun : s.run c = false) (e : BitVec 6) (second : Bool) (v : Word) :
    exec (.strmEntryWrite r c e second v) s =
      .next (if second then s.progressWrite c e.toNat (2 ^ 64 - 1) v.toNat else s.entryWrite c e.toNat (2 ^ 64 - 1) v.toNat) := by
  have hopen : s.coreOpen c 0x210100 (regDesc (coreBase c + 0x210100)) = true := by
    unfold State.coreOpen
    rw [hb, hh, hrun, Bool.false_and]
    rfl
  exact if_neg (by rw [hr, hopen]; decide)

theorem strmEntry_first {r : Requester} {c : CoreId} {s t : State} (hr : mayWrite r = true) (hb : s.built c.hall.val = true) (hh : s.isHole c = false)
    (hrun : s.run c = false) {e : BitVec 6} {v : Word} (ht : s.entryWrite c e.toNat (2 ^ 64 - 1) v.toNat = t) :
    exec (.strmEntryWrite r c e false v) s = .next t := by
  rw [strmEntry_open hr hb hh hrun, if_neg (by decide), ht]

theorem word_or_full (w v : Word) : BitVec.ofNat 64 ((w.toNat &&& (2 ^ 64 - 1 - (2 ^ 64 - 1))) ||| (v.toNat &&& (2 ^ 64 - 1))) = v := by
  rw [Nat.sub_self, Nat.and_zero, Nat.zero_or, Nat.and_two_pow_sub_one_eq_mod, Nat.mod_eq_of_lt v.isLt, BitVec.ofNat_toNat, BitVec.setWidth_eq]

theorem progressWrite_writes {s : State} {c : CoreId} {e : Nat} (he : e < (s.core c).descs.length) (v : Word) :
    WritesReg (rStrmProgress c e) v s (s.progressWrite c e (2 ^ 64 - 1) v.toNat) := by
  have heq : s.progressWrite c e (2 ^ 64 - 1) v.toNat = s.setReg (rStrmProgress c e) v := by
    rw [State.progressWrite, if_neg (not_le.2 he), word_or_full]
  rw [heq]
  have htouch : Touch (· = rStrmProgress c e) s (s.setReg (rStrmProgress c e) v) := .setReg _ _ rfl
  exact ⟨reg_setReg_same .., htouch.regs, htouch.sameMem⟩

theorem bitN_full {i : Nat} (h : i < 64) : bitN (2 ^ 64 - 1) i = true := by
  interval_cases i <;> decide

/-- A whole write of a live entry: VALID = 0 takes it away; one that has not started takes the written fields. -/
theorem entryWrite_live {s : State} {c : CoreId} {e : Nat} (he : e < (s.core c).descs.length) (v : Word) :
    (v.getLsbD 63 = false → s.entryWrite c e (2 ^ 64 - 1) v.toNat = s.dropDesc c e) ∧
    (v.getLsbD 63 = true → s.fget (rStrmEntry c e) fStrmEntryPhase ≠ 0 → s.entryWrite c e (2 ^ 64 - 1) v.toNat = s) ∧
    (v.getLsbD 63 = true → s.fget (rStrmEntry c e) fStrmEntryPhase = 0 → s.entryWrite c e (2 ^ 64 - 1) v.toNat =
      ((s.fput (rStrmEntry c e) fStrmEntryDescIdx (fStrmEntryDescIdx.get v)).fput (rStrmEntry c e) fStrmEntryDesc (fStrmEntryDesc.get v)).fput
        (rStrmEntry c e) fStrmEntryPhase (min (v.toNat / 2 ^ 61 % 4) 2)) := by
  unfold State.entryWrite
  dsimp only
  rw [if_neg (not_le.2 he), bitN_toNat, bitN_full (by decide), bitN_full (by decide)]
  refine ⟨fun h => if_pos (by rw [h]; rfl), fun h hp => ?_, fun h hp => ?_⟩
  · rw [if_neg (by rw [h]; decide), if_pos hp]
  · rw [if_neg (by rw [h]; decide), if_neg (not_not.2 hp), if_pos rfl]
    have hidx : (s.fget (rStrmEntry c e) fStrmEntryDescIdx &&& (0x7FFF - bitsN (2 ^ 64 - 1) 20 6)) ||| (bitsN v.toNat 20 6 &&& bitsN (2 ^ 64 - 1) 20 6) =
        fStrmEntryDescIdx.get v := by
      rw [show bitsN (2 ^ 64 - 1) 20 6 = 2 ^ 15 - 1 by decide, show (0x7FFF - (2 ^ 15 - 1) : Nat) = 0 from rfl, Nat.and_zero, Nat.zero_or,
        Nat.and_two_pow_sub_one_eq_mod]
      exact Nat.mod_eq_of_lt (Nat.mod_lt _ (by decide))
    rw [hidx]
    rfl

/-- The fields that a write leaves in an entry that has not started. -/
theorem entryPut_fields (s : State) (a idx ph : Nat) (b : Bool) (hidx : idx < 2 ^ 15) (hph : ph < 4) :
    let t := ((s.fput a fStrmEntryDescIdx idx).fput a fStrmEntryDesc (bton b)).fput a fStrmEntryPhase ph
    t.fget a fStrmEntryDescIdx = idx ∧ t.fget a fStrmEntryDesc = bton b ∧ t.fget a fStrmEntryPhase = ph ∧ Touch (· = a) s t := by
  refine ⟨?_, ?_, ?_, (Touch.fput (A := (· = a)) _ _ _ rfl).trans ((Touch.fput (A := (· = a)) _ _ _ rfl).trans (.fput _ _ _ rfl))⟩
  · rw [fget_fput_below _ _ _ _ _ (by decide) (by decide) (by decide) (by decide), fget_fput_below _ _ _ _ _ (by decide) (by decide) (by decide) (by decide),
      fget_fput_same _ _ _ _ (by decide) (by decide)]
    exact Nat.mod_eq_of_lt hidx
  · rw [fget_fput_below _ _ _ _ _ (by decide) (by decide) (by decide) (by decide), fget_fput_same _ _ _ _ (by decide) (by decide)]
    exact Nat.mod_eq_of_lt (by cases b <;> decide)
  · rw [fget_fput_same _ _ _ _ (by decide) (by decide)]
    exact Nat.mod_eq_of_lt hph

/-! ### Counter blocks -/

/-- The registers of a core's counter block. -/
def cntReg (c : CoreId) (a : Nat) : Prop := rCntCtl c ≤ a ∧ a < coreBase c + 0x300298

theorem settleReg_cntReg {c : CoreId} {a : Nat} (h : settleReg c a) : cntReg c a := by
  unfold settleReg rHaltCnt rArrNoworkCnt rVecNoworkCnt rStrmNoworkCnt at h
  unfold cntReg rCntCtl
  omega

theorem settle_touch (s : State) (c : CoreId) : (∀ a, ¬ settleReg c a → (s.settle c).reg a = s.reg a) ∧ (s.settle c).mem = s.mem :=
  ⟨fun _ h => reg_settle_outside s c h, settle_mem s c⟩

/-- The counters that CLEAR zeroes read zero after reset. -/
theorem regReset_cnt (c : CoreId) {o : Nat} (ho : o < 2 ^ 22) (hz : ((findDesc coreTable o).map RegDesc.reset).getD 0 = 0) : regReset (coreBase c + o) = 0 := by
  rw [regReset_eq, regDesc_core c ho, hz]

theorem cntCtlWrite_fields (s : State) (c : CoreId) (v : Word) :
    (s.cntCtlWrite c (2 ^ 64 - 1) v.toNat).flag (rCntCtl c) fCntCtlFreeze = v.getLsbD 1 ∧
    (v.getLsbD 0 = true → ∀ o, (0x300008 ≤ o ∧ o < 0x300018) ∨ (0x300080 ≤ o ∧ o < 0x300298) →
      (s.cntCtlWrite c (2 ^ 64 - 1) v.toNat).reg (coreBase c + o) = regReset (coreBase c + o)) ∧
    RegsBut (cntReg c) s (s.cntCtlWrite c (2 ^ 64 - 1) v.toNat) ∧ SameMem s (s.cntCtlWrite c (2 ^ 64 - 1) v.toNat) := by
  obtain ⟨hsettle, hsmem⟩ := settle_touch s c
  obtain ⟨u, hu⟩ : ∃ u, u = (s.settle c).fput (rCntCtl c) fCntCtlFreeze (bitsN v.toNat 1 1) := ⟨_, rfl⟩
  have hfreeze : u.flag (rCntCtl c) fCntCtlFreeze = v.getLsbD 1 := by
    rw [hu, State.flag, fget_fput_same _ _ _ _ (by decide) (by decide), bitsN_toNat, fd_get_bit]
    cases v.getLsbD 1 <;> rfl
  have huregs : RegsBut (cntReg c) s u := fun a ha => by
    rw [hu, reg_fput_other _ _ _ (fun e => ha (by rw [e]; unfold cntReg rCntCtl; omega)), hsettle a fun h => ha (settleReg_cntReg h)]
  have humem : u.mem = s.mem := by rw [hu, fput_mem, hsmem]
  obtain ⟨w, hw⟩ : ∃ w, w = (u.zeroRange (coreBase c + 0x300008) (coreBase c + 0x300018)).zeroRange (coreBase c + 0x300080) (coreBase c + 0x300298) := ⟨_, rfl⟩
  have heq : s.cntCtlWrite c (2 ^ 64 - 1) v.toNat = if v.getLsbD 0 = true then w else u := by
    rw [State.cntCtlWrite, bitN_full (by decide), bitN_full (by decide), if_pos rfl, bitN_toNat, Bool.true_and, ← hu, ← hw]
  have hwz : Touch (fun a => coreBase c + 0x300008 ≤ a ∧ a < coreBase c + 0x300298) u w := by
    rw [hw]
    exact (Touch.zeroRange _ fun a h1 h2 => ⟨h1, by omega⟩).trans (Touch.zeroRange _ fun a h1 h2 => ⟨by omega, h2⟩)
  rw [heq]
  split_ifs with h0
  · refine ⟨(hwz.flag (by unfold rCntCtl; omega) _).trans hfreeze, fun _ o ho => ?_, fun a ha => (hwz.regs a fun h => ha ?_).trans (huregs a ha), ?_⟩
    · rw [hw]
      by_cases hhi : 0x300080 ≤ o
      · exact reg_zeroRange_in _ (by omega) (by omega)
      · rw [reg_zeroRange_out _ (by omega), reg_zeroRange_in _ (by omega) (by omega)]
    · unfold cntReg rCntCtl
      omega
    · exact fun a => rdB_congr (hwz.mem.trans humem) a
  · exact ⟨hfreeze, fun h => absurd h h0, huregs, fun a => rdB_congr humem a⟩

theorem cntCtlClear_taken {s : State} {r : Requester} {c : CoreId} (hr : mayWrite r = true) (hb : s.built c.hall.val = true) (v : Word) :
    Runs (.cntCtlClear r c v) s fun t => t.flag (rCntCtl c) fCntCtlFreeze = v.getLsbD 1 ∧
      (v.getLsbD 0 = true → t.reg (rIssueCnt c) = 0 ∧ t.reg (rHaltCnt c) = 0 ∧ (∀ i < 16, t.reg (rStallCnt c i) = 0) ∧ t.reg (rArrNoworkCnt c) = 0 ∧
        t.reg (rVecNoworkCnt c) = 0 ∧ t.reg (rStrmNoworkCnt c) = 0) ∧
      RegsBut (fun a => rCntCtl c ≤ a ∧ a < coreBase c + 0x300298) s t ∧ SameMem s t := by
  obtain ⟨hfreeze, hzero, hregs, hmem⟩ := cntCtlWrite_fields s c v
  refine ⟨_, congrArg Host.Outcome.next (if_pos (by rw [hr, hb]; rfl)), hfreeze, fun h0 => ?_, hregs, hmem⟩
  have hz : ∀ o, (0x300008 ≤ o ∧ o < 0x300018) ∨ (0x300080 ≤ o ∧ o < 0x300298) → ((findDesc coreTable o).map RegDesc.reset).getD 0 = 0 →
      (s.cntCtlWrite c (2 ^ 64 - 1) v.toNat).reg (coreBase c + o) = 0 := fun o ho hd => (hzero h0 o ho).trans (regReset_cnt c (by omega) hd)
  have hstall : ∀ i < 16, ((findDesc coreTable (0x300080 + 8 * i)).map RegDesc.reset).getD 0 = 0 := by decide +kernel
  refine ⟨hz 0x300008 (by decide) (by decide +kernel), hz 0x300010 (by decide) (by decide +kernel), fun i hi => ?_, hz 0x300280 (by decide) (by decide +kernel),
    hz 0x300288 (by decide) (by decide +kernel), hz 0x300290 (by decide) (by decide +kernel)⟩
  rw [rStallCnt, Nat.add_assoc]
  exact hz _ (by omega) (hstall i hi)

theorem blockClear_fields {s : State} {a n : Nat} (h : ctlSpan a = some n) :
    (∀ b, a - n ≤ b → b < a → (s.blockClear a).reg b = regReset b) ∧ RegsBut (fun b => a - n ≤ b ∧ b < a) s (s.blockClear a) ∧
    SameMem s (s.blockClear a) := by
  obtain ⟨u, hu⟩ : ∃ u, u = (if a = rEbcCntCtl then s.gateSettle else s).zeroRange (a - n) a := ⟨_, rfl⟩
  have hsettle : Touch (fun b => a - n ≤ b ∧ b < a) s (if a = rEbcCntCtl then s.gateSettle else s) := by
    split_ifs with ha
    · have hn : n = 0xD0 := Option.some.inj (h.symm.trans (by rw [ha]; decide +kernel))
      refine (gateSettle_fields s).1.mono fun b hb => ?_
      subst ha hn hb
      decide
    · exact .refl s
  have hall : Touch (fun b => a - n ≤ b ∧ b < a) s u := hsettle.trans (hu ▸ Touch.zeroRange _ fun b h1 h2 => ⟨h1, h2⟩)
  have hzero : ∀ b, a - n ≤ b → b < a → u.reg b = regReset b := fun b h1 h2 => hu ▸ reg_zeroRange_in _ h1 h2
  have heq : (s.blockClear a).regs = u.regs ∧ (s.blockClear a).mem = u.mem := by
    rw [State.blockClear, h]
    dsimp only
    rw [← hu]
    split_ifs
    · exact ⟨rfl, rfl⟩
    · exact ⟨modLink_regs .., modLink_mem ..⟩
    · exact ⟨rfl, rfl⟩
  exact ⟨fun b h1 h2 => (reg_congr heq.1 b).trans (hzero b h1 h2), fun b hb => (reg_congr heq.1 b).trans (hall.regs b hb),
    fun b => rdB_congr (heq.2.trans hall.mem) b⟩

/-! ### Writes of a word -/

/-- A write within an open core store stores its bytes. -/
theorem busWrite_store {s : State} {r : Requester} {a n o v : Nat} {c : CoreId} (hr : mayWrite r = true) (hw : widthAligned a n = true)
    (hp : place (a / 8 * 8) = .core c o) (ho : o < 0x200000) (hopen : s.coreOpen c o (regHere (a / 8 * 8)) = true) :
    s.busWrite r a n v = some (s.wrBytes a (natBytes n v)) := by
  unfold State.busWrite
  dsimp only
  rw [if_neg (by rw [hw]; decide), hp]
  dsimp only
  rw [if_neg (by rw [hopen]; decide), if_pos (Or.inl ho), if_pos hr]

/-- The family of MP_SEED (R352). -/
def seedDesc : RegDesc := ⟨0x2000010, [], .any, false, false, [⟨fMpSeedSeed, .rw, 0, .none⟩]⟩

theorem regHere_seed : regHere rMpSeed = some seedDesc := by decide +kernel

theorem place_seed : place rMpSeed = .die 0x2000010 := by decide +kernel

theorem ctlSpan_seed : ctlSpan rMpSeed = none := by decide +kernel

/-- MP_SEED is none of the registers whose write has an effect of its own. -/
theorem dieWrite_seed (s : State) (d : RegDesc) (r : Requester) (mask new : Nat) : s.dieWrite d r 0x2000010 mask new = s.storeReg d r rMpSeed mask new := by
  rfl

/-- A field of the whole word takes the value. -/
theorem put_whole (w : Word) (n : Nat) : (⟨63, 0⟩ : Fd).put w n = BitVec.ofNat 64 n := by
  have hget : (⟨63, 0⟩ : Fd).get w = w.toNat := by
    rw [Fd.get, pow_zero, Nat.div_one]
    exact Nat.mod_eq_of_lt w.isLt
  rw [Fd.put, hget, pow_zero, Nat.mul_one, Nat.mul_one, Nat.sub_self, Nat.zero_add]
  exact BitVec.eq_of_toNat_eq (by simp [Fd.size])

theorem seedDesc_write (r : Requester) (v old : Word) : (seedDesc.openTo r).write 0 0 (2 ^ 64 - 1) v.toNat old = v := by
  have hstore : ∀ w : Word, (⟨fMpSeedSeed, .rw, 0, .none⟩ : FldDesc).store 0 0 (2 ^ 64 - 1) v.toNat old w = v := fun w => by
    show (⟨63, 0⟩ : Fd).put w (((⟨63, 0⟩ : Fd).get old &&& (2 ^ 64 - 1 - (2 ^ 64 - 1) / 2 ^ 0 % 2 ^ 64)) |||
      (v.toNat / 2 ^ 0 % 2 ^ 64 &&& (2 ^ 64 - 1) / 2 ^ 0 % 2 ^ 64)) = v
    rw [put_whole, pow_zero, Nat.div_one, Nat.div_one, Nat.mod_eq_of_lt v.isLt, show (2 ^ 64 - 1) % 2 ^ 64 = 2 ^ 64 - 1 from rfl, Nat.sub_self, Nat.and_zero,
      Nat.zero_or, Nat.and_two_pow_sub_one_eq_mod, Nat.mod_eq_of_lt v.isLt, BitVec.ofNat_toNat, BitVec.setWidth_eq]
  exact hstore old

theorem busWrite_seed {s : State} {r : Requester} (hr : mayWrite r = true) (v : Word) : s.busWrite r rMpSeed 8 v.toNat = some (s.setReg rMpSeed v) := by
  have hput : (seedDesc.mayPut r rMpSeed && !(seedDesc.w64 && 8 != 8)) = true := by
    cases r with
    | rdma => exact absurd hr (by decide)
    | host => rfl
    | housekeeper => rfl
  have hb : rMpSeed / 8 * 8 = rMpSeed := by decide
  have hval : v.toNat % 2 ^ (8 * 8) * 2 ^ (8 * (rMpSeed % 8)) = v.toNat := by
    rw [show rMpSeed % 8 = 0 from rfl, Nat.mod_eq_of_lt v.isLt]
    simp
  have hmask : (2 ^ (8 * 8) - 1) * 2 ^ (8 * (rMpSeed % 8)) = 2 ^ 64 - 1 := by decide
  unfold State.busWrite
  dsimp only
  rw [if_neg (by decide), hb, regHere_seed, place_seed, hval, hmask]
  dsimp only
  rw [hput]
  dsimp only
  rw [dieWrite_seed, State.storeReg, seedDesc_write]

/-! ### The hall-level reset -/

theorem hallMask (h : Fin 8) : (List.range 8).filter (bitN (BitVec.ofNat 8 (2 ^ h.val)).toNat) = [h.val] := by
  revert h
  decide

theorem hallRst_one {s : State} {r : Requester} {h : Fin 8} (hr : mayWrite r = true) (hb : s.hearth.boot = .run) :
    exec (.hallRstReq r (BitVec.ofNat 8 (2 ^ h.val))) s = .next (s.hallRequest h.val) := by
  have heq : s.hallRst (BitVec.ofNat 8 (2 ^ h.val)).toNat = s.hallRequest h.val := by
    rw [State.hallRst, hallMask]
    rfl
  exact congrArg Host.Outcome.next ((if_pos (by rw [hr, hb]; rfl)).trans heq)

theorem hallBusy_lt {s : State} {h n : Nat} (hn : s.hallBusy h = some n) : n < 16 := by
  unfold State.hallBusy at hn
  split_ifs at hn <;> simp at hn <;> omega

/-- No register of the reset's scope is HALL_RST or a link's status. -/
theorem hallScope_out (h : Fin 8) : hallScope h.val rHallRst = false ∧ ∀ n : Fin 24, hallScope h.val (rLinkStatus n.val) = false := by
  revert h
  decide +kernel

theorem tableCheck_outside (s : State) (n : LinkId) {a : Nat} (ha : a ≠ rLinkStatus n.val) : (s.tableCheck n.val).reg a = s.reg a := by
  cases hd : (s.link n.val).peerDigest with
  | none => rw [State.tableCheck, hd]
  | some d =>
    obtain ⟨-, -, -, hstep⟩ := tableCheck_fields hd
    exact hstep.regs a ha

theorem reg_foldl_tableCheck {a : Nat} (ha : ∀ n : LinkId, a ≠ rLinkStatus n.val) (l : List Nat) (hl : ∀ n ∈ l, n < 24) :
    ∀ u : State, (l.foldl State.tableCheck u).reg a = u.reg a := by
  induction l with
  | nil => exact fun _ => rfl
  | cons n l ih =>
    intro u
    rw [List.foldl_cons, ih fun m hm => hl m (List.mem_cons_of_mem _ hm)]
    exact tableCheck_outside u ⟨n, hl n List.mem_cons_self⟩ (ha _)

theorem reg_foldl_evidence {a : Nat} (l : List (Nat × Word)) (hl : ∀ e ∈ l, e.1 ≠ a) :
    ∀ u : State, (l.foldl (fun s e => s.setReg e.1 (evidence e.1 e.2)) u).reg a = u.reg a := by
  induction l with
  | nil => exact fun _ => rfl
  | cons e l ih =>
    intro u
    rw [List.foldl_cons, ih fun m hm => hl m (List.mem_cons_of_mem _ hm)]
    exact reg_setReg_other u _ (hl e List.mem_cons_self).symm

/-- Registers of the scope hold their reset values after the reset, but for the evidence of failing cores. -/
theorem reg_hallClear (s : State) (h : Fin 8) {a : Nat} (ha : hallScope h.val a = true) (harr : isArrStatus a = false) (hgrid : isGridCol a = false) :
    (s.hallClear h.val).reg a = regReset a := by
  obtain ⟨s1, hs1⟩ : ∃ s1, s1 = ((List.range 8).filter fun k => (s.ctxCores k).any fun c => c.hall.val == h.val).foldl (fun s k => s.ctxEnd k) s := ⟨_, rfl⟩
  obtain ⟨kept, hkept⟩ : ∃ l, l = s1.regs.filter fun e => hallScope h.val e.1 && (isArrStatus e.1 || isGridCol e.1) := ⟨_, rfl⟩
  obtain ⟨s2, hs2⟩ : ∃ s2, s2 = kept.foldl (fun s e => s.setReg e.1 (evidence e.1 e.2)) (s1.resetRegs fun a => !hallScope h.val a) := ⟨_, rfl⟩
  have hregs : (s.hallClear h.val).regs = ((hallLinks h.val).foldl State.tableCheck s2).regs := by
    rw [hs2, hkept, hs1, State.hallClear]
  have hne : ∀ n : LinkId, a ≠ rLinkStatus n.val := fun n e => absurd ((hallScope_out h).2 n) (by rw [← e, ha]; decide)
  have hlt : ∀ n ∈ hallLinks h.val, n < 24 := fun n hn => by
    simp only [hallLinks, List.mem_cons, List.not_mem_nil, or_false] at hn
    omega
  have hkey : ∀ e ∈ kept, e.1 ≠ a := fun e he hea => by
    rw [hkept, List.mem_filter, hea, harr, hgrid, Bool.or_false, Bool.and_false] at he
    exact absurd he.2 (by decide)
  rw [reg_congr hregs, reg_foldl_tableCheck hne _ hlt, hs2, reg_foldl_evidence _ hkey, reg_resetRegs, if_neg (by rw [ha]; decide)]

theorem rdB_hallClear (s : State) (h : Fin 8) {a o : Nat} {d : CoreId} (ha : place a = .core d o) (hd : d.hall = h) : (s.hallClear h.val).rdB a = 0 := by
  obtain ⟨keep, m, hmem, hkeep⟩ : ∃ (keep : Nat → Bool) (m : List (Nat × Byte)), (s.hallClear h.val).mem = m.filter (fun e => keep e.1) ∧ keep a = false := by
    refine ⟨fun x => match place x with
      | .core c _ => c.hall.val != h.val
      | _ => true, _, rfl, ?_⟩
    dsimp only
    rw [ha]
    show (d.hall.val != h.val) = false
    rw [hd, bne_self_eq_false]
  rw [State.rdB, hmem, sget_filter, hkeep, if_neg (by decide)]
  rfl

theorem core_hallClear (s : State) (h : Fin 8) {d : CoreId} (hd : d.hall = h) : (s.hallClear h.val).core d = CoreS.fresh := by
  obtain ⟨m, hm⟩ : ∃ m : List (Nat × CoreS), (s.hallClear h.val).cores = m.filter fun e => e.1 / 144 != h.val := ⟨_, rfl⟩
  have hidx : d.idx / 144 = h.val := by
    have := d.row.isLt
    have := d.col.isLt
    rw [CoreId.idx, ← hd]
    omega
  rw [State.core, hm, sget_filter (fun _ => CoreS.fresh) (fun x => x / 144 != h.val), if_neg (by rw [hidx]; simp)]

theorem emit_arrivals (s : State) (r : EvRec) : (s.emit r).log.arrivals = s.log.arrivals ++ [r] := rfl

theorem hallReset_busy {s : State} {h : Fin 8} {n : Nat} (hn : s.hallBusy h.val = some n) :
    (s.hallRequest h.val).fget rHallRst fHallRstReason = n ∧ (s.hallRequest h.val).log.arrivals = s.log.arrivals ++ [evr 0x0013 0x10 0 0 0 h.val n] ∧
    RegsBut (· = rHallRst) s (s.hallRequest h.val) ∧ SameMem s (s.hallRequest h.val) := by
  have heq : s.hallRequest h.val = (s.fput rHallRst fHallRstReason n).emit (evr 0x0013 0x10 0 0 0 h.val n) := by rw [State.hallRequest, hn]
  have htouch : Touch (· = rHallRst) s ((s.fput rHallRst fHallRstReason n).emit (evr 0x0013 0x10 0 0 0 h.val n)) :=
    (Touch.fput (A := (· = rHallRst)) _ _ _ rfl).trans (.emit _ _)
  rw [heq]
  refine ⟨?_, (emit_arrivals ..).trans (by rw [fput_log]), htouch.regs, htouch.sameMem⟩
  rw [emit_fget, fget_fput_same _ _ _ _ (by decide) (by decide)]
  exact Nat.mod_eq_of_lt (hallBusy_lt hn)

theorem hallReset_free {s : State} {h : Fin 8} (hn : s.hallBusy h.val = none) :
    (s.hallRequest h.val).flag rHallRst ⟨16 + h.val, 16 + h.val⟩ = true ∧ (s.hallRequest h.val).fget rHallRst fHallRstReason = 0 ∧
    (∀ a, hallScope h.val a = true → isArrStatus a = false → isGridCol a = false → (s.hallRequest h.val).reg a = regReset a) ∧
    (∀ a d o, place a = .core d o → d.hall = h → (s.hallRequest h.val).rdB a = 0) ∧
    ∀ d : CoreId, d.hall = h → (s.hallRequest h.val).core d = CoreS.fresh := by
  have hlt := h.isLt
  have heq : s.hallRequest h.val = ((s.hallClear h.val).fput rHallRst fHallRstReason 0).fput rHallRst ⟨16 + h.val, 16 + h.val⟩ 1 := by
    rw [State.hallRequest, hn]
  rw [heq]
  refine ⟨flag_fput_one _ _ _ (by omega), ?_, fun a ha harr hgrid => ?_, fun a d o ha hd => ?_, fun d hd => ?_⟩
  · rw [fget_fput_above _ _ _ _ _ le_rfl (show 16 + h.val < 24 by omega) (by decide) (by decide), fget_fput_same _ _ _ _ (by decide) (by decide), Nat.zero_mod]
  · have hne : a ≠ rHallRst := fun e => absurd (hallScope_out h).1 (by rw [← e, ha]; decide)
    rw [reg_fput_other _ _ _ hne, reg_fput_other _ _ _ hne, reg_hallClear s h ha harr hgrid]
  · rw [fput_rdB, fput_rdB, rdB_hallClear s h ha hd]
  · rw [fput_core, fput_core, core_hallClear s h hd]

/-- Settles O56: the bus rules above say what a write of each kind stores, and an accepted reset of a hall ends in filters that leave nothing of it. -/
theorem registerCommands : Obligations.RegisterCommands := by
  unfold Obligations.RegisterCommands
  intro s r c h v hr
  refine ⟨?_, fun k p rest hin hold => ?_, fun k p rest => invalDone_taken, fun e hb hh hrun he => ⟨?_, fun hv => ?_, fun hv hp => ?_, fun hv hp => ?_⟩,
    fun e second he => ?_, fun hb => cntCtlClear_taken hr hb v, ?_, fun a n hspan => ?_, fun a wide => ⟨fun hnone => ?_, fun o hw hp ho hopen => ?_, ?_⟩,
    fun hboot => ⟨fun n hn => ⟨_, hallRst_one hr hboot, hallReset_busy hn⟩, fun hn => ⟨_, hallRst_one hr hboot, hallReset_free hn⟩⟩, fun hrst => ?_⟩
  · exact ⟨s.invalidate v, congrArg Host.Outcome.next (if_pos hr), rfl, (Touch.of_same rfl rfl rfl : Touch (fun _ => False) s _).quiet⟩
  · show execTrInvalDone s = _
    rw [execTrInvalDone, hin]
    exact if_pos hold
  · exact ⟨_, strmEntry_open hr hb hh hrun e true v, progressWrite_writes he v⟩
  · obtain ⟨d, hd⟩ : ∃ d, s.desc c e.toNat = some d := ⟨_, List.getElem?_eq_getElem he⟩
    obtain ⟨hmem, -, hdescs, hlive, -⟩ := dropDesc_some hd
    refine ⟨_, strmEntry_first hr hb hh hrun ((entryWrite_live he v).1 hv), hdescs, hlive,
      fun a => rdB_congr hmem a⟩
  · obtain ⟨hidx, hdesc, hphase, htouch⟩ := entryPut_fields s (rStrmEntry c e.toNat) (fStrmEntryDescIdx.get v) (min (v.toNat / 2 ^ 61 % 4) 2) (v.getLsbD 60)
      (Nat.mod_lt _ (by decide)) (by omega)
    rw [← fd_get_bit] at hdesc hidx hphase htouch
    exact ⟨_, strmEntry_first hr hb hh hrun ((entryWrite_live he v).2.2 hv hp), hidx,
      hdesc.trans (fd_get_bit v 60), hphase, htouch.regs, htouch.sameMem⟩
  · exact strmEntry_first hr hb hh hrun ((entryWrite_live he v).2.1 hv hp)
  · have hkeep : (if second then s.progressWrite c e.toNat (2 ^ 64 - 1) v.toNat else s.entryWrite c e.toNat (2 ^ 64 - 1) v.toNat) = s := by
      split_ifs
      · rw [State.progressWrite, if_pos he]
      · exact if_pos he
    show execStrmEntryWrite r c e second v s = _
    rw [execStrmEntryWrite, hkeep, ite_self]
  · have htouch := Touch.zeroRange (A := fun a => rArrPassCnt c.hall.val (arrIx c) ≤ a ∧ a < rArrCntCtl c.hall.val (arrIx c)) s fun a h1 h2 => ⟨h1, h2⟩
    exact ⟨s.arrClear c, congrArg Host.Outcome.next (if_pos hr), fun a h1 h2 => reg_zeroRange_in s h1 h2, htouch.regs, htouch.sameMem⟩
  · exact ⟨_, congrArg Host.Outcome.next (if_pos hr), blockClear_fields hspan⟩
  · exact congrArg Host.Outcome.next (by rw [hnone]; rfl)
  · have hbus := busWrite_store (v := v.toNat) hr hw hp ho hopen
    have hlen := length_natBytes (if wide then 8 else 4) v.toNat
    refine ⟨_, congrArg Host.Outcome.next (by rw [hbus, Option.getD_some]), ?_, fun x hx => ?_, fun x => wrBytes_reg s _ _ x⟩
    · have := rdBytes_wrBytes s a.toNat (natBytes (if wide then 8 else 4) v.toNat)
      rwa [hlen] at this
    · exact rdB_wrBytes_other _ _ _ _ (by rw [hlen]; exact hx)
  · have htouch : Touch (· = rMpSeed) s (s.setReg rMpSeed v) := .setReg _ _ rfl
    have haddr : (BitVec.ofNat 48 rMpSeed).toNat = rMpSeed := by decide
    refine ⟨s.setReg rMpSeed v, congrArg Host.Outcome.next ?_, reg_setReg_same .., htouch.regs, htouch.sameMem⟩
    rw [haddr, if_pos rfl, busWrite_seed hr v, Option.getD_some]
  · have htouch : Touch (· = rHallRst) s ((s.fput rHallRst ⟨16 + h.val, 16 + h.val⟩ 0).emit (evr 0x0012 0x10 0)) :=
      (Touch.fput (A := (· = rHallRst)) _ _ _ rfl).trans (.emit _ _)
    have hlt : 16 + h.val < 64 := by omega
    refine ⟨_, congrArg Host.Outcome.next (if_pos hrst), ?_, (emit_arrivals ..).trans (by rw [fput_log]), htouch.regs, htouch.sameMem⟩
    rw [emit_flag, flag_fput_same_zero _ _ _ le_rfl hlt]

end Sys2Proof.Machine

/-! ## A clip of a ring that is not there (O52)

CONS of ring number 130, were there one, would stand at the address of HR_DROP_CNT 2: the counter of a dropped sample and the retirement of its clip then
meet in one register. Nothing in the statement keeps the clip's ring below 16. -/

namespace Sys2Proof.Machine
-- One proof at a time, as in Sys2Proof/Laws: each waiting proof would keep a thread and its stack.
set_option Elab.async false

/-- The index of a clip that is not supported: every sample of it drops for reason 2 (R329). -/
def unsupportedIx : ClipIx := ⟨true, none, false, .h264, [], esNone, ⟨[], []⟩, false, .layer2, [], esNone, ⟨false, 0, 0, []⟩⟩

/-- A clip of ring 130, record 1, with its one sample left. -/
def farClip : ClipS := ⟨130, 1, 0, 0, 0, 0, 1, [], [], some unsupportedIx, 0, 1, [], false⟩

/-- The sample of the clip at position 0 that engine 0 holds. -/
def farEngine : EngineS := ⟨0, 0, [], 0⟩

/-- The state after power-on with that clip and that sample. -/
def farPond : State :=
  { State.reset with pond := { clips := some farClip :: List.replicate 7 none, engines := some farEngine :: List.replicate 7 none } }

theorem rHrRingCons_eq_rHrDropCnt : rHrRingCons 130 = rHrDropCnt 2 := by decide

theorem farPond_fate : farPond.fateOf farClip 0 farEngine = .error ⟨2, BitVec.allOnes 64, BitVec.allOnes 64, 0, 0⟩ := by rfl

theorem farPond_count : farPond.reg (rHrDropCnt 2) = 0 := by decide +kernel

/-- The count that a drop of that sample leaves, where the drop completes. -/
def dropCountAfter : Res → Option Word
  | .next t => some (t.reg (rHrDropCnt 2))
  | _ => none

/-- The drop counts one, and the retirement of the clip takes the same register one further. -/
theorem farPond_drop : dropCountAfter (exec (.sampleDrop 0 0) farPond) = some 2 := by decide +kernel

/-- Refutes O52: the drop of the sample of a clip whose ring number is 130 takes HR_DROP_CNT 2 from 0 to 2. -/
theorem not_headraceAndMillpond : ¬ Obligations.HeadraceAndMillpond := by
  unfold Obligations.HeadraceAndMillpond
  intro h
  obtain ⟨-, -, -, -, -, -, -, -, hsample, -⟩ := h farPond .host 0 0 0
  obtain ⟨-, hdrop, -⟩ := hsample farClip farEngine rfl rfl rfl rfl
  obtain ⟨-, t, hrun, -, -, hcount, -⟩ := hdrop _ farPond_fate
  have hafter : t.reg (rHrDropCnt 2) = 2 := Option.some.inj ((congrArg dropCountAfter hrun).symm.trans farPond_drop)
  have hone : t.reg (rHrDropCnt 2) = farPond.reg (rHrDropCnt 2) + 1 := hcount
  rw [hafter, farPond_count] at hone
  exact absurd hone (by decide)

end Sys2Proof.Machine

/-! ## States that no run reaches, in the statements of the groups (O50, O51)

Both statements quantify over every state. One holds a clip of ring number 524,160, whose CONS, were there such a ring, would stand at the address of
MP_SEED: the pool that a SEED starts again retires the clip and moves the seed it has just taken. The other holds a saved image that names GT_STEP among
its registers: the rollback brings the image back and STEP with it. -/

namespace Sys2Proof.Machine
-- One proof at a time, as in Sys2Proof/Laws: each waiting proof would keep a thread and its stack.
set_option Elab.async false

/-- A message of group 0 in epoch 0, with argument 0. -/
def groupZeroMsg (v : Word) : GMsg := ⟨0, 0, 0, false, v⟩

/-- Registers with link 0 open and group 0 valid. -/
def openGroupZero : List (Nat × Word) := [(rLinkStatus 0, 6), (rGtCfg 0, Fd.put fGtCfgValid 0 1)]

/-! ### A SEED whose value does not stay (O50) -/

theorem rHrRingCons_eq_rMpSeed : rHrRingCons 524160 = rMpSeed := by decide

/-- A clip of ring 524,160, record 1, with its one sample left and an index that is not supported. -/
def seedClip : ClipS := ⟨524160, 1, 0, 0, 0, 0, 1, [], [], some unsupportedIx, 0, 1, [], false⟩

/-- Group 0 in a recovery on an open link 0, the Millpond enabled for it, and an engine that holds the sample of that clip. -/
def seedPond : State := { State.reset with
  regs := (rMpCfg, Fd.put fMpCfgEn 0 1) :: openGroupZero
  groups := [(0, { recover := some ⟨0, 2, 0, 0, 0, false, []⟩ })]
  pond := { clips := some seedClip :: List.replicate 7 none, engines := some farEngine :: List.replicate 7 none } }

/-- MP_SEED after an event that completes. -/
def seedAfter : Res → Option Word
  | .next t => some (t.reg rMpSeed)
  | _ => none

/-- SEED 1 leaves MP_SEED at 2. -/
theorem seedPond_seed : seedAfter (exec (.seed 0 (groupZeroMsg 1)) seedPond) = some 2 := by decide +kernel

/-- Refutes O50: the SEED 1 of a recovery enables the Millpond again, which drops the sample of a clip of ring 524,160 and leaves MP_SEED at 2. -/
theorem not_groupCommit : ¬ Obligations.GroupCommit := by
  unfold Obligations.GroupCommit
  intro h
  obtain ⟨-, -, -, -, -, -, -, hseed, -⟩ := h seedPond 0 0 (by decide +kernel)
  obtain ⟨t, hrun, hval, -⟩ := hseed 1 (by decide +kernel) (by decide +kernel) (by decide +kernel) (Option.some_ne_none _) (by decide +kernel)
  have hafter : t.reg rMpSeed = 2 := Option.some.inj ((congrArg seedAfter hrun).symm.trans seedPond_seed)
  exact absurd (hval.symm.trans hafter) (by decide)

/-! ### A ROLLBACK that moves STEP (O51) -/

/-- A saved image of the first core that names GT_STEP 0, no register of a core, with value 5. -/
def strayImage : SavedS := ⟨⟨0, 0, 0⟩, [(rGtStep 0, 5)], [], CoreS.fresh, 0⟩

/-- Group 0 on an open link 0, its context with that image. -/
def strayGroup : State := { State.reset with regs := openGroupZero, ctxs := [(0, { saved := [strayImage] })] }

/-- STEP of group 0 after an event that completes. -/
def stepAfter : Res → Option Nat
  | .next t => some (t.gStep 0)
  | _ => none

/-- The ROLLBACK takes STEP from the image. -/
theorem strayGroup_rollback : stepAfter (exec (.rollback 0 (groupZeroMsg 0)) strayGroup) = some 5 := by decide +kernel

/-- Refutes O51: a ROLLBACK of a context whose saved image names GT_STEP 0 takes STEP from 0 to the image's 5; the clause asks nothing of the image. -/
theorem not_groupRecovery : ¬ Obligations.GroupRecovery := by
  unfold Obligations.GroupRecovery
  intro h
  obtain ⟨-, hback, -⟩ := h strayGroup 0 (groupZeroMsg 0) 0 (by decide +kernel) rfl (by decide +kernel) rfl
  obtain ⟨t, hrun, -, -, -, hstep⟩ := hback (by decide +kernel) (Or.inl rfl)
  have hafter : t.gStep 0 = 5 := Option.some.inj ((congrArg stepAfter hrun).symm.trans strayGroup_rollback)
  have hkept : t.gStep 0 = strayGroup.gStep 0 := hstep
  rw [hafter] at hkept
  exact absurd hkept (by decide +kernel)

end Sys2Proof.Machine

/-! ## RDMA writes and the Ethernet port (O55) -/

namespace Sys2Proof.Machine
-- One proof at a time, as in Sys2Proof/Laws: each waiting proof would keep a thread and its stack.
set_option Elab.async false

/-! ### Virtual memory -/

/-- A translation depends on memory, its poison and the context's TR_CTX. -/
theorem translate_congr {s t : State} {h k : Nat} (hm : t.mem = s.mem) (hp : t.poison = s.poison) (hx : t.reg (rTrCtx h k) = s.reg (rTrCtx h k)) (va acc : Nat) :
    t.translate h k va acc = s.translate h k va acc := by
  have hpte : t.pte k va = s.pte k va := by
    unfold State.pte
    rw [rdBytes_congr fun x _ _ => rdB_congr hm x]
  unfold State.translate
  rw [hpte, flag_congr hx, poisoned_congr hp]

theorem vParts_congr {s t : State} {h k : Nat} (hm : t.mem = s.mem) (hp : t.poison = s.poison) (hx : t.reg (rTrCtx h k) = s.reg (rTrCtx h k))
    (va n acc : Nat) : t.vParts h k va n acc = s.vParts h k va n acc := by
  unfold State.vParts
  simp only [translate_congr hm hp hx]

/-- A store in HBM changes only memory and poison. -/
theorem wrHbm_eq (s : State) (pa : Nat) (b : Bytes) : s.wrHbm pa b = { s with mem := (s.wrHbm pa b).mem, poison := (s.wrHbm pa b).poison } := by
  unfold State.wrHbm
  rw [wrBytes_eq]

theorem wrParts_eq (ps : List (Nat × Nat)) : ∀ (s : State) (b : Bytes),
    s.wrParts ps b = { s with mem := (s.wrParts ps b).mem, poison := (s.wrParts ps b).poison } := by
  induction ps with
  | nil => exact fun s b => rfl
  | cons q ps ih =>
    intro s b
    rw [State.wrParts, ih, wrHbm_eq]

/-- What a run of bytes leaves in memory depends on memory alone. -/
theorem wrBytes_mem_congr (b : Bytes) : ∀ {s t : State} (a : Nat), t.mem = s.mem → (t.wrBytes a b).mem = (s.wrBytes a b).mem := by
  induction b with
  | nil => exact fun _ h => h
  | cons y b ih => exact fun {s t} a h => ih (a + 1) (show (t.wrB a y).mem = (s.wrB a y).mem by rw [State.wrB, h, State.wrB])

theorem wrParts_mem_congr (ps : List (Nat × Nat)) : ∀ {s t : State} (b : Bytes), t.mem = s.mem → (t.wrParts ps b).mem = (s.wrParts ps b).mem := by
  induction ps with
  | nil => exact fun _ h => h
  | cons q ps ih => exact fun b h => ih _ (wrBytes_mem_congr _ _ h)

/-- A write through a page table changes only memory and poison. -/
theorem vWrite_eq {s t : State} {h k va : Nat} {b : Bytes} (hw : s.vWrite h k va b = .ok t) : t = { s with mem := t.mem, poison := t.poison } := by
  unfold State.vWrite at hw
  cases hv : s.vParts h k va b.length accWrite with
  | error e => rw [hv] at hw; cases hw
  | ok ps =>
    rw [hv] at hw
    cases hw
    exact wrParts_eq ps s b

/-- The same write from a state with the same memory, poison and TR_CTX stores the same bytes. -/
theorem vWrite_congr {s t u : State} {h k va : Nat} {b : Bytes} (hm : t.mem = s.mem) (hp : t.poison = s.poison)
    (hx : t.reg (rTrCtx h k) = s.reg (rTrCtx h k)) (hw : s.vWrite h k va b = .ok u) : ∃ v, t.vWrite h k va b = .ok v ∧ v.mem = u.mem := by
  unfold State.vWrite at hw
  cases hv : s.vParts h k va b.length accWrite with
  | error e => rw [hv] at hw; cases hw
  | ok ps =>
    rw [hv] at hw
    cases hw
    refine ⟨t.wrParts ps b, ?_, wrParts_mem_congr ps b hm⟩
    unfold State.vWrite
    rw [vParts_congr hm hp hx, hv]

/-! ### The port -/

/-- A frame leaves, or is held behind its paused priority. -/
def State.goesOut (s : State) (prio : Nat) (o : Out) (t : State) : Prop :=
  if s.portWaits prio then t.host.held = s.host.held ++ [(prio, o)] ∧ t.sent = s.sent else t.sent = s.sent ++ [o]

theorem txFrame_thp (s : State) {o : Out} (ho : o.isThp = true) : s.txFrame o = ({ s with sent := s.sent ++ [o] } : State).count rThpTxCnt 1 := by
  unfold State.txFrame
  rw [ho]
  rfl

theorem txFrame_plain (s : State) {o : Out} (ho : o.isThp = false) : s.txFrame o = { s with sent := s.sent ++ [o] } := by
  unfold State.txFrame
  rw [ho]
  rfl

theorem txFrame_touch (s : State) (o : Out) : Touch (· = rThpTxCnt) s (s.txFrame o) := by
  have hsent : Touch (· = rThpTxCnt) s { s with sent := s.sent ++ [o] } := .of_same rfl rfl rfl
  cases ho : o.isThp with
  | true =>
    rw [txFrame_thp s ho]
    exact hsent.trans (.count _ 1 rfl)
  | false =>
    rw [txFrame_plain s ho]
    exact hsent

theorem txFrame_host (s : State) (o : Out) : (s.txFrame o).host = s.host := by
  cases ho : o.isThp with
  | true => rw [txFrame_thp s ho]; rfl
  | false => rw [txFrame_plain s ho]

/-- A frame that is not of THP goes out without any counter. -/
theorem portOut_fields (s : State) (prio : Nat) {o : Out} (ho : o.isThp = false) : (s.portOut prio o).regs = s.regs ∧ (s.portOut prio o).mem = s.mem ∧
    (s.portOut prio o).flash = s.flash ∧ (s.portOut prio o).host.qps = s.host.qps ∧ s.goesOut prio o (s.portOut prio o) := by
  unfold State.portOut State.goesOut State.portSend
  cases s.portWaits prio with
  | true => exact ⟨rfl, rfl, rfl, rfl, rfl, rfl⟩
  | false =>
    rw [if_neg Bool.false_ne_true, txFrame_plain s ho]
    exact ⟨rfl, rfl, rfl, rfl, rfl⟩

/-- The frames whose priority is paused stay held, and only THP_TX_CNT counts those that leave. -/
theorem portRelease_fields (s : State) : Touch (· = rThpTxCnt) s s.portRelease ∧ s.portRelease.host.paused = s.host.paused ∧
    s.portRelease.host.held = s.host.held.filter fun e => s.pausedNow e.1 := by
  unfold State.portRelease
  by_cases hnone : s.host.held = []
  · rw [if_pos hnone, hnone]
    exact ⟨.refl s, rfl, rfl⟩
  · rw [if_neg hnone, List.partition_eq_filter_filter]
    dsimp only
    have hhost : ∀ (l : List Out) (u : State), (l.foldl State.txFrame u).host = u.host := foldl_same (·.host) _ txFrame_host
    rw [hhost]
    have hstay : Touch (· = rThpTxCnt) s { s with host := { s.host with held := s.host.held.filter fun e => s.pausedNow e.1 } } := .of_same rfl rfl rfl
    exact ⟨hstay.trans (.foldl _ _ (fun u o _ => txFrame_touch u o) _), rfl, rfl⟩

/-- The way to a host depends on ETH_GW_MAC alone. -/
theorem dest_congr {s t : State} (h : t.reg rEthGwMac = s.reg rEthGwMac) (a : HostAddr) : t.dest a = s.dest a := by
  unfold State.dest State.nextHop
  rw [h]

/-! ### Queue pairs -/

theorem qp_modQp (s : State) (q : BitVec 24) (f : QpS → QpS) (hf : ∀ x, (f x).qpn = x.qpn) : (s.modQp q f).qp q = (s.qp q).map f := by
  have hp : ((fun x : QpS => x.qpn == q) ∘ fun x => if x.qpn = q then f x else x) = fun x => x.qpn == q := by
    funext x
    by_cases hx : x.qpn = q
    · simp [hx, hf]
    · simp [hx]
  show (s.host.qps.map fun x => if x.qpn = q then f x else x).find? (fun x => x.qpn == q) = (s.host.qps.find? fun x => x.qpn == q).map f
  rw [List.find?_map, hp]
  cases hfound : s.host.qps.find? fun x => x.qpn == q with
  | none => rfl
  | some x =>
    have hx := List.find?_some hfound
    rw [Option.map_some, Option.map_some, if_pos (eq_of_beq hx)]

theorem qp_congr {s t : State} (h : t.host.qps = s.host.qps) (q : BitVec 24) : t.qp q = s.qp q := by rw [State.qp, h, State.qp]

/-- What an ACK of queue pair `x` leaves. -/
theorem qpAck_fields (s : State) (x : QpS) (psn : BitVec 24) : (s.qpAck x psn).regs = s.regs ∧ (s.qpAck x psn).mem = s.mem ∧
    s.goesOut x.prio.toNat (.roceAck (s.dest x.host) x.remote psn) (s.qpAck x psn) ∧
    (s.qpAck x psn).qp x.qpn = (s.qp x.qpn).map fun y => { y with pendAck := 0 } := by
  obtain ⟨hr, hm, -, hq, hgo⟩ := portOut_fields s x.prio.toNat (o := .roceAck (s.dest x.host) x.remote psn) rfl
  refine ⟨hr, hm, hgo, ?_⟩
  rw [State.qpAck, qp_modQp, State.roceOut, qp_congr hq]
  exact fun _ => rfl

/-- An intact packet for a queue pair that works, without a congestion mark, goes by its PSN. -/
theorem rdmaWrite_eq {s : State} {y : QpS} {p : RdmaPkt} (hboot : s.hearth.boot = .run) (hq : s.qp y.qpn = some y) (herr : y.error = false)
    (hce : p.ce = false) (hin : p.intact = true) (hfit : ethFits (32 + p.payload.length) = true) :
    exec (.rdmaWrite y.qpn p) s =
      if (p.psn - y.psn).toNat = 0 then .next ((s.count rRdmaRxCnt 1).rdmaNext y p)
      else if 2 ^ 23 ≤ (p.psn - y.psn).toNat then .next ((s.count rRdmaRxCnt 1).qpAck y (y.psn - 1))
      else if y.nakSent then .next (s.count rRdmaRxCnt 1)
      else .next (((((s.count rRdmaRxCnt 1).roceOut y (.roceNak (s.dest y.host) y.remote y.psn nakSeq)).count rRdmaNakCnt 1).modQp y.qpn
        fun z => { z with nakSent := true })) := by
  show execRdmaWrite y.qpn p s = _
  have hq1 : (s.count rRdmaRxCnt 1).qp y.qpn = some y := hq
  have hcnp : (s.count rRdmaRxCnt 1).qpCnp y p.ce = s.count rRdmaRxCnt 1 := by
    unfold State.qpCnp
    rw [hce]
    dsimp only
    rw [Bool.false_and]
    rfl
  unfold execRdmaWrite
  rw [if_neg (by rw [hboot, hin, hfit]; decide)]
  dsimp only
  rw [hq1]
  dsimp only
  rw [herr, if_neg Bool.false_ne_true, hcnp]

/-- The only packet of a write that its region takes stores its bytes and moves PSN on. -/
theorem runs_rdmaWrite_only {s u : State} {y : QpS} {p : RdmaPkt} {m : MrS} (hboot : s.hearth.boot = .run) (hq : s.qp y.qpn = some y) (herr : y.error = false)
    (hce : p.ce = false) (hin : p.intact = true) (hfit : ethFits (32 + p.payload.length) = true) (hd : (p.psn - y.psn).toNat = 0) (hcur : y.cur = none)
    (hop : p.opcode = 0x0A) (hlen : p.payload.length = p.dlen.toNat) (hmtu : p.dlen.toNat ≤ 4096)
    (hmr : (s.host.mrs.find? fun m => m.rkey == p.rkey) = some m) (hbell : m.doorbell = false) (hlo : m.va ≤ p.va.toNat)
    (hhi : p.va.toNat + p.payload.length ≤ m.va + 4096 * m.pages) (hw : s.vWrite 0 m.ctx.val p.va.toNat p.payload = .ok u) :
    Runs (.rdmaWrite y.qpn p) s fun t => (t.qp y.qpn).map QpS.psn = some (y.psn + 1) ∧ SameMem u t ∧ RegsBut (· = rRdmaRxCnt) s t := by
  have hx : (s.count rRdmaRxCnt 1).reg (rTrCtx 0 m.ctx.val) = s.reg (rTrCtx 0 m.ctx.val) :=
    reg_count_other _ _ (by have := m.ctx.isLt; unfold rTrCtx rRdmaRxCnt hallBase dieSpace hallSpace; omega)
  obtain ⟨v, hv, hvmem⟩ := vWrite_congr (h := 0) (k := m.ctx.val) (t := s.count rRdmaRxCnt 1) (count_mem ..) rfl hx hw
  have hveq := vWrite_eq hv
  have hwant : rdmaWant y p = some (p.rkey, p.va.toNat, p.dlen.toNat) := by
    unfold rdmaWant
    rw [hop, hcur]
    exact if_pos ⟨hlen, hmtu⟩
  have hput : (s.count rRdmaRxCnt 1).rdmaPut m p.va.toNat p.dlen.toNat p.payload = some v := by
    unfold State.rdmaPut
    rw [hbell, if_neg Bool.false_ne_true, if_neg (by omega), hv]
  have hfind : ((s.count rRdmaRxCnt 1).host.mrs.find? fun m => m.rkey == p.rkey) = some m := hmr
  have hvq : v.qp y.qpn = some y := by rw [hveq]; exact hq
  have hvregs : v.regs = (s.count rRdmaRxCnt 1).regs := by rw [hveq]
  have hvr : RegsBut (· = rRdmaRxCnt) s v := fun a ha => (reg_congr hvregs a).trans (reg_count_other _ _ ha)
  obtain ⟨f, hf⟩ : ∃ f : QpS → QpS, f = fun z => { z with
      psn := z.psn + 1, nakSent := false, cur := if p.dlen.toNat ≤ p.payload.length then none else
        some (p.rkey, p.va.toNat + p.payload.length, p.dlen.toNat - p.payload.length), pendAck := z.pendAck + 1 } := ⟨_, rfl⟩
  have hqpn : ∀ z, (f z).qpn = z.qpn := fun z => by rw [hf]
  have hpsn : (f y).psn = y.psn + 1 := by rw [hf]
  have hrun : exec (.rdmaWrite y.qpn p) s = .next (if 64 ≤ y.pendAck + 1 then (v.modQp y.qpn f).qpAck y y.psn else v.modQp y.qpn f) := by
    rw [rdmaWrite_eq hboot hq herr hce hin hfit, if_pos hd, State.rdmaNext, hwant]
    dsimp only
    rw [hfind, Option.bind_some, hput, hf]
  have hmid : (v.modQp y.qpn f).qp y.qpn = some (f y) := by rw [qp_modQp v y.qpn f hqpn, hvq]; rfl
  refine ⟨_, hrun, ?_⟩
  by_cases hack : 64 ≤ y.pendAck + 1
  · rw [if_pos hack]
    obtain ⟨hr, hm, -, hqa⟩ := qpAck_fields (v.modQp y.qpn f) y y.psn
    refine ⟨?_, fun a => rdB_congr (hm.trans hvmem) a, fun a ha => (reg_congr hr a).trans (hvr a ha)⟩
    rw [hqa, hmid]
    exact congrArg some hpsn
  · rw [if_neg hack]
    refine ⟨?_, fun a => rdB_congr hvmem a, hvr⟩
    rw [hmid]
    exact congrArg some hpsn

/-- A packet ahead of the one expected is answered with a single NAK. -/
theorem runs_rdmaWrite_ahead {s : State} {y : QpS} {p : RdmaPkt} (hboot : s.hearth.boot = .run) (hq : s.qp y.qpn = some y) (herr : y.error = false)
    (hce : p.ce = false) (hin : p.intact = true) (hfit : ethFits (32 + p.payload.length) = true) (h0 : 0 < (p.psn - y.psn).toNat)
    (hlt : (p.psn - y.psn).toNat < 2 ^ 23) (hnak : y.nakSent = false) :
    Runs (.rdmaWrite y.qpn p) s fun t => s.goesOut y.prio.toNat (.roceNak (s.dest y.host) y.remote y.psn 0) t ∧ (t.qp y.qpn).map QpS.nakSent = some true ∧
      RegsBut (fun a => a = rRdmaRxCnt ∨ a = rRdmaNakCnt) s t ∧ SameMem s t := by
  have hrun := rdmaWrite_eq hboot hq herr hce hin hfit
  rw [if_neg (by omega), if_neg (by omega), hnak, if_neg Bool.false_ne_true] at hrun
  obtain ⟨hr, hm, -, hqs, hgo⟩ := portOut_fields (s.count rRdmaRxCnt 1) y.prio.toNat (o := .roceNak (s.dest y.host) y.remote y.psn nakSeq) rfl
  obtain ⟨u, hu⟩ : ∃ u, u = (s.count rRdmaRxCnt 1).portOut y.prio.toNat (.roceNak (s.dest y.host) y.remote y.psn nakSeq) := ⟨_, rfl⟩
  rw [State.roceOut, ← hu] at hrun
  rw [← hu] at hr hm hqs hgo
  have hq1 : (u.count rRdmaNakCnt 1).qp y.qpn = some y := (qp_congr hqs _).trans hq
  refine ⟨_, hrun, hgo, ?_, fun a ha => ?_, rdB_congr hm⟩
  · rw [qp_modQp, hq1]
    · rfl
    · exact fun _ => rfl
  · show (u.count rRdmaNakCnt 1).reg a = s.reg a
    rw [reg_count_other _ _ fun h => ha (Or.inr h), reg_congr hr, reg_count_other _ _ fun h => ha (Or.inl h)]

/-- A packet behind the one expected is answered with an ACK. -/
theorem runs_rdmaWrite_behind {s : State} {y : QpS} {p : RdmaPkt} (hboot : s.hearth.boot = .run) (hq : s.qp y.qpn = some y) (herr : y.error = false)
    (hce : p.ce = false) (hin : p.intact = true) (hfit : ethFits (32 + p.payload.length) = true) (hge : 2 ^ 23 ≤ (p.psn - y.psn).toNat) :
    Runs (.rdmaWrite y.qpn p) s fun t => s.goesOut y.prio.toNat (.roceAck (s.dest y.host) y.remote (y.psn - 1)) t ∧ RegsBut (· = rRdmaRxCnt) s t ∧
      SameMem s t := by
  have hrun := rdmaWrite_eq hboot hq herr hce hin hfit
  rw [if_neg (by omega), if_pos hge] at hrun
  obtain ⟨hr, hm, hgo, -⟩ := qpAck_fields (s.count rRdmaRxCnt 1) y (y.psn - 1)
  rw [dest_congr (reg_count_other s 1 (show rEthGwMac ≠ rRdmaRxCnt by decide))] at hgo
  exact ⟨_, hrun, hgo, fun a ha => (reg_congr hr a).trans (reg_count_other _ _ ha), fun a => rdB_congr hm a⟩

/-- A packet whose ICRC or checksum fails is dropped. -/
theorem runs_rdmaWrite_broken {s : State} {p : RdmaPkt} (q : BitVec 24) (hin : p.intact = false) : Runs (.rdmaWrite q p) s (fun t => t = s) :=
  ⟨s, if_pos (Or.inr (Or.inl (by rw [hin]; rfl))), rfl⟩

/-- ACK_COALESCE acknowledges what has come. -/
theorem runs_ackCoalesce {s : State} {y : QpS} (hq : s.qp y.qpn = some y) (herr : y.error = false) (hp : y.pendAck ≠ 0) :
    Runs (.ackCoalesce y.qpn) s fun t => s.goesOut y.prio.toNat (.roceAck (s.dest y.host) y.remote (y.psn - 1)) t ∧ (t.qp y.qpn).map QpS.pendAck = some 0 ∧
      SameRegs s t ∧ SameMem s t := by
  obtain ⟨hr, hm, hgo, hqa⟩ := qpAck_fields s y (y.psn - 1)
  have hrun : exec (.ackCoalesce y.qpn) s = .next (s.qpAck y (y.psn - 1)) := by
    show execAckCoalesce y.qpn s = _
    unfold execAckCoalesce
    rw [hq]
    exact congrArg Host.Outcome.next (if_neg (by rw [herr]; simp [hp]))
  refine ⟨_, hrun, hgo, ?_, reg_congr hr, rdB_congr hm⟩
  rw [hqa, hq]
  rfl

/-! ### Events of the port -/

/-- A pause frame replaces what the priority had, and the frames of the priorities that are free leave. -/
theorem pfcRx_fields {s : State} (hup : s.portUp = true) (prio : BitVec 3) (quanta : BitVec 16) : Runs (.pfcRx prio quanta) s fun t =>
    t.host.paused = (if quanta = 0 then s.host.paused.filter (fun e => e.1 != prio.toNat)
      else s.host.paused.filter (fun e => e.1 != prio.toNat) ++ [(prio.toNat, quanta.toNat, s.now)]) ∧
    (∀ e ∈ t.host.held, ∃ q ∈ t.host.paused, q.1 = e.1) ∧ RegsBut (· = rThpTxCnt) s t ∧ SameMem s t := by
  obtain ⟨l, hl⟩ : ∃ l, l = if quanta = 0 then s.host.paused.filter (fun e => e.1 != prio.toNat)
      else s.host.paused.filter (fun e => e.1 != prio.toNat) ++ [(prio.toNat, quanta.toNat, s.now)] := ⟨_, rfl⟩
  have hrun : exec (.pfcRx prio quanta) s = .next ({ s with host := { s.host with paused := l } } : State).portRelease := by
    show execPfcRx prio quanta s = _
    unfold execPfcRx
    rw [hup, hl]
    rfl
  obtain ⟨htouch, hpaused, hheld⟩ := portRelease_fields { s with host := { s.host with paused := l } }
  refine ⟨_, hrun, hpaused.trans hl, fun e he => ?_, htouch.regs, htouch.sameMem⟩
  rw [hheld] at he
  obtain ⟨q, hq, hprio⟩ := List.any_eq_true.1 (List.mem_filter.1 he).2
  exact ⟨q, hpaused ▸ hq, eq_of_beq (Bool.and_eq_true_iff.1 hprio).1⟩

/-- Settles O55: each packet's answer from its place in the sequence, and each event of the port from its one case. -/
theorem rdmaAndEthernet : Obligations.RdmaAndEthernet := by
  unfold Obligations.RdmaAndEthernet
  intro s y p goes
  refine ⟨fun hboot hq herr hce hin hfit => ⟨?_, ?_, ?_⟩, runs_rdmaWrite_broken y.qpn, runs_ackCoalesce, fun hup => ⟨?_, ?_, ?_, ?_, ?_, ?_, ?_⟩⟩
  · exact fun m u => runs_rdmaWrite_only hboot hq herr hce hin hfit
  · exact runs_rdmaWrite_ahead hboot hq herr hce hin hfit
  · exact runs_rdmaWrite_behind hboot hq herr hce hin hfit
  · intro h
    obtain ⟨hr, hm, -, -, hgo⟩ := portOut_fields s (Config.thpPrio 3).toNat (o := .neighborAdv (s.dest h) s.linkLocal) rfl
    have hrun : exec (.neighborSolicit h s.linkLocal) s = .next (s.portOut (Config.thpPrio 3).toNat (.neighborAdv (s.dest h) s.linkLocal)) :=
      congrArg Host.Outcome.next (if_pos (by rw [hup, beq_self_eq_true]; rfl))
    exact ⟨_, hrun, hgo, reg_congr hr, rdB_congr hm⟩
  · intro prio quanta hquanta
    obtain ⟨t, hrun, hpaused, -, hregs, hmem⟩ := pfcRx_fields hup prio quanta
    refine ⟨t, hrun, ?_, hregs, hmem⟩
    rw [hpaused, if_neg hquanta]
    exact List.mem_append_right _ (List.mem_singleton_self _)
  · intro prio
    obtain ⟨t, hrun, hpaused, hheld, hregs, hmem⟩ := pfcRx_fields hup prio 0
    rw [if_pos rfl] at hpaused
    have hfree : ∀ e ∈ t.host.paused, e.1 ≠ prio.toNat := by
      rw [hpaused]
      exact fun e he => bne_iff_ne.1 (List.mem_filter.1 he).2
    refine ⟨t, hrun, hfree, fun e he => ?_, hregs, hmem⟩
    obtain ⟨q, hq, hprio⟩ := hheld e he
    exact hprio ▸ hfree q hq
  · exact ⟨s.fput rEthStatus fEthStatusPcsUp 1, congrArg Host.Outcome.next (if_pos hup), flag_fput_same_one _ _ _ (by decide) (by decide),
      fun a ha => reg_fput_other _ _ _ ha, fun _ => rfl⟩
  · exact ⟨s.fput rEthStatus fEthStatusPcsUp 0, rfl, flag_fput_same_zero _ _ _ (by decide) (by decide), fun a ha => reg_fput_other _ _ _ ha, fun _ => rfl⟩
  · refine ⟨s.count rEthFcsErrCnt 1, ?_, reg_count_same s _ _, fun a ha => reg_count_other _ _ ha, fun _ => rfl⟩
    show execEthFrameDrop .badFcs s = _
    unfold execEthFrameDrop
    rw [hup]
    rfl
  · intro b hb
    refine ⟨s.count rThpDropCnt 1, ?_, reg_count_same s _ _, fun a ha => reg_count_other _ _ ha, fun _ => rfl⟩
    show execEthFrameDrop (.thpMalformed b) s = _
    unfold execEthFrameDrop
    rw [hup]
    exact congrArg Host.Outcome.next (if_pos hb)

end Sys2Proof.Machine

/-! ## What signals between units and the log leave alone

Two kinds of bookkeeping run through many commands: messages that units send each other, with the orphaning of semaphores, and the records of the log.
Each is described once here by what it leaves as it was. -/

namespace Sys2Proof.Machine
-- One proof at a time, as in Sys2Proof/Laws: each waiting proof would keep a thread and its stack.
set_option Elab.async false

/-! ### Messages and semaphores -/

/-- `φ` reads neither registers, messages, links and semaphores, nor the records that have arrived. -/
structure OffSignals {α : Type} (φ : State → α) : Prop where
  reg : ∀ s a v, φ (State.setReg s a v) = φ s
  bell : ∀ s l, φ { s with bell := l } = φ s
  link : ∀ s l, φ { s with links := l } = φ s
  sem : ∀ s e, φ { s with sem := e } = φ s
  log : ∀ s r, φ (State.emit s r) = φ s

section
variable {α : Type} {φ : State → α} (h : OffSignals φ)
include h

theorem OffSignals.fput (s : State) (a : Nat) (f : Fd) (v : Nat) : φ (s.fput a f v) = φ s := h.reg ..

theorem OffSignals.count (s : State) (a n : Nat) : φ (s.count a n) = φ s := h.reg ..

theorem OffSignals.bellToCore (s : State) (t x : Nat) (c : CoreId) (a : Nat) (p : List (BitVec 32)) : φ (s.bellToCore t x c a p) = φ s := h.bell ..

theorem OffSignals.modLink (s : State) (n : Nat) (f : LinkS → LinkS) : φ (s.modLink n f) = φ s := h.link ..

theorem OffSignals.ctlSend (s : State) (n : Nat) (m : CtlMsg) : φ (s.ctlSend n m) = φ s := by
  have henq : φ (s.modLink n fun l => { l with ctlOut := ctlInsert l.ctlOut m }) = φ s := h.modLink ..
  unfold State.ctlSend
  dsimp only
  split
  · split
    · exact henq
    · rfl
  · split
    · exact h.count ..
    · split
      · exact henq
      · rfl
  · split
    · exact henq
    · rfl

theorem OffSignals.ctlRoute (s : State) (unit dst : Nat) (m : CtlMsg) : φ (s.ctlRoute unit dst m) = φ s := by
  unfold State.ctlRoute
  split
  · exact h.ctlSend ..
  · exact h.log ..

theorem OffSignals.fireWatch (s : State) (w : WatchS) (o : Bool) : φ (s.fireWatch w o) = φ s := by
  unfold State.fireWatch
  dsimp only
  split
  · exact (h.bellToCore ..).trans (h.count ..)
  · exact (h.ctlRoute ..).trans (h.count ..)

theorem OffSignals.orphanSem (s : State) (k p : Nat) : φ (s.orphanSem k p) = φ s := by
  unfold State.orphanSem
  extract_lets rel sm s1 s2
  have h2 : φ s2 = φ s1 := by
    refine foldl_same φ _ (fun t e => ?_) _ _
    split
    · exact h.bellToCore ..
    · exact h.fireWatch ..
  rw [h.log, h.count, h.fput, h2]
  exact h.sem s _

theorem OffSignals.orphanCtx (s : State) (k : Nat) : φ (s.orphanCtx k) = φ s := foldl_same φ _ (fun t p => h.orphanSem t k p) _ _

theorem OffSignals.orphanAll (s : State) : φ s.orphanAll = φ s := foldl_same φ _ (fun t k => h.orphanCtx t k) _ _

end

/-- Memory, the Hearth's state, the time and the flash with what the log keeps for it: what neither signals nor registers touch. -/
def State.lasting (s : State) : List Host.Cell × HearthS × Nat × List Host.Cell × List LogRec × Nat :=
  (s.mem, s.hearth, s.now, s.flash, s.log.buffer, s.log.entries)

theorem offSignals_lasting : OffSignals State.lasting :=
  ⟨fun _ _ _ => rfl, fun _ _ => rfl, fun _ _ => rfl, fun _ _ => rfl, fun _ _ => rfl⟩

/-- Equal lasting parts, one by one. -/
theorem lasting_iff {s t : State} : t.lasting = s.lasting ↔ t.mem = s.mem ∧ t.hearth = s.hearth ∧ t.now = s.now ∧ t.flash = s.flash ∧
    t.log.buffer = s.log.buffer ∧ t.log.entries = s.log.entries := by
  simp only [State.lasting, Prod.mk.injEq]

/-! ### The log -/

/-- `φ` reads neither registers nor the log, its flash, the host's notices or the dump. -/
structure OffLog {α : Type} (φ : State → α) : Prop where
  reg : ∀ s a v, φ (State.setReg s a v) = φ s
  log : ∀ s l, φ { s with log := l } = φ s
  flash : ∀ s f, φ { s with flash := f } = φ s
  host : ∀ s x, φ { s with host := x } = φ s
  dump : ∀ s d, φ { s with dump := d } = φ s
  free : ∀ s n, φ { s with free := n } = φ s

section
variable {α : Type} {φ : State → α} (h : OffLog φ)
include h

theorem OffLog.count (s : State) (a n : Nat) : φ (s.count a n) = φ s := h.reg ..

theorem OffLog.emit (s : State) (r : EvRec) : φ (s.emit r) = φ s := h.log ..

theorem OffLog.notify (s : State) (kind p : Nat) : φ (s.notify kind p) = φ s := by
  unfold State.notify
  split
  · exact h.host ..
  · split
    · rfl
    · exact (h.emit ..).trans (h.host ..)

theorem OffLog.accept (s : State) (r : EvRec) : φ (s.accept r) = φ s := by
  unfold State.accept
  dsimp only
  have htaken : ∀ l d, φ (State.count { s with log := l, dump := d } rEvrAcceptCnt 1) = φ s := fun l d =>
    (h.count ..).trans ((h.dump { s with log := l } d).trans (h.log s l))
  split
  · split
    · exact (h.notify ..).trans (htaken ..)
    · exact htaken ..
  · exact (h.count ..).trans (h.log s _)

theorem OffLog.acceptAll (s : State) : φ s.acceptAll = φ s :=
  (foldl_same φ _ (fun t r => h.accept t r) _ _).trans (h.log s _)

theorem OffLog.flashWr (s : State) (a : Nat) (b : Bytes) : φ (s.flashWr a b) = φ s := by
  rw [flashWr_eq]
  exact h.flash s _

theorem OffLog.eraseFor (s : State) (q : Nat) : φ (s.eraseFor q) = φ s := by
  unfold State.eraseFor
  split
  · exact (h.count ..).trans (h.flash s _)
  · rfl

theorem OffLog.indexAppend (s : State) (next : Nat) : φ (s.indexAppend next) = φ s := by
  unfold State.indexAppend
  dsimp only
  split
  · exact (h.log _ _).trans ((h.flashWr ..).trans (h.flash s _))
  · exact (h.log _ _).trans (h.flashWr ..)

theorem OffLog.program (s : State) : φ s.program = φ s := by
  unfold State.program
  split
  · rfl
  next r rest _ =>
    extract_lets s2 src l s3 s4
    have h3 : φ s3 = φ s := (h.log s2 l).trans ((h.count ..).trans ((h.flashWr ..).trans (h.eraseFor ..)))
    have h4 : φ s4 = φ s := by
      show φ (if _ then _ else _) = φ s
      split
      · exact (h.indexAppend ..).trans h3
      · exact h3
    split
    · exact (h.emit ..).trans ((h.log s4 _).trans h4)
    · exact h4

theorem OffLog.programMany (n : Nat) : ∀ s, φ (programMany n s) = φ s := by
  induction n with
  | zero => exact fun _ => rfl
  | succ n ih => exact fun s => (ih _).trans (h.program s)

theorem OffLog.flushAll (s : State) : φ s.flushAll = φ s :=
  (h.programMany 1 _).trans ((h.acceptAll _).trans ((h.programMany 1024 _).trans (h.acceptAll s)))

theorem OffLog.cutOff (s : State) (a n : Nat) : φ (s.cutOff a n) = φ s := by
  have hfree : ∀ (n : Nat) (s : State), φ (freeBytes n s).2 = φ s := by
    intro n
    induction n with
    | zero => exact fun _ => rfl
    | succ n ih => exact fun s => (ih _).trans (h.free s _)
  exact (h.flashWr ..).trans (hfree n s)

theorem OffLog.tearRec (s : State) : φ s.tearRec = φ s := by
  have hfresh : φ s.fresh.2 = φ s := h.free s _
  unfold State.tearRec
  split
  · rfl
  · dsimp only
    split
    · exact hfresh
    · split
      · exact (h.cutOff ..).trans ((h.eraseFor ..).trans hfresh)
      · split
        · exact (h.cutOff ..).trans ((h.program _).trans hfresh)
        · exact (h.program _).trans hfresh

theorem OffLog.tearFw (s : State) : φ s.tearFw = φ s := by
  have hfresh : φ s.fresh.2 = φ s := h.free s _
  unfold State.tearFw
  split
  · rfl
  · split
    · split
      · exact (h.cutOff ..).trans hfresh
      · exact hfresh
    · rfl

theorem OffLog.finishRec (s : State) : φ s.finishRec = φ s := by
  have hfresh : φ s.fresh.2 = φ s := h.free s _
  unfold State.finishRec
  split
  · rfl
  · split
    · exact (h.program _).trans hfresh
    · exact hfresh

end

/-- Memory, the Hearth's state and the time. -/
def State.outsideLog (s : State) : List Host.Cell × HearthS × Nat := (s.mem, s.hearth, s.now)

theorem offLog_outsideLog : OffLog State.outsideLog :=
  ⟨fun _ _ _ => rfl, fun _ _ => rfl, fun _ _ => rfl, fun _ _ => rfl, fun _ _ => rfl, fun _ _ => rfl⟩

/-- Equal parts outside the log, one by one. -/
theorem outsideLog_iff {s t : State} : t.outsideLog = s.outsideLog ↔ t.mem = s.mem ∧ t.hearth = s.hearth ∧ t.now = s.now := by
  simp only [State.outsideLog, Prod.mk.injEq]

/-! ### Where the log stands in flash -/

/-- Is the flash address outside the log and its index? -/
def offLogArea (a : Nat) : Prop := a < 0x2000000 ∨ 0x2160000 ≤ a

/-- From a log whose index half is within bounds, flash outside the log's area stays, and the index half is within bounds still. -/
structure KeepsBanks (s t : State) : Prop where
  keeps : s.log.entries ≤ 2048 → t.log.entries ≤ 2048 ∧ ∀ a, offLogArea a → t.flashB a = s.flashB a

theorem KeepsBanks.of_same {s t : State} (hl : t.log.entries = s.log.entries) (hf : t.flash = s.flash) : KeepsBanks s t :=
  ⟨fun he => ⟨hl ▸ he, fun a _ => by rw [State.flashB, hf, State.flashB]⟩⟩

theorem KeepsBanks.refl (s : State) : KeepsBanks s s := .of_same rfl rfl

theorem KeepsBanks.trans {s t u : State} (h : KeepsBanks s t) (h' : KeepsBanks t u) : KeepsBanks s u := by
  refine ⟨fun he => ?_⟩
  obtain ⟨het, hft⟩ := h.keeps he
  obtain ⟨heu, hfu⟩ := h'.keeps het
  exact ⟨heu, fun a ha => (hfu a ha).trans (hft a ha)⟩

/-- A write of flash within the log's area keeps the rest. -/
theorem KeepsBanks.flashWr (s : State) {a : Nat} {b : Bytes} (hlo : 0x2000000 ≤ a) (hhi : a + b.length ≤ 0x2160000) : KeepsBanks s (s.flashWr a b) := by
  have hl : (s.flashWr a b).log = s.log := by rw [flashWr_eq]
  refine ⟨fun he => ⟨hl ▸ he, fun x hx => flashB_flashWr_other _ _ _ _ ?_⟩⟩
  unfold offLogArea at hx
  omega

theorem recAddr_lt (q : Nat) : recAddr q + 64 ≤ 0x2160000 := by
  unfold recAddr
  split <;> omega

/-- The sector erased before a record is one of the circulating area. -/
theorem KeepsBanks.eraseFor (s : State) (q : Nat) : KeepsBanks s (s.eraseFor q) := by
  unfold State.eraseFor
  split
  next hq =>
    obtain ⟨h4096, hmod⟩ := hq
    refine ⟨fun he => ⟨he, fun a ha => ?_⟩⟩
    have haddr : 0x2000000 ≤ recAddr q ∧ recAddr q + 0x10000 ≤ 0x2160000 := by
      rw [recAddr, if_neg (by omega)]
      omega
    unfold offLogArea at ha
    exact flashB_flashErase_other s (by omega)
  · exact .refl s

theorem KeepsBanks.indexAppend (s : State) (next : Nat) : KeepsBanks s (s.indexAppend next) := by
  refine ⟨fun he => ?_⟩
  obtain ⟨-, -, -, -, -, -, hf⟩ := indexAppend_fields s next he
  refine ⟨?_, fun a ha => hf a (by unfold offLogArea at ha; omega)⟩
  unfold State.indexAppend
  dsimp only
  split
  · exact (by decide : 0 + 1 ≤ 2048)
  next hne =>
    show s.log.entries + 1 ≤ 2048
    omega

theorem KeepsBanks.program (s : State) : KeepsBanks s s.program := by
  unfold State.program
  split
  · exact .refl s
  next r rest _ =>
    have hwr : KeepsBanks (s.eraseFor r.seq) ((s.eraseFor r.seq).flashWr (recAddr r.seq) r.bytes) :=
      .flashWr _ (by have := recAddr_ge r.seq; omega) (by rw [length_logRec]; exact recAddr_lt r.seq)
    have hu := (KeepsBanks.eraseFor s r.seq).trans hwr
    generalize (s.eraseFor r.seq).flashWr (recAddr r.seq) r.bytes = u at hu ⊢
    extract_lets s2 src l s3 s4
    have h3 : KeepsBanks s s3 := hu.trans (.of_same rfl rfl)
    have h4 : KeepsBanks s s4 := by
      show KeepsBanks s (if _ then _ else _)
      split
      · exact h3.trans (.indexAppend ..)
      · exact h3
    split
    · exact h4.trans (.of_same rfl rfl)
    · exact h4

theorem length_freeBytes (n : Nat) : ∀ s : State, (freeBytes n s).1.length = 8 * n := by
  induction n with
  | zero => exact fun _ => rfl
  | succ n ih =>
    intro s
    show (natBytes 8 _ ++ (freeBytes n s.fresh.2).1).length = _
    rw [List.length_append, ih, length_natBytes]
    omega

/-- A torn operation of `n` words within the log's area keeps the rest. -/
theorem KeepsBanks.cutOff (s : State) {a n : Nat} (hlo : 0x2000000 ≤ a) (hhi : a + 8 * n ≤ 0x2160000) : KeepsBanks s (s.cutOff a n) := by
  have hfree : ∀ (n : Nat) (s : State), KeepsBanks s (freeBytes n s).2 := by
    intro n
    induction n with
    | zero => exact fun s => .refl s
    | succ n ih => exact fun s => (KeepsBanks.of_same (s := s) (t := s.fresh.2) rfl rfl).trans (ih s.fresh.2)
  exact (hfree n s).trans (.flashWr _ hlo (by rw [length_freeBytes]; exact hhi))

theorem halfBase_ge (h : Bool) : 0x2000000 ≤ halfBase h := by cases h <;> decide

theorem KeepsBanks.tearRec (s : State) : KeepsBanks s s.tearRec := by
  have hfresh : KeepsBanks s s.fresh.2 := .of_same rfl rfl
  unfold State.tearRec
  split
  · exact .refl s
  next r _ _ =>
    dsimp only
    split
    · exact hfresh
    · split
      · have hcut : KeepsBanks (s.fresh.2.eraseFor r.seq) ((s.fresh.2.eraseFor r.seq).cutOff (recAddr r.seq) 8) :=
          .cutOff _ (by have := recAddr_ge r.seq; omega) (recAddr_lt r.seq)
        exact hfresh.trans ((KeepsBanks.eraseFor _ _).trans hcut)
      · split
        · refine ⟨fun he => ?_⟩
          have hp := hfresh.trans (.program s.fresh.2)
          have hent := (hp.keeps he).1
          have hlo := halfBase_ge s.fresh.2.program.log.half
          have hhi := halfBase_lt s.fresh.2.program.log.half
          exact (hp.trans (.cutOff _ (by omega) (by omega))).keeps he
        · exact hfresh.trans (.program _)

theorem KeepsBanks.finishRec (s : State) : KeepsBanks s s.finishRec := by
  have hfresh : KeepsBanks s s.fresh.2 := .of_same rfl rfl
  unfold State.finishRec
  split
  · exact .refl s
  · split
    · exact hfresh.trans (.program _)
    · exact hfresh

/-- With nothing buffered no program is in progress. -/
theorem tearRec_empty {s : State} (h : s.log.buffer = []) : s.tearRec = s := by
  unfold State.tearRec
  rw [h]

theorem finishRec_empty {s : State} (h : s.log.buffer = []) : s.finishRec = s := if_pos h

/-- With no firmware write in progress none is torn. -/
theorem tearFw_none {s : State} (h : s.hearth.flashOp = none) : s.tearFw = s := by
  unfold State.tearFw
  rw [h]

end Sys2Proof.Machine

/-! ## Resets and starts (O59) -/

namespace Sys2Proof.Machine
-- One proof at a time, as in Sys2Proof/Laws: each waiting proof would keep a thread and its stack.
set_option Elab.async false

/-! ### A reset -/

theorem lasting_resetAll (s : State) (keep : Bool) : (s.resetAll keep).lasting = s.lasting := by
  have h := offSignals_lasting
  unfold State.resetAll
  extract_lets held old s1 s2
  have h2 : s2.lasting = s.lasting := by
    show State.lasting (if _ then _ else _) = _
    split
    · exact foldl_same State.lasting _ (fun t e => h.reg ..) _ _
    · rfl
  rw [h.fput, h.fput, h.fput, h2]

/-- What a reset starts from: a trip tears what is in progress, and every other source waits for it. -/
def State.settled (s : State) (bits : Nat) : State := if bits = 2 then s.tearRec.tearFw else s.finishRec

/-- What an applied reset leaves. -/
structure ResetBy (bits : Nat) (warm : Bool) (next : Boot) (s t : State) : Prop where
  boot : t.hearth.boot = next
  trip : t.hearth.trip = s.hearth.trip
  wdt : t.hearth.wdt = none
  up : t.hearth.up = s.hearth.up
  cause : t.fget rRstCause fRstCauseCause = bits
  flash : t.flash = (s.settled bits).flash
  mem : t.mem = if warm then (s.settled bits).mem.filter (fun e => decide (e.1 < hbmEnd)) else []

theorem cleared_fields (s : State) (warm : Bool) : (s.clearDevice.clearMem warm).flash = s.flash ∧
    (s.clearDevice.clearMem warm).mem = if warm then s.mem.filter (fun e => decide (e.1 < hbmEnd)) else [] := by
  cases warm <;> exact ⟨rfl, rfl⟩

theorem applyReset_by {s : State} {bits : Nat} (hb : bits < 256) (warm : Bool) (next : Boot) (h : s.outranked bits = false) :
    ResetBy bits warm next s (s.applyReset bits warm next) := by
  unfold State.applyReset
  rw [if_neg (by rw [h]; decide)]
  extract_lets u underWay h1 s1
  have hu : u = s.settled bits := rfl
  clear_value u
  subst hu
  obtain ⟨hmem, -, -, hflash, -, -⟩ := lasting_iff.1 ((lasting_resetAll (s.settled bits).orphanAll warm).trans (offSignals_lasting.orphanAll _))
  have hs1 : s1.flash = (s.settled bits).flash ∧ s1.mem = if warm then (s.settled bits).mem.filter (fun e => decide (e.1 < hbmEnd)) else [] := by
    obtain ⟨hf, hm⟩ := cleared_fields ((s.settled bits).orphanAll.resetAll warm) warm
    exact ⟨hf.trans hflash, by rw [← hmem]; exact hm⟩
  clear_value s1
  refine ⟨rfl, rfl, rfl, rfl, ?_, hs1.1, hs1.2⟩
  rw [State.fget, reg_setReg_same]
  generalize (bits ||| if s.sameCycle = true then s.fget rRstCause fRstCausePending else 0) = pend
  show (BitVec.ofNat 64 (s.hearth.trip * 2 ^ 16 + pend * 2 ^ 8 + bits)).toNat / 2 ^ 0 % 2 ^ 8 = bits
  rw [BitVec.toNat_ofNat]
  omega

theorem ResetBy.lost {bits : Nat} {next : Boot} {s t : State} (h : ResetBy bits false next s t) (a : Nat) : t.rdB a = 0 := by
  rw [State.rdB, h.mem]
  rfl

theorem ResetBy.kept {bits : Nat} {next : Boot} {s t : State} (h : ResetBy bits true next s t) {a : Nat} (ha : a < hbmEnd) : t.rdB a = (s.settled bits).rdB a := by
  rw [State.rdB, h.mem, if_pos rfl, sget_filter memDefault (fun k => decide (k < hbmEnd)), if_pos (decide_eq_true ha), State.rdB]

/-- A tear with no firmware write in progress is one of the log alone. -/
theorem torn_kept {s : State} (h : s.hearth.flashOp = none) : (s.log.buffer = [] → s.tearRec.tearFw.flash = s.flash) ∧ KeepsBanks s s.tearRec.tearFw := by
  obtain ⟨-, hh, -⟩ := outsideLog_iff.1 (offLog_outsideLog.tearRec s)
  rw [tearFw_none (s := s.tearRec) (by rw [hh]; exact h)]
  exact ⟨fun hb => by rw [tearRec_empty hb], .tearRec s⟩

theorem sameCycle_of_up {s : State} (h1 : s.hearth.boot ≠ .rails) (h2 : s.hearth.boot ≠ .tripHold) : s.sameCycle = false := by
  unfold State.sameCycle
  rw [beq_false_of_ne h1, beq_false_of_ne h2]
  rfl

theorem sameCycle_of_armed {s : State} (h : s.hearth.wdt.isSome = true) : s.sameCycle = false := by
  unfold State.sameCycle
  rw [← Option.not_isSome, h]
  simp

theorem outranked_of_single {s : State} (h : s.sameCycle = false) (bits : Nat) : s.outranked bits = false := by
  rw [State.outranked, h, Bool.false_and]

theorem powerGood_iff {s : State} : s.powerGood = true ↔ s.hearth.up = true ∧ s.hearth.boot ≠ .off ∧ s.hearth.boot ≠ .rails ∧ s.hearth.boot ≠ .tripHold := by
  unfold State.powerGood
  simp only [Bool.and_eq_true, bne_iff_ne, and_assoc]

/-! ### The sources -/

theorem runs_powerTrip_applied {s : State} (cause : BitVec 3) (hup : s.hearth.up = true) (hoff : s.hearth.boot ≠ .off) (ho : s.outranked 2 = false) :
    Runs (.powerTrip cause) s fun t => t.hearth.boot = .tripHold ∧ t.hearth.trip = cause.toNat ∧ t.fget rRstCause fRstCauseCause = 2 ∧
      (s.hearth.flashOp = none → (s.log.buffer = [] → t.flash = s.flash) ∧
        (s.log.entries ≤ 2048 → ∀ a, a < 0x2000000 ∨ 0x2160000 ≤ a → t.flashB a = s.flashB a)) ∧ ∀ a, t.rdB a = 0 := by
  obtain ⟨u, hu⟩ : ∃ u : State, u = { s with hearth := { s.hearth with trip := cause.toNat, tripNote := true } } := ⟨_, rfl⟩
  have hrun : exec (.powerTrip cause) s = .next (u.applyReset 2 false .tripHold) := by
    rw [hu]
    exact if_neg (by rw [hup]; simp [hoff])
  have hby := applyReset_by (s := u) (by decide : 2 < 256) false .tripHold (by rw [hu]; exact ho)
  have htrip : u.hearth.trip = cause.toNat := by rw [hu]
  refine ⟨_, hrun, hby.boot, hby.trip.trans htrip, hby.cause, fun hop => ?_, hby.lost⟩
  obtain ⟨hempty, hbanks⟩ := torn_kept (s := u) (by rw [hu]; exact hop)
  refine ⟨fun hbuf => hby.flash.trans ((hempty (by rw [hu]; exact hbuf)).trans (by rw [hu])), fun he a ha => ?_⟩
  rw [State.flashB, hby.flash]
  exact ((hbanks.keeps (by rw [hu]; exact he)).2 a ha).trans (by rw [hu]; rfl)

/-- A trip in the Hearth cycle of a source that stands before it is only noted. -/
theorem runs_powerTrip_outranked {s : State} (cause : BitVec 3) (hup : s.hearth.up = true) (hoff : s.hearth.boot ≠ .off) (ho : s.outranked 2 = true) :
    Runs (.powerTrip cause) s fun t => t.hearth.boot = s.hearth.boot ∧ t.hearth.trip = cause.toNat ∧
      t.fget rRstCause fRstCauseCause = s.fget rRstCause fRstCauseCause ∧ bitN (t.fget rRstCause fRstCausePending) 1 = true ∧
      RegsBut (· = rRstCause) s t ∧ SameMem s t := by
  have hcycle : s.sameCycle = true := (Bool.and_eq_true_iff.1 ho).1
  obtain ⟨u, hu⟩ : ∃ u : State, u = { s with hearth := { s.hearth with trip := cause.toNat, tripNote := true } } := ⟨_, rfl⟩
  have hcu : u.sameCycle = true := by rw [hu]; exact hcycle
  have hrun : exec (.powerTrip cause) s = .next (u.fput rRstCause fRstCausePending (2 ||| u.fget rRstCause fRstCausePending)) := by
    have hap : u.applyReset 2 false .tripHold = u.fput rRstCause fRstCausePending (2 ||| u.fget rRstCause fRstCausePending) := by
      unfold State.applyReset
      rw [if_pos (show u.outranked 2 = true by rw [hu]; exact ho), if_pos hcu]
    rw [← hap, hu]
    exact if_neg (by rw [hup]; simp [hoff])
  have hregs : u.regs = s.regs := by rw [hu]
  refine ⟨_, hrun, by rw [hu]; rfl, by rw [hu]; rfl, ?_, ?_, fun a ha => ?_, fun a => ?_⟩
  · rw [fget_fput_below u _ _ _ _ (by decide) (by decide) (by decide) (by decide), State.fget, reg_congr hregs, State.fget]
  · rw [fget_fput_same _ _ _ _ (by decide) (by decide)]
    generalize u.fget rRstCause fRstCausePending = v
    show (((2 ||| v) % 256) / 2 ^ 1 % 2 == 1) = true
    have hbit : (2 ||| v).testBit 1 = true := by rw [Nat.testBit_or]; rfl
    rw [Nat.testBit_eq_decide_div_mod_eq] at hbit
    have hdiv := of_decide_eq_true hbit
    rw [beq_iff_eq]
    omega
  · rw [reg_fput_other _ _ _ ha, reg_congr hregs]
  · exact (fput_rdB ..).trans (by rw [hu]; rfl)

theorem runs_hearthPowerLoss (s : State) : Runs .hearthPowerLoss s fun t => t.hearth.up = false ∧
    (s.hearth.flashOp = none → (s.log.buffer = [] → t.flash = s.flash) ∧
      (s.log.entries ≤ 2048 → ∀ a, a < 0x2000000 ∨ 0x2160000 ≤ a → t.flashB a = s.flashB a)) ∧
    t.hearth.fuses = s.hearth.fuses ∧ (∀ a, t.reg a = regReset a) ∧ ∀ a, t.rdB a = 0 := by
  obtain ⟨u, hu⟩ : ∃ u, u = s.tearRec.tearFw := ⟨_, rfl⟩
  obtain ⟨-, hh, -⟩ := outsideLog_iff.1 ((offLog_outsideLog.tearFw s.tearRec).trans (offLog_outsideLog.tearRec s))
  have hrun : exec .hearthPowerLoss s = .next { State.reset with
      pending := u.pending, flash := u.flash, sent := u.sent, free := u.free, regs := []
      hearth := { (State.reset).hearth with up := false, boot := .off, fuses := u.hearth.fuses } } := by
    rw [hu]
    rfl
  rw [← hu] at hh
  refine ⟨_, hrun, rfl, fun hop => ?_, by rw [hh], fun a => rfl, fun a => rfl⟩
  obtain ⟨hempty, hbanks⟩ := torn_kept hop
  rw [← hu] at hempty hbanks
  exact ⟨hempty, fun he a ha => (hbanks.keeps he).2 a ha⟩

theorem runs_powerOn {s : State} (hup : s.hearth.up = false) : Runs .powerOn s fun t => t.hearth.up = true ∧ t.hearth.boot = .rails ∧ t.now = 0 ∧
    t.flash = s.flash ∧ t.hearth.fuses = s.hearth.fuses ∧ ∀ a, t.reg a = regReset a :=
  ⟨{ s with now := 0, regs := [], hearth := { (State.reset).hearth with fuses := s.hearth.fuses } }, if_neg (by rw [hup]; exact Bool.false_ne_true),
    rfl, rfl, rfl, rfl, rfl, fun _ => rfl⟩

theorem runs_modResetN {s : State} (hgood : s.powerGood = true) : Runs .modResetN s fun t => t.hearth.boot = .rails ∧ t.hearth.resetLow = true ∧
    t.fget rRstCause fRstCauseCause = 4 ∧ (s.log.buffer = [] → t.flash = s.flash) ∧
    (s.log.entries ≤ 2048 → ∀ a, a < 0x2000000 ∨ 0x2160000 ≤ a → t.flashB a = s.flashB a) ∧ ∀ a, t.rdB a = 0 := by
  obtain ⟨hup, -, hrails, hhold⟩ := powerGood_iff.1 hgood
  obtain ⟨u, hu⟩ : ∃ u, u = s.applyReset 4 false .rails := ⟨_, rfl⟩
  have hby := applyReset_by (s := s) (by decide : 4 < 256) false .rails (outranked_of_single (sameCycle_of_up hrails hhold) 4)
  rw [← hu] at hby
  have hrun : exec .modResetN s = .next { u with hearth := { u.hearth with resetLow := true } } := by
    show execModResetN s = _
    unfold execModResetN
    rw [hup, if_neg (by decide)]
    dsimp only
    rw [hgood, Bool.true_or, Bool.true_or, if_pos rfl, hu]
  have hflash : u.flash = s.finishRec.flash := hby.flash
  refine ⟨_, hrun, hby.boot, rfl, hby.cause, fun hbuf => ?_, fun he a ha => ?_, hby.lost⟩
  · exact hflash.trans (by rw [finishRec_empty hbuf])
  · show sget _ u.flash a = _
    rw [hflash]
    exact ((KeepsBanks.finishRec s).keeps he).2 a ha

theorem runs_selfRestart {s : State} (hboot : s.hearth.boot = .failed) : Runs .selfRestart s fun t => t.hearth.boot = .rails ∧
    t.fget rRstCause fRstCauseCause = 0x24 := by
  obtain ⟨-, hh, -⟩ := outsideLog_iff.1 (offLog_outsideLog.flushAll s)
  have hby := applyReset_by (s := s.flushAll) (by decide : 0x24 < 256) false .rails
    (outranked_of_single (sameCycle_of_up (by rw [hh, hboot]; decide) (by rw [hh, hboot]; decide)) _)
  exact ⟨_, congrArg Host.Outcome.next (if_pos hboot), hby.boot, hby.cause⟩

theorem runs_watchdog {s : State} (harmed : s.hearth.wdt.isSome = true) : Runs .watchdog s fun t => t.hearth.boot = .rails ∧ t.hearth.wdt = none ∧
    t.fget rRstCause fRstCauseCause = 8 ∧ ∀ a < hbmEnd, t.rdB a = s.rdB a := by
  have hone := outranked_of_single (sameCycle_of_armed harmed) 8
  obtain ⟨u, hu⟩ : ∃ u, u = (s.emit (evr 0x0014 0x10 0)).orphanAll.flushAll := ⟨_, rfl⟩
  have hout : u.outsideLog = s.outsideLog := by
    rw [hu, offLog_outsideLog.flushAll]
    obtain ⟨hm, hh, hn, -⟩ := lasting_iff.1 (offSignals_lasting.orphanAll (s.emit (evr 0x0014 0x10 0)))
    exact outsideLog_iff.2 ⟨hm, hh, hn⟩
  obtain ⟨hmem, hh, -⟩ := outsideLog_iff.1 hout
  have hby := applyReset_by (s := u) (by decide : 8 < 256) true .rails (outranked_of_single (sameCycle_of_armed (by rw [hh]; exact harmed)) 8)
  have hrun : exec .watchdog s = .next (u.applyReset 8 true .rails) := by
    show execWatchdog s = _
    unfold execWatchdog
    rw [if_pos (Or.inl harmed), hone, if_neg Bool.false_ne_true, hu]
  refine ⟨_, hrun, hby.boot, hby.wdt, hby.cause, fun a ha => (hby.kept ha).trans ?_⟩
  obtain ⟨hfin, -⟩ := outsideLog_iff.1 (offLog_outsideLog.finishRec u)
  exact rdB_congr (hfin.trans hmem) a

theorem runs_wdtKick {s : State} (harmed : s.hearth.wdt.isSome = true) :
    Runs (.wdtKick .housekeeper) s (fun t => t.hearth.wdt = some s.now ∧ Quiet s t) ∧ exec (.wdtKick .host) s = .next s :=
  ⟨⟨{ s with hearth := { s.hearth with wdt := some s.now } }, congrArg Host.Outcome.next (if_pos ⟨rfl, harmed⟩), rfl, fun _ => rfl, fun _ => rfl, rfl⟩,
    congrArg Host.Outcome.next (if_neg fun h => by cases h.1)⟩

end Sys2Proof.Machine

/-! ### A start: what it reads from flash, and where it ends -/

namespace Sys2Proof.Machine
-- One proof at a time, as in Sys2Proof/Laws: each waiting proof would keep a thread and its stack.
set_option Elab.async false

section
variable {s t : State}

theorem flashBytes_of_flash (h : t.flash = s.flash) (a n : Nat) : t.flashBytes a n = s.flashBytes a n :=
  flashBytes_congr fun i _ => by rw [State.flashB, h, State.flashB]

theorem logScan_congr (h : t.flash = s.flash) (n : Nat) : ∀ q torn, t.logScan n q torn = s.logScan n q torn := by
  induction n with
  | zero => exact fun _ _ => rfl
  | succ n ih =>
    intro q torn
    unfold State.logScan
    dsimp only
    rw [flashBytes_of_flash h, ih]

theorem halfEntries_congr (h : t.flash = s.flash) (b : Bool) : t.halfEntries b = s.halfEntries b := by
  unfold State.halfEntries
  simp only [flashBytes_of_flash h]

/-- Recovery changes the log alone. -/
theorem logRecover_eq (s : State) : s.logRecover = { s with log := s.logRecover.log } := by
  unfold State.logRecover
  split
  split
  split <;> rfl

/-- What recovery finds depends on flash and on the log before it. -/
theorem logRecover_congr (hf : t.flash = s.flash) (hl : t.log = s.log) : t.logRecover.log = s.logRecover.log := by
  unfold State.logRecover
  rw [halfEntries_congr hf, halfEntries_congr hf]
  split
  rw [logScan_congr hf]
  split
  split
  · dsimp only
    rw [hl]
  · dsimp only
    rw [hl]
    rfl

theorem startRecs_congr (hf : t.flash = s.flash) (hl : t.log = s.log) (a : Nat) : t.startRecs a = s.startRecs a := by
  unfold State.startRecs State.flashSeqs State.flashed
  rw [hl]
  simp only [flashBytes_of_flash hf]

theorem fwCheck_congr (h : t.hearth.fuses = s.hearth.fuses) (hdr body : Bytes) (c : Bool) : t.fwCheck hdr body c = s.fwCheck hdr body c := by
  unfold State.fwCheck
  rw [h]

theorem bankSeq_congr (hf : t.flash = s.flash) (h : t.hearth.fuses = s.hearth.fuses) (b : Nat) : t.bankSeq b = s.bankSeq b := by
  unfold State.bankSeq State.bankBody State.bankHdr
  simp only [flashBytes_of_flash hf, fwCheck_congr h]

theorem newestBank_congr (hf : t.flash = s.flash) (h : t.hearth.fuses = s.hearth.fuses) : t.newestBank = s.newestBank := by
  unfold State.newestBank
  rw [bankSeq_congr hf h, bankSeq_congr hf h]

/-- There are two banks. -/
theorem newestBank_le {b : Nat} (h : s.newestBank = some b) : b ≤ 1 := by
  unfold State.newestBank at h
  split at h
  · cases h
    split <;> omega
  · cases h
    omega
  · cases h
    omega
  · cases h

end

/-! ### Classing -/

/-- What the classing of the previous start leaves: START_STATUS.CONSEC_FAIL and the log differ, and the Hearth's notes of starts. -/
structure Classed (s t : State) : Prop where
  flash : t.flash = s.flash
  mem : t.mem = s.mem
  now : t.now = s.now
  fuses : t.hearth.fuses = s.hearth.fuses
  boot : t.hearth.boot = s.hearth.boot
  wdt : t.hearth.wdt = s.hearth.wdt
  start : ∃ v, t.reg rStartStatus = fStartStatusConsecFail.put (s.reg rStartStatus) v

theorem classify_fields (s : State) : Classed s s.classify := by
  unfold State.classify
  rw [logRecover_eq]
  extract_lets s1 h
  split
  exact ⟨fput_flash .., fput_mem .., fput_now .., by rw [fput_hearth], by rw [fput_hearth], by rw [fput_hearth], _, reg_fput_same ..⟩

/-- CONSEC_FAIL depends on flash, the log and the Hearth's notes of starts. -/
theorem classify_consec {s t : State} (hf : t.flash = s.flash) (hl : t.log = s.log) (hq : t.hearth.startSeq = s.hearth.startSeq)
    (hc : t.hearth.consec = s.hearth.consec) (hp : t.hearth.prevLate = s.hearth.prevLate) (he : t.hearth.endBits = s.hearth.endBits)
    (hs : t.hearth.sinceStable = s.hearth.sinceStable) : t.classify.hearth.consec = s.classify.hearth.consec := by
  have hrec : ∀ a, State.startRecs { t with log := s.logRecover.log } a = State.startRecs { s with log := s.logRecover.log } a :=
    startRecs_congr hf rfl
  unfold State.classify
  rw [logRecover_eq t, logRecover_eq s, logRecover_congr hf hl]
  dsimp only
  simp only [hrec, hq, hc, hp, he, hs]
  cases s.hearth.startSeq with
  | some q =>
    dsimp only
    simp only [fput_hearth]
  | none =>
    dsimp only
    generalize foldStarts _ _ = p
    obtain ⟨consec, recs, late⟩ := p
    dsimp only
    simp only [fput_hearth]

end Sys2Proof.Machine

namespace Sys2Proof.Machine
-- One proof at a time, as in Sys2Proof/Laws: each waiting proof would keep a thread and its stack.
set_option Elab.async false

/-! ### The ways in which a start ends -/

/-- Acceptance of records moves no register but its two counters. -/
def acceptReg (a : Nat) : Prop := a = rEvrAcceptCnt ∨ a = rEvrDropCnt

theorem notify_touch (s : State) (kind p : Nat) : Touch (fun _ => False) s (s.notify kind p) := by
  unfold State.notify
  split
  · exact .of_same rfl rfl rfl
  · split
    · exact .refl s
    · exact .of_same rfl rfl rfl

theorem accept_touch (s : State) (r : EvRec) : Touch acceptReg s (s.accept r) := by
  unfold State.accept
  dsimp only
  have hput : ∀ l d, Touch acceptReg s (State.count { s with log := l, dump := d } rEvrAcceptCnt 1) := fun l d =>
    (Touch.of_same (A := acceptReg) (s := s) (t := { s with log := l, dump := d }) rfl rfl rfl).trans (.count _ 1 (.inl rfl))
  have hdrop : ∀ l, Touch acceptReg s (State.count { s with log := l } rEvrDropCnt 1) := fun l =>
    (Touch.of_same (A := acceptReg) (s := s) (t := { s with log := l }) rfl rfl rfl).trans (.count _ 1 (.inr rfl))
  split
  · split
    · exact (hput ..).trans ((notify_touch ..).mono fun _ h => h.elim)
    · exact hput ..
  · exact hdrop _

theorem acceptAll_touch (s : State) : Touch acceptReg s s.acceptAll :=
  (Touch.of_same (A := acceptReg) (s := s) (t := { s with log := { s.log with arrivals := [] } }) rfl rfl rfl).trans
    (.foldl _ _ (fun u r _ => accept_touch u r) _)

/-- A failed start says so in its last record. -/
theorem startFailBy_fields (s : State) (unit cause : Nat) : (s.startFailBy unit cause).hearth.boot = .failed ∧
    (s.startFailBy unit cause).log.arrivals = s.log.arrivals ++ [evr 0x0010 unit 0 0 0 cause] ∧ Quiet s (s.startFailBy unit cause) :=
  ⟨rfl, rfl, fun _ => rfl, fun _ => rfl, rfl⟩

/-- The registers that the run phase takes over. -/
def runReg (a : Nat) : Prop := a = rEthStatus ∨ a = rPinCtl ∨ a = rDumpStatus ∨ a = rDumpCfg

/-- What taking over the port changes once the reserved part of HBM is zero; `u2` is the state with the dump not yet read, if there is one, held. -/
theorem entered_fields {s u u2 : State} (hh : u.hearth = s.hearth) (hf : u.flash = s.flash) (hr : u.regs = s.regs)
    (h2 : u2 = (u.fput rEthStatus fEthStatusPhase 2).fput rPinCtl fPinCtlRelease 1 ∨
      u2 = (((u.fput rEthStatus fEthStatusPhase 2).fput rPinCtl fPinCtlRelease 1).fput rDumpStatus fDumpStatusValid 1).fput rDumpCfg fDumpCfgArm 0) :
    let w : State := { u2 with hearth := { u2.hearth with boot := .run } }
    w.hearth.boot = .run ∧ w.hearth.wdt = s.hearth.wdt ∧ w.flash = s.flash ∧ w.flag rPinCtl fPinCtlRelease = true ∧
      w.fget rEthStatus fEthStatusPhase = 2 ∧ RegsBut runReg s w := by
  intro w
  have hwr : w.regs = u2.regs := rfl
  obtain ⟨u1, hu1⟩ : ∃ u1, u1 = (u.fput rEthStatus fEthStatusPhase 2).fput rPinCtl fPinCtlRelease 1 := ⟨_, rfl⟩
  rw [← hu1] at h2
  have hpin : u1.flag rPinCtl fPinCtlRelease = true := by
    rw [hu1]
    exact flag_fput_same_one _ _ _ (by decide) (by decide)
  have hphase : u1.fget rEthStatus fEthStatusPhase = 2 := by
    rw [hu1, fget_fput_other _ _ _ _ (by decide), fget_fput_same _ _ _ _ (by decide) (by decide)]
    rfl
  have hh1 : u1.hearth = s.hearth := by rw [hu1, fput_hearth, fput_hearth, hh]
  have hf1 : u1.flash = s.flash := by rw [hu1, fput_flash, fput_flash, hf]
  have hr1 : RegsBut runReg s u1 := fun a ha => by
    rw [hu1, reg_fput_other _ _ _ fun h => ha (.inr (.inl h)), reg_fput_other _ _ _ fun h => ha (.inl h), reg_congr hr]
  have hd : u2.hearth = u1.hearth ∧ u2.flash = u1.flash ∧ RegsBut (fun a => a = rDumpStatus ∨ a = rDumpCfg) u1 u2 := by
    rcases h2 with h2 | h2
    · rw [h2]
      exact ⟨rfl, rfl, fun _ _ => rfl⟩
    · rw [h2]
      refine ⟨fput_hearth .., fput_flash .., fun a ha => ?_⟩
      rw [reg_fput_other _ _ _ fun h => ha (.inr h), reg_fput_other _ _ _ fun h => ha (.inl h)]
  obtain ⟨hh2, hf2, hr2⟩ := hd
  refine ⟨rfl, (congrArg HearthS.wdt (hh2.trans hh1) : u2.hearth.wdt = s.hearth.wdt), hf2.trans hf1, ?_, ?_, fun a ha => ?_⟩
  · exact (flag_congr ((reg_congr hwr _).trans (hr2 rPinCtl (by decide))) _).trans hpin
  · exact (congrArg fEthStatusPhase.get ((reg_congr hwr _).trans (hr2 rEthStatus (by decide)))).trans hphase
  · exact (reg_congr hwr a).trans ((hr2 a fun h => ha (.inr (.inr h))).trans (hr1 a ha))

theorem enterRun_fields (s : State) : s.enterRun.hearth.boot = .run ∧ s.enterRun.hearth.wdt = s.hearth.wdt ∧ s.enterRun.flash = s.flash ∧
    s.enterRun.flag rPinCtl fPinCtlRelease = true ∧ s.enterRun.fget rEthStatus fEthStatusPhase = 2 ∧ RegsBut runReg s s.enterRun := by
  unfold State.enterRun
  extract_lets u u1 hdr u2
  have h2 : u2 = u1 ∨ u2 = (u1.fput rDumpStatus fDumpStatusValid 1).fput rDumpCfg fDumpCfgArm 0 := by
    by_cases hc : crcOk hdr = true ∧ leAt hdr 56 1 = 2 ∧ leAt hdr 52 1 = 0
    · exact .inr (if_pos hc)
    · exact .inl (if_neg hc)
  exact entered_fields (u := u) (u2 := u2) rfl rfl rfl h2

/-- The run phase, entered with the watchdog armed. -/
theorem armedRun_fields (s : State) (img : FwImg) :
    let t := State.enterRun { s with hearth := { s.hearth with img := some img, trip := 0, wdt := some s.now } }
    t.hearth.boot = .run ∧ t.flag rPinCtl fPinCtlRelease = true ∧ t.fget rEthStatus fEthStatusPhase = 2 ∧
      t.fget rStartStatus fStartStatusBank = s.fget rStartStatus fStartStatusBank ∧ t.hearth.wdt = some s.now ∧ t.flash = s.flash := by
  intro t
  obtain ⟨hboot, hwdt, hflash, hpin, hphase, hregs⟩ := enterRun_fields { s with hearth := { s.hearth with img := some img, trip := 0, wdt := some s.now } }
  exact ⟨hboot, hpin, hphase, congrArg fStartStatusBank.get (hregs rStartStatus (by unfold runReg; decide)), hwdt, hflash⟩

/-- A record accepted at once leaves flash, the time and START_STATUS. -/
theorem emit_acceptAll_fields (s : State) (r : EvRec) : (s.emit r).acceptAll.flash = s.flash ∧ (s.emit r).acceptAll.now = s.now ∧
    (s.emit r).acceptAll.fget rStartStatus fStartStatusBank = s.fget rStartStatus fStartStatusBank := by
  obtain ⟨-, -, hn⟩ := outsideLog_iff.1 (offLog_outsideLog.acceptAll (s.emit r))
  have htouch := acceptAll_touch (s.emit r)
  exact ⟨htouch.flash.trans (emit_flash ..), hn.trans (emit_now ..),
    (htouch.fget (show ¬ acceptReg rStartStatus by unfold acceptReg; decide) _).trans (emit_fget ..)⟩

/-- A start with a verified image, once its PLLs, its training and its self-test have passed. -/
theorem bringUp_runs {s : State} {env : StartEnv} {img : FwImg} (hp : env.pllFail = []) (ht : env.trainFail = []) (hs : env.selfTestOk = true)
    (hb : img.bank < 4) : (s.bringUp env img).hearth.boot = .run ∧ (s.bringUp env img).flag rPinCtl fPinCtlRelease = true ∧
      (s.bringUp env img).fget rEthStatus fEthStatusPhase = 2 ∧ (s.bringUp env img).fget rStartStatus fStartStatusBank = img.bank ∧
      (s.bringUp env img).hearth.wdt = some s.now ∧ (s.bringUp env img).flash = s.flash := by
  unfold State.bringUp
  extract_lets s0 st p4 s1 src s2 plls
  have hplls : plls = [] := by rw [show plls = env.pllFail.filter PllDom.late from rfl, hp]; rfl
  have h0 : s0.flash = s.flash ∧ s0.now = s.now ∧ s0.fget rStartStatus fStartStatusBank = img.bank := by
    refine ⟨fput_flash .., fput_now .., (fget_fput_same _ _ _ _ (by decide) (by decide)).trans (Nat.mod_eq_of_lt hb)⟩
  have h1 : s1.flash = s0.flash ∧ s1.now = s0.now ∧ s1.fget rStartStatus fStartStatusBank = s0.fget rStartStatus fStartStatusBank := emit_acceptAll_fields _ _
  rw [hplls, if_neg (by simp), ht, if_neg (by simp), hs, if_neg (by decide)]
  obtain ⟨hf0, hn0, hbank0⟩ := h0
  obtain ⟨hf1, hn1, hbank1⟩ := h1
  obtain ⟨hboot, hpin, hphase, hbank, hwdt, hflash⟩ := armedRun_fields s1 img
  exact ⟨hboot, hpin, hphase, hbank.trans (hbank1.trans hbank0), hwdt.trans (congrArg some (hn1.trans hn0)), hflash.trans (hf1.trans hf0)⟩

/-- A start whose PLLs of step 5 do not all lock. -/
theorem bringUp_unlocked {s : State} {env : StartEnv} {img : FwImg} (hp : env.pllFail.filter PllDom.late ≠ []) : (s.bringUp env img).hearth.boot = .failed ∧
    ∃ pre, (s.bringUp env img).log.arrivals = pre ++ [evr 0x0010 0x11 0 0 0 3] := by
  unfold State.bringUp
  extract_lets s0 st p4 s1 src s2 plls
  rw [if_pos hp]
  obtain ⟨hboot, harr, -⟩ := startFailBy_fields (s2.pllRecords plls) 0x11 3
  exact ⟨hboot, _, harr⟩

theorem rLinkStatus_ne_start (n : Nat) : rEthStatus ≠ rLinkStatus n ∧ rStartStatus ≠ rLinkStatus n := by
  unfold rEthStatus rStartStatus rLinkStatus
  constructor <;> omega

/-- Porch by strap: the front die alone is powered. -/
theorem enterPorch_fields (s : State) : (s.enterPorch 1).hearth.boot = .porch ∧ (s.enterPorch 1).fget rEthStatus fEthStatusPhase = 1 ∧
    (s.enterPorch 1).reg rStartStatus = s.reg rStartStatus ∧ ∀ a, (s.enterPorch 1).rdB a = 0 := by
  unfold State.enterPorch
  extract_lets s1 s2 s3
  have h2 : ∀ a, (∀ n, a ≠ rLinkStatus n) → s2.reg a = s1.reg a := fun a ha =>
    foldl_same (fun u => u.reg a) _ (fun u n => reg_fput_other _ _ _ (ha n)) _ _
  have h3 : ∀ a, (isArrStatus a || isGridCol a) = false → s3.reg a = s2.reg a := fun a ha => by
    show sget regReset (s2.regs.filter fun e => !(isArrStatus e.1 || isGridCol e.1)) a = _
    rw [sget_filter regReset (fun k => !(isArrStatus k || isGridCol k)), ha]
    rfl
  have heth : s3.reg rEthStatus = s1.reg rEthStatus := (h3 _ (by decide)).trans (h2 _ fun n => (rLinkStatus_ne_start n).1)
  have hstart : s3.reg rStartStatus = s1.reg rStartStatus := (h3 _ (by decide)).trans (h2 _ fun n => (rLinkStatus_ne_start n).2)
  clear_value s3
  refine ⟨rfl, ?_, ?_, fun a => rfl⟩
  · show fEthStatusPhase.get (s3.reg rEthStatus) = 1
    rw [heth]
    exact fget_fput_same _ _ _ _ (by decide) (by decide)
  · show s3.reg rStartStatus = _
    rw [hstart]
    exact reg_fput_other _ _ _ (by decide)

end Sys2Proof.Machine

namespace Sys2Proof.Machine
-- One proof at a time, as in Sys2Proof/Laws: each waiting proof would keep a thread and its stack.
set_option Elab.async false

/-! ### POWER_GOOD -/

/-- MOD_RESET_N's pin no longer holds power-good. -/
def State.pinReleased (s : State) : State := { s with hearth := { s.hearth with resetLow := false } }

/-- The state in which a start at power-good has taken the straps. -/
def State.strapped (s : State) (env : StartEnv) : State :=
  ((s.setReg rStartStatus (Fd.put fStartStatusClkMode (Fd.put fStartStatusBootSrc 0 env.bootSrc.toNat) env.clkMode.toNat)).fput rEbcStatus
    fEbcStatusRefSrc (if env.clkMode.toNat = 1 ∧ s.flag rEbcStatus fEbcStatusRefFailover = false then 1 else 0)).pinReleased

/-- The PLLs of step 1 that fail. -/
def earlyPlls (env : StartEnv) : List PllDom :=
  env.pllFail.filter fun d => d == .front || (d == .link 0 && (env.bootSrc.toNat == 2 || env.clkMode.toNat == 2))

/-- A start at power-good that follows neither the watchdog nor a warm reset. -/
theorem powerGood_eq {s : State} (env : StartEnv) (hup : s.hearth.up = true) (hboot : s.hearth.boot = .rails)
    (h3 : bitN (s.fget rRstCause fRstCauseCause) 3 = false) (h4 : bitN (s.fget rRstCause fRstCauseCause) 4 = false) :
    exec (.powerGood env) s = .next (if earlyPlls env ≠ [] then ((s.strapped env).classify.noteTrip.pllRecords (earlyPlls env)).startFail 3
      else (s.strapped env).classify.noteTrip.bootRom env) := by
  have hwarm : s.warmStart = false := by
    unfold State.warmStart
    dsimp only
    rw [h3, h4]
    rfl
  show execPowerGood env s = _
  unfold execPowerGood
  rw [if_neg (by rw [hup, hboot]; decide)]
  dsimp only
  rw [hwarm]
  rfl

theorem noteTrip_fields (s : State) : s.noteTrip.flash = s.flash ∧ s.noteTrip.now = s.now ∧ s.noteTrip.hearth.fuses = s.hearth.fuses ∧
    s.noteTrip.hearth.consec = s.hearth.consec ∧ s.noteTrip.regs = s.regs := by
  unfold State.noteTrip
  split
  · exact ⟨rfl, rfl, rfl, rfl, rfl⟩
  · exact ⟨rfl, rfl, rfl, rfl, rfl⟩

/-- Where a start stands once the straps are read and the previous start is classed. -/
structure Strapped (env : StartEnv) (s t : State) : Prop where
  flash : t.flash = s.flash
  now : t.now = s.now
  fuses : t.hearth.fuses = s.hearth.fuses
  consec : t.hearth.consec = s.classify.hearth.consec
  src : t.fget rStartStatus fStartStatusBootSrc = env.bootSrc.toNat
  mode : t.fget rStartStatus fStartStatusClkMode = env.clkMode.toNat

theorem pinReleased_fields (s : State) : s.pinReleased.flash = s.flash ∧ s.pinReleased.now = s.now ∧ s.pinReleased.log = s.log ∧
    s.pinReleased.hearth = { s.hearth with resetLow := false } ∧ s.pinReleased.regs = s.regs := ⟨rfl, rfl, rfl, rfl, rfl⟩

theorem strapped_fields (s : State) (env : StartEnv) : (s.strapped env).flash = s.flash ∧ (s.strapped env).now = s.now ∧
    (s.strapped env).log = s.log ∧ (s.strapped env).hearth = { s.hearth with resetLow := false } ∧
    (s.strapped env).reg rStartStatus = Fd.put fStartStatusClkMode (Fd.put fStartStatusBootSrc 0 env.bootSrc.toNat) env.clkMode.toNat := by
  unfold State.strapped
  generalize (if env.clkMode.toNat = 1 ∧ s.flag rEbcStatus fEbcStatusRefFailover = false then 1 else 0) = ref
  obtain ⟨hf, hn, hl, hh, hr⟩ := pinReleased_fields ((s.setReg rStartStatus (Fd.put fStartStatusClkMode (Fd.put fStartStatusBootSrc 0 env.bootSrc.toNat)
    env.clkMode.toNat)).fput rEbcStatus fEbcStatusRefSrc ref)
  rw [fput_flash, setReg_flash] at hf
  rw [fput_now, setReg_now] at hn
  rw [fput_log, setReg_log] at hl
  rw [fput_hearth, setReg_hearth] at hh
  exact ⟨hf, hn, hl, hh, (reg_congr hr _).trans ((reg_fput_other _ _ _ (by decide)).trans (reg_setReg_same ..))⟩

theorem strapped_classed (s : State) (env : StartEnv) : Strapped env s (s.strapped env).classify.noteTrip := by
  obtain ⟨hf, hn, hl, hh, hreg⟩ := strapped_fields s env
  have hclass := classify_fields (s.strapped env)
  have hconsec : (s.strapped env).classify.hearth.consec = s.classify.hearth.consec :=
    classify_consec hf hl (by rw [hh]) (by rw [hh]) (by rw [hh]) (by rw [hh]) (by rw [hh])
  obtain ⟨hnf, hnn, hnfu, hnc, hnr⟩ := noteTrip_fields (s.strapped env).classify
  obtain ⟨v, hv⟩ := hclass.start
  have hstart : (s.strapped env).classify.noteTrip.reg rStartStatus =
      fStartStatusConsecFail.put (Fd.put fStartStatusClkMode (Fd.put fStartStatusBootSrc 0 env.bootSrc.toNat) env.clkMode.toNat) v :=
    (reg_congr hnr _).trans (hv.trans (by rw [hreg]))
  refine ⟨hnf.trans (hclass.flash.trans hf), hnn.trans (hclass.now.trans hn), hnfu.trans (hclass.fuses.trans (by rw [hh])), hnc.trans hconsec, ?_, ?_⟩
  · rw [State.fget, hstart, Fd.get_put_above _ _ _ _ (by decide) (by decide) (by decide) (by decide), Fd.get_put_above _ _ _ _ (by decide) (by decide) (by decide) (by decide),
      Fd.get_put _ _ _ (by decide) (by decide)]
    exact Nat.mod_eq_of_lt env.bootSrc.isLt
  · rw [State.fget, hstart, Fd.get_put_above _ _ _ _ (by decide) (by decide) (by decide) (by decide), Fd.get_put _ _ _ (by decide) (by decide)]
    exact Nat.mod_eq_of_lt env.clkMode.isLt

/-- A boot from flash, of the newest valid image. -/
theorem bootRom_flash {s : State} {env : StartEnv} {b : Nat} (hsrc : s.fget rStartStatus fStartStatusBootSrc = 0) (hc : s.hearth.consec < 2)
    (hb : s.newestBank = some b) : s.bootRom env = s.bringUp env (fwImg (s.bankHdr b) (leAt (s.bankHdr b) 356 8) b) := by
  have hbank : s.bootBank s.hearth.consec = some b := by
    unfold State.bootBank
    rw [hb]
    exact congrArg some (if_neg fun h => by omega)
  unfold State.bootRom
  dsimp only
  rw [hsrc, if_neg (by decide), if_neg (by decide), if_neg (by omega), if_neg (by decide), hbank]

section
variable {s : State} {env : StartEnv} (hup : s.hearth.up = true) (hboot : s.hearth.boot = .rails)
  (h3 : bitN (s.fget rRstCause fRstCauseCause) 3 = false) (h4 : bitN (s.fget rRstCause fRstCauseCause) 4 = false)
include hup hboot h3 h4

theorem runs_powerGood_front (hf : .front ∈ env.pllFail) : Runs (.powerGood env) s fun t => t.hearth.boot = .failed ∧
    ∃ pre, t.log.arrivals = pre ++ [evr 0x0010 0x10 0 0 0 3] := by
  have hrun := powerGood_eq env hup hboot h3 h4
  rw [if_pos (show earlyPlls env ≠ [] from List.ne_nil_of_mem (List.mem_filter.2 ⟨hf, rfl⟩))] at hrun
  obtain ⟨hfail, harr, -⟩ := startFailBy_fields ((s.strapped env).classify.noteTrip.pllRecords (earlyPlls env)) 0x10 3
  exact ⟨_, hrun, hfail, _, harr⟩

theorem runs_powerGood_porch (hp : env.pllFail = []) (hsrc : env.bootSrc = 3) : Runs (.powerGood env) s fun t => t.hearth.boot = .porch ∧
    t.fget rEthStatus fEthStatusPhase = 1 ∧ t.fget rStartStatus fStartStatusBootSrc = 3 ∧
    t.fget rStartStatus fStartStatusClkMode = env.clkMode.toNat ∧ ∀ a, t.rdB a = 0 := by
  have hrun := powerGood_eq env hup hboot h3 h4
  rw [if_neg (not_not_intro (show earlyPlls env = [] by rw [earlyPlls, hp]; rfl))] at hrun
  have hs := strapped_classed s env
  obtain ⟨u, hu⟩ : ∃ u, u = (s.strapped env).classify.noteTrip := ⟨_, rfl⟩
  rw [← hu] at hs hrun
  have hsrc3 : u.fget rStartStatus fStartStatusBootSrc = 3 := by rw [hs.src, hsrc]; rfl
  have hrom : u.bootRom env = u.enterPorch 1 := if_pos hsrc3
  obtain ⟨hporch, hphase, hstart, hmem⟩ := enterPorch_fields u
  rw [hrom] at hrun
  exact ⟨_, hrun, hporch, hphase, (congrArg fStartStatusBootSrc.get hstart).trans hsrc3, (congrArg fStartStatusClkMode.get hstart).trans hs.mode, hmem⟩

/-- A start from flash whose PLLs of step 1 lock brings up the newest valid image. -/
theorem powerGood_flash {b : Nat} (hp : ∀ d ∈ env.pllFail, PllDom.late d = true ∧ d ≠ .link 0) (hsrc : env.bootSrc = 0) (hc : s.classify.hearth.consec < 2)
    (hb : s.newestBank = some b) : ∃ (u : State) (img : FwImg), exec (.powerGood env) s = .next (u.bringUp env img) ∧ img.bank = b ∧ u.flash = s.flash ∧ u.now = s.now := by
  have hearly : earlyPlls env = [] := List.filter_eq_nil_iff.2 fun d hd => by
    obtain ⟨hl, h0⟩ := hp d hd
    have hfront : d ≠ .front := fun h => by rw [h] at hl; cases hl
    rw [beq_false_of_ne hfront, beq_false_of_ne h0]
    simp
  have hrun := powerGood_eq env hup hboot h3 h4
  rw [if_neg (not_not_intro hearly)] at hrun
  have hs := strapped_classed s env
  obtain ⟨u, hu⟩ : ∃ u, u = (s.strapped env).classify.noteTrip := ⟨_, rfl⟩
  rw [← hu] at hs hrun
  have hsrc0 : env.bootSrc.toNat = 0 := congrArg BitVec.toNat hsrc
  have hrom := bootRom_flash (env := env) (hs.src.trans hsrc0) (by rw [hs.consec]; exact hc) ((newestBank_congr hs.flash hs.fuses).trans hb)
  rw [hrom] at hrun
  exact ⟨u, _, hrun, rfl, hs.flash, hs.now⟩

theorem runs_powerGood_unlocked {b : Nat} (hne : env.pllFail ≠ []) (hp : ∀ d ∈ env.pllFail, PllDom.late d = true ∧ d ≠ .link 0) (hsrc : env.bootSrc = 0)
    (hc : s.classify.hearth.consec < 2) (hb : s.newestBank = some b) : Runs (.powerGood env) s fun t => t.hearth.boot = .failed ∧
    ∃ pre, t.log.arrivals = pre ++ [evr 0x0010 0x11 0 0 0 3] := by
  obtain ⟨u, img, hrun, -⟩ := powerGood_flash hup hboot h3 h4 hp hsrc hc hb
  have hall : env.pllFail.filter PllDom.late = env.pllFail := List.filter_eq_self.2 fun d hd => (hp d hd).1
  exact ⟨_, hrun, bringUp_unlocked (by rw [hall]; exact hne)⟩

theorem runs_powerGood_runs {b : Nat} (hp : env.pllFail = []) (hself : env.selfTestOk = true) (ht : env.trainFail = []) (hsrc : env.bootSrc = 0)
    (hc : s.classify.hearth.consec < 2) (hb : s.newestBank = some b) : Runs (.powerGood env) s fun t => t.hearth.boot = .run ∧
    t.flag rPinCtl fPinCtlRelease = true ∧ t.fget rEthStatus fEthStatusPhase = 2 ∧ t.fget rStartStatus fStartStatusBank = b ∧
    t.hearth.wdt = some s.now ∧ t.flash = s.flash := by
  obtain ⟨u, img, hrun, hbank, hf, hn⟩ := powerGood_flash hup hboot h3 h4 (fun d hd => by rw [hp] at hd; cases hd) hsrc hc hb
  have hb4 : img.bank < 4 := by have := newestBank_le hb; omega
  obtain ⟨hrunning, hpin, hphase, hst, hwdt, hflash⟩ := bringUp_runs (s := u) hp ht hself hb4
  exact ⟨_, hrun, hrunning, hpin, hphase, hst.trans hbank, hwdt.trans (by rw [hn]), hflash.trans hf⟩

end

end Sys2Proof.Machine

namespace Sys2Proof.Machine
-- One proof at a time, as in Sys2Proof/Laws: each waiting proof would keep a thread and its stack.
set_option Elab.async false

/-! ### START_STABLE -/

/-- The part noted as stable, with or without fuses burned. -/
theorem stabled_fields {s s1 t : State} (h1 : s1 = (s.emit (evr 0x0002 0x11 0)).fput rStartStatus fStartStatusStable 1) (hr : t.regs = s1.regs)
    (hm : t.mem = s1.mem) (hst : t.hearth.stableAt = some s.now) (hl : ∃ l, t.log.arrivals = s1.log.arrivals ++ l) :
    t.flag rStartStatus fStartStatusStable = true ∧ t.hearth.stableAt = some s.now ∧
      (∃ l, t.log.arrivals = s.log.arrivals ++ evr 0x0002 0x11 0 :: l) ∧ RegsBut (· = rStartStatus) s t ∧ SameMem s t := by
  obtain ⟨l, hl⟩ := hl
  refine ⟨(flag_congr (reg_congr hr _) _).trans ?_, hst, ⟨l, ?_⟩, fun a ha => (reg_congr hr a).trans ?_, rdB_congr (hm.trans ?_)⟩
  · rw [h1]
    exact flag_fput_same_one _ _ _ (by decide) (by decide)
  · rw [hl, h1, fput_log, emit_arrivals, List.append_assoc]
    rfl
  · rw [h1, reg_fput_other _ _ _ ha, emit_reg]
  · rw [h1, fput_mem, emit_mem]

theorem runs_startStable {s : State} (hboot : s.hearth.boot = .run) (hs : s.hearth.stableAt = none) : Runs .startStable s fun t =>
    t.flag rStartStatus fStartStatusStable = true ∧ t.hearth.stableAt = some s.now ∧
      (∃ l, t.log.arrivals = s.log.arrivals ++ evr 0x0002 0x11 0 :: l) ∧ RegsBut (· = rStartStatus) s t ∧ SameMem s t := by
  show ∃ t, execStartStable s = .next t ∧ _
  unfold execStartStable
  rw [if_neg (by rw [hboot, hs]; decide)]
  obtain ⟨s1, h1⟩ : ∃ s1, s1 = (s.emit (evr 0x0002 0x11 0)).fput rStartStatus fStartStatusStable 1 := ⟨_, rfl⟩
  rw [← h1]
  dsimp only
  cases s1.hearth.img with
  | none => exact ⟨_, rfl, stabled_fields h1 rfl rfl rfl ⟨[], (List.append_nil _).symm⟩⟩
  | some i =>
    refine ⟨_, rfl, ?_⟩
    split
    · exact stabled_fields h1 rfl rfl rfl ⟨_, rfl⟩
    · exact stabled_fields h1 rfl rfl rfl ⟨[], (List.append_nil _).symm⟩

/-! ### Boot from a neighbour -/

theorem mem_ctlInsert (q : List CtlMsg) (m : CtlMsg) : m ∈ ctlInsert q m := by
  unfold ctlInsert
  split
  · exact List.mem_append_right _ List.mem_cons_self
  · exact List.mem_append_right _ (List.mem_singleton_self m)

theorem ctlTake_lasting (s : State) (n : Nat) (c : CtlMsg) : (s.ctlTake n c).lasting = s.lasting := by
  rw [State.ctlTake]
  split
  · exact offSignals_lasting.modLink ..
  · rfl

theorem hkBytes_congr {s t : State} (h : t.hearth = s.hearth) (o n : Nat) : t.hkBytes o n = s.hkBytes o n := by
  unfold State.hkBytes
  rw [h]

theorem hkCheck_congr {s t : State} (h : t.hearth = s.hearth) : t.hkCheck = s.hkCheck := by
  unfold State.hkCheck
  rw [hkBytes_congr h, hkBytes_congr h, fwCheck_congr (s := s) (t := t) (by rw [h])]

theorem runBytes_congr {s t : State} (h : t.hearth = s.hearth) (hf : t.flash = s.flash) (i : FwImg) (o n : Nat) : t.runBytes i o n = s.runBytes i o n := by
  unfold State.runBytes
  rw [flashBytes_of_flash hf, hkBytes_congr h]

/-- A request for the running image on a shuttered link, where there is none to serve, is refused. -/
theorem runs_bootReq_refused {s : State} (h5 : s.linkState 0 = lsShuttered) (hboot : s.hearth.boot = .run)
    (hno : s.flag rSecCfg fSecCfgBootServe = false ∨ s.hearth.img = none) (hmode : (s.link 0).mode = false) : Runs (.bootReq 0) s fun t =>
    .group 7 { bootMsg with arg := 1 } ∈ (t.link 0).ctlOut ∧ Quiet s t := by
  obtain ⟨u, hu⟩ : ∃ u, u = s.ctlTake 0 (.group 5 bootMsg) := ⟨_, rfl⟩
  obtain ⟨hr, hm, -, -, hf, -, q, hlink⟩ := ctlTake_fields s 0 0 (.group 5 bootMsg)
  have hstate := linkState_ctlTake s 0 0 (.group 5 bootMsg)
  rw [← hu] at hr hm hf hlink hstate
  have hsend : u.ctlSend 0 (.group 7 { bootMsg with arg := 1 }) =
      u.modLink 0 fun l => { l with ctlOut := ctlInsert l.ctlOut (.group 7 { bootMsg with arg := 1 }) } := by
    unfold State.ctlSend
    dsimp only
    rw [if_neg (by rw [hlink]; simp [hmode]), if_pos (Or.inr ⟨hstate.trans h5, by decide, by decide⟩)]
  have hrun : exec (.bootReq 0) s = .next (u.ctlSend 0 (.group 7 { bootMsg with arg := 1 })) := by
    show execBootReq 0 s = _
    unfold execBootReq
    dsimp only
    rw [if_neg (by rw [h5, hboot]; decide), ← hu]
    cases hi : s.hearth.img with
    | none => rfl
    | some i =>
      have hserve : s.flag rSecCfg fSecCfgBootServe = false := hno.resolve_right (by rw [hi]; simp)
      rw [hserve]
  rw [hsend] at hrun
  refine ⟨_, hrun, ?_, reg_congr ((modLink_regs ..).trans hr), rdB_congr ((modLink_mem ..).trans hm), (modLink_flash ..).trans hf⟩
  rw [link_modLink_same]
  exact mem_ctlInsert ..

/-- A request for the running image on a shuttered link that serves it: the first chunk is the next to go. -/
theorem runs_bootReq_serves {s : State} {i : FwImg} (h5 : s.linkState 0 = lsShuttered) (hboot : s.hearth.boot = .run)
    (hserve : s.flag rSecCfg fSecCfgBootServe = true) (himg : s.hearth.img = some i) : Runs (.bootReq 0) s fun t =>
    (t.link 0).serve = some 0 ∧ t.bootNext = some (.group 6 { bootMsg with value := BitVec.ofNat 64 (leNat (s.runBytes i 0 8)) }, some 1) ∧ Quiet s t := by
  obtain ⟨u, hu⟩ : ∃ u, u = s.ctlTake 0 (.group 5 bootMsg) := ⟨_, rfl⟩
  obtain ⟨hr, hm, -, -, hf, -⟩ := ctlTake_fields s 0 0 (.group 5 bootMsg)
  obtain ⟨-, hh, -⟩ := lasting_iff.1 (ctlTake_lasting s 0 (.group 5 bootMsg))
  rw [← hu] at hr hm hf hh
  have hrun : exec (.bootReq 0) s = .next (u.modLink 0 fun l => { l with serve := some 0 }) := by
    show execBootReq 0 s = _
    unfold execBootReq
    dsimp only
    rw [if_neg (by rw [h5, hboot]; decide), ← hu, himg, hserve]
  obtain ⟨t, ht⟩ : ∃ t, t = u.modLink 0 fun l => { l with serve := some 0 } := ⟨_, rfl⟩
  rw [← ht] at hrun
  have hlink : (t.link 0).serve = some 0 := by rw [ht, link_modLink_same]
  have hth : t.hearth = s.hearth := by rw [ht, modLink_hearth, hh]
  have htf : t.flash = s.flash := by rw [ht, modLink_flash, hf]
  refine ⟨t, hrun, hlink, ?_, reg_congr (by rw [ht, modLink_regs, hr]), rdB_congr (by rw [ht, modLink_mem, hm]), htf⟩
  unfold State.bootNext
  rw [hlink, hth, himg]
  dsimp only
  rw [if_pos (by omega), runBytes_congr hth htf, show min 8 (4096 + i.len - 8 * 0) = 8 by omega]
  rfl

theorem bootReq_idle {s : State} (n : LinkId) (h : n.val ≠ 0 ∨ s.linkState 0 ≠ lsShuttered ∨ s.hearth.boot ≠ .run) : exec (.bootReq n) s = .next s :=
  if_pos h

theorem hkWrite_other (b : Bytes) : ∀ (m : List Host.Cell) (o x : Nat), x < o → sget (fun _ => 0) (hkWrite m o b) x = sget (fun _ => 0) m x := by
  induction b with
  | nil => exact fun m o x _ => rfl
  | cons y b ih =>
    intro m o x hx
    rw [hkWrite, ih _ _ _ (by omega)]
    exact sget_sset_other _ _ _ _ _ (by omega)

theorem hkWrite_in (b : Bytes) : ∀ (m : List Host.Cell) (o i : Nat) (h : i < b.length), sget (fun _ => 0) (hkWrite m o b) (o + i) = b[i] := by
  induction b with
  | nil => exact fun m o i h => absurd h (by simp)
  | cons y b ih =>
    intro m o i h
    rw [hkWrite]
    cases i with
    | zero =>
      rw [hkWrite_other _ _ _ _ (by omega)]
      exact sget_sset_same ..
    | succ i =>
      rw [show o + (i + 1) = o + 1 + i by omega, ih _ _ _ (by simpa using h)]
      rfl

/-- Bytes written to the Housekeeper's memory read back. -/
theorem hkBytes_hkWrite {t : State} {m : List Host.Cell} {o : Nat} {b : Bytes} (h : t.hearth.hkMem = hkWrite m o b) : t.hkBytes o b.length = b := by
  refine List.ext_getElem (by simp [State.hkBytes]) fun i h1 h2 => ?_
  simp only [State.hkBytes, List.getElem_map, List.getElem_range]
  rw [h]
  exact hkWrite_in b m o i h2

section
variable {s : State} (hboot : s.hearth.boot = .neighbour) (h5 : s.linkState 0 = lsShuttered)
include hboot h5

/-- The start that link 0 serves, its message taken. -/
theorem neighbour_taken (c : CtlMsg) : (s.ctlTake 0 c).hearth = s.hearth ∧ (s.ctlTake 0 c).now = s.now ∧ (s.ctlTake 0 c).regs = s.regs ∧
    (s.ctlTake 0 c).mem = s.mem ∧ (s.ctlTake 0 c).flash = s.flash ∧ (s.ctlTake 0 c).log = s.log ∧
    ¬ ((s.ctlTake 0 c).hearth.boot ≠ .neighbour ∨ (s.ctlTake 0 c).linkState 0 ≠ lsShuttered) := by
  obtain ⟨hm, hh, hn, hf, -⟩ := lasting_iff.1 (ctlTake_lasting s 0 c)
  obtain ⟨hr, -, hl, -⟩ := ctlTake_fields s 0 0 c
  exact ⟨hh, hn, hr, hm, hf, hl, by rw [hh, hboot, linkState_ctlTake, h5]; decide⟩

theorem runs_bootData_next {idx : BitVec 24} (v : Word) (hlt : idx.toNat < 0x200000) (hidx : idx.toNat = s.hearth.bootIdx) : Runs (.bootData idx v) s fun t =>
    t.hearth.bootIdx = s.hearth.bootIdx + 1 ∧ t.hkBytes (8 * idx.toNat) 8 = natBytes 8 v.toNat ∧ Quiet s t := by
  obtain ⟨u, hu⟩ : ∃ u, u = s.ctlTake 0 (.group 6 { bootMsg with arg := idx, value := v }) := ⟨_, rfl⟩
  obtain ⟨hh, -, hr, hm, hf, -, hgo⟩ := neighbour_taken hboot h5 (.group 6 { bootMsg with arg := idx, value := v })
  rw [← hu] at hh hr hm hf hgo
  have hrun : exec (.bootData idx v) s = .next { u with hearth := { u.hearth with
      bootIdx := u.hearth.bootIdx + 1, hkMem := hkWrite u.hearth.hkMem (8 * idx.toNat) (natBytes 8 v.toNat) } } := by
    show execBootData idx v s = _
    unfold execBootData
    dsimp only
    rw [← hu, if_neg hgo, if_neg (by rw [hh]; omega)]
  refine ⟨_, hrun, by rw [hh], ?_, reg_congr hr, rdB_congr hm, hf⟩
  rw [show 8 = (natBytes 8 v.toNat).length from (length_natBytes 8 _).symm]
  exact hkBytes_hkWrite rfl

theorem runs_bootData_gap {idx : BitVec 24} (v : Word) (hbad : 0x200000 ≤ idx.toNat ∨ idx.toNat ≠ s.hearth.bootIdx) : Runs (.bootData idx v) s fun t =>
    t.hearth.boot = .failed ∧ t.log.arrivals = s.log.arrivals ++ [evr 0x0010 0x10 0 0 0 4] := by
  obtain ⟨u, hu⟩ : ∃ u, u = s.ctlTake 0 (.group 6 { bootMsg with arg := idx, value := v }) := ⟨_, rfl⟩
  obtain ⟨hh, -, -, -, -, hl, hgo⟩ := neighbour_taken hboot h5 (.group 6 { bootMsg with arg := idx, value := v })
  rw [← hu] at hh hl hgo
  have hrun : exec (.bootData idx v) s = .next (u.startFail 4) := by
    show execBootData idx v s = _
    unfold execBootData
    dsimp only
    rw [← hu, if_neg hgo, if_pos (by rw [hh]; exact hbad.symm)]
  obtain ⟨hfail, harr, -⟩ := startFailBy_fields u 0x10 4
  exact ⟨_, hrun, hfail, harr.trans (by rw [hl])⟩

theorem runs_bootEnd_refused (len : Word) (env : StartEnv) : Runs (.bootEnd true len env) s fun t =>
    t.hearth.boot = .failed ∧ t.log.arrivals = s.log.arrivals ++ [evr 0x0010 0x10 0 0 0 4] := by
  obtain ⟨u, hu⟩ : ∃ u, u = s.ctlTake 0 (.group 7 { bootMsg with arg := BitVec.ofNat 24 (bton true), value := len }) := ⟨_, rfl⟩
  obtain ⟨-, -, -, -, -, hl, hgo⟩ := neighbour_taken hboot h5 (.group 7 { bootMsg with arg := BitVec.ofNat 24 (bton true), value := len })
  rw [← hu] at hl hgo
  have hrun : exec (.bootEnd true len env) s = .next (u.startFail 4) := by
    show execBootEnd true len env s = _
    unfold execBootEnd
    dsimp only
    rw [← hu, if_neg hgo, if_pos (Or.inl rfl)]
  obtain ⟨hfail, harr, -⟩ := startFailBy_fields u 0x10 4
  exact ⟨_, hrun, hfail, harr.trans (by rw [hl])⟩

/-- BOOT_END of an image that has come whole goes by its check. -/
theorem bootEnd_whole {len : Word} (env : StartEnv) (hlen : len.toNat ≤ 8 * s.hearth.bootIdx) : ∃ u : State, u.hearth = s.hearth ∧ u.now = s.now ∧ u.log = s.log ∧
    exec (.bootEnd false len env) s = if (s.hkCheck).isSome then .next (u.startFail 1) else .next (u.bringUp env (fwImg (u.hkBytes 0 4096) u.seqNext 3)) := by
  obtain ⟨u, hu⟩ : ∃ u, u = s.ctlTake 0 (.group 7 { bootMsg with arg := BitVec.ofNat 24 (bton false), value := len }) := ⟨_, rfl⟩
  obtain ⟨hh, hn, -, -, -, hl, hgo⟩ := neighbour_taken hboot h5 (.group 7 { bootMsg with arg := BitVec.ofNat 24 (bton false), value := len })
  rw [← hu] at hh hn hl hgo
  refine ⟨u, hh, hn, hl, ?_⟩
  show execBootEnd false len env s = _
  unfold execBootEnd
  dsimp only
  rw [← hu, if_neg hgo, if_neg (by rw [hh]; simpa using hlen), hkCheck_congr hh]

theorem runs_bootEnd_runs {len : Word} {env : StartEnv} (hlen : len.toNat ≤ 8 * s.hearth.bootIdx) (hc : s.hkCheck = none) (hp : env.pllFail = [])
    (ht : env.trainFail = []) (hself : env.selfTestOk = true) : Runs (.bootEnd false len env) s fun t =>
    t.hearth.boot = .run ∧ t.fget rStartStatus fStartStatusBank = 3 ∧ t.hearth.wdt = some s.now := by
  obtain ⟨u, -, hn, -, hrun⟩ := bootEnd_whole hboot h5 env hlen
  rw [hc, if_neg (by simp)] at hrun
  obtain ⟨hrunning, -, -, hbank, hwdt, -⟩ := bringUp_runs (s := u) (img := fwImg (u.hkBytes 0 4096) u.seqNext 3) hp ht hself (by decide : 3 < 4)
  exact ⟨_, hrun, hrunning, hbank, hwdt.trans (by rw [hn])⟩

theorem runs_bootEnd_fails {len : Word} {env : StartEnv} (hlen : len.toNat ≤ 8 * s.hearth.bootIdx) (hc : s.hkCheck ≠ none) :
    Runs (.bootEnd false len env) s fun t => t.hearth.boot = .failed ∧ t.log.arrivals = s.log.arrivals ++ [evr 0x0010 0x10 0 0 0 1] := by
  obtain ⟨u, -, -, hl, hrun⟩ := bootEnd_whole hboot h5 env hlen
  rw [if_pos (Option.isSome_iff_ne_none.2 hc)] at hrun
  obtain ⟨hfail, harr, -⟩ := startFailBy_fields u 0x10 1
  exact ⟨_, hrun, hfail, harr.trans (by rw [hl])⟩

end

/-- Settles O59: each source of a reset from what its reset clears, each start from where its steps end. -/
theorem resetsAndStart : Obligations.ResetsAndStart := by
  unfold Obligations.ResetsAndStart
  intro s env banks kept
  refine ⟨fun cause hup hoff => ⟨runs_powerTrip_applied cause hup hoff, runs_powerTrip_outranked cause hup hoff⟩, fun hhold => ?_,
    runs_hearthPowerLoss s, runs_powerOn, runs_modResetN, runs_selfRestart, runs_watchdog, runs_wdtKick,
    fun hup hboot h3 h4 => ⟨runs_powerGood_front hup hboot h3 h4, runs_powerGood_porch hup hboot h3 h4, fun b => runs_powerGood_unlocked hup hboot h3 h4,
      fun b => runs_powerGood_runs hup hboot h3 h4⟩,
    runs_startStable, fun h5 hboot => ⟨runs_bootReq_refused h5 hboot, fun i => runs_bootReq_serves h5 hboot⟩, bootReq_idle,
    fun hboot h5 => ⟨fun idx v => ⟨runs_bootData_next hboot h5 v, runs_bootData_gap hboot h5 v⟩,
      fun len => ⟨runs_bootEnd_refused hboot h5 len env, runs_bootEnd_runs hboot h5, runs_bootEnd_fails hboot h5⟩⟩, fun hboot => ?_⟩
  · exact ⟨{ s with hearth := { s.hearth with boot := .rails } }, congrArg Host.Outcome.next (if_pos hhold), rfl, fun _ => rfl, fun _ => rfl, rfl⟩
  · exact ⟨s.startFail 4, congrArg Host.Outcome.next (if_pos hboot), startFailBy_fields s 0x10 4⟩

end Sys2Proof.Machine

/-! ## THP requests: what leaves, and what the port changes (O53, O54) -/

namespace Sys2Proof.Machine
-- One proof at a time, as in Sys2Proof/Laws: each waiting proof would keep a thread and its stack.
set_option Elab.async false

/-! ### Steps of the port -/

/-- The port alone has worked: host side, frames sent and THP_TX_CNT; queue pairs and memory regions stay, and no frame is taken back. -/
structure PortOnly (s t : State) : Prop where
  eq : ∃ h o r, t = { s with host := h, sent := o, regs := r }
  regs : RegsBut (· = rThpTxCnt) s t
  qps : t.host.qps = s.host.qps
  mrs : t.host.mrs = s.host.mrs
  sent : s.sent <+: t.sent

section
variable {s t u : State}

theorem PortOnly.of_host (s : State) (h : HostS) (hq : h.qps = s.host.qps) (hm : h.mrs = s.host.mrs) : PortOnly s { s with host := h } :=
  ⟨⟨h, s.sent, s.regs, rfl⟩, fun _ _ => rfl, hq, hm, List.prefix_rfl⟩

theorem PortOnly.refl (s : State) : PortOnly s s := .of_host s s.host rfl rfl

theorem PortOnly.trans (h : PortOnly s t) (h' : PortOnly t u) : PortOnly s u := by
  obtain ⟨⟨a, b, c, rfl⟩, hr, hq, hm, hs⟩ := h
  obtain ⟨⟨a', b', c', rfl⟩, hr', hq', hm', hs'⟩ := h'
  exact ⟨⟨a', b', c', rfl⟩, fun x hx => (hr' x hx).trans (hr x hx), hq'.trans hq, hm'.trans hm, hs.trans hs'⟩

theorem PortOnly.touch (h : PortOnly s t) : Touch (· = rThpTxCnt) s t := by
  obtain ⟨⟨_, _, _, rfl⟩, hr, -⟩ := h
  exact ⟨hr, rfl, rfl⟩

theorem PortOnly.groups (h : PortOnly s t) (g : Nat) : t.group g = s.group g := by
  obtain ⟨⟨_, _, _, rfl⟩, -⟩ := h
  rfl

theorem PortOnly.hearth (h : PortOnly s t) : t.hearth = s.hearth := by
  obtain ⟨⟨_, _, _, rfl⟩, -⟩ := h
  rfl

theorem PortOnly.ctxs (h : PortOnly s t) : t.ctxs = s.ctxs := by
  obtain ⟨⟨_, _, _, rfl⟩, -⟩ := h
  rfl

theorem PortOnly.cores (h : PortOnly s t) : t.cores = s.cores := by
  obtain ⟨⟨_, _, _, rfl⟩, -⟩ := h
  rfl

theorem PortOnly.bell (h : PortOnly s t) : t.bell = s.bell := by
  obtain ⟨⟨_, _, _, rfl⟩, -⟩ := h
  rfl

theorem PortOnly.log (h : PortOnly s t) : t.log = s.log := by
  obtain ⟨⟨_, _, _, rfl⟩, -⟩ := h
  rfl

end

theorem PortOnly.foldl {α : Type} (f : State → α → State) (hf : ∀ s x, PortOnly s (f s x)) (l : List α) : ∀ s, PortOnly s (l.foldl f s) := by
  induction l with
  | nil => exact .refl
  | cons x l ih => exact fun s => (hf s x).trans (ih _)

theorem portOnly_txFrame (s : State) (o : Out) : PortOnly s (s.txFrame o) := by
  cases ho : o.isThp with
  | true =>
    rw [txFrame_thp s ho]
    exact ⟨⟨_, _, _, rfl⟩, fun a ha => reg_count_other _ _ ha, rfl, rfl, List.prefix_append _ _⟩
  | false =>
    rw [txFrame_plain s ho]
    exact ⟨⟨s.host, _, s.regs, rfl⟩, fun _ _ => rfl, rfl, rfl, List.prefix_append _ _⟩

theorem portOnly_portSend (s : State) (w : Bool) (prio : Nat) (o : Out) : PortOnly s (s.portSend w prio o) := by
  unfold State.portSend
  cases w with
  | true => exact .of_host s _ rfl rfl
  | false => exact portOnly_txFrame s o

theorem portOnly_modSession (s : State) (sid : BitVec 32) (f : Session → Session) : PortOnly s (s.modSession sid f) := .of_host s _ rfl rfl

theorem portOnly_portRelease (s : State) : PortOnly s s.portRelease := by
  unfold State.portRelease
  split_ifs
  · exact .refl s
  · rw [List.partition_eq_filter_filter]
    exact (PortOnly.of_host s { s.host with held := s.host.held.filter fun e => s.pausedNow e.1 } rfl rfl).trans (.foldl _ portOnly_txFrame _ _)

theorem portOnly_sendDev (s : State) (sid : BitVec 32) (op : Nat) (a0 a1 : Word) (data : Bytes) : PortOnly s (s.sendDev sid op a0 a1 data) := by
  unfold State.sendDev
  split
  · exact .refl s
  · exact (portOnly_modSession s sid _).trans (portOnly_portSend _ _ _ _)

theorem portOnly_pumpNotices (n : Nat) : ∀ s, PortOnly s (pumpNotices n s) := by
  induction n with
  | zero => exact .refl
  | succ n ih =>
    intro s
    rw [pumpNotices]
    split
    next q qs x hqs hx =>
      split_ifs
      · exact .refl s
      · exact ((PortOnly.of_host s { s.host with notices := qs } rfl rfl).trans (portOnly_sendDev _ _ _ _ _ _)).trans (ih _)
    next => exact .refl s

/-- A group without a trickle has none to send. -/
theorem pumpTrickle_none (n : Nat) {s : State} {g : Nat} (h : (s.group g).trickle = none) : pumpTrickle n g s = s := by
  cases n with
  | zero => rfl
  | succ n =>
    rw [pumpTrickle, h]

/-- With no trickle anywhere the device sends held frames and notices alone. -/
theorem portOnly_pump {s : State} (h : ∀ g, (s.group g).trickle = none) : PortOnly s s.pump := by
  have hn := (portOnly_portRelease s).trans (portOnly_pumpNotices 256 s.portRelease)
  have hfold : ∀ (l : List Nat) (u : State), (∀ g, (u.group g).trickle = none) → l.foldl (fun s g => pumpTrickle 66 g s) u = u := by
    intro l
    induction l with
    | nil => exact fun _ _ => rfl
    | cons g l ih =>
      intro u hu
      rw [List.foldl_cons, pumpTrickle_none 66 (hu g)]
      exact ih u hu
  unfold State.pump
  dsimp only
  split_ifs
  · exact portOnly_portRelease s
  · rw [hfold _ _ fun g => (congrArg GroupS.trickle (hn.groups g)).trans (h g)]
    exact hn

/-- With nothing held and no notice, nothing leaves by itself. -/
theorem pump_idle {s : State} (hheld : s.host.held = []) (hnot : s.host.notices = []) (h : ∀ g, (s.group g).trickle = none) : s.pump = s := by
  have hfold : ∀ l : List Nat, l.foldl (fun s g => pumpTrickle 66 g s) s = s := by
    intro l
    induction l with
    | nil => rfl
    | cons g l ih =>
      rw [List.foldl_cons, pumpTrickle_none 66 (h g)]
      exact ih
  have hnotices : pumpNotices 256 s = s := by rw [pumpNotices, hnot]
  unfold State.pump State.portRelease
  rw [if_pos hheld]
  dsimp only
  rw [hnotices, hfold, ite_self]

/-! ### Sessions -/

theorem session_modSession (s : State) (sid : BitVec 32) (f : Session → Session) (hf : ∀ x, (f x).sid = x.sid) :
    (s.modSession sid f).session sid = (s.session sid).map f := by
  have hp : ((fun x : Session => x.sid == sid) ∘ fun x => if x.sid = sid then f x else x) = fun x => x.sid == sid := by
    funext x
    by_cases hx : x.sid = sid
    · simp [hx, hf]
    · simp [hx]
  show (s.host.sessions.map fun x => if x.sid = sid then f x else x).find? (fun x => x.sid == sid) = (s.host.sessions.find? fun x => x.sid == sid).map f
  rw [List.find?_map, hp]
  cases hfound : s.host.sessions.find? fun x => x.sid == sid with
  | none => rfl
  | some x =>
    have hx := List.find?_some hfound
    rw [Option.map_some, Option.map_some, if_pos (eq_of_beq hx)]

theorem session_congr {s t : State} (h : t.host.sessions = s.host.sessions) (sid : BitVec 32) : t.session sid = s.session sid := by
  rw [State.session, h, State.session]

/-- A session in whose queue nothing waits runs nothing further. -/
theorem runWaiting_none (n : Nat) {s : State} {sid : BitVec 32} (h : ∀ x, s.session sid = some x → x.waiting = []) : runWaiting n sid s = s := by
  cases n with
  | zero => rfl
  | succ n =>
    rw [runWaiting]
    cases hx : s.session sid with
    | none => rfl
    | some x =>
      dsimp only
      rw [h x hx]
      rfl

theorem portWaits_quiet {s : State} (h : HostQuiet s) (p : Nat) : s.portWaits p = false := by
  obtain ⟨-, -, -, hheld, hpause, -⟩ := h
  rw [State.portWaits, hpause, hheld]
  rfl

/-- A request that the session expects runs at once. -/
theorem thpRequest_expected {s : State} {x : Session} {seq : BitVec 32} {q : ThpReq} (hq : HostQuiet s) (hx : s.session x.sid = some x)
    (hseq : seq.toNat = x.expect) (hfit : ethFits (32 + q.data.length) = true) :
    s.thpRequest ⟨x.sid, x.host⟩ seq q = (runWaiting 1024 x.sid ((s.count rThpRxCnt 1).runReq x.sid x seq.toNat q)).pump := by
  obtain ⟨hup, hboot, -⟩ := hq
  have hx1 : ((s.count rThpRxCnt 1).session x.sid).filter (fun y => y.host == x.host) = some x := by
    rw [session_congr (congrArg HostS.sessions (count_host s _ _)), hx, Option.filter_some, if_pos (beq_self_eq_true _)]
  unfold State.thpRequest
  rw [hup, hfit, if_neg (by decide)]
  dsimp only
  rw [hboot, if_neg Bool.false_ne_true, hx1]
  dsimp only
  rw [if_pos (by rw [hseq]; omega)]

/-- What a request's response says. -/
def Ans.resp (a : Ans) (sid : BitVec 32) (op : Nat) (seq : BitVec 32) : ThpResp :=
  ⟨sid, op, seq, a.status, BitVec.ofNat 64 a.arg0, BitVec.ofNat 64 a.arg1, a.payload⟩

/-- A request's response leaves with its effect; the session stands as before but for what it expects. -/
theorem runReq_sent {s : State} {x : Session} {seq : BitVec 32} {q : ThpReq} (hw : s.portWaits (Config.thpPrio x.cls).toNat = false) :
    ∃ u, s.runReq x.sid x seq.toNat q = u.follow x.sid (s.runOp x q).2.after ∧ PortOnly (s.runOp x q).1 u ∧
      .thp ((s.runOp x q).1.dest x.host) ((s.runOp x q).2.resp x.sid q.op seq) ∈ u.sent ∧
      (∃ f : Session → Session, (∀ y, (f y).sid = y.sid ∧ (f y).waiting = y.waiting ∧ (f y).devOut = y.devOut ∧ (f y).cls = y.cls) ∧
        u.host = ((s.runOp x q).1.modSession x.sid f).host) := by
  unfold State.runReq
  extract_lets r a resp s1 prio
  have hresp : resp = a.resp x.sid q.op seq := by
    show ThpResp.mk _ _ (BitVec.ofNat 32 seq.toNat) _ _ _ _ = _
    rw [BitVec.ofNat_toNat, BitVec.setWidth_eq]
    rfl
  refine ⟨s1.txFrame (.thp (r.1.dest x.host) resp), ?_, ?_, ?_, fun y => { y with
      expect := (seq.toNat + 1) % 2 ^ 32, done := (y.done ++ [resp]).drop (y.done.length + 1 - 1024) },
    fun y => ⟨rfl, rfl, rfl, rfl⟩, txFrame_host s1 _⟩
  · rw [show s.portWaits prio = false from hw, State.portSend, if_neg Bool.false_ne_true]
  · exact (portOnly_modSession r.1 x.sid _).trans (portOnly_txFrame _ _)
  · rw [txFrame_thp s1 rfl, ← hresp]
    exact List.mem_append_right _ (List.mem_singleton_self _)

/-- An expected request that ends with its response: its effect, and then the port alone. -/
theorem thpRequest_answers {s : State} {x : Session} {seq : BitVec 32} {q : ThpReq} (hq : HostQuiet s) (hx : s.session x.sid = some x)
    (hseq : seq.toNat = x.expect) (hwait : x.waiting = []) (hfit : ethFits (32 + q.data.length) = true) {r : State × Ans}
    (hr : (s.count rThpRxCnt 1).runOp x q = r) (hafter : r.2.after = .nothing) (hses : r.1.host.sessions = s.host.sessions)
    (htr : ∀ g, (r.1.group g).trickle = none) :
    PortOnly r.1 (s.thpRequest ⟨x.sid, x.host⟩ seq q) ∧
      .thp (r.1.dest x.host) (r.2.resp x.sid q.op seq) ∈ (s.thpRequest ⟨x.sid, x.host⟩ seq q).sent := by
  subst hr
  obtain ⟨u, hu, hport, hsent, f, hf, hhost⟩ := runReq_sent (s := s.count rThpRxCnt 1) (x := x) (seq := seq) (q := q) (portWaits_quiet hq _)
  have hnone : ∀ y, u.session x.sid = some y → y.waiting = [] := by
    intro y hy
    rw [session_congr (congrArg HostS.sessions hhost), session_modSession _ _ f fun y => (hf y).1, session_congr hses, hx, Option.map_some] at hy
    rw [← Option.some.inj hy, (hf x).2.1, hwait]
  rw [hafter] at hu
  have hrun : s.thpRequest ⟨x.sid, x.host⟩ seq q = u.pump := by
    rw [thpRequest_expected hq hx hseq hfit, hu, State.follow, runWaiting_none _ hnone]
  have hpump := portOnly_pump fun g => (congrArg GroupS.trickle (hport.groups g)).trans (htr g)
  rw [hrun]
  exact ⟨hport.trans hpump, hpump.sent.subset hsent⟩

/-- An expected request whose answer alone matters: the state stays but for the port and THP_RX_CNT. -/
theorem thpRequest_only {s : State} {x : Session} {seq : BitVec 32} {q : ThpReq} (hq : HostQuiet s) (hx : s.session x.sid = some x)
    (hseq : seq.toNat = x.expect) (hwait : x.waiting = []) (hfit : ethFits (32 + q.data.length) = true) {a : Ans}
    (hr : (s.count rThpRxCnt 1).runOp x q = (s.count rThpRxCnt 1, a)) (hafter : a.after = .nothing) :
    PortOnly (s.count rThpRxCnt 1) (s.thpRequest ⟨x.sid, x.host⟩ seq q) ∧
      .thp (s.dest x.host) (a.resp x.sid q.op seq) ∈ (s.thpRequest ⟨x.sid, x.host⟩ seq q).sent := by
  obtain ⟨-, -, -, -, -, htr⟩ := id hq
  obtain ⟨hp, hs⟩ := thpRequest_answers hq hx hseq hwait hfit hr hafter (congrArg HostS.sessions (count_host s _ _)) fun g => htr g
  rw [dest_congr (reg_count_other s 1 (show rEthGwMac ≠ rThpRxCnt by decide))] at hs
  exact ⟨hp, hs⟩

/-- The counters alone, of what the port does after a packet has come in. -/
theorem PortOnly.counted {s t : State} (h : PortOnly (s.count rThpRxCnt 1) t) : Touch thpCounter s t :=
  ((Touch.count (A := (· = rThpRxCnt)) s 1 rfl).mono fun _ => Or.inl).trans (h.touch.mono fun _ => Or.inr)

end Sys2Proof.Machine

/-! ## THP sessions, reads and writes (O53) -/

namespace Sys2Proof.Machine
-- One proof at a time, as in Sys2Proof/Laws: each waiting proof would keep a thread and its stack.
set_option Elab.async false

/-! ### Sessions open and are told INFO -/

/-- A frame of a free priority leaves and is counted. -/
theorem sendOut_free {s : State} {cls : Nat} {o : Out} (hw : s.portWaits (Config.thpPrio cls).toNat = false) : s.sendOut cls o = s.txFrame o := by
  unfold State.sendOut State.portOut State.portSend
  rw [hw, if_neg Bool.false_ne_true]

/-- An OPEN with an entry free opens a session that expects SEQ 1. -/
theorem runs_thpOpen {s : State} {h : HostAddr} {a0 a1 : Word} {sid : BitVec 32} (hq : HostQuiet s) (hcls : a0.toNat % 4 ≠ 3) (hlt : a0.toNat < 8)
    (hgroup : a0.toNat % 4 = 2 → a1.toNat < 1024) (hroom : s.host.sessions.length < 16) (hsid : sid ≠ 0) (hnew : s.session sid = none) :
    Runs (.thpOpen h a0 a1 sid) s fun t =>
      (∃ y, t.host.sessions = s.host.sessions ++ [y] ∧ y.sid = sid ∧ y.host = h ∧ y.cls = a0.toNat % 4 ∧ y.expect = 1) ∧
      t.sent = s.sent ++ [.thp (s.dest h) ⟨sid, 1, 0, 0, 0, 0, []⟩] ∧ RegsBut thpCounter s t ∧ SameMem s t := by
  obtain ⟨hup, hboot, hnot, hheld, -, htr⟩ := id hq
  have hb : bitsN a0.toNat 1 0 = a0.toNat % 4 := by simp [bitsN]
  obtain ⟨y, hy⟩ : ∃ y : Session, y = ⟨sid, h, a0.toNat % 4, if a0.toNat % 4 = 2 then a1.toNat else 0, a0.toNat % 4 == 0 && bitN a0.toNat 2, 1, [], [], 1, []⟩ :=
    ⟨_, rfl⟩
  obtain ⟨u, hu⟩ : ∃ u : State, u = { s.count rThpRxCnt 1 with host := { s.host with sessions := s.host.sessions ++ [y] } } := ⟨_, rfl⟩
  have hdest : u.dest h = s.dest h := dest_congr (by rw [hu]; exact reg_count_other s 1 (show rEthGwMac ≠ rThpRxCnt by decide)) h
  have hfree : u.portWaits (Config.thpPrio (a0.toNat % 4)).toNat = false := by rw [hu]; exact portWaits_quiet hq _
  obtain ⟨t, ht⟩ : ∃ t, t = u.txFrame (.thp (s.dest h) ⟨sid, 1, 0, 0, 0, 0, []⟩) := ⟨_, rfl⟩
  have hport : PortOnly u t := ht ▸ portOnly_txFrame u _
  have hhost : t.host = { s.host with sessions := s.host.sessions ++ [y] } := by rw [ht, txFrame_host, hu]
  have hpump : t.pump = t := pump_idle (by rw [hhost]; exact hheld) (by rw [hhost]; exact hnot) fun g => by
    rw [hport.groups, hu]
    exact htr g
  have hrun : exec (.thpOpen h a0 a1 sid) s = .next t := by
    show execThpOpen h a0 a1 sid s = _
    unfold execThpOpen
    rw [hup, if_neg (by decide)]
    extract_lets s1 cls answer y'
    rw [hboot, if_neg Bool.false_ne_true, if_neg (by rintro (e | e | ⟨e, e'⟩) <;> omega), if_neg (by omega),
      if_neg fun e => e.elim hsid (by rw [hnew]; exact Bool.false_ne_true)]
    have hcls : cls = a0.toNat % 4 := hb
    have hyy : y' = y := by rw [hy, ← hcls]
    have hu' : u = { s1 with host := { s1.host with sessions := s1.host.sessions ++ [y'] } } := by rw [hu, hyy]; rfl
    rw [← hu']
    have hans : answer u 0 = t := by
      show u.sendOut cls (.thp (u.dest h) _) = t
      rw [hcls, hdest, sendOut_free hfree, ht]
      rfl
    rw [hans, hpump]
  refine ⟨t, hrun, ⟨y, by rw [hhost], ?_⟩, ?_, ?_, ?_⟩
  · rw [hy]
    exact ⟨rfl, rfl, rfl, rfl⟩
  · rw [ht, txFrame_thp u rfl, hu]
    rfl
  · exact fun a ha => (hport.touch.regs a fun e => ha (Or.inr e)).trans (by rw [hu]; exact reg_count_other s 1 fun e => ha (Or.inl e))
  · exact fun a => rdB_congr (hport.touch.mem.trans (by rw [hu]; rfl)) a

/-- With 16 sessions open an OPEN is answered FULL. -/
theorem runs_thpOpen_full {s : State} {h : HostAddr} {a0 : Word} (a1 : Word) (sid : BitVec 32) (hq : HostQuiet s) (hcls : a0.toNat % 4 ≠ 3)
    (hlt : a0.toNat < 8) (hgroup : a0.toNat % 4 = 2 → a1.toNat < 1024) (hfull : 16 ≤ s.host.sessions.length) :
    Runs (.thpOpen h a0 a1 sid) s fun t => t.host.sessions = s.host.sessions ∧
      t.sent = s.sent ++ [.thp (s.dest h) ⟨0, 1, 0, 11, 0, 0, []⟩] ∧ RegsBut thpCounter s t ∧ SameMem s t := by
  obtain ⟨hup, hboot, -⟩ := id hq
  have hb : bitsN a0.toNat 1 0 = a0.toNat % 4 := by simp [bitsN]
  have hdest : (s.count rThpRxCnt 1).dest h = s.dest h := dest_congr (reg_count_other s 1 (show rEthGwMac ≠ rThpRxCnt by decide)) h
  obtain ⟨t, ht⟩ : ∃ t, t = (s.count rThpRxCnt 1).txFrame (.thp (s.dest h) ⟨0, 1, 0, 11, 0, 0, []⟩) := ⟨_, rfl⟩
  have hport : PortOnly (s.count rThpRxCnt 1) t := ht ▸ portOnly_txFrame _ _
  have hrun : exec (.thpOpen h a0 a1 sid) s = .next t := by
    show execThpOpen h a0 a1 sid s = _
    unfold execThpOpen
    rw [hup, if_neg (by decide)]
    extract_lets s1 cls answer y'
    rw [hboot, if_neg Bool.false_ne_true, if_neg (by rintro (e | e | ⟨e, e'⟩) <;> omega), if_pos hfull]
    show Host.Outcome.next (s1.sendOut 3 (.thp (s1.dest h) _)) = _
    rw [sendOut_free (s := s1) (cls := 3) (portWaits_quiet hq _), show s1.dest h = s.dest h from hdest, ht]
    rfl
  refine ⟨t, hrun, ?_, ?_, hport.counted.regs, hport.counted.sameMem⟩
  · rw [ht, txFrame_host, count_host]
  · rw [ht, txFrame_thp _ rfl]
    rfl

/-- INFO is told, or its answer is held behind a paused priority. -/
theorem runs_info {s : State} (h : HostAddr) (hup : s.portUp = true) : Runs (.info h) s fun t => (∃ a0,
    let o := .thp (s.dest h) ⟨0, 3, 0, 0, a0, 0, s.identity⟩
    if s.portWaits (Config.thpPrio 3).toNat then t.sent = s.sent ∧ t.host.held = s.host.held ++ [((Config.thpPrio 3).toNat, o)]
    else t.sent = s.sent ++ [o]) ∧ RegsBut thpCounter s t ∧ SameMem s t := by
  obtain ⟨a0, ha0⟩ : ∃ a0, a0 = BitVec.ofNat 64 (s.devId + s.fget rEthStatus fEthStatusPhase * 2 ^ 24) := ⟨_, rfl⟩
  obtain ⟨o, ho⟩ : ∃ o, o = Out.thp (s.dest h) ⟨0, 3, 0, 0, a0, 0, s.identity⟩ := ⟨_, rfl⟩
  have hrun : exec (.info h) s = .next ((s.count rThpRxCnt 1).portSend (s.portWaits (Config.thpPrio 3).toNat) (Config.thpPrio 3).toNat o) := by
    show execInfo h s = _
    unfold execInfo
    rw [hup, if_neg (by decide), ho, ha0]
    rfl
  have hport := portOnly_portSend (s.count rThpRxCnt 1) (s.portWaits (Config.thpPrio 3).toNat) (Config.thpPrio 3).toNat o
  refine ⟨_, hrun, ⟨a0, ?_⟩, hport.counted.regs, hport.counted.sameMem⟩
  rw [← ho]
  cases s.portWaits (Config.thpPrio 3).toNat with
  | true => exact ⟨rfl, rfl⟩
  | false =>
    show ((s.count rThpRxCnt 1).txFrame o).sent = s.sent ++ [o]
    rw [txFrame_thp _ (by rw [ho]; rfl)]
    rfl

/-! ### Requests of a control session -/

section
variable {s : State} {x : Session} {seq : BitVec 32}

/-- A CLOSE of a control session with nothing unanswered ends it. -/
theorem runs_thpClose (ht : Takes s x seq) (hdev : x.devOut = []) : Runs (.thpClose ⟨x.sid, x.host⟩ seq) s fun t => t.session x.sid = none ∧
    .thp (s.dest x.host) ⟨x.sid, 2, seq, 0, 0, 0, []⟩ ∈ t.sent ∧ RegsBut thpCounter s t ∧ SameMem s t := by
  obtain ⟨hq, hporch, hx, hcls, hseq, hwait⟩ := ht
  obtain ⟨-, -, hnot, hheld, -, htr⟩ := id hq
  obtain ⟨q, hqq⟩ : ∃ q : ThpReq, q = ⟨opClose, 0, 0, [], none, ⟨[], []⟩, 0⟩ := ⟨_, rfl⟩
  have hop : (s.count rThpRxCnt 1).runOp x q = (s.count rThpRxCnt 1, { after := .close }) := by
    have hp : (s.count rThpRxCnt 1).inPorch = false := hporch
    unfold State.runOp
    rw [hp, hcls, hqq]
    rfl
  obtain ⟨u, hu, hport, hsent, f, hf, hhost⟩ := runReq_sent (s := s.count rThpRxCnt 1) (x := x) (seq := seq) (q := q) (portWaits_quiet hq _)
  rw [hop] at hu hport hsent hhost
  rw [dest_congr (reg_count_other s 1 (show rEthGwMac ≠ rThpRxCnt by decide))] at hsent
  have hux : u.session x.sid = some (f x) := by
    rw [session_congr (congrArg HostS.sessions hhost), session_modSession _ _ f fun y => (hf y).1,
      session_congr (congrArg HostS.sessions (count_host s _ _)), hx]
    rfl
  obtain ⟨c, hc⟩ : ∃ c : State, c = { u with host := { u.host with sessions := u.host.sessions.filter fun y => y.sid != x.sid, notices := [] } } := ⟨_, rfl⟩
  have hunot : u.host.notices = [] := (congrArg HostS.notices hhost).trans hnot
  have huheld : u.host.held = [] := (congrArg HostS.held hhost).trans hheld
  have hclose : u.closeSession x.sid = c := by
    obtain ⟨-, -, hfdev, hfcls⟩ := hf x
    unfold State.closeSession
    rw [hux]
    dsimp only
    rw [hfdev, hdev, hunot, hfcls, hcls, hc]
    rfl
  have hcses : c.session x.sid = none := by
    rw [hc]
    exact List.find?_eq_none.2 fun y hy => by have := (List.mem_filter.1 hy).2; simpa using this
  have hcport : PortOnly (s.count rThpRxCnt 1) c := hport.trans (hc ▸ PortOnly.of_host u _ rfl rfl)
  have hcheld : c.host.held = [] := by rw [hc]; exact huheld
  have hcnot : c.host.notices = [] := by rw [hc]
  have hpump : c.pump = c := pump_idle hcheld hcnot fun g => (congrArg GroupS.trickle (hcport.groups g)).trans (htr g)
  have hrun : exec (.thpClose ⟨x.sid, x.host⟩ seq) s = .next c := by
    show Host.Outcome.next (s.thpRequest ⟨x.sid, x.host⟩ seq _) = _
    rw [← hqq, thpRequest_expected hq hx hseq (by rw [hqq]; decide), hu, State.follow, hclose,
      runWaiting_none _ (by rw [hcses]; exact fun _ h => (Option.some_ne_none _ h.symm).elim), hpump]
  refine ⟨c, hrun, hcses, ?_, hcport.counted.regs, hcport.counted.sameMem⟩
  rw [hqq] at hsent
  rw [hc]
  exact hsent

/-- A READ of HBM answers its bytes, or POISON. -/
theorem runs_read (ht : Takes s x seq) {a n : Nat} (hpos : 0 < n) (hmax : n ≤ s.maxPayload) (hn : n < 65536) (hend : a + n ≤ hbmEnd) {a' : Ans}
    (ha : a' = if s.poisoned a n then Ans.of stPoison else { payload := s.rdBytes a n }) :
    Runs (.read ⟨x.sid, x.host⟩ seq (BitVec.ofNat 64 a) (BitVec.ofNat 64 n)) s fun t =>
      .thp (s.dest x.host) (a'.resp x.sid 0x10 seq) ∈ t.sent ∧ RegsBut thpCounter s t ∧ SameMem s t := by
  obtain ⟨hq, hporch, hx, hcls, hseq, hwait⟩ := ht
  have han : a < 0xF000000000 := by unfold hbmEnd at hend; omega
  have hop : (s.count rThpRxCnt 1).runOp x ⟨opRead, BitVec.ofNat 64 a, BitVec.ofNat 64 n, [], none, ⟨[], []⟩, 0⟩ = (s.count rThpRxCnt 1, a') := by
    have hp : (s.count rThpRxCnt 1).inPorch = false := hporch
    have hrun : (s.count rThpRxCnt 1).runOp x ⟨opRead, BitVec.ofNat 64 a, BitVec.ofNat 64 n, [], none, ⟨[], []⟩, 0⟩ =
        (s.count rThpRxCnt 1).ansRead ⟨opRead, BitVec.ofNat 64 a, BitVec.ofNat 64 n, [], none, ⟨[], []⟩, 0⟩ := by
      unfold State.runOp
      rw [hp, hcls]
      rfl
    have ha0 : (BitVec.ofNat 64 a).toNat = a := by rw [BitVec.toNat_ofNat]; omega
    have ha1 : (BitVec.ofNat 64 n).toNat = n := by rw [BitVec.toNat_ofNat]; omega
    have hmax1 : (s.count rThpRxCnt 1).maxPayload = s.maxPayload := congrArg fThpCfgMaxPayload.get (reg_count_other s 1 (by decide))
    have hpo : (s.count rThpRxCnt 1).poisoned a n = s.poisoned a n := poisoned_congr rfl _ _
    have hrd : (s.count rThpRxCnt 1).rdBytes a n = s.rdBytes a n := rdBytes_congr fun b _ _ => rfl
    rw [hrun, State.ansRead]
    dsimp only
    rw [ha0, ha1]
    have h1 : bitsN n 15 0 = n := by unfold bitsN; omega
    have h2 : bitsN a 63 60 = 0 := by unfold bitsN; omega
    have h3 : bitsN a 59 48 = 0 := by unfold bitsN; omega
    have h4 : bitsN a 47 0 = a := by unfold bitsN; omega
    rw [h1, h2, h3, h4, hmax1, if_neg (by omega), if_pos rfl, if_neg (by omega), hpo, hrd, ha]
    split_ifs <;> rfl
  have haft : a'.after = .nothing := by
    rw [ha]
    split_ifs <;> rfl
  obtain ⟨hport, hsent⟩ := thpRequest_only hq hx hseq hwait rfl hop haft
  exact ⟨_, rfl, hsent, hport.counted.regs, hport.counted.sameMem⟩

/-- A WRITE to HBM outside the device's own area stores its bytes. -/
theorem runs_write (ht : Takes s x seq) {a : Nat} {data : Bytes} (hpos : 0 < data.length) (hmax : data.length ≤ s.maxPayload)
    (hfit : ethFits (32 + data.length) = true) (hend : a + data.length ≤ hbmEnd) (hown : a + data.length ≤ 0xEE04000000 ∨ 0xEE08000000 ≤ a) :
    Runs (.write ⟨x.sid, x.host⟩ seq (BitVec.ofNat 64 a) data) s fun t => t.rdBytes a data.length = data ∧
      .thp (s.dest x.host) ⟨x.sid, 0x11, seq, 0, 0, 0, []⟩ ∈ t.sent ∧ MemBut a data.length s t ∧ RegsBut thpCounter s t := by
  obtain ⟨hq, hporch, hx, hcls, hseq, hwait⟩ := ht
  obtain ⟨-, -, -, -, -, htr⟩ := id hq
  have han : a < 0xF000000000 := by unfold hbmEnd at hend; omega
  obtain ⟨u, hu⟩ : ∃ u, u = (s.count rThpRxCnt 1).wrHbm a data := ⟨_, rfl⟩
  have hueq := wrHbm_eq (s.count rThpRxCnt 1) a data
  rw [← hu] at hueq
  have hop : (s.count rThpRxCnt 1).runOp x ⟨opWrite, BitVec.ofNat 64 a, 0, data, none, ⟨[], []⟩, 0⟩ = (u, {}) := by
    have hp : (s.count rThpRxCnt 1).inPorch = false := hporch
    have hrun : (s.count rThpRxCnt 1).runOp x ⟨opWrite, BitVec.ofNat 64 a, 0, data, none, ⟨[], []⟩, 0⟩ =
        (s.count rThpRxCnt 1).ansWrite 0 ⟨opWrite, BitVec.ofNat 64 a, 0, data, none, ⟨[], []⟩, 0⟩ := by
      unfold State.runOp
      rw [hp, hcls]
      rfl
    have ha0 : (BitVec.ofNat 64 a).toNat = a := by rw [BitVec.toNat_ofNat]; omega
    have hmax1 : (s.count rThpRxCnt 1).maxPayload = s.maxPayload := congrArg fThpCfgMaxPayload.get (reg_count_other s 1 (by decide))
    have h2 : bitsN a 63 60 = 0 := by unfold bitsN; omega
    have h3 : bitsN a 59 48 = 0 := by unfold bitsN; omega
    have h4 : bitsN a 47 0 = a := by unfold bitsN; omega
    rw [hrun, State.ansWrite]
    dsimp only
    rw [ha0, h2, h3, h4, hmax1, if_neg (by omega), if_neg (by simp), if_pos rfl, if_neg (by omega), if_neg (by omega), hu]
  obtain ⟨hport, hsent⟩ := thpRequest_answers hq hx hseq hwait hfit hop rfl (by rw [hueq]; rfl) fun g => by
    rw [hueq]
    exact htr g
  have hdest : u.dest x.host = s.dest x.host := dest_congr (by rw [hueq]; exact reg_count_other s 1 (show rEthGwMac ≠ rThpRxCnt by decide)) _
  have hmem : ∀ b, (s.thpRequest ⟨x.sid, x.host⟩ seq ⟨opWrite, BitVec.ofNat 64 a, 0, data, none, ⟨[], []⟩, 0⟩).rdB b = u.rdB b := hport.touch.sameMem
  refine ⟨_, rfl, ?_, ?_, fun b hb => ?_, fun r hr => ?_⟩
  · rw [rdBytes_congr fun b _ _ => hmem b, hu]
    exact rdBytes_wrBytes _ a data
  · rw [← hdest]
    exact hsent
  · rw [hmem, hu]
    exact wrHbm_rdB_other _ a data hb
  · refine (hport.touch.regs r fun e => hr (Or.inr e)).trans ?_
    rw [hueq]
    exact reg_count_other s 1 fun e => hr (Or.inl e)

/-- A request behind the one expected waits. -/
theorem runs_read_ahead (hq : HostQuiet s) (hx : s.session x.sid = some x) (h1 : 1 ≤ (seq.toNat + 2 ^ 32 - x.expect) % 2 ^ 32)
    (h2 : (seq.toNat + 2 ^ 32 - x.expect) % 2 ^ 32 ≤ 1023) (hnew : ∀ w ∈ x.waiting, w.1 ≠ seq.toNat) (a0 a1 : Word) :
    Runs (.read ⟨x.sid, x.host⟩ seq a0 a1) s fun t => t.sent = s.sent ∧
      (t.session x.sid).map (fun y => y.waiting.length) = some (x.waiting.length + 1) ∧ RegsBut thpCounter s t ∧ SameMem s t := by
  obtain ⟨hup, hboot, -⟩ := hq
  obtain ⟨q, hqq⟩ : ∃ q : ThpReq, q = ⟨opRead, a0, a1, [], none, ⟨[], []⟩, 0⟩ := ⟨_, rfl⟩
  have hx1 : (s.count rThpRxCnt 1).session x.sid = some x := (session_congr (congrArg HostS.sessions (count_host s _ _)) _).trans hx
  have hany : (x.waiting.any fun e => e.1 == seq.toNat) = false := List.any_eq_false.2 fun w hw => by simpa using hnew w hw
  have hrun : exec (.read ⟨x.sid, x.host⟩ seq a0 a1) s =
      .next ((s.count rThpRxCnt 1).modSession x.sid fun y => { y with waiting := y.waiting ++ [(seq.toNat, q)] }) := by
    show Host.Outcome.next (s.thpRequest ⟨x.sid, x.host⟩ seq _) = _
    rw [← hqq]
    unfold State.thpRequest
    rw [hup, show ethFits (32 + q.data.length) = true by rw [hqq]; rfl, if_neg (by decide)]
    dsimp only
    rw [hboot, if_neg Bool.false_ne_true, hx1, Option.filter_some, if_pos (beq_self_eq_true _)]
    dsimp only
    rw [if_neg (by omega), if_pos h2, hany, if_neg Bool.false_ne_true]
  refine ⟨_, hrun, rfl, ?_, fun a ha => reg_count_other s 1 fun e => ha (Or.inl e), fun _ => rfl⟩
  rw [session_modSession, hx1]
  · exact congrArg some (List.length_append ..)
  · exact fun _ => rfl

end

/-! ### Requests of the device -/

section
variable {s : State} {x : Session} (hq : HostQuiet s) (hx : s.host.sessions = [x])
include hq hx

/-- The answer to a device's request takes it off the list. -/
theorem runs_thpDeviceResponse (seq : BitVec 32) (status : BitVec 16) : Runs (.thpDeviceResponse x.sid seq status) s fun t =>
    (t.session x.sid).map Session.devOut = some (x.devOut.filter fun d => d.seq != seq.toNat) ∧ RegsBut thpCounter s t ∧ SameMem s t := by
  obtain ⟨hup, hboot, hnot, hheld, -, htr⟩ := hq
  obtain ⟨u, hu⟩ : ∃ u : State, u = (s.count rThpRxCnt 1).modSession x.sid fun y => { y with devOut := y.devOut.filter fun d => d.seq != seq.toNat } := ⟨_, rfl⟩
  have hsession : s.session x.sid = some x := by rw [State.session, hx]; simp
  have hport : PortOnly (s.count rThpRxCnt 1) u := hu ▸ portOnly_modSession _ _ _
  have hrun : exec (.thpDeviceResponse x.sid seq status) s = .next u := by
    show execThpDeviceResponse x.sid seq status s = _
    unfold execThpDeviceResponse
    rw [if_neg (by rw [hup, hboot]; decide), ← hu, pump_idle (by rw [hu]; exact hheld) (by rw [hu]; exact hnot) fun g => by rw [hu]; exact htr g]
  refine ⟨u, hrun, ?_, hport.counted.regs, hport.counted.sameMem⟩
  rw [hu, session_modSession, session_congr (congrArg HostS.sessions (count_host s _ _)), hsession]
  · rfl
  · exact fun _ => rfl

/-- An unanswered request of the device is sent again, and its sends count. -/
theorem runs_deviceRequestResend {seq : BitVec 32} {d : DevReq} (hdev : x.devOut = [d]) (hseq : d.seq = seq.toNat) (hsends : d.sends < 16) :
    Runs (.deviceRequestResend x.sid seq) s fun t =>
      t.sent = s.sent ++ [.thpDev (s.dest x.host) x.sid d.op d.seq d.a0 d.a1 d.data] ∧
      (t.session x.sid).map Session.devOut = some [{ d with sends := d.sends + 1 }] ∧ RegsBut thpCounter s t ∧ SameMem s t := by
  obtain ⟨u, hu⟩ : ∃ u : State, u = s.modSession x.sid fun y => { y with devOut := y.devOut.map fun e => if e.seq = d.seq then { e with sends := e.sends + 1 } else e } :=
    ⟨_, rfl⟩
  have hsession : s.session x.sid = some x := by rw [State.session, hx]; simp
  have hfind : (x.devOut.find? fun e => e.seq == seq.toNat) = some d := by rw [hdev]; simp [hseq]
  have hfree : u.portWaits (Config.thpPrio x.cls).toNat = false := hu ▸ portWaits_quiet hq _
  have hrun : exec (.deviceRequestResend x.sid seq) s = .next (u.txFrame (.thpDev (s.dest x.host) x.sid d.op d.seq d.a0 d.a1 d.data)) := by
    show execDeviceRequestResend x.sid seq s = _
    unfold execDeviceRequestResend
    rw [hsession, Option.bind_some, hfind]
    dsimp only [Option.map_some]
    rw [if_neg (by omega), ← hu, sendOut_free hfree]
  have hport := (hu ▸ portOnly_modSession s x.sid _ : PortOnly s u).trans (portOnly_txFrame u (.thpDev (s.dest x.host) x.sid d.op d.seq d.a0 d.a1 d.data))
  refine ⟨_, hrun, ?_, ?_, (hport.touch.mono fun _ => Or.inr).regs, hport.touch.sameMem⟩
  · rw [txFrame_thp u rfl, hu]
    rfl
  · rw [session_congr (congrArg HostS.sessions (txFrame_host u _)), hu, session_modSession, hsession]
    · simp [hdev]
    · exact fun _ => rfl

/-- An idle session ends, what it was still owed with it. -/
theorem runs_sessionIdle : Runs (.sessionIdle x.sid) s fun t => t.session x.sid = none ∧ SameRegs s t ∧ SameMem s t := by
  obtain ⟨-, -, hnot, hheld, -⟩ := hq
  have hsession : s.session x.sid = some x := by rw [State.session, hx]; simp
  have hclosed : (s.closeSession x.sid).host.sessions = [] ∧ (s.closeSession x.sid).host.held = [] ∧ (s.closeSession x.sid).regs = s.regs ∧
      (s.closeSession x.sid).mem = s.mem := by
    unfold State.closeSession
    rw [hsession]
    dsimp only
    have hnone : (s.host.sessions.filter fun y => y.sid != x.sid) = [] := by rw [hx]; simp
    rw [hnone]
    obtain ⟨l, hl⟩ : ∃ l, l = ((x.devOut.filter fun d => d.op == opNotify).map fun d => (d.a0.toNat, d.a1)) ++ s.host.notices := ⟨_, rfl⟩
    rw [← hl]
    split_ifs <;> exact ⟨rfl, hheld, rfl, rfl⟩
  obtain ⟨hses, hh, hregs, hmem⟩ := hclosed
  have hpump : (s.closeSession x.sid).pump = s.closeSession x.sid := by
    unfold State.pump State.portRelease
    rw [if_pos hh]
    exact if_pos hses
  refine ⟨_, congrArg Host.Outcome.next hpump, ?_, reg_congr hregs, rdB_congr hmem⟩
  rw [State.session, hses]
  rfl

end

/-- Settles O53: what each packet does from its place in the session's order, and that with nothing held the port sends nothing else. -/
theorem thpSessions : Obligations.ThpSessions := by
  unfold Obligations.ThpSessions
  intro s x seq sid
  refine ⟨fun h a0 a1 hq hcls hlt hgroup => ⟨runs_thpOpen hq hcls hlt hgroup, runs_thpOpen_full a1 sid hq hcls hlt hgroup⟩, runs_info,
    fun ht => ⟨runs_thpClose ht, ?_, fun a data => runs_write ht⟩, ?_, runs_read_ahead,
    fun hq hx => ⟨runs_thpDeviceResponse hq hx seq, fun d => runs_deviceRequestResend hq hx, runs_sessionIdle hq hx⟩⟩
  · intro a n hpos hmax hn hend
    exact ⟨fun hp => runs_read (a' := { payload := s.rdBytes a n }) ht hpos hmax hn hend (by rw [hp]; rfl),
      fun hp => runs_read (a' := Ans.of stPoison) ht hpos hmax hn hend (by rw [hp]; rfl)⟩
  · intro f a0 data hfit
    refine ⟨s, congrArg Host.Outcome.next (if_pos ?_), rfl⟩
    rw [hfit]
    simp

end Sys2Proof.Machine
